-- ==== Sys2Proof/Word.lean ====
section
/-!
DEFINITION. The word types of the Engor EN-7340 and a field of a register.
-/

namespace Sys2Proof

/-- One byte. -/
abbrev Byte := BitVec 8
/-- A set-up register, a data register of an engine, a Tongs register: 32 bits (R4, R150). -/
abbrev W32 := BitVec 32

end Sys2Proof

namespace Sys2Proof.Machine

/-- A field of a set-up register: the register's key, the field's lowest bit and its width in bits. -/
structure Fld where
  addr : Nat
  lo : Nat
  w : Nat
deriving DecidableEq, Repr

/-- The access codes of R5. -/
inductive Acc where
  | ro | rw | w1c | w1s | wo | rwl | roc
deriving DecidableEq, Repr

/-- One row of a register table: lowest bit, width, access code, reset value, and what the reset value grows by per instance. -/
structure FldDef where
  lo : Nat
  w : Nat
  acc : Acc
  reset : Nat
  step : Nat
deriving DecidableEq, Repr

/-- One register table: its key, its instances (count and stride, twice) and its fields. -/
structure RegDef where
  base : Nat
  n1 : Nat
  s1 : Nat
  n2 : Nat
  s2 : Nat
  fields : List FldDef
deriving DecidableEq, Repr

/-- Is key `a` an instance of this register? -/
def RegDef.covers (d : RegDef) (a : Nat) : Bool :=
  if a < d.base then false
  else
    let o := a - d.base
    if d.n1 ≤ 1 then o == 0
    else
      let i := o / d.s1
      let r := o % d.s1
      if d.n2 ≤ 1 then decide (i < d.n1) && r == 0
      else decide (i < d.n1) && r % d.s2 == 0 && decide (r / d.s2 < d.n2)

/-- The first index of the instance that key `a` names. -/
def RegDef.index (d : RegDef) (a : Nat) : Nat := if d.s1 = 0 then 0 else (a - d.base) / d.s1

/-- The reset value of the instance at key `a`. -/
def RegDef.resetNat (d : RegDef) (a : Nat) : Nat :=
  d.fields.foldl (fun acc f => acc + ((f.reset + f.step * d.index a) % 2 ^ f.w) * 2 ^ f.lo) 0

end Sys2Proof.Machine
end

