-- ==== Sys2Proof/Syntax.lean ====
section
/-!
DEFINITION. The commands of the Engor EN-7340: one constructor per row of the opcode table, with the row's operands, and the
types the operands are written in.
-/

namespace Sys2Proof

/-- Who issues a set-up access (R25, R27, R139, DEV_ACCERR.SRC): the host through PF0 BAR0 (REG_WRITE pairs act as host writes),
the host through PF1 BAR0, an engine's load or store, an engine's emit queue at commit, the JTAG debug port. -/
inductive Who where
  | host
  | pf1
  | engine (e : Fin 16)
  | emit (e : Fin 16) (strike : Bool)
  | jtag
deriving DecidableEq, Repr

/-- A device's TOPO report (R398). -/
structure Topo where
  uid : BitVec 64
  prev : Nat
  /-- Neighbour UID and link per link; none for a link that is not UP. -/
  nbrs : List (Option (BitVec 64 × Nat))
deriving DecidableEq, Repr

/-- What a Chain cell carries. Where the spec gives the payload bytes it carries `bytes`; the other messages carry their fields,
whose places the spec does not state (DEDUCED, log entry 20). -/
inductive Body where
  | bytes (b : List (BitVec 8))
  | topo (t : Topo)
  /-- A device's ID (0xFF none) and its 32 table entries. -/
  | route (uid : BitVec 64) (id : Nat) (table : List Nat)
  | commit (uid : BitVec 64)
  | drainq
  /-- Acknowledges the operation `op` of device `uid`. -/
  | ack (op : Nat) (uid : BitVec 64)
  | propose (mode : Nat) (hash : BitVec 64) (pnum target : Nat)
  /-- Reason 0: READY. -/
  | vote (pnum reason : Nat)
  | mcommit (mode pnum : Nat)
  | mabort (pnum : Nat)
  /-- 1 START, 2 STOP, 3 CRESET: target tick, configuration hash, firmware version, TP, device mask. -/
  | run (cmd target : Nat) (hash : BitVec 64) (ver tp mask : BitVec 32)
  /-- Link delay times as time-base values. -/
  | dly (t1 t2 t3 : BitVec 92)
deriving DecidableEq, Repr

/-- A Chain cell (12, Cells). -/
structure Cell where
  kind : Nat
  vc : Nat
  tree : Bool
  op : Nat
  dst : Nat
  src : Nat
  hops : Nat
  plen : Nat
  tag : Nat
  body : Body
deriving DecidableEq, Repr


/-- A step of a copy: the ring at the head of whose work it is, and how many of its 16-byte units are done, 0 all that are left (R116). -/
structure CopyRun where
  ring : Fin 64
  units : BitVec 20
deriving DecidableEq, Repr

/-- What the boot SPI flash answers to an SFDP read, and what it holds at offset 0 (R284, R285). -/
structure BootFlash where
  sfdp : List (BitVec 8)
  dir : List (BitVec 8)
deriving DecidableEq, Repr

/-- Where a received frame goes: a tile marks it local (R340); the personality that owns the port delivers it to the host (R106). -/
structure RxRoute where
  loc : Bool
  toHost : Bool
deriving DecidableEq, Repr

/-- On a cut-through path: a frame arrives, with the class that a personality gives it, and whether a tile marks it local (R337, R338); or a
tile aborts the one in progress (R296). -/
inductive CutEvent where
  | frame (cls : Option (Fin 8)) (loc : Bool)
  | abort
deriving DecidableEq, Repr

/-- How a TOPO reaches this device: its link, and whether it has TREE 1 (R397). -/
structure TopoHop where
  link : Fin 4
  tree : Bool
deriving DecidableEq, Repr

/-- How a SYNC reaches this device: its header's source and hops (R389), and its residence here in 2^-16 ns (R435). -/
structure SyncHop where
  res : BitVec 64
  src : Fin 32
  hops : Fin 16
deriving DecidableEq, Repr

/-- A received CAN frame in the buffer layout, which the personality that owns the controller may deliver to the host (R106, R351). -/
structure CanRx where
  bytes : List (BitVec 8)
  toHost : Bool
deriving DecidableEq, Repr

/-- The commands of the Engor: one constructor per row of the opcode table. -/
inductive Instr where
  /-- REGISTER_WRITE: A write of a set-up register; word tells a 32-bit access. The address is the host bus address of a request of the host
  or of PF1, and else the set-up offset. -/
  | registerWrite (w : Who) (addr : BitVec 32) (word : Bool) (v : BitVec 32)
  /-- TICK_RUN_START: HRT_CTRL is written with RUN 1. -/
  | tickRunStart (w : Who) (v : BitVec 32)
  /-- TICK_RUN_STOP: HRT_CTRL is written with RUN 0. -/
  | tickRunStop (w : Who) (v : BitVec 32)
  /-- FIRST_TICK_START: The first tick starts. -/
  | firstTickStart
  /-- FIRST_EDGE_TIMEOUT: No first SYNC_IN edge within 16 TP. -/
  | firstEdgeTimeout
  /-- TICK_START: A tick starts, or a stop takes effect. -/
  | tickStart
  /-- COMPUTE_START: Boundary 1. -/
  | computeStart
  /-- EMIT_START: Boundary 2. -/
  | emitStart
  /-- SETTLE_START: Boundary 3: CPR slack in ps, Tj in °C, bytes FINAL has still to copy. -/
  | settleStart (slack tj : BitVec 16) (dirty : BitVec 20)
  /-- SYNC_IN_EDGE: A rising edge of SYNC_IN. -/
  | syncInEdge
  /-- SYNC_WINDOW_END: The window of the nominal start closes. -/
  | syncWindowEnd
  /-- SOURCE_LOSS: The tick source has been away for 16 ticks. -/
  | sourceLoss
  /-- SYNC_OUT_END: SYNC_OUT falls. -/
  | syncOutEnd
  /-- TASK_BUDGET_EXPIRY: The current task of engine e has used its budget. -/
  | taskBudgetExpiry (e : Fin 16)
  /-- DOORBELL_READ_COMPLETE: every part of the doorbell block read has arrived, or the read failed (R92, R114). -/
  | doorbellReadComplete (ok : Bool) (block : List Byte)
  /-- DESCRIPTOR_READ_COMPLETE: the next descriptor of ring n has arrived, or its read failed (R95, R114). -/
  | descriptorReadComplete (n : Fin 64) (ok : Bool) (b : List Byte)
  /-- HOST_DATA_READ_COMPLETE: the data read of the descriptor at index idx of ring n has ended (R114). -/
  | hostDataReadComplete (n : Fin 64) (idx : BitVec 16) (ok : Bool) (b : List Byte)
  /-- IDLE_DOORBELL_POLL: the 100 us service while ticks are stopped (R98). -/
  | idleDoorbellPoll
  /-- DEV_NUDGE: DEV_NUDGE is written. -/
  | devNudge (w : Who) (v : BitVec 32)
  /-- RING_ENABLE: w writes 1 to RING_n_CTRL.EN (R88). -/
  | ringEnable (w : Who) (n : Fin 64)
  /-- RING_DISABLE: w writes 0 to RING_n_CTRL.EN (R116). -/
  | ringDisable (w : Who) (n : Fin 64)
  /-- RING_FLUSH: w writes 1 to RING_n_CTRL.FLUSH (R116). -/
  | ringFlush (w : Who) (n : Fin 64)
  /-- TX_FRAME: the TX_FRAME chain at the head of ring n's work (R102). -/
  | txFrame (n : Fin 64)
  /-- RX_BUF: the RX_BUF chain at the head of ring n's work (R102). -/
  | rxBuf (n : Fin 64)
  /-- CMD_NOP: the CMD_NOP at the head of ring n's work (R102). -/
  | cmdNop (n : Fin 64)
  /-- REG_WRITE: The REG_WRITE descriptor of ring n. -/
  | regWrite (n : Fin 64)
  /-- PRS_LOAD: the PRS_LOAD chain at the head of ring n's work; when the boot SPI flash is the source, sfdp and flash are what it answers to an SFDP read and what it holds from the source offset on (R282, R284). -/
  | prsLoad (n : Fin 64) (sfdp flash : List (BitVec 8))
  /-- PRS_UNLOAD: the PRS_UNLOAD descriptor at the head of ring n's work (R307). -/
  | prsUnload (n : Fin 64)
  /-- HOARD_WRITE: the HOARD_WRITE at the head of a ring's work, or the one in progress (R102, R116). -/
  | hoardWrite (c : CopyRun)
  /-- HOARD_READ: the HOARD_READ at the head of a ring's work, or the one in progress (R102, R116). -/
  | hoardRead (c : CopyRun)
  /-- ING_PROGRAM: the ING_PROGRAM at the head of ring n's work (R566). -/
  | ingProgram (n : Fin 64)
  /-- ING_ERASE: the ING_ERASE at the head of ring n's work (R566). -/
  | ingErase (n : Fin 64)
  /-- ING_READ: the ING_READ at the head of a ring's work, or the one in progress (R116, R566). -/
  | ingRead (c : CopyRun)
  /-- TIME_GRANT: the TIME_GRANT descriptor at the head of ring n's work grants the pending refused step, or is stale (R368). -/
  | timeGrant (n : Fin 64)
  /-- CHN_MODE: the CHN_MODE descriptor at the head of ring n's work proposes a mode (R450). -/
  | chnMode (n : Fin 64)
  /-- QUENCH: The QUENCH descriptor of ring n. -/
  | quench (n : Fin 64)
  /-- QUENCH_CLEAR: The QUENCH_CLEAR descriptor of ring n. -/
  | quenchClear (n : Fin 64)
  /-- FENCE: the FENCE at the head of ring n's work (R102). -/
  | fence (n : Fin 64)
  /-- VID_BUF: the VID_BUF descriptor at the head of ring n's work posts its buffer (R348). -/
  | vidBuf (n : Fin 64)
  /-- POISONED_WRITE: A poisoned write to a BAR arrives. -/
  | poisonedWrite (pf1 : Bool)
  /-- BAR2_ACCESS: A read of n bytes, or a write of bytes, at a host bus address in BAR2. -/
  | bar2Access (addr : BitVec 64) (write : Bool) (n : BitVec 12) (bytes : List Byte)
  /-- BAR4_ACCESS: An access of n bytes at a host bus address in BAR4. -/
  | bar4Access (pf1 : Bool) (addr : BitVec 32) (write : Bool) (n : BitVec 12) (v : BitVec 64)
  /-- CONFIGURATION_REQUEST: A configuration read or write of one DWORD. -/
  | configurationRequest (pf1 write : Bool) (dw : BitVec 10) (v : BitVec 32)
  /-- PERST_N: PERST_N is asserted; the straps BAR2_EN, BOOT and MPRI as its release samples them when it acts on the host side only (R641). -/
  | perstN (bar2 : Bool) (boot mpri : Fin 4)
  /-- HOT_RESET: a PCIe hot reset, or the link goes down (R142). -/
  | hotReset
  /-- FLR_PF0: an FLR of PF0 is initiated (R144). -/
  | flrPf0
  /-- FLR_PF1: an FLR of PF1 is initiated (R144). -/
  | flrPf1
  /-- FLR_COMPLETE: the FLR of PF0 or PF1 completes (R144). -/
  | flrComplete (pf1 : Bool)
  /-- D3HOT_ENTRY: PF0 or PF1 enters D3hot (R146). -/
  | d3hotEntry (pf1 : Bool)
  /-- D3HOT_EXIT: PF0 or PF1 returns from D3hot to D0 (R146). -/
  | d3hotExit (pf1 : Bool)
  /-- DEV_LOCK: DEV_LOCK is written. -/
  | devLock (w : Who) (v : BitVec 32)
  /-- DEV_RESDATA: DEV_RESDATA is read. -/
  | devResdata (w : Who)
  /-- SOFT_RESET: w writes 1 to DEV_CTRL.SOFTRST (R639). -/
  | softReset (w : Who)
  /-- ENGINE_RESET: ENG_n_CTRL.RST is written. -/
  | engineReset (w : Who) (n : Fin 16)
  /-- ENGINE_RESET_DONE: The reset of engine e is over. -/
  | engineResetDone (e : Fin 16)
  /-- DEBUG_HALT: ENG_n_DBG is written with HALT 1. -/
  | debugHalt (w : Who) (n : Fin 16)
  /-- DEBUG_STEP: ENG_n_DBG is written with HALT and STEP 1. -/
  | debugStep (w : Who) (n : Fin 16)
  /-- EVENT_INPUT: Inputs register at engine e. -/
  | eventInput (e : Fin 16) (m : BitVec 64)
  /-- ALIGNED_ENTRY: Edge E + DLY at engine e. -/
  | alignedEntry (e : Fin 16)
  /-- WAITT_RELEASE: the TIME edges after the one at which the time base reached the target of the WAITT that stalls engine e (R223). -/
  | waittRelease (e : Fin 16)
  /-- ILLEGAL_INSTRUCTION: engine e issues the word w, which is no instruction (R198). -/
  | illegalInstruction (e : Fin 16) (w : BitVec 32)
  /-- ADD: ADD Dd, Ds, Dt on engine e (R200, fn 0x00). -/
  | add (e d s t : Fin 16)
  /-- ADDC: ADDC Dd, Ds, Dt on engine e (R200, fn 0x01). -/
  | addc (e d s t : Fin 16)
  /-- SUB: SUB Dd, Ds, Dt on engine e (R200, fn 0x02). -/
  | sub (e d s t : Fin 16)
  /-- SUBC: SUBC Dd, Ds, Dt on engine e (R200, fn 0x03). -/
  | subc (e d s t : Fin 16)
  /-- AND: AND Dd, Ds, Dt on engine e (R200, fn 0x04). -/
  | andD (e d s t : Fin 16)
  /-- OR: OR Dd, Ds, Dt on engine e (R200, fn 0x05). -/
  | orD (e d s t : Fin 16)
  /-- XOR: XOR Dd, Ds, Dt on engine e (R200, fn 0x06). -/
  | xor (e d s t : Fin 16)
  /-- ANDN: ANDN Dd, Ds, Dt on engine e (R200, fn 0x07). -/
  | andn (e d s t : Fin 16)
  /-- SHL: SHL Dd, Ds, Dt on engine e (R200, fn 0x08). -/
  | shl (e d s t : Fin 16)
  /-- SHR: SHR Dd, Ds, Dt on engine e (R200, fn 0x09). -/
  | shr (e d s t : Fin 16)
  /-- SAR: SAR Dd, Ds, Dt on engine e (R200, fn 0x0A). -/
  | sar (e d s t : Fin 16)
  /-- ROR: ROR Dd, Ds, Dt on engine e (R200, fn 0x0B). -/
  | ror (e d s t : Fin 16)
  /-- CMP: CMP Ds, Dt on engine e (R200, fn 0x0C). -/
  | cmp (e s t : Fin 16)
  /-- TST: TST Ds, Dt on engine e (R200, fn 0x0D). -/
  | tst (e s t : Fin 16)
  /-- MOV: MOV Dd, Ds (R200, fn 0x0E). -/
  | mov (e d s : Fin 16)
  /-- MIN: MIN Dd, Ds, Dt (R200, fn 0x0F). -/
  | minS (e d s t : Fin 16)
  /-- MAX: MAX Dd, Ds, Dt (R200, fn 0x10). -/
  | maxS (e d s t : Fin 16)
  /-- MINU: MINU Dd, Ds, Dt (R200, fn 0x11). -/
  | minu (e d s t : Fin 16)
  /-- MAXU: MAXU Dd, Ds, Dt (R200, fn 0x12). -/
  | maxu (e d s t : Fin 16)
  /-- CLZ: CLZ Dd, Ds (R200, fn 0x13). -/
  | clz (e d s : Fin 16)
  /-- MULL: MULL Dd, Ds, Dt (R200, fn 0x14). -/
  | mull (e d s t : Fin 16)
  /-- DIVU: DIVU Dd, Ds, Dt (R200, fn 0x15). -/
  | divu (e d s t : Fin 16)
  /-- DIVS: DIVS Dd, Ds, Dt (R200, fn 0x16). -/
  | divs (e d s t : Fin 16)
  /-- ABS: ABS Dd, Ds (R200, fn 0x17). -/
  | abs (e d s : Fin 16)
  /-- NEG: NEG Dd, Ds (R200, fn 0x18). -/
  | neg (e d s : Fin 16)
  /-- ADDI: ADDI Dd, Ds, #imm (R200, op 0x02). -/
  | addi (e d s : Fin 16) (imm : BitVec 18)
  /-- ANDI: ANDI Dd, Ds, #imm (R200, op 0x03). -/
  | andi (e d s : Fin 16) (imm : BitVec 18)
  /-- ORI: ORI Dd, Ds, #imm (R200, op 0x04). -/
  | ori (e d s : Fin 16) (imm : BitVec 18)
  /-- XORI: XORI Dd, Ds, #imm (R200, op 0x05). -/
  | xori (e d s : Fin 16) (imm : BitVec 18)
  /-- CMPI: CMPI Ds, #imm (R200, op 0x06). -/
  | cmpi (e s : Fin 16) (imm : BitVec 18)
  /-- SHLI: SHLI Dd, Ds, #amt (R200, op 0x07 kind 0). -/
  | shli (e d s : Fin 16) (amt : BitVec 5)
  /-- SHRI: SHRI Dd, Ds, #amt (R200, op 0x07 kind 1). -/
  | shri (e d s : Fin 16) (amt : BitVec 5)
  /-- SARI: SARI Dd, Ds, #amt (R200, op 0x07 kind 2). -/
  | sari (e d s : Fin 16) (amt : BitVec 5)
  /-- RORI: RORI Dd, Ds, #amt (R200, op 0x07 kind 3). -/
  | rori (e d s : Fin 16) (amt : BitVec 5)
  /-- MOVI: MOVI Dd, #imm16, H (R200, op 0x08). -/
  | movi (e d : Fin 16) (h : Bool) (imm : BitVec 16)
  /-- EXT: EXT Dd, Ds, #pos, width w1 + 1 (R200, R203, op 0x09). -/
  | ext (e d s : Fin 16) (pos w1 : BitVec 5) (sgn : Bool)
  /-- INS: INS Dd, Ds, #pos, width w1 + 1 (R200, R203, op 0x0A). -/
  | ins (e d s : Fin 16) (pos w1 : BitVec 5)
  /-- MOVX: MOVX between Dd and register idx of class cls (R204, op 0x20). -/
  | movx (e d : Fin 16) (dir : Bool) (cls : Fin 16) (idx : Fin 8)
  /-- LD: LD through An (R205 to R207, op 0x10). -/
  | ld (e d : Fin 16) (a : Fin 8) (sz : Fin 4) (pm sx : Bool) (disp : BitVec 15)
  /-- ST: ST through An (R205 to R207, op 0x11). -/
  | st (e d : Fin 16) (a : Fin 8) (sz : Fin 4) (pm : Bool) (disp : BitVec 15)
  /-- MOVA: MOVA Aa, #imm16 (R208, fn 0). -/
  | mova (e : Fin 16) (a : Fin 8) (imm : BitVec 16)
  /-- ADDA: ADDA Aa, #imm16 (R208, fn 1). -/
  | adda (e : Fin 16) (a : Fin 8) (imm : BitVec 16)
  /-- ADDAR: ADDAR Aa, Ab (R208, fn 2). -/
  | addar (e : Fin 16) (a b : Fin 8)
  /-- CMPA: CMPA Aa, #imm16 (R208, fn 3). -/
  | cmpa (e : Fin 16) (a : Fin 8) (imm : BitVec 16)
  /-- CMPAR: CMPAR Aa, Ab (R208, fn 4). -/
  | cmpar (e : Fin 16) (a b : Fin 8)
  /-- B: B cond, off22 (R209, op 0x18). -/
  | b (e : Fin 16) (cond : Fin 16) (off : BitVec 22)
  /-- BA: BA cond, off22 (R209, op 0x19). -/
  | ba (e : Fin 16) (cond : Fin 4) (off : BitVec 22)
  /-- CALL: CALL off26 (R209, op 0x1A). -/
  | call (e : Fin 16) (off : BitVec 26)
  /-- CALLR: CALLR Ds (R209, op 0x1B). -/
  | callr (e s : Fin 16)
  /-- JR: JR Ds (R209, op 0x1C). -/
  | jr (e s : Fin 16)
  /-- RET: RET (R209, op 0x01 fn 2). -/
  | ret (e : Fin 16)
  /-- LOOPI: LOOPI count16, off10 (R210, op 0x1D). -/
  | loopi (e : Fin 16) (count : BitVec 16) (off : BitVec 10)
  /-- LOOP: LOOP Ds, off18 (R210, op 0x1E). -/
  | loop (e s : Fin 16) (off : BitVec 18)
  /-- LBRK: LBRK (R213, op 0x01 fn 4). -/
  | lbrk (e : Fin 16)
  /-- MUL: MUL Mm, Ds, Dt (R215, fn 0). -/
  | mul (e : Fin 16) (m : Fin 4) (s t : Fin 16)
  /-- MULU: MULU Mm, Ds, Dt (R215, fn 1). -/
  | mulu (e : Fin 16) (m : Fin 4) (s t : Fin 16)
  /-- MAC: MAC Mm, Ds, Dt (R215, fn 2). -/
  | mac (e : Fin 16) (m : Fin 4) (s t : Fin 16)
  /-- MACU: MACU Mm, Ds, Dt (R215, fn 3). -/
  | macu (e : Fin 16) (m : Fin 4) (s t : Fin 16)
  /-- MSU: MSU Mm, Ds, Dt (R215, fn 4). -/
  | msu (e : Fin 16) (m : Fin 4) (s t : Fin 16)
  /-- MSUU: MSUU Mm, Ds, Dt (R215, fn 5). -/
  | msuu (e : Fin 16) (m : Fin 4) (s t : Fin 16)
  /-- MLD: MLD Mm, Ds (R215, fn 6). -/
  | mld (e : Fin 16) (m : Fin 4) (s : Fin 16)
  /-- MCLR: MCLR Mm (R215, fn 7). -/
  | mclr (e : Fin 16) (m : Fin 4)
  /-- MSHL: MSHL Mm, #sh (R215, fn 8). -/
  | mshl (e : Fin 16) (m : Fin 4) (sh : BitVec 6)
  /-- MSHR: MSHR Mm, #sh (R215, fn 9). -/
  | mshr (e : Fin 16) (m : Fin 4) (sh : BitVec 6)
  /-- RND: RND Dd, Mm, #sh (R216, fn 10). -/
  | rnd (e d : Fin 16) (m : Fin 4) (sh : BitVec 6)
  /-- LUTI: LUTI Dd, Aa, Ds, Dl, #f; half is the S bit (R217 to R219, op 0x28). -/
  | luti (e d : Fin 16) (a : Fin 8) (s l : Fin 16) (f : BitVec 5) (half : Bool)
  /-- WFE: WFE Dd, Ds (R220). -/
  | wfe (e d s : Fin 16)
  /-- SEV: SEV #line, Ds (R221). -/
  | sev (e : Fin 16) (line : Fin 4) (s : Fin 16)
  /-- SEVR: SEVR #line, Ds (R222). -/
  | sevr (e : Fin 16) (line : Fin 4) (s : Fin 16)
  /-- WAITT: WAITT Ds, Dl (R223). -/
  | waitt (e s l : Fin 16)
  /-- GETT: GETT Dd (R225). -/
  | gett (e d : Fin 16)
  /-- GETTK: GETTK Dd (R225). -/
  | gettk (e d : Fin 16)
  /-- EMW: EMW Ds, Dt (R226). -/
  | emw (e s t : Fin 16)
  /-- EMT: EMT Ds, Dt (R227). -/
  | emt (e s t : Fin 16)
  /-- NOP: NOP (R229). -/
  | nop (e : Fin 16)
  /-- END: END (R229). -/
  | endTask (e : Fin 16)
  /-- RETT: RETT (R229, R183). -/
  | rett (e : Fin 16)
  /-- RD: the RD of stalled engine e reaches the directory (R257). -/
  | rd (e : Fin 16)
  /-- RDX: the RDX of stalled engine e reaches the directory (R258). -/
  | rdx (e : Fin 16)
  /-- WB: the oldest message of core's channel, a write-back, reaches the directory (R259). -/
  | wb (core : Fin 18)
  /-- SNOOP: the snoop of a line under way to core reaches it (R257). -/
  | snoop (core : Fin 18) (line : Fin 262144)
  /-- SNOOP_ANSWER: the oldest message of core's channel, a snoop answer, reaches the directory (R259). -/
  | snoopAnswer (core : Fin 18)
  /-- PARTITION_APPLY: w writes 1 to HRD_PCTL.APPLY (R240). -/
  | partitionApply (w : Who)
  /-- BANK_TARGET_WRITE: w writes v to HRD_BANK_b.TGT (R253). -/
  | bankTargetWrite (w : Who) (b : Fin 32) (v : BitVec 2)
  /-- BANK_TRANSITION_DONE: the state transition of bank b has completed (R254). -/
  | bankTransitionDone (b : Fin 32)
  /-- FILL_DONE: the last word of bank b is written with zeros (R255). -/
  | fillDone (b : Fin 32)
  /-- MIGRATION_GO: w writes v to HRD_MIG (R265). -/
  | migrationGo (w : Who) (v : BitVec 32)
  /-- MIGRATION_THRESHOLD: the corrected count of bank b has reached HRD_MIG.THR (R265). -/
  | migrationThreshold (b : Fin 32)
  /-- MIGRATION_COPY_DONE: the last word of the migration in progress is copied (R267). -/
  | migrationCopyDone
  /-- FRAME_RECORD: the loader takes the next 260 bytes of the load in progress (R287). -/
  | frameRecord
  /-- TAG_CHECK_DONE: the Warden's check of slot n's staged stream ends (R288). -/
  | tagCheckDone (n : Fin 3) (ended : Unit)
  /-- SECTION_APPLY_DONE: every section of slot n's image has been applied (R294). -/
  | sectionApplyDone (n : Fin 3)
  /-- START_UP_STEP: the next start-up step of slot n completes (R298). -/
  | startUpStep (n : Fin 3)
  /-- DONE_ACCEPT: DONE has been sampled high for 1.0 us (R301). -/
  | doneAccept
  /-- DONE_TIMEOUT: slot n has waited TMO ms in WAIT_DONE (R302). -/
  | doneTimeout (n : Fin 3)
  /-- BOOT_AUTOLOAD: the start-up sequence ends; images is what the boot SPI flash holds at each entry's offset (R284, R285). -/
  | bootAutoload (flash : BootFlash) (images : List (List (BitVec 8)))
  /-- READBACK_FRAME: the readback unit reads its next tile frame, in which these bits have changed (R303). -/
  | readbackFrame (flips : List (Fin 512))
  /-- LINK_UP: the link of MAC p comes up at this speed (0 10, 1 100, 2 1,000, 3 2,500 Mbit/s) and duplex (R314). -/
  | linkUp (p : Fin 6) (speed : Fin 4) (fdx : Bool)
  /-- LINK_DOWN: the link of MAC p goes down; this many bytes of the frame on the wire were sent (R316). -/
  | linkDown (p : Fin 6) (sent : BitVec 16)
  /-- START_OF_FRAME: an SFD arrives on MAC p (R320). -/
  | startOfFrame (p : Fin 6)
  /-- RX_FRAME: MAC p has received these bytes from the destination address on, and this FCS behind them: the class a personality gives the frame, and where it goes (R319, R340). -/
  | rxFrame (p : Fin 6) (b : List (BitVec 8)) (cls : Option (Fin 8)) (rt : RxRoute) (fcs : BitVec 32)
  /-- PAUSE_REFRESH: half the time of the last PAUSE that MAC p sent has passed (R336). -/
  | pauseRefresh (p : Fin 6)
  /-- PAUSE: a PAUSE with this time arrives on MAC p (R334). -/
  | pause (p : Fin 6) (quanta : BitVec 16)
  /-- PAUSE_EXPIRY: the time of the PAUSE in force on MAC p has passed (R334). -/
  | pauseExpiry (p : Fin 6)
  /-- TRANSMIT_DONE: the last bit of the frame on MAC p's wire is sent (R320). -/
  | transmitDone (p : Fin 6)
  /-- PREEMPT_VERIFY_TIMEOUT: verifyTime of an attempt on MAC p expires (R325). -/
  | preemptVerifyTimeout (p : Fin 6)
  /-- GATE_ENTRY_START: the next entry of MAC p's operational gate list begins (R329). -/
  | gateEntryStart (p : Fin 6)
  /-- GATE_LIST_COMMIT: w writes v to PORT_p_GCTL (R328). -/
  | gateListCommit (w : Who) (p : Fin 6) (v : BitVec 32)
  /-- CUT_THROUGH_START: FP port p has received CTSTART bytes, these ones, of a frame it forwards (R338); or a tile aborts the frame in progress (R296). -/
  | cutThroughStart (p : Fin 4) (b : List (BitVec 8)) (ev : CutEvent)
  /-- CUT_THROUGH_OVERLENGTH: a frame forwarded cut through from FP port p reaches byte 1,519 (R341). -/
  | cutThroughOverlength (p : Fin 4)
  /-- VIDEO_PACKET: an RTP packet is received on uplink u, given by its fields: UDP destination port, payload type, SSRC, timestamp, sequence number, marker, bytes of its frame, payload (R344). -/
  | videoPacket (u : Fin 2) (dport : BitVec 16) (pt : BitVec 7) (ssrc ts : BitVec 32) (seq : BitVec 16) (mark : Bool) (len : BitVec 11) (payload : List (BitVec 8))
  /-- CAN_FRAME_RECEIVED: CAN controller c receives a frame; its error counters then are tec and rec (R351). -/
  | canFrameReceived (c : Fin 2) (f : CanRx) (tec rec : BitVec 8)
  /-- CAN_BUSOFF: CAN controller c enters bus-off (R351). -/
  | canBusoff (c : Fin 2)
  /-- CAN_BUSOFF_RECOVERY: 128 occurrences of 11 recessive bits have been counted (R351). -/
  | canBusoffRecovery (c : Fin 2)
  /-- CAN_RECOVER: w writes 1 to PORT_CANc_CFG.RECOVER (R351). -/
  | canRecover (w : Who) (c : Fin 2)
  /-- TIME_ADDEND_WRITE: w writes v to TIME_ADDEND (R362, R363). -/
  | timeAddendWrite (w : Who) (v : BitVec 32)
  /-- TIME_SLEW_WRITE: w writes v to TIME_SLEW (R363, R364). -/
  | timeSlewWrite (w : Who) (v : BitVec 32)
  /-- SLEW_END: the slew in progress reaches its end (R364). -/
  | slewEnd
  /-- STEP_REQUEST: w writes v to TIME_STEP_HI and so makes a step request (R366). -/
  | stepRequest (w : Who) (v : BitVec 32)
  /-- TIME_NOW_READ: w reads TIME_NOW_LO (R377). -/
  | timeNowRead (w : Who)
  /-- CHAIN_LINK_TRAINED: the receiver of link l has locked and adapted (R386). -/
  | chainLinkTrained (l : Fin 4)
  /-- CHAIN_TRAIN_TIMEOUT: link l has not trained within 2.0 ms (R386). -/
  | chainTrainTimeout (l : Fin 4)
  /-- CHAIN_TRAIN_RETRY: 1 ms has passed since the failed training of link l (R386). -/
  | chainTrainRetry (l : Fin 4)
  /-- HELLO_SEND: it is time for a HELLO on link l (R393). -/
  | helloSend (l : Fin 4)
  /-- HELLO: a HELLO with this payload of 64 bytes and a valid CRC arrives on link l (R394). -/
  | hello (l : Fin 4) (b : List (BitVec 8))
  /-- HELLO_TIMEOUT: no valid HELLO has come on link l for 1,024 us (R387). -/
  | helloTimeout (l : Fin 4)
  /-- CHAIN_LINK_DOWN: 16 invalid sync headers within 64 blocks on link l (R387). -/
  | chainLinkDown (l : Fin 4)
  /-- CANDIDATE_SETTLED: the candidate has not changed for 1,024 us (R396). -/
  | candidateSettled
  /-- TOPO: a TOPO arrives by this hop (R398). -/
  | topo (hop : TopoHop) (t : Topo)
  /-- ID_ASSIGNMENT: no TOPO has changed for 1,024 us (R399). -/
  | idAssignment
  /-- ROUTE: a ROUTE for the device uid arrives on link l: its ID (0xFF none) and its 32 table entries (R403). -/
  | route (l : Fin 4) (uid : BitVec 64) (id : BitVec 8) (t : List (BitVec 8))
  /-- DRAINQ: a DRAINQ arrives for this device (R415). -/
  | drainq
  /-- DRAINQ_TIMEOUT: 1 ms has passed since this manager's DRAINQ (R415). -/
  | drainqTimeout
  /-- COMMIT: a COMMIT for the device uid arrives on link l (R415). -/
  | commit (l : Fin 4) (uid : BitVec 64)
  /-- ACK: an acknowledge of the operation op of the device uid arrives on link l (R391). -/
  | ack (l : Fin 4) (op : BitVec 4) (uid : BitVec 64)
  /-- CELL_FORWARD: the header of c is in on link l; its CRC ends right (0), wrong (1) or as the stomp code (2) (R390). -/
  | cellForward (l : Fin 4) (c : Cell) (chk : Fin 3)
  /-- CREDIT_RETURN: a credit of channel vc and hop class h comes back on link l (R411). -/
  | creditReturn (l : Fin 4) (vc : Fin 2) (h : Fin 8)
  /-- ET_RD: an RD of device src arrives with this tag and payload (R407). -/
  | etRd (src : Fin 32) (tag : BitVec 8) (b : List (BitVec 8))
  /-- ET_WR: a WR of device src arrives with this tag and payload (R407). -/
  | etWr (src : Fin 32) (tag : BitVec 8) (b : List (BitVec 8))
  /-- RDR: A remote read response under a tag, with its 64 payload bytes. -/
  | rdr (tag : BitVec 8) (b : List Byte)
  /-- WRA: A remote write response under a tag, with its 64 payload bytes. -/
  | wra (tag : BitVec 8) (b : List Byte)
  /-- CHAIN_TIMEOUT: No response under a tag within CHN_RTMO. -/
  | chainTimeout (tag : BitVec 8)
  /-- SEV_CELL: a SEV cell with this mask, line and PID has checked (R410). -/
  | sevCell (mask : BitVec 16) (line : Fin 4) (pid : BitVec 8)
  /-- TT_SLINE_READ: 1.0 us remains to the start of slot i of the active mode (R430). -/
  | ttSlineRead (i : Fin 512)
  /-- TT_SLOT: slot i of the active mode starts (R430). -/
  | ttSlot (i : Fin 512)
  /-- TT_CELL: the cell of slot i arrives on link l with this payload and checks (R431). -/
  | ttCell (l : Fin 4) (i : Fin 512) (b : List (BitVec 8))
  /-- SYNC_SLOT: sync slot j is at its offset (R434). -/
  | syncSlot (j : Fin 8)
  /-- SYNC: a SYNC with this payload arrives on link l and stays res x 2^-16 ns here (R435, R439). -/
  | sync (l : Fin 4) (way : SyncHop) (b : List (BitVec 8))
  /-- DELAY_MEASURE: 1,024 us have passed: link l measures its delay (R436). -/
  | delayMeasure (l : Fin 4)
  /-- DLYREQ: a DLYREQ sent at t1 arrives on link l (R436). -/
  | dlyreq (l : Fin 4) (t1 : BitVec 92)
  /-- DLYRSP: a DLYRSP with these times arrives on link l (R436). -/
  | dlyrsp (l : Fin 4) (t1 t2 t3 : BitVec 92)
  /-- PROPOSE: a PROPOSE of mode m with the manager's hash arrives (R451). -/
  | propose (m : Fin 8) (h : BitVec 64) (pnum : BitVec 8)
  /-- VOTE: a VOTE of device src arrives: READY (0) or NO with its reason (R452, R458). -/
  | vote (src : Fin 32) (pnum : BitVec 8) (why : Fin 8)
  /-- MCOMMIT: an MCOMMIT of mode m arrives (R453). -/
  | mcommit (m : Fin 8) (pnum : BitVec 8)
  /-- MABORT: an MABORT arrives (R452). -/
  | mabort (pnum : BitVec 8)
  /-- RUN: a RUN cell arrives: START (0), STOP (1) or CRESET (2) for a target tick, with hash, version, TP and device mask (R425). -/
  | run (cmd : Fin 3) (target h : BitVec 64) (ver tp mask : BitVec 32)
  /-- CHAIN_START: w writes 1 to CHN_RUNCTL.START (R425). -/
  | chainStart (w : Who)
  /-- CHAIN_STOP: w writes 1 to CHN_RUNCTL.STOP (R425). -/
  | chainStop (w : Who)
  /-- MODE_GO: w writes v to CHN_MCTL (R450). -/
  | modeGo (w : Who) (v : BitVec 32)
  /-- SWAGE_SAMPLE: a sample instant of loop l, and of every member of its selector group (R464, R465). -/
  | swageSample (l : Fin 16)
  /-- SWAGE_OUTPUT_APPLY: 1.0 us after its sample instant the output of loop l, or of its group, is applied (R465). -/
  | swageOutputApply (l : Fin 16)
  /-- SWAGE_ENABLE: w writes 1 to SWG_l_CTRL.EN (R467). -/
  | swageEnable (w : Who) (l : Fin 16)
  /-- SWAGE_AUTO: w writes b to SWG_l_CTRL.AUTO (R476, R477). -/
  | swageAuto (w : Who) (l : Fin 16) (b : Bool)
  /-- SWAGE_PGO: w writes 1 to SWG_l_CTRL.PGO (R481). -/
  | swagePgo (w : Who) (l : Fin 16)
  /-- SWAGE_BAND_WRITE: w writes v to SWG_l_BAND (R486). -/
  | swageBandWrite (w : Who) (l : Fin 16) (v : BitVec 32)
  /-- LSW_OVERCURRENT: an over-current excursion of channel c, at this current in mA, has lasted longer than 2 us (R503). -/
  | lswOvercurrent (c : Fin 12) (ma : BitVec 16)
  /-- LSW_OVERTEMP: the sensor of channel c, at this current in mA, has been above 170 C for 10 us (R504). -/
  | lswOvertemp (c : Fin 12) (ma : BitVec 16)
  /-- LSW_OPEN: the current of channel c, this one in mA, has been below IOL for 1 ms (R506). -/
  | lswOpen (c : Fin 12) (ma : BitVec 16)
  /-- LSW_SUPPLY: VSUP, now this value in mV, has been above 38.0 V (high) or below 4.2 V for 2 us (R507). -/
  | lswSupply (high : Bool) (mv : BitVec 16)
  /-- SUPPLY_RECOVERY: VSUP has stayed inside 4.4 to 37.0 V for 10 ms (R507). -/
  | supplyRecovery
  /-- CLEAR_OCL: w writes 1 to LSW_CH_c_CLR.OCL (R505). -/
  | clearOcl (w : Who) (c : Fin 12)
  /-- CLEAR_OTL: w writes 1 to LSW_CH_c_CLR.OTL while the sensor reads 150 C or above (hot) or below (R504, R505). -/
  | clearOtl (w : Who) (c : Fin 12) (hot : Bool)
  /-- HALF_BRIDGE_PAIR: w writes v to LSW_HB_h_CFG (R509). -/
  | halfBridgePair (w : Who) (h : Fin 6) (v : BitVec 32)
  /-- DEAD_TIME_END: the dead time of half-bridge h has run (R512). -/
  | deadTimeEnd (h : Fin 6)
  /-- PWM_PERIOD: a PWM period of channel c starts (R500). -/
  | pwmPeriod (c : Fin 12)
  /-- PWM_ON_PHASE_END: the on-time of the running PWM period of channel c ends (R500). -/
  | pwmOnPhaseEnd (c : Fin 12)
  /-- CURRENT_SENSE_UPDATE: the 10 us update of VSUP in mV and of each channel: its current in mA, and whether its sensor reads 150 C or above (R504, R514). -/
  | currentSenseUpdate (vsup : BitVec 16) (ch : Vector (BitVec 16 × Bool) 12)
  /-- ADC_CONVERSION_START: the 1 us step of the sequencer (R516). -/
  | adcConversionStart
  /-- ADC_CONVERSION_DONE: the conversion in flight ends; the input is x uV, or x nA in MODE 1 (R515, R518). -/
  | adcConversionDone (x : Int)
  /-- AIN_OVERLOAD: the MODE 1 input current of AIN a has exceeded 30 mA for 1 ms (R517). -/
  | ainOverload (a : Fin 8)
  /-- SHUNT_CLOSE: 100 ms have passed since the shunt of AIN a opened (R517). -/
  | shuntClose (a : Fin 8)
  /-- TONGS_RUN: w writes b to TNG_t_CTRL.RUN (R530, R531). -/
  | tongsRun (w : Who) (t : Fin 8) (b : Bool)
  /-- TONGS_RESTART: w writes 1 to TNG_t_CTRL.RESTART (R531). -/
  | tongsRestart (w : Who) (t : Fin 8)
  /-- JMP: Tongs engine t issues JMP cond, target with PIO levels pins (R533). -/
  | tongsJmp (t : Fin 8) (cond p : Fin 8) (dest : Fin 64) (pins : BitVec 32)
  /-- WAIT: Tongs engine t issues WAIT p, level with PIO levels pins (R533). -/
  | tongsWait (t : Fin 8) (level : Bool) (p : Fin 8) (pins : BitVec 32)
  /-- DRIVE: Tongs engine t issues DRIVE mode, mask (R533). -/
  | tongsDrive (t : Fin 8) (mode : Fin 4) (mask : BitVec 8)
  /-- SHIN: Tongs engine t issues SHIN p with PIO levels pins (R533). -/
  | tongsShin (t : Fin 8) (p : Fin 8) (pins : BitVec 32)
  /-- SHOUT: Tongs engine t issues SHOUT p (R533). -/
  | tongsShout (t : Fin 8) (p : Fin 8)
  /-- PULL: Tongs engine t issues PULL (R536). -/
  | tongsPull (t : Fin 8) (block : Bool)
  /-- PUSH: Tongs engine t issues PUSH (R536). -/
  | tongsPush (t : Fin 8) (block : Bool)
  /-- LDI: Tongs engine t issues LDI k, imm (R533). -/
  | tongsLdi (t : Fin 8) (k : Fin 4) (imm : BitVec 10)
  /-- TONGS_MOV: Tongs engine t issues MOV dst, src with PIO levels pins (R533). -/
  | tongsMov (t : Fin 8) (dst src : Fin 8) (pins : BitVec 32)
  /-- ALU: Tongs engine t issues ALU d, s, op (R533). -/
  | tongsAlu (t : Fin 8) (d rs : Fin 4) (op : Fin 4)
  /-- CNT: Tongs engine t issues CNT op (R533). -/
  | tongsCnt (t : Fin 8) (op : Fin 4)
  /-- EVT: Tongs engine t issues EVT (R539). -/
  | tongsEvt (t : Fin 8)
  /-- DELAY: a step edge of Tongs engine t at DELAY n (R533). -/
  | tongsDelay (t : Fin 8) (n : BitVec 12)
  /-- TONGS_ILLEGAL: Tongs engine t reaches an illegal instruction (R534). -/
  | tongsIllegal (t : Fin 8)
  /-- TONGS_TXF_WRITE: w writes v to TNG_t_TXF (R537, R538). -/
  | tongsTxfWrite (w : Who) (t : Fin 8) (v : BitVec 32)
  /-- TONGS_RXF_READ: w reads TNG_t_RXF (R537, R538). -/
  | tongsRxfRead (w : Who) (t : Fin 8)
  /-- PEND_ENABLE: w writes v to TNG_PEND_CFG (R540). -/
  | pendEnable (w : Who) (v : BitVec 32)
  /-- PEND_MARK: at PEND_IN a mark (or a space) of this many ns has just ended (R541). -/
  | pendMark (mark : Bool) (ns : BitVec 40)
  /-- PEND_CODE_END: the space at PEND_IN has lasted END x 10 us (R541). -/
  | pendCodeEnd
  /-- PEND_FLOOD: the front end has been saturated for longer than 150 us (R542). -/
  | pendFlood
  /-- PEND_THRESHOLD_RESUME: the pendant input has been quiet for 10 ms (R542). -/
  | pendThresholdResume
  /-- TIMER_RUN: w writes b to TMR_n_CTRL.RUN (R545). -/
  | timerRun (w : Who) (n : Fin 16) (b : Bool)
  /-- TIMER_SWCAP: w writes mask to TMR_n_CTRL.SWCAP (R548). -/
  | timerSwcap (w : Who) (n : Fin 16) (mask : BitVec 4)
  /-- TIMER_CAPTURE: a rising or falling edge of the pin that TMR_n_CAPCFG names for capture c (R548, R549). -/
  | timerCapture (n : Fin 16) (c : Fin 4) (rising : Bool)
  /-- TIMER_COMPARE_MATCH: a count edge at which the counter of timer n becomes equal to compare c (R550). -/
  | timerCompareMatch (n : Fin 16) (c : Fin 4)
  /-- TIMER_WRAP: a count edge at which timer n wraps (R544). -/
  | timerWrap (n : Fin 16)
  /-- TIMER_RUNNING_READ: w reads TMR_n_CNT_LO (R547). -/
  | timerRunningRead (w : Who) (n : Fin 16)
  /-- CAPTURE_READ: w reads TMR_n_CAPc_LO (R549). -/
  | captureRead (w : Who) (n : Fin 16) (c : Fin 4)
  /-- ING_CMD_PROGRAM: w writes ING_CMD with GO 1, OP 1 and INDEX i (R567). -/
  | ingCmdProgram (w : Who) (i : BitVec 15)
  /-- ING_CMD_ERASE: w writes ING_CMD with GO 1, OP 2 and INDEX i (R567). -/
  | ingCmdErase (w : Who) (i : BitVec 15)
  /-- PAGE_PROGRAM_DONE: the running page program writes its commit marker, or fails verification twice (R568). -/
  | pageProgramDone (ok : Bool)
  /-- SECTOR_ERASE_DONE: the running sector erase completes (R573). -/
  | sectorEraseDone
  /-- ERASE_SUSPEND: w writes 1 to ING_CTRL.SUSP (R574). -/
  | eraseSuspend (w : Who)
  /-- SUSPEND_COMPLETE: the suspension under way takes effect (R574). -/
  | suspendComplete
  /-- ERASE_RESUME: w writes 1 to ING_CTRL.RESUME (R575). -/
  | eraseResume (w : Who)
  /-- BELLOWS_IDLE_EVALUATION: while ticks are stopped, an evaluation with the minimum slack in ps and Tj in °C, two's complement (R592). -/
  | bellowsIdleEvaluation (slack tj : BitVec 16)
  /-- BELLOWS_EMERG: a condition of EMERGENCY arises between evaluations (R595). -/
  | bellowsEmerg
  /-- THERMAL_QUENCH: Tj reaches 135 °C (R596). -/
  | thermalQuench
  /-- AVS_TRANSACTION_DONE: the AVSBus transaction in flight is acknowledged, or fails (R591). -/
  | avsTransactionDone (ok : Bool)
  /-- AVS_SETTLED: 10 us after the acknowledgement the voltage is relied on (R594). -/
  | avsSettled
  /-- MARGIN_MEASURE: lane l has measured its eye (R600). -/
  | marginMeasure (l : Fin 6) (eyeh : BitVec 10) (eyew : BitVec 6)
  /-- EQ_LOAD: w writes v to TMP_EQ_l_CFG (R599). -/
  | eqLoad (w : Who) (l : Fin 6) (v : BitVec 32)
  /-- SUBSTITUTION_GO: w writes v to TMP_SUBCTL (R610). -/
  | substitutionGo (w : Who) (v : BitVec 32)
  /-- SUBSTITUTION_AUTO_TRIGGER: the automatic triggers are checked for engine e; low: a CPR of its core reports less than SLACKLO (R610). -/
  | substitutionAutoTrigger (e : Fin 16) (low : Bool)
  /-- SUBSTITUTION_SWITCH: FINAL is complete and the old core is idle (R611). -/
  | substitutionSwitch
  /-- SUBSTITUTION_FINAL_TIMEOUT: 256 ns before Settle ends SWITCH has not started (R612). -/
  | substitutionFinalTimeout
  /-- OLD_CORE_DRAINED: the old core's cache holds no line after SWITCH (R613). -/
  | oldCoreDrained
  /-- WAKE_SOURCE: wake source src of R637 registers; supply: for source 7, it is a supply event. -/
  | wakeSource (src : Fin 8) (supply : Bool)
  /-- ARMED_WAKE: the planner's armed wake fires (R633). -/
  | armedWake
  /-- SLEEP_ENTRY_DONE: the state being entered is reached (R622). -/
  | sleepEntryDone
  /-- WAKE_COMPLETE: the device is back in RUN after slow whole SLOW periods of sleep (R376, R638). -/
  | wakeComplete (slow : BitVec 40)
  /-- POR: VSUP rises from OFF: power-on reset (R639). -/
  | por
  /-- BOR: a supply falls below its brown-out level; src: the monitors, VSUP in bit 0, VIO33, VDD18, VCORE (R639). -/
  | bor (src : BitVec 4)
  /-- RST_N: RST_N has been sampled low for 25 REF_CLK edges (R721). -/
  | rstN
  /-- WDT_KICK: w writes this KEY to PWR_WDTKICK (R640). -/
  | wdtKick (w : Who) (key : BitVec 16)
  /-- WDT_WARN: the watchdog is at half its count (R640). -/
  | wdtWarn
  /-- WDT: the watchdog expires (R640). -/
  | wdt
  /-- CHRST_GO: w writes 1 to PWR_CHRST_GO (R642). -/
  | chrstGo (w : Who)
  /-- CHAIN_RESET: the start of the target tick of a held CRESET has come (R642). -/
  | chainReset
  /-- RESET_RELEASE: a whole-device reset is released: the straps BAR2_EN, BOOT, MPRI and TEST_EN; the logical banks and engines self-test finds defective, the rows and columns it repairs (KIND, UNIT, INDEX, SPARE), whether a defect is not repairable; what a cut burn has left (0 nothing, 1 all, 2 a bad root hash) (R646, R606, R695). -/
  | resetRelease (bar2 : Bool) (boot mpri : Fin 4) (test : Bool) (banks : List (Fin 32)) (engines : List (Fin 16)) (rows : List (Fin 8 × BitVec 16 × BitVec 32 × BitVec 32)) (unrep : Bool) (burn : Fin 3)
  /-- QUENCH_SET: PWR_QCTL.SET. -/
  | quenchSet (w : Who)
  /-- QUENCH_CLEAR_WRITE: PWR_QCTL.CLEAR. -/
  | quenchClearWrite (w : Who)
  /-- QUENCH_PIN: An edge on a PIO pin. -/
  | quenchPin (pin : Fin 32) (rising : Bool)
  /-- MAILBOX_CFG_WRITE: w writes v to CFG of channel c: MBN c below 8, MBS c - 8 from 8 on (R676). -/
  | mailboxCfgWrite (w : Who) (c : Fin 16) (v : BitVec 32)
  /-- MAILBOX_DOORBELL: w writes v with DB 1 to the CTL of direction i: A to B (even) or B to A (odd) of channel i / 2 (R678). -/
  | mailboxDoorbell (w : Who) (i : Fin 32) (v : BitVec 32)
  /-- MAILBOX_TAKE: w writes v with TAKE 1 to the CTL of direction i (R680). -/
  | mailboxTake (w : Who) (i : Fin 32) (v : BitVec 32)
  /-- MAILBOX_CANCEL: w writes v with CANCEL 1 to the CTL of direction i (R682). -/
  | mailboxCancel (w : Who) (i : Fin 32) (v : BitVec 32)
  /-- MBX_TIMEOUT: the timeout of the message in direction i runs out (R681). -/
  | mbxTimeout (i : Fin 32)
  /-- MSG: a MSG cell of device src with this tag and payload (R685). -/
  | msg (src : Fin 32) (tag : BitVec 8) (b : List (BitVec 8))
  /-- TAKEN: a TAKEN cell of device src with this tag and payload (R687). -/
  | taken (src : Fin 32) (tag : BitVec 8) (b : List (BitVec 8))
  /-- CANCEL: a CANCEL cell of device src with this tag and payload (R688). -/
  | cancel (src : Fin 32) (tag : BitVec 8) (b : List (BitVec 8))
  /-- MBXA: an MBXA cell answers the request under this tag with this status and RSTATE (R686). -/
  | mbxa (tag : BitVec 8) (status : Fin 5) (r : Fin 4)
  /-- MBX_REMOTE_TIMEOUT: no MBXA has come within CHN_RTMO of the mailbox request under this tag (R686). -/
  | mbxRemoteTimeout (tag : BitVec 8)
  /-- PATCH_CHECK: w writes v to WDN_PATCH_LEN (R690). -/
  | patchCheck (w : Who) (v : BitVec 32)
  /-- PATCH_CHECK_DONE: the patch check in progress ends (R690). -/
  | patchCheckDone (ended : Unit)
  /-- SECURE_DESCRIPTOR_WRITE: w writes v to WDN_SEC_r_HI (R691). -/
  | secureDescriptorWrite (w : Who) (r : Fin 16) (v : BitVec 32)
  /-- ARB_READ: the Warden serves the oldest message, an ARB_READ (R692). -/
  | arbRead
  /-- ARB_RAISE: the Warden serves the oldest message, an ARB_RAISE (R692, R696). -/
  | arbRaise
  /-- UID_READ: the Warden serves the oldest message, a UID_READ (R692). -/
  | uidRead
  /-- BURN_ROOT: w writes KEY_CTL with CMD 1 and this CONFIRM (R694). -/
  | burnRoot (w : Who) (confirm : BitVec 8)
  /-- BURN_SEAL: w writes KEY_CTL with CMD 2 and this CONFIRM (R694). -/
  | burnSeal (w : Who) (confirm : BitVec 8)
  /-- RAISE: w writes KEY_CTL with CMD 3, ARBSEL i and this CONFIRM (R694). -/
  | raise (w : Who) (i : BitVec 6) (confirm : BitVec 8)
  /-- KEY_BURN: the burn in progress completes (R694). -/
  | keyBurn
  /-- DEBUG_REQUEST: w writes DBGU_CTL with REQ 1 and this SCOPE (R697, R698). -/
  | debugRequest (w : Who) (scope : BitVec 2)
  /-- DEBUG_RESPONSE_CHECK: w writes v to DBGU_RADDR (R698). -/
  | debugResponseCheck (w : Who) (v : BitVec 32)
  /-- DBG_UNLOCK: the response check ends (R698). -/
  | dbgUnlock (ended : Unit)
  /-- DEBUG_LOCK: w writes DBGU_CTL with LOCK 1 and this SCOPE (R699). -/
  | debugLock (w : Who) (scope : BitVec 2)
  /-- EXTEST: TAP instruction EXTEST with the cells shifted in. -/
  | extest (cells : List Bool)
  /-- SAMPLE_PRELOAD: TAP instruction SAMPLE/PRELOAD. -/
  | samplePreload (cells : List Bool)
  /-- IDCODE: TAP instruction IDCODE. -/
  | idcode
  /-- CLAMP: TAP instruction CLAMP. -/
  | clamp
  /-- HIGHZ: TAP instruction HIGHZ. -/
  | highz
  /-- EXTEST_PULSE: TAP instruction EXTEST_PULSE. -/
  | extestPulse (cells : List Bool)
  /-- EXTEST_TRAIN: TAP instruction EXTEST_TRAIN. -/
  | extestTrain (cells : List Bool)
  /-- BYPASS: Any other TAP instruction. -/
  | bypass (op : BitVec 8)
  /-- DEBUG: TAP instruction DEBUG. -/
  | debug
  /-- JTAG_DEBUG_READ: A debug register update that reads a set-up register. -/
  | jtagDebugRead (off : BitVec 16)
  /-- JTAG_DEBUG_WRITE: A debug register update that writes ENG_n_DBG or ENG_n_DBGSEL. -/
  | jtagDebugWrite (off : BitVec 16) (v : BitVec 32)
  /-- TAP_RESET: The TAP is reset. -/
  | tapReset
  /-- REGISTER_READ: A read of a set-up register, at an address as REGISTER_WRITE's. -/
  | registerRead (w : Who) (addr : BitVec 32) (word : Bool)
  /-- TRANSLATED_READ_COMPLETE: The host's answer to a read of engine e, of its current or its preempted task. -/
  | translatedReadComplete (e : Fin 16) (pre ok : Bool) (b : List Byte)
  /-- PCIE_LINK_UP: the PCIe link is up with 1, 2 or 4 lanes at this speed (R646). -/
  | pcieLinkUp (width : Fin 3) (speed : Fin 4)
  /-- SHAPER_CREDIT_ZERO: the credit of class 1 (c 0) or 2 (c 1) of MAC p rises to 0 (R332). -/
  | shaperCreditZero (p : Fin 6) (c : Fin 2)
  /-- CAN_FRAME_TRANSMITTED: CAN controller c has sent its frame; its error counters then are tec and rec (R351). -/
  | canFrameTransmitted (c : Fin 2) (tec rec : BitVec 8)
  /-- CAN_BUS_ERROR: CAN controller c detects a bus error; its error counters then are tec and rec (R351). -/
  | canBusError (c : Fin 2) (tec rec : BitVec 8)
  /-- CAN_ARBITRATION_LOST: CAN controller c loses arbitration (R351). -/
  | canArbitrationLost (c : Fin 2)
  /-- TIMER_COUNT_EDGE: a counted rising edge on pin CPIN of timer n (R544). -/
  | timerCountEdge (n : Fin 16)
  /-- DONE_EDGE: the DONE pin rises or falls (R301). -/
  | doneEdge (high : Bool)
  /-- PREEMPT_VERIFY_RESPONSE: a verify (false) or a valid response (true) mPacket arrives on MAC p (R325). -/
  | preemptVerifyResponse (p : Fin 6) (response : Bool)
  /-- OPERATING_CONDITION_CHANGE: The operating conditions that fail now (VSUP, VIO33, VDD18, VCORE, Tj). -/
  | operatingConditionChange (bad : BitVec 5)
  /-- FREQUENCY_SWITCH_DONE: the frequency switch in progress completes (R594). -/
  | frequencySwitchDone
deriving DecidableEq, Repr

end Sys2Proof
end

