-- ==== Sys2Proof/Decode.lean ====
section
/-!
DEFINITION. The command that a word of the opcode table spells.
-/

namespace Sys2Proof

/-- The opcode table gives no row any bits: no word spells a command. The words of the device's own instruction sets (Forge engine,
Tongs) are decoded by the rows that take them (`Machine/GrgDecode.lean`, `Machine/Tongs.lean`). DESIGN CHOICE, log entry 59. -/
def decodeTableWord (_nbits _w : Nat) : Option Instr := none

end Sys2Proof
end

