-- ==== Sys2Proof/Config.lean ====
section
/-!
DEFINITION. What the spec leaves open for good: uninterpreted constants. Nothing in Lean can evaluate them.
-/

namespace Sys2Proof

/-- The n-th free value the machine takes: a value the spec does not state (DESIGN CHOICE, log entry 4). -/
opaque Config.freeValue : Nat → BitVec 64

/-- Which of its IEEE 802.1CB streams a personality (by its PID) takes a frame to send (true) or a received one (false) for: what its tiles
and firmware configure, in a form the spec does not give (R343; DESIGN CHOICE, log entry 69). -/
opaque Config.cbStream : Nat → Bool → List Byte → Option (Fin 16)

/-- The history length of a personality's stream, less 1, modulo 32 (R343; DESIGN CHOICE, log entry 69). -/
opaque Config.cbHistory : Nat → Fin 16 → Nat

/-- Does the path between two devices (from, to) pass the device of this UID and ID, which is not the manager and knows only its own routes
(R432; DESIGN CHOICE, log entry 89)? -/
opaque Config.onPath : BitVec 64 → Nat → Nat → Nat → Bool

/-- Byte i of the 256-bit device key, which no initiator can read (R288, R693). -/
opaque Config.deviceKey : Fin 32 → BitVec 8

/-- Byte i of the Drikete patch key hash in ROM, whose value the spec does not state (R690). -/
opaque Config.patchKeyHash : Fin 48 → BitVec 8

end Sys2Proof
end

