-- ==== Sys2Proof/Machine/RegMap.lean ====
section
/-!
DEFINITION. The set-up register map (01 Registers; the register tables of 02 to 22): one name per field, and the table of
every register's fields with access code and reset value. A register is named by its set-up key: PF0 BAR0 offset o is key o,
PF1 BAR0 offset o is key 0x10000 + o; channels MBS0 to MBS7 (PF1 BAR0 offset 0x1000 on) have the keys of the secure view of
PF0, 0xF800 on, so that MBX instance c is MBN c for c below 8 and MBS (c - 8) from 8 on.
-/

namespace Sys2Proof.Machine

def Reg.HRT_CTRL_RUN : Fld := ⟨0x1000, 0, 1⟩
def Reg.HRT_CTRL_SRC : Fld := ⟨0x1000, 1, 2⟩
def Reg.HRT_CTRL_SOE : Fld := ⟨0x1000, 3, 1⟩
def Reg.HRT_CTRL_OVRQ : Fld := ⟨0x1000, 8, 4⟩
def Reg.HRT_CTRL : Nat := 0x1000
def Reg.HRT_STAT_RUNNING : Fld := ⟨0x1004, 0, 1⟩
def Reg.HRT_STAT_PHASE : Fld := ⟨0x1004, 1, 2⟩
def Reg.HRT_STAT_CFGERR : Fld := ⟨0x1004, 3, 1⟩
def Reg.HRT_STAT_CFGCODE : Fld := ⟨0x1004, 4, 4⟩
def Reg.HRT_STAT_SRCLOSS : Fld := ⟨0x1004, 8, 1⟩
def Reg.HRT_STAT_REALIGN : Fld := ⟨0x1004, 9, 1⟩
def Reg.HRT_STAT_OVR : Fld := ⟨0x1004, 10, 1⟩
def Reg.HRT_STAT : Nat := 0x1004
def Reg.HRT_PERIOD_PERIOD : Fld := ⟨0x1008, 0, 32⟩
def Reg.HRT_PERIOD : Nat := 0x1008
def Reg.HRT_B1_B : Fld := ⟨0x100c, 0, 10⟩
def Reg.HRT_B1 : Nat := 0x100c
def Reg.HRT_B2_B : Fld := ⟨0x1010, 0, 10⟩
def Reg.HRT_B2 : Nat := 0x1010
def Reg.HRT_B3_B : Fld := ⟨0x1014, 0, 10⟩
def Reg.HRT_B3 : Nat := 0x1014
def Reg.HRT_SYNCWIN_WIN : Fld := ⟨0x1018, 0, 20⟩
def Reg.HRT_SYNCWIN : Nat := 0x1018
def Reg.HRT_TICK_LO_TICK : Fld := ⟨0x1020, 0, 32⟩
def Reg.HRT_TICK_LO : Nat := 0x1020
def Reg.HRT_TICK_HI_TICK : Fld := ⟨0x1024, 0, 32⟩
def Reg.HRT_TICK_HI : Nat := 0x1024
def Reg.HRT_TSTART_LO_TSTART : Fld := ⟨0x1028, 0, 32⟩
def Reg.HRT_TSTART_LO : Nat := 0x1028
def Reg.HRT_TSTART_HI_TSTART : Fld := ⟨0x102c, 0, 32⟩
def Reg.HRT_TSTART_HI : Nat := 0x102c
def Reg.HRT_OVRCNT_COUNT : Fld := ⟨0x1030, 0, 32⟩
def Reg.HRT_OVRCNT : Nat := 0x1030
def Reg.HRT_OVRLAST_SLOT : Fld := ⟨0x1034, 0, 5⟩
def Reg.HRT_OVRLAST_ENGINE : Fld := ⟨0x1034, 8, 4⟩
def Reg.HRT_OVRLAST_KIND : Fld := ⟨0x1034, 12, 1⟩
def Reg.HRT_OVRLAST_TICKLO : Fld := ⟨0x1034, 16, 16⟩
def Reg.HRT_OVRLAST : Nat := 0x1034
def Reg.HRT_SRCCNT_SYNCMISS : Fld := ⟨0x1038, 0, 16⟩
def Reg.HRT_SRCCNT_SYNCOOW : Fld := ⟨0x1038, 16, 16⟩
def Reg.HRT_SRCCNT : Nat := 0x1038
def Reg.HRT_ADMIT_LIMIT : Fld := ⟨0x103c, 0, 24⟩
def Reg.HRT_ADMIT : Nat := 0x103c
def Reg.HRT_EVDEFER_COUNT : Fld := ⟨0x1040, 0, 32⟩
def Reg.HRT_EVDEFER : Nat := 0x1040
def Reg.RING_GCTRL_DBEN : Fld := ⟨0x2000, 0, 1⟩
def Reg.RING_GCTRL_SHEN : Fld := ⟨0x2000, 1, 1⟩
def Reg.RING_GCTRL : Nat := 0x2000
def Reg.RING_DBADDR_LO_ADDR : Fld := ⟨0x2008, 9, 23⟩
def Reg.RING_DBADDR_LO : Nat := 0x2008
def Reg.RING_DBADDR_HI_ADDR : Fld := ⟨0x200c, 0, 32⟩
def Reg.RING_DBADDR_HI : Nat := 0x200c
def Reg.RING_SHADDR_LO_ADDR : Fld := ⟨0x2010, 10, 22⟩
def Reg.RING_SHADDR_LO : Nat := 0x2010
def Reg.RING_SHADDR_HI_ADDR : Fld := ⟨0x2014, 0, 32⟩
def Reg.RING_SHADDR_HI : Nat := 0x2014
def Reg.RING_ERR_LO_ERR : Fld := ⟨0x2018, 0, 32⟩
def Reg.RING_ERR_LO : Nat := 0x2018
def Reg.RING_ERR_HI_ERR : Fld := ⟨0x201c, 0, 32⟩
def Reg.RING_ERR_HI : Nat := 0x201c
def Reg.RING_DBFAIL_COUNT : Fld := ⟨0x2020, 0, 32⟩
def Reg.RING_DBFAIL : Nat := 0x2020
def Reg.RING_NOROUTE_COUNT : Fld := ⟨0x2024, 0, 32⟩
def Reg.RING_NOROUTE : Nat := 0x2024
def Reg.RING_PTR_PTR : Fld := ⟨0x2028, 0, 6⟩
def Reg.RING_PTR : Nat := 0x2028
def Reg.RING_BASE_LO_ADDR (n : Nat) : Fld := ⟨0x2800 + 0x20 * n, 12, 20⟩
def Reg.RING_BASE_LO (n : Nat) : Nat := 0x2800 + 0x20 * n
def Reg.RING_BASE_HI_ADDR (n : Nat) : Fld := ⟨0x2804 + 0x20 * n, 0, 32⟩
def Reg.RING_BASE_HI (n : Nat) : Nat := 0x2804 + 0x20 * n
def Reg.RING_CBASE_LO_ADDR (n : Nat) : Fld := ⟨0x2808 + 0x20 * n, 12, 20⟩
def Reg.RING_CBASE_LO (n : Nat) : Nat := 0x2808 + 0x20 * n
def Reg.RING_CBASE_HI_ADDR (n : Nat) : Fld := ⟨0x280c + 0x20 * n, 0, 32⟩
def Reg.RING_CBASE_HI (n : Nat) : Nat := 0x280c + 0x20 * n
def Reg.RING_CFG_KIND (n : Nat) : Fld := ⟨0x2810 + 0x20 * n, 0, 3⟩
def Reg.RING_CFG_STRIKE (n : Nat) : Fld := ⟨0x2810 + 0x20 * n, 3, 1⟩
def Reg.RING_CFG_SIZE (n : Nat) : Fld := ⟨0x2810 + 0x20 * n, 4, 4⟩
def Reg.RING_CFG_VEC (n : Nat) : Fld := ⟨0x2810 + 0x20 * n, 8, 6⟩
def Reg.RING_CFG_SEL (n : Nat) : Fld := ⟨0x2810 + 0x20 * n, 16, 8⟩
def Reg.RING_CFG_CLS (n : Nat) : Fld := ⟨0x2810 + 0x20 * n, 24, 8⟩
def Reg.RING_CFG (n : Nat) : Nat := 0x2810 + 0x20 * n
def Reg.RING_CTRL_EN (n : Nat) : Fld := ⟨0x2814 + 0x20 * n, 0, 1⟩
def Reg.RING_CTRL_FLUSH (n : Nat) : Fld := ⟨0x2814 + 0x20 * n, 1, 1⟩
def Reg.RING_CTRL_BURST (n : Nat) : Fld := ⟨0x2814 + 0x20 * n, 8, 8⟩
def Reg.RING_CTRL (n : Nat) : Nat := 0x2814 + 0x20 * n
def Reg.RING_START_IDX (n : Nat) : Fld := ⟨0x2818 + 0x20 * n, 0, 16⟩
def Reg.RING_START_GEN (n : Nat) : Fld := ⟨0x2818 + 0x20 * n, 16, 8⟩
def Reg.RING_START (n : Nat) : Nat := 0x2818 + 0x20 * n
def Reg.RING_STAT_ERR (n : Nat) : Fld := ⟨0x281c + 0x20 * n, 0, 1⟩
def Reg.RING_STAT_ERRCODE (n : Nat) : Fld := ⟨0x281c + 0x20 * n, 1, 3⟩
def Reg.RING_STAT_HELD (n : Nat) : Fld := ⟨0x281c + 0x20 * n, 4, 1⟩
def Reg.RING_STAT_ACTIVE (n : Nat) : Fld := ⟨0x281c + 0x20 * n, 5, 1⟩
def Reg.RING_STAT_DROP (n : Nat) : Fld := ⟨0x281c + 0x20 * n, 16, 16⟩
def Reg.RING_STAT (n : Nat) : Nat := 0x281c + 0x20 * n
def Reg.DEV_ID_VENDOR : Fld := ⟨0x0, 0, 16⟩
def Reg.DEV_ID_DEVICE : Fld := ⟨0x0, 16, 16⟩
def Reg.DEV_ID : Nat := 0x0
def Reg.DEV_REV_STEP : Fld := ⟨0x4, 0, 8⟩
def Reg.DEV_REV : Nat := 0x4
def Reg.DEV_UID_LO_UID : Fld := ⟨0x8, 0, 32⟩
def Reg.DEV_UID_LO : Nat := 0x8
def Reg.DEV_UID_HI_UID : Fld := ⟨0xc, 0, 32⟩
def Reg.DEV_UID_HI : Nat := 0xc
def Reg.DEV_CTRL_SOFTRST : Fld := ⟨0x10, 0, 1⟩
def Reg.DEV_CTRL : Nat := 0x10
def Reg.DEV_STAT_LOCKV : Fld := ⟨0x14, 0, 1⟩
def Reg.DEV_STAT_ACCF : Fld := ⟨0x14, 1, 1⟩
def Reg.DEV_STAT_BAR2EN : Fld := ⟨0x14, 2, 1⟩
def Reg.DEV_STAT : Nat := 0x14
def Reg.DEV_NUDGE_NUDGE : Fld := ⟨0x18, 0, 32⟩
def Reg.DEV_NUDGE : Nat := 0x18
def Reg.DEV_LOCK_BLK : Fld := ⟨0x1c, 0, 16⟩
def Reg.DEV_LOCK : Nat := 0x1c
def Reg.DEV_LOCKERR_OFFSET : Fld := ⟨0x20, 0, 16⟩
def Reg.DEV_LOCKERR_COUNT : Fld := ⟨0x20, 16, 16⟩
def Reg.DEV_LOCKERR : Nat := 0x20
def Reg.DEV_ACCERR_OFFSET : Fld := ⟨0x24, 0, 16⟩
def Reg.DEV_ACCERR_CAUSE : Fld := ⟨0x24, 16, 2⟩
def Reg.DEV_ACCERR_SRC : Fld := ⟨0x24, 18, 1⟩
def Reg.DEV_ACCERR_COUNT : Fld := ⟨0x24, 20, 12⟩
def Reg.DEV_ACCERR : Nat := 0x24
def Reg.DEV_B2WIN_BASE : Fld := ⟨0x28, 0, 4⟩
def Reg.DEV_B2WIN : Nat := 0x28
def Reg.DEV_RESIDX_IDX : Fld := ⟨0x30, 0, 10⟩
def Reg.DEV_RESIDX : Nat := 0x30
def Reg.DEV_RESDATA_DATA : Fld := ⟨0x34, 0, 32⟩
def Reg.DEV_RESDATA : Nat := 0x34
def Reg.DEV_PCISTAT_WIDTH : Fld := ⟨0x40, 0, 3⟩
def Reg.DEV_PCISTAT_SPEED : Fld := ⟨0x40, 4, 3⟩
def Reg.DEV_PCISTAT_LINKUP : Fld := ⟨0x40, 8, 1⟩
def Reg.DEV_PCISTAT_BME0 : Fld := ⟨0x40, 9, 1⟩
def Reg.DEV_PCISTAT : Nat := 0x40
def Reg.DEV_XLAT_LO_V (n : Nat) : Fld := ⟨0x100 + 0x8 * n, 0, 1⟩
def Reg.DEV_XLAT_LO_WE (n : Nat) : Fld := ⟨0x100 + 0x8 * n, 1, 1⟩
def Reg.DEV_XLAT_LO_BASE (n : Nat) : Fld := ⟨0x100 + 0x8 * n, 12, 20⟩
def Reg.DEV_XLAT_LO (n : Nat) : Nat := 0x100 + 0x8 * n
def Reg.DEV_XLAT_HI_BASE (n : Nat) : Fld := ⟨0x104 + 0x8 * n, 0, 32⟩
def Reg.DEV_XLAT_HI (n : Nat) : Nat := 0x104 + 0x8 * n
def Reg.ENG_ENTRYDLY_DLY : Fld := ⟨0x3000, 0, 7⟩
def Reg.ENG_ENTRYDLY : Nat := 0x3000
def Reg.ENG_GSTAT_DLYCLAMP : Fld := ⟨0x3004, 0, 1⟩
def Reg.ENG_GSTAT : Nat := 0x3004
def Reg.ENG_CTRL_RST (n : Nat) : Fld := ⟨0x3100 + 0x40 * n, 0, 1⟩
def Reg.ENG_CTRL (n : Nat) : Nat := 0x3100 + 0x40 * n
def Reg.ENG_CFG_RSOVF (n : Nat) : Fld := ⟨0x3104 + 0x40 * n, 0, 1⟩
def Reg.ENG_CFG_TRAPQ (n : Nat) : Fld := ⟨0x3104 + 0x40 * n, 1, 1⟩
def Reg.ENG_CFG_SECURE (n : Nat) : Fld := ⟨0x3104 + 0x40 * n, 2, 1⟩
def Reg.ENG_CFG (n : Nat) : Nat := 0x3104 + 0x40 * n
def Reg.ENG_STAT_STATE (n : Nat) : Fld := ⟨0x3108 + 0x40 * n, 0, 3⟩
def Reg.ENG_STAT_SLOT (n : Nat) : Fld := ⟨0x3108 + 0x40 * n, 3, 5⟩
def Reg.ENG_STAT_OWNER (n : Nat) : Fld := ⟨0x3108 + 0x40 * n, 8, 2⟩
def Reg.ENG_STAT (n : Nat) : Nat := 0x3108 + 0x40 * n
def Reg.ENG_TRAPV_EN (n : Nat) : Fld := ⟨0x310c + 0x40 * n, 0, 1⟩
def Reg.ENG_TRAPV_BASE (n : Nat) : Fld := ⟨0x310c + 0x40 * n, 15, 15⟩
def Reg.ENG_TRAPV (n : Nat) : Nat := 0x310c + 0x40 * n
def Reg.ENG_TRAP_CAUSE (n : Nat) : Fld := ⟨0x3110 + 0x40 * n, 0, 4⟩
def Reg.ENG_TRAP_SLOT (n : Nat) : Fld := ⟨0x3110 + 0x40 * n, 4, 5⟩
def Reg.ENG_TRAP_COUNT (n : Nat) : Fld := ⟨0x3110 + 0x40 * n, 16, 8⟩
def Reg.ENG_TRAP_DOUBLE (n : Nat) : Fld := ⟨0x3110 + 0x40 * n, 24, 8⟩
def Reg.ENG_TRAP (n : Nat) : Nat := 0x3110 + 0x40 * n
def Reg.ENG_TRAPPC_PC (n : Nat) : Fld := ⟨0x3114 + 0x40 * n, 0, 32⟩
def Reg.ENG_TRAPPC (n : Nat) : Nat := 0x3114 + 0x40 * n
def Reg.ENG_EVPEND_LO_PEND (n : Nat) : Fld := ⟨0x3118 + 0x40 * n, 0, 32⟩
def Reg.ENG_EVPEND_LO (n : Nat) : Nat := 0x3118 + 0x40 * n
def Reg.ENG_EVPEND_HI_PEND (n : Nat) : Fld := ⟨0x311c + 0x40 * n, 0, 32⟩
def Reg.ENG_EVPEND_HI (n : Nat) : Nat := 0x311c + 0x40 * n
def Reg.ENG_LATECNT_COUNT (n : Nat) : Fld := ⟨0x3120 + 0x40 * n, 0, 32⟩
def Reg.ENG_LATECNT (n : Nat) : Nat := 0x3120 + 0x40 * n
def Reg.ENG_EVMERGE_COUNT (n : Nat) : Fld := ⟨0x3124 + 0x40 * n, 0, 32⟩
def Reg.ENG_EVMERGE (n : Nat) : Nat := 0x3124 + 0x40 * n
def Reg.ENG_PHYS_CORE (n : Nat) : Fld := ⟨0x3128 + 0x40 * n, 0, 5⟩
def Reg.ENG_PHYS (n : Nat) : Nat := 0x3128 + 0x40 * n
def Reg.ENG_SKIP_COUNT (n : Nat) : Fld := ⟨0x312c + 0x40 * n, 0, 32⟩
def Reg.ENG_SKIP (n : Nat) : Nat := 0x312c + 0x40 * n
def Reg.ENG_ECC_CORR (n : Nat) : Fld := ⟨0x3130 + 0x40 * n, 0, 16⟩
def Reg.ENG_ECC_UNC (n : Nat) : Fld := ⟨0x3130 + 0x40 * n, 16, 16⟩
def Reg.ENG_ECC (n : Nat) : Nat := 0x3130 + 0x40 * n
def Reg.ENG_DBG_HALT (n : Nat) : Fld := ⟨0x3134 + 0x40 * n, 0, 1⟩
def Reg.ENG_DBG_STEP (n : Nat) : Fld := ⟨0x3134 + 0x40 * n, 1, 1⟩
def Reg.ENG_DBG_HALTED (n : Nat) : Fld := ⟨0x3134 + 0x40 * n, 2, 1⟩
def Reg.ENG_DBG_REFUSED (n : Nat) : Fld := ⟨0x3134 + 0x40 * n, 3, 1⟩
def Reg.ENG_DBG (n : Nat) : Nat := 0x3134 + 0x40 * n
def Reg.ENG_DBGSEL_REG (n : Nat) : Fld := ⟨0x3138 + 0x40 * n, 0, 6⟩
def Reg.ENG_DBGSEL_CTX (n : Nat) : Fld := ⟨0x3138 + 0x40 * n, 7, 1⟩
def Reg.ENG_DBGSEL (n : Nat) : Nat := 0x3138 + 0x40 * n
def Reg.ENG_DBGDATA_DATA (n : Nat) : Fld := ⟨0x313c + 0x40 * n, 0, 32⟩
def Reg.ENG_DBGDATA (n : Nat) : Nat := 0x313c + 0x40 * n
def Reg.HRD_CTRL_SCRUBEN : Fld := ⟨0x4000, 0, 1⟩
def Reg.HRD_CTRL : Nat := 0x4000
def Reg.HRD_SCRUB_RATE : Fld := ⟨0x4004, 0, 12⟩
def Reg.HRD_SCRUB : Nat := 0x4004
def Reg.HRD_STAT_UNC : Fld := ⟨0x4008, 0, 1⟩
def Reg.HRD_STAT_MIGBUSY : Fld := ⟨0x4008, 1, 1⟩
def Reg.HRD_STAT_NOSPARE : Fld := ⟨0x4008, 2, 1⟩
def Reg.HRD_STAT_PARTERR : Fld := ⟨0x4008, 3, 1⟩
def Reg.HRD_STAT_PARTCODE : Fld := ⟨0x4008, 4, 2⟩
def Reg.HRD_STAT_MIGDONE : Fld := ⟨0x4008, 6, 1⟩
def Reg.HRD_STAT : Nat := 0x4008
def Reg.HRD_ECC_CORR : Fld := ⟨0x400c, 0, 16⟩
def Reg.HRD_ECC_UNC : Fld := ⟨0x400c, 16, 16⟩
def Reg.HRD_ECC : Nat := 0x400c
def Reg.HRD_ECCADDR_ADDR : Fld := ⟨0x4010, 0, 32⟩
def Reg.HRD_ECCADDR : Nat := 0x4010
def Reg.HRD_MIG_BANK : Fld := ⟨0x4014, 0, 5⟩
def Reg.HRD_MIG_GO : Fld := ⟨0x4014, 8, 1⟩
def Reg.HRD_MIG_THR : Fld := ⟨0x4014, 16, 16⟩
def Reg.HRD_MIG : Nat := 0x4014
def Reg.HRD_PCTL_APPLY : Fld := ⟨0x4018, 0, 1⟩
def Reg.HRD_PCTL : Nat := 0x4018
def Reg.HRD_BANKMAP_PHYS0 (n : Nat) : Fld := ⟨0x4040 + 0x4 * n, 0, 6⟩
def Reg.HRD_BANKMAP_PHYS1 (n : Nat) : Fld := ⟨0x4040 + 0x4 * n, 8, 6⟩
def Reg.HRD_BANKMAP_PHYS2 (n : Nat) : Fld := ⟨0x4040 + 0x4 * n, 16, 6⟩
def Reg.HRD_BANKMAP_PHYS3 (n : Nat) : Fld := ⟨0x4040 + 0x4 * n, 24, 6⟩
def Reg.HRD_BANKMAP (n : Nat) : Nat := 0x4040 + 0x4 * n
def Reg.HRD_BANK_TGT (n : Nat) : Fld := ⟨0x4100 + 0x4 * n, 0, 2⟩
def Reg.HRD_BANK_CUR (n : Nat) : Fld := ⟨0x4100 + 0x4 * n, 4, 3⟩
def Reg.HRD_BANK_CORR (n : Nat) : Fld := ⟨0x4100 + 0x4 * n, 8, 16⟩
def Reg.HRD_BANK (n : Nat) : Nat := 0x4100 + 0x4 * n
def Reg.HRD_PART_BASE (n : Nat) : Fld := ⟨0x4200 + 0x4 * n, 0, 8⟩
def Reg.HRD_PART_SIZE (n : Nat) : Fld := ⟨0x4200 + 0x4 * n, 8, 9⟩
def Reg.HRD_PART_KIND (n : Nat) : Fld := ⟨0x4200 + 0x4 * n, 17, 3⟩
def Reg.HRD_PART (n : Nat) : Nat := 0x4200 + 0x4 * n
def Reg.HRD_SEC_LO_V (n : Nat) : Fld := ⟨0x4300 + 0x8 * n, 0, 1⟩
def Reg.HRD_SEC_LO_BASE (n : Nat) : Fld := ⟨0x4300 + 0x8 * n, 12, 12⟩
def Reg.HRD_SEC_LO (n : Nat) : Nat := 0x4300 + 0x8 * n
def Reg.HRD_SEC_HI_LIMIT (n : Nat) : Fld := ⟨0x4304 + 0x8 * n, 0, 12⟩
def Reg.HRD_SEC_HI_LDR (n : Nat) : Fld := ⟨0x4304 + 0x8 * n, 12, 1⟩
def Reg.HRD_SEC_HI_SLOTS (n : Nat) : Fld := ⟨0x4304 + 0x8 * n, 13, 3⟩
def Reg.HRD_SEC_HI (n : Nat) : Nat := 0x4304 + 0x8 * n
def Reg.PRS_GSTAT_SEALONLY : Fld := ⟨0x5000, 0, 1⟩
def Reg.PRS_GSTAT_BUSY : Fld := ⟨0x5000, 1, 1⟩
def Reg.PRS_GSTAT_BOOTDONE : Fld := ⟨0x5000, 2, 1⟩
def Reg.PRS_GSTAT_BOOTERR : Fld := ⟨0x5000, 3, 1⟩
def Reg.PRS_GSTAT_BOOTSRC : Fld := ⟨0x5000, 4, 2⟩
def Reg.PRS_GSTAT : Nat := 0x5000
def Reg.PRS_DONECTL_EN : Fld := ⟨0x5004, 0, 1⟩
def Reg.PRS_DONECTL_DRIVE : Fld := ⟨0x5004, 1, 1⟩
def Reg.PRS_DONECTL_LEVEL : Fld := ⟨0x5004, 2, 1⟩
def Reg.PRS_DONECTL_TMO : Fld := ⟨0x5004, 16, 16⟩
def Reg.PRS_DONECTL : Nat := 0x5004
def Reg.PRS_FCLK_MHZ : Fld := ⟨0x5008, 0, 8⟩
def Reg.PRS_FCLK : Nat := 0x5008
def Reg.PRS_STAT_STATE (n : Nat) : Fld := ⟨0x5100 + 0x40 * n, 0, 4⟩
def Reg.PRS_STAT_STEP (n : Nat) : Fld := ⟨0x5100 + 0x40 * n, 4, 3⟩
def Reg.PRS_STAT_UPSET (n : Nat) : Fld := ⟨0x5100 + 0x40 * n, 7, 1⟩
def Reg.PRS_STAT_UPUNC (n : Nat) : Fld := ⟨0x5100 + 0x40 * n, 8, 1⟩
def Reg.PRS_STAT (n : Nat) : Nat := 0x5100 + 0x40 * n
def Reg.PRS_ERR_CODE (n : Nat) : Fld := ⟨0x5104 + 0x40 * n, 0, 8⟩
def Reg.PRS_ERR_OFFSET (n : Nat) : Fld := ⟨0x5104 + 0x40 * n, 8, 24⟩
def Reg.PRS_ERR (n : Nat) : Nat := 0x5104 + 0x40 * n
def Reg.PRS_ID_PID (n : Nat) : Fld := ⟨0x5108 + 0x40 * n, 0, 8⟩
def Reg.PRS_ID_VMODE (n : Nat) : Fld := ⟨0x5108 + 0x40 * n, 8, 2⟩
def Reg.PRS_ID_ORDER (n : Nat) : Fld := ⟨0x5108 + 0x40 * n, 10, 5⟩
def Reg.PRS_ID_UPMODE (n : Nat) : Fld := ⟨0x5108 + 0x40 * n, 15, 2⟩
def Reg.PRS_ID_REBAL (n : Nat) : Fld := ⟨0x5108 + 0x40 * n, 17, 1⟩
def Reg.PRS_ID (n : Nat) : Nat := 0x5108 + 0x40 * n
def Reg.PRS_VER_VERSION (n : Nat) : Fld := ⟨0x510c + 0x40 * n, 0, 32⟩
def Reg.PRS_VER (n : Nat) : Nat := 0x510c + 0x40 * n
def Reg.PRS_HASH_LO_HASH (n : Nat) : Fld := ⟨0x5110 + 0x40 * n, 0, 32⟩
def Reg.PRS_HASH_LO (n : Nat) : Nat := 0x5110 + 0x40 * n
def Reg.PRS_HASH_HI_HASH (n : Nat) : Fld := ⟨0x5114 + 0x40 * n, 0, 32⟩
def Reg.PRS_HASH_HI (n : Nat) : Nat := 0x5114 + 0x40 * n
def Reg.PRS_RES_ENG (n : Nat) : Fld := ⟨0x5118 + 0x40 * n, 0, 16⟩
def Reg.PRS_RES_TILE (n : Nat) : Fld := ⟨0x5118 + 0x40 * n, 16, 5⟩
def Reg.PRS_RES_PORT (n : Nat) : Fld := ⟨0x5118 + 0x40 * n, 21, 6⟩
def Reg.PRS_RES_CAN (n : Nat) : Fld := ⟨0x5118 + 0x40 * n, 27, 2⟩
def Reg.PRS_RES (n : Nat) : Nat := 0x5118 + 0x40 * n
def Reg.PRS_CFG_UPACT (n : Nat) : Fld := ⟨0x511c + 0x40 * n, 0, 1⟩
def Reg.PRS_CFG (n : Nat) : Nat := 0x511c + 0x40 * n
def Reg.PRS_UPCNT_CORR (n : Nat) : Fld := ⟨0x5120 + 0x40 * n, 0, 16⟩
def Reg.PRS_UPCNT_UNC (n : Nat) : Fld := ⟨0x5120 + 0x40 * n, 16, 16⟩
def Reg.PRS_UPCNT (n : Nat) : Nat := 0x5120 + 0x40 * n
def Reg.PRS_PROG_BYTES (n : Nat) : Fld := ⟨0x5124 + 0x40 * n, 0, 32⟩
def Reg.PRS_PROG (n : Nat) : Nat := 0x5124 + 0x40 * n
def Reg.PRS_STARTTICK_TICK (n : Nat) : Fld := ⟨0x5128 + 0x40 * n, 0, 32⟩
def Reg.PRS_STARTTICK (n : Nat) : Nat := 0x5128 + 0x40 * n
def Reg.PRS_FT_SIG_SIG (n : Nat) : Fld := ⟨0x5200 + 0x4 * n, 0, 32⟩
def Reg.PRS_FT_SIG (n : Nat) : Nat := 0x5200 + 0x4 * n
def Reg.PORT_VIDOVF_COUNT : Fld := ⟨0x6000, 0, 32⟩
def Reg.PORT_VIDOVF : Nat := 0x6000
def Reg.PORT_LCFG_EN (n : Nat) : Fld := ⟨0x6100 + 0x200 * n, 0, 1⟩
def Reg.PORT_LCFG_MODE (n : Nat) : Fld := ⟨0x6100 + 0x200 * n, 1, 3⟩
def Reg.PORT_LCFG_EEE (n : Nat) : Fld := ⟨0x6100 + 0x200 * n, 4, 1⟩
def Reg.PORT_LCFG (n : Nat) : Nat := 0x6100 + 0x200 * n
def Reg.PORT_LSTAT_UP (n : Nat) : Fld := ⟨0x6104 + 0x200 * n, 0, 1⟩
def Reg.PORT_LSTAT_SPEED (n : Nat) : Fld := ⟨0x6104 + 0x200 * n, 1, 2⟩
def Reg.PORT_LSTAT_FDX (n : Nat) : Fld := ⟨0x6104 + 0x200 * n, 3, 1⟩
def Reg.PORT_LSTAT_LCHG (n : Nat) : Fld := ⟨0x6104 + 0x200 * n, 4, 1⟩
def Reg.PORT_LSTAT_CBSERR (n : Nat) : Fld := ⟨0x6104 + 0x200 * n, 5, 1⟩
def Reg.PORT_LSTAT (n : Nat) : Nat := 0x6104 + 0x200 * n
def Reg.PORT_PMAP_CLS (n : Nat) : Fld := ⟨0x6108 + 0x200 * n, 0, 24⟩
def Reg.PORT_PMAP_UNTAG (n : Nat) : Fld := ⟨0x6108 + 0x200 * n, 24, 3⟩
def Reg.PORT_PMAP (n : Nat) : Nat := 0x6108 + 0x200 * n
def Reg.PORT_ALLOW_FRAMES (n : Nat) : Fld := ⟨0x610c + 0x200 * n, 0, 15⟩
def Reg.PORT_ALLOW (n : Nat) : Nat := 0x610c + 0x200 * n
def Reg.PORT_ALLOWB_BYTES (n : Nat) : Fld := ⟨0x6110 + 0x200 * n, 0, 32⟩
def Reg.PORT_ALLOWB (n : Nat) : Nat := 0x6110 + 0x200 * n
def Reg.PORT_PAUSEX_EXEMPT (n : Nat) : Fld := ⟨0x6114 + 0x200 * n, 0, 1⟩
def Reg.PORT_PAUSEX (n : Nat) : Nat := 0x6114 + 0x200 * n
def Reg.PORT_PCFG_RXEN (n : Nat) : Fld := ⟨0x6118 + 0x200 * n, 0, 1⟩
def Reg.PORT_PCFG_TXEN (n : Nat) : Fld := ⟨0x6118 + 0x200 * n, 1, 1⟩
def Reg.PORT_PCFG_QUANTA (n : Nat) : Fld := ⟨0x6118 + 0x200 * n, 16, 16⟩
def Reg.PORT_PCFG (n : Nat) : Nat := 0x6118 + 0x200 * n
def Reg.PORT_PTHR_XOFF (n : Nat) : Fld := ⟨0x611c + 0x200 * n, 0, 8⟩
def Reg.PORT_PTHR_XON (n : Nat) : Fld := ⟨0x611c + 0x200 * n, 8, 8⟩
def Reg.PORT_PTHR (n : Nat) : Nat := 0x611c + 0x200 * n
def Reg.PORT_PSTAT_PAUSED (n : Nat) : Fld := ⟨0x6120 + 0x200 * n, 0, 1⟩
def Reg.PORT_PSTAT_REMAIN (n : Nat) : Fld := ⟨0x6120 + 0x200 * n, 16, 16⟩
def Reg.PORT_PSTAT (n : Nat) : Nat := 0x6120 + 0x200 * n
def Reg.PORT_PRE_EN (n : Nat) : Fld := ⟨0x6124 + 0x200 * n, 0, 1⟩
def Reg.PORT_PRE_C6X (n : Nat) : Fld := ⟨0x6124 + 0x200 * n, 1, 1⟩
def Reg.PORT_PRE_NOVERIFY (n : Nat) : Fld := ⟨0x6124 + 0x200 * n, 2, 1⟩
def Reg.PORT_PRE_AFS (n : Nat) : Fld := ⟨0x6124 + 0x200 * n, 3, 2⟩
def Reg.PORT_PRE_VSTAT (n : Nat) : Fld := ⟨0x6124 + 0x200 * n, 5, 2⟩
def Reg.PORT_PRE_ACTIVE (n : Nat) : Fld := ⟨0x6124 + 0x200 * n, 7, 1⟩
def Reg.PORT_PRE_VTIME (n : Nat) : Fld := ⟨0x6124 + 0x200 * n, 8, 8⟩
def Reg.PORT_PRE (n : Nat) : Nat := 0x6124 + 0x200 * n
def Reg.PORT_GCTL_EN (n : Nat) : Fld := ⟨0x6128 + 0x200 * n, 0, 1⟩
def Reg.PORT_GCTL_COMMIT (n : Nat) : Fld := ⟨0x6128 + 0x200 * n, 1, 1⟩
def Reg.PORT_GCTL_PEND (n : Nat) : Fld := ⟨0x6128 + 0x200 * n, 2, 1⟩
def Reg.PORT_GCTL_NENT (n : Nat) : Fld := ⟨0x6128 + 0x200 * n, 8, 5⟩
def Reg.PORT_GCTL (n : Nat) : Nat := 0x6128 + 0x200 * n
def Reg.PORT_CBS1_IDLE (n : Nat) : Fld := ⟨0x612c + 0x200 * n, 0, 16⟩
def Reg.PORT_CBS1 (n : Nat) : Nat := 0x612c + 0x200 * n
def Reg.PORT_CBS2_IDLE (n : Nat) : Fld := ⟨0x6130 + 0x200 * n, 0, 16⟩
def Reg.PORT_CBS2 (n : Nat) : Nat := 0x6130 + 0x200 * n
def Reg.PORT_FWD_EGR (n : Nat) : Fld := ⟨0x6134 + 0x200 * n, 0, 4⟩
def Reg.PORT_FWD_CTEN (n : Nat) : Fld := ⟨0x6134 + 0x200 * n, 4, 1⟩
def Reg.PORT_FWD_CTSTART (n : Nat) : Fld := ⟨0x6134 + 0x200 * n, 8, 7⟩
def Reg.PORT_FWD (n : Nat) : Nat := 0x6134 + 0x200 * n
def Reg.PORT_STRK_VOID (n : Nat) : Fld := ⟨0x6138 + 0x200 * n, 0, 1⟩
def Reg.PORT_STRK_VCODE (n : Nat) : Fld := ⟨0x6138 + 0x200 * n, 1, 4⟩
def Reg.PORT_STRK (n : Nat) : Nat := 0x6138 + 0x200 * n
def Reg.PORT_DEMOTE_COUNT (n : Nat) : Fld := ⟨0x613c + 0x200 * n, 0, 32⟩
def Reg.PORT_DEMOTE (n : Nat) : Nat := 0x613c + 0x200 * n
def Reg.PORT_MISS_COUNT (n : Nat) : Fld := ⟨0x6140 + 0x200 * n, 0, 32⟩
def Reg.PORT_MISS (n : Nat) : Nat := 0x6140 + 0x200 * n
def Reg.PORT_STOMP_TX (n : Nat) : Fld := ⟨0x6144 + 0x200 * n, 0, 16⟩
def Reg.PORT_STOMP_RX (n : Nat) : Fld := ⟨0x6144 + 0x200 * n, 16, 16⟩
def Reg.PORT_STOMP (n : Nat) : Nat := 0x6144 + 0x200 * n
def Reg.PORT_DROP_RXOVF (n : Nat) : Fld := ⟨0x6148 + 0x200 * n, 0, 8⟩
def Reg.PORT_DROP_LEN (n : Nat) : Fld := ⟨0x6148 + 0x200 * n, 8, 8⟩
def Reg.PORT_DROP_FCS (n : Nat) : Fld := ⟨0x6148 + 0x200 * n, 16, 8⟩
def Reg.PORT_DROP_LINK (n : Nat) : Fld := ⟨0x6148 + 0x200 * n, 24, 8⟩
def Reg.PORT_DROP (n : Nat) : Nat := 0x6148 + 0x200 * n
def Reg.PORT_GCL_GATES (n m : Nat) : Fld := ⟨0x6180 + 0x200 * n + 0x4 * m, 0, 8⟩
def Reg.PORT_GCL_DUR (n m : Nat) : Fld := ⟨0x6180 + 0x200 * n + 0x4 * m, 8, 24⟩
def Reg.PORT_GCL (n m : Nat) : Nat := 0x6180 + 0x200 * n + 0x4 * m
def Reg.PORT_VID_CFG_EN (n : Nat) : Fld := ⟨0x6d00 + 0x10 * n, 0, 1⟩
def Reg.PORT_VID_CFG_PORT (n : Nat) : Fld := ⟨0x6d00 + 0x10 * n, 1, 1⟩
def Reg.PORT_VID_CFG_CODEC (n : Nat) : Fld := ⟨0x6d00 + 0x10 * n, 2, 1⟩
def Reg.PORT_VID_CFG_SSRCEN (n : Nat) : Fld := ⟨0x6d00 + 0x10 * n, 3, 1⟩
def Reg.PORT_VID_CFG_DAMAGED (n : Nat) : Fld := ⟨0x6d00 + 0x10 * n, 4, 1⟩
def Reg.PORT_VID_CFG_PT (n : Nat) : Fld := ⟨0x6d00 + 0x10 * n, 5, 7⟩
def Reg.PORT_VID_CFG_QUOTA (n : Nat) : Fld := ⟨0x6d00 + 0x10 * n, 12, 6⟩
def Reg.PORT_VID_CFG (n : Nat) : Nat := 0x6d00 + 0x10 * n
def Reg.PORT_VID_DPORT_DPORT (n : Nat) : Fld := ⟨0x6d04 + 0x10 * n, 0, 16⟩
def Reg.PORT_VID_DPORT (n : Nat) : Nat := 0x6d04 + 0x10 * n
def Reg.PORT_VID_SSRC_SSRC (n : Nat) : Fld := ⟨0x6d08 + 0x10 * n, 0, 32⟩
def Reg.PORT_VID_SSRC (n : Nat) : Nat := 0x6d08 + 0x10 * n
def Reg.PORT_VID_DROP_NOBUF (n : Nat) : Fld := ⟨0x6d0c + 0x10 * n, 0, 8⟩
def Reg.PORT_VID_DROP_TOOBIG (n : Nat) : Fld := ⟨0x6d0c + 0x10 * n, 8, 8⟩
def Reg.PORT_VID_DROP_LATE (n : Nat) : Fld := ⟨0x6d0c + 0x10 * n, 16, 8⟩
def Reg.PORT_VID_DROP_LOSS (n : Nat) : Fld := ⟨0x6d0c + 0x10 * n, 24, 8⟩
def Reg.PORT_VID_DROP (n : Nat) : Nat := 0x6d0c + 0x10 * n
def Reg.PORT_CAN_CFG_EN (n : Nat) : Fld := ⟨0x6e00 + 0x20 * n, 0, 1⟩
def Reg.PORT_CAN_CFG_FDEN (n : Nat) : Fld := ⟨0x6e00 + 0x20 * n, 1, 1⟩
def Reg.PORT_CAN_CFG_AUTOREC (n : Nat) : Fld := ⟨0x6e00 + 0x20 * n, 2, 1⟩
def Reg.PORT_CAN_CFG_RECOVER (n : Nat) : Fld := ⟨0x6e00 + 0x20 * n, 3, 1⟩
def Reg.PORT_CAN_CFG_TDCO (n : Nat) : Fld := ⟨0x6e00 + 0x20 * n, 8, 8⟩
def Reg.PORT_CAN_CFG (n : Nat) : Nat := 0x6e00 + 0x20 * n
def Reg.PORT_CAN_NBT_BRP (n : Nat) : Fld := ⟨0x6e04 + 0x20 * n, 0, 8⟩
def Reg.PORT_CAN_NBT_TSEG1 (n : Nat) : Fld := ⟨0x6e04 + 0x20 * n, 8, 8⟩
def Reg.PORT_CAN_NBT_TSEG2 (n : Nat) : Fld := ⟨0x6e04 + 0x20 * n, 16, 7⟩
def Reg.PORT_CAN_NBT_SJW (n : Nat) : Fld := ⟨0x6e04 + 0x20 * n, 23, 7⟩
def Reg.PORT_CAN_NBT (n : Nat) : Nat := 0x6e04 + 0x20 * n
def Reg.PORT_CAN_DBT_BRP (n : Nat) : Fld := ⟨0x6e08 + 0x20 * n, 0, 5⟩
def Reg.PORT_CAN_DBT_TSEG1 (n : Nat) : Fld := ⟨0x6e08 + 0x20 * n, 5, 5⟩
def Reg.PORT_CAN_DBT_TSEG2 (n : Nat) : Fld := ⟨0x6e08 + 0x20 * n, 10, 4⟩
def Reg.PORT_CAN_DBT_SJW (n : Nat) : Fld := ⟨0x6e08 + 0x20 * n, 14, 4⟩
def Reg.PORT_CAN_DBT (n : Nat) : Nat := 0x6e08 + 0x20 * n
def Reg.PORT_CAN_STAT_TEC (n : Nat) : Fld := ⟨0x6e0c + 0x20 * n, 0, 8⟩
def Reg.PORT_CAN_STAT_REC (n : Nat) : Fld := ⟨0x6e0c + 0x20 * n, 8, 8⟩
def Reg.PORT_CAN_STAT_STATE (n : Nat) : Fld := ⟨0x6e0c + 0x20 * n, 16, 2⟩
def Reg.PORT_CAN_STAT_BOFF (n : Nat) : Fld := ⟨0x6e0c + 0x20 * n, 18, 1⟩
def Reg.PORT_CAN_STAT (n : Nat) : Nat := 0x6e0c + 0x20 * n
def Reg.TIME_CTRL_OWNER : Fld := ⟨0x7000, 0, 2⟩
def Reg.TIME_CTRL : Nat := 0x7000
def Reg.TIME_STAT_VALID : Fld := ⟨0x7004, 0, 1⟩
def Reg.TIME_STAT_HOLD : Fld := ⟨0x7004, 1, 1⟩
def Reg.TIME_STAT_REFUSED : Fld := ⟨0x7004, 2, 1⟩
def Reg.TIME_STAT_CLAMP : Fld := ⟨0x7004, 3, 1⟩
def Reg.TIME_STAT_COARSE : Fld := ⟨0x7004, 4, 1⟩
def Reg.TIME_STAT_STEPCNT : Fld := ⟨0x7004, 8, 8⟩
def Reg.TIME_STAT : Nat := 0x7004
def Reg.TIME_NOW_LO_NS : Fld := ⟨0x7008, 0, 32⟩
def Reg.TIME_NOW_LO : Nat := 0x7008
def Reg.TIME_NOW_HI_NS : Fld := ⟨0x700c, 0, 32⟩
def Reg.TIME_NOW_HI : Nat := 0x700c
def Reg.TIME_NOW_FRAC_FRAC : Fld := ⟨0x7010, 0, 16⟩
def Reg.TIME_NOW_FRAC : Nat := 0x7010
def Reg.TIME_ADDEND_ADD : Fld := ⟨0x7014, 0, 32⟩
def Reg.TIME_ADDEND : Nat := 0x7014
def Reg.TIME_SLEW_OFFSET : Fld := ⟨0x7018, 0, 24⟩
def Reg.TIME_SLEW_RATE : Fld := ⟨0x7018, 24, 8⟩
def Reg.TIME_SLEW : Nat := 0x7018
def Reg.TIME_SLEWREM_REMAIN : Fld := ⟨0x701c, 0, 24⟩
def Reg.TIME_SLEWREM : Nat := 0x701c
def Reg.TIME_STEP_LO_DELTA : Fld := ⟨0x7020, 0, 32⟩
def Reg.TIME_STEP_LO : Nat := 0x7020
def Reg.TIME_STEP_HI_DELTA : Fld := ⟨0x7024, 0, 32⟩
def Reg.TIME_STEP_HI : Nat := 0x7024
def Reg.TIME_STEPC_MASTER : Fld := ⟨0x7028, 0, 1⟩
def Reg.TIME_STEPC : Nat := 0x7028
def Reg.TIME_JUMPLIM_LIM : Fld := ⟨0x702c, 0, 30⟩
def Reg.TIME_JUMPLIM : Nat := 0x702c
def Reg.TIME_PEND_LO_DELTA : Fld := ⟨0x7030, 0, 32⟩
def Reg.TIME_PEND_LO : Nat := 0x7030
def Reg.TIME_PEND_HI_DELTA : Fld := ⟨0x7034, 0, 32⟩
def Reg.TIME_PEND_HI : Nat := 0x7034
def Reg.TIME_REFNUM_NUM : Fld := ⟨0x7038, 0, 32⟩
def Reg.TIME_REFNUM : Nat := 0x7038
def Reg.TIME_REFCNT_COUNT : Fld := ⟨0x703c, 0, 32⟩
def Reg.TIME_REFCNT : Nat := 0x703c
def Reg.TIME_LAT_RX (n : Nat) : Fld := ⟨0x7100 + 0x4 * n, 0, 16⟩
def Reg.TIME_LAT_TX (n : Nat) : Fld := ⟨0x7100 + 0x4 * n, 16, 16⟩
def Reg.TIME_LAT (n : Nat) : Nat := 0x7100 + 0x4 * n
def Reg.CHN_CFG_EN : Fld := ⟨0x8000, 0, 1⟩
def Reg.CHN_CFG_PRIO : Fld := ⟨0x8000, 8, 6⟩
def Reg.CHN_CFG : Nat := 0x8000
def Reg.CHN_STAT_STATE : Fld := ⟨0x8004, 0, 3⟩
def Reg.CHN_STAT_MGR : Fld := ⟨0x8004, 3, 1⟩
def Reg.CHN_STAT_ID : Fld := ⟨0x8004, 4, 5⟩
def Reg.CHN_STAT_IDV : Fld := ⟨0x8004, 9, 1⟩
def Reg.CHN_STAT_NDEV : Fld := ⟨0x8004, 10, 6⟩
def Reg.CHN_STAT_DIAM : Fld := ⟨0x8004, 16, 4⟩
def Reg.CHN_STAT : Nat := 0x8004
def Reg.CHN_PRIO_STRAP : Fld := ⟨0x8008, 0, 2⟩
def Reg.CHN_PRIO_EFF : Fld := ⟨0x8008, 8, 8⟩
def Reg.CHN_PRIO : Nat := 0x8008
def Reg.CHN_VER_VER : Fld := ⟨0x800c, 0, 32⟩
def Reg.CHN_VER : Nat := 0x800c
def Reg.CHN_MGRUID_LO_UID : Fld := ⟨0x8010, 0, 32⟩
def Reg.CHN_MGRUID_LO : Nat := 0x8010
def Reg.CHN_MGRUID_HI_UID : Fld := ⟨0x8014, 0, 32⟩
def Reg.CHN_MGRUID_HI : Nat := 0x8014
def Reg.CHN_RTMO_US : Fld := ⟨0x8018, 0, 16⟩
def Reg.CHN_RTMO : Nat := 0x8018
def Reg.CHN_RTOCNT_COUNT : Fld := ⟨0x801c, 0, 32⟩
def Reg.CHN_RTOCNT : Nat := 0x801c
def Reg.CHN_L_CFG_EN (n : Nat) : Fld := ⟨0x8040 + 0x10 * n, 0, 1⟩
def Reg.CHN_L_CFG (n : Nat) : Nat := 0x8040 + 0x10 * n
def Reg.CHN_L_STAT_STATE (n : Nat) : Fld := ⟨0x8044 + 0x10 * n, 0, 2⟩
def Reg.CHN_L_STAT_LCHG (n : Nat) : Fld := ⟨0x8044 + 0x10 * n, 2, 1⟩
def Reg.CHN_L_STAT_PEERID (n : Nat) : Fld := ⟨0x8044 + 0x10 * n, 3, 5⟩
def Reg.CHN_L_STAT_PEERV (n : Nat) : Fld := ⟨0x8044 + 0x10 * n, 8, 1⟩
def Reg.CHN_L_STAT_PEERLINK (n : Nat) : Fld := ⟨0x8044 + 0x10 * n, 9, 2⟩
def Reg.CHN_L_STAT (n : Nat) : Nat := 0x8044 + 0x10 * n
def Reg.CHN_L_ERR_CRC (n : Nat) : Fld := ⟨0x8048 + 0x10 * n, 0, 16⟩
def Reg.CHN_L_ERR_LOCK (n : Nat) : Fld := ⟨0x8048 + 0x10 * n, 16, 16⟩
def Reg.CHN_L_ERR (n : Nat) : Nat := 0x8048 + 0x10 * n
def Reg.CHN_L_PEERUID_UID (n : Nat) : Fld := ⟨0x804c + 0x10 * n, 0, 32⟩
def Reg.CHN_L_PEERUID (n : Nat) : Nat := 0x804c + 0x10 * n
def Reg.CHN_RT_ENTRY0 (n : Nat) : Fld := ⟨0x8100 + 0x4 * n, 0, 8⟩
def Reg.CHN_RT_ENTRY1 (n : Nat) : Fld := ⟨0x8100 + 0x4 * n, 8, 8⟩
def Reg.CHN_RT_ENTRY2 (n : Nat) : Fld := ⟨0x8100 + 0x4 * n, 16, 8⟩
def Reg.CHN_RT_ENTRY3 (n : Nat) : Fld := ⟨0x8100 + 0x4 * n, 24, 8⟩
def Reg.CHN_RT (n : Nat) : Nat := 0x8100 + 0x4 * n
def Reg.CHN_DROP_HDR : Fld := ⟨0x8140, 0, 4⟩
def Reg.CHN_DROP_TTL : Fld := ⟨0x8140, 4, 4⟩
def Reg.CHN_DROP_NOROUTE : Fld := ⟨0x8140, 8, 4⟩
def Reg.CHN_DROP_STOMP : Fld := ⟨0x8140, 12, 4⟩
def Reg.CHN_DROP_LINK : Fld := ⟨0x8140, 16, 8⟩
def Reg.CHN_DROP_EV : Fld := ⟨0x8140, 24, 8⟩
def Reg.CHN_DROP : Nat := 0x8140
def Reg.CHN_RUNCTL_START : Fld := ⟨0x8800, 0, 1⟩
def Reg.CHN_RUNCTL_STOP : Fld := ⟨0x8800, 1, 1⟩
def Reg.CHN_RUNCTL_RUN : Fld := ⟨0x8800, 2, 1⟩
def Reg.CHN_RUNCTL : Nat := 0x8800
def Reg.CHN_SCFG_PREC : Fld := ⟨0x8804, 0, 8⟩
def Reg.CHN_SCFG_SLEWR : Fld := ⟨0x8804, 8, 8⟩
def Reg.CHN_SCFG_STEER : Fld := ⟨0x8804, 16, 1⟩
def Reg.CHN_SCFG : Nat := 0x8804
def Reg.CHN_ETCFG_ETLIM : Fld := ⟨0x8808, 0, 16⟩
def Reg.CHN_ETCFG_MGMTLIM : Fld := ⟨0x8808, 16, 16⟩
def Reg.CHN_ETCFG : Nat := 0x8808
def Reg.CHN_SSTAT_INTEG : Fld := ⟨0x880c, 0, 1⟩
def Reg.CHN_SSTAT_NVAL : Fld := ⟨0x880c, 1, 4⟩
def Reg.CHN_SSTAT_QUAR : Fld := ⟨0x880c, 5, 1⟩
def Reg.CHN_SSTAT_REINT : Fld := ⟨0x880c, 16, 16⟩
def Reg.CHN_SSTAT : Nat := 0x880c
def Reg.CHN_OFFS_A : Fld := ⟨0x8810, 0, 32⟩
def Reg.CHN_OFFS : Nat := 0x8810
def Reg.CHN_RATE_DADD : Fld := ⟨0x8814, 0, 16⟩
def Reg.CHN_RATE : Nat := 0x8814
def Reg.CHN_MCTL_MODE : Fld := ⟨0x8818, 0, 3⟩
def Reg.CHN_MCTL_GO : Fld := ⟨0x8818, 3, 1⟩
def Reg.CHN_MCTL : Nat := 0x8818
def Reg.CHN_MSTAT_ACTIVE : Fld := ⟨0x881c, 0, 3⟩
def Reg.CHN_MSTAT_PEND : Fld := ⟨0x881c, 4, 3⟩
def Reg.CHN_MSTAT_PV : Fld := ⟨0x881c, 7, 1⟩
def Reg.CHN_MSTAT_VOTING : Fld := ⟨0x881c, 8, 1⟩
def Reg.CHN_MSTAT_RESULT : Fld := ⟨0x881c, 9, 2⟩
def Reg.CHN_MSTAT_NODEV : Fld := ⟨0x881c, 11, 5⟩
def Reg.CHN_MSTAT_NOWHY : Fld := ⟨0x881c, 16, 3⟩
def Reg.CHN_MSTAT_WDRAW : Fld := ⟨0x881c, 19, 1⟩
def Reg.CHN_MSTAT_PNUM : Fld := ⟨0x881c, 24, 8⟩
def Reg.CHN_MSTAT : Nat := 0x881c
def Reg.CHN_MSWTICK_TICK : Fld := ⟨0x8820, 0, 32⟩
def Reg.CHN_MSWTICK : Nat := 0x8820
def Reg.CHN_TTSTAT_DROP : Fld := ⟨0x8824, 0, 16⟩
def Reg.CHN_TTSTAT_SLATE : Fld := ⟨0x8824, 16, 16⟩
def Reg.CHN_TTSTAT : Nat := 0x8824
def Reg.CHN_CFGHASH_LO_HASH : Fld := ⟨0x8828, 0, 32⟩
def Reg.CHN_CFGHASH_LO : Nat := 0x8828
def Reg.CHN_CFGHASH_HI_HASH : Fld := ⟨0x882c, 0, 32⟩
def Reg.CHN_CFGHASH_HI : Nat := 0x882c
def Reg.CHN_MHASH_LO_HASH (n : Nat) : Fld := ⟨0x8840 + 0x8 * n, 0, 32⟩
def Reg.CHN_MHASH_LO (n : Nat) : Nat := 0x8840 + 0x8 * n
def Reg.CHN_MHASH_HI_HASH (n : Nat) : Fld := ⟨0x8844 + 0x8 * n, 0, 32⟩
def Reg.CHN_MHASH_HI (n : Nat) : Nat := 0x8844 + 0x8 * n
def Reg.CHN_FIXS_OFF (n : Nat) : Fld := ⟨0x8880 + 0x4 * n, 0, 23⟩
def Reg.CHN_FIXS_DEV (n : Nat) : Fld := ⟨0x8880 + 0x4 * n, 23, 5⟩
def Reg.CHN_FIXS_CONTRIB (n : Nat) : Fld := ⟨0x8880 + 0x4 * n, 28, 1⟩
def Reg.CHN_FIXS_V (n : Nat) : Fld := ⟨0x8880 + 0x4 * n, 31, 1⟩
def Reg.CHN_FIXS (n : Nat) : Nat := 0x8880 + 0x4 * n
def Reg.CHN_SDEV_DEV (n : Nat) : Fld := ⟨0x88a0 + 0x4 * n, 0, 24⟩
def Reg.CHN_SDEV_V (n : Nat) : Fld := ⟨0x88a0 + 0x4 * n, 31, 1⟩
def Reg.CHN_SDEV (n : Nat) : Nat := 0x88a0 + 0x4 * n
def Reg.CHN_L_DLY_DLY (n : Nat) : Fld := ⟨0x8900 + 0x10 * n, 0, 16⟩
def Reg.CHN_L_DLY (n : Nat) : Nat := 0x8900 + 0x10 * n
def Reg.CHN_L_STRK_VOID (n : Nat) : Fld := ⟨0x8904 + 0x10 * n, 0, 1⟩
def Reg.CHN_L_STRK_VCODE (n : Nat) : Fld := ⟨0x8904 + 0x10 * n, 1, 4⟩
def Reg.CHN_L_STRK (n : Nat) : Nat := 0x8904 + 0x10 * n
def Reg.CHN_L_MISS_COUNT (n : Nat) : Fld := ⟨0x8908 + 0x10 * n, 0, 32⟩
def Reg.CHN_L_MISS (n : Nat) : Nat := 0x8908 + 0x10 * n
def Reg.SWG_STAT_CFGERR : Fld := ⟨0x9000, 0, 1⟩
def Reg.SWG_STAT_CFGCODE : Fld := ⟨0x9000, 1, 3⟩
def Reg.SWG_STAT_USED : Fld := ⟨0x9000, 8, 7⟩
def Reg.SWG_STAT : Nat := 0x9000
def Reg.SWG_n_CTRL_EN (n : Nat) : Fld := ⟨0x9100 + 0x80 * n, 0, 1⟩
def Reg.SWG_n_CTRL_AUTO (n : Nat) : Fld := ⟨0x9100 + 0x80 * n, 1, 1⟩
def Reg.SWG_n_CTRL_PGO (n : Nat) : Fld := ⟨0x9100 + 0x80 * n, 2, 1⟩
def Reg.SWG_n_CTRL (n : Nat) : Nat := 0x9100 + 0x80 * n
def Reg.SWG_n_CFG_DIR (n : Nat) : Fld := ⟨0x9104 + 0x80 * n, 0, 1⟩
def Reg.SWG_n_CFG_LEV3 (n : Nat) : Fld := ⟨0x9104 + 0x80 * n, 1, 1⟩
def Reg.SWG_n_CFG_NSAMP (n : Nat) : Fld := ⟨0x9104 + 0x80 * n, 2, 7⟩
def Reg.SWG_n_CFG_GRP (n : Nat) : Fld := ⟨0x9104 + 0x80 * n, 9, 3⟩
def Reg.SWG_n_CFG_OUT (n : Nat) : Fld := ⟨0x9104 + 0x80 * n, 12, 5⟩
def Reg.SWG_n_CFG (n : Nat) : Nat := 0x9104 + 0x80 * n
def Reg.SWG_n_SRC_FBSEL (n : Nat) : Fld := ⟨0x9108 + 0x80 * n, 0, 3⟩
def Reg.SWG_n_SRC_FBIDX (n : Nat) : Fld := ⟨0x9108 + 0x80 * n, 4, 4⟩
def Reg.SWG_n_SRC_SPSEL (n : Nat) : Fld := ⟨0x9108 + 0x80 * n, 8, 3⟩
def Reg.SWG_n_SRC_SPIDX (n : Nat) : Fld := ⟨0x9108 + 0x80 * n, 12, 4⟩
def Reg.SWG_n_SRC_SPFILT (n : Nat) : Fld := ⟨0x9108 + 0x80 * n, 16, 4⟩
def Reg.SWG_n_SRC (n : Nat) : Nat := 0x9108 + 0x80 * n
def Reg.SWG_n_FBSCL_GAIN (n : Nat) : Fld := ⟨0x910c + 0x80 * n, 0, 16⟩
def Reg.SWG_n_FBSCL_OFS (n : Nat) : Fld := ⟨0x910c + 0x80 * n, 16, 16⟩
def Reg.SWG_n_FBSCL (n : Nat) : Nat := 0x910c + 0x80 * n
def Reg.SWG_n_SPSCL_GAIN (n : Nat) : Fld := ⟨0x9110 + 0x80 * n, 0, 16⟩
def Reg.SWG_n_SPSCL_OFS (n : Nat) : Fld := ⟨0x9110 + 0x80 * n, 16, 16⟩
def Reg.SWG_n_SPSCL (n : Nat) : Nat := 0x9110 + 0x80 * n
def Reg.SWG_n_SP_SP (n : Nat) : Fld := ⟨0x9114 + 0x80 * n, 0, 32⟩
def Reg.SWG_n_SP (n : Nat) : Nat := 0x9114 + 0x80 * n
def Reg.SWG_n_BAND_H (n : Nat) : Fld := ⟨0x9118 + 0x80 * n, 0, 16⟩
def Reg.SWG_n_BAND_D (n : Nat) : Fld := ⟨0x9118 + 0x80 * n, 16, 16⟩
def Reg.SWG_n_BAND (n : Nat) : Nat := 0x9118 + 0x80 * n
def Reg.SWG_n_DWELL_DHI (n : Nat) : Fld := ⟨0x911c + 0x80 * n, 0, 16⟩
def Reg.SWG_n_DWELL_DLO (n : Nat) : Fld := ⟨0x911c + 0x80 * n, 16, 16⟩
def Reg.SWG_n_DWELL (n : Nat) : Nat := 0x911c + 0x80 * n
def Reg.SWG_n_TRIMCFG_KI (n : Nat) : Fld := ⟨0x9120 + 0x80 * n, 0, 16⟩
def Reg.SWG_n_TRIMCFG_TLIM (n : Nat) : Fld := ⟨0x9120 + 0x80 * n, 16, 16⟩
def Reg.SWG_n_TRIMCFG (n : Nat) : Nat := 0x9120 + 0x80 * n
def Reg.SWG_n_LVL_HI (n : Nat) : Fld := ⟨0x9124 + 0x80 * n, 0, 12⟩
def Reg.SWG_n_LVL_LO (n : Nat) : Fld := ⟨0x9124 + 0x80 * n, 16, 12⟩
def Reg.SWG_n_LVL (n : Nat) : Nat := 0x9124 + 0x80 * n
def Reg.SWG_n_MAN_MAN (n : Nat) : Fld := ⟨0x9128 + 0x80 * n, 0, 12⟩
def Reg.SWG_n_MAN_MID (n : Nat) : Fld := ⟨0x9128 + 0x80 * n, 16, 12⟩
def Reg.SWG_n_MAN (n : Nat) : Nat := 0x9128 + 0x80 * n
def Reg.SWG_n_OSC_WIN (n : Nat) : Fld := ⟨0x912c + 0x80 * n, 0, 12⟩
def Reg.SWG_n_OSC_NREV (n : Nat) : Fld := ⟨0x912c + 0x80 * n, 12, 6⟩
def Reg.SWG_n_OSC_ACT (n : Nat) : Fld := ⟨0x912c + 0x80 * n, 18, 2⟩
def Reg.SWG_n_OSC (n : Nat) : Nat := 0x912c + 0x80 * n
def Reg.SWG_n_VMAX_LIM (n : Nat) : Fld := ⟨0x9130 + 0x80 * n, 0, 32⟩
def Reg.SWG_n_VMAX (n : Nat) : Nat := 0x9130 + 0x80 * n
def Reg.SWG_n_AMAX_LIM (n : Nat) : Fld := ⟨0x9134 + 0x80 * n, 0, 32⟩
def Reg.SWG_n_AMAX (n : Nat) : Nat := 0x9134 + 0x80 * n
def Reg.SWG_n_JMAX_LIM (n : Nat) : Fld := ⟨0x9138 + 0x80 * n, 0, 32⟩
def Reg.SWG_n_JMAX (n : Nat) : Nat := 0x9138 + 0x80 * n
def Reg.SWG_n_PTGT_TGT (n : Nat) : Fld := ⟨0x913c + 0x80 * n, 0, 32⟩
def Reg.SWG_n_PTGT (n : Nat) : Nat := 0x913c + 0x80 * n
def Reg.SWG_n_STAT_STATE (n : Nat) : Fld := ⟨0x9140 + 0x80 * n, 0, 2⟩
def Reg.SWG_n_STAT_LOSER (n : Nat) : Fld := ⟨0x9140 + 0x80 * n, 2, 1⟩
def Reg.SWG_n_STAT_OSCHIT (n : Nat) : Fld := ⟨0x9140 + 0x80 * n, 3, 1⟩
def Reg.SWG_n_STAT_RATEERR (n : Nat) : Fld := ⟨0x9140 + 0x80 * n, 4, 1⟩
def Reg.SWG_n_STAT_BLOCKED (n : Nat) : Fld := ⟨0x9140 + 0x80 * n, 5, 1⟩
def Reg.SWG_n_STAT_PHASE (n : Nat) : Fld := ⟨0x9140 + 0x80 * n, 6, 3⟩
def Reg.SWG_n_STAT_PDONE (n : Nat) : Fld := ⟨0x9140 + 0x80 * n, 9, 1⟩
def Reg.SWG_n_STAT_EH (n : Nat) : Fld := ⟨0x9140 + 0x80 * n, 16, 16⟩
def Reg.SWG_n_STAT (n : Nat) : Nat := 0x9140 + 0x80 * n
def Reg.SWG_n_Y_VAL (n : Nat) : Fld := ⟨0x9144 + 0x80 * n, 0, 32⟩
def Reg.SWG_n_Y (n : Nat) : Nat := 0x9144 + 0x80 * n
def Reg.SWG_n_SPV_VAL (n : Nat) : Fld := ⟨0x9148 + 0x80 * n, 0, 32⟩
def Reg.SWG_n_SPV (n : Nat) : Nat := 0x9148 + 0x80 * n
def Reg.SWG_n_TRIM_VAL (n : Nat) : Fld := ⟨0x914c + 0x80 * n, 0, 32⟩
def Reg.SWG_n_TRIM (n : Nat) : Nat := 0x914c + 0x80 * n
def Reg.SWG_n_OUTV_U (n : Nat) : Fld := ⟨0x9150 + 0x80 * n, 0, 12⟩
def Reg.SWG_n_OUTV (n : Nat) : Nat := 0x9150 + 0x80 * n
def Reg.LSW_GSTAT_UV : Fld := ⟨0xa000, 0, 1⟩
def Reg.LSW_GSTAT_OV : Fld := ⟨0xa000, 1, 1⟩
def Reg.LSW_GSTAT_UVEV : Fld := ⟨0xa000, 2, 1⟩
def Reg.LSW_GSTAT_OVEV : Fld := ⟨0xa000, 3, 1⟩
def Reg.LSW_GSTAT : Nat := 0xa000
def Reg.LSW_VSUP_MV : Fld := ⟨0xa004, 0, 16⟩
def Reg.LSW_VSUP : Nat := 0xa004
def Reg.LSW_ADCCTL_EN : Fld := ⟨0xa008, 0, 8⟩
def Reg.LSW_ADCCTL : Nat := 0xa008
def Reg.LSW_CH_CFG_ILIM (n : Nat) : Fld := ⟨0xa100 + 0x20 * n, 0, 4⟩
def Reg.LSW_CH_CFG_IOL (n : Nat) : Fld := ⟨0xa100 + 0x20 * n, 4, 6⟩
def Reg.LSW_CH_CFG_SAFE (n : Nat) : Fld := ⟨0xa100 + 0x20 * n, 10, 2⟩
def Reg.LSW_CH_CFG_OLEN (n : Nat) : Fld := ⟨0xa100 + 0x20 * n, 12, 1⟩
def Reg.LSW_CH_CFG (n : Nat) : Nat := 0xa100 + 0x20 * n
def Reg.LSW_CH_CMD_MODE (n : Nat) : Fld := ⟨0xa104 + 0x20 * n, 0, 2⟩
def Reg.LSW_CH_CMD_DUTY (n : Nat) : Fld := ⟨0xa104 + 0x20 * n, 16, 11⟩
def Reg.LSW_CH_CMD (n : Nat) : Nat := 0xa104 + 0x20 * n
def Reg.LSW_CH_PWM_PERIOD (n : Nat) : Fld := ⟨0xa108 + 0x20 * n, 0, 21⟩
def Reg.LSW_CH_PWM (n : Nat) : Nat := 0xa108 + 0x20 * n
def Reg.LSW_CH_STAT_OCL (n : Nat) : Fld := ⟨0xa10c + 0x20 * n, 0, 1⟩
def Reg.LSW_CH_STAT_OTL (n : Nat) : Fld := ⟨0xa10c + 0x20 * n, 1, 1⟩
def Reg.LSW_CH_STAT_OPEN (n : Nat) : Fld := ⟨0xa10c + 0x20 * n, 2, 1⟩
def Reg.LSW_CH_STAT_SHOOT (n : Nat) : Fld := ⟨0xa10c + 0x20 * n, 3, 1⟩
def Reg.LSW_CH_STAT_ON (n : Nat) : Fld := ⟨0xa10c + 0x20 * n, 4, 1⟩
def Reg.LSW_CH_STAT_SRC (n : Nat) : Fld := ⟨0xa10c + 0x20 * n, 5, 2⟩
def Reg.LSW_CH_STAT (n : Nat) : Nat := 0xa10c + 0x20 * n
def Reg.LSW_CH_CLR_OCL (n : Nat) : Fld := ⟨0xa110 + 0x20 * n, 0, 1⟩
def Reg.LSW_CH_CLR_OTL (n : Nat) : Fld := ⟨0xa110 + 0x20 * n, 1, 1⟩
def Reg.LSW_CH_CLR (n : Nat) : Nat := 0xa110 + 0x20 * n
def Reg.LSW_CH_CUR_NOW (n : Nat) : Fld := ⟨0xa114 + 0x20 * n, 0, 16⟩
def Reg.LSW_CH_CUR_TICK (n : Nat) : Fld := ⟨0xa114 + 0x20 * n, 16, 16⟩
def Reg.LSW_CH_CUR (n : Nat) : Nat := 0xa114 + 0x20 * n
def Reg.LSW_CH_CNT_OC (n : Nat) : Fld := ⟨0xa118 + 0x20 * n, 0, 8⟩
def Reg.LSW_CH_CNT_OT (n : Nat) : Fld := ⟨0xa118 + 0x20 * n, 8, 8⟩
def Reg.LSW_CH_CNT_OL (n : Nat) : Fld := ⟨0xa118 + 0x20 * n, 16, 8⟩
def Reg.LSW_CH_CNT (n : Nat) : Nat := 0xa118 + 0x20 * n
def Reg.LSW_HB_CFG_EN (n : Nat) : Fld := ⟨0xa300 + 0x10 * n, 0, 1⟩
def Reg.LSW_HB_CFG_DT (n : Nat) : Fld := ⟨0xa300 + 0x10 * n, 1, 8⟩
def Reg.LSW_HB_CFG (n : Nat) : Nat := 0xa300 + 0x10 * n
def Reg.LSW_HB_STAT_SIDE (n : Nat) : Fld := ⟨0xa304 + 0x10 * n, 0, 2⟩
def Reg.LSW_HB_STAT_DTACT (n : Nat) : Fld := ⟨0xa304 + 0x10 * n, 2, 1⟩
def Reg.LSW_HB_STAT (n : Nat) : Nat := 0xa304 + 0x10 * n
def Reg.LSW_AIN_CFG_MODE (n : Nat) : Fld := ⟨0xa400 + 0x20 * n, 0, 1⟩
def Reg.LSW_AIN_CFG_WACT (n : Nat) : Fld := ⟨0xa400 + 0x20 * n, 1, 2⟩
def Reg.LSW_AIN_CFG_WCNT (n : Nat) : Fld := ⟨0xa400 + 0x20 * n, 4, 4⟩
def Reg.LSW_AIN_CFG (n : Nat) : Nat := 0xa400 + 0x20 * n
def Reg.LSW_AIN_DATA_CODE (n : Nat) : Fld := ⟨0xa404 + 0x20 * n, 0, 12⟩
def Reg.LSW_AIN_DATA_LATCH (n : Nat) : Fld := ⟨0xa404 + 0x20 * n, 16, 12⟩
def Reg.LSW_AIN_DATA (n : Nat) : Nat := 0xa404 + 0x20 * n
def Reg.LSW_AIN_WIN_LO (n : Nat) : Fld := ⟨0xa408 + 0x20 * n, 0, 12⟩
def Reg.LSW_AIN_WIN_HI (n : Nat) : Fld := ⟨0xa408 + 0x20 * n, 16, 12⟩
def Reg.LSW_AIN_WIN (n : Nat) : Nat := 0xa408 + 0x20 * n
def Reg.LSW_AIN_STAT_WIN (n : Nat) : Fld := ⟨0xa40c + 0x20 * n, 0, 1⟩
def Reg.LSW_AIN_STAT_BELOW (n : Nat) : Fld := ⟨0xa40c + 0x20 * n, 1, 1⟩
def Reg.LSW_AIN_STAT_ABOVE (n : Nat) : Fld := ⟨0xa40c + 0x20 * n, 2, 1⟩
def Reg.LSW_AIN_STAT_OVR (n : Nat) : Fld := ⟨0xa40c + 0x20 * n, 3, 1⟩
def Reg.LSW_AIN_STAT_SHUNT (n : Nat) : Fld := ⟨0xa40c + 0x20 * n, 4, 1⟩
def Reg.LSW_AIN_STAT_SHUNTEV (n : Nat) : Fld := ⟨0xa40c + 0x20 * n, 5, 1⟩
def Reg.LSW_AIN_STAT (n : Nat) : Nat := 0xa40c + 0x20 * n
def Reg.TNG_PIO_IN_LVL : Fld := ⟨0xb000, 0, 32⟩
def Reg.TNG_PIO_IN : Nat := 0xb000
def Reg.TNG_PIO_FSEL_FSEL0 (n : Nat) : Fld := ⟨0xb020 + 0x4 * n, 0, 5⟩
def Reg.TNG_PIO_FSEL_FSEL1 (n : Nat) : Fld := ⟨0xb020 + 0x4 * n, 8, 5⟩
def Reg.TNG_PIO_FSEL_FSEL2 (n : Nat) : Fld := ⟨0xb020 + 0x4 * n, 16, 5⟩
def Reg.TNG_PIO_FSEL_FSEL3 (n : Nat) : Fld := ⟨0xb020 + 0x4 * n, 24, 5⟩
def Reg.TNG_PIO_FSEL (n : Nat) : Nat := 0xb020 + 0x4 * n
def Reg.TNG_PEND_CFG_EN : Fld := ⟨0xb040, 0, 1⟩
def Reg.TNG_PEND_CFG_TM : Fld := ⟨0xb040, 1, 3⟩
def Reg.TNG_PEND_CFG_HDR : Fld := ⟨0xb040, 4, 8⟩
def Reg.TNG_PEND_CFG_END : Fld := ⟨0xb040, 12, 8⟩
def Reg.TNG_PEND_CFG_SPLIT : Fld := ⟨0xb040, 20, 12⟩
def Reg.TNG_PEND_CFG : Nat := 0xb040
def Reg.TNG_PEND_STAT_FLOOD : Fld := ⟨0xb044, 0, 1⟩
def Reg.TNG_PEND_STAT_FROZEN : Fld := ⟨0xb044, 1, 1⟩
def Reg.TNG_PEND_STAT_CODE : Fld := ⟨0xb044, 2, 1⟩
def Reg.TNG_PEND_STAT_CFGERR : Fld := ⟨0xb044, 3, 1⟩
def Reg.TNG_PEND_STAT_BAD : Fld := ⟨0xb044, 16, 16⟩
def Reg.TNG_PEND_STAT : Nat := 0xb044
def Reg.TNG_CTRL_RUN (n : Nat) : Fld := ⟨0xb100 + 0x20 * n, 0, 1⟩
def Reg.TNG_CTRL_RESTART (n : Nat) : Fld := ⟨0xb100 + 0x20 * n, 1, 1⟩
def Reg.TNG_CTRL (n : Nat) : Nat := 0xb100 + 0x20 * n
def Reg.TNG_CFG_PINBASE (n : Nat) : Fld := ⟨0xb104 + 0x20 * n, 0, 5⟩
def Reg.TNG_CFG_SHDIR (n : Nat) : Fld := ⟨0xb104 + 0x20 * n, 5, 1⟩
def Reg.TNG_CFG_SHLEN (n : Nat) : Fld := ⟨0xb104 + 0x20 * n, 8, 6⟩
def Reg.TNG_CFG (n : Nat) : Nat := 0xb104 + 0x20 * n
def Reg.TNG_DIV_FRAC (n : Nat) : Fld := ⟨0xb108 + 0x20 * n, 0, 8⟩
def Reg.TNG_DIV_INT (n : Nat) : Fld := ⟨0xb108 + 0x20 * n, 8, 16⟩
def Reg.TNG_DIV (n : Nat) : Nat := 0xb108 + 0x20 * n
def Reg.TNG_STAT_PC (n : Nat) : Fld := ⟨0xb10c + 0x20 * n, 0, 6⟩
def Reg.TNG_STAT_WAIT (n : Nat) : Fld := ⟨0xb10c + 0x20 * n, 6, 1⟩
def Reg.TNG_STAT_ILL (n : Nat) : Fld := ⟨0xb10c + 0x20 * n, 7, 1⟩
def Reg.TNG_STAT_STALE (n : Nat) : Fld := ⟨0xb10c + 0x20 * n, 8, 1⟩
def Reg.TNG_STAT_TXOVF (n : Nat) : Fld := ⟨0xb10c + 0x20 * n, 9, 1⟩
def Reg.TNG_STAT_RXUNF (n : Nat) : Fld := ⟨0xb10c + 0x20 * n, 10, 1⟩
def Reg.TNG_STAT_EVT (n : Nat) : Fld := ⟨0xb10c + 0x20 * n, 11, 1⟩
def Reg.TNG_STAT_TXLVL (n : Nat) : Fld := ⟨0xb10c + 0x20 * n, 12, 4⟩
def Reg.TNG_STAT_RXLVL (n : Nat) : Fld := ⟨0xb10c + 0x20 * n, 16, 4⟩
def Reg.TNG_STAT (n : Nat) : Nat := 0xb10c + 0x20 * n
def Reg.TNG_TXF_WORD (n : Nat) : Fld := ⟨0xb110 + 0x20 * n, 0, 32⟩
def Reg.TNG_TXF (n : Nat) : Nat := 0xb110 + 0x20 * n
def Reg.TNG_RXF_WORD (n : Nat) : Fld := ⟨0xb114 + 0x20 * n, 0, 32⟩
def Reg.TNG_RXF (n : Nat) : Nat := 0xb114 + 0x20 * n
def Reg.TNG_DROP_COUNT (n : Nat) : Fld := ⟨0xb118 + 0x20 * n, 0, 16⟩
def Reg.TNG_DROP (n : Nat) : Nat := 0xb118 + 0x20 * n
def Reg.TNG_EVCNT_EVMASK (n : Nat) : Fld := ⟨0xb11c + 0x20 * n, 0, 16⟩
def Reg.TNG_EVCNT_COUNT (n : Nat) : Fld := ⟨0xb11c + 0x20 * n, 16, 16⟩
def Reg.TNG_EVCNT (n : Nat) : Nat := 0xb11c + 0x20 * n
def Reg.TNG_PROG_I0 (n m : Nat) : Fld := ⟨0xb400 + 0x80 * n + 0x4 * m, 0, 16⟩
def Reg.TNG_PROG_I1 (n m : Nat) : Fld := ⟨0xb400 + 0x80 * n + 0x4 * m, 16, 16⟩
def Reg.TNG_PROG (n m : Nat) : Nat := 0xb400 + 0x80 * n + 0x4 * m
def Reg.TMR_CTRL_RUN (n : Nat) : Fld := ⟨0xb800 + 0x80 * n, 0, 1⟩
def Reg.TMR_CTRL_SWCAP (n : Nat) : Fld := ⟨0xb800 + 0x80 * n, 1, 4⟩
def Reg.TMR_CTRL (n : Nat) : Nat := 0xb800 + 0x80 * n
def Reg.TMR_CFG_MODE (n : Nat) : Fld := ⟨0xb804 + 0x80 * n, 0, 1⟩
def Reg.TMR_CFG_CATCHUP (n : Nat) : Fld := ⟨0xb804 + 0x80 * n, 1, 1⟩
def Reg.TMR_CFG_OINIT (n : Nat) : Fld := ⟨0xb804 + 0x80 * n, 2, 1⟩
def Reg.TMR_CFG_CSRC (n : Nat) : Fld := ⟨0xb804 + 0x80 * n, 3, 1⟩
def Reg.TMR_CFG_CPIN (n : Nat) : Fld := ⟨0xb804 + 0x80 * n, 4, 5⟩
def Reg.TMR_CFG_PRESC (n : Nat) : Fld := ⟨0xb804 + 0x80 * n, 16, 8⟩
def Reg.TMR_CFG (n : Nat) : Nat := 0xb804 + 0x80 * n
def Reg.TMR_STAT_RUNRD (n : Nat) : Fld := ⟨0xb808 + 0x80 * n, 0, 1⟩
def Reg.TMR_STAT_WRAP (n : Nat) : Fld := ⟨0xb808 + 0x80 * n, 1, 1⟩
def Reg.TMR_STAT_CATCH (n : Nat) : Fld := ⟨0xb808 + 0x80 * n, 2, 1⟩
def Reg.TMR_STAT_OUT (n : Nat) : Fld := ⟨0xb808 + 0x80 * n, 3, 1⟩
def Reg.TMR_STAT_CMPF (n : Nat) : Fld := ⟨0xb808 + 0x80 * n, 4, 4⟩
def Reg.TMR_STAT (n : Nat) : Nat := 0xb808 + 0x80 * n
def Reg.TMR_CAPCFG_SRC0 (n : Nat) : Fld := ⟨0xb80c + 0x80 * n, 0, 3⟩
def Reg.TMR_CAPCFG_SRC1 (n : Nat) : Fld := ⟨0xb80c + 0x80 * n, 8, 3⟩
def Reg.TMR_CAPCFG_SRC2 (n : Nat) : Fld := ⟨0xb80c + 0x80 * n, 16, 3⟩
def Reg.TMR_CAPCFG_SRC3 (n : Nat) : Fld := ⟨0xb80c + 0x80 * n, 24, 3⟩
def Reg.TMR_CAPCFG_IDX0 (n : Nat) : Fld := ⟨0xb80c + 0x80 * n, 3, 5⟩
def Reg.TMR_CAPCFG_IDX1 (n : Nat) : Fld := ⟨0xb80c + 0x80 * n, 11, 5⟩
def Reg.TMR_CAPCFG_IDX2 (n : Nat) : Fld := ⟨0xb80c + 0x80 * n, 19, 5⟩
def Reg.TMR_CAPCFG_IDX3 (n : Nat) : Fld := ⟨0xb80c + 0x80 * n, 27, 5⟩
def Reg.TMR_CAPCFG (n : Nat) : Nat := 0xb80c + 0x80 * n
def Reg.TMR_EVCFG_ACT (n : Nat) : Fld := ⟨0xb810 + 0x80 * n, 0, 8⟩
def Reg.TMR_EVCFG_CMPIEN (n : Nat) : Fld := ⟨0xb810 + 0x80 * n, 8, 4⟩
def Reg.TMR_EVCFG_CAPIEN (n : Nat) : Fld := ⟨0xb810 + 0x80 * n, 12, 4⟩
def Reg.TMR_EVCFG (n : Nat) : Nat := 0xb810 + 0x80 * n
def Reg.TMR_CNT_LO_CNT (n : Nat) : Fld := ⟨0xb818 + 0x80 * n, 0, 32⟩
def Reg.TMR_CNT_LO (n : Nat) : Nat := 0xb818 + 0x80 * n
def Reg.TMR_CNT_HI_CNT (n : Nat) : Fld := ⟨0xb81c + 0x80 * n, 0, 16⟩
def Reg.TMR_CNT_HI (n : Nat) : Nat := 0xb81c + 0x80 * n
def Reg.TMR_CAP_LO_VAL (n m : Nat) : Fld := ⟨0xb820 + 0x80 * n + 0x8 * m, 0, 32⟩
def Reg.TMR_CAP_LO (n m : Nat) : Nat := 0xb820 + 0x80 * n + 0x8 * m
def Reg.TMR_CAP_HI_VAL (n m : Nat) : Fld := ⟨0xb824 + 0x80 * n + 0x8 * m, 0, 16⟩
def Reg.TMR_CAP_HI_FRESH (n m : Nat) : Fld := ⟨0xb824 + 0x80 * n + 0x8 * m, 16, 1⟩
def Reg.TMR_CAP_HI_OVERCAP (n m : Nat) : Fld := ⟨0xb824 + 0x80 * n + 0x8 * m, 17, 1⟩
def Reg.TMR_CAP_HI (n m : Nat) : Nat := 0xb824 + 0x80 * n + 0x8 * m
def Reg.TMR_CMP_LO_VAL (n m : Nat) : Fld := ⟨0xb840 + 0x80 * n + 0x8 * m, 0, 32⟩
def Reg.TMR_CMP_LO (n m : Nat) : Nat := 0xb840 + 0x80 * n + 0x8 * m
def Reg.TMR_CMP_HI_VAL (n m : Nat) : Fld := ⟨0xb844 + 0x80 * n + 0x8 * m, 0, 16⟩
def Reg.TMR_CMP_HI (n m : Nat) : Nat := 0xb844 + 0x80 * n + 0x8 * m
def Reg.ING_CTRL_AUTOSUSP : Fld := ⟨0xc000, 0, 1⟩
def Reg.ING_CTRL_SUSP : Fld := ⟨0xc000, 1, 1⟩
def Reg.ING_CTRL_RESUME : Fld := ⟨0xc000, 2, 1⟩
def Reg.ING_CTRL : Nat := 0xc000
def Reg.ING_STAT_BUSY : Fld := ⟨0xc004, 0, 1⟩
def Reg.ING_STAT_OP : Fld := ⟨0xc004, 1, 2⟩
def Reg.ING_STAT_SUSPD : Fld := ⟨0xc004, 3, 1⟩
def Reg.ING_STAT_RDERR : Fld := ⟨0xc004, 4, 1⟩
def Reg.ING_STAT_PROT : Fld := ⟨0xc004, 5, 1⟩
def Reg.ING_STAT_TORNW : Fld := ⟨0xc004, 6, 1⟩
def Reg.ING_STAT : Nat := 0xc004
def Reg.ING_CMD_INDEX : Fld := ⟨0xc008, 0, 15⟩
def Reg.ING_CMD_OP : Fld := ⟨0xc008, 16, 2⟩
def Reg.ING_CMD_GO : Fld := ⟨0xc008, 31, 1⟩
def Reg.ING_CMD : Nat := 0xc008
def Reg.ING_CMDSTAT_RESULT : Fld := ⟨0xc00c, 0, 2⟩
def Reg.ING_CMDSTAT_CODE : Fld := ⟨0xc00c, 8, 3⟩
def Reg.ING_CMDSTAT : Nat := 0xc00c
def Reg.ING_RDERRADDR_ADDR : Fld := ⟨0xc010, 0, 32⟩
def Reg.ING_RDERRADDR : Nat := 0xc010
def Reg.ING_ECC_CORR : Fld := ⟨0xc014, 0, 16⟩
def Reg.ING_ECC_UNC : Fld := ⟨0xc014, 16, 16⟩
def Reg.ING_ECC : Nat := 0xc014
def Reg.ING_ESECT_SECTOR : Fld := ⟨0xc018, 0, 7⟩
def Reg.ING_ESECT : Nat := 0xc018
def Reg.ING_WP_WP (n : Nat) : Fld := ⟨0xc020 + 0x4 * n, 0, 32⟩
def Reg.ING_WP (n : Nat) : Nat := 0xc020 + 0x4 * n
def Reg.ING_SSTAT_STATE (n : Nat) : Fld := ⟨0xc040 + 0x4 * n, 0, 32⟩
def Reg.ING_SSTAT (n : Nat) : Nat := 0xc040 + 0x4 * n
def Reg.ING_BUF_DATA (n : Nat) : Fld := ⟨0xc400 + 0x4 * n, 0, 32⟩
def Reg.ING_BUF (n : Nat) : Nat := 0xc400 + 0x4 * n
def Reg.TMP_BLWCFG_MODE : Fld := ⟨0xd000, 0, 1⟩
def Reg.TMP_BLWCFG_RUNG : Fld := ⟨0xd000, 1, 4⟩
def Reg.TMP_BLWCFG_UTIL : Fld := ⟨0xd000, 5, 7⟩
def Reg.TMP_BLWCFG_FLOORQ : Fld := ⟨0xd000, 12, 1⟩
def Reg.TMP_BLWCFG : Nat := 0xd000
def Reg.TMP_BLWSTAT_RUNG : Fld := ⟨0xd004, 0, 4⟩
def Reg.TMP_BLWSTAT_VCODE : Fld := ⟨0xd004, 4, 6⟩
def Reg.TMP_BLWSTAT_STATE : Fld := ⟨0xd004, 10, 2⟩
def Reg.TMP_BLWSTAT_EMEV : Fld := ⟨0xd004, 12, 1⟩
def Reg.TMP_BLWSTAT_FLOORFAIL : Fld := ⟨0xd004, 13, 1⟩
def Reg.TMP_BLWSTAT_AVSERR : Fld := ⟨0xd004, 14, 1⟩
def Reg.TMP_BLWSTAT : Nat := 0xd004
def Reg.TMP_BLWTHR_SLACKLO : Fld := ⟨0xd008, 0, 8⟩
def Reg.TMP_BLWTHR_SLACKHI : Fld := ⟨0xd008, 8, 8⟩
def Reg.TMP_BLWTHR_TLIM : Fld := ⟨0xd008, 16, 8⟩
def Reg.TMP_BLWTHR_TCAP : Fld := ⟨0xd008, 24, 4⟩
def Reg.TMP_BLWTHR : Nat := 0xd008
def Reg.TMP_TEMP_VAL : Fld := ⟨0xd00c, 0, 16⟩
def Reg.TMP_TEMP : Nat := 0xd00c
def Reg.TMP_SLACK_VAL : Fld := ⟨0xd010, 0, 16⟩
def Reg.TMP_SLACK : Nat := 0xd010
def Reg.TMP_LAD_MHZ (n : Nat) : Fld := ⟨0xd040 + 0x4 * n, 0, 10⟩
def Reg.TMP_LAD_VSTART (n : Nat) : Fld := ⟨0xd040 + 0x4 * n, 10, 6⟩
def Reg.TMP_LAD (n : Nat) : Nat := 0xd040 + 0x4 * n
def Reg.TMP_EQ_CFG_FREEZE (n : Nat) : Fld := ⟨0xd100 + 0x10 * n, 0, 1⟩
def Reg.TMP_EQ_CFG_LOAD (n : Nat) : Fld := ⟨0xd100 + 0x10 * n, 1, 1⟩
def Reg.TMP_EQ_CFG_MARGMIN (n : Nat) : Fld := ⟨0xd100 + 0x10 * n, 8, 8⟩
def Reg.TMP_EQ_CFG (n : Nat) : Nat := 0xd100 + 0x10 * n
def Reg.TMP_EQ_CODE_CTLE (n : Nat) : Fld := ⟨0xd104 + 0x10 * n, 0, 4⟩
def Reg.TMP_EQ_CODE_TAP0 (n : Nat) : Fld := ⟨0xd104 + 0x10 * n, 4, 6⟩
def Reg.TMP_EQ_CODE_TAP1 (n : Nat) : Fld := ⟨0xd104 + 0x10 * n, 10, 6⟩
def Reg.TMP_EQ_CODE_TAP2 (n : Nat) : Fld := ⟨0xd104 + 0x10 * n, 16, 6⟩
def Reg.TMP_EQ_CODE_TAP3 (n : Nat) : Fld := ⟨0xd104 + 0x10 * n, 22, 6⟩
def Reg.TMP_EQ_CODE (n : Nat) : Nat := 0xd104 + 0x10 * n
def Reg.TMP_EQ_EYE_EYEH (n : Nat) : Fld := ⟨0xd108 + 0x10 * n, 0, 10⟩
def Reg.TMP_EQ_EYE_EYEW (n : Nat) : Fld := ⟨0xd108 + 0x10 * n, 10, 6⟩
def Reg.TMP_EQ_EYE_LOW (n : Nat) : Fld := ⟨0xd108 + 0x10 * n, 16, 1⟩
def Reg.TMP_EQ_EYE (n : Nat) : Nat := 0xd108 + 0x10 * n
def Reg.TMP_EQ_TAP4_TAP4 (n : Nat) : Fld := ⟨0xd10c + 0x10 * n, 0, 6⟩
def Reg.TMP_EQ_TAP4 (n : Nat) : Nat := 0xd10c + 0x10 * n
def Reg.TMP_THRCTL_FPFRZ : Fld := ⟨0xd200, 0, 4⟩
def Reg.TMP_THRCTL_AINFRZ : Fld := ⟨0xd200, 4, 8⟩
def Reg.TMP_THRCTL_PENDFRZ : Fld := ⟨0xd200, 12, 1⟩
def Reg.TMP_THRCTL : Nat := 0xd200
def Reg.TMP_THRVAL_PEND : Fld := ⟨0xd204, 0, 12⟩
def Reg.TMP_THRVAL_AINSEL : Fld := ⟨0xd204, 16, 5⟩
def Reg.TMP_THRVAL_TRIM : Fld := ⟨0xd204, 21, 5⟩
def Reg.TMP_THRVAL : Nat := 0xd204
def Reg.TMP_PLCCTL_PIN : Fld := ⟨0xd300, 0, 16⟩
def Reg.TMP_PLCCTL_EN : Fld := ⟨0xd300, 16, 1⟩
def Reg.TMP_PLCCTL_HYST : Fld := ⟨0xd300, 17, 7⟩
def Reg.TMP_PLCCTL : Nat := 0xd300
def Reg.TMP_PLCSTAT_FROM : Fld := ⟨0xd304, 0, 4⟩
def Reg.TMP_PLCSTAT_TO : Fld := ⟨0xd304, 4, 4⟩
def Reg.TMP_PLCSTAT_SLOT : Fld := ⟨0xd304, 8, 5⟩
def Reg.TMP_PLCSTAT_MOVES : Fld := ⟨0xd304, 16, 16⟩
def Reg.TMP_PLCSTAT : Nat := 0xd304
def Reg.TMP_SUBCTL_ENGINE : Fld := ⟨0xd400, 0, 4⟩
def Reg.TMP_SUBCTL_GO : Fld := ⟨0xd400, 4, 1⟩
def Reg.TMP_SUBCTL_AUTO : Fld := ⟨0xd400, 5, 1⟩
def Reg.TMP_SUBCTL_THR : Fld := ⟨0xd400, 16, 16⟩
def Reg.TMP_SUBCTL : Nat := 0xd400
def Reg.TMP_SUBSTAT_STATE : Fld := ⟨0xd404, 0, 3⟩
def Reg.TMP_SUBSTAT_ENGINE : Fld := ⟨0xd404, 3, 4⟩
def Reg.TMP_SUBSTAT_SPARE : Fld := ⟨0xd404, 7, 5⟩
def Reg.TMP_SUBSTAT_DONE : Fld := ⟨0xd404, 12, 1⟩
def Reg.TMP_SUBSTAT_FAIL : Fld := ⟨0xd404, 13, 1⟩
def Reg.TMP_SUBSTAT_NOSPARE : Fld := ⟨0xd404, 14, 1⟩
def Reg.TMP_SUBSTAT_RETRY : Fld := ⟨0xd404, 24, 8⟩
def Reg.TMP_SUBSTAT : Nat := 0xd404
def Reg.TMP_REPSTAT_COUNT : Fld := ⟨0xd500, 0, 8⟩
def Reg.TMP_REPSTAT_VALID : Fld := ⟨0xd500, 8, 1⟩
def Reg.TMP_REPSTAT_UNREP : Fld := ⟨0xd500, 9, 1⟩
def Reg.TMP_REPSTAT_WERR : Fld := ⟨0xd500, 10, 1⟩
def Reg.TMP_REPSTAT_FULL : Fld := ⟨0xd500, 11, 1⟩
def Reg.TMP_REPSTAT_NEWREP : Fld := ⟨0xd500, 12, 4⟩
def Reg.TMP_REPSTAT_GEN : Fld := ⟨0xd500, 16, 16⟩
def Reg.TMP_REPSTAT : Nat := 0xd500
def Reg.TMP_SPARES_SPA : Fld := ⟨0xd504, 0, 5⟩
def Reg.TMP_SPARES_SPB : Fld := ⟨0xd504, 5, 5⟩
def Reg.TMP_SPARES_BANK32 : Fld := ⟨0xd504, 10, 6⟩
def Reg.TMP_SPARES_BANK33 : Fld := ⟨0xd504, 16, 6⟩
def Reg.TMP_SPARES : Nat := 0xd504
def Reg.PWR_STAT_STATE : Fld := ⟨0xe000, 0, 2⟩
def Reg.PWR_STAT_READY : Fld := ⟨0xe000, 2, 1⟩
def Reg.PWR_STAT_REQERR : Fld := ⟨0xe000, 3, 1⟩
def Reg.PWR_STAT_WDTWARN : Fld := ⟨0xe000, 4, 1⟩
def Reg.PWR_STAT_LAST : Fld := ⟨0xe000, 5, 2⟩
def Reg.PWR_STAT : Nat := 0xe000
def Reg.PWR_CTRL_FORCE : Fld := ⟨0xe004, 0, 2⟩
def Reg.PWR_CTRL : Nat := 0xe004
def Reg.PWR_PLANCFG_MAXST : Fld := ⟨0xe008, 0, 2⟩
def Reg.PWR_PLANCFG_MARGIN : Fld := ⟨0xe008, 8, 8⟩
def Reg.PWR_PLANCFG : Nat := 0xe008
def Reg.PWR_STRIKEMAX_MAX : Fld := ⟨0xe00c, 0, 2⟩
def Reg.PWR_STRIKEMAX : Nat := 0xe00c
def Reg.PWR_HINT_LO_T : Fld := ⟨0xe010, 0, 32⟩
def Reg.PWR_HINT_LO : Nat := 0xe010
def Reg.PWR_HINT_HI_T : Fld := ⟨0xe014, 0, 32⟩
def Reg.PWR_HINT_HI : Nat := 0xe014
def Reg.PWR_HIBCFG_HRET : Fld := ⟨0xe018, 0, 1⟩
def Reg.PWR_HIBCFG : Nat := 0xe018
def Reg.PWR_WAKEEN_EN : Fld := ⟨0xe01c, 0, 8⟩
def Reg.PWR_WAKEEN : Nat := 0xe01c
def Reg.PWR_WAKEPIO_PIO : Fld := ⟨0xe020, 0, 32⟩
def Reg.PWR_WAKEPIO : Nat := 0xe020
def Reg.PWR_WAKESRC_SRC : Fld := ⟨0xe024, 0, 8⟩
def Reg.PWR_WAKESRC_ARMED : Fld := ⟨0xe024, 8, 1⟩
def Reg.PWR_WAKESRC_PCIE : Fld := ⟨0xe024, 9, 1⟩
def Reg.PWR_WAKESRC : Nat := 0xe024
def Reg.PWR_SLPCNT_DOZE : Fld := ⟨0xe028, 0, 16⟩
def Reg.PWR_SLPCNT_NAP : Fld := ⟨0xe028, 16, 8⟩
def Reg.PWR_SLPCNT_HIB : Fld := ⟨0xe028, 24, 8⟩
def Reg.PWR_SLPCNT : Nat := 0xe028
def Reg.PWR_RSTCFG_PERST : Fld := ⟨0xe040, 0, 1⟩
def Reg.PWR_RSTCFG : Nat := 0xe040
def Reg.PWR_RSTCAUSE_KIND : Fld := ⟨0xe044, 0, 10⟩
def Reg.PWR_RSTCAUSE_LAST : Fld := ⟨0xe044, 16, 4⟩
def Reg.PWR_RSTCAUSE_BORSRC : Fld := ⟨0xe044, 24, 4⟩
def Reg.PWR_RSTCAUSE : Nat := 0xe044
def Reg.PWR_BOOTCNT_COUNT : Fld := ⟨0xe048, 0, 32⟩
def Reg.PWR_BOOTCNT : Nat := 0xe048
def Reg.PWR_WDTCFG_EN : Fld := ⟨0xe080, 0, 1⟩
def Reg.PWR_WDTCFG_TMO : Fld := ⟨0xe080, 1, 16⟩
def Reg.PWR_WDTCFG_SLP : Fld := ⟨0xe080, 17, 1⟩
def Reg.PWR_WDTCFG : Nat := 0xe080
def Reg.PWR_WDTKICK_KEY : Fld := ⟨0xe084, 0, 16⟩
def Reg.PWR_WDTKICK : Nat := 0xe084
def Reg.PWR_WDTREM_REMAIN : Fld := ⟨0xe088, 0, 16⟩
def Reg.PWR_WDTREM : Nat := 0xe088
def Reg.PWR_CHRST_MASK_DEV : Fld := ⟨0xe0c0, 0, 32⟩
def Reg.PWR_CHRST_MASK : Nat := 0xe0c0
def Reg.PWR_CHRST_GO_GO : Fld := ⟨0xe0c4, 0, 1⟩
def Reg.PWR_CHRST_GO : Nat := 0xe0c4
def Reg.PWR_LEDHEAD_SEQ : Fld := ⟨0xe400, 0, 32⟩
def Reg.PWR_LEDHEAD : Nat := 0xe400
def Reg.PWR_LEDSEL_SEQ : Fld := ⟨0xe404, 0, 32⟩
def Reg.PWR_LEDSEL : Nat := 0xe404
def Reg.PWR_LEDDATA_DATA (n : Nat) : Fld := ⟨0xe420 + 0x4 * n, 0, 32⟩
def Reg.PWR_LEDDATA (n : Nat) : Nat := 0xe420 + 0x4 * n
def Reg.PWR_QCTL_SET : Fld := ⟨0xe480, 0, 1⟩
def Reg.PWR_QCTL_CLEAR : Fld := ⟨0xe480, 1, 1⟩
def Reg.PWR_QCTL : Nat := 0xe480
def Reg.PWR_QSTAT_ACTIVE : Fld := ⟨0xe484, 0, 1⟩
def Reg.PWR_QSTAT_HOLD : Fld := ⟨0xe484, 1, 1⟩
def Reg.PWR_QSTAT_FIRST : Fld := ⟨0xe484, 4, 4⟩
def Reg.PWR_QSTAT_SRCS : Fld := ⟨0xe484, 16, 9⟩
def Reg.PWR_QSTAT : Nat := 0xe484
def Reg.PWR_QPIO_PIN : Fld := ⟨0xe488, 0, 5⟩
def Reg.PWR_QPIO_EDGE : Fld := ⟨0xe488, 5, 2⟩
def Reg.PWR_QPIO : Nat := 0xe488
def Reg.PWR_SAFE_ADDR_ADDR (n : Nat) : Fld := ⟨0xe4c0 + 0x8 * n, 0, 32⟩
def Reg.PWR_SAFE_ADDR (n : Nat) : Nat := 0xe4c0 + 0x8 * n
def Reg.PWR_SAFE_CTL_LEN (n : Nat) : Fld := ⟨0xe4c4 + 0x8 * n, 0, 14⟩
def Reg.PWR_SAFE_CTL_PORT (n : Nat) : Fld := ⟨0xe4c4 + 0x8 * n, 20, 3⟩
def Reg.PWR_SAFE_CTL_V (n : Nat) : Fld := ⟨0xe4c4 + 0x8 * n, 31, 1⟩
def Reg.PWR_SAFE_CTL (n : Nat) : Nat := 0xe4c4 + 0x8 * n
def Reg.MBX_CFG_AT (n : Nat) : Fld := ⟨0xf000 + 0x100 * n, 0, 2⟩
def Reg.MBX_CFG_AIDX (n : Nat) : Fld := ⟨0xf000 + 0x100 * n, 4, 4⟩
def Reg.MBX_CFG_BT (n : Nat) : Fld := ⟨0xf000 + 0x100 * n, 8, 2⟩
def Reg.MBX_CFG_BIDX (n : Nat) : Fld := ⟨0xf000 + 0x100 * n, 12, 4⟩
def Reg.MBX_CFG_RDEV (n : Nat) : Fld := ⟨0xf000 + 0x100 * n, 16, 5⟩
def Reg.MBX_CFG_RCH (n : Nat) : Fld := ⟨0xf000 + 0x100 * n, 21, 3⟩
def Reg.MBX_CFG_VEC (n : Nat) : Fld := ⟨0xf000 + 0x100 * n, 24, 6⟩
def Reg.MBX_CFG (n : Nat) : Nat := 0xf000 + 0x100 * n
def Reg.MBX_A2B_CTL_LEN (n : Nat) : Fld := ⟨0xf004 + 0x100 * n, 0, 7⟩
def Reg.MBX_A2B_CTL_DB (n : Nat) : Fld := ⟨0xf004 + 0x100 * n, 8, 1⟩
def Reg.MBX_A2B_CTL_CANCEL (n : Nat) : Fld := ⟨0xf004 + 0x100 * n, 9, 1⟩
def Reg.MBX_A2B_CTL_TAKE (n : Nat) : Fld := ⟨0xf004 + 0x100 * n, 10, 1⟩
def Reg.MBX_A2B_CTL_TMO (n : Nat) : Fld := ⟨0xf004 + 0x100 * n, 12, 20⟩
def Reg.MBX_A2B_CTL (n : Nat) : Nat := 0xf004 + 0x100 * n
def Reg.MBX_B2A_CTL_LEN (n : Nat) : Fld := ⟨0xf00c + 0x100 * n, 0, 7⟩
def Reg.MBX_B2A_CTL_DB (n : Nat) : Fld := ⟨0xf00c + 0x100 * n, 8, 1⟩
def Reg.MBX_B2A_CTL_CANCEL (n : Nat) : Fld := ⟨0xf00c + 0x100 * n, 9, 1⟩
def Reg.MBX_B2A_CTL_TAKE (n : Nat) : Fld := ⟨0xf00c + 0x100 * n, 10, 1⟩
def Reg.MBX_B2A_CTL_TMO (n : Nat) : Fld := ⟨0xf00c + 0x100 * n, 12, 20⟩
def Reg.MBX_B2A_CTL (n : Nat) : Nat := 0xf00c + 0x100 * n
def Reg.MBX_A2B_STAT_DB (n : Nat) : Fld := ⟨0xf008 + 0x100 * n, 0, 1⟩
def Reg.MBX_A2B_STAT_ACK (n : Nat) : Fld := ⟨0xf008 + 0x100 * n, 1, 1⟩
def Reg.MBX_A2B_STAT_TIMEOUT (n : Nat) : Fld := ⟨0xf008 + 0x100 * n, 2, 1⟩
def Reg.MBX_A2B_STAT_CANCELLED (n : Nat) : Fld := ⟨0xf008 + 0x100 * n, 3, 1⟩
def Reg.MBX_A2B_STAT_REFUSED (n : Nat) : Fld := ⟨0xf008 + 0x100 * n, 4, 1⟩
def Reg.MBX_A2B_STAT_RSTATE (n : Nat) : Fld := ⟨0xf008 + 0x100 * n, 8, 2⟩
def Reg.MBX_A2B_STAT (n : Nat) : Nat := 0xf008 + 0x100 * n
def Reg.MBX_B2A_STAT_DB (n : Nat) : Fld := ⟨0xf010 + 0x100 * n, 0, 1⟩
def Reg.MBX_B2A_STAT_ACK (n : Nat) : Fld := ⟨0xf010 + 0x100 * n, 1, 1⟩
def Reg.MBX_B2A_STAT_TIMEOUT (n : Nat) : Fld := ⟨0xf010 + 0x100 * n, 2, 1⟩
def Reg.MBX_B2A_STAT_CANCELLED (n : Nat) : Fld := ⟨0xf010 + 0x100 * n, 3, 1⟩
def Reg.MBX_B2A_STAT_REFUSED (n : Nat) : Fld := ⟨0xf010 + 0x100 * n, 4, 1⟩
def Reg.MBX_B2A_STAT_RSTATE (n : Nat) : Fld := ⟨0xf010 + 0x100 * n, 8, 2⟩
def Reg.MBX_B2A_STAT (n : Nat) : Nat := 0xf010 + 0x100 * n
def Reg.MBX_A2B_BUF_DATA (n m : Nat) : Fld := ⟨0xf040 + 0x100 * n + 0x4 * m, 0, 32⟩
def Reg.MBX_A2B_BUF (n m : Nat) : Nat := 0xf040 + 0x100 * n + 0x4 * m
def Reg.MBX_B2A_BUF_DATA (n m : Nat) : Fld := ⟨0xf080 + 0x100 * n + 0x4 * m, 0, 32⟩
def Reg.MBX_B2A_BUF (n m : Nat) : Nat := 0xf080 + 0x100 * n + 0x4 * m
def Reg.WDN_STAT_PATCH : Fld := ⟨0x10000, 0, 1⟩
def Reg.WDN_STAT_PFAIL : Fld := ⟨0x10000, 1, 1⟩
def Reg.WDN_STAT_BUSY : Fld := ⟨0x10000, 2, 1⟩
def Reg.WDN_STAT_ROMVER : Fld := ⟨0x10000, 16, 16⟩
def Reg.WDN_STAT : Nat := 0x10000
def Reg.WDN_PATCH_ADDR_VAL : Fld := ⟨0x10004, 0, 32⟩
def Reg.WDN_PATCH_ADDR : Nat := 0x10004
def Reg.WDN_PATCH_LEN_VAL : Fld := ⟨0x10008, 0, 32⟩
def Reg.WDN_PATCH_LEN : Nat := 0x10008
def Reg.WDN_SEC_LO_V (n : Nat) : Fld := ⟨0x10100 + 0x8 * n, 0, 1⟩
def Reg.WDN_SEC_LO_BASE (n : Nat) : Fld := ⟨0x10100 + 0x8 * n, 12, 12⟩
def Reg.WDN_SEC_LO (n : Nat) : Nat := 0x10100 + 0x8 * n
def Reg.WDN_SEC_HI_LIMIT (n : Nat) : Fld := ⟨0x10104 + 0x8 * n, 0, 12⟩
def Reg.WDN_SEC_HI_LDR (n : Nat) : Fld := ⟨0x10104 + 0x8 * n, 12, 1⟩
def Reg.WDN_SEC_HI_SLOTS (n : Nat) : Fld := ⟨0x10104 + 0x8 * n, 13, 3⟩
def Reg.WDN_SEC_HI (n : Nat) : Nat := 0x10104 + 0x8 * n
def Reg.KEY_CTL_CMD : Fld := ⟨0x12000, 0, 2⟩
def Reg.KEY_CTL_ARBSEL : Fld := ⟨0x12000, 2, 6⟩
def Reg.KEY_CTL_CONFIRM : Fld := ⟨0x12000, 8, 8⟩
def Reg.KEY_CTL : Nat := 0x12000
def Reg.KEY_STAT_ROOTSET : Fld := ⟨0x12004, 0, 1⟩
def Reg.KEY_STAT_ROOTBAD : Fld := ⟨0x12004, 1, 1⟩
def Reg.KEY_STAT_SEALONLY : Fld := ⟨0x12004, 2, 1⟩
def Reg.KEY_STAT_BUSY : Fld := ⟨0x12004, 3, 1⟩
def Reg.KEY_STAT_CMDERR : Fld := ⟨0x12004, 4, 1⟩
def Reg.KEY_STAT_ARBFULL : Fld := ⟨0x12004, 5, 1⟩
def Reg.KEY_STAT : Nat := 0x12004
def Reg.KEY_ARBVAL_VAL : Fld := ⟨0x12008, 0, 32⟩
def Reg.KEY_ARBVAL : Nat := 0x12008
def Reg.KEY_ROOTH_HASH (n : Nat) : Fld := ⟨0x12040 + 0x4 * n, 0, 32⟩
def Reg.KEY_ROOTH (n : Nat) : Nat := 0x12040 + 0x4 * n
def Reg.KEY_ARB_VAL (n : Nat) : Fld := ⟨0x12100 + 0x4 * n, 0, 32⟩
def Reg.KEY_ARB (n : Nat) : Nat := 0x12100 + 0x4 * n
def Reg.DBGU_CTL_REQ : Fld := ⟨0x13000, 0, 1⟩
def Reg.DBGU_CTL_LOCK : Fld := ⟨0x13000, 1, 1⟩
def Reg.DBGU_CTL_SCOPE : Fld := ⟨0x13000, 2, 2⟩
def Reg.DBGU_CTL_UNLOCKED : Fld := ⟨0x13000, 4, 2⟩
def Reg.DBGU_CTL_BUSY : Fld := ⟨0x13000, 6, 1⟩
def Reg.DBGU_CTL_REFUSE : Fld := ⟨0x13000, 7, 1⟩
def Reg.DBGU_CTL : Nat := 0x13000
def Reg.DBGU_CHAL_DATA (n : Nat) : Fld := ⟨0x13010 + 0x4 * n, 0, 32⟩
def Reg.DBGU_CHAL (n : Nat) : Nat := 0x13010 + 0x4 * n
def Reg.DBGU_RADDR_ADDR : Fld := ⟨0x13030, 0, 32⟩
def Reg.DBGU_RADDR : Nat := 0x13030

def RegMap.dev0 : List RegDef := [
  ⟨0x0,1,0,1,0,[⟨0,16,.ro,7949,0⟩, ⟨16,16,.ro,29504,0⟩]⟩,
  ⟨0x4,1,0,1,0,[⟨0,8,.ro,177,0⟩]⟩,
  ⟨0x8,1,0,1,0,[⟨0,32,.ro,0,0⟩]⟩,
  ⟨0xc,1,0,1,0,[⟨0,32,.ro,0,0⟩]⟩,
  ⟨0x10,1,0,1,0,[⟨0,1,.wo,0,0⟩]⟩,
  ⟨0x14,1,0,1,0,[⟨0,1,.w1c,0,0⟩, ⟨1,1,.w1c,0,0⟩, ⟨2,1,.ro,0,0⟩]⟩,
  ⟨0x18,1,0,1,0,[⟨0,32,.wo,0,0⟩]⟩,
  ⟨0x1c,1,0,1,0,[⟨0,16,.w1s,0,0⟩]⟩,
  ⟨0x20,1,0,1,0,[⟨0,16,.ro,0,0⟩, ⟨16,16,.roc,0,0⟩]⟩,
  ⟨0x24,1,0,1,0,[⟨0,16,.ro,0,0⟩, ⟨16,2,.ro,0,0⟩, ⟨18,1,.ro,0,0⟩, ⟨20,12,.roc,0,0⟩]⟩,
  ⟨0x28,1,0,1,0,[⟨0,4,.rw,0,0⟩]⟩,
  ⟨0x30,1,0,1,0,[⟨0,10,.rw,0,0⟩]⟩,
  ⟨0x34,1,0,1,0,[⟨0,32,.ro,0,0⟩]⟩,
  ⟨0x40,1,0,1,0,[⟨0,3,.ro,0,0⟩, ⟨4,3,.ro,0,0⟩, ⟨8,1,.ro,0,0⟩, ⟨9,1,.ro,0,0⟩]⟩,
  ⟨0x100,32,8,1,0,[⟨0,1,.rwl,0,0⟩, ⟨1,1,.rwl,0,0⟩, ⟨12,20,.rwl,0,0⟩]⟩,
  ⟨0x104,32,8,1,0,[⟨0,32,.rwl,0,0⟩]⟩]
def RegMap.hrt0 : List RegDef := [
  ⟨0x1000,1,0,1,0,[⟨0,1,.rw,0,0⟩, ⟨1,2,.rwl,0,0⟩, ⟨3,1,.rwl,0,0⟩, ⟨8,4,.rwl,0,0⟩]⟩,
  ⟨0x1004,1,0,1,0,[⟨0,1,.ro,0,0⟩, ⟨1,2,.ro,0,0⟩, ⟨3,1,.w1c,0,0⟩, ⟨4,4,.ro,0,0⟩, ⟨8,1,.w1c,0,0⟩, ⟨9,1,.w1c,0,0⟩, ⟨10,1,.w1c,0,0⟩]⟩,
  ⟨0x1008,1,0,1,0,[⟨0,32,.rwl,10000,0⟩]⟩,
  ⟨0x100c,1,0,1,0,[⟨0,10,.rwl,64,0⟩]⟩,
  ⟨0x1010,1,0,1,0,[⟨0,10,.rwl,768,0⟩]⟩,
  ⟨0x1014,1,0,1,0,[⟨0,10,.rwl,896,0⟩]⟩,
  ⟨0x1018,1,0,1,0,[⟨0,20,.rwl,1000,0⟩]⟩,
  ⟨0x1020,1,0,1,0,[⟨0,32,.ro,0,0⟩]⟩,
  ⟨0x1024,1,0,1,0,[⟨0,32,.ro,0,0⟩]⟩,
  ⟨0x1028,1,0,1,0,[⟨0,32,.ro,0,0⟩]⟩,
  ⟨0x102c,1,0,1,0,[⟨0,32,.ro,0,0⟩]⟩,
  ⟨0x1030,1,0,1,0,[⟨0,32,.roc,0,0⟩]⟩,
  ⟨0x1034,1,0,1,0,[⟨0,5,.ro,0,0⟩, ⟨8,4,.ro,0,0⟩, ⟨12,1,.ro,0,0⟩, ⟨16,16,.ro,0,0⟩]⟩,
  ⟨0x1038,1,0,1,0,[⟨0,16,.roc,0,0⟩, ⟨16,16,.roc,0,0⟩]⟩,
  ⟨0x103c,1,0,1,0,[⟨0,24,.ro,24750,0⟩]⟩,
  ⟨0x1040,1,0,1,0,[⟨0,32,.roc,0,0⟩]⟩]
def RegMap.ring0 : List RegDef := [
  ⟨0x2000,1,0,1,0,[⟨0,1,.rw,0,0⟩, ⟨1,1,.rw,0,0⟩]⟩,
  ⟨0x2008,1,0,1,0,[⟨9,23,.rwl,0,0⟩]⟩,
  ⟨0x200c,1,0,1,0,[⟨0,32,.rwl,0,0⟩]⟩,
  ⟨0x2010,1,0,1,0,[⟨10,22,.rwl,0,0⟩]⟩,
  ⟨0x2014,1,0,1,0,[⟨0,32,.rwl,0,0⟩]⟩,
  ⟨0x2018,1,0,1,0,[⟨0,32,.ro,0,0⟩]⟩,
  ⟨0x201c,1,0,1,0,[⟨0,32,.ro,0,0⟩]⟩,
  ⟨0x2020,1,0,1,0,[⟨0,32,.roc,0,0⟩]⟩,
  ⟨0x2024,1,0,1,0,[⟨0,32,.roc,0,0⟩]⟩,
  ⟨0x2028,1,0,1,0,[⟨0,6,.ro,0,0⟩]⟩,
  ⟨0x2800,64,32,1,0,[⟨12,20,.rwl,0,0⟩]⟩,
  ⟨0x2804,64,32,1,0,[⟨0,32,.rwl,0,0⟩]⟩,
  ⟨0x2808,64,32,1,0,[⟨12,20,.rwl,0,0⟩]⟩,
  ⟨0x280c,64,32,1,0,[⟨0,32,.rwl,0,0⟩]⟩,
  ⟨0x2810,64,32,1,0,[⟨0,3,.rwl,0,0⟩, ⟨3,1,.rwl,0,0⟩, ⟨4,4,.rwl,0,0⟩, ⟨8,6,.rwl,0,0⟩, ⟨16,8,.rwl,0,0⟩, ⟨24,8,.rwl,0,0⟩]⟩,
  ⟨0x2814,64,32,1,0,[⟨0,1,.rw,0,0⟩, ⟨1,1,.wo,0,0⟩, ⟨8,8,.rw,16,0⟩]⟩]
def RegMap.ring1 : List RegDef := [
  ⟨0x2818,64,32,1,0,[⟨0,16,.rwl,0,0⟩, ⟨16,8,.rwl,0,0⟩]⟩,
  ⟨0x281c,64,32,1,0,[⟨0,1,.ro,0,0⟩, ⟨1,3,.ro,0,0⟩, ⟨4,1,.ro,0,0⟩, ⟨5,1,.ro,0,0⟩, ⟨16,16,.roc,0,0⟩]⟩]
def RegMap.eng0 : List RegDef := [
  ⟨0x3000,1,0,1,0,[⟨0,7,.rwl,16,0⟩]⟩,
  ⟨0x3004,1,0,1,0,[⟨0,1,.ro,0,0⟩]⟩,
  ⟨0x3100,16,64,1,0,[⟨0,1,.wo,0,0⟩]⟩,
  ⟨0x3104,16,64,1,0,[⟨0,1,.rwl,0,0⟩, ⟨1,1,.rwl,0,0⟩, ⟨2,1,.ro,0,0⟩]⟩,
  ⟨0x3108,16,64,1,0,[⟨0,3,.ro,0,0⟩, ⟨3,5,.ro,0,0⟩, ⟨8,2,.ro,3,0⟩]⟩,
  ⟨0x310c,16,64,1,0,[⟨0,1,.rwl,0,0⟩, ⟨15,15,.rwl,0,0⟩]⟩,
  ⟨0x3110,16,64,1,0,[⟨0,4,.ro,0,0⟩, ⟨4,5,.ro,0,0⟩, ⟨16,8,.roc,0,0⟩, ⟨24,8,.roc,0,0⟩]⟩,
  ⟨0x3114,16,64,1,0,[⟨0,32,.ro,0,0⟩]⟩,
  ⟨0x3118,16,64,1,0,[⟨0,32,.ro,0,0⟩]⟩,
  ⟨0x311c,16,64,1,0,[⟨0,32,.ro,0,0⟩]⟩,
  ⟨0x3120,16,64,1,0,[⟨0,32,.roc,0,0⟩]⟩,
  ⟨0x3124,16,64,1,0,[⟨0,32,.roc,0,0⟩]⟩,
  ⟨0x3128,16,64,1,0,[⟨0,5,.ro,0,1⟩]⟩,
  ⟨0x312c,16,64,1,0,[⟨0,32,.roc,0,0⟩]⟩,
  ⟨0x3130,16,64,1,0,[⟨0,16,.roc,0,0⟩, ⟨16,16,.roc,0,0⟩]⟩,
  ⟨0x3134,16,64,1,0,[⟨0,1,.rw,0,0⟩, ⟨1,1,.wo,0,0⟩, ⟨2,1,.ro,0,0⟩, ⟨3,1,.w1c,0,0⟩]⟩]
def RegMap.eng1 : List RegDef := [
  ⟨0x3138,16,64,1,0,[⟨0,6,.rw,0,0⟩, ⟨7,1,.rw,0,0⟩]⟩,
  ⟨0x313c,16,64,1,0,[⟨0,32,.ro,0,0⟩]⟩]
def RegMap.hrd0 : List RegDef := [
  ⟨0x4000,1,0,1,0,[⟨0,1,.rw,1,0⟩]⟩,
  ⟨0x4004,1,0,1,0,[⟨0,12,.rw,256,0⟩]⟩,
  ⟨0x4008,1,0,1,0,[⟨0,1,.w1c,0,0⟩, ⟨1,1,.ro,0,0⟩, ⟨2,1,.w1c,0,0⟩, ⟨3,1,.w1c,0,0⟩, ⟨4,2,.ro,0,0⟩, ⟨6,1,.w1c,0,0⟩]⟩,
  ⟨0x400c,1,0,1,0,[⟨0,16,.roc,0,0⟩, ⟨16,16,.roc,0,0⟩]⟩,
  ⟨0x4010,1,0,1,0,[⟨0,32,.ro,0,0⟩]⟩,
  ⟨0x4014,1,0,1,0,[⟨0,5,.rw,0,0⟩, ⟨8,1,.wo,0,0⟩, ⟨16,16,.rwl,0,0⟩]⟩,
  ⟨0x4018,1,0,1,0,[⟨0,1,.wo,0,0⟩]⟩,
  ⟨0x4040,8,4,1,0,[⟨0,6,.ro,0,4⟩, ⟨8,6,.ro,1,4⟩, ⟨16,6,.ro,2,4⟩, ⟨24,6,.ro,3,4⟩]⟩,
  ⟨0x4100,32,4,1,0,[⟨0,2,.rw,0,0⟩, ⟨4,3,.ro,0,0⟩, ⟨8,16,.roc,0,0⟩]⟩,
  ⟨0x4200,8,4,1,0,[⟨0,8,.rwl,0,0⟩, ⟨8,9,.rwl,256,0⟩, ⟨17,3,.rwl,7,0⟩]⟩,
  ⟨0x4300,16,8,1,0,[⟨0,1,.ro,0,0⟩, ⟨12,12,.ro,0,0⟩]⟩,
  ⟨0x4304,16,8,1,0,[⟨0,12,.ro,0,0⟩, ⟨12,1,.ro,0,0⟩, ⟨13,3,.ro,0,0⟩]⟩]
def RegMap.prs0 : List RegDef := [
  ⟨0x5000,1,0,1,0,[⟨0,1,.ro,0,0⟩, ⟨1,1,.ro,0,0⟩, ⟨2,1,.ro,0,0⟩, ⟨3,1,.w1c,0,0⟩, ⟨4,2,.ro,0,0⟩]⟩,
  ⟨0x5004,1,0,1,0,[⟨0,1,.rw,1,0⟩, ⟨1,1,.ro,0,0⟩, ⟨2,1,.ro,0,0⟩, ⟨16,16,.rw,0,0⟩]⟩,
  ⟨0x5008,1,0,1,0,[⟨0,8,.ro,0,0⟩]⟩,
  ⟨0x5100,3,64,1,0,[⟨0,4,.ro,0,0⟩, ⟨4,3,.ro,0,0⟩, ⟨7,1,.w1c,0,0⟩, ⟨8,1,.w1c,0,0⟩]⟩,
  ⟨0x5104,3,64,1,0,[⟨0,8,.ro,0,0⟩, ⟨8,24,.ro,0,0⟩]⟩,
  ⟨0x5108,3,64,1,0,[⟨0,8,.ro,0,0⟩, ⟨8,2,.ro,0,0⟩, ⟨10,5,.ro,0,0⟩, ⟨15,2,.ro,0,0⟩, ⟨17,1,.ro,0,0⟩]⟩,
  ⟨0x510c,3,64,1,0,[⟨0,32,.ro,0,0⟩]⟩,
  ⟨0x5110,3,64,1,0,[⟨0,32,.ro,0,0⟩]⟩,
  ⟨0x5114,3,64,1,0,[⟨0,32,.ro,0,0⟩]⟩,
  ⟨0x5118,3,64,1,0,[⟨0,16,.ro,0,0⟩, ⟨16,5,.ro,0,0⟩, ⟨21,6,.ro,0,0⟩, ⟨27,2,.ro,0,0⟩]⟩,
  ⟨0x511c,3,64,1,0,[⟨0,1,.rw,0,0⟩]⟩,
  ⟨0x5120,3,64,1,0,[⟨0,16,.roc,0,0⟩, ⟨16,16,.roc,0,0⟩]⟩,
  ⟨0x5124,3,64,1,0,[⟨0,32,.ro,0,0⟩]⟩,
  ⟨0x5128,3,64,1,0,[⟨0,32,.ro,0,0⟩]⟩,
  ⟨0x5200,5,4,1,0,[⟨0,32,.ro,0,0⟩]⟩]
def RegMap.port0 : List RegDef := [
  ⟨0x6000,1,0,1,0,[⟨0,32,.roc,0,0⟩]⟩,
  ⟨0x6100,6,512,1,0,[⟨0,1,.rw,0,0⟩, ⟨1,3,.rw,0,0⟩, ⟨4,1,.rw,0,0⟩]⟩,
  ⟨0x6104,6,512,1,0,[⟨0,1,.ro,0,0⟩, ⟨1,2,.ro,0,0⟩, ⟨3,1,.ro,0,0⟩, ⟨4,1,.w1c,0,0⟩, ⟨5,1,.w1c,0,0⟩]⟩,
  ⟨0x6108,6,512,1,0,[⟨0,24,.rw,16434824,0⟩, ⟨24,3,.rw,3,0⟩]⟩,
  ⟨0x610c,6,512,1,0,[⟨0,15,.rw,0,0⟩]⟩,
  ⟨0x6110,6,512,1,0,[⟨0,32,.rw,0,0⟩]⟩,
  ⟨0x6114,6,512,1,0,[⟨0,1,.rw,0,0⟩]⟩,
  ⟨0x6118,6,512,1,0,[⟨0,1,.rw,1,0⟩, ⟨1,1,.rw,0,0⟩, ⟨16,16,.rw,65535,0⟩]⟩,
  ⟨0x611c,6,512,1,0,[⟨0,8,.rw,96,0⟩, ⟨8,8,.rw,64,0⟩]⟩,
  ⟨0x6120,6,512,1,0,[⟨0,1,.ro,0,0⟩, ⟨16,16,.ro,0,0⟩]⟩,
  ⟨0x6124,6,512,1,0,[⟨0,1,.rw,0,0⟩, ⟨1,1,.rw,0,0⟩, ⟨2,1,.rw,0,0⟩, ⟨3,2,.rw,0,0⟩, ⟨5,2,.ro,0,0⟩, ⟨7,1,.ro,0,0⟩, ⟨8,8,.rw,10,0⟩]⟩,
  ⟨0x6128,6,512,1,0,[⟨0,1,.rw,0,0⟩, ⟨1,1,.wo,0,0⟩, ⟨2,1,.ro,0,0⟩, ⟨8,5,.rw,0,0⟩]⟩,
  ⟨0x612c,6,512,1,0,[⟨0,16,.rw,0,0⟩]⟩,
  ⟨0x6130,6,512,1,0,[⟨0,16,.rw,0,0⟩]⟩,
  ⟨0x6134,6,512,1,0,[⟨0,4,.rw,0,0⟩, ⟨4,1,.rw,0,0⟩, ⟨8,7,.rw,14,0⟩]⟩,
  ⟨0x6138,6,512,1,0,[⟨0,1,.ro,0,0⟩, ⟨1,4,.ro,0,0⟩]⟩]
def RegMap.port1 : List RegDef := [
  ⟨0x613c,6,512,1,0,[⟨0,32,.roc,0,0⟩]⟩,
  ⟨0x6140,6,512,1,0,[⟨0,32,.roc,0,0⟩]⟩,
  ⟨0x6144,6,512,1,0,[⟨0,16,.roc,0,0⟩, ⟨16,16,.roc,0,0⟩]⟩,
  ⟨0x6148,6,512,1,0,[⟨0,8,.roc,0,0⟩, ⟨8,8,.roc,0,0⟩, ⟨16,8,.roc,0,0⟩, ⟨24,8,.roc,0,0⟩]⟩,
  ⟨0x6180,6,512,32,4,[⟨0,8,.rw,255,0⟩, ⟨8,24,.rw,0,0⟩]⟩,
  ⟨0x6d00,8,16,1,0,[⟨0,1,.rw,0,0⟩, ⟨1,1,.rw,0,0⟩, ⟨2,1,.rw,0,0⟩, ⟨3,1,.rw,0,0⟩, ⟨4,1,.rw,0,0⟩, ⟨5,7,.rw,0,0⟩, ⟨12,6,.rw,0,0⟩]⟩,
  ⟨0x6d04,8,16,1,0,[⟨0,16,.rw,0,0⟩]⟩,
  ⟨0x6d08,8,16,1,0,[⟨0,32,.rw,0,0⟩]⟩,
  ⟨0x6d0c,8,16,1,0,[⟨0,8,.roc,0,0⟩, ⟨8,8,.roc,0,0⟩, ⟨16,8,.roc,0,0⟩, ⟨24,8,.roc,0,0⟩]⟩,
  ⟨0x6e00,2,32,1,0,[⟨0,1,.rw,0,0⟩, ⟨1,1,.rw,0,0⟩, ⟨2,1,.rw,1,0⟩, ⟨3,1,.wo,0,0⟩, ⟨8,8,.rw,0,0⟩]⟩,
  ⟨0x6e04,2,32,1,0,[⟨0,8,.rw,0,0⟩, ⟨8,8,.rw,0,0⟩, ⟨16,7,.rw,0,0⟩, ⟨23,7,.rw,0,0⟩]⟩,
  ⟨0x6e08,2,32,1,0,[⟨0,5,.rw,0,0⟩, ⟨5,5,.rw,0,0⟩, ⟨10,4,.rw,0,0⟩, ⟨14,4,.rw,0,0⟩]⟩,
  ⟨0x6e0c,2,32,1,0,[⟨0,8,.ro,0,0⟩, ⟨8,8,.ro,0,0⟩, ⟨16,2,.ro,0,0⟩, ⟨18,1,.w1c,0,0⟩]⟩]
def RegMap.time0 : List RegDef := [
  ⟨0x7000,1,0,1,0,[⟨0,2,.rwl,3,0⟩]⟩,
  ⟨0x7004,1,0,1,0,[⟨0,1,.ro,0,0⟩, ⟨1,1,.ro,0,0⟩, ⟨2,1,.w1c,0,0⟩, ⟨3,1,.w1c,0,0⟩, ⟨4,1,.w1c,0,0⟩, ⟨8,8,.ro,0,0⟩]⟩,
  ⟨0x7008,1,0,1,0,[⟨0,32,.ro,0,0⟩]⟩,
  ⟨0x700c,1,0,1,0,[⟨0,32,.ro,0,0⟩]⟩,
  ⟨0x7010,1,0,1,0,[⟨0,16,.ro,0,0⟩]⟩,
  ⟨0x7014,1,0,1,0,[⟨0,32,.rw,1073741824,0⟩]⟩,
  ⟨0x7018,1,0,1,0,[⟨0,24,.rw,0,0⟩, ⟨24,8,.rw,0,0⟩]⟩,
  ⟨0x701c,1,0,1,0,[⟨0,24,.ro,0,0⟩]⟩,
  ⟨0x7020,1,0,1,0,[⟨0,32,.rw,0,0⟩]⟩,
  ⟨0x7024,1,0,1,0,[⟨0,32,.rw,0,0⟩]⟩,
  ⟨0x7028,1,0,1,0,[⟨0,1,.rw,0,0⟩]⟩,
  ⟨0x702c,1,0,1,0,[⟨0,30,.rwl,1000,0⟩]⟩,
  ⟨0x7030,1,0,1,0,[⟨0,32,.ro,0,0⟩]⟩,
  ⟨0x7034,1,0,1,0,[⟨0,32,.ro,0,0⟩]⟩,
  ⟨0x7038,1,0,1,0,[⟨0,32,.ro,0,0⟩]⟩,
  ⟨0x703c,1,0,1,0,[⟨0,32,.roc,0,0⟩]⟩]
def RegMap.time1 : List RegDef := [
  ⟨0x7100,6,4,1,0,[⟨0,16,.ro,0,0⟩, ⟨16,16,.ro,0,0⟩]⟩]
def RegMap.chn0 : List RegDef := [
  ⟨0x8000,1,0,1,0,[⟨0,1,.rw,0,0⟩, ⟨8,6,.rwl,0,0⟩]⟩,
  ⟨0x8004,1,0,1,0,[⟨0,3,.ro,0,0⟩, ⟨3,1,.ro,0,0⟩, ⟨4,5,.ro,0,0⟩, ⟨9,1,.ro,0,0⟩, ⟨10,6,.ro,0,0⟩, ⟨16,4,.ro,0,0⟩]⟩,
  ⟨0x8008,1,0,1,0,[⟨0,2,.ro,0,0⟩, ⟨8,8,.ro,0,0⟩]⟩,
  ⟨0x800c,1,0,1,0,[⟨0,32,.ro,0,0⟩]⟩,
  ⟨0x8010,1,0,1,0,[⟨0,32,.ro,0,0⟩]⟩,
  ⟨0x8014,1,0,1,0,[⟨0,32,.ro,0,0⟩]⟩,
  ⟨0x8018,1,0,1,0,[⟨0,16,.rw,100,0⟩]⟩,
  ⟨0x801c,1,0,1,0,[⟨0,32,.roc,0,0⟩]⟩,
  ⟨0x8040,4,16,1,0,[⟨0,1,.rw,1,0⟩]⟩,
  ⟨0x8044,4,16,1,0,[⟨0,2,.ro,0,0⟩, ⟨2,1,.w1c,0,0⟩, ⟨3,5,.ro,0,0⟩, ⟨8,1,.ro,0,0⟩, ⟨9,2,.ro,0,0⟩]⟩,
  ⟨0x8048,4,16,1,0,[⟨0,16,.roc,0,0⟩, ⟨16,16,.roc,0,0⟩]⟩,
  ⟨0x804c,4,16,1,0,[⟨0,32,.ro,0,0⟩]⟩,
  ⟨0x8100,8,4,1,0,[⟨0,8,.ro,0,0⟩, ⟨8,8,.ro,0,0⟩, ⟨16,8,.ro,0,0⟩, ⟨24,8,.ro,0,0⟩]⟩,
  ⟨0x8140,1,0,1,0,[⟨0,4,.roc,0,0⟩, ⟨4,4,.roc,0,0⟩, ⟨8,4,.roc,0,0⟩, ⟨12,4,.roc,0,0⟩, ⟨16,8,.roc,0,0⟩, ⟨24,8,.roc,0,0⟩]⟩,
  ⟨0x8800,1,0,1,0,[⟨0,1,.wo,0,0⟩, ⟨1,1,.wo,0,0⟩, ⟨2,1,.ro,0,0⟩]⟩,
  ⟨0x8804,1,0,1,0,[⟨0,8,.rwl,25,0⟩, ⟨8,8,.rwl,200,0⟩, ⟨16,1,.rw,1,0⟩]⟩]
def RegMap.chn1 : List RegDef := [
  ⟨0x8808,1,0,1,0,[⟨0,16,.rwl,0,0⟩, ⟨16,16,.rwl,0,0⟩]⟩,
  ⟨0x880c,1,0,1,0,[⟨0,1,.ro,0,0⟩, ⟨1,4,.ro,0,0⟩, ⟨5,1,.ro,0,0⟩, ⟨16,16,.roc,0,0⟩]⟩,
  ⟨0x8810,1,0,1,0,[⟨0,32,.ro,0,0⟩]⟩,
  ⟨0x8814,1,0,1,0,[⟨0,16,.ro,0,0⟩]⟩,
  ⟨0x8818,1,0,1,0,[⟨0,3,.rw,0,0⟩, ⟨3,1,.wo,0,0⟩]⟩,
  ⟨0x881c,1,0,1,0,[⟨0,3,.ro,0,0⟩, ⟨4,3,.ro,0,0⟩, ⟨7,1,.ro,0,0⟩, ⟨8,1,.ro,0,0⟩, ⟨9,2,.ro,0,0⟩, ⟨11,5,.ro,0,0⟩, ⟨16,3,.ro,0,0⟩, ⟨19,1,.w1c,0,0⟩, ⟨24,8,.ro,0,0⟩]⟩,
  ⟨0x8820,1,0,1,0,[⟨0,32,.ro,0,0⟩]⟩,
  ⟨0x8824,1,0,1,0,[⟨0,16,.roc,0,0⟩, ⟨16,16,.roc,0,0⟩]⟩,
  ⟨0x8828,1,0,1,0,[⟨0,32,.ro,0,0⟩]⟩,
  ⟨0x882c,1,0,1,0,[⟨0,32,.ro,0,0⟩]⟩,
  ⟨0x8840,8,8,1,0,[⟨0,32,.ro,0,0⟩]⟩,
  ⟨0x8844,8,8,1,0,[⟨0,32,.ro,0,0⟩]⟩,
  ⟨0x8880,8,4,1,0,[⟨0,23,.rwl,0,0⟩, ⟨23,5,.rwl,0,0⟩, ⟨28,1,.rwl,0,0⟩, ⟨31,1,.rwl,0,0⟩]⟩,
  ⟨0x88a0,8,4,1,0,[⟨0,24,.ro,0,0⟩, ⟨31,1,.ro,0,0⟩]⟩,
  ⟨0x8900,4,16,1,0,[⟨0,16,.ro,0,0⟩]⟩,
  ⟨0x8904,4,16,1,0,[⟨0,1,.ro,0,0⟩, ⟨1,4,.ro,0,0⟩]⟩]
def RegMap.chn2 : List RegDef := [
  ⟨0x8908,4,16,1,0,[⟨0,32,.roc,0,0⟩]⟩]
def RegMap.swg0 : List RegDef := [
  ⟨0x9000,1,0,1,0,[⟨0,1,.w1c,0,0⟩, ⟨1,3,.ro,0,0⟩, ⟨8,7,.ro,0,0⟩]⟩,
  ⟨0x9100,16,128,1,0,[⟨0,1,.rw,0,0⟩, ⟨1,1,.rw,0,0⟩, ⟨2,1,.wo,0,0⟩]⟩,
  ⟨0x9104,16,128,1,0,[⟨0,1,.rwl,0,0⟩, ⟨1,1,.rwl,0,0⟩, ⟨2,7,.rwl,0,0⟩, ⟨9,3,.rwl,0,0⟩, ⟨12,5,.rwl,0,0⟩]⟩,
  ⟨0x9108,16,128,1,0,[⟨0,3,.rwl,0,0⟩, ⟨4,4,.rwl,0,0⟩, ⟨8,3,.rwl,0,0⟩, ⟨12,4,.rwl,0,0⟩, ⟨16,4,.rwl,0,0⟩]⟩,
  ⟨0x910c,16,128,1,0,[⟨0,16,.rw,1,0⟩, ⟨16,16,.rw,0,0⟩]⟩,
  ⟨0x9110,16,128,1,0,[⟨0,16,.rw,1,0⟩, ⟨16,16,.rw,0,0⟩]⟩,
  ⟨0x9114,16,128,1,0,[⟨0,32,.rw,0,0⟩]⟩,
  ⟨0x9118,16,128,1,0,[⟨0,16,.rw,0,0⟩, ⟨16,16,.rw,0,0⟩]⟩,
  ⟨0x911c,16,128,1,0,[⟨0,16,.rw,0,0⟩, ⟨16,16,.rw,0,0⟩]⟩,
  ⟨0x9120,16,128,1,0,[⟨0,16,.rw,0,0⟩, ⟨16,16,.rw,0,0⟩]⟩,
  ⟨0x9124,16,128,1,0,[⟨0,12,.rw,1024,0⟩, ⟨16,12,.rw,0,0⟩]⟩,
  ⟨0x9128,16,128,1,0,[⟨0,12,.rw,0,0⟩, ⟨16,12,.rw,0,0⟩]⟩,
  ⟨0x912c,16,128,1,0,[⟨0,12,.rw,0,0⟩, ⟨12,6,.rw,0,0⟩, ⟨18,2,.rw,0,0⟩]⟩,
  ⟨0x9130,16,128,1,0,[⟨0,32,.rw,65536,0⟩]⟩,
  ⟨0x9134,16,128,1,0,[⟨0,32,.rw,65536,0⟩]⟩,
  ⟨0x9138,16,128,1,0,[⟨0,32,.rw,65536,0⟩]⟩]
def RegMap.swg1 : List RegDef := [
  ⟨0x913c,16,128,1,0,[⟨0,32,.rw,0,0⟩]⟩,
  ⟨0x9140,16,128,1,0,[⟨0,2,.ro,0,0⟩, ⟨2,1,.ro,0,0⟩, ⟨3,1,.w1c,0,0⟩, ⟨4,1,.w1c,0,0⟩, ⟨5,1,.ro,0,0⟩, ⟨6,3,.ro,0,0⟩, ⟨9,1,.ro,1,0⟩, ⟨16,16,.ro,0,0⟩]⟩,
  ⟨0x9144,16,128,1,0,[⟨0,32,.ro,0,0⟩]⟩,
  ⟨0x9148,16,128,1,0,[⟨0,32,.ro,0,0⟩]⟩,
  ⟨0x914c,16,128,1,0,[⟨0,32,.ro,0,0⟩]⟩,
  ⟨0x9150,16,128,1,0,[⟨0,12,.ro,0,0⟩]⟩]
def RegMap.lsw0 : List RegDef := [
  ⟨0xa000,1,0,1,0,[⟨0,1,.ro,0,0⟩, ⟨1,1,.ro,0,0⟩, ⟨2,1,.w1c,0,0⟩, ⟨3,1,.w1c,0,0⟩]⟩,
  ⟨0xa004,1,0,1,0,[⟨0,16,.ro,0,0⟩]⟩,
  ⟨0xa008,1,0,1,0,[⟨0,8,.rw,0,0⟩]⟩,
  ⟨0xa100,12,32,1,0,[⟨0,4,.rw,6,0⟩, ⟨4,6,.rw,4,0⟩, ⟨10,2,.rw,0,0⟩, ⟨12,1,.rw,1,0⟩]⟩,
  ⟨0xa104,12,32,1,0,[⟨0,2,.rw,0,0⟩, ⟨16,11,.rw,0,0⟩]⟩,
  ⟨0xa108,12,32,1,0,[⟨0,21,.rw,200000,0⟩]⟩,
  ⟨0xa10c,12,32,1,0,[⟨0,1,.ro,0,0⟩, ⟨1,1,.ro,0,0⟩, ⟨2,1,.w1c,0,0⟩, ⟨3,1,.w1c,0,0⟩, ⟨4,1,.ro,0,0⟩, ⟨5,2,.ro,3,0⟩]⟩,
  ⟨0xa110,12,32,1,0,[⟨0,1,.wo,0,0⟩, ⟨1,1,.wo,0,0⟩]⟩,
  ⟨0xa114,12,32,1,0,[⟨0,16,.ro,0,0⟩, ⟨16,16,.ro,0,0⟩]⟩,
  ⟨0xa118,12,32,1,0,[⟨0,8,.roc,0,0⟩, ⟨8,8,.roc,0,0⟩, ⟨16,8,.roc,0,0⟩]⟩,
  ⟨0xa300,6,16,1,0,[⟨0,1,.rwl,0,0⟩, ⟨1,8,.rw,10,0⟩]⟩,
  ⟨0xa304,6,16,1,0,[⟨0,2,.ro,0,0⟩, ⟨2,1,.ro,0,0⟩]⟩,
  ⟨0xa400,8,32,1,0,[⟨0,1,.rw,0,0⟩, ⟨1,2,.rw,0,0⟩, ⟨4,4,.rw,1,0⟩]⟩,
  ⟨0xa404,8,32,1,0,[⟨0,12,.ro,0,0⟩, ⟨16,12,.ro,0,0⟩]⟩,
  ⟨0xa408,8,32,1,0,[⟨0,12,.rw,0,0⟩, ⟨16,12,.rw,4095,0⟩]⟩,
  ⟨0xa40c,8,32,1,0,[⟨0,1,.w1c,0,0⟩, ⟨1,1,.ro,0,0⟩, ⟨2,1,.ro,0,0⟩, ⟨3,1,.w1c,0,0⟩, ⟨4,1,.ro,0,0⟩, ⟨5,1,.w1c,0,0⟩]⟩]
def RegMap.tng0 : List RegDef := [
  ⟨0xb000,1,0,1,0,[⟨0,32,.ro,0,0⟩]⟩,
  ⟨0xb020,8,4,1,0,[⟨0,5,.rw,0,0⟩, ⟨8,5,.rw,0,0⟩, ⟨16,5,.rw,0,0⟩, ⟨24,5,.rw,0,0⟩]⟩,
  ⟨0xb040,1,0,1,0,[⟨0,1,.rw,0,0⟩, ⟨1,3,.rw,0,0⟩, ⟨4,8,.rw,90,0⟩, ⟨12,8,.rw,50,0⟩, ⟨20,12,.rw,1100,0⟩]⟩,
  ⟨0xb044,1,0,1,0,[⟨0,1,.w1c,0,0⟩, ⟨1,1,.ro,0,0⟩, ⟨2,1,.ro,0,0⟩, ⟨3,1,.w1c,0,0⟩, ⟨16,16,.roc,0,0⟩]⟩,
  ⟨0xb100,8,32,1,0,[⟨0,1,.rw,0,0⟩, ⟨1,1,.wo,0,0⟩]⟩,
  ⟨0xb104,8,32,1,0,[⟨0,5,.rwl,0,4⟩, ⟨5,1,.rwl,0,0⟩, ⟨8,6,.rwl,32,0⟩]⟩,
  ⟨0xb108,8,32,1,0,[⟨0,8,.rwl,0,0⟩, ⟨8,16,.rwl,400,0⟩]⟩,
  ⟨0xb10c,8,32,1,0,[⟨0,6,.ro,0,0⟩, ⟨6,1,.ro,0,0⟩, ⟨7,1,.w1c,0,0⟩, ⟨8,1,.w1c,0,0⟩, ⟨9,1,.w1c,0,0⟩, ⟨10,1,.w1c,0,0⟩, ⟨11,1,.w1c,0,0⟩, ⟨12,4,.ro,0,0⟩, ⟨16,4,.ro,0,0⟩]⟩,
  ⟨0xb110,8,32,1,0,[⟨0,32,.wo,0,0⟩]⟩,
  ⟨0xb114,8,32,1,0,[⟨0,32,.roc,0,0⟩]⟩,
  ⟨0xb118,8,32,1,0,[⟨0,16,.roc,0,0⟩]⟩,
  ⟨0xb11c,8,32,1,0,[⟨0,16,.rw,0,0⟩, ⟨16,16,.ro,0,0⟩]⟩,
  ⟨0xb400,8,128,32,4,[⟨0,16,.rwl,0,0⟩, ⟨16,16,.rwl,0,0⟩]⟩,
  ⟨0xb800,16,128,1,0,[⟨0,1,.rw,0,0⟩, ⟨1,4,.wo,0,0⟩]⟩,
  ⟨0xb804,16,128,1,0,[⟨0,1,.rwl,0,0⟩, ⟨1,1,.rwl,0,0⟩, ⟨2,1,.rwl,0,0⟩, ⟨3,1,.rwl,0,0⟩, ⟨4,5,.rwl,0,0⟩, ⟨16,8,.rwl,0,0⟩]⟩,
  ⟨0xb808,16,128,1,0,[⟨0,1,.w1c,0,0⟩, ⟨1,1,.w1c,0,0⟩, ⟨2,1,.w1c,0,0⟩, ⟨3,1,.ro,0,0⟩, ⟨4,4,.w1c,0,0⟩]⟩]
def RegMap.tng1 : List RegDef := [
  ⟨0xb80c,16,128,1,0,[⟨0,3,.rw,0,0⟩, ⟨8,3,.rw,0,0⟩, ⟨16,3,.rw,0,0⟩, ⟨24,3,.rw,0,0⟩, ⟨3,5,.rw,0,0⟩, ⟨11,5,.rw,0,0⟩, ⟨19,5,.rw,0,0⟩, ⟨27,5,.rw,0,0⟩]⟩,
  ⟨0xb810,16,128,1,0,[⟨0,8,.rw,0,0⟩, ⟨8,4,.rw,0,0⟩, ⟨12,4,.rw,0,0⟩]⟩,
  ⟨0xb818,16,128,1,0,[⟨0,32,.rwl,0,0⟩]⟩,
  ⟨0xb81c,16,128,1,0,[⟨0,16,.rwl,0,0⟩]⟩,
  ⟨0xb820,16,128,4,8,[⟨0,32,.ro,0,0⟩]⟩,
  ⟨0xb824,16,128,4,8,[⟨0,16,.ro,0,0⟩, ⟨16,1,.ro,0,0⟩, ⟨17,1,.ro,0,0⟩]⟩,
  ⟨0xb840,16,128,4,8,[⟨0,32,.rw,0,0⟩]⟩,
  ⟨0xb844,16,128,4,8,[⟨0,16,.rw,0,0⟩]⟩]
def RegMap.ing0 : List RegDef := [
  ⟨0xc000,1,0,1,0,[⟨0,1,.rw,1,0⟩, ⟨1,1,.wo,0,0⟩, ⟨2,1,.wo,0,0⟩]⟩,
  ⟨0xc004,1,0,1,0,[⟨0,1,.ro,0,0⟩, ⟨1,2,.ro,0,0⟩, ⟨3,1,.ro,0,0⟩, ⟨4,1,.w1c,0,0⟩, ⟨5,1,.w1c,0,0⟩, ⟨6,1,.w1c,0,0⟩]⟩,
  ⟨0xc008,1,0,1,0,[⟨0,15,.rw,0,0⟩, ⟨16,2,.rw,0,0⟩, ⟨31,1,.wo,0,0⟩]⟩,
  ⟨0xc00c,1,0,1,0,[⟨0,2,.ro,0,0⟩, ⟨8,3,.ro,0,0⟩]⟩,
  ⟨0xc010,1,0,1,0,[⟨0,32,.ro,0,0⟩]⟩,
  ⟨0xc014,1,0,1,0,[⟨0,16,.roc,0,0⟩, ⟨16,16,.roc,0,0⟩]⟩,
  ⟨0xc018,1,0,1,0,[⟨0,7,.ro,0,0⟩]⟩,
  ⟨0xc020,4,4,1,0,[⟨0,32,.rwl,0,0⟩]⟩,
  ⟨0xc040,8,4,1,0,[⟨0,32,.ro,0,0⟩]⟩,
  ⟨0xc400,64,4,1,0,[⟨0,32,.rw,4294967295,0⟩]⟩]
def RegMap.tmp0 : List RegDef := [
  ⟨0xd000,1,0,1,0,[⟨0,1,.rw,0,0⟩, ⟨1,4,.rw,6,0⟩, ⟨5,7,.rw,60,0⟩, ⟨12,1,.rw,0,0⟩]⟩,
  ⟨0xd004,1,0,1,0,[⟨0,4,.ro,0,0⟩, ⟨4,6,.ro,12,0⟩, ⟨10,2,.ro,0,0⟩, ⟨12,1,.w1c,0,0⟩, ⟨13,1,.w1c,0,0⟩, ⟨14,1,.w1c,0,0⟩]⟩,
  ⟨0xd008,1,0,1,0,[⟨0,8,.rwl,20,0⟩, ⟨8,8,.rwl,60,0⟩, ⟨16,8,.rwl,115,0⟩, ⟨24,4,.rwl,4,0⟩]⟩,
  ⟨0xd00c,1,0,1,0,[⟨0,16,.ro,0,0⟩]⟩,
  ⟨0xd010,1,0,1,0,[⟨0,16,.ro,0,0⟩]⟩,
  ⟨0xd040,11,4,1,0,[⟨0,10,.ro,400,0⟩, ⟨10,6,.ro,12,0⟩]⟩,
  ⟨0xd100,6,16,1,0,[⟨0,1,.rw,0,0⟩, ⟨1,1,.wo,0,0⟩, ⟨8,8,.rw,40,0⟩]⟩,
  ⟨0xd104,6,16,1,0,[⟨0,4,.rw,8,0⟩, ⟨4,6,.rw,0,0⟩, ⟨10,6,.rw,0,0⟩, ⟨16,6,.rw,0,0⟩, ⟨22,6,.rw,0,0⟩]⟩,
  ⟨0xd108,6,16,1,0,[⟨0,10,.ro,0,0⟩, ⟨10,6,.ro,0,0⟩, ⟨16,1,.w1c,0,0⟩]⟩,
  ⟨0xd10c,6,16,1,0,[⟨0,6,.rw,0,0⟩]⟩,
  ⟨0xd200,1,0,1,0,[⟨0,4,.rw,0,0⟩, ⟨4,8,.rw,0,0⟩, ⟨12,1,.rw,0,0⟩]⟩,
  ⟨0xd204,1,0,1,0,[⟨0,12,.ro,0,0⟩, ⟨16,5,.rw,0,0⟩, ⟨21,5,.ro,0,0⟩]⟩,
  ⟨0xd300,1,0,1,0,[⟨0,16,.rw,0,0⟩, ⟨16,1,.rw,0,0⟩, ⟨17,7,.rw,20,0⟩]⟩,
  ⟨0xd304,1,0,1,0,[⟨0,4,.ro,0,0⟩, ⟨4,4,.ro,0,0⟩, ⟨8,5,.ro,0,0⟩, ⟨16,16,.roc,0,0⟩]⟩,
  ⟨0xd400,1,0,1,0,[⟨0,4,.rw,0,0⟩, ⟨4,1,.wo,0,0⟩, ⟨5,1,.rw,1,0⟩, ⟨16,16,.rw,64,0⟩]⟩,
  ⟨0xd404,1,0,1,0,[⟨0,3,.ro,0,0⟩, ⟨3,4,.ro,0,0⟩, ⟨7,5,.ro,0,0⟩, ⟨12,1,.w1c,0,0⟩, ⟨13,1,.w1c,0,0⟩, ⟨14,1,.w1c,0,0⟩, ⟨24,8,.roc,0,0⟩]⟩]
def RegMap.tmp1 : List RegDef := [
  ⟨0xd500,1,0,1,0,[⟨0,8,.ro,0,0⟩, ⟨8,1,.ro,0,0⟩, ⟨9,1,.w1c,0,0⟩, ⟨10,1,.w1c,0,0⟩, ⟨11,1,.ro,0,0⟩, ⟨12,4,.ro,0,0⟩, ⟨16,16,.ro,0,0⟩]⟩,
  ⟨0xd504,1,0,1,0,[⟨0,5,.ro,31,0⟩, ⟨5,5,.ro,31,0⟩, ⟨10,6,.ro,63,0⟩, ⟨16,6,.ro,63,0⟩]⟩]
def RegMap.pwr0 : List RegDef := [
  ⟨0xe000,1,0,1,0,[⟨0,2,.ro,0,0⟩, ⟨2,1,.ro,0,0⟩, ⟨3,1,.w1c,0,0⟩, ⟨4,1,.w1c,0,0⟩, ⟨5,2,.ro,0,0⟩]⟩,
  ⟨0xe004,1,0,1,0,[⟨0,2,.rw,0,0⟩]⟩,
  ⟨0xe008,1,0,1,0,[⟨0,2,.rw,1,0⟩, ⟨8,8,.rw,2,0⟩]⟩,
  ⟨0xe00c,1,0,1,0,[⟨0,2,.rwl,1,0⟩]⟩,
  ⟨0xe010,1,0,1,0,[⟨0,32,.rw,0,0⟩]⟩,
  ⟨0xe014,1,0,1,0,[⟨0,32,.rw,0,0⟩]⟩,
  ⟨0xe018,1,0,1,0,[⟨0,1,.rw,1,0⟩]⟩,
  ⟨0xe01c,1,0,1,0,[⟨0,8,.rw,255,0⟩]⟩,
  ⟨0xe020,1,0,1,0,[⟨0,32,.rw,0,0⟩]⟩,
  ⟨0xe024,1,0,1,0,[⟨0,8,.w1c,0,0⟩, ⟨8,1,.w1c,0,0⟩, ⟨9,1,.w1c,0,0⟩]⟩,
  ⟨0xe028,1,0,1,0,[⟨0,16,.roc,0,0⟩, ⟨16,8,.roc,0,0⟩, ⟨24,8,.roc,0,0⟩]⟩,
  ⟨0xe040,1,0,1,0,[⟨0,1,.rw,0,0⟩]⟩,
  ⟨0xe044,1,0,1,0,[⟨0,10,.w1c,1,0⟩, ⟨16,4,.ro,0,0⟩, ⟨24,4,.w1c,0,0⟩]⟩,
  ⟨0xe048,1,0,1,0,[⟨0,32,.ro,1,0⟩]⟩,
  ⟨0xe080,1,0,1,0,[⟨0,1,.w1s,0,0⟩, ⟨1,16,.rwl,1024,0⟩, ⟨17,1,.rwl,0,0⟩]⟩,
  ⟨0xe084,1,0,1,0,[⟨0,16,.wo,0,0⟩]⟩]
def RegMap.pwr1 : List RegDef := [
  ⟨0xe088,1,0,1,0,[⟨0,16,.ro,0,0⟩]⟩,
  ⟨0xe0c0,1,0,1,0,[⟨0,32,.rw,0,0⟩]⟩,
  ⟨0xe0c4,1,0,1,0,[⟨0,1,.wo,0,0⟩]⟩,
  ⟨0xe400,1,0,1,0,[⟨0,32,.ro,0,0⟩]⟩,
  ⟨0xe404,1,0,1,0,[⟨0,32,.rw,0,0⟩]⟩,
  ⟨0xe420,8,4,1,0,[⟨0,32,.ro,0,0⟩]⟩,
  ⟨0xe480,1,0,1,0,[⟨0,1,.wo,0,0⟩, ⟨1,1,.wo,0,0⟩]⟩,
  ⟨0xe484,1,0,1,0,[⟨0,1,.ro,0,0⟩, ⟨1,1,.ro,0,0⟩, ⟨4,4,.ro,0,0⟩, ⟨16,9,.ro,0,0⟩]⟩,
  ⟨0xe488,1,0,1,0,[⟨0,5,.rwl,0,0⟩, ⟨5,2,.rwl,0,0⟩]⟩,
  ⟨0xe4c0,8,8,1,0,[⟨0,32,.rw,0,0⟩]⟩,
  ⟨0xe4c4,8,8,1,0,[⟨0,14,.rw,0,0⟩, ⟨20,3,.rw,0,0⟩, ⟨31,1,.rw,0,0⟩]⟩]
def RegMap.mbx0 : List RegDef := [
  ⟨0xf000,16,256,1,0,[⟨0,2,.rwl,0,0⟩, ⟨4,4,.rwl,0,0⟩, ⟨8,2,.rwl,0,0⟩, ⟨12,4,.rwl,0,0⟩, ⟨16,5,.rwl,0,0⟩, ⟨21,3,.rwl,0,0⟩, ⟨24,6,.rwl,0,0⟩]⟩,
  ⟨0xf004,16,256,1,0,[⟨0,7,.rw,0,0⟩, ⟨8,1,.w1s,0,0⟩, ⟨9,1,.wo,0,0⟩, ⟨10,1,.wo,0,0⟩, ⟨12,20,.rw,1000,0⟩]⟩,
  ⟨0xf00c,16,256,1,0,[⟨0,7,.rw,0,0⟩, ⟨8,1,.w1s,0,0⟩, ⟨9,1,.wo,0,0⟩, ⟨10,1,.wo,0,0⟩, ⟨12,20,.rw,1000,0⟩]⟩,
  ⟨0xf008,16,256,1,0,[⟨0,1,.ro,0,0⟩, ⟨1,1,.w1c,0,0⟩, ⟨2,1,.w1c,0,0⟩, ⟨3,1,.w1c,0,0⟩, ⟨4,1,.w1c,0,0⟩, ⟨8,2,.ro,0,0⟩]⟩,
  ⟨0xf010,16,256,1,0,[⟨0,1,.ro,0,0⟩, ⟨1,1,.w1c,0,0⟩, ⟨2,1,.w1c,0,0⟩, ⟨3,1,.w1c,0,0⟩, ⟨4,1,.w1c,0,0⟩, ⟨8,2,.ro,0,0⟩]⟩,
  ⟨0xf040,16,256,16,4,[⟨0,32,.rw,0,0⟩]⟩,
  ⟨0xf080,16,256,16,4,[⟨0,32,.rw,0,0⟩]⟩]
def RegMap.wdn0 : List RegDef := [
  ⟨0x10000,1,0,1,0,[⟨0,1,.ro,0,0⟩, ⟨1,1,.w1c,0,0⟩, ⟨2,1,.ro,0,0⟩, ⟨16,16,.ro,0,0⟩]⟩,
  ⟨0x10004,1,0,1,0,[⟨0,32,.rw,0,0⟩]⟩,
  ⟨0x10008,1,0,1,0,[⟨0,32,.rw,0,0⟩]⟩,
  ⟨0x10100,16,8,1,0,[⟨0,1,.rw,0,0⟩, ⟨12,12,.rw,0,0⟩]⟩,
  ⟨0x10104,16,8,1,0,[⟨0,12,.rw,0,0⟩, ⟨12,1,.rw,0,0⟩, ⟨13,3,.rw,0,0⟩]⟩]
def RegMap.key0 : List RegDef := [
  ⟨0x12000,1,0,1,0,[⟨0,2,.wo,0,0⟩, ⟨2,6,.wo,0,0⟩, ⟨8,8,.wo,0,0⟩]⟩,
  ⟨0x12004,1,0,1,0,[⟨0,1,.ro,0,0⟩, ⟨1,1,.ro,0,0⟩, ⟨2,1,.ro,0,0⟩, ⟨3,1,.ro,0,0⟩, ⟨4,1,.w1c,0,0⟩, ⟨5,1,.w1c,0,0⟩]⟩,
  ⟨0x12008,1,0,1,0,[⟨0,32,.rw,0,0⟩]⟩,
  ⟨0x12040,12,4,1,0,[⟨0,32,.rwl,0,0⟩]⟩,
  ⟨0x12100,64,4,1,0,[⟨0,32,.ro,0,0⟩]⟩]
def RegMap.dbgu0 : List RegDef := [
  ⟨0x13000,1,0,1,0,[⟨0,1,.wo,0,0⟩, ⟨1,1,.wo,0,0⟩, ⟨2,2,.rw,0,0⟩, ⟨4,2,.ro,0,0⟩, ⟨6,1,.ro,0,0⟩, ⟨7,1,.ro,0,0⟩]⟩,
  ⟨0x13010,8,4,1,0,[⟨0,32,.ro,0,0⟩]⟩,
  ⟨0x13030,1,0,1,0,[⟨0,32,.wo,0,0⟩]⟩]

/-- The registers of the 4 KiB block `b` of the key space (01 Registers, table of set-up blocks). -/
def RegMap.block (b : Nat) : List RegDef :=
  match b with
  | 0 => RegMap.dev0
  | 1 => RegMap.hrt0
  | 2 => RegMap.ring0 ++ RegMap.ring1
  | 3 => RegMap.eng0 ++ RegMap.eng1
  | 4 => RegMap.hrd0
  | 5 => RegMap.prs0
  | 6 => RegMap.port0 ++ RegMap.port1
  | 7 => RegMap.time0 ++ RegMap.time1
  | 8 => RegMap.chn0 ++ RegMap.chn1 ++ RegMap.chn2
  | 9 => RegMap.swg0 ++ RegMap.swg1
  | 10 => RegMap.lsw0
  | 11 => RegMap.tng0 ++ RegMap.tng1
  | 12 => RegMap.ing0
  | 13 => RegMap.tmp0 ++ RegMap.tmp1
  | 14 => RegMap.pwr0 ++ RegMap.pwr1
  | 15 => RegMap.mbx0
  | 16 => RegMap.wdn0
  | 18 => RegMap.key0
  | 19 => RegMap.dbgu0
  | _ => []

/-- The register table's row for key `a` (none: no register is there). -/
def RegMap.find (a : Nat) : Option RegDef := (RegMap.block (a / 0x1000)).find? (fun d => d.covers a)

/-- The reset values that belong to one instance only: HRD_PART_0 (08, Registers: the whole Hoard in partition 0) and
ING_WP_3 (17, Registers: bits 31:28 read 1). TMP_LAD_i's rung frequency and start code (18, Registers) are formulas. -/
def RegMap.special (a : Nat) : Option Nat :=
  if a = 0x4200 then some 0xF0000
  else if 0x4200 < a ∧ a ≤ 0x421C then some 0
  else if a = 0xC02C then some 0xF0000000
  else if 0xD040 ≤ a ∧ a ≤ 0xD068 then
    some ((400 + 50 * ((a - 0xD040) / 4)) + 1024 * (12 + 34 * ((a - 0xD040) / 4) / 10))
  else none

/-- The value of the register at key `a` after a reset that applies to it. -/
def RegMap.resetWord (a : Nat) : BitVec 32 :=
  match RegMap.special a with
  | some v => BitVec.ofNat 32 v
  | none =>
    match RegMap.find a with
    | none => 0
    | some d => BitVec.ofNat 32 (d.resetNat a)

end Sys2Proof.Machine
end

