-- ==== Sys2Proof/Machine/State1.lean ====
section
/-!
DEFINITION. The parts of the machine's state outside the set-up registers, block by block: plain data.
-/

namespace Sys2Proof.Machine

/-- A fault-ledger entry (R656). -/
structure LedgerEntry where
  /-- SEQ, 1 to 0xFFFF_FFFF (R657). -/
  seq : W32
  /-- CODE (R655). -/
  code : BitVec 16
  /-- UNIT, 0xFF where none (R656). -/
  unit : Byte
  /-- FLAGS: bit 0 QNCH, bit 1 MASTER (R656). -/
  flags : Byte
  /-- TIME: the time base in ns at detection (R658). -/
  time : BitVec 64
  /-- TICK: low 32 bits of the tick number at detection (R656). -/
  tick : W32
  /-- DETAIL, bytes 20 to 31, byte 20 lowest. -/
  detail : BitVec 96
deriving DecidableEq, Repr

/-- One open level of the hardware loops (R164). -/
structure LoopLevel where
  /-- LS: the first address of the body (R210). -/
  ls : W32
  /-- LE: the end address (R164, R165). -/
  le : W32
  /-- LC: iterations left, this one included (R165). -/
  lc : BitVec 16
deriving DecidableEq, Repr

/-- One register context of an engine (06, Registers of one context). -/
structure Ctx where
  /-- D0 to D15. -/
  d : Vector W32 16
  /-- A0 to A7 (R158). -/
  a : Vector (BitVec 16) 8
  /-- BNK0 to BNK3 (R161). -/
  bnk : Vector (BitVec 16) 4
  /-- LEN0 to LEN7 (R162). -/
  len : Vector (BitVec 16) 8
  /-- M0 to M3, 72 bits (R215). -/
  m : Vector (BitVec 72) 4
  /-- Open loop levels, innermost first; LDEPTH is the length. -/
  loops : List LoopLevel
  /-- Return stack, newest first; RDEPTH is the length. -/
  rstk : List (BitVec 18)
  /-- FLG: Z, N, C, V, AZ, AN, SAT in bits 0 to 6 (R199). -/
  flg : W32
  /-- EVS: what entered the event task (R178). -/
  evs : W32
  /-- TCAUSE: the cause of the last trap (R182, R230). -/
  tcause : W32
  /-- TPC: the address of the trapping instruction (R182). -/
  tpc : W32
  /-- The address of the next instruction (R197). -/
  pc : W32
deriving DecidableEq, Repr

/-- DESIGN CHOICE, log entry 9. -/
def Ctx.zero : Ctx :=
  { d := Vector.replicate 16 0, a := Vector.replicate 8 0, bnk := Vector.replicate 4 0, len := Vector.replicate 8 0,
    m := Vector.replicate 4 0, loops := [], rstk := [], flg := 0, evs := 0, tcause := 0, tpc := 0, pc := 0 }

/-- The two kinds of task (02, Tasks and budgets). -/
inductive TaskKind where
  | phase
  | event
deriving DecidableEq, Repr

/-- A budget entry of one engine (09, BUDGET entry). -/
structure TaskDef where
  /-- Task slot 0 to 31. -/
  slot : Nat
  /-- Phase or event (R46, R47). -/
  kind : TaskKind
  /-- Strike-marked (R61). -/
  strike : Bool
  /-- An aligned event task (R174). -/
  aligned : Bool
  /-- The input that activates it (R170). -/
  input : Nat
  /-- W: cycles at 400 MHz. -/
  w : Nat
  /-- Declared activations per tick. -/
  act : Nat
  /-- Entry address in instruction words. -/
  entry : Nat
deriving DecidableEq, Repr

/-- An instruction that accesses memory, as a stalled engine holds it (R205, R217). -/
inductive MemOp where
  | ld (d : Fin 16) (a : Fin 8) (sz : Fin 4) (pm sx : Bool) (disp : BitVec 15)
  | st (d : Fin 16) (a : Fin 8) (sz : Fin 4) (pm : Bool) (disp : BitVec 15)
  | luti (d : Fin 16) (a : Fin 8) (s l : Fin 16) (f : BitVec 5) (half : Bool)
deriving DecidableEq, Repr

/-- The access of a miss: its offset and length in the Hoard, the bytes of a store, and its answer when it has been performed before a later
direct access to the line (R260). -/
structure MissAccess where
  /-- Offset in the Hoard. -/
  o : Nat
  /-- Length in bytes. -/
  n : Nat
  /-- The bytes of a store. -/
  w : Option (List Byte)
  /-- What it was answered. -/
  got : Option (List Byte)
deriving DecidableEq, Repr

/-- What the current instruction of a task waits for. -/
inductive Stall where
  | none
  /-- RD (rdx false) or RDX to the Hoard directory for a line (R257); `hv` is HAVE (R258). -/
  | miss (op : MemOp) (line : Nat) (rdx hv : Bool) (a : MissAccess)
  /-- A Chain remote access under a tag (R406, R408). -/
  | remote (op : MemOp) (tag : Nat)
  /-- A read of host memory through a translation entry (R132, R135); `lost`: a reset of the function discards what still arrives (R144). -/
  | hostRead (op : MemOp) (lost : Bool)
  /-- WAITT: the target time in ns (R223). -/
  | waitt (t : BitVec 64)
  /-- WFE: the mask without bound inputs, and the destination (R220). -/
  | wfe (mask : BitVec 64) (d : Fin 16)
  /-- An aligned entry, prepared, waiting for edge E + DLY: the TIME edges still to come (R174). -/
  | aligned (left : Nat)
deriving DecidableEq, Repr

/-- A task that is current or preempted. -/
structure Run where
  /-- Task slot. -/
  slot : Nat
  /-- Phase or event. -/
  kind : TaskKind
  /-- Strike-marked (R61). -/
  strike : Bool
  /-- Budget clock in TIME cycles (R48). -/
  clock : Nat
  /-- What the current instruction waits for. -/
  stall : Stall
  /-- No instruction of this activation has issued yet. -/
  first : Bool
  /-- For an on-time aligned entry: the time base in ns on edge E + DLY (R177). -/
  entry : Option (BitVec 64)
  /-- A trap handler is running (R182), after a resumable cause or not (R183). -/
  handler : Option Bool
  /-- Entries already read by a LUTI that was interrupted (R175). -/
  lutGot : List (Nat × Nat)
  /-- A trap to take when the phase task resumes (R175). -/
  trap : Option Nat
deriving DecidableEq, Repr

/-- An emit-queue entry (R226, R227); `live` while the activation that posted it has not ended. -/
structure EmitEntry where
  /-- The task that posted it. -/
  slot : Nat
  /-- Its kind. -/
  kind : TaskKind
  /-- Its activation has not ended (R56). -/
  live : Bool
  /-- A set-up write (offset, value) or a transmit request (address, control word). -/
  tx : Bool
  /-- Offset of the write (R226), or address of the frame (R227). -/
  a : W32
  /-- Value of the write, or control word of the request. -/
  v : W32
deriving DecidableEq, Repr

/-- A committed cyclic transmit request (R228). -/
structure CycReq where
  /-- The task whose request it is. -/
  slot : Nat
  /-- The MAC or CAN controller. -/
  port : Nat
  /-- Address of the frame. -/
  addr : W32
  /-- Control word (R227). -/
  ctl : W32
deriving DecidableEq, Repr

/-- One logical engine. -/
structure Eng where
  /-- The phase context (R160). -/
  ph : Ctx
  /-- The event context (R160). -/
  ev : Ctx
  /-- The engine's budget table, from the images loaded (R291, 09, BUDGET). -/
  tasks : List TaskDef
  /-- The task that is current. -/
  cur : Option Run
  /-- The phase task an event task preempts. -/
  pre : Option Run
  /-- Slots of the phase tasks still to start in this Compute, ascending. -/
  todo : List Nat
  /-- Inputs whose activation was deferred to the next tick (R51). -/
  deferred : BitVec 64
  /-- Activations of each event slot charged to this tick (R51, R52). -/
  charged : List (Nat × Nat)
  /-- The pending bits of inputs 0 to 63 (R169). -/
  pend : BitVec 64
  /-- Inputs that registered since the latest TIME edge while the engine could count as free at it (R192). -/
  fresh : BitVec 64
  /-- The emit queue, oldest first, at most 64 entries (R56, R59). -/
  emitq : List EmitEntry
  /-- Cyclic requests in force (R228). -/
  cyc : List CycReq
  /-- Phase slots that ended within budget since the last commit, with whether they posted. -/
  endedOk : List Nat
  /-- Consecutive ticks in which a Strike task overran, by slot (R61), and the slots that overran in this tick. -/
  overruns : List (Nat × Nat)
  /-- Slots that overran in this tick (R61). -/
  overNow : List Nat
  /-- Slots whose cyclic requests are sent again at the next Emit (R57, R228). -/
  resend : List Nat
  /-- Halted (R188, R189). -/
  halted : Bool
  /-- HALT is set and the halt has still to come (R188). -/
  haltReq : Bool
  /-- In ENGINE reset (R186). -/
  inReset : Bool
  /-- A reset ended and no Compute has started since (R187). -/
  holdOff : Bool
deriving DecidableEq, Repr

/-- DESIGN CHOICE, log entry 9. -/
def Eng.zero : Eng :=
  { ph := Ctx.zero, ev := Ctx.zero, tasks := [], cur := none, pre := none, todo := [], deferred := 0, charged := [], pend := 0, fresh := 0,
    emitq := [], cyc := [], endedOk := [], overruns := [], overNow := [], resend := [], halted := false, haltReq := false, inReset := true,
    holdOff := true }

/-- A line of a core's data cache (R152, R257): `own` is state O, else S; `parity` marks a parity error. -/
structure CacheLine where
  /-- Line number: Hoard offset / 64. -/
  line : Nat
  /-- State O, else S (R257). -/
  own : Bool
  /-- 64 bytes. -/
  data : List Byte
  /-- A parity error (R153, R261). -/
  parity : Bool
deriving DecidableEq, Repr

/-- A directory entry (08, Coherence); INVALID entries are not listed. -/
inductive DirEntry where
  | shared (cores : List Nat)
  | owned (core : Nat)
deriving DecidableEq, Repr

/-- A message of a core on its ordered channel to the directory (R259): a write-back of an OWNED line, or a snoop answer: DATA
with the line when the copy was O (`held` true), or GONE. -/
inductive ChanMsg where
  /-- A write-back; `bad`: the dirty line had a parity error (R261). -/
  | wb (line : Nat) (data : List Byte) (bad : Bool)
  | answer (line : Nat) (held : Bool) (data : Option (List Byte))
deriving DecidableEq, Repr

/-- An open transaction on a line: an engine's RD or RDX that waits for snooped cores (R257 to R261). -/
structure LineTxn where
  /-- Line number. -/
  line : Nat
  /-- The engine that asked. -/
  eng : Fin 16
  /-- RDX, else RD (R257). -/
  rdx : Bool
  /-- Snoops under way to cores, INV (true) or SHARE. -/
  snoops : List (Nat × Bool)
  /-- Cores whose answer has still to reach the directory. -/
  await : List Nat
  /-- The line's data, once a WB or DATA has brought it. -/
  data : Option (List Byte)
deriving DecidableEq, Repr

/-- A migration in progress (R265 to R267). -/
structure Migration where
  /-- The logical bank that is copied (R265). -/
  bank : Nat
  /-- The spare it is copied to. -/
  spare : Nat
  /-- The last word is copied (R267). -/
  copied : Bool
  /-- Words of the bank copied so far. A write below it is performed in both physical banks, so both hold what the Hoard's memory holds
  there; a write from it on in the old bank only (R266). -/
  pos : Nat
deriving DecidableEq, Repr

/-- An active partition (R240): base and size in 64 KiB units, and kind. -/
structure Part where
  /-- BASE in 64 KiB units. -/
  base : Nat
  /-- SIZE in 64 KiB units. -/
  size : Nat
  /-- KIND, 1 to 7 (R241). -/
  kind : Nat
deriving DecidableEq, Repr

/-- The Hoard outside its registers and contents. -/
structure Hoard where
  /-- The active layout (R240, R241). -/
  parts : List Part
  /-- The directory: lines that cores hold, by line (R257). -/
  dir : List (Nat × DirEntry)
  /-- The data caches of cores 0 to 17, most recently used first (R152). -/
  caches : Vector (List CacheLine) 18
  /-- Open transactions, one a line (R257, R260). -/
  txns : List LineTxn
  /-- The ordered channel of each core to the directory, oldest first. -/
  chan : Vector (List ChanMsg) 18
  /-- Engines waiting behind an open transaction on a line, in arrival order (R260). -/
  waiting : List (Nat × Fin 16)
  /-- The migration in progress, at most one (R265 to R267). -/
  migs : List Migration
  /-- Banks whose migration waits (R265, R268). -/
  migWait : List Nat
  /-- Physical banks that a completed migration has switched OFF (R267). -/
  physOff : List Nat
  /-- Where the scrubber goes on, per bank (word index). -/
  scrub : Vector Nat 32
  /-- The state the transition in progress leads to (R254, R276). -/
  transTo : Vector (Option Nat) 32
  /-- The round-robin pointer of every bank's arbiter, a requester 0 to 26 (R22, R243). -/
  rr : Nat
  /-- The round-robin pointer of every port-buffer bank's arbiter, a requester 0 to 27 (R22, R249). -/
  rrBuf : Nat
deriving DecidableEq, Repr

/-- A ring descriptor's place, for its completion (04): ring, index, generation. -/
structure RingRef where
  /-- Ring number. -/
  ring : Nat
  /-- Index in the ring. -/
  idx : Nat
  /-- Generation. -/
  gen : Nat
  /-- TAG of the descriptor. -/
  tag : W32
deriving DecidableEq, Repr

/-- One IEEE 802.1CB stream of a personality: the number the next inserted tag carries, and the vector recovery's variables (R343).
PRESUMED, log entry 69. -/
structure CbStream where
  /-- GenSeqNum: the sequence number of the next tag. -/
  gen : Nat
  /-- RecovSeqNum: the newest sequence number accepted. -/
  recov : Nat
  /-- SequenceHistory, newest first. -/
  hist : List Bool
  /-- TakeAny: the next frame is accepted whatever its number. -/
  takeAny : Bool
deriving DecidableEq, Repr

def CbStream.zero : CbStream := { gen := 0, recov := 0, hist := [], takeAny := true }

/-- Where a load takes its file from (R282). -/
inductive LoadSrc where
  /-- A descriptor chain's buffers, which hold exactly these bytes. -/
  | chain (file : List Byte)
  /-- The Ingot, from this offset on. -/
  | ingot (off : Nat)
  /-- The boot SPI flash, from offset `off` on: what it answers to an SFDP read, and what it holds there. -/
  | flash (sfdp : List Byte) (off : Nat) (file : List Byte)
deriving DecidableEq, Repr

/-- One personality slot (09). -/
structure Slot where
  /-- Bytes of the file that have come and that the loader has still to take, for a load in FRAME mode. -/
  file : List Byte
  /-- Stream bytes checked (FRAME) or staged (SEALED), in order. -/
  stream : List Byte
  /-- The descriptor the load completes (R282). -/
  req : Option RingRef
  /-- Admission has passed (R291). -/
  admitted : Bool
  /-- BIND entries: type, index, bytes 2 to 7. -/
  binds : List (Nat × Nat × List Byte)
  /-- BUDGET entries: engine and task. -/
  budget : List (Nat × TaskDef)
  /-- Least tick period of the image (R36, 09, header). -/
  mintick : Nat
  /-- FORGE clock of the image (R297). -/
  fclk : Nat
  /-- Anti-rollback counter of the image, 255 none. -/
  arb : Nat
  /-- PRS_UNLOADs that wait, oldest first (R307). -/
  unload : List RingRef
  /-- WAIT_DONE has been passed; the step after it waits for a Gather start at or after this time in ns (R301). -/
  passed : Bool
  /-- The Gather start that WAIT_DONE waits for, ns (R301). -/
  after : Option Nat
  /-- The IEEE 802.1CB streams it has used (R343). -/
  cb : List (Nat × CbStream)
  /-- The load came from boot autoload (R285). -/
  boot : Bool
  /-- For a load in FRAME mode: where the rest of the file comes from, and the file's length (R282, R287). -/
  src : Option (LoadSrc × Nat)
deriving DecidableEq, Repr

def Slot.empty : Slot :=
  { file := [], stream := [], req := none, admitted := false, binds := [], budget := [], mintick := 0, fclk := 0, arb := 255,
    unload := [], passed := false, after := none, cb := [], boot := false, src := none }

/-- What the loader has found in the boot SPI flash's SFDP header (R284). -/
structure SpiFlash where
  /-- Density in bytes; none without the signature. -/
  density : Option Nat
  /-- Address bytes of a read. -/
  width : Nat
  /-- The read command. -/
  cmd : Nat
  /-- SPI_CLK in kHz. -/
  khz : Nat
deriving DecidableEq, Repr

/-- A load request (R282): its slot, its source, and the descriptor it completes. -/
structure LoadReq where
  /-- The personality slot. -/
  slot : Nat
  /-- The source. -/
  src : LoadSrc
  /-- The descriptor it completes; none for the boot autoload. -/
  req : Option RingRef
deriving DecidableEq, Repr

/-- The personality loader and the Forge tiles outside registers and memory. -/
structure Prs where
  /-- The three personality slots. -/
  slots : Vector Slot 3
  /-- The slot whose load is in progress (R283). -/
  active : Option (Fin 3)
  /-- Loads that wait, oldest first (R283). -/
  waiting : List LoadReq
  /-- Bits of tile frames that differ from what was configured: tile, frame, bit (R304, R305). -/
  upsets : List (Nat × Nat × Nat)
  /-- Readback: the tile (R303). -/
  rbTile : Nat
  /-- Readback: the next frame (R303). -/
  rbFrame : Nat
  /-- Readback: CRC-32C of the frames so far (R304). -/
  rbCrc : W32
  /-- DONE as the pin stands, and whether the 1.0 us of sampling high runs (R301). -/
  donePin : Bool
  /-- The 1.0 us of sampling high runs (R301). -/
  doneRising : Bool
  /-- When DONE was last accepted as high, ns (R301). -/
  doneAt : Nat
  /-- Boot autoload has started and not ended (R285). -/
  booting : Bool
  /-- What the boot SPI flash's SFDP header gave; none before the loader's first read from it (R284). -/
  spi : Option SpiFlash
deriving DecidableEq, Repr

/-- The Hoard at reset: one partition of kind 7 over all of it (08, HRD_PART). -/
def Hoard.zero : Hoard :=
  { parts := [{ base := 0, size := 256, kind := 7 }], dir := [], caches := Vector.replicate 18 [], txns := [], chan := Vector.replicate 18 [],
    waiting := [], migs := [], migWait := [], physOff := [], scrub := Vector.replicate 32 0,
    transTo := Vector.replicate 32 none, rr := 0, rrBuf := 0 }

def Prs.zero : Prs :=
  { slots := Vector.replicate 3 Slot.empty, active := none, waiting := [], upsets := [], rbTile := 0, rbFrame := 0, rbCrc := 0,
    donePin := false, doneRising := false, doneAt := 0, booting := false, spi := none }

end Sys2Proof.Machine
end

