-- ==== Sys2Proof/Machine/State2.lean ====
section
/-!
DEFINITION. The parts of the state outside the set-up registers: rings, ports, video, CAN, the PCIe endpoint.
-/

namespace Sys2Proof.Machine

/-- What a host-memory read is for. -/
inductive ReadFor where
  | doorbell
  | desc (ring : Nat)
  | data (ring idx : Nat)
  | xlat (eng : Fin 16)
deriving DecidableEq, Repr

/-- A consumed descriptor of a ring, from CDONE on (04, Descriptor; R663). -/
structure Desc where
  /-- Index in the ring. -/
  idx : Nat
  /-- Generation (R91). -/
  gen : Nat
  /-- Buffer address. -/
  addr : BitVec 64
  /-- LENGTH. -/
  len : Nat
  /-- FIRST (R101). -/
  first : Bool
  /-- LAST (R101). -/
  last : Bool
  /-- IRQ (R111). -/
  irq : Bool
  /-- HASFCS: the frame carries its FCS (R318). -/
  hasFcs : Bool
  /-- Opcode (R102). -/
  opcode : Nat
  /-- Class of byte 14 (R68). -/
  cls : Nat
  /-- Target of the opcode. -/
  target : Nat
  /-- TTICK (R100). -/
  ttick : Nat
  /-- TAG, copied to the completion (R107). -/
  tag : W32
  /-- OPX. -/
  opx : BitVec 64
  /-- The buffer's bytes, once read. -/
  data : Option (List Byte)
  /-- The tick whose start lets the work start (R100), and the tick k of R69. -/
  k : Nat
  /-- Its target tick was past when it was seen (R82, R100). -/
  late : Bool
  /-- The tick whose doorbell block read first shows the descriptor (R69). -/
  kdb : Nat
  /-- Its work has started (R100, R116). -/
  started : Bool
  /-- PROGRESS so far (R109). -/
  prog : Nat
  /-- A class-7 frame sent as class 6 (R73, R110). -/
  demoted : Bool
  /-- The work has ended: STATUS, the 16 bits of LEDGER, the 32 bits of TIME. -/
  res : Option (Nat × Option (BitVec 16) × Option W32)
  /-- The completion record has been written. -/
  written : Bool
  /-- FENCE: descriptors it waits for, as ring, index, generation: those consumed before it (R102). -/
  wait : List (Nat × Nat × Nat)
  /-- FIRST and LAST of the completion, where a frame or an access unit sets them, not the descriptor. -/
  flags : Option (Bool × Bool) := none
  /-- Its data read has failed behind the bytes of `data` (R115). -/
  short : Bool := false
deriving DecidableEq, Repr

/-- One ring outside its registers. -/
structure Ring where
  /-- Ring kind at the last enable (R661, KIND of the residue entry). -/
  kind : Nat
  /-- Consumer index and generation (EVT: producer index and generation). -/
  ci : Nat
  /-- Generation of CIDX (R92). -/
  gen : Nat
  /-- Entries announced and not consumed (R92). -/
  out : Nat
  /-- Of the announced entries, how many the read of which tick first showed, oldest first (R69). -/
  shown : List (Nat × Nat)
  /-- Descriptor reads issued and not arrived. -/
  fetching : Nat
  /-- Descriptor reads issued since the tick began (BURST). -/
  fetched : Nat
  /-- The chain whose LAST has still to be consumed: index and generation of its FIRST. -/
  chainAt : Option (Nat × Nat)
  /-- The STATUS and LEDGER that chain will complete with (R103, R115, R116). -/
  chainBad : Option (Nat × Option (BitVec 16))
  /-- EVT: newest ledger SEQ when the ring was enabled (R659). -/
  mark : Nat
  /-- MASK of the doorbell entry (R111). -/
  mask : Bool
  /-- The enable checks passed and a Gather has come since (R88). -/
  live : Bool
  /-- An EVT entry was dropped (R93). -/
  ovfl : Bool
  /-- EVT: the driver's read position, as last read. -/
  rp : Nat
  /-- EVT: generation of the driver's read position (R93). -/
  rg : Nat
  /-- Consumed descriptors from CDONE to CIDX - 1, in index order (R663). -/
  q : List Desc
  /-- VALID of the residue entry (R664). -/
  valid : Bool
  /-- LSEQ of the residue entry: SEQ of the last ledger entry that names this ring or its work (R661). -/
  lseq : W32
  /-- A reset of N2 has struck and the ring has not been enabled since (R662). -/
  frozen : Bool
  /-- STAT.ERR as it stood at that reset. -/
  err : Bool
  /-- RING_n_START has been written since the last enable (R120). -/
  restarted : Bool
  /-- The tick in whose Gather the ring was disabled last (R123). -/
  offAt : Option Nat
deriving DecidableEq, Repr

def Ring.zero : Ring :=
  { kind := 0, ci := 0, gen := 0, out := 0, shown := [], fetching := 0, fetched := 0, chainAt := none, chainBad := none, mark := 0, mask := false, live := false, ovfl := false, rp := 0, rg := 0,
    q := [], valid := false, lseq := 0, frozen := false, err := false, restarted := false, offAt := none }

/-- A received frame for the host that the Gather in progress has still to write (R75, R106). -/
structure HostFrame where
  /-- Port 0 to 7. -/
  port : Nat
  /-- Traffic class. -/
  cls : Nat
  /-- Bytes, FCS included. -/
  bytes : List Byte
  /-- TIME of its completion (R109). -/
  time : W32
deriving DecidableEq, Repr

/-- The host interface outside the rings' own state (04). -/
structure HostIf where
  /-- Rings 0 to 63 (R87). -/
  rings : Vector Ring 64
  /-- A doorbell block read is in flight, and one more is queued (R99). -/
  dbFlight : Bool
  /-- One more doorbell read is queued behind it (R99). -/
  dbQueued : Bool
  /-- The SEQ_HEAD of the latest shadow block (R94). -/
  shSeq : W32
  /-- Vectors of PF0 with an event since the last shadow write began (R111). -/
  vecs : BitVec 64
  /-- The same for PF1, whose vectors only the mailboxes use (R679). -/
  vecs1 : BitVec 64
  /-- Newest ledger SEQ copied to the EVT rings (R659). -/
  evtSeq : Nat
  /-- Words 1 to 7 of the residue block (R662). -/
  resHead : Vector W32 7
  /-- The read requests of PF0 that are outstanding, at most 128 (R124). -/
  reads : List ReadFor
  /-- Frames that this Gather has still to write, class 7 ahead of every other write (R75, R95, R123). -/
  rxQ : List HostFrame
  /-- No tick runs, a doorbell block has been read, and the writes of R97 are still to come (R98). -/
  idleDue : Bool
deriving DecidableEq, Repr

def HostIf.zero : HostIf :=
  { rings := Vector.replicate 64 Ring.zero, dbFlight := false, dbQueued := false, shSeq := 0, vecs := 0, vecs1 := 0, evtSeq := 0,
    resHead := Vector.replicate 7 0, reads := [], rxQ := [], idleDue := false }

/-- Where a frame to send comes from. -/
inductive FrameSrc where
  /-- The TX ring chain from index `idx`. -/
  | ring (ring idx : Nat)
  /-- A committed transmit request of engine, slot. -/
  | fw (eng slot : Nat)
  /-- Forwarded from FP port `ingress` after store and forward, or cut through. -/
  | fwd (ingress : Nat)
  | safe (i : Nat)
  | pause
deriving DecidableEq, Repr

/-- A frame in a transmit queue or on the wire. -/
structure Frame where
  /-- Bytes from the destination address on. -/
  bytes : List Byte
  /-- The bytes end with their FCS. -/
  hasFcs : Bool
  /-- Traffic class (R321, R322). -/
  cls : Nat
  /-- Where it comes from. -/
  src : FrameSrc
  /-- Tick k of R69. -/
  k : Nat
  /-- Its bound on the time base in tenths of a ns, when one holds (R69). -/
  bound : Option Nat
  /-- Its start on the wire, ns, and whether it was sent in more than one fragment (R372). -/
  start : Nat
  /-- It was sent in more than one fragment (R372). -/
  cut : Bool
  /-- Bytes that the MAC has inserted behind the two addresses: no buffer bytes (R109, R343). -/
  ins : Nat := 0
  /-- Bytes sent in its earlier fragments (R327). -/
  sent : Nat := 0
  /-- Start of the fragment on the wire, ns (R327). -/
  seg : Nat := 0
  /-- A copy that goes out while the frame is still received (R338). -/
  cutThrough : Bool := false
  /-- Its ingress still receives it, so that its length is not known (R338). -/
  recv : Bool := false
  /-- Half duplex: its collisions so far (R315). -/
  tries : Nat := 0
  /-- Half duplex: the end of its backoff, ns (R315). -/
  retry : Option Nat := none
  /-- Behind its bytes stands an uncorrectable granule, so that it ends with the stomp code there (R263). -/
  bad : Bool := false
deriving DecidableEq, Repr

/-- A received frame in its region of the port buffers (R319). -/
structure RxFrame where
  /-- Bytes, FCS included. -/
  bytes : List Byte
  /-- Traffic class (R321). -/
  cls : Nat
  /-- Time base in ns at its last byte and at its start of frame. -/
  t : Nat
  /-- Time base in ns at its start of frame (R320, R373). -/
  sof : Nat
  /-- Gather starts since it was handed to an engine task. -/
  handed : Option Nat
  /-- Egress ports it waits to be sent on (R338). -/
  fwd : List Nat
  /-- It has a consumer on this port that is still to take it. -/
  own : Bool
  /-- The personality that owns the port delivers it to the host (R106). -/
  toHost : Bool := false
  /-- Where its first byte stands in the region (R319). -/
  pos : Nat := 0
  /-- The low 32 bits of its receive time (R371, R373). -/
  time : W32 := 0
  /-- The host takes it, and its RX write has still to complete (R319). -/
  due : Bool := false
deriving DecidableEq, Repr

/-- A frame being forwarded cut through (R338). -/
structure CutThrough where
  /-- Egress ports it is being sent on. -/
  egress : List Nat
  /-- Egress ports that wait for their wire (R338). -/
  held : List Nat
  /-- Its check failed, or a tile cut it (R339, R356). -/
  stomped : Bool
  /-- It has reached byte 1,519, which PORT_n_DROP.LEN counts once (R341). -/
  long : Bool := false
deriving DecidableEq, Repr

/-- One Ethernet MAC outside its registers. -/
structure Port where
  /-- Frames that join their queues at the next Emit start (R105). -/
  stage : List Frame
  /-- The class queues as one list, in the order in which frames joined (R322). -/
  q : List Frame
  /-- The frame on the wire. -/
  wire : Option Frame
  /-- The frame whose fragments wait (R327). -/
  preempted : Option Frame
  /-- Received frames that still have a consumer (R319, R321). -/
  rx : List RxFrame
  /-- Time base in ns at the last SFD (R320). -/
  sof : Nat
  /-- The frame forwarded cut through (R338). -/
  ct : Option CutThrough
  /-- Operational gate list: states and duration in 10 ns; the entry in force. -/
  gates : List (Nat × Nat)
  /-- The entry of the gate list in force (R329). -/
  gateIdx : Nat
  /-- The tick at whose start a COMMIT applies (R328, R358). -/
  commitAt : Option Nat
  /-- Credits of classes 1 and 2 in 10^-4 bit, as they stood at `creditT`. -/
  credit1 : Int
  /-- Credit of class 2 (R332). -/
  credit2 : Int
  /-- The time, ns, at which the credits stood so. -/
  creditT : Nat
  /-- End of a received PAUSE hold in ns (R334). -/
  pauseEnd : Option Nat
  /-- A PAUSE with non-zero time has been sent and not ended (R336). -/
  xoff : Bool
  /-- Verification attempts of preemption (R325). -/
  vtries : Nat
  /-- Class-7 frames and bytes counted to a tick: tick, frames, bytes (R324). -/
  used7 : List (Nat × Nat × Nat)
  /-- Every condition of R77 has held since a Gather start (R78). -/
  held : Bool
  /-- So has every condition that concerns firmware frames, which condition 8 does not (R77, R83). -/
  heldFw : Bool
  /-- Where the next received byte goes in the region (R319). -/
  rxAt : Nat
  /-- Half duplex: a frame is being received, so that the transmitter defers (R315). -/
  rxBusy : Bool
  /-- When the MAC last asked for a PAUSE, ns (R336). -/
  pauseSent : Nat
deriving DecidableEq, Repr

def Port.zero : Port :=
  { stage := [], q := [], wire := none, preempted := none, rx := [], sof := 0, ct := none, gates := [], gateIdx := 0,
    commitAt := none, credit1 := 0, credit2 := 0, creditT := 0, pauseEnd := none, xoff := false, vtries := 0, used7 := [],
    held := false, heldFw := false, rxAt := 0, rxBusy := false, pauseSent := 0 }

/-- An access unit of a video stream (R344 to R348). -/
structure AccessUnit where
  /-- Its length in byte-stream form (R345). -/
  len : Nat
  /-- The 4 KiB pages that hold its bytes, in order, by Hoard offset (R347). -/
  pgs : List Nat
  /-- A packet was lost (R346). -/
  loss : Bool
  /-- It ended without a marker (R346). -/
  nomark : Bool
  /-- It holds an IDR or IRAP picture (FLAGS bit 3). -/
  irap : Bool
  /-- NAL units so far. -/
  nals : Nat
  /-- RTP timestamp. -/
  ts : W32
  /-- First sequence number. -/
  seq0 : Nat
  /-- Last sequence number. -/
  seq1 : Nat
  /-- Packets. -/
  pkts : Nat
  /-- Time base in ns at its first packet. -/
  t0 : Nat
  /-- Time base in ns at its last packet. -/
  tend : Nat
  /-- SSRC. -/
  ssrc : W32
deriving DecidableEq, Repr

/-- One video stream. -/
structure Video where
  /-- The access unit in progress. -/
  cur : Option AccessUnit
  /-- Complete access units, oldest first (R348). -/
  ready : List AccessUnit
  /-- The sequence number that should come next (R346). -/
  expect : Option Nat
  /-- Discard until a fragment with the start bit (R346), or until the next AU begins (R347). -/
  skipFrag : Bool
  /-- Discard until the next access unit begins (R347). -/
  skipAu : Bool
  /-- The timestamp of the access unit that is discarded (R347). -/
  skipTs : Option W32
  /-- Pages of access units whose copy to the host has still to complete (R347). -/
  leaving : List Nat
deriving DecidableEq, Repr

def Video.zero : Video :=
  { cur := none, ready := [], expect := none, skipFrag := false, skipAu := false, skipTs := none, leaving := [] }

/-- One CAN FD controller: the queue, the frame on the bus, and whether bus-off recovery is counting (R351). -/
structure Can where
  /-- Host frames that join the queue at the start of Emit(k) (R105). -/
  stage : List Frame
  /-- Frames waiting, oldest first (R351). -/
  q : List Frame
  /-- The frame on the bus. -/
  wire : Option Frame
  /-- Received frames that wait for their consumer (R106). -/
  rx : List RxFrame
  /-- Bus-off recovery is counting (R351). -/
  recovering : Bool
deriving DecidableEq, Repr

def Can.zero : Can := { stage := [], q := [], wire := none, rx := [], recovering := false }

/-- Configuration state of one PCIe function (05). -/
structure PciFn where
  /-- Memory Space Enable. -/
  mse : Bool
  /-- Bus Master Enable (R131). -/
  bme : Bool
  /-- D3hot (R146). -/
  d3 : Bool
  /-- An FLR is in progress (R144). -/
  flr : Bool
  /-- Max_Read_Request_Size in bytes. -/
  mrrs : Nat
  /-- MSI-X Enable. -/
  msixEn : Bool
  /-- Function mask of MSI-X (R112). -/
  msixMask : Bool
  /-- BAR0 as written, size bits applied (R128). -/
  bar0 : W32
  /-- BAR2 and BAR3 as written, size bits applied (R128, R129). -/
  bar2 : BitVec 64
  /-- BAR4 as written, size bits applied (R128). -/
  bar4 : W32
  /-- MSI-X table: address, data, mask per vector. -/
  tbl : List (Nat × (BitVec 64 × W32 × Bool))
  /-- MSI-X pending bits (R112). -/
  pba : BitVec 64
  /-- AER reports, newest first (R126). -/
  aer : List Nat
  /-- Max_Payload_Size in bytes, at most 512 (R124). -/
  mps : Nat
  /-- Device Control: error reporting enables in bits 3:0, Extended Tag Field Enable in bit 8. -/
  devCtl : Nat
  /-- Link Control: ASPM L1 enable in bit 1, Common Clock Configuration and Extended Synch in bits 6 and 7; L0s is not supported (R124). -/
  lnkCtl : Nat
  /-- Device Control 2: completion timeout value in bits 3:0, disable in bit 4 (R124). -/
  cto : Nat
  /-- ECRC generation and checking are enabled: bits 0 and 1 (R124). -/
  ecrc : Nat
  /-- Uncorrectable Error Mask, Uncorrectable Error Severity, Correctable Error Mask. -/
  aerCfg : W32 × W32 × W32
  /-- First Error Pointer. -/
  firstErr : Nat
  /-- The 4-DW header log (R124). -/
  hdrLog : List W32
deriving DecidableEq, Repr

/-- PRESUMED, log entry 50. -/
def PciFn.dflt : PciFn :=
  { mse := false, bme := false, d3 := false, flr := false, mrrs := 512, msixEn := false, msixMask := false, bar0 := 0, bar2 := 0,
    bar4 := 0, tbl := [], pba := 0, aer := [], mps := 128, devCtl := 0x100, lnkCtl := 0, cto := 0, ecrc := 0, aerCfg := (0, 0x00462030, 0x2000), firstErr := 0,
    hdrLog := [0, 0, 0, 0] }

/-- A function after a reset; an FLR keeps Max_Payload_Size and Link Control (PCIe 4.0). PRESUMED, log entry 50. -/
def PciFn.afterReset (f : PciFn) (flr : Bool) : PciFn :=
  if flr then { PciFn.dflt with flr := true, mps := f.mps, lnkCtl := f.lnkCtl } else PciFn.dflt

/-- The PCIe endpoint. -/
structure Pcie where
  /-- Function 0. -/
  pf0 : PciFn
  /-- Function 1. -/
  pf1 : PciFn
  /-- The set-up space is ready: configuration requests are served (R143). -/
  ready : Bool
deriving DecidableEq, Repr

def Pcie.zero : Pcie := { pf0 := PciFn.dflt, pf1 := PciFn.dflt, ready := false }

end Sys2Proof.Machine
end

