-- ==== Sys2Proof/Machine/State3.lean ====
section
/-!
DEFINITION. The parts of the state outside the set-up registers: the Hearth, the time base's steering, the Chain.
-/

namespace Sys2Proof.Machine

/-- The Hearth outside the HRT registers (02). -/
structure Hearth where
  /-- Start checks have passed and no tick has started (R736). -/
  armed : Bool
  /-- RUN was written to 0; the tick stops at the end of its Settle (R62, R63). -/
  stopping : Bool
  /-- Nominal start of the tick in progress, ns. -/
  nominal : Nat
  /-- Added to the Settle of the tick in progress, ns (R39, R41). -/
  lengthen : Nat
  /-- The grid has moved: the next tick is lengthened to it (R41). -/
  regrid : Bool
  /-- A point of the nominal grid, ns. -/
  grid : Nat
  /-- Tick starts since the source last delivered (R40). -/
  missed : Nat
  /-- An edge has been accepted in the window of the current nominal start (R39). -/
  taken : Bool
  /-- Time of the accepted edge whose tick has not started, ns. -/
  edge : Option Nat
  /-- Source lost: free running until the realigned grid (R40). -/
  free : Bool
  /-- Start of the last Emit, ns (R69). -/
  emitAt : Nat
  /-- The level of SYNC_OUT (R43). -/
  syncOut : Bool
deriving DecidableEq, Repr

/-- Steering of the time base (11). -/
structure TimeCtl where
  /-- Slew remainder in 2^-28 ns (R364), and its rate in ppm. -/
  rem : Int
  /-- Rate of the slew in progress, ppm (R364). -/
  rate : Nat
  /-- The time base before its latest TIME edge, ns (R236). -/
  prev : Nat
  /-- Accepted steps not yet applied, in order: delta in ns, and the grant's number and descriptor (R365, R368). -/
  steps : List (Int × Option (Nat × RingRef))
  /-- The number TIME_REFNUM has been granted (R368). -/
  granted : Bool
  /-- A request has been refused since the grant was accepted. -/
  refusedSince : Bool
deriving DecidableEq, Repr

/-- An ET or MGMT cell that waits for a link's output (R413). -/
structure QCell where
  /-- Its source: input link 0 to 3, or 4 for this device. -/
  src : Nat
  /-- Tagged Strike (R20). -/
  strike : Bool
  /-- The cell. -/
  cell : Cell
  /-- It ends with the stomp code (R390). -/
  stomp : Bool
  /-- The engine whose SEVR sends it (R222). -/
  eng : Option Nat := none
deriving DecidableEq, Repr

/-- One Chain link outside its registers. -/
structure Link where
  /-- Payload of the latest valid HELLO (R393). -/
  hello : List Byte
  /-- UID the link was brought up with (R387). -/
  uid : BitVec 64
  /-- Credits held, by channel × 8 + hop class (R411). -/
  credits : List Nat
  /-- ET and MGMT cells waiting for the output, in arrival order (R413). -/
  q : List QCell
  /-- Source last granted on the request and on the response channel; 5 none. -/
  last0 : Nat
  /-- Source last granted on the response channel; 5 none (R413). -/
  last1 : Nat
  /-- Training failed; the link retries after 1 ms (R386). -/
  retry : Bool
  /-- Send time of a DLYREQ not answered (R436). -/
  dly : Option Nat
  /-- Every condition of R77 has held since a Gather start. -/
  held : Bool
  /-- The time in ns from which they have held: the start of that Gather (R78, R83). -/
  heldAt : Nat
deriving DecidableEq, Repr

/-- An open mode proposal on the manager (R450): the tick it belongs to, the devices that are READY, the first NO and its reason,
the CHN_MODE descriptor, and whether a route COMMIT has spoilt it (R460). -/
structure Proposal where
  /-- The mode proposed. -/
  mode : Nat
  /-- The tick in which it was made. -/
  k : Nat
  /-- PROPOSE has gone out. -/
  sent : Bool
  /-- Devices that answered READY (R451, R452). -/
  ready : List Nat
  /-- The first NO: device and reason. -/
  no : Option (Nat × Nat)
  /-- The CHN_MODE descriptor. -/
  req : Option RingRef
  /-- A route COMMIT or a STOP has spoilt it (R459, R460). -/
  abort : Bool
deriving DecidableEq, Repr

/-- A RUN cell's content that waits for its target tick (R425): 1 START, 2 STOP, 3 CRESET. -/
structure RunCmd where
  /-- 1 START, 2 STOP, 3 CRESET. -/
  cmd : Nat
  /-- The tick at whose start it acts. -/
  target : Nat
deriving DecidableEq, Repr

/-- The Chain outside its registers (12, 13). -/
structure Chain where
  /-- Links CL0 to CL3. -/
  links : Vector Link 4
  /-- Best candidate: P, UID, distance, parent link (R394). -/
  cand : Option (Nat × BitVec 64 × Nat × Option Nat)
  /-- The candidate has settled (R396). -/
  settled : Bool
  /-- TOPO reports, with the link each arrived on (R397). -/
  topos : List (Topo × Nat)
  /-- Manager: assigned IDs by UID (R399, R400). -/
  ids : List (BitVec 64 × Nat)
  /-- The ID held before (R401); 0xFF none. -/
  prevId : Nat
  /-- A ROUTE held until COMMIT: 32 entries. -/
  route : Option (List Nat)
  /-- A route commit drains the old routes (R415). -/
  draining : Bool
  /-- DRAINQ has been answered. -/
  drained : Bool
  /-- This device's own cells that wait for the limits of CHN_ETCFG, for the end of a drain or for ET traffic to open (R415, R424). -/
  wait : List QCell
  /-- Position of the round-robin pointers of the outputs (R22). -/
  rr : Nat
  /-- Manager: devices that have still to acknowledge their ROUTE. -/
  routeWait : List (BitVec 64)
  /-- Manager: devices that have still to answer DRAINQ. -/
  drainWait : List Nat
  /-- Manager: the table last sent to each device. -/
  sent : List (BitVec 64 × List Nat)
  /-- Manager: its own new table, until COMMIT. -/
  newRoutes : Option (List Nat)
  /-- Manager: the devices that it has sent a COMMIT and that have not reported on the tree since: configured ones (R397, R403). -/
  conf : List (BitVec 64)
  /-- Outstanding remote requests: tag and engine. -/
  tags : List (Nat × Fin 16)
  /-- The tag the next remote request starts its search at (R412). -/
  nextTag : Nat
  /-- Mailbox requests that await their MBXA: tag, channel, KIND (R412, R685 to R688). -/
  mtags : List (Nat × Nat × Nat)
  /-- Mailbox requests that wait for a tag: channel, KIND, Strike tag, message (R412). -/
  mwait : List (Nat × Nat × Bool × List Byte)
  /-- ET cells of this device in this tick (CHN_ETCFG). -/
  etUsed : Nat
  /-- MGMT cells of this device in this tick (CHN_ETCFG). -/
  mgmtUsed : Nat
  /-- RUN commands that wait for their target ticks, in order of arrival (R425). -/
  run : List RunCmd
  /-- Operational CHN_FIXS_j, CHN_SCFG (bits 15:0), CHN_ETCFG (R425, R426). -/
  fixs : List W32
  /-- Operational CHN_SCFG, bits 15:0 (R425, R426). -/
  scfg : W32
  /-- Operational CHN_ETCFG (R425, R426). -/
  etcfg : W32
  /-- Mode tables: mode, slot that holds it, section bytes (R428, R429). -/
  tables : List (Nat × Nat × List Byte)
  /-- The active mode's table, as it became visible with the mode; none for the empty M0 (R429). -/
  vis : Option (List Byte)
  /-- Manager: the open proposal (R450). -/
  proposal : Option Proposal
  /-- A CHN_MODE whose switch is committed, for its completion in Settle(k+2). -/
  done : Option (Nat × RingRef)
  /-- A commit held: mode and tick of the switch (R453). -/
  commit : Option (Nat × Nat)
  /-- The device withdraws to M0 at the next tick start (R433, R456). -/
  withdraw : Bool
  /-- It does so for a disagreement or a conflict, which has been reported (R433, R456). -/
  wdrawn : Bool
  /-- The tick of the switch for which it has voted READY (R451, R461). -/
  voted : Option Nat
  /-- The tick of a switch that a Quench since then keeps it from (R461). -/
  spoilt : Option Nat
  /-- Consecutive ticks whose a lies within PREC (R446). -/
  good : Nat
  /-- Ticks without an a in a row (R449). -/
  noA : Nat
  /-- Deviations registered for the value sets: sync slot, tick of the SYNC, deviation in 1/16 ns (R439, R440). -/
  vals : List (Nat × Nat × Int)
  /-- Deviations of slot 0: tick of the SYNC, deviation (R447). -/
  val0 : List (Nat × Int)
  /-- The device left INTEGRATED in this tick: its TT cells go until the next tick start (R449). -/
  ttTail : Bool
  /-- Sum of a over the 16 ticks, 1/16 ns (R442). -/
  sumA : Int
  /-- SYNCs in a row that match, for the end of a quarantine (R455). -/
  matchCnt : Nat
  /-- SYNC copies already forwarded: slot and tick (R435). -/
  seen : List (Nat × Nat)
  /-- The latest slot-0 SYNC: tick number and TSTART. -/
  sync0 : Option (Nat × Nat)
  /-- Nominal start and visible mode table of the tick in progress (R430). -/
  thisTick : Option (Nat × List Byte)
  /-- The same of the tick before it, whose Strike cells may still arrive (R79). -/
  prevTick : Option (Nat × List Byte)
  /-- TP of the manager, as its slot-0 SYNC gives it (R437). -/
  mgrTp : Option Nat
  /-- The step of R438 has been requested. -/
  firstStep : Bool
  /-- Bytes read for TT slots to come: slot index and payload (R430). -/
  ttData : List (Nat × List Byte)
deriving DecidableEq, Repr

def Hearth.zero : Hearth :=
  { armed := false, stopping := false, nominal := 0, lengthen := 0, regrid := false, grid := 0, missed := 0, taken := false,
    edge := none, free := false, emitAt := 0, syncOut := false }

def TimeCtl.zero : TimeCtl := { rem := 0, rate := 0, prev := 0, steps := [], granted := false, refusedSince := false }

def Link.zero : Link :=
  { hello := [], uid := 0, credits := List.replicate 16 2, q := [], last0 := 5, last1 := 5, retry := false, dly := none, held := false, heldAt := 0 }

def Chain.zero : Chain :=
  { links := Vector.replicate 4 Link.zero, cand := none, settled := false, topos := [], ids := [], prevId := 0xFF, route := none,
    draining := false, drained := false, wait := [], rr := 0, routeWait := [], drainWait := [], sent := [], newRoutes := none, conf := [], tags := [], nextTag := 0, mtags := [], mwait := [], etUsed := 0, mgmtUsed := 0,
    run := [], fixs := [0x80000000, 0, 0, 0, 0, 0, 0, 0], scfg := 0xC819, etcfg := 0, tables := [], vis := none, proposal := none,
    done := none, commit := none, withdraw := false, wdrawn := false, voted := none, spoilt := none, good := 0, noA := 0, vals := [], val0 := [], ttTail := false, sumA := 0, matchCnt := 0,
    seen := [], sync0 := none, thisTick := none, prevTick := none, mgrTp := none, firstStep := false, ttData := [] }

end Sys2Proof.Machine
end

