-- ==== Sys2Proof/Machine/State4.lean ====
section
/-!
DEFINITION. The parts of the state outside the set-up registers: Swage loops, load switches and analogue inputs.
-/

namespace Sys2Proof.Machine

/-- One Swage loop outside its registers (14). -/
structure Loop where
  /-- Instant of the last change of state, ns (R472). -/
  tEnter : Nat
  /-- The state counts as having its dwell elapsed (R480). -/
  dwellOk : Bool
  /-- Filtered set-point f; none before the first sample after enable (R471). -/
  filt : Option Int
  /-- AUTO was written to 1 and the transfer sample is still to come (R477). -/
  transfer : Bool
  /-- MAN.MAN is to be loaded with the u last applied at the next MANUAL sample (R476). -/
  manLoad : Bool
  /-- Direction of the last change made by the law: -1, 0 none, 1 (R485). -/
  lastDir : Int
  /-- Samples since each reversal, newest first (R485). -/
  revs : List Nat
  /-- The computed output that is still to be applied (R465). -/
  uPend : Option Int
  /-- When it is to be applied, ns: 1.0 us after its sample (R465). -/
  applyAt : Nat
  /-- The loop's next sample of this tick, from 0 (R465). -/
  next : Nat
  /-- Profile generator: position, velocity, acceleration, 16 fractional bits (R481, R482). -/
  p : Int
  /-- Velocity (R482). -/
  v : Int
  /-- Acceleration (R482). -/
  a : Int
  /-- Target in force (R481), and a PGO not yet taken. -/
  tgt : Option Int
  /-- A PGO not yet taken (R481, R484). -/
  pgo : Bool
  /-- A target taken into force at a MANUAL sample, whose PDONE the transfer clears (R497). -/
  armed : Bool
  /-- Put into MANUAL hold by R468: not sampled until EN is written to 0 and then to 1. -/
  stopped : Bool
  /-- Raw inputs latched at the tick start (R464). -/
  fbRaw : Nat
  /-- Raw set-point latched at the tick start (R464). -/
  spRaw : Nat
  /-- Words of the loop's registers as they stood before writes in the SWAGE cycle of the tick-start latch (R491). -/
  prev : List (Nat × W32)
  /-- EH before such a write to BAND (R486, R491). -/
  prevEh : Option Nat
deriving DecidableEq, Repr

def Loop.zero : Loop :=
  { tEnter := 0, dwellOk := true, filt := none, transfer := false, manLoad := false, lastDir := 0, revs := [], uPend := none, applyAt := 0, next := 0,
    p := 0, v := 0, a := 0, tgt := none, pgo := false, armed := false, stopped := false, fbRaw := 0, spRaw := 0, prev := [], prevEh := none }

/-- What a load-switch channel is told to do: off, on, or PWM with a duty in 1/1,024 (R498). -/
inductive Drive where
  | off
  | on
  | pwm (duty : Nat)
deriving DecidableEq, Repr

/-- One load-switch channel outside its registers (15). -/
structure Chan where
  /-- The set-up command in effect (R499). -/
  eff : Drive
  /-- The value of an enabled Swage loop that names the channel or its half-bridge (R501, rank 3). -/
  swg : Option Drive
  /-- A latch was cleared and the channel has not returned to its source (R505). -/
  relWait : Bool
  /-- The output as it stood at the Quench (R501, rank 2). -/
  hold : Drive
  /-- What the output does now. -/
  now : Drive
  /-- When its running PWM period started, ns (R500). -/
  pwmAt : Nat
  /-- LSW_CH_STAT as latched at the tick start (R45); no rule names a reader. -/
  latch : BitVec 32
  /-- Its temperature sensor reads 150 °C or above, as last measured (R504). -/
  hot : Bool
deriving DecidableEq, Repr

def Chan.zero : Chan := { eff := .off, swg := none, relWait := false, hold := .off, now := .off, pwmAt := 0, latch := 0, hot := false }

/-- One half-bridge: the side (0 none, 1 high, 2 low) whose turn-off the running dead time follows, the side that waits for its
end (R512), and whether both sides would be driven now (R511). -/
structure HalfBridge where
  /-- The side whose turn-off the running dead time follows: 0 none, 1 high, 2 low (R512). -/
  dtOld : Nat
  /-- The side that waits for its end. -/
  wait : Nat
  /-- Both sides would be driven now (R511). -/
  refused : Bool
  /-- When the old side turned off, ns (R512). -/
  offAt : Nat
deriving DecidableEq, Repr

def HalfBridge.zero : HalfBridge := { dtOld := 0, wait := 0, refused := false, offAt := 0 }

/-- One AIN channel outside its registers: consecutive conversions outside the window, and whether the action is armed (R518). -/
structure Ain where
  /-- Conversions in a row outside the window (R518). -/
  outCnt : Nat
  /-- The action of the window is armed (R518). -/
  armed : Bool
deriving DecidableEq, Repr

/-- Load switches and ADC outside the LSW registers. -/
structure Lsw where
  /-- Channels 0 to 11. -/
  chans : Vector Chan 12
  /-- Half-bridges HB0 to HB5. -/
  hbs : Vector HalfBridge 6
  /-- AIN0 to AIN7. -/
  ains : Vector Ain 8
  /-- Channels held off by the supply: until recovery and the return of R507. -/
  supplyOff : Bool
  /-- Channels are in their Quench safe states (R666 until the return of R668). -/
  qSafe : Bool
  /-- The ADC sequencer's next channel, and the conversion in flight (R516). -/
  seq : Nat
  /-- The channel whose conversion is in flight (R516). -/
  conv : Option Nat
deriving DecidableEq, Repr

def Lsw.zero : Lsw :=
  { chans := Vector.replicate 12 Chan.zero,
    hbs := Vector.replicate 6 HalfBridge.zero, ains := Vector.replicate 8 { outCnt := 0, armed := true },
    supplyOff := false, qSafe := false, seq := 0, conv := none }

end Sys2Proof.Machine
end

