-- ==== Sys2Proof/Machine/State5.lean ====
section
/-!
DEFINITION. The parts of the state outside the set-up registers: Tongs engines, timers, the pendant receiver.
-/

namespace Sys2Proof.Machine

/-- One Tongs engine outside its registers (R529, R536); COUNT, PC and the flags are in the TNG registers. -/
structure Tongs where
  /-- K0 to K3 (R529). -/
  k : Vector W32 4
  /-- SH, the shift register. -/
  sh : W32
  /-- SHCNT. -/
  shcnt : Nat
  /-- Z. -/
  z : Bool
  /-- FIFOs, oldest first, at most eight words. -/
  tx : List W32
  /-- RX FIFO, oldest first (R537). -/
  rx : List W32
  /-- Last word pulled since RESTART. -/
  last : W32
  /-- PIO pins the engine drives, and to which level. -/
  drvEn : W32
  /-- The level to which it drives them (R527). -/
  drvLvl : W32
  /-- Steps a DELAY in progress has still to wait. -/
  delay : Option Nat
  /-- Level of the TX FIFO as latched at the tick start (R45). -/
  txLatch : Nat
  /-- Level of the RX FIFO as latched at the tick start (R45). -/
  rxLatch : Nat
  /-- When RUN was last set, fifths of a TONGS cycle (R535). -/
  t0 : Nat
  /-- Step edges taken since (R535). -/
  m : Nat
deriving DecidableEq, Repr

def Tongs.zero : Tongs :=
  { k := Vector.replicate 4 0, sh := 0, shcnt := 0, z := false, tx := [], rx := [], last := 0, drvEn := 0, drvLvl := 0, delay := none, txLatch := 0, rxLatch := 0,
    t0 := 0, m := 0 }

/-- The pins PIO0 to PIO31 (R528, R530). Times are in fifths of a TONGS cycle (0.5 ns), counted since reset: a TIME cycle has eight. -/
structure Pio where
  /-- The time. -/
  t : Nat
  /-- The levels that stand on the pins from outside. -/
  ext : W32
  /-- What the Engor has driven, newest first: since when, which pins, and to which level. -/
  hist : List (Nat × W32 × W32)
deriving DecidableEq, Repr

def Pio.zero : Pio := { t := 0, ext := 0, hist := [] }

/-- The levels of the pins at time `t`: what the Engor drove then, else what stands on them from outside (R527). DEDUCED, log entry 84. -/
def Pio.levels (p : Pio) (t : Nat) : W32 :=
  match p.hist.find? (fun h => decide (h.1 ≤ t)) with
  | some (_, en, lvl) => (p.ext &&& ~~~en) ||| (lvl &&& en)
  | none => p.ext

/-- The synchronised levels on an edge at time `t`: those 2 TONGS cycles earlier (R528). -/
def Pio.sampled (p : Pio) (t : Nat) : W32 := if t < 10 then p.ext else p.levels (t - 10)

/-- What the Engor drives from time `t` on; what no later sample can see is dropped. -/
def Pio.drive (p : Pio) (t : Nat) (en lvl : W32) : Pio :=
  { p with hist := (t, en, lvl) ::
      (p.hist.takeWhile (fun h => decide (p.t < h.1 + 20)) ++ (p.hist.dropWhile (fun h => decide (p.t < h.1 + 20))).take 1) }

/-- One timer outside its registers. -/
structure Timer where
  /-- Fifths of a TONGS cycle counted by the prescaler since the last count edge (R544; 8 fifths pass per TIME cycle). -/
  pre : Nat
  /-- RUN was written to 0: the counter stops after the next count edge (R545). -/
  stopping : Bool
  /-- The value capture 0 held before its latest one, and captures taken (0, 1, 2 or more), for the difference of R470. -/
  prev0 : BitVec 48
  /-- Captures taken on channel 0: 0, 1, or 2 for more. -/
  caps0 : Nat
  /-- The latest value of capture 0 (R470, R549). -/
  last0 : BitVec 48
deriving DecidableEq, Repr

def Timer.zero : Timer := { pre := 0, stopping := false, prev0 := 0, caps0 := 0, last0 := 0 }

/-- The optical pendant receiver (R541, R542). -/
structure Pendant where
  /-- A space of at least END × 10 µs precedes. -/
  armed : Bool
  /-- Bits of the code in progress, first in bit 0, and their number. -/
  bits : BitVec 32
  /-- Number of bits of the code in progress. -/
  n : Nat
  /-- The mark before the coming space is a data mark. -/
  markBit : Bool
  /-- The front end is saturated (R542). -/
  saturated : Bool
  /-- The threshold loop is frozen since a flood, until the input has been quiet for 10 ms (R542). -/
  froze : Bool
deriving DecidableEq, Repr

def Pendant.zero : Pendant := { armed := false, bits := 0, n := 0, markBit := false, saturated := false, froze := false }

end Sys2Proof.Machine
end

