-- ==== Sys2Proof/Machine/State6.lean ====
section
/-!
DEFINITION. The parts of the state outside the set-up registers: power and resets, the Ingot, Temper, the secure side, the TAP.
-/

namespace Sys2Proof.Machine

/-- A host access that waits for a wake (R628). -/
inductive HeldAccess where
  | read (w : Who) (key : Nat)
  | write (w : Who) (key : Nat) (v : W32)
  | bar2 (off : Nat) (write : Bool) (n : Nat) (bytes : List Byte)
  | bar4 (pf1 : Bool) (off : Nat) (write : Bool) (n : Nat) (v : BitVec 64)
deriving DecidableEq, Repr

/-- Power and resets outside the PWR registers (19). -/
structure Power where
  /-- Operating conditions that fail: VSUP, VIO33, VDD18, VCORE, Tj (R77, condition 3). -/
  opBad : BitVec 5
  /-- The sleep state that is being entered (R622). -/
  entering : Option Nat
  /-- A wake is under way, or held until the entry completes (R637). -/
  waking : Bool
  /-- Time of the armed wake, ns (R633). -/
  armed : Option Nat
  /-- Host accesses that wait for the wake, oldest first. -/
  held : List HeldAccess
  /-- Kind of the reset in progress whose release runs the start-up sequence (R644, R646). -/
  reset : Option Nat
  /-- A hot reset or a link loss is in progress at the host interface. -/
  hostReset : Bool
  /-- What of the running watchdog unit of 32 SLOW periods has passed, in halves of a nanosecond (R640). -/
  wdt : Nat
  /-- The planner of this Settle waits for the writes of order 2, FINAL or SWITCH (R630). -/
  planDue : Bool
deriving DecidableEq, Repr

def Power.zero : Power :=
  { opBad := 0, entering := none, waking := false, armed := none, held := [], reset := none, hostReset := false, wdt := 0, planDue := false }

/-- Who asked for an Ingot operation (R565). -/
inductive IngSrc where
  | ring (r : RingRef)
  | cmd
  | repair
deriving DecidableEq, Repr

/-- Page programs or sector erases of one requester: the next page or sector, the bytes still to program or the sectors still to
erase; `cut`: it ends at the next unit boundary (R116, R588). -/
structure IngJob where
  /-- The requester. -/
  src : IngSrc
  /-- Erase, else program. -/
  erase : Bool
  /-- Next page or sector. -/
  idx : Nat
  /-- Bytes still to program. -/
  data : List Byte
  /-- Sectors still to erase. -/
  left : Nat
  /-- It ends at the next unit boundary (R116, R588). -/
  cut : Bool
deriving DecidableEq, Repr

/-- The Ingot controller outside the ING registers (17). -/
structure Ingot where
  /-- Operations that wait, oldest first (R565). -/
  jobs : List IngJob
  /-- The operation that runs: the first unit of this job. -/
  cur : Option IngJob
  /-- The suspended erase, and whether SUSP suspended it (R574, R575). -/
  susp : Option (IngJob × Bool)
  /-- A suspension is under way; by SUSP or under AUTOSUSP. -/
  suspReq : Option Bool
  /-- A read waits for a running erase (R574, R576). -/
  readWait : Bool
  /-- Position of the round-robin pointer (R22, R565). -/
  rr : Nat
deriving DecidableEq, Repr

/-- DESIGN CHOICE, log entry 9. -/
def Ingot.zero : Ingot := { jobs := [], cur := none, susp := none, suspReq := none, readWait := false, rr := 0 }

/-- The Temper loops, repair and substitution outside the TMP registers (18). -/
structure Temper where
  /-- Consecutive evaluations with s above SLACKHI, below TLIM - 5, out of EMERGENCY's conditions, and at the floor (R592 to R596). -/
  hi : Nat
  /-- Evaluations in a row below TLIM - 5 (R595). -/
  lim : Nat
  /-- Evaluations in a row out of EMERGENCY's conditions (R595). -/
  em : Nat
  /-- Evaluations in a row at the floor (R596). -/
  floor : Nat
  /-- The rung Bellows makes for (R593). -/
  target : Nat
  /-- AVSBus: the code in flight, the code queued behind it, the acknowledged code that settles, failures in a row, a failure
  since the last evaluation, and the code relied on (R591). -/
  fly : Option Nat
  /-- The code queued behind it (R591). -/
  queued : Option Nat
  /-- The acknowledged code that settles (R591). -/
  settling : Option Nat
  /-- Failures in a row (R591). -/
  fails : Nat
  /-- A failure since the last evaluation (R591, R595). -/
  failed : Bool
  /-- The code relied on (R591). -/
  volt : Nat
  /-- Rung a frequency switch in progress leads to (R594). -/
  fsw : Option Nat
  /-- Low eye measurements in a row, by lane (R600). -/
  low : Vector Nat 6
  /-- Codes in force of each frozen lane: CODE and TAP4 words (R599). -/
  eq : Vector (W32 × W32) 6
  /-- Pendant threshold and AIN trims as they stood when they were frozen (R602). -/
  pendThr : BitVec 12
  /-- AIN trims as they stood when they were frozen (R602). -/
  trims : Vector (BitVec 5) 8
  /-- TIME cycles in Compute with a task current, by engine, over the 16 ticks of R593. -/
  busy16 : Vector Nat 16
  /-- The same over the 1,024 ticks of R604: engine, slot, cycles. -/
  busyT : List (Nat × Nat × Nat)
  /-- ENG_n_ECC.CORR at the latest 1,024-tick check (R610). -/
  corr : Vector Nat 16
  /-- Engines for which an automatic trigger has reported that no spare is left. -/
  told : BitVec 16
  /-- The old core that still drains after a switch (R613). -/
  drain : Option Nat
  /-- Repair entries in use, 16 bytes each, and the state of their record: a rewrite is due, the sector of the newest valid image (R608). -/
  repairs : List (List Byte)
  /-- A rewrite of the record is due (R608, R609). -/
  due : Bool
  /-- The sector of the newest valid image (R608). -/
  sector : Option Nat
  /-- Full GEN of that image. -/
  gen : Nat
deriving DecidableEq, Repr

/-- DESIGN CHOICE, log entry 9. -/
def Temper.zero : Temper :=
  { hi := 0, lim := 0, em := 0, floor := 0, target := 0, fly := none, queued := none, settling := none, fails := 0,
    failed := false, volt := 12, fsw := none, low := Vector.replicate 6 0, eq := Vector.replicate 6 (8, 0), pendThr := 0,
    trims := Vector.replicate 8 0, busy16 := Vector.replicate 16 0, busyT := [], corr := Vector.replicate 16 0, told := 0,
    drain := none, repairs := [], due := false, sector := none, gen := 0 }

/-- One direction of a mailbox channel outside its registers: length of the pending message, whether its timeout still runs, and
the answer from a remote device that is awaited: 0 to MSG, 2 to CANCEL (R681, R685 to R688). -/
structure MbxDir where
  /-- Length of the pending message (R678). -/
  len : Nat
  /-- The time base in ns at which its timeout expires, while it runs (R681). -/
  timing : Option Nat
  /-- The answer from a remote device that is awaited: 0 to MSG, 2 to CANCEL (R685 to R688). -/
  wait : Option Nat
deriving DecidableEq, Repr

/-- The mailboxes and the Warden outside their registers (21). -/
structure Secure where
  /-- Directions 2c (A to B) and 2c + 1 (B to A) of MBN channel c, then of MBS channel c from 16 on. -/
  dirs : Vector MbxDir 32
  /-- Messages to the Warden, oldest first: MBS channel and bytes (R692). -/
  queue : List (Nat × List Byte)
  /-- Patch checks, the one in progress first: Hoard address and length (R690). -/
  patch : List (Nat × Nat)
  /-- The patch floor in OTP. -/
  floor : W32
  /-- A burn in progress: the command, and for BURN_ROOT the 48 bytes (R694). -/
  burn : Option (Nat × List W32)
  /-- Raises used, by counter (R696). -/
  raises : Vector Nat 64
  /-- The SCOPE of the outstanding challenge (R698). -/
  chal : Option Nat
  /-- A response check in progress: its address, the scope and the challenge checked. -/
  check : Option (Nat × Nat × List W32)
  /-- Failed responses (R698). -/
  fails : Nat
deriving DecidableEq, Repr

/-- DESIGN CHOICE, log entry 9. -/
def Secure.zero : Secure :=
  { dirs := Vector.replicate 32 { len := 0, timing := none, wait := none }, queue := [], patch := [], floor := 0, burn := none,
    raises := Vector.replicate 64 0, chal := none, check := none, fails := 0 }

/-- The TAP (22). -/
structure Tap where
  /-- The current instruction's opcode. -/
  ir : Byte
  /-- What the DEBUG register captures next (R727). -/
  dbg : BitVec 64
  /-- The boundary scan register's update stage, as last shifted in. -/
  bsr : List Bool
  /-- An instruction of R726 has held functional operation since the last whole-device reset. -/
  hold : Bool
deriving DecidableEq, Repr

def Tap.zero : Tap := { ir := 0x02, dbg := 0, bsr := [], hold := false }

end Sys2Proof.Machine
end

