-- ==== Sys2Proof/Machine/State.lean ====
section
/-!
DEFINITION. The machine's state, its faults and refusals, and the state right after reset.
-/

namespace Sys2Proof.Machine

/-- How the endpoint ends a request from the host (05). -/
inductive CplStatus where
  | ok
  | unsupported
  | abort
  | retry
deriving DecidableEq, Repr

/-- What the device sends to the outside world. -/
inductive Output where
  /-- The answer to a read of a set-up register. -/
  | readValue (who : Who) (key : Nat) (v : W32)
  /-- A read of the boot SPI flash: command, address bytes, SPI_CLK in kHz, offset and bytes (R284). -/
  | spiRead (cmd width khz off n : Nat)
  /-- A posted write to host memory. -/
  | hostWrite (addr : BitVec 64) (bytes : List Byte)
  /-- A read request to host memory, with its Strike tag (R74). -/
  | hostRead (why : ReadFor) (addr : BitVec 64) (len : Nat) (strike : Bool)
  /-- An MSI-X message of PF0 (pf1 false) or PF1. -/
  | msix (pf1 : Bool) (vec : Nat)
  /-- The end of a request from the host, with the data of a read. -/
  | reply (pf1 : Bool) (st : CplStatus) (bytes : List Byte)
  /-- A frame starts on a MAC (0 to 5) or CAN controller (6, 7); `fcs` when its own FCS is sent. -/
  | txStart (port : Nat) (bytes : List Byte) (fcs : Bool)
  /-- The frame in transmission is cut: with this stomp code behind its bytes (R339), or without one (link down, or a collision and its jam). -/
  | txCut (port : Nat) (stomp : Option W32)
  /-- A verify mPacket, or the response to one (R325). -/
  | verify (port : Nat) (response : Bool)
  /-- A PAUSE frame with a time in quanta. -/
  | pause (port quanta : Nat)
  /-- A Chain cell leaves on a link, with its right CRC or, stomped, with the complement (R390). -/
  | cell (link : Nat) (c : Cell) (stomp : Bool)
  /-- A freed input slot of a link: a credit of a channel and hop class, in a control block (R411). -/
  | credit (link vc hopClass : Nat)
  /-- An AVSBus command: voltage code. -/
  | avs (vcode : Nat)
  /-- The JTAG data register captured. -/
  | tdo (w : Nat) (v : BitVec 64)
deriving DecidableEq, Repr

/-- The Engor EN-7340. -/
structure State where
  /-- The set-up registers that differ from their reset value, by key, rising. -/
  regs : List (Nat × W32)
  /-- Captured higher words of wide registers (R30), by key; unlisted 0. -/
  caps : List (Nat × W32)
  /-- Held lower words of wide registers (R31), by key; unlisted 0. -/
  held : List (Nat × W32)
  /-- Every memory of the device, by internal address (DESIGN CHOICE, log entry 2). -/
  mem : List Host.Cell
  /-- Granules (by their first byte's key) with an uncorrectable error (R155, R262, R263). -/
  eccUnc : List Nat
  /-- Granules with a single-bit error (R155, R262). -/
  eccOne : List Nat
  /-- The time base: 64-bit ns and 28-bit fraction (R361). -/
  tb : BitVec 92
  /-- The model's own: how many free values have been taken (DESIGN CHOICE, log entry 4). -/
  freeCtr : Nat
  /-- Newest first. -/
  out : List Output
  /-- Requests of PF0 that wait because it may issue none (R131, R146) or has 128 reads out (R124): Strike reads before untagged ones,
  else oldest first. -/
  outWait : List Output
  /-- Newest first, at most 256 (R657). -/
  ledger : List LedgerEntry
  /-- Engines ANV0 to ANV15 (06). -/
  eng : Vector Eng 16
  /-- The Hoard's controller (08). -/
  hoard : Hoard
  /-- Loader and tiles (09). -/
  prs : Prs
  /-- Host rings (04). -/
  hif : HostIf
  /-- The endpoint (05). -/
  pcie : Pcie
  /-- MACs 0 to 5: FP0 to FP3, UP0, UP1 (10). -/
  ports : Vector Port 6
  /-- CAN0 and CAN1 (10). -/
  cans : Vector Can 2
  /-- Video streams 0 to 7 (10). -/
  video : Vector Video 8
  /-- When the reassembler's input buffer will have drained, ns (R349). -/
  vidDrain : Nat
  /-- The tick (02). -/
  hearth : Hearth
  /-- Steering of the time base (11). -/
  time : TimeCtl
  /-- The Chain (12, 13). -/
  chain : Chain
  /-- Swage loops 0 to 15 (14). -/
  loops : Vector Loop 16
  /-- Load switches and analogue inputs (15). -/
  lsw : Lsw
  /-- Tongs engines TM0 to TM7 (16). -/
  tongs : Vector Tongs 8
  /-- The pins PIO0 to PIO31 (16). -/
  pio : Pio
  /-- Timers TMR0 to TMR15 (16). -/
  tmr : Vector Timer 16
  /-- The pendant receiver (16). -/
  pend : Pendant
  /-- Power and resets (19). -/
  power : Power
  /-- The Ingot's controller (17). -/
  ing : Ingot
  /-- The Temper loops (18). -/
  temper : Temper
  /-- Mailboxes and Warden (21). -/
  sec : Secure
  /-- The TAP (22). -/
  tap : Tap
  /-- The model's own: the inputs that one TIME edge or tick start has brought to every engine so far, while they are being collected
  (R191); none between steps. -/
  collect : Option (Vector (BitVec 64) 16)
  /-- The commands that are waiting, first in first out. -/
  pending : List Instr
deriving DecidableEq, Repr

/-- The machine right after power-on reset (19, POR column of the master table): every set-up register at its reset value (an
unlisted register reads it), every memory unwritten, the reset still asserted until RESET_RELEASE (R639, R646). DESIGN CHOICE, log entry 9. -/
def State.reset : State :=
  { regs := [], caps := [], held := [], mem := [], eccUnc := [], eccOne := [], tb := 0, freeCtr := 0, out := [], outWait := [],
    ledger := [], eng := Vector.replicate 16 Eng.zero, hoard := Hoard.zero, prs := Prs.zero, hif := HostIf.zero, pcie := Pcie.zero,
    ports := Vector.replicate 6 Port.zero, cans := Vector.replicate 2 Can.zero, video := Vector.replicate 8 Video.zero, vidDrain := 0,
    hearth := Hearth.zero, time := TimeCtl.zero, chain := Chain.zero, loops := Vector.replicate 16 Loop.zero, lsw := Lsw.zero,
    tongs := Vector.replicate 8 Tongs.zero, pio := Pio.zero, tmr := Vector.replicate 16 Timer.zero, pend := Pendant.zero,
    power := { Power.zero with reset := some 0 }, ing := Ingot.zero, temper := Temper.zero, sec := Secure.zero, tap := Tap.zero, collect := none,
    pending := [] }

/-- The machine stops with a fault. -/
inductive Fault where
  /-- A command's byte list has a length the command cannot have (`WellFormed`); raised by the commands that carry bytes. Safe. -/
  | illFormed
deriving DecidableEq, Repr

/-- The model has no meaning for the command. -/
inductive Refusal where
  /-- Raised by an arm of `exec` whose command has no meaning yet. Safe. -/
  | notModelled (mnemonic : String)
deriving DecidableEq, Repr

end Sys2Proof.Machine
end

