-- ==== Sys2Proof/Machine/Ops.lean ====
section
/-!
DEFINITION. The shared operations: sparse tables in canonical form, set-up registers and their fields, memory, the fault
ledger, the output log, time and tick number.
-/

namespace Sys2Proof.Machine

/-! ## Sparse tables -/

/-- What a sparse table holds at a key; `dflt` says what an unlisted key holds. -/
def Sparse.find {α : Type} (dflt : Nat → α) : List (Nat × α) → Nat → α
  | [], k => dflt k
  | (j, v) :: r, k => if j = k then v else Sparse.find dflt r k

/-- Put a value at a key of a table whose keys rise; a value equal to the default is not listed. -/
def Sparse.put {α : Type} [DecidableEq α] (dflt : Nat → α) : List (Nat × α) → Nat → α → List (Nat × α)
  | [], k, v => if v = dflt k then [] else [(k, v)]
  | (j, w) :: r, k, v =>
    if j < k then (j, w) :: Sparse.put dflt r k v
    else if j = k then (if v = dflt k then r else (k, v) :: r)
    else (if v = dflt k then (j, w) :: r else (k, v) :: (j, w) :: r)

/-- The canonical form: keys strictly rising, no entry at its default. -/
def Sparse.wf {α : Type} [DecidableEq α] (dflt : Nat → α) : List (Nat × α) → Bool
  | [] => true
  | [(k, v)] => decide (v ≠ dflt k)
  | (k, v) :: (j, w) :: r => decide (k < j) && decide (v ≠ dflt k) && Sparse.wf dflt ((j, w) :: r)

/-! ## Words and fields of words -/

/-- Bits `lo + w - 1 : lo` of a word, as a number. -/
def fieldGet (x : W32) (lo w : Nat) : Nat := x.toNat / 2 ^ lo % 2 ^ w

/-- The word with ones in bits `lo + w - 1 : lo`. -/
def fieldMask (lo w : Nat) : W32 := BitVec.ofNat 32 ((2 ^ w - 1) * 2 ^ lo)

/-- The word `x` with bits `lo + w - 1 : lo` replaced by the low bits of `v`. -/
def fieldSet (x : W32) (lo w v : Nat) : W32 :=
  (x &&& ~~~ fieldMask lo w) ||| BitVec.ofNat 32 (v % 2 ^ w * 2 ^ lo)

/-! ## Set-up registers -/

/-- The word a set-up register holds. -/
def State.word (s : State) (key : Nat) : W32 := Sparse.find RegMap.resetWord s.regs key

/-- The state with the word of one set-up register replaced. -/
def State.setWord (s : State) (key : Nat) (v : W32) : State := { s with regs := Sparse.put RegMap.resetWord s.regs key v }

/-- The value of a field. -/
def State.get (s : State) (f : Fld) : Nat := fieldGet (s.word f.addr) f.lo f.w

/-- The state with one field replaced. -/
def State.set (s : State) (f : Fld) (v : Nat) : State := s.setWord f.addr (fieldSet (s.word f.addr) f.lo f.w v)

/-- Is the field non-zero? -/
def State.on (s : State) (f : Fld) : Bool := s.get f != 0

/-- Set a one-bit field from a Bool. -/
def State.setB (s : State) (f : Fld) (b : Bool) : State := s.set f (if b then 1 else 0)

/-- Add to a counting field that saturates. -/
def State.count (s : State) (f : Fld) (n : Nat) : State := s.set f (min (s.get f + n) (2 ^ f.w - 1))

/-- A 64-bit register from its two words. -/
def State.word64 (s : State) (lo hi : Nat) : BitVec 64 := (s.word hi) ++ (s.word lo)

/-- Replace the two words of a 64-bit register. -/
def State.setWord64 (s : State) (lo hi : Nat) (v : BitVec 64) : State :=
  (s.setWord lo (v.setWidth 32)).setWord hi ((v >>> 32).setWidth 32)

/-! ## Memory -/

/-- Keys of the memories (DESIGN CHOICE, log entry 2): Hoard at 0x1000_0000, port buffers at 0x2000_0000, Ingot at 0x4000_0000, Forge tile
windows at 0x5000_0000, each engine's private view of 0x0000_0000 to 0x0007_FFFF at 0x1_0000_0000 + e × 0x10_0000, the
configuration frames of tile t at 0x6_0000_0000 + t × 0x2_0000. -/
def Memory.hoard (o : Nat) : Nat := 0x10000000 + o
/-- DESIGN CHOICE, log entry 2. -/
def Memory.ingot (o : Nat) : Nat := 0x40000000 + o
/-- DESIGN CHOICE, log entry 2. -/
def Memory.engine (e a : Nat) : Nat := 0x100000000 + 0x100000 * e + a
/-- DESIGN CHOICE, log entry 2. -/
def Memory.frame (t f : Nat) : Nat := 0x600000000 + 0x20000 * t + 64 * f

/-- What a byte reads as that nothing has written: an erased Ingot byte reads 0xFF (R561); elsewhere 0 (DESIGN CHOICE, log entry 3). -/
def Memory.dflt (k : Nat) : Byte := if 0x40000000 ≤ k ∧ k < 0x40800000 then 0xFF else 0

def Memory.read (m : List Host.Cell) (k : Nat) : Byte := Sparse.find Memory.dflt m k
def Memory.write (m : List Host.Cell) (k : Nat) (v : Byte) : List Host.Cell := Sparse.put Memory.dflt m k v
def Memory.wf (m : List Host.Cell) : Bool := Sparse.wf Memory.dflt m

/-- Forget every byte from `a` up to, not including, `b`: they read as their default again. -/
def Memory.clear (m : List Host.Cell) (a b : Nat) : List Host.Cell := m.filter (fun c => decide (c.1 < a ∨ b ≤ c.1))

/-- `n` bytes from `k` on. -/
def Memory.readN (m : List Host.Cell) (k n : Nat) : List Byte := (List.range n).map (fun i => Memory.read m (k + i))

/-- Store bytes from `k` on, in ascending order. -/
def Memory.writeN (m : List Host.Cell) (k : Nat) : List Byte → List Host.Cell
  | [] => m
  | b :: r => Memory.writeN (Memory.write m k b) (k + 1) r

/-- A little-endian number from its bytes (R3). -/
def leNat : List Byte → Nat
  | [] => 0
  | b :: r => b.toNat + 256 * leNat r

/-- The `n` little-endian bytes of a number (R3). -/
def leBytes : Nat → Nat → List Byte
  | 0, _ => []
  | n + 1, v => BitVec.ofNat 8 v :: leBytes n (v / 256)

def State.rd (s : State) (k n : Nat) : List Byte := Memory.readN s.mem k n
def State.wr (s : State) (k : Nat) (bs : List Byte) : State := { s with mem := Memory.writeN s.mem k bs }

/-! ## Time, tick, outputs, the ledger -/

/-- The time base in whole ns (R361). -/
def State.now (s : State) : Nat := s.tb.toNat / 2 ^ 28

/-- The 64-bit number of the tick in progress. -/
def State.tick (s : State) : Nat := (s.word64 Reg.HRT_TICK_LO Reg.HRT_TICK_HI).toNat

def State.running (s : State) : Bool := s.on Reg.HRT_STAT_RUNNING

/-- TP in ns (R34). -/
def State.tp (s : State) : Nat := s.get Reg.HRT_PERIOD_PERIOD * 10

/-- Offsets of the boundaries in ns (R34). -/
def State.boundary (s : State) (n : Nat) : Nat :=
  let b := match n with
    | 1 => s.get Reg.HRT_B1_B
    | 2 => s.get Reg.HRT_B2_B
    | _ => s.get Reg.HRT_B3_B
  b * s.tp / 1024

/-- The least length of a Settle, ns: 8 us or a tenth of TP (R35). -/
def State.settleMin (s : State) : Nat := max 8000 ((s.tp + 9) / 10)

/-- Is the device the Chain manager (R398)? -/
def State.isMgr (s : State) : Bool := s.on Reg.CHN_STAT_MGR

/-- Does the tick follow the Chain manager's (R437, R438)? DEDUCED, log entry 47. -/
def State.follows (s : State) : Bool := s.get Reg.HRT_CTRL_SRC == 3 && !s.isMgr

/-- The manager's tick start that follows the tick in progress, as its latest slot-0 SYNC gives it (R437): none while the grid moves or the
source is lost (R40, R41), or for a SYNC of a later tick. One that would cut Settle short is passed over for the next: DESIGN CHOICE, log entry 47. -/
def State.mgrStart (s : State) : Option Nat :=
  if !(s.follows && s.on Reg.HRT_STAT_RUNNING && !s.hearth.regrid && s.hearth.lengthen == 0 && !s.hearth.free) then none
  else match s.chain.sync0 with
    | none => none
    | some (n, t) =>
      let next := t + (s.tick + 1 - n) * s.tp
      if s.tick < n then none
      else some (next + (s.hearth.nominal + s.boundary 3 + s.settleMin + s.tp - 1 - next) / s.tp * s.tp)

/-- The time at which the next tick starts: 48 ns after an accepted edge, or when the manager's does, else at its nominal start (R38, R39,
R41, R437). -/
def State.tickAt (s : State) : Nat :=
  match s.hearth.edge with
  | some e => e + 48
  | none => s.mgrStart.getD (s.hearth.nominal + s.tp + s.hearth.lengthen)

/-- Send something to the outside world. -/
def State.send (s : State) (o : Output) : State := { s with out := o :: s.out }

/-- A free value (DESIGN CHOICE, log entry 4): the value and the state that has taken it. -/
def State.free (s : State) : BitVec 64 × State := (Config.freeValue s.freeCtr, { s with freeCtr := s.freeCtr + 1 })

/-- The SEQ after `n` (R657): wraps from 0xFFFF_FFFF to 1. -/
def nextSeq (n : Nat) : Nat := if n = 0xFFFFFFFF then 1 else n + 1

/-- Write a ledger entry (R655 to R658) with the FLAGS byte given. -/
def State.recordF (s : State) (code unit : Nat) (detail : Nat) (flags : Nat) : State :=
  let q := nextSeq (s.get Reg.PWR_LEDHEAD_SEQ)
  let e : LedgerEntry :=
    { seq := BitVec.ofNat 32 q, code := BitVec.ofNat 16 code, unit := BitVec.ofNat 8 unit, flags := BitVec.ofNat 8 flags,
      time := BitVec.ofNat 64 s.now, tick := BitVec.ofNat 32 s.tick, detail := BitVec.ofNat 96 detail }
  { s with ledger := (e :: s.ledger).take 256 }.set Reg.PWR_LEDHEAD_SEQ q

/-- Write a ledger entry with FLAGS 0. -/
def State.record (s : State) (code unit detail : Nat) : State := s.recordF code unit detail 0

/-! ## Folding an effect over instances -/

/-- Apply an effect for every index below `n`, ascending. -/
def State.each (s : State) (n : Nat) (f : Nat → State → State) : State := (List.range n).foldl (fun t i => f i t) s

/-- Do this when the condition holds. -/
def State.when (s : State) (b : Bool) (f : State → State) : State := if b then f s else s

/-! ## Parts by number -/

def State.engN (s : State) (e : Nat) : Eng := s.eng.getD e Eng.zero
def State.modEng (s : State) (e : Nat) (f : Eng → Eng) : State := { s with eng := s.eng.setIfInBounds e (f (s.engN e)) }

def State.ring (s : State) (n : Nat) : Ring := s.hif.rings.getD n Ring.zero
def State.modRing (s : State) (n : Nat) (f : Ring → Ring) : State :=
  { s with hif := { s.hif with rings := s.hif.rings.setIfInBounds n (f (s.ring n)) } }

def State.port (s : State) (p : Nat) : Port := s.ports.getD p Port.zero
def State.modPort (s : State) (p : Nat) (f : Port → Port) : State := { s with ports := s.ports.setIfInBounds p (f (s.port p)) }

/-- The owner of an engine (R25): personality slot 0 to 2, or 3 for the host. -/
def State.engOwner (s : State) (e : Nat) : Nat := s.get (Reg.ENG_STAT_OWNER e)

/-- The effective phase (02, HRT_STAT.PHASE). -/
def State.phase (s : State) : Nat := s.get Reg.HRT_STAT_PHASE

end Sys2Proof.Machine
end

