-- ==== Sys2Proof/Machine/RingOps.lean ====
section
/-!
DEFINITION. Requests of PF0 to host memory, completion records, interrupt events, ring errors and the residue block (04, 20).
-/

namespace Sys2Proof.Machine

/-! ## Requests issued as PF0 -/

/-- May the Engor issue a request as PF0 (R131, R144, R146)? -/
def State.pf0Open (s : State) : Bool :=
  s.pcie.pf0.bme && !s.pcie.pf0.d3 && !s.pcie.pf0.flr && s.on Reg.DEV_PCISTAT_LINKUP

def Output.isRead (o : Output) : Bool :=
  match o with
  | .hostRead .. => true
  | _ => false

def Output.isWrite (o : Output) : Bool :=
  match o with
  | .hostWrite .. => true
  | _ => false

/-- May the request go out now? At most 128 reads are outstanding (R124); a posted write passes the reads that wait. No write goes ahead of
those of the class-7 frames of the Gather in progress (R75). -/
def State.maySend (s : State) (o : Output) : Bool :=
  s.pf0Open && (!o.isRead || decide (s.hif.reads.length < 128)) && !(o.isWrite && s.hif.rxQ.any (fun f => f.cls == 7))

/-- A request of PF0 goes out. -/
def State.sendPf0 (s : State) (o : Output) : State :=
  match o with
  | .hostRead w .. => { s with hif := { s.hif with reads := s.hif.reads ++ [w] } }.send o
  | _ => s.send o

/-- The waiting requests that may go out do, in order; the others wait on. -/
def State.drainList (s : State) : List Output → List Output × State
  | [] => ([], s)
  | o :: r => if s.maySend o then (s.sendPf0 o).drainList r else let p := s.drainList r; (o :: p.1, p.2)

/-- When PF0 may issue requests again, the waiting ones go out in order. -/
def State.drainWait (s : State) : State :=
  let p := s.drainList s.outWait
  { p.2 with outWait := p.1 }

/-- A request takes its place among the waiting ones: a Strike read ahead of the untagged reads (R74). -/
def queueOut (o : Output) (l : List Output) : List Output :=
  let untagged := fun (x : Output) => match x with
    | .hostRead _ _ _ false => true
    | _ => false
  match o with
  | .hostRead _ _ _ true => l.takeWhile (fun x => !untagged x) ++ o :: l.dropWhile (fun x => !untagged x)
  | _ => l ++ [o]

/-- The parts of a request of `n` bytes at `a`: none is longer than the limit or crosses a 4 KiB boundary. PRESUMED, log entry 71. -/
def splitRead (mrrs : Nat) : Nat → Nat → Nat → List (Nat × Nat)
  | 0, _, _ => []
  | f + 1, a, n =>
    if n = 0 then []
    else
      let k := min n (min mrrs (4096 - a % 4096))
      (a, k) :: splitRead mrrs f (a + k) (n - k)

/-- The requests that an issue makes: reads by Max_Read_Request_Size, writes by Max_Payload_Size (R95, R124). -/
def Output.parts (f : PciFn) (o : Output) : List Output :=
  match o with
  | .hostRead w a n b => (splitRead f.mrrs n a.toNat n).map (fun x => .hostRead w (BitVec.ofNat 64 x.1) x.2 b)
  | .hostWrite a b => (splitRead f.mps b.length a.toNat b.length).map (fun x => .hostWrite (BitVec.ofNat 64 x.1) ((b.drop (x.1 - a.toNat)).take x.2))
  | _ => [o]

/-- Issue a request as PF0, or let it wait behind those that wait (R131, R146). -/
def State.issue (s : State) (o : Output) : State :=
  { s with outWait := (o.parts s.pcie.pf0).foldl (fun l x => queueOut x l) s.outWait }.drainWait

/-- The read for `w` has ended, `one` request of it or all: reads that waited for it may go out (R124). -/
def State.landed (s : State) (w : ReadFor) (one : Bool) : State :=
  if s.hif.reads.contains w then
    { s with hif := { s.hif with reads := if one then s.hif.reads.erase w else s.hif.reads.filter (fun x => x != w) } }.drainWait
  else s

/-! ## Interrupt events -/

/-- An event on a vector of PF0 (R111); while MSI-X Enable is 0 it is dropped (R112). -/
def State.vecEvent (s : State) (v : Nat) : State :=
  if !s.pcie.pf0.msixEn then s else
  { s with hif := { s.hif with vecs := s.hif.vecs ||| BitVec.ofNat 64 (2 ^ (v % 64)) } }

/-- An event of a ring on its vector, unless the doorbell entry's MASK suppresses it (R111). -/
def State.ringEvent (s : State) (n : Nat) : State :=
  if (s.ring n).mask then s else s.vecEvent (s.get (Reg.RING_CFG_VEC n))

/-! ## Rings -/

/-- Entries of ring `n` (R87). -/
def State.ringSize (s : State) (n : Nat) : Nat := 2 ^ (s.get (Reg.RING_CFG_SIZE n) + 4)

def statusDone : Nat := 1
def statusPart : Nat := 2
def statusNone : Nat := 3
def statusFail : Nat := 4

/-- A 16-byte completion record (04, Completion record layout). -/
def Desc.record (d : Desc) (st : Nat) (led : Option (BitVec 16)) (time : Option W32) : List Byte :=
  let fl := d.flags.getD (d.first, d.last)
  let g : Nat := (if d.gen % 2 = 0 then 1 else 0) + (if d.late then 2 else 0) + (if d.demoted then 4 else 0)
    + (if time.isSome then 8 else 0) + (if fl.1 then 16 else 0) + (if fl.2 then 32 else 0)
    + (if led.isSome then 64 else 0)
  leBytes 4 d.tag.toNat ++ [BitVec.ofNat 8 st, BitVec.ofNat 8 g] ++ leBytes 2 ((led.getD 0).toNat)
    ++ leBytes 4 d.prog ++ leBytes 4 ((time.getD 0).toNat)

/-- Write the completion of one descriptor of ring `n` (R107, R109, R111). -/
def State.writeCpl (s : State) (n : Nat) (d : Desc) (r : Nat × Option (BitVec 16) × Option W32) : State :=
  let base := s.word64 (Reg.RING_CBASE_LO n) (Reg.RING_CBASE_HI n)
  let t := s.issue (.hostWrite (base + BitVec.ofNat 64 (d.idx * 16)) (d.record r.1 r.2.1 r.2.2))
  if d.irq || r.1 == statusPart || r.1 == statusFail then t.ringEvent n else t

/-- The chains of a queue (R101), `acc` being the part so far of the chain in hand, newest first: each up to its LAST, the last one
perhaps open; a descriptor that stands where a chain would begin and has no FIRST stands alone. -/
def chainsFrom : List Desc → List Desc → List (List Desc)
  | acc, [] => if acc.isEmpty then [] else [acc.reverse]
  | acc, d :: q =>
    if d.last || (acc.isEmpty && !d.first) then (d :: acc).reverse :: chainsFrom [] q else chainsFrom (d :: acc) q

def chains (q : List Desc) : List (List Desc) := chainsFrom [] q

/-- The completions of a chain whose work has ended are written together, in index order (R110). -/
def State.writeChain (n : Nat) (s : State) (c : List Desc) : State :=
  c.foldl (fun s d => match d.res with
    | some r => if d.written then s else s.writeCpl n d r
    | none => s) s

/-- Write the completions of every chain whose work has ended; on RX and VID rings none overtakes an earlier one (R663). -/
def State.writeDue (inOrder : Bool) (n : Nat) : List (List Desc) → State → List Desc × State
  | [], s => ([], s)
  | c :: q, s =>
    if c.all (fun d => d.res.isSome) then
      let p := State.writeDue inOrder n q (s.writeChain n c)
      (c.map (fun d => { d with written := true }) ++ p.1, p.2)
    else if inOrder then (c ++ q.flatten, s)
    else let p := State.writeDue inOrder n q s; (c ++ p.1, p.2)

/-- Write what is due on ring `n`; CDONE advances past every descriptor whose completion is written (R663). -/
def State.writeRing (s : State) (n : Nat) : State :=
  if (s.ring n).frozen then s else
  let kind := s.get (Reg.RING_CFG_KIND n)
  let p := State.writeDue (kind == 1 || kind == 4) n (chains (s.ring n).q) s
  p.2.modRing n (fun r => { r with q := p.1.dropWhile (fun d => d.written) })

/-- Change the descriptors of ring `n` that a test picks. -/
def State.modDesc (s : State) (n : Nat) (p : Desc → Bool) (f : Desc → Desc) : State :=
  s.modRing n (fun r => { r with q := r.q.map (fun d => if p d then f d else d) })

def Desc.is (i g : Nat) (d : Desc) : Bool := d.idx == i && d.gen == g

/-- The low 32 bits of the time base in ns, for TIME. -/
def State.time32 (s : State) : W32 := BitVec.ofNat 32 s.now

/-- A started FENCE all of whose descriptors have completed (R102), with its ring. -/
def State.overFence (s : State) : Option (Nat × Desc) :=
  (List.range 64).findSome? (fun n => ((s.ring n).q.find? (fun (d : Desc) => d.opcode == 0x2D && d.started && d.res.isNone
    && d.wait.all (fun w => !(s.ring w.1).q.any (fun e => e.is w.2.1 w.2.2 && !e.written)))).map (fun d => (n, d)))

/-- Every FENCE that is over completes; one may wait for another. -/
def State.settleFences : Nat → State → State
  | 0, s => s
  | f + 1, s => match s.overFence with
    | none => s
    | some (n, d) => State.settleFences f ((s.modDesc n (fun e => e.is d.idx d.gen) (fun e => { e with res := some (statusDone, none, some s.time32) })).writeRing n)

/-- The completions of ring `n` that are due, and the FENCEs they end. -/
def State.flushRing (s : State) (n : Nat) : State := State.settleFences 64 (s.writeRing n)

/-- The work of the picked, unfinished descriptors of ring `n` has ended: their completions follow (R110). -/
def State.finish (s : State) (n : Nat) (p : Desc → Bool) (st : Nat) (led : Option (BitVec 16)) (time : Option W32) : State :=
  (s.modDesc n (fun d => p d && d.res.isNone) (fun d => { d with started := true, res := some (st, led, time) })).flushRing n

/-- The low 16 bits of the newest ledger SEQ, for LEDGER. -/
def State.led16 (s : State) : BitVec 16 := BitVec.ofNat 16 (s.get Reg.PWR_LEDHEAD_SEQ)

/-- The newest ledger entry names ring `n` or its work (R661, LSEQ). -/
def State.noteSeq (s : State) (n : Nat) : State := s.modRing n (fun r => { r with lseq := BitVec.ofNat 32 (s.get Reg.PWR_LEDHEAD_SEQ) })

/-- DONE with TIME at completion. -/
def State.doneNow (s : State) (n : Nat) (p : Desc → Bool) : State := s.finish n p statusDone none (some s.time32)

/-- FAIL or PART whose ledger entry is the newest one. -/
def State.endWithEntry (s : State) (n : Nat) (p : Desc → Bool) (st : Nat) : State :=
  (s.noteSeq n).finish n p st (some s.led16) (some s.time32)

/-- The completion of a descriptor whose work wrote the ledger entry with SEQ `q` (R109). -/
def State.endWithSeq (s : State) (n : Nat) (p : Desc → Bool) (st q : Nat) : State :=
  (s.modRing n (fun r => { r with lseq := BitVec.ofNat 32 q })).finish n p st (some (BitVec.ofNat 16 q)) (some s.time32)

/-- FAIL or PART for which no rule names a ledger entry: LREF is 1 (R109) and LEDGER is a free value (DESIGN CHOICE, log entry 4). DESIGN CHOICE, log entry 10. -/
def State.endNoEntry (s : State) (n : Nat) (p : Desc → Bool) (st : Nat) : State :=
  let f := s.free
  f.2.finish n p st (some (f.1.setWidth 16)) (some s.time32)

/-- A ledger entry about ring `n` (R656): DESC_BAD, RX_TRUNC, RING_ERROR. -/
def State.recordRing (s : State) (code n idx errcode tag : Nat) : State :=
  (s.record code n (idx + errcode * 2 ^ 16 + tag * 2 ^ 32)).noteSeq n

/-- A ring takes an error and stops consuming (R113). -/
def State.ringError (s : State) (n code : Nat) : State :=
  let t := (s.set (Reg.RING_STAT_ERR n) 1).set (Reg.RING_STAT_ERRCODE n) code
  (t.recordRing 0x0203 n (s.ring n).ci code 0).vecEvent 0

def RingRef.picks (r : RingRef) (d : Desc) : Bool := d.is r.idx r.gen

/-- The tick k of R69: the later of the read that shows the descriptor and its target tick; a target tick past at that read leaves
the read (R82). -/
def Desc.tickK (d : Desc) : Nat :=
  let diff := (d.ttick + 2 ^ 32 - d.kdb % 2 ^ 32) % 2 ^ 32
  if d.ttick = 0 ∨ 2 ^ 31 ≤ diff then d.kdb else d.kdb + diff

/-- Is a descriptor held by its target tick (R100)? -/
def State.targetReached (s : State) (d : Desc) : Bool := decide (d.k ≤ s.tick)

/-- Does the ring hold everything behind a started FENCE (R102)? -/
def Ring.fenced (r : Ring) : Bool := r.q.any (fun d => d.opcode == 0x2D && d.started && d.res.isNone)

/-- The first descriptor whose work has not started (R89). -/
def Ring.next (r : Ring) : Option Desc := r.q.find? (fun d => !d.started && d.res.isNone)

/-- The descriptor an opcode's step works on: the ring's first unstarted one, when it has that opcode, its target is reached and
no FENCE holds the ring. -/
def State.ready (s : State) (n opcode : Nat) : Option Desc :=
  match (s.ring n).next with
  | none => none
  | some d => if d.opcode == opcode && s.targetReached d && !(s.ring n).fenced && !(s.ring n).frozen then some d else none

/-- The descriptor of an opcode whose work is in progress on ring `n`, or else the one that `ready` gives (R116). -/
def State.atWork (s : State) (n opcode : Nat) : Option Desc :=
  match (s.ring n).q.find? (fun d => d.started && d.res.isNone && d.opcode == opcode) with
  | some d => some d
  | none => s.ready n opcode

def State.start (s : State) (n : Nat) (d : Desc) : State :=
  s.modDesc n (fun e => e.is d.idx d.gen) (fun e => { e with started := true })

/-- The members of the chain that begins at `d` (R101), when all are consumed. -/
def chainFrom : List Desc → Option (List Desc)
  | [] => none
  | d :: q => if d.last then some [d] else (chainFrom q).map (fun c => d :: c)

def Ring.chain (r : Ring) (d : Desc) : Option (List Desc) :=
  chainFrom (r.q.dropWhile (fun e => !(e.is d.idx d.gen)))

def inChain (c : List Desc) (d : Desc) : Bool := c.any (fun e => e.is d.idx d.gen)

/-- ACTIVE (04, RING_n_STAT). -/
def State.ringActive (s : State) (n : Nat) : Bool :=
  s.on (Reg.RING_CTRL_EN n) || (!(s.ring n).frozen && (s.ring n).q.any (fun d => !d.written))

/-- HELD: the next descriptor waits for its target tick. -/
def State.ringHeld (s : State) (n : Nat) : Bool :=
  match (s.ring n).next with
  | none => false
  | some d => !s.targetReached d

/-- May ring `n` consume (R88, R98, R113)? -/
def State.consumes (s : State) (n : Nat) : Bool :=
  s.on (Reg.RING_CTRL_EN n) && (s.ring n).live && !s.on (Reg.RING_STAT_ERR n)
    && (s.running || s.get (Reg.RING_CFG_KIND n) == 2) && s.get (Reg.RING_CFG_KIND n) != 3

/-! ## Residue block -/

/-- CDONE and its generation: the first consumed index whose completion is not written. -/
def Ring.cdone (r : Ring) : Nat × Nat :=
  match r.q with
  | [] => (r.ci, r.gen)
  | d :: _ => (d.idx, d.gen)

def Ring.doneMap (r : Ring) : Nat :=
  (((r.q.take 64).zipIdx).map (fun p => if p.1.res.isSome then 2 ^ p.2 else 0)).foldl (· + ·) 0

/-- Word `w` (0 to 7) of a ring's residue entry (20, Ring entry). -/
def State.residueRing (s : State) (n w : Nat) : W32 :=
  let r := s.ring n
  if !r.valid then 0
  else
    let busy := r.frozen && r.q.any (fun d => d.started && d.res.isNone)
    let flags := 1 + (if (if r.frozen then r.err else s.on (Reg.RING_STAT_ERR n)) then 2 else 0) + (if busy then 4 else 0)
    match w with
    | 0 => BitVec.ofNat 32 (r.ci + r.gen * 2 ^ 16 + flags * 2 ^ 24)
    | 1 => BitVec.ofNat 32 (r.cdone.1 + r.cdone.2 * 2 ^ 16 + r.kind * 2 ^ 24)
    | 2 => match r.q with
      | [] => 0
      | d :: _ => BitVec.ofNat 32 d.prog
    | 3 => match r.q with
      | [] => 0
      | d :: _ => d.tag
    | 4 => BitVec.ofNat 32 r.doneMap
    | 5 => BitVec.ofNat 32 (r.doneMap / 2 ^ 32)
    | 6 => r.lseq
    | _ => 0

/-- A migration in progress is abandoned at any reset: the map keeps the old bank (R268). -/
def State.abandonMig (s : State) : State :=
  { s with hoard := { s.hoard with migs := [] } }.set Reg.HRD_STAT_MIGBUSY 0

/-- A reset of this kind is asserted, no ENGINE reset (R645, R662): its cause, the residue head, its ledger entry. -/
def State.noteReset (s : State) (kind : Nat) : State :=
  let s := s.abandonMig
  let seq := (s.hif.resHead.getD 0 0) + 1
  let t := BitVec.ofNat 64 s.tick
  let n := BitVec.ofNat 64 s.now
  let lo := fun (x : BitVec 64) => x.setWidth 32
  let hi := fun (x : BitVec 64) => (x >>> 32).setWidth 32
  let s := { s with hif := { s.hif with
    resHead := #v[seq, BitVec.ofNat 32 kind, s.word Reg.PWR_LEDHEAD, lo t, hi t, lo n, hi n] } }
  let s := (s.set Reg.PWR_RSTCAUSE_KIND (s.get Reg.PWR_RSTCAUSE_KIND ||| 2 ^ kind)).set Reg.PWR_RSTCAUSE_LAST kind
  s.record 0x0E02 0xFF kind

/-- Word `i` of the residue block (20, Residue block layout). -/
def State.residueWord (s : State) (i : Nat) : W32 :=
  if i = 0 then 0x52534455
  else if i < 8 then s.hif.resHead.getD (i - 1) 0
  else if 16 ≤ i ∧ i < 528 then s.residueRing ((i - 16) / 8) ((i - 16) % 8)
  else 0

end Sys2Proof.Machine
end

