-- ==== Sys2Proof/Machine/HoardOps.lean ====
section
/-!
DEFINITION. The Hoard: banks, partitions, secure regions, ECC, the directory and the engine caches (08), as operations that the
commands share. Requesters have the numbers of R243.
-/

namespace Sys2Proof.Machine

/-! ## Trap causes (R182) -/

def causeIllegal : Nat := 1
def causeBus : Nat := 2
def causeAlign : Nat := 3
def causeStackOvf : Nat := 4
def causeStackUnf : Nat := 5
def causeLoopOvf : Nat := 6
def causeDeadline : Nat := 7
def causeImemEcc : Nat := 8
def causeDmemEcc : Nat := 9

/-! ## Banks, partitions and secure regions -/

/-- The logical bank of a Hoard offset (R238). -/
def bankOf (o : Nat) : Nat := o / 0x80000 % 32

/-- The offset of the 64-byte line that holds offset `o` (R238). -/
def lineOf (o : Nat) : Nat := o % 0x1000000 / 64 * 64

def curOn : Nat := 0
def curRet : Nat := 1
def curOff : Nat := 2
def curFill : Nat := 3
def curDrain : Nat := 4
def curTrans : Nat := 5

/-- The physical bank that serves logical bank `b`; 0x3F none (R239, R607). -/
def mapFld (b : Nat) : Fld := ⟨Reg.HRD_BANKMAP (b / 4), b % 4 * 8, 6⟩
def State.bankMapped (s : State) (b : Nat) : Bool := s.get (mapFld b) != 0x3F

/-- Does bank `b` serve accesses: does a physical bank serve it, and is it ON or in DRAIN (R239, R253, R256)? -/
def State.bankServes (s : State) (b : Nat) : Bool :=
  s.bankMapped b && (s.get (Reg.HRD_BANK_CUR b) == curOn || s.get (Reg.HRD_BANK_CUR b) == curDrain)

/-- The kind of the active partition that holds offset `o` (R241). -/
def State.partKind (s : State) (o : Nat) : Option Nat :=
  (s.hoard.parts.find? (fun p => decide (p.base * 0x10000 ≤ o ∧ o < (p.base + p.size) * 0x10000))).map (fun p => p.kind)

/-- The personality slot of a requester that is an engine (R25). -/
def State.reqSlot (s : State) (req : Nat) : Nat := if req < 16 then s.engOwner req else 3

/-- Is a SEALED load in progress, so that only the loader reaches the staging partition (R288)? -/
def State.sealedLoad (s : State) : Bool :=
  match s.prs.active with
  | some n => s.get (Reg.PRS_ID_VMODE n.val) != 0 && s.get (Reg.PRS_STAT_STATE n.val) != 5
  | none => false

/-- May requester `req` reach a partition of this kind (08, Partition kinds)? -/
def State.reaches (s : State) (req kind : Nat) : Bool :=
  let dma := req == 21 || req == 22
  match kind with
  | 1 => decide (req < 24)
  | 2 => req == 24 || dma
  | 3 => req == 26 || (dma && !s.sealedLoad)
  | 7 => decide (req < 23) || req == 25
  | k => if 4 ≤ k then (decide (req < 16) && s.engOwner req == k - 4) || dma || req == 26 || req == 25
    || (decide (16 ≤ req ∧ req < 21) && fieldGet (s.word (Reg.PRS_RES (k - 4))) (16 + (req - 16)) 1 == 1)
    else false

/-- Does secure descriptor `r` contain offset `o` (R269)? -/
def State.secHas (s : State) (r o : Nat) : Bool :=
  s.on (Reg.HRD_SEC_LO_V r) && decide (s.get (Reg.HRD_SEC_LO_BASE r) ≤ o / 4096 ∧ o / 4096 ≤ s.get (Reg.HRD_SEC_HI_LIMIT r))

/-- Does secure descriptor `r` permit the requester (R269)? -/
def State.secPermits (s : State) (r req : Nat) : Bool :=
  (req == 26 && s.on (Reg.HRD_SEC_HI_LDR r))
    || (decide (req < 16) && s.on (Reg.ENG_CFG_SECURE req) && decide (s.engOwner req < 3)
        && fieldGet (s.word (Reg.HRD_SEC_HI r)) (13 + s.engOwner req) 1 == 1)

/-- May the requester reach the secure regions at offset `o` (R269)? -/
def State.secOk (s : State) (req o : Nat) : Bool :=
  (List.range 16).all (fun r => !s.secHas r o || s.secPermits r req)

def codeAddress : Nat := 0x0003
def codeSecure : Nat := 0x0004

/-- Why an access of `n` bytes at offset `o` is handled as in R18 or R19: the ledger code (R19, R241, R256), or none. The spec gives no
precedence among them: the model checks the end of the Hoard, secure regions, partitions, then the bank's state. DESIGN CHOICE, log entry 94. -/
def State.hoardDeny (s : State) (req o n : Nat) : Option Nat :=
  let e := o + n - 1
  if 0x1000000 ≤ e then some codeAddress
  else if !(s.secOk req o && s.secOk req e) then some codeSecure
  else if !([o, e].all (fun a => match s.partKind a with
      | some k => s.reaches req k
      | none => false)) then some codeAddress
  else if !(s.bankServes (bankOf o) && s.bankServes (bankOf e)) then some 0x0401
  else none

/-- A ledger entry about an access (R656): requester, internal address, write. -/
def State.recordAccess (s : State) (code req addr : Nat) (write : Bool) : State :=
  s.record code req (addr + (if write then 2 ^ 32 else 0))

/-! ## ECC -/

/-- The 8-byte granules, by the key of their first byte, that `n` bytes from key `k` touch (R262). -/
def granules (k n : Nat) : List Nat :=
  if n = 0 then [] else (List.range ((k + n - 1) / 8 - k / 8 + 1)).map (fun i => (k / 8 + i) * 8)

/-- A single-bit error in Hoard granule `g` is corrected and counted (R262). -/
def State.correct (s : State) (g : Nat) : State :=
  if s.eccOne.contains g then
    ({ s with eccOne := s.eccOne.filter (fun x => x != g) }.count Reg.HRD_ECC_CORR 1).count (Reg.HRD_BANK_CORR (bankOf g)) 1
  else s

/-- An uncorrectable granule is recorded and counted, and its address kept (R263). -/
def State.uncorrectable (s : State) (req g : Nat) (write : Bool) : State :=
  (((s.recordAccess 0x0402 req g write).count Reg.HRD_ECC_UNC 1).set Reg.HRD_ECCADDR_ADDR g).set Reg.HRD_STAT_UNC 1

/-- Check granules in ascending order, each by itself: is one uncorrectable (R262, R263)? -/
def State.checkGranules (s : State) (req : Nat) (gs : List Nat) (write : Bool) : Bool × State :=
  (gs.any (fun g => s.eccUnc.contains g),
    gs.foldl (fun t g => if s.eccUnc.contains g then t.uncorrectable req g write else t.correct g) s)

/-- Check the granules that `n` bytes from offset `o` touch. -/
def State.hoardCheck (s : State) (req o n : Nat) (write : Bool) : Bool × State := s.checkGranules req (granules (Memory.hoard o) n) write

/-- Is an access a burst: one of more than one word by a requester that is no engine (R245)? -/
def isBurst (req o n : Nat) : Bool := decide (16 ≤ req ∧ o / 16 ≠ (o + n - 1) / 16)

/-- The granules that a read checks: those that its bytes cover, and for an operation of a burst every granule of the words it reads (R245,
R262). -/
def readGranules (burst : Bool) (o n : Nat) : List Nat :=
  if burst ∧ n ≠ 0 then granules (Memory.hoard (o / 16 * 16)) (((o + n - 1) / 16 + 1) * 16 - o / 16 * 16)
  else granules (Memory.hoard o) n

/-- How many of the `n` bytes from offset `o` stand before the first uncorrectable granule that their read finds (R263). -/
def State.goodBytes (s : State) (req o n : Nat) : Nat :=
  ((readGranules (isBurst req o n) o n).filter (fun g => s.eccUnc.contains g)).foldl (fun m g => min m (g - Memory.hoard o)) n

/-- Granules that a write of `n` bytes from offset `o` covers only in part are read for check (R262). -/
def partGranules (o n : Nat) : List Nat :=
  (granules o n).filter (fun g => decide (g < o ∨ o + n < g + 8))

/-- A write makes the granules it covers wholly correct (R263). -/
def State.cleanEcc (s : State) (k n : Nat) : State :=
  let whole := (granules k n).filter (fun g => decide (k ≤ g ∧ g + 8 ≤ k + n))
  { s with eccUnc := s.eccUnc.filter (fun g => !whole.contains g), eccOne := s.eccOne.filter (fun g => !whole.contains g) }

/-! ## Directory and caches -/

def Hoard.entry (h : Hoard) (line : Nat) : Option DirEntry := (h.dir.find? (fun p => p.1 == line)).map (fun p => p.2)

/-- Replace a line's directory entry; INVALID is not listed. -/
def Hoard.setEntry (h : Hoard) (line : Nat) (d : Option DirEntry) : Hoard :=
  let rest := h.dir.filter (fun p => p.1 != line)
  { h with dir := match d with
    | some x => (line, x) :: rest
    | none => rest }

def Hoard.cache (h : Hoard) (core : Nat) : List CacheLine := h.caches.getD core []
def Hoard.setCache (h : Hoard) (core : Nat) (c : List CacheLine) : Hoard := { h with caches := h.caches.setIfInBounds core c }
def Hoard.copy (h : Hoard) (core line : Nat) : Option CacheLine := (h.cache core).find? (fun c => c.line == line)
def Hoard.dropCopy (h : Hoard) (core line : Nat) : Hoard := h.setCache core ((h.cache core).filter (fun c => c.line != line))
def Hoard.modCopy (h : Hoard) (core line : Nat) (f : CacheLine → CacheLine) : Hoard :=
  h.setCache core ((h.cache core).map (fun c => if c.line == line then f c else c))

def Hoard.channel (h : Hoard) (core : Nat) : List ChanMsg := h.chan.getD core []
def Hoard.setChannel (h : Hoard) (core : Nat) (m : List ChanMsg) : Hoard := { h with chan := h.chan.setIfInBounds core m }

def Hoard.txn (h : Hoard) (line : Nat) : Option LineTxn := h.txns.find? (fun t => t.line == line)

def State.modHoard (s : State) (f : Hoard → Hoard) : State := { s with hoard := f s.hoard }

/-- The physical core that serves logical engine `e`. -/
def State.coreOf (s : State) (e : Nat) : Nat := s.get (Reg.ENG_PHYS_CORE e)

/-- The logical engine that a physical core serves, or served until its substitution (R613). -/
def State.engOf (s : State) (core : Nat) : Option Nat :=
  if s.temper.drain = some core then some (s.get Reg.TMP_SUBSTAT_ENGINE) else (List.range 16).find? (fun e => s.coreOf e == core)

/-- The owner of a dirty line with a parity error raises DMEM_ECC (R153, R261): its current task takes the trap at its next instruction
boundary. DESIGN CHOICE, log entry 77. -/
def State.raiseEcc (s : State) (core : Nat) : State :=
  match s.engOf core with
  | none => s
  | some e => s.modEng e (fun g => { g with cur := g.cur.map (fun r => { r with trap := some causeDmemEcc }) })

/-- The data a channel message carries for a line, and whether it had a parity error. -/
def ChanMsg.dataFor (line : Nat) : ChanMsg → Option (List Byte × Bool)
  | .wb l d bad => if l == line then some (d, bad) else none
  | .answer l _ d => if l == line then d.map (fun x => (x, false)) else none

/-- A channel message without its data for a line: a write-back is taken whole. -/
def ChanMsg.strip (line : Nat) : ChanMsg → Option ChanMsg
  | .wb l d bad => if l == line then none else some (.wb l d bad)
  | .answer l h d => if l == line then some (.answer l h none) else some (.answer l h d)

/-- The newest data of a line where some core, channel or transaction still has it apart from the bank. -/
def Hoard.newest (h : Hoard) (line : Nat) : Option (Nat × CacheLine) :=
  (List.range 18).findSome? (fun c => match h.copy c line with
    | some x => if x.own then some (c, x) else none
    | none => none)

/-- The data of a line on a channel or in a transaction, and whether it had a parity error. -/
def Hoard.inFlight (h : Hoard) (line : Nat) : Option (List Byte × Bool) :=
  match (List.range 18).findSome? (fun c => (h.channel c).findSome? (ChanMsg.dataFor line)) with
  | some d => some d
  | none => match h.txn line with
    | some t => t.data.map (fun x => (x, false))
    | none => none

/-- Mark every granule of a line uncorrectable: a dirty copy came back with a parity error (R261). -/
def State.markLine (s : State) (line : Nat) : State :=
  { s with eccUnc := granules (Memory.hoard line) 64 ++ s.eccUnc.filter (fun g => !(granules (Memory.hoard line) 64).contains g) }

/-- A dirty line goes to the bank: with every granule marked when it had a parity error (`bad`), otherwise whole and correct (R261). -/
def State.putLine (s : State) (line : Nat) (data : List Byte) (bad : Bool) : State :=
  let t := s.wr (Memory.hoard line) data
  if bad then t.markLine line else t.cleanEcc (Memory.hoard line) 64

/-- An access of a requester that is no engine cache recalls (inv false) or invalidates (inv true) the copies of a line: the
newest data goes to the bank, and what is under way for the line carries none any more (R252, R257, log entry 6). -/
def State.recall (s : State) (line : Nat) (inv : Bool) : State :=
  let h := s.hoard
  let s := match h.newest line with
    | some (c, x) => let t := s.putLine line x.data x.parity; if x.parity then t.raiseEcc c else t
    | none => match h.inFlight line with
      | some d => s.putLine line d.1 d.2
      | none => s
  let h := (List.range 18).foldl (fun (h : Hoard) c =>
    let h := h.setChannel c ((h.channel c).filterMap (ChanMsg.strip line))
    if inv then h.dropCopy c line else h.modCopy c line (fun x => { x with own := false })) h
  let h := { h with txns := h.txns.map (fun (t : LineTxn) => if t.line == line then { t with data := none } else t) }
  let keep := (List.range 18).filter (fun c => (h.copy c line).isSome)
  let h := match h.entry line with
    | none => h
    | some _ => h.setEntry line (if inv || keep.isEmpty then none else some (.shared keep))
  { s with hoard := h }

/-- The engines whose requests for a line are open or wait at the directory, in arrival order (R260). -/
def Hoard.askers (h : Hoard) (line : Nat) : List Nat :=
  (h.txns.filter (fun t => t.line == line)).map (fun t => t.eng.val) ++ (h.waiting.filter (fun p => p.1 == line)).map (fun p => p.2.val)

/-- The access of a run that waits for a line is performed on the bank's line, where the newest data is. -/
def State.performMiss (s : State) (line : Nat) (r : Run) : Run × State :=
  match r.stall with
  | .miss op l rdx hv a =>
    if l ≠ line ∨ a.got.isSome then (r, s)
    else match a.w with
      | some b => ({ r with stall := .miss op l rdx hv { a with got := some [] } }, (s.wr (Memory.hoard a.o) b).cleanEcc (Memory.hoard a.o) b.length)
      | none => ({ r with stall := .miss op l rdx hv { a with got := some (s.rd (Memory.hoard a.o) a.n) } }, s)
  | _ => (r, s)

/-- The earlier request of engine `e` for a line is served: its access is performed, unless the engine has lost its permission or the line
is not whole, which the end of its transaction answers. -/
def State.settleMiss (s : State) (line e : Nat) : State :=
  if (s.hoardDeny e line 1).isSome || (granules (Memory.hoard line) 64).any (fun g => s.eccUnc.contains g) then s
  else
    let waits := fun (o : Option Run) => o.any (fun r => match r.stall with
      | .miss _ l _ _ _ => l == line
      | _ => false)
    let g := s.engN e
    if waits g.pre then
      match g.pre with
      | some r => let p := s.performMiss line r; p.2.modEng e (fun x => { x with pre := some p.1 })
      | none => s
    else
      match g.cur with
      | some r => let p := s.performMiss line r; p.2.modEng e (fun x => { x with cur := some p.1 })
      | none => s

/-- A direct access to a line with an open transaction waits for it and for the requests before it (R260): their accesses take effect first, in
arrival order, and their lines come when the transactions end. DEDUCED, log entry 97. -/
def State.settleLine (s : State) (line : Nat) (inv : Bool) : State :=
  let es := s.hoard.askers line
  es.foldl (fun t e => t.settleMiss line e) (s.recall line (inv || s.hoard.txns.any (fun t => t.line == line && t.rdx) || !(es.drop 1).isEmpty))

/-- The lines that `n` bytes from offset `o` touch. -/
def linesOf (o n : Nat) : List Nat :=
  if n = 0 then [] else (List.range ((o + n - 1) / 64 - o / 64 + 1)).map (fun i => (o / 64 + i) * 64)

/-- Recall the copies of every line an access touches; a line nobody holds is not touched. DEDUCED, log entry 6. -/
def State.recallAll (s : State) (o n : Nat) (inv : Bool) : State :=
  (linesOf o n).foldl (fun t l =>
    if (t.hoard.txn l).isSome then t.settleLine l inv
    else if (t.hoard.entry l).isSome || (t.hoard.inFlight l).isSome then t.recall l inv else t) s

/-- What a direct access gives: the bytes, or why not. -/
inductive Access where
  | ok (bytes : List Byte)
  /-- Some operation was handled as in R18 or R19; the bytes of a read, 0 where it was. -/
  | denied (bytes : List Byte)
  /-- An uncorrectable granule (R263). -/
  | uncorrectable
deriving DecidableEq, Repr

/-- What two operations of one access give together. -/
def Access.join (a b : Access) : Access :=
  match a, b with
  | .ok x, .ok y => .ok (x ++ y)
  | .ok x, .denied y => .denied (x ++ y)
  | .denied x, .ok y => .denied (x ++ y)
  | .denied x, .denied y => .denied (x ++ y)
  | _, _ => .uncorrectable

/-- The operations of an access of `n` bytes at `o`, lower address first: it is split at every 64-byte line boundary (R245, R248). -/
def linePieces (o n : Nat) : List (Nat × Nat) := (linesOf o n).map (fun l => (max o l, min (o + n) (l + 64) - max o l))

/-- Why an access of the Warden is handled as in R18, or none: R241 does not restrict it, and R269 permits it (R243, R256). -/
def State.wardenDeny (s : State) (o n : Nat) : Option Nat :=
  if 0x1000000 ≤ o + n - 1 then some codeAddress
  else if !(s.bankServes (bankOf o) && s.bankServes (bankOf (o + n - 1))) then some 0x0401
  else none

/-- A read within one line by a requester outside the caches, denied with this code or not (R257). DEDUCED, log entry 6. -/
def State.readChecked (s : State) (deny : Option Nat) (req o n : Nat) (burst : Bool) : Access × State :=
  match deny with
  | some c => (.denied (List.replicate n 0), s.recordAccess c req (Memory.hoard o) false)
  | none =>
    let p := (s.recallAll o n false).checkGranules req (readGranules burst o n) false
    (if p.1 then .uncorrectable else .ok (p.2.rd (Memory.hoard o) n), p.2)

/-- A read within one line by a requester that R241 and R269 check. -/
def State.readOp (s : State) (req o n : Nat) (burst : Bool) : Access × State := s.readChecked (s.hoardDeny req o n) req o n burst

/-- A write within one line by a requester outside the caches (R257, R262, R263). DEDUCED, log entry 6. -/
def State.writeOp (s : State) (req o : Nat) (bs : List Byte) : Access × State :=
  match s.hoardDeny req o bs.length with
  | some c => (.denied [], s.recordAccess c req (Memory.hoard o) true)
  | none =>
    let p := (s.recallAll o bs.length true).checkGranules req (partGranules (Memory.hoard o) bs.length) true
    if p.1 then (.uncorrectable, p.2)
    else (.ok [], (p.2.wr (Memory.hoard o) bs).cleanEcc (Memory.hoard o) bs.length)

/-- A read of `n` bytes at Hoard offset `o` by a requester outside the caches, as part of a burst or not: its operations, each by itself
(R245, R248). -/
def State.hoardReadAs (s : State) (burst : Bool) (req o n : Nat) : Access × State :=
  (linePieces o n).foldl (fun p x => let q := p.2.readOp req x.1 x.2 burst; (p.1.join q.1, q.2)) (.ok [], s)

/-- A read of `n` bytes at Hoard offset `o` by a requester outside the caches. -/
def State.hoardRead (s : State) (req o n : Nat) : Access × State := s.hoardReadAs (isBurst req o n) req o n

/-- A write of bytes at Hoard offset `o` by a requester outside the caches: its operations, each by itself (R245, R248). -/
def State.hoardWrite (s : State) (req o : Nat) (bs : List Byte) : Access × State :=
  (linePieces o bs.length).foldl (fun p x => let q := p.2.writeOp req x.1 ((bs.drop (x.1 - o)).take x.2); (p.1.join q.1, q.2)) (.ok [], s)

/-- A core's dirty lines go to the bank and its cache is emptied (R186): the directory forgets the core. -/
def State.flushCore (s : State) (core : Nat) : State :=
  let s := (s.hoard.channel core).foldl (fun (t : State) m => match m with
    | .wb l d bad => t.putLine l d bad
    | .answer .. => t) s
  let s := s.modHoard (fun h => h.setChannel core ((h.channel core).filter (fun m => match m with
    | .wb .. => false
    | .answer .. => true)))
  let s := (s.hoard.cache core).foldl (fun t c => if c.own then
      let u := t.putLine c.line c.data c.parity
      if c.parity then u.raiseEcc core else u
    else t) s
  let h := s.hoard
  let dir := h.dir.filterMap (fun p => match p.2 with
    | .owned c => if c == core then none else some p
    | .shared cs => let r := cs.filter (fun c => c != core); if r.isEmpty then none else some (p.1, .shared r))
  { s with hoard := { h.setCache core [] with dir := dir } }

end Sys2Proof.Machine
end

