-- ==== Sys2Proof/Machine/EngBase.lean ====
section
/-!
DEFINITION. What an engine reset, an abandoned substitution and an activation's discarded posts do (06, 18): shared by the
engines, the loader and the resets.
-/

namespace Sys2Proof.Machine

/-- A substitution in progress, not past SWITCH, of this engine is abandoned (R615). -/
def State.subAbandon (s : State) (e : Nat) : State :=
  let st := s.get Reg.TMP_SUBSTAT_STATE
  if (st == 1 || st == 2 || st == 3) && s.get Reg.TMP_SUBSTAT_ENGINE == e then
    ((s.set Reg.TMP_SUBSTAT_STATE 0).set Reg.TMP_SUBSTAT_FAIL 1).record 0x0D08 e 0
  else s

/-- The phase tasks still to start in this Compute are not started: each is counted as skipped, and its cyclic requests are sent again
(R187, R189). -/
def State.skipTodo (s : State) (e : Nat) : State :=
  let l := (s.engN e).todo
  (s.modEng e (fun g => { g with todo := [], resend := l ++ g.resend.filter (fun n => !l.contains n) })).count (Reg.ENG_SKIP_COUNT e) l.length

/-- An ENGINE reset starts (R186, R196): the task stops, uncommitted entries go, both contexts, loop levels, return stacks and
pending bits clear, dirty lines are written back and the cache is invalidated. A halt is released. The engine stays in reset. The ledger
entry names the kind by a bit number that PWR_RSTCAUSE does not have (R645, log entry 40): a free value. -/
def State.resetEng (s : State) (e : Nat) : State :=
  let s := ((s.abandonMig.subAbandon e).skipTodo e).flushCore (s.coreOf e)
  let s := s.modEng e (fun g => { g with
    ph := Ctx.zero, ev := Ctx.zero, cur := none, pre := none, todo := [], deferred := 0, pend := 0, fresh := 0, emitq := [],
    halted := false, haltReq := false, inReset := true, holdOff := true })
  let s := (s.set (Reg.ENG_DBG_HALT e) 0).set (Reg.ENG_DBG_HALTED e) 0
  let f := s.free
  f.2.record 0x0E02 0xFF (f.1.toNat % 256)

/-- The entries that the activation in progress of a slot has posted are discarded (R57, R182). -/
def Eng.discard (g : Eng) (slot : Nat) : Eng := { g with emitq := g.emitq.filter (fun x => !(x.slot == slot && x.live)) }

/-- Does the current instruction wait for an access that has been issued? It ends only with the answer (R175, R188). -/
def Eng.inAccess (g : Eng) : Bool :=
  match g.cur with
  | none => false
  | some r => match r.stall with
    | .miss .. => true
    | .remote .. => true
    | .hostRead .. => true
    | _ => false

/-- Does the engine carry a Strike-marked task (R188)? -/
def Eng.strike (g : Eng) : Bool := g.tasks.any (fun t => t.strike)

end Sys2Proof.Machine
end

