-- ==== Sys2Proof/Machine/LswOps.lean ====
section
/-!
DEFINITION. What the load-switch channels and half-bridges do: the source in force (R501), the refusal of shoot-through (R511)
and the dead time (R512), shared by commands, commits, protection and Quench.
-/

namespace Sys2Proof.Machine

def State.chan (s : State) (c : Nat) : Chan := s.lsw.chans.getD c Chan.zero
def State.modChan (s : State) (c : Nat) (f : Chan → Chan) : State :=
  { s with lsw := { s.lsw with chans := s.lsw.chans.setIfInBounds c (f (s.chan c)) } }
def State.hb (s : State) (h : Nat) : HalfBridge := s.lsw.hbs.getD h HalfBridge.zero
def State.modHb (s : State) (h : Nat) (f : HalfBridge → HalfBridge) : State :=
  { s with lsw := { s.lsw with hbs := s.lsw.hbs.setIfInBounds h (f (s.hb h)) } }

/-- A drive from MODE and DUTY (R498). -/
def Drive.ofCmd (mode duty : Nat) : Drive :=
  match mode with
  | 1 => .on
  | 2 => if duty = 0 then .off else if 1024 ≤ duty then .on else .pwm duty
  | _ => .off

/-- The stored set-up command of a channel (R498). -/
def State.stored (s : State) (c : Nat) : Drive := Drive.ofCmd (s.get (Reg.LSW_CH_CMD_MODE c)) (s.get (Reg.LSW_CH_CMD_DUTY c))

/-- The half-bridge of a channel, and is it paired? -/
def hbOf (c : Nat) : Nat := c % 6
def State.paired (s : State) (c : Nat) : Bool := s.on (Reg.LSW_HB_CFG_EN (hbOf c))

/-- Is the channel latched off (R503, R504)? -/
def State.tripped (s : State) (c : Nat) : Bool := s.on (Reg.LSW_CH_STAT_OCL c) || s.on (Reg.LSW_CH_STAT_OTL c)

/-- Is it latched off, or waiting to return after its clear (R505)? -/
def State.latched (s : State) (c : Nat) : Bool := s.tripped c || (s.chan c).relWait

/-- The other side of a channel's half-bridge. -/
def otherSide (c : Nat) : Nat := (c + 6) % 12

/-- Does a reset, HIBERNATE or a TAP instruction hold every channel off (R626, R643, R726)? -/
def State.allOff (s : State) : Bool := s.power.reset.isSome || s.get Reg.PWR_STAT_STATE == 3 || s.tap.hold

/-! ## What the Swage loops are set up for (R467, R478) -/

def State.swgOn (s : State) (l : Nat) : Bool := s.on (Reg.SWG_n_CTRL_EN l)
def State.swgNsamp (s : State) (l : Nat) : Nat := min (s.get (Reg.SWG_n_CFG_NSAMP l)) 64
def State.swgOut (s : State) (l : Nat) : Nat := if s.get (Reg.SWG_n_CFG_OUT l) ≤ 18 then s.get (Reg.SWG_n_CFG_OUT l) else 0
def State.swgGrp (s : State) (l : Nat) : Nat := s.get (Reg.SWG_n_CFG_GRP l)

/-- The channels an OUT value names. -/
def outChans (o : Nat) : List Nat :=
  if o = 0 then [] else if o ≤ 12 then [o - 1] else if o ≤ 18 then [o - 13, o - 7] else []

/-- The loops decided with loop `l`: itself, or the enabled members of its group, ascending (R478). -/
def State.swgGroup (s : State) (l : Nat) : List Nat :=
  if s.swgGrp l = 0 then [l] else (List.range 16).filter (fun m => s.swgOn m && s.swgGrp m == s.swgGrp l)

/-- The channels the output of loop `l` or of its group drives. -/
def State.swgChans (s : State) (l : Nat) : List Nat := (s.swgGroup l).flatMap (fun m => outChans (s.swgOut m))

/-! ## Outputs -/

/-- Does protection of the channel or of its pair, a Quench or a reset keep it from a loop's value, other than for a time (R489, R513)? -/
def State.losesLoop (s : State) (c : Nat) : Bool :=
  s.allOff || s.tripped c || (s.paired c && s.tripped (otherSide c)) || s.on Reg.PWR_QSTAT_ACTIVE

/-- Is a channel that loop `l` drives latched off, switched off by the supply, or held in a Quench safe state (R489)? -/
def State.swgBlocked (s : State) (l : Nat) : Bool :=
  (s.swgChans l).any (fun c => s.losesLoop c || s.on Reg.LSW_GSTAT_UV || s.on Reg.LSW_GSTAT_OV)

/-- STAT.BLOCKED reads 1 from the moment on; it clears at a sample (R489, R496). -/
def State.markBlocked (s : State) : State :=
  s.each 16 (fun l t => if t.swgOn l && t.swgBlocked l then t.set (Reg.SWG_n_STAT_BLOCKED l) 1 else t)

/-- The rank in force (R501) and the drive it asks for, before half-bridge refusal. -/
def State.source (s : State) (c : Nat) : Nat × Drive :=
  if s.allOff || s.latched c || s.lsw.supplyOff || (s.paired c && s.latched (otherSide c)) then (0, .off)
  else if s.lsw.qSafe then
    (1, match s.get (Reg.LSW_CH_CFG_SAFE c) with
      | 1 => .on
      | 2 => (s.chan c).hold
      | _ => .off)
  else match (s.chan c).swg with
    | some d => (2, d)
    | none => (3, (s.chan c).eff)

def Drive.isPwm : Drive → Bool
  | .pwm _ => true
  | _ => false

/-- A value outside a range is taken as the nearer limit (R500, R506, R512). -/
def within (v lo hi : Nat) : Nat := max lo (min hi v)

/-- SWAGE cycles of a channel's PWM period: a paired side uses the high side's (R500, R510). -/
def State.pwmCycles (s : State) (c : Nat) : Nat :=
  within (s.get (Reg.LSW_CH_PWM_PERIOD (if s.paired c then hbOf c else c))) 8000 2000000

/-- Do the TIME and TONGS domains run? In NAP and HIBERNATE they stand still (R622, R625), and with them the time base, the Tongs engines, the
pendant receiver, the counters and their captures (R532, R543, R552). -/
def State.tongsClock (s : State) : Bool := decide (s.get Reg.PWR_STAT_STATE < 2)

/-- An edge of a pin brings it to a level from outside. -/
def State.bringPin (s : State) (pin : Nat) (level : Bool) : State := { s with pio := { s.pio with ext := fieldSet s.pio.ext pin 1 (if level then 1 else 0) } }

/-- Has this time, in ns, passed since `t`? A time base that was set back, or stands still in NAP (R625), does not hold it up. DEDUCED, log entry 91. -/
def State.passed (s : State) (t d : Nat) : Bool := decide (s.now < t ∨ t + d ≤ s.now) || !s.tongsClock

/-- A SWAGE cycle takes 5 ns. Has the running period of a channel ended, or its on-phase of a duty (R500)? -/
def State.pwmOver (s : State) (c : Nat) : Bool := s.passed (s.chan c).pwmAt (5 * s.pwmCycles c)
def State.pwmOnOver (s : State) (c duty : Nat) : Bool := s.passed (s.chan c).pwmAt (5 * (s.pwmCycles c * duty / 1024))

/-- A channel is on or off; one that is off carries no current (R514). -/
def State.setOn (s : State) (c : Nat) (on : Bool) : State :=
  let s := s.setB (Reg.LSW_CH_STAT_ON c) on
  if on then s else s.set (Reg.LSW_CH_CUR_NOW c) 0

/-- A channel's output changes to a drive: ON follows; a change from off or continuously on to PWM starts a period (R500); a
change of duty acts in the running period, whose on-phase ends at once when it is over. DEDUCED, log entry 91. -/
def State.drive (s : State) (c : Nat) (d : Drive) : State :=
  let old := (s.chan c).now
  let on := match d with
    | .off => false
    | .on => true
    | .pwm n => !old.isPwm || (s.on (Reg.LSW_CH_STAT_ON c) && !s.pwmOnOver c n)
  (s.modChan c (fun x => { x with now := d, pwmAt := if d.isPwm && !old.isPwm then s.now else x.pwmAt })).setOn c on

/-- While a latch or a Quench holds a channel, a loop's value does not outlast it: the output resumes at the loop's first sample afterwards
(R489, R490). The supply keeps it (R507). DESIGN CHOICE, log entry 98. -/
def State.dropLoop (s : State) (c : Nat) : State :=
  if s.losesLoop c then s.modChan c (fun x => { x with swg := x.swg.map (fun _ => .off) }) else s

/-- One unpaired channel follows its source. -/
def State.refreshChan (s : State) (c : Nat) : State :=
  let p := s.source c
  let s := s.dropLoop c
  (s.set (Reg.LSW_CH_STAT_SRC c) p.1).drive c p.2

/-- Half-bridge `h`, paired: both sides of its pair driven is refused (R511), and a change of the driven side waits for the dead
time (R512, R522). -/
def State.refreshPair (s : State) (h : Nat) : State :=
  let hi := s.source h
  let lo := s.source (h + 6)
  let s := (s.dropLoop h).dropLoop (h + 6)
  let both := decide (hi.2 ≠ .off) && decide (lo.2 ≠ .off)
  let s := if both && !(s.hb h).refused then
      let off := fun (t : State) c => ((t.set (Reg.LSW_CH_CMD_MODE c) 0).set (Reg.LSW_CH_STAT_SHOOT c) 1).modChan c
        (fun x => { x with eff := .off })
      (off (off s h) (h + 6)).record 0x0A05 h 0
    else s
  let s := s.modHb h (fun x => { x with refused := both })
  let want := if both then 0 else if hi.2 ≠ .off then 1 else if lo.2 ≠ .off then 2 else 0
  let side := s.get (Reg.LSW_HB_STAT_SIDE h)
  let b := s.hb h
  let s := (s.set (Reg.LSW_CH_STAT_SRC h) (if both then 0 else hi.1)).set (Reg.LSW_CH_STAT_SRC (h + 6)) (if both then 0 else lo.1)
  let s :=
    if want = side then s.modHb h (fun x => { x with wait := 0 })
    else if side ≠ 0 then
      ((s.set (Reg.LSW_HB_STAT_SIDE h) 0).set (Reg.LSW_HB_STAT_DTACT h) 1).modHb h (fun x => { x with dtOld := side, wait := want, offAt := s.now })
    else if b.dtOld ≠ 0 ∧ want ≠ b.dtOld then s.modHb h (fun x => { x with wait := want })
    else ((s.set (Reg.LSW_HB_STAT_SIDE h) want).set (Reg.LSW_HB_STAT_DTACT h) 0).modHb h (fun x => { x with dtOld := 0, wait := 0 })
  let side := s.get (Reg.LSW_HB_STAT_SIDE h)
  (s.drive h (if side = 1 then hi.2 else .off)).drive (h + 6) (if side = 2 then lo.2 else .off)

/-- Every channel follows its source (R501, R511, R512). -/
def State.refreshLsw (s : State) : State :=
  s.markBlocked.each 6 (fun h t => if t.on (Reg.LSW_HB_CFG_EN h) then t.refreshPair h else (t.refreshChan h).refreshChan (h + 6))

/-- At an Emit start, or at once while RUNNING is 0: stored commands take effect, cleared latches release their channels and
the channels return after a supply event or a Quench (R499, R505, R507, R668). -/
def State.commitLsw (s : State) : State :=
  let s := s.each 12 (fun c t => t.modChan c (fun x => { x with eff := t.stored c, relWait := false }))
  let back := !s.on Reg.LSW_GSTAT_UV && !s.on Reg.LSW_GSTAT_OV
  let s := { s with lsw := { s.lsw with
    supplyOff := s.lsw.supplyOff && !back, qSafe := s.lsw.qSafe && s.on Reg.PWR_QSTAT_ACTIVE } }
  s.refreshLsw

/-- A stored command, a clear or a release acts at once while RUNNING is 0 and at the next Emit start otherwise. -/
def State.commitIdle (s : State) : State := if s.running then s else s.commitLsw

/-- The channels take their safe states (R666): `hold` is the output as it stood. -/
def State.safeLsw (s : State) : State :=
  let s := s.each 12 (fun c t => t.modChan c (fun x => { x with hold := x.now }))
  { s with lsw := { s.lsw with qSafe := true } }.refreshLsw

end Sys2Proof.Machine
end

