-- ==== Sys2Proof/Machine/PortOps.lean ====
section
/-!
DEFINITION. What the MACs share (03, 10): the conditions of the Strike promise, wire times, gates, credits, PAUSE, the transmit
selector, and the end of a frame.
-/

namespace Sys2Proof.Machine

/-! ## Ownership -/

/-- The personality slot whose admitted bindings hold a resource (R25, R279), or 3 for the host. -/
def State.bindOwner (s : State) (type idx : Nat) : Nat :=
  ((List.range 3).find? (fun n =>
    let x := s.prs.slots.getD n Slot.empty
    x.admitted && x.binds.any (fun b => b.1 == type && b.2.1 == idx))).getD 3

/-- Owner of port 0 to 5 or CAN controller 6, 7. -/
def State.portOwner (s : State) (p : Nat) : Nat :=
  if p < 4 then s.bindOwner 3 p else if p < 6 then s.bindOwner 4 (p - 4) else s.bindOwner 5 (p - 6)

/-- Bytes 2 to 7 of the owner's BIND entry of a port. -/
def State.portBind (s : State) (p : Nat) : Option (List Byte) :=
  let n := s.portOwner p
  if n = 3 then none
  else ((s.prs.slots.getD n Slot.empty).binds.find? (fun b => b.1 == (if p < 4 then 3 else 4) && b.2.1 == (if p < 4 then p else p - 4))).map
    (fun b => b.2.2)

/-! ## The Strike promise -/

/-- Does the Strike budget assume preemption on the port (R280, condition 7 of R77)? -/
def State.assumesPre (s : State) (p : Nat) : Bool :=
  match s.portBind p with
  | some b => decide ((b.getD 1 0).toNat ≥ 128)
  | none => false

/-- Is a host-memory read of a class-7 frame for the port still out after the start of Emit(k) (condition 8 of R77)? -/
def State.hostLate (s : State) (p : Nat) : Bool :=
  s.running && (List.range 64).any (fun r => (s.ring r).q.any (fun (d : Desc) =>
    d.opcode == 0x01 && d.cls == 7 && d.target == p && !d.written && d.res.isNone && d.data.isNone
      && decide (d.tickK < s.tick ∨ (d.tickK = s.tick ∧ 2 ≤ s.phase))))

/-- Is preemption active on the port (R326)? -/
def State.preActive (s : State) (p : Nat) : Bool := s.on (Reg.PORT_PRE_ACTIVE p) && s.get (Reg.PORT_PRE_AFS p) == 0

/-- Link up in full duplex. -/
def State.portUp (s : State) (p : Nat) : Bool := s.on (Reg.PORT_LSTAT_UP p)
def State.portFdx (s : State) (p : Nat) : Bool := s.on (Reg.PORT_LSTAT_FDX p)

/-- The code of the first condition of R77 that fails for unit `u` (0 to 5 MAC, 8 to 11 link), or none; condition 8 is one of `host`
frames only. -/
def State.strikeFailFor (s : State) (u : Nat) (host : Bool) : Option Nat :=
  let port := decide (u < 6)
  -- condition 1: frames and bytes are both non-zero; R77 does not say which. DESIGN CHOICE, log entry 67.
  if port && !(s.on (Reg.PORT_ALLOW_FRAMES u) && s.on (Reg.PORT_ALLOWB_BYTES u)) then some 1
  else if port && !s.on (Reg.PORT_PAUSEX_EXEMPT u) && s.on (Reg.PORT_PSTAT_PAUSED u) then some 2
  else if s.power.opBad != 0 then some 3
  else if s.get Reg.TMP_BLWSTAT_STATE == 2 then some 4
  else if s.on Reg.PWR_QSTAT_ACTIVE then some 5
  else if (if port then !(s.portUp u && s.portFdx u) else s.get (Reg.CHN_L_STAT_STATE (u - 8)) != 3) then some 6
  else if port && s.assumesPre u && !s.preActive u then some 7
  else if port && host && s.hostLate u then some 8
  -- TT cells go from a CONFIGURED device of a RUNNING Chain only (R424, R455)
  else if !port && !(s.on Reg.CHN_SSTAT_INTEG && s.on Reg.CHN_RUNCTL_RUN && s.get Reg.CHN_STAT_STATE == 4) then some 9
  else none

/-- The first condition of R77 that fails for a unit, or none. -/
def State.strikeFail (s : State) (u : Nat) : Option Nat := s.strikeFailFor u true

def State.linkD (s : State) (l : Nat) : Link := s.chain.links.getD l Link.zero
/-- Change port `p`'s own state when it is in half duplex. -/
def State.halfPort (s : State) (p : Nat) (f : Port → Port) : State := if s.portFdx p then s else s.modPort p f

def State.modLink (s : State) (l : Nat) (f : Link → Link) : State :=
  { s with chain := { s.chain with links := s.chain.links.setIfInBounds l (f (s.linkD l)) } }

def State.strikeHeld (s : State) (u : Nat) : Bool := if u < 6 then (s.port u).held else (s.linkD (u - 8)).held
/-- On a link also from when: the nominal start of the Gather at which this is judged. -/
def State.setHeld (s : State) (u : Nat) (b : Bool) : State :=
  if u < 6 then s.modPort u (fun p => { p with held := b })
  else s.modLink (u - 8) (fun l => { l with held := b, heldAt := if b then s.hearth.nominal else l.heldAt })

def voidFld (u : Nat) : Fld := if u < 6 then Reg.PORT_STRK_VOID u else Reg.CHN_L_STRK_VOID (u - 8)
def vcodeFld (u : Nat) : Fld := if u < 6 then Reg.PORT_STRK_VCODE u else Reg.CHN_L_STRK_VCODE (u - 8)

/-- Is the frame a host frame (R69)? -/
def Frame.isHost (f : Frame) : Bool :=
  match f.src with
  | .ring .. => true
  | _ => false

/-- A condition fails for port `u`: the class-7 frames that wait count to the void period, so that no bound is checked for them (R83).
Condition 8 concerns host frames only; `all`: another one fails. -/
def State.unbind (s : State) (u : Nat) (all : Bool) : State :=
  if u < 6 then s.modPort u (fun p => { p with
    heldFw := p.heldFw && !all, q := p.q.map (fun f => if all || f.isHost then { f with bound := none } else f) })
  else s

/-- A condition first fails for a unit (R78). While the unit is void, a second condition that fails writes nothing, and VCODE keeps the
first one's code: DESIGN CHOICE, log entry 67. The frames that wait count to the void period in any case (R83). -/
def State.checkVoid (s : State) (u : Nat) : State :=
  match s.strikeFail u with
  | none => s
  | some c =>
    let t := s.unbind u (s.strikeFailFor u false).isSome
    if s.strikeHeld u then (((t.setHeld u false).set (voidFld u) 1).set (vcodeFld u) c).record 0x0102 u c else t

/-- Every condition has held again from the start of a Gather (R78): for firmware frames those that concern them. A unit whose conditions
have never held since reset is not void and resumes without an entry. DESIGN CHOICE, log entry 94. -/
def State.checkResume (s : State) (u : Nat) : State :=
  let s := if u < 6 ∧ (s.strikeFailFor u false).isNone then s.modPort u (fun p => { p with heldFw := true }) else s
  match s.strikeFail u with
  | some _ => s
  | none => if s.strikeHeld u then s
    else
      let c := s.get (vcodeFld u)
      let t := s.setHeld u true
      if s.on (voidFld u) then ((t.set (voidFld u) 0).set (vcodeFld u) 0).record 0x0103 u c else t

def strikeUnits : List Nat := [0, 1, 2, 3, 4, 5, 8, 9, 10, 11]
def State.checkVoids (s : State) : State := strikeUnits.foldl State.checkVoid s
def State.checkResumes (s : State) : State := strikeUnits.foldl State.checkResume s

/-! ## Wire times -/

/-- Port rate in Mbit/s. -/
def State.rate (s : State) (p : Nat) : Nat :=
  match s.get (Reg.PORT_LSTAT_SPEED p) with
  | 0 => 10
  | 1 => 100
  | 2 => 1000
  | _ => 2500

/-- Frame length including the FCS: a frame whose FCS the MAC appends is padded to 60 bytes first (R318); one that an uncorrectable granule
cuts short has the stomp code in its FCS's place (R263). -/
def Frame.lenFcs (f : Frame) : Nat :=
  if f.bad then f.bytes.length + 4 else if f.hasFcs then f.bytes.length else max f.bytes.length 60 + 4

/-- Time of `n` line bytes in tenths of a ns. -/
def State.lineTime (s : State) (p n : Nat) : Nat := 80000 / s.rate p * n

/-- The latencies of R370 for MAC n in its mode; 0 while the link is down. -/
def State.latencies (s : State) (n : Nat) : Nat × Nat :=
  if !s.on (Reg.PORT_LSTAT_UP n) then (0, 0)
  else
    let sp := s.get (Reg.PORT_LSTAT_SPEED n)
    if n < 4 then (if sp = 0 then (2540, 1360) else (296, 184))
    else match sp with
      | 0 => (2104, 1024)
      | 1 => (312, 180)
      | 2 => if s.get (Reg.PORT_LCFG_MODE n) = 1 then (140, 88) else (152, 96)
      | _ => (104, 64)

/-- Wire time of a frame in tenths of a ns (R70). -/
def State.wireTime (s : State) (p : Nat) (f : Frame) : Nat := s.lineTime p (f.lenFcs + 20)

/-- B_port in tenths of a ns (R70). -/
def State.bPort (s : State) (p : Nat) : Nat := s.lineTime p (if s.preActive p then 123 else 1538)

/-! ## Gates (R328 to R331) -/

/-- Do the gates act on the port (R331)? -/
def State.gated (s : State) (p : Nat) : Bool := s.on (Reg.PORT_GCTL_EN p) && s.running && s.portFdx p && !(s.port p).gates.isEmpty

def gateBit (g c : Nat) : Bool := g / 2 ^ c % 2 == 1

def State.gateOpen (s : State) (p c : Nat) : Bool :=
  c == 7 || !s.gated p || gateBit (((s.port p).gates.getD (s.port p).gateIdx (255, 0)).1) c

/-- From a list of (gates, duration in ns) entries: for how long class `c` stays open from the start of the list; none if it
never closes in it. -/
def openFor (c : Nat) : List (Nat × Nat) → Option Nat
  | [] => none
  | (g, d) :: r => if gateBit g c then (openFor c r).map (fun x => d + x) else some 0

/-- The entries of a list cut to a tick of `tp` ns, whose last one holds `ext` ns longer; the last entry in use holds to the tick's end
(R329). -/
def cutTo (ext tp : Nat) : List (Nat × Nat) → List (Nat × Nat)
  | [] => []
  | (g, d) :: r => if tp ≤ d ∨ r.isEmpty then [(g, tp + ext)] else (g, d) :: cutTo ext (tp - d) r

/-- The administrative list of a port. -/
def State.adminGates (s : State) (p : Nat) : List (Nat × Nat) :=
  (List.range (s.get (Reg.PORT_GCTL_NENT p) + 1)).map (fun i => (s.get (Reg.PORT_GCL_GATES p i), s.get (Reg.PORT_GCL_DUR p i)))

/-- Does a tick start at `t` take the list committed on port `p`: it lies 1 µs behind the COMMIT (R328)? -/
def State.commitBy (s : State) (p t : Nat) : Bool := (s.port p).commitAt.any (fun c => decide (c + 1000 ≤ t))

/-- Length of the tick in progress, ns, as it stands now (R39, R41). -/
def State.tickLen (s : State) : Nat := s.tickAt - s.hearth.nominal

/-- The entries of the operational list of this tick, and of the list that is operational in the next (R328, R329), in ns. -/
def State.gateSpans (s : State) (p : Nat) : List (Nat × Nat) × List (Nat × Nat) :=
  let ns := fun (l : List (Nat × Nat)) => l.map (fun x => (x.1, x.2 * 10))
  (cutTo (s.tickLen - s.tp) (min s.tp s.tickLen) (ns (s.port p).gates),
    cutTo 0 s.tp (ns (if s.commitBy p (s.hearth.nominal + s.tickLen) then s.adminGates p else (s.port p).gates)))

/-- Nanoseconds from now to the closing of the gate of class `c` (R330); none if it does not close in this tick or the next. -/
def State.closesIn (s : State) (p c : Nat) : Option Nat :=
  let l := s.gateSpans p
  let off := s.now - s.hearth.nominal
  let i := (s.port p).gateIdx
  let before := (l.1.take i).foldl (fun n x => n + x.2) 0
  match openFor c (l.1.drop i ++ l.2) with
  | none => none
  | some n => some (n - (off - before))

/-- Express frames (R325). -/
def State.express (s : State) (p c : Nat) : Bool := c == 7 || (c == 6 && s.on (Reg.PORT_PRE_C6X p))

/-- Preemptable under active preemption: its fragments may be cut (R325, R327). -/
def State.preemptable (s : State) (p c : Nat) : Bool := s.on (Reg.PORT_PRE_ACTIVE p) && !s.express p c

/-- Does the frame fit its window (R330)? -/
def State.fits (s : State) (p : Nat) (f : Frame) : Bool :=
  !s.gated p || f.cls == 7 || s.preemptable p f.cls ||
    match s.closesIn p f.cls with
    | none => true
    | some n => decide (s.wireTime p f ≤ n * 10)

/-! ## Credits (R332): 10^-4 bit -/

def State.idleSlope (s : State) (p c : Nat) : Nat := if c = 1 then s.get (Reg.PORT_CBS1_IDLE p) else s.get (Reg.PORT_CBS2_IDLE p)

/-- Do the idleSlopes exceed 75 % of the rate, so that both classes are sent unshaped? -/
def State.slopesOver (s : State) (p : Nat) : Bool :=
  decide ((s.get (Reg.PORT_CBS1_IDLE p) + s.get (Reg.PORT_CBS2_IDLE p)) * 4 > s.rate p * 10 * 3)

def State.shaped (s : State) (p c : Nat) : Bool := (c == 1 || c == 2) && s.idleSlope p c != 0 && !s.slopesOver p

def Port.credit (x : Port) (c : Nat) : Int := if c = 1 then x.credit1 else x.credit2
def Port.setCredit (x : Port) (c : Nat) (v : Int) : Port := if c = 1 then { x with credit1 := v } else { x with credit2 := v }

/-- Does a PAUSE hold class `c` (R334, R335)? -/
def State.paused (s : State) (p c : Nat) : Bool :=
  s.on (Reg.PORT_PSTAT_PAUSED p) && !(c == 7 && s.on (Reg.PORT_PAUSEX_EXEMPT p))

/-- One class's credit moves on by `dt` ns. -/
def State.creditStep (s : State) (p dt c : Nat) (x : Port) : Port :=
  if !s.shaped p c then x
  else
    let waits := x.q.any (fun f => f.cls == c)
    let onWire := match x.wire with
      | some f => f.cls == c
      | none => false
    let idle := s.idleSlope p c
    let v := x.credit c
    let v : Int :=
      if onWire then v + ((idle : Int) - 10 * s.rate p) * dt
      else if waits && s.gateOpen p c && !s.paused p c then v + (idle : Int) * dt
      else v
    -- the queue is empty once its last frame is on the wire
    x.setCredit c (if !waits && decide (v > 0) then 0 else v)

/-- Bring the credits of a port up to now; CBSERR is set while the slopes are too steep. -/
def State.credits (s : State) (p : Nat) : State :=
  let dt := s.now - (s.port p).creditT
  let s := if s.slopesOver p && (s.on (Reg.PORT_CBS1_IDLE p) || s.on (Reg.PORT_CBS2_IDLE p)) then s.set (Reg.PORT_LSTAT_CBSERR p) 1 else s
  s.modPort p (fun x => { (s.creditStep p dt 2 (s.creditStep p dt 1 x)) with creditT := s.now })

/-! ## The transmit selector (R323) -/

def Frame.isPause (f : Frame) : Bool := f.src == .pause

/-- In half duplex the transmitter defers to a reception, and a frame that has collided waits out its backoff (R315, Clause 4); a frame of
a higher class may go meanwhile. PRESUMED, log entry 68. -/
def State.defers (s : State) (p : Nat) (f : Frame) : Bool :=
  !s.portFdx p && ((s.port p).rxBusy || f.retry.any (fun t => decide (s.now < t)))

/-- May the frame start (R323)? No gate or credit holds a PAUSE frame, which goes ahead of classes 6 to 0 (R322); a PAUSE in force does, as
it holds every frame but class 7 where that is exempt (R334, R335). -/
def State.eligible (s : State) (p : Nat) (f : Frame) : Bool :=
  s.portUp p && s.on (Reg.PORT_LCFG_EN p) && !s.defers p f && !s.paused p f.cls && (f.isPause ||
    (s.gateOpen p f.cls && s.fits p f && (!s.shaped p f.cls || decide (0 ≤ (s.port p).credit f.cls))))

/-- The selector's order: class 7, PAUSE frames, then classes 6 to 0 (R322, R323). -/
def Frame.prio (f : Frame) : Nat := if f.isPause then 7 else if f.cls = 7 then 8 else f.cls

/-- The head of each queue that is eligible; the highest priority wins, the earliest in its queue. -/
def State.pick (s : State) (p : Nat) (ok : Frame → Bool) : Option Frame :=
  (List.range 9).reverse.findSome? (fun r =>
    match (s.port p).q.find? (fun f => f.prio == r) with
    | some f => if ok f && s.eligible p f then some f else none
    | none => none)

/-- Has every condition that concerns the frame held since a Gather start, so that a bound holds for it (R77, R78)? -/
def State.promised (s : State) (p : Nat) (f : Frame) : Bool := if f.isHost then (s.port p).held else (s.port p).heldFw

/-- A class-7 frame starts: past its bound while every condition holds is a miss (R79). -/
def State.checkMiss (s : State) (p : Nat) (f : Frame) : State :=
  match f.bound with
  | none => s
  | some b =>
    if decide (b < s.now * 10) && s.promised p f && (s.strikeFailFor p f.isHost).isNone then
      (s.record 0x0104 p (((s.now * 10 - b) / 10) * 2 ^ 32)).count (Reg.PORT_MISS_COUNT p) 1
    else s

/-- The bytes as they go out: a frame whose FCS the MAC appends is padded with zeros to 60 bytes first (R318). -/
def Frame.wireBytes (f : Frame) : List Byte := if f.hasFcs || f.bad then f.bytes else f.bytes ++ List.replicate (60 - f.bytes.length) 0

/-- A frame leaves its queue and starts on the wire; a positive credit ends with its queue (R332). -/
def State.startFrame (s : State) (p : Nat) (f : Frame) : State :=
  let s := (s.credits p).checkMiss p f
  let s := (s.modPort p (fun x => { x with q := x.q.erase f, wire := some { f with start := s.now, seg := s.now } })).credits p
  s.send (if f.isPause then .pause p (leNat f.bytes) else .txStart p f.wireBytes (f.hasFcs || f.bad))

/-- Bytes of the frame on the wire that its running fragment has sent, behind preamble and SFD. -/
def State.fragSent (s : State) (p : Nat) (f : Frame) : Nat := (s.now - f.seg) * s.rate p / 8000 - 8

/-- Does Clause 99 permit the end of the running fragment now: the fragment has its least size, 64 × (1 + AFS) bytes with its mCRC, and at
least 64 bytes of the frame remain? A frame that is still received counts as one of 1,518 bytes. PRESUMED, log entry 68. -/
def State.canCut (s : State) (p : Nat) (f : Frame) : Bool :=
  let n := s.fragSent p f
  decide (64 * (1 + s.get (Reg.PORT_PRE_AFS p)) ≤ n + 4 ∧ f.sent + n + 64 ≤ (if f.recv then 1518 else f.lenFcs))

/-- Is the running fragment to end at the first point that Clause 99 permits: an express frame waits (R327), the gate has closed (R330), or
a PAUSE holds the class (R84, R334)? -/
def State.mustCut (s : State) (p : Nat) (f : Frame) : Bool :=
  (s.port p).preempted.isNone && s.preemptable p f.cls && !f.isPause
    && (!s.gateOpen p f.cls || s.paused p f.cls || (s.pick p (fun g => s.express p g.cls)).isSome)

/-- On a free wire the highest eligible frame starts; while a frame has fragments left, an express or a PAUSE frame goes before them, and
nothing else (R323, R327). -/
def State.selectFree (s : State) (p : Nat) : State :=
  match (s.port p).preempted with
  | some w =>
    match s.pick p (fun f => s.express p f.cls || f.isPause) with
    | some f => s.startFrame p f
    | none => if s.gateOpen p w.cls && s.portUp p && !s.paused p w.cls then
        s.modPort p (fun y => { y with preempted := none, wire := some { w with seg := s.now } })
      else s
  | none =>
    match s.pick p (fun _ => true) with
    | some f => s.startFrame p f
    | none => s

/-- The selector of a port: a fragment that is to end and may end does; on a free wire the next frame starts (R323, R327). -/
def State.select (s : State) (p : Nat) : State :=
  let s := s.credits p
  match (s.port p).wire with
  | some w =>
    if s.mustCut p w && s.canCut p w then
      (s.modPort p (fun y => { y with preempted := some { w with cut := true, sent := w.sent + s.fragSent p w }, wire := none })).selectFree p
    else s
  | none => s.selectFree p

/-! ## IEEE 802.1CB (R343). PRESUMED, log entry 69. -/

def crc32Bit (c : W32) : W32 := if c.getLsbD 0 then (c >>> 1) ^^^ 0xEDB88320 else c >>> 1
def crc32Byte (c : W32) (b : Byte) : W32 := (List.range 8).foldl (fun x _ => crc32Bit x) (c ^^^ b.setWidth 32)

/-- The stomp code over bytes of a frame: the complement of their FCS (R339). -/
def stompCode (b : List Byte) : W32 := b.foldl crc32Byte 0xFFFFFFFF

/-- A frame with its FCS. -/
def withFcs (b : List Byte) : List Byte := b ++ leBytes 4 (~~~ stompCode b).toNat

/-- Where a redundancy tag stands: behind the addresses and an IEEE 802.1Q tag. -/
def rtagAt (b : List Byte) : Nat := if (b.drop 12).take 2 = [0x81, 0x00] then 16 else 12
def hasRtag (b : List Byte) : Bool := (b.drop (rtagAt b)).take 2 == [0xF1, 0xC1]
def rtagSeq (b : List Byte) : Nat := (b.getD (rtagAt b + 4) 0).toNat * 256 + (b.getD (rtagAt b + 5) 0).toNat
def dropRtag (b : List Byte) : List Byte := b.take (rtagAt b) ++ b.drop (rtagAt b + 6)
def addRtag (b : List Byte) (n : Nat) : List Byte :=
  b.take (rtagAt b) ++ [0xF1, 0xC1, 0, 0, BitVec.ofNat 8 (n / 256), BitVec.ofNat 8 n] ++ b.drop (rtagAt b)

/-- The vector recovery algorithm with history length `h`: is the frame numbered `n` accepted? -/
def CbStream.accept (x : CbStream) (h n : Nat) : Bool × CbStream :=
  let up := (n + 65536 - x.recov) % 65536
  let fresh := true :: List.replicate (h - 1) false
  if x.takeAny then (true, { x with recov := n, hist := fresh, takeAny := false })
  else if up = 0 ∨ 32768 ≤ up then
    let back := (65536 - up) % 65536
    if h ≤ back ∨ x.hist.getD back false then (false, x) else (true, { x with hist := x.hist.set back true })
  else if h ≤ up then (false, x)
  else (true, { x with recov := n, hist := (true :: (List.replicate (up - 1) false ++ x.hist)).take h })

/-- The slot and PID of the P-05 or P-12 personality that owns FP port `p`. -/
def State.cbOwner (s : State) (p : Nat) : Option (Nat × Nat) :=
  let n := s.portOwner p
  if 4 ≤ p ∨ n = 3 then none
  else
    let pid := s.get (Reg.PRS_ID_PID n)
    if pid = 5 ∨ pid = 12 then some (n, pid) else none

def Slot.cbStream (x : Slot) (i : Nat) : CbStream := ((x.cb.find? (fun y => y.1 == i)).map (fun y => y.2)).getD CbStream.zero

/-- Replace a stream of slot `n`. -/
def State.setStream (s : State) (n i : Nat) (c : CbStream) : State :=
  let x := s.prs.slots.getD n Slot.empty
  { s with prs := { s.prs with slots := s.prs.slots.setIfInBounds n { x with cb := (i, c) :: x.cb.filter (fun y => y.1 != i) } } }

/-- A received frame with its FCS on port `p`: the frame without its tag, or none when the recovery discards it. -/
def State.cbReceive (s : State) (p : Nat) (b : List Byte) : Option (List Byte) × State :=
  match s.cbOwner p with
  | none => (some b, s)
  | some (n, pid) =>
    match if hasRtag b then Config.cbStream pid false b else none with
    | none => (some b, s)
    | some i =>
      let r := ((s.prs.slots.getD n Slot.empty).cbStream i).accept (Config.cbHistory pid i % 32 + 1) (rtagSeq b)
      (if r.1 then some (withFcs (dropRtag (b.take (b.length - 4)))) else none, s.setStream n i r.2)

/-- A frame to send on port `p` gets its tag. -/
def State.cbInsert (s : State) (p : Nat) (f : Frame) : Frame × State :=
  match s.cbOwner p, f.src with
  | none, _ => (f, s)
  | _, .fwd _ => (f, s)
  | _, .pause => (f, s)
  | some (n, pid), _ =>
    match Config.cbStream pid true f.bytes with
    | none => (f, s)
    | some i =>
      let c := (s.prs.slots.getD n Slot.empty).cbStream i
      let b := if f.hasFcs then withFcs (addRtag (f.bytes.take (f.bytes.length - 4)) c.gen) else addRtag f.bytes c.gen
      ({ f with bytes := b, ins := f.ins + 6 }, s.setStream n i { c with gen := (c.gen + 1) % 65536 })

/-! ## The receive region (R319, R336) -/

/-- DESIGN CHOICE, log entry 28. -/
def State.occupancy (s : State) (p : Nat) : Nat := (s.port p).rx.foldl (fun n r => n + r.bytes.length) 0

/-- A PAUSE frame with a time in quanta waits for the selector (R322). -/
def State.queuePause (s : State) (p quanta : Nat) : State :=
  (s.modPort p (fun x => { x with pauseSent := s.now, q := x.q ++ [{ bytes := leBytes 2 quanta, hasFcs := false, cls := 0, src := .pause, k := 0, bound := none, start := 0, cut := false }] })).select p

/-- The occupancy reaches XOFF or falls below XON. -/
def State.pauseCheck (s : State) (p : Nat) : State :=
  if !(s.on (Reg.PORT_PCFG_TXEN p) && s.portUp p && s.portFdx p) then s
  else
    let o := s.occupancy p
    if !(s.port p).xoff && decide (s.get (Reg.PORT_PTHR_XOFF p) * 1024 ≤ o) then
      (s.modPort p (fun x => { x with xoff := true })).queuePause p (s.get (Reg.PORT_PCFG_QUANTA p))
    else if (s.port p).xoff && decide (o < s.get (Reg.PORT_PTHR_XON p) * 1024) then
      (s.modPort p (fun x => { x with xoff := false })).queuePause p 0
    else s

/-! ## The end of a frame -/

/-- PROGRESS of a chain of which `n` buffer bytes were sent, descriptor by descriptor (R109). -/
def spread (n : Nat) : List Desc → List (Desc × Nat)
  | [] => []
  | d :: r => (d, min n d.len) :: spread (n - d.len) r

/-- The chain of a TX frame ends: each descriptor's PROGRESS, STATUS and LEDGER; TIME is the frame's start when it started. -/
def State.endTx (s : State) (r idx st sent : Nat) (led : Option (BitVec 16)) (time : Option W32) : State :=
  match ((s.ring r).q.find? (fun (d : Desc) => d.idx == idx && !d.written)).bind (fun (d : Desc) => (s.ring r).chain d) with
  | none => s
  | some c =>
    let s := (spread sent c).foldl (fun t x => t.modDesc r (fun d => d.is x.1.idx x.1.gen) (fun d => { d with prog := x.2 })) s
    let s := if led.isSome then s.noteSeq r else s
    s.finish r (inChain c) st led time

/-- Buffer bytes among the first `n` bytes of a frame: what the MAC has inserted is none of them (R109). -/
def Frame.buffered (f : Frame) (n : Nat) : Nat := n - min f.ins (n - 12)

/-- The oldest frame of these bytes that egress `e` has still to send loses that copy. -/
def dropCopy (e : Nat) (b : List Byte) : List RxFrame → List RxFrame
  | [] => []
  | r :: l => if r.bytes == b && r.fwd.contains e then { r with fwd := r.fwd.erase e } :: l else r :: dropCopy e b l

/-- A store-and-forward copy of a forwarded frame has been sent or lost: the ingress region frees it with the last (R319). -/
def State.fwdGone (s : State) (ingress egress : Nat) (f : Frame) : State :=
  if f.cutThrough then s
  else (s.modPort ingress (fun x => { x with
    rx := (dropCopy egress f.bytes x.rx).filter (fun (r : RxFrame) => r.own || r.due || !r.fwd.isEmpty) })).pauseCheck ingress

/-- The transmit time of a frame that has started and not been sent whole: preamble and SFD take 64 bit times from its start (R371, R373);
none when it was sent in more than one fragment (R372). -/
def State.startTime (s : State) (p : Nat) (f : Frame) : Option W32 :=
  if f.cut then none
  else some (BitVec.ofInt 32 (((f.start * 10 + s.lineTime p 8 : Nat) : Int) / 10 - (s.latencies p).2))

/-- A frame of queue `p` ends without being sent whole: a TX chain completes as FAIL with the newest entry. -/
def State.failFrame (s : State) (p : Nat) (f : Frame) (sent : Nat) (started : Bool) : State :=
  match f.src with
  | .ring r i => s.endTx r i statusFail (f.buffered sent) (some s.led16) (if started then s.startTime p f else none)
  | .fwd i => s.fwdGone i p f
  | _ => s

/-! ## Joining a queue -/

/-- The place of a class-7 frame in the order of R71. A forwarded frame, which R71 does not name, stands among the firmware requests of
its tick: DESIGN CHOICE, log entry 67. -/
def Frame.rank (f : Frame) : Nat × Nat × Nat :=
  match f.src with
  | .ring r _ => (f.k, 1, r)
  | .safe _ => (f.k, 0, 1)
  | _ => (f.k, 0, 0)

def rankLe (a b : Nat × Nat × Nat) : Bool :=
  decide (a.1 < b.1 ∨ (a.1 = b.1 ∧ (a.2.1 < b.2.1 ∨ (a.2.1 = b.2.1 ∧ a.2.2 ≤ b.2.2))))

/-- Put a frame into a port's queue: class 7 in the order of R71, and the frames behind it wait its wire time longer (R69, R85). -/
def insert7 (w : Nat) (f : Frame) : List Frame → List Frame
  | [] => [f]
  | g :: r =>
    if g.cls = 7 ∧ !rankLe g.rank f.rank then
      f :: (g :: r).map (fun h => if h.cls = 7 then { h with bound := h.bound.map (fun b => b + w) } else h)
    else g :: insert7 w f r

/-- Class-7 frames and bytes already counted to tick `k` (R324). -/
def Port.usedAt (x : Port) (k : Nat) : Nat × Nat := ((x.used7.find? (fun u => u.1 == k)).map (fun u => u.2)).getD (0, 0)

/-- Would the frame exceed the port's class-7 allowance in its tick (R73, R324)? -/
def State.exceeds (s : State) (p : Nat) (f : Frame) : Bool :=
  let u := (s.port p).usedAt f.k
  decide (u.1 + 1 > s.get (Reg.PORT_ALLOW_FRAMES p) ∨ u.2 + f.lenFcs > s.get (Reg.PORT_ALLOWB_BYTES p))

/-- A frame joins its queue. `timed`: it is a class-7 frame of the Emit that starts now, so that a bound holds for it (R69), but not in a
void period (R78). A frame that its redundancy tag makes too long is not sent (R318), and one beyond the allowance goes as class 6
(R73). -/
def State.join (s : State) (p : Nat) (f : Frame) (timed : Bool) : State :=
  let k := (s.credits p).cbInsert p f
  if 1518 < k.1.lenFcs ∧ k.1 ≠ f then (s.record 0x0602 p k.1.lenFcs).failFrame p f 0 false else
  let f := k.1
  let s := k.2
  let counts := f.cls == 7 && (match f.src with
    | .ring .. => true
    | .fw .. => true
    | _ => false)
  if counts && s.exceeds p f then
    let s := match f.src with
      | .ring r i => (match ((s.ring r).q.find? (fun (d : Desc) => d.idx == i)).bind (fun (d : Desc) => (s.ring r).chain d) with
        | some c => s.modDesc r (inChain c) (fun d => { d with demoted := true })
        | none => s)
      | _ => s
    (s.count (Reg.PORT_DEMOTE_COUNT p) 1).modPort p (fun x => { x with q := x.q ++ [{ f with cls := 6, bound := none }] })
  else
    let w := s.wireTime p f
    let ahead := (((s.port p).wire.toList ++ (s.port p).q).filter (fun g => g.cls == 7 && rankLe g.rank f.rank)).foldl (fun n g => n + s.wireTime p g) 0
    let f := { f with bound := if timed && counts && s.promised p f then some (s.hearth.emitAt * 10 + 20000 + s.bPort p + ahead) else none }
    let u := (s.port p).usedAt f.k
    s.modPort p (fun x => { x with
      q := if f.cls = 7 then insert7 w f x.q else x.q ++ [f],
      used7 := if counts then (f.k, u.1 + 1, u.2 + f.lenFcs) :: x.used7.filter (fun v => v.1 != f.k) else x.used7 })

/-- A link goes down (R316): `sent` bytes of the frame on the wire were sent. The times of R371 are those of the link's mode until then. -/
def State.portDown (s : State) (p sent : Nat) : State :=
  let x := s.port p
  let s := s.record 0x0601 p 0
  let s := s.modPort p (fun y => { y with
    q := [], wire := none, preempted := none, pauseEnd := none, xoff := false, sof := 0, ct := none, vtries := 0, rxBusy := false })
  let s := match x.wire with
    | some f => (s.send (.txCut p none)).failFrame p f sent true
    | none => s
  let s := match x.preempted with
    | some f => s.failFrame p f f.sent true
    | none => s
  let s := x.q.foldl (fun t f => (t.failFrame p f 0 false).count (Reg.PORT_DROP_LINK p) 1) s
  let s := (((s.set (Reg.PORT_LSTAT_UP p) 0).set (Reg.PORT_LSTAT_LCHG p) 1).set (Reg.PORT_PRE_ACTIVE p) 0).set (Reg.PORT_PRE_VSTAT p) 0
  ((s.set (Reg.PORT_PSTAT_PAUSED p) 0).set (Reg.PORT_PSTAT_REMAIN p) 0).checkVoids

end Sys2Proof.Machine
end

