-- ==== Sys2Proof/Machine/PrsOps.lean ====
section
/-!
DEFINITION. What the personality loader shares (09): CRC-32C, header, section table, admission, application, failure and unload.
-/

namespace Sys2Proof.Machine

/-! ## CRC-32C (R278) -/

def crc32cBit (c : W32) : W32 := if c.getLsbD 0 then (c >>> 1) ^^^ 0x82F63B78 else c >>> 1
def crc32cByte (c : W32) (b : Byte) : W32 :=
  let x := c ^^^ b.setWidth 32
  crc32cBit (crc32cBit (crc32cBit (crc32cBit (crc32cBit (crc32cBit (crc32cBit (crc32cBit x)))))))
def crc32c (bs : List Byte) : W32 := ~~~ (bs.foldl crc32cByte 0xFFFFFFFF)

/-- A little-endian number of `n` bytes at offset `o` of a byte string. -/
def leAt (bs : List Byte) (o n : Nat) : Nat := leNat ((bs.drop o).take n)
def byteAt (bs : List Byte) (o : Nat) : Nat := (bs.getD o 0).toNat

/-! ## Codes of PRS_n_ERR -/

def errHeader : Nat := 1
def errSealonly : Nat := 2
def errFrameCrc : Nat := 3
def errFormat : Nat := 4
def errSource : Nat := 5
def errTooLarge : Nat := 6
def errTag : Nat := 7
def errRollback : Nat := 8
def errAdmit : Nat := 9
def errClaim : Nat := 10
def errHoardFit : Nat := 11
def errDelay : Nat := 12
def errMintick : Nat := 13
def errDoneTimeout : Nat := 14
def errBind : Nat := 15
def errSlotBusy : Nat := 16
def errCancelled : Nat := 17
def errFclk : Nat := 18
def errQuenched : Nat := 19

/-! ## Slot states -/

def slotEmpty : Nat := 0
def slotLoading : Nat := 1
def slotStaged : Nat := 2
def slotStartup : Nat := 3
def slotWaitDone : Nat := 4
def slotRunning : Nat := 5
def slotFailed : Nat := 6
def slotUnloading : Nat := 7

def State.slot (s : State) (n : Nat) : Slot := s.prs.slots.getD n Slot.empty
def State.modSlot (s : State) (n : Nat) (f : Slot → Slot) : State :=
  { s with prs := { s.prs with slots := s.prs.slots.setIfInBounds n (f (s.slot n)) } }
def State.slotState (s : State) (n : Nat) : Nat := s.get (Reg.PRS_STAT_STATE n)
def State.setSlotState (s : State) (n v : Nat) : State := s.set (Reg.PRS_STAT_STATE n) v

/-! ## Pins (R25, R526, R527) -/

/-- The slot whose Tongs BIND mask holds a pin, or 3: the host. A pin is claimed like any other resource, so CLAIM refuses a mask that
overlaps another loaded slot's, and no two admitted slots hold one pin; the first slot stands for both where they do. DEDUCED, log entry 80. -/
def State.pinOwner (s : State) (pin : Nat) : Nat :=
  ((List.range 3).find? (fun n =>
    let x := s.prs.slots.getD n Slot.empty
    x.admitted && x.binds.any (fun b => b.1 == 6 && leAt b.2.2 0 4 / 2 ^ pin % 2 == 1))).getD 3

/-! ## Start-up steps (R298) -/

/-- ORDER of the image: the step order and the step after which WAIT_DONE stands, 0 none. -/
def State.stepOrder (s : State) (n : Nat) : Nat := s.get (Reg.PRS_ID_ORDER n) % 4
def State.waitAfter (s : State) (n : Nat) : Nat := s.get (Reg.PRS_ID_ORDER n) / 4

/-- The step at place `i`: 0 CLK, 1 GSR, 2 WEN, 3 OUT. -/
def stepAt (order i : Nat) : Nat :=
  (match order with
    | 0 => [0, 1, 2, 3]
    | 1 => [0, 1, 3, 2]
    | _ => [0, 3, 1, 2]).getD i 0

/-- Has the OUT step of slot `n` been taken: are its pins driven and its tiles' outputs connected (09, Start-up steps; R292)? -/
def State.slotOut (s : State) (n : Nat) : Bool :=
  let st := s.slotState n
  st == slotRunning || st == slotUnloading
    || ((st == slotStartup || st == slotWaitDone) && (List.range (s.get (Reg.PRS_STAT_STEP n))).any (fun i => stepAt (s.stepOrder n) i == 3))

/-! ## Sources (R282, R284) -/

def sectorFld (k : Nat) : Fld := ⟨Reg.ING_SSTAT (k / 16), k % 16 * 2, 2⟩
def secNormal : Nat := 0

/-! ### Ingot reads (R564, R579, R580) -/

/-- A read at offset `x` returned 0xFF. -/
def State.ingReadError (s : State) (x code : Nat) : State :=
  ((s.set Reg.ING_STAT_RDERR 1).set Reg.ING_RDERRADDR_ADDR (Memory.ingot x)).record code (x / 0x10000) x

/-- A read of `n` bytes at offset `x` inside one 16-byte unit: the bytes, or none when they read 0xFF. -/
def State.ingRead (s : State) (x n : Nat) : Option (List Byte) × State :=
  let g := Memory.ingot (x / 16 * 16)
  if s.get (sectorFld (x / 0x10000)) ≠ secNormal then (none, s.ingReadError x 0x0C03)
  else if s.eccUnc.contains g then (none, (s.count Reg.ING_ECC_UNC 1).ingReadError x 0x0C04)
  else (some (s.rd (Memory.ingot x) n), if s.eccOne.contains g then s.count Reg.ING_ECC_CORR 1 else s)

/-- Units from offset `x` on, until one fails: whether all were read, the bytes, the state. -/
def State.ingUnits (s : State) : Nat → Nat → List Byte → Bool × List Byte × State
  | 0, _, acc => (true, acc, s)
  | f + 1, x, acc =>
    match s.ingRead x 16 with
    | (some b, t) => State.ingUnits t f (x + 16) (acc ++ b)
    | (none, t) => (false, acc, t)

/-! ### The boot SPI flash (R284) -/

/-- What the SFDP header says: without its signature command 0x03 with 3 address bytes at 12.5 MHz; with it density, address width and
1-1-4 fast read from the basic flash parameter table. The layout is JESD216's. PRESUMED, log entry 82. -/
def SpiFlash.ofSfdp (b : List Byte) : SpiFlash :=
  if leAt b 0 4 ≠ 0x50444653 then { density := none, width := 3, cmd := 0x03, khz := 12500 }
  else
    let t := leAt b 12 3
    let d1 := leAt b t 4
    let d2 := leAt b (t + 4) 4
    let bits := if d2 / 2 ^ 31 = 1 then 2 ^ (d2 % 2 ^ 31) else d2 + 1
    { density := some (bits / 8),
      width := if d1 / 2 ^ 17 % 4 = 2 ∨ (d1 / 2 ^ 17 % 4 = 1 ∧ 2 ^ 24 < bits / 8) then 4 else 3,
      cmd := if d1 / 2 ^ 22 % 2 = 1 then leAt b (t + 8) 4 / 2 ^ 24 else 0x0B, khz := 25000 }

/-- The loader has read the SFDP header, with command 0x5A at 25 MHz, before its first read (R284). -/
def State.spiKnown (s : State) (sfdp : List Byte) : SpiFlash × State :=
  match s.prs.spi with
  | some f => (f, s)
  | none =>
    let f := SpiFlash.ofSfdp sfdp
    (f, { s with prs := { s.prs with spi := some f } }.send (.spiRead 0x5A 3 25000 0 sfdp.length))

/-- A read of `n` bytes at offset `o`, where the flash answers `b`: whether it lies within the density and all of it came. -/
def State.spiRead (s : State) (sfdp : List Byte) (o n : Nat) (b : List Byte) : Bool × List Byte × State :=
  let p := s.spiKnown sfdp
  if p.1.density.any (fun d => decide (d < o + n)) then (false, [], p.2)
  else (decide (n ≤ b.length), b.take n, p.2.send (.spiRead p.1.cmd p.1.width p.1.khz o n))

/-! ### Any source -/

/-- Bytes `o` to `o + n - 1` of a source's file: whether they came without error, the bytes. -/
def State.readSrc (s : State) (src : LoadSrc) (o n : Nat) : Bool × List Byte × State :=
  match src with
  | .chain f => (true, (f.drop o).take n, s)
  | .ingot off =>
    if 0x800000 < off + o + n then (false, [], s)
    else
      let r := s.ingUnits ((n + 15) / 16) (off + o) []
      (r.1, r.2.1.take n, r.2.2)
  | .flash sfdp off f => s.spiRead sfdp (off + o) n (f.drop o)

/-- Does a chain deliver another length than the file's (R282)? -/
def LoadSrc.wrongLength (n : Nat) : LoadSrc → Bool
  | .chain f => f.length != n
  | _ => false

/-- The bytes of a record that have not come are read; the Ingot is read in units of 16 bytes (R287). Whether the record is whole. -/
def State.fillRecord (s : State) (n : Nat) : Bool × State :=
  let x := s.slot n
  match x.src with
  | none => (true, s)
  | some (src, len) =>
    let o := s.get (Reg.PRS_PROG_BYTES n) + x.file.length
    let need := match src with
      | .ingot _ => (275 - x.file.length) / 16 * 16
      | _ => 260 - x.file.length
    let r := s.readSrc src o (min need (len - o))
    (r.1, r.2.2.modSlot n (fun y => { y with file := y.file ++ r.2.1 }))

/-! ## Header (R277, R286) -/

/-- Why the first 64 stream bytes end a load: HEADER or SEALONLY. -/
def State.headerError (s : State) (h : List Byte) : Option Nat :=
  let pid := byteAt h 8
  let vmode := byteAt h 9
  let order := byteAt h 10
  let flags := byteAt h 11
  let arb := byteAt h 16
  let nsec := byteAt h 17
  let dly := byteAt h 18
  let fclk := byteAt h 19
  let mt := leAt h 20 4
  let slen := leAt h 24 4
  let good := leAt h 0 4 == 0x31534941 && leAt h 4 2 == 1 && leAt h 6 2 == 64 && leAt h 28 4 == (crc32c (h.take 28)).toNat
    && decide ((1 ≤ pid ∧ pid ≤ 13) ∨ 0x80 ≤ pid) && decide (vmode ≤ 2) && decide (order % 4 ≠ 3 ∧ order / 4 ≤ 4)
    && decide (flags % 2 = 0 ∧ flags < 16 ∧ flags / 2 % 4 ≠ 3) && decide (arb ≤ 63 ∨ arb = 255)
    && decide (2 ≤ nsec ∧ nsec ≤ 64 ∧ 8 ≤ dly ∧ dly ≤ 64) && decide (fclk = 0 ∨ (25 ≤ fclk ∧ fclk ≤ 250))
    && decide (2500 ≤ mt ∧ mt ≤ 6553600) && decide (slen % 256 = 0 ∧ 1024 ≤ slen ∧ slen ≤ 0xFFFF00)
    && ((h.drop 32).take 32).all (fun b => b == 0) && decide (64 ≤ h.length)
  if !good then some errHeader
  else if s.on Reg.PRS_GSTAT_SEALONLY && vmode == 0 then some errSealonly
  else if vmode == 0 && arb != 255 then some errHeader
  else none

/-- The stream length a header names, and the file length of its mode (R282). -/
def slenOf (h : List Byte) : Nat := leAt h 24 4
def fileLen (h : List Byte) : Nat := if byteAt h 9 = 0 then slenOf h / 256 * 260 else slenOf h

/-! ## Section table (R279) -/

/-- A section: kind, target, offset, length, parameter. -/
structure Section where
  kind : Nat
  target : Nat
  off : Nat
  len : Nat
  param : Nat
deriving DecidableEq, Repr

def sections (st : List Byte) : List Section :=
  (List.range (byteAt st 17)).map (fun i =>
    let o := 64 + 16 * i
    { kind := byteAt st o, target := byteAt st (o + 1), off := leAt st (o + 4) 4, len := leAt st (o + 8) 4, param := leAt st (o + 12) 4 })

def tableEnd (st : List Byte) : Nat := 64 + 16 * byteAt st 17

/-- Sections follow one another in ascending offset without overlap, inside the body. -/
def ascending (limit : Nat) : Nat → List Section → Bool
  | _, [] => true
  | o, x :: r => decide (o ≤ x.off ∧ x.off + x.len ≤ limit ∧ x.off % 4 = 0 ∧ x.len % 4 = 0 ∧ 4 ≤ x.len) && ascending limit (x.off + x.len) r

def sectionOk (x : Section) : Bool :=
  match x.kind with
  | 1 => decide (x.target < 16 ∧ x.param + x.len ≤ 0x20000)
  | 2 => decide (x.target < 16 ∧ x.param + x.len ≤ 0x40000)
  | 3 => x.target == 0 && x.param == 0
  | 4 => x.target == 0 && x.param == 0 && x.len % 12 == 0
  | 5 => x.target == 0 && x.param == 0 && x.len % 8 == 0
  | 6 => decide (x.target < 8) && x.param == 0
  | 7 => x.target == 0
  | _ => false

/-- The stretches between the section table, the sections in ascending order, and the trailer at `limit`: first byte, and the byte behind. -/
def gaps (limit : Nat) : Nat → List Section → List (Nat × Nat)
  | o, [] => [(o, limit)]
  | o, x :: r => (o, x.off) :: gaps limit (x.off + x.len) r

/-- Bytes between sections are 0, as far as the stream has come (R279). -/
def gapsZero (st : List Byte) : Bool :=
  (gaps (slenOf st - 256) (tableEnd st) (sections st)).all (fun g => ((st.drop g.1).take (g.2 - g.1)).all (fun b => b == 0))

/-- Is the section table well formed, as far as it can be judged without the bindings? -/
def tableOk (st : List Byte) : Bool :=
  let l := sections st
  let modes := (l.filter (fun x => x.kind == 6)).map (fun x => x.target)
  (l.getD 0 ⟨0, 0, 0, 0, 0⟩).kind == 5 && (l.getD 1 ⟨0, 0, 0, 0, 0⟩).kind == 4 && ascending (slenOf st - 256) (tableEnd st) l
    && l.all sectionOk && (List.range l.length).all (fun i => leAt st (66 + 16 * i) 2 == 0) && decide modes.Nodup

/-! ## BIND and BUDGET (R280) -/

def chunks (w : Nat) : Nat → List Byte → List (List Byte)
  | 0, _ => []
  | n + 1, bs => bs.take w :: chunks w n (bs.drop w)

def bindsOf (bs : List Byte) : List (Nat × Nat × List Byte) :=
  (chunks 8 (bs.length / 8) bs).map (fun c => (byteAt c 0, byteAt c 1, c.drop 2))

def bindLimit (type : Nat) : Nat :=
  match type with
  | 1 => 16
  | 2 => 5
  | 3 => 4
  | 4 => 2
  | 5 => 2
  | 6 => 8
  | 7 => 16
  | 8 => 1
  | _ => 0

/-- The units of an attachment point (09, Attachment points). -/
def attachOk (type unit : Nat) : Bool :=
  match type with
  | 0 => unit == 0
  | 1 => decide (unit < 4)
  | 2 => decide (unit < 4)
  | 3 => decide (unit < 16) && unit / 4 != unit % 4
  | 4 => decide (unit < 2)
  | 5 => decide (unit < 8)
  | _ => false

/-- The attachment points that bindings name: type and unit. -/
def attachments (b : List (Nat × Nat × List Byte)) : List (Nat × Nat) :=
  ((b.filter (fun x => x.1 == 2)).flatMap (fun x => [(byteAt x.2.2 0, byteAt x.2.2 1), (byteAt x.2.2 2, byteAt x.2.2 3)])).filter
    (fun a => a.1 != 0)

/-- Tiles attach to ports and units that their slot owns, and each direction of a port and each cut-through pair carries at most one
tile (R295); a violation is an invalid BIND section. DEDUCED, log entry 80. -/
def attachValid (b : List (Nat × Nat × List Byte)) : Bool :=
  let has := fun (type i : Nat) => b.any (fun x => x.1 == type && x.2.1 == i)
  (attachments b).all (fun a => match a.1 with
    | 1 => has 3 a.2
    | 2 => has 3 a.2
    | 3 => has 3 (a.2 / 4) && has 3 (a.2 % 4)
    | 4 => has 5 a.2
    | _ => has 6 a.2)
  && decide ((attachments b).filter (fun a => decide (a.1 ≤ 3))).Nodup

def bindOk (vmode : Nat) (b : Nat × Nat × List Byte) : Bool :=
  let x := b.2.2
  let zero := fun i => byteAt x i == 0
  decide (b.2.1 < bindLimit b.1) && (match b.1 with
    | 1 => decide (byteAt x 0 < 2) && (byteAt x 0 == 0 || vmode != 0) && zero 1 && zero 2 && zero 3 && zero 4 && zero 5
    | 2 => attachOk (byteAt x 0) (byteAt x 1) && attachOk (byteAt x 2) (byteAt x 3) && zero 5
    | 5 => zero 0 && zero 1 && zero 2 && zero 3 && zero 4 && zero 5
    | 6 => zero 4 && zero 5
    | 7 => zero 0 && zero 1 && zero 2 && zero 3 && zero 4 && zero 5
    | 8 => zero 0 && zero 1
    | _ => true)

/-- A budget entry from its 12 bytes. -/
def budgetEntry (c : List Byte) : Nat × TaskDef :=
  let fl := byteAt c 2
  (byteAt c 0, { slot := byteAt c 1, kind := if fl % 2 = 1 then .event else .phase, strike := fl / 2 % 2 == 1,
                 aligned := fl / 4 % 2 == 1, input := byteAt c 3, w := leAt c 4 4, act := leAt c 8 2, entry := leAt c 10 2 })

def budgetOk (c : List Byte) : Bool :=
  let ev := byteAt c 2 % 2 == 1
  decide (byteAt c 0 < 16 ∧ byteAt c 1 < 32 ∧ byteAt c 2 < 8 ∧ byteAt c 3 < 64 ∧ 1 ≤ leAt c 4 4 ∧ leAt c 10 2 ≤ 32767)
    && (if ev then decide (1 ≤ leAt c 8 2) else leAt c 8 2 == 0 && byteAt c 3 == 0)

/-- Check 1 of admission: the BIND and BUDGET sections are valid (R280). -/
def bindValid (vmode fclk : Nat) (bind budget : List Byte) : Bool :=
  let b := bindsOf bind
  let cs := chunks 12 (budget.length / 12) budget
  let ts := cs.map budgetEntry
  let tiles := b.any (fun x => x.1 == 2)
  b.all (bindOk vmode) && decide (b.map (fun x => (x.1, x.2.1))).Nodup && cs.all budgetOk
    && ts.all (fun t => b.any (fun x => x.1 == 1 && x.2.1 == t.1)) && decide (ts.map (fun t => (t.1, t.2.slot))).Nodup
    && decide ((ts.filter (fun t => t.2.kind == .event)).map (fun t => (t.1, t.2.input))).Nodup && (tiles == (fclk != 0))
    && attachValid b

/-! ## Admission (R53, R291) -/

/-- L, the per-engine admission limit in cycles (02, Admission). -/
def State.admitLimit (s : State) : Nat := (s.boundary 2 - s.boundary 1) * 36 / 100

/-- Budgeted work of engine `e` in a budget table. -/
def work (ts : List (Nat × TaskDef)) (e : Nat) : Nat :=
  (ts.filter (fun t => t.1 == e)).foldl (fun n t => n + (match t.2.kind with
    | .phase => t.2.w
    | .event => t.2.w * t.2.act)) 0

/-- The test of R53 for a budget table. -/
def State.admits (s : State) (ts : List (Nat × TaskDef)) : Bool :=
  (List.range 16).all (fun e => decide (work ts e ≤ s.admitLimit))

/-- DLY clamped to 8 to 64 (R173). -/
def State.entryDly (s : State) : Nat := max 8 (min 64 (s.get Reg.ENG_ENTRYDLY_DLY))

/-- The active partition of a kind: base and size in bytes. -/
def State.partition (s : State) (kind : Nat) : Option (Nat × Nat) :=
  (s.hoard.parts.find? (fun p => p.kind == kind)).map (fun p => (p.base * 0x10000, p.size * 0x10000))

def State.partSize (s : State) (kind : Nat) : Nat := ((s.partition kind).map (fun p => p.2)).getD 0

def hoardUse (b : List (Nat × Nat × List Byte)) : Nat :=
  ((b.find? (fun x => x.1 == 8)).map (fun x => leAt x.2.2 2 4)).getD 0

/-- The code of the first admission check that fails (R291), for the stream `st` of slot `n`. -/
def State.admission (s : State) (n : Nat) (st : List Byte) : Option Nat :=
  let secs := sections st
  let body := fun i => let x := secs.getD i ⟨0, 0, 0, 0, 0⟩; (st.drop x.off).take x.len
  let bind := bindsOf (body 0)
  let ts := (chunks 12 ((body 1).length / 12) (body 1)).map budgetEntry
  let vmode := byteAt st 9
  let fclk := byteAt st 19
  let modes := (secs.filter (fun x => x.kind == 6)).map (fun x => x.target)
  let others := (List.range 3).filter (fun m => m != n && (s.slot m).admitted)
  if !bindValid vmode fclk (body 0) (body 1) then some errBind
  else if bind.any (fun b => decide (b.1 ≠ 8) && decide (s.bindOwner b.1 b.2.1 ≠ 3))
      || bind.any (fun b => b.1 == 6 && (List.range 32).any (fun p => leAt b.2.2 0 4 / 2 ^ p % 2 == 1 && s.pinOwner p != 3))
      || modes.any (fun m => s.chain.tables.any (fun t => t.1 == m) || s.get Reg.CHN_MSTAT_ACTIVE == m) then some errClaim
  else if fclk != 0 && others.any (fun m => (s.slot m).fclk != 0 && (s.slot m).fclk != fclk) then some errFclk
  else if decide (hoardUse bind > s.partSize (4 + n)) || (vmode != 0 && decide (slenOf st > s.partSize 3)) then some errHoardFit
  else if decide (byteAt st 18 < s.entryDly) then some errDelay
  else if decide (leAt st 20 4 > s.get Reg.HRT_PERIOD_PERIOD) then some errMintick
  else if !s.admits ts then some errAdmit
  else none

/-! ## Tiles -/

/-- A tile's frames and block RAM are set to zero (R281). -/
def State.zeroTile (s : State) (t : Nat) : State :=
  let m := Memory.clear s.mem (Memory.frame t 0) (Memory.frame t 1280)
  let s := { s with mem := Memory.clear m (0x50000000 + 0x40000 * t) (0x50000000 + 0x40000 * t + 0x4000) }
  { s with prs := { s.prs with upsets := s.prs.upsets.filter (fun u => u.1 != t) } }

/-- The resources of a type that a slot binds. -/
def Slot.bound (x : Slot) (type : Nat) : List Nat := (x.binds.filter (fun b => b.1 == type)).map (fun b => b.2.1)

/-- The ports 0 to 5 that a slot binds. -/
def Slot.ports (x : Slot) : List Nat := x.bound 3 ++ (x.bound 4).map (fun u => u + 4)

/-- A Tongs engine's pins go to high-impedance. -/
def State.releasePins (s : State) (t : Nat) : State :=
  { s with tongs := s.tongs.setIfInBounds t { (s.tongs.getD t Tongs.zero) with drvEn := 0 } }

def bitmap (l : List Nat) : Nat := l.foldl (fun n i => n ||| 2 ^ i) 0

/-- Check passed: the slot claims its resources (R26, R291): its engines enter ENGINE reset and stay there, its tiles are zeroed. -/
def State.claim (s : State) (n : Nat) (st : List Byte) : State :=
  let secs := sections st
  let body := fun i => let x := secs.getD i ⟨0, 0, 0, 0, 0⟩; (st.drop x.off).take x.len
  let bind := bindsOf (body 0)
  let ts := (chunks 12 ((body 1).length / 12) (body 1)).map budgetEntry
  let s := s.modSlot n (fun x => { x with
    admitted := true, binds := bind, budget := ts, mintick := leAt st 20 4, fclk := byteAt st 19, arb := byteAt st 16 })
  let x := s.slot n
  let s := (x.bound 1).foldl (fun (t : State) e =>
    let sec := (bind.find? (fun b => b.1 == 1 && b.2.1 == e)).map (fun b => byteAt b.2.2 0)
    (((t.resetEng e).set (Reg.ENG_STAT_OWNER e) n).set (Reg.ENG_CFG_SECURE e) (sec.getD 0)).modEng e (fun g => { g with
      tasks := (ts.filter (fun y => y.1 == e)).map (fun y => y.2), cyc := [], overruns := [], overNow := [], resend := [], charged := [] })) s
  let s := (x.bound 2).foldl State.zeroTile s
  let s := x.ports.foldl (fun (t : State) p =>
    let b := (t.portBind p).getD []
    (t.set (Reg.PORT_ALLOW_FRAMES p) (leAt b 0 2 % 32768)).set (Reg.PORT_ALLOWB_BYTES p) (leAt b 2 4)) s
  (s.setWord (Reg.PRS_RES n) (BitVec.ofNat 32 (bitmap (x.bound 1) + bitmap (x.bound 2) * 2 ^ 16 + bitmap x.ports * 2 ^ 21
    + bitmap (x.bound 5) * 2 ^ 27))).checkVoids

/-! ## Application of sections (R287, R294) -/

/-- The FORGE records of a byte string, as (frame bytes, destinations as tile and frame); none when a record is cut short. -/
def forgeRecords : Nat → List Byte → List (List Byte × List (Nat × Nat)) × List Byte
  | 0, bs => ([], bs)
  | fuel + 1, bs =>
    let nd := leAt bs 0 2
    let size := (68 + 2 * nd + 3) / 4 * 4
    if bs.length < 68 ∨ bs.length < size ∨ nd = 0 then ([], bs)
    else
      let dest := (List.range nd).map (fun i => let d := leAt bs (68 + 2 * i) 2; (d / 2048 % 8, d % 2048))
      let r := forgeRecords fuel (bs.drop size)
      (((bs.drop 4).take 64, dest) :: r.1, r.2)

/-- The bytes of section `x` that stream bytes `a` to `b - 1` bring: where they begin in the section, and the bytes. -/
def slice (st : List Byte) (x : Section) (a b : Nat) : Nat × List Byte :=
  let lo := max a x.off
  let hi := min b (x.off + x.len)
  (lo - x.off, (st.drop lo).take (hi - lo))

/-- The destinations of the records that stream bytes up to `b - 1` complete in FORGE sections up to section `x`. -/
def forgeDests (st : List Byte) (b : Nat) (x : Section) : List (Nat × Nat) :=
  ((sections st).filter (fun y => y.kind == 3 && decide (y.off ≤ x.off))).flatMap (fun y =>
    let got := (st.drop y.off).take (min b (y.off + y.len) - y.off)
    (forgeRecords got.length got).1.flatMap (fun r => r.2))

/-- A frame takes its bytes; frames 1,024 to 1,279 are the block RAM's initial contents, 64 bytes each in ascending order. DEDUCED, log entry 27. -/
def State.putFrame (s : State) (t f : Nat) (b : List Byte) : State :=
  let s := s.wr (Memory.frame t f) b
  if 1024 ≤ f then s.wr (0x50000000 + 0x40000 * t + 64 * (f - 1024)) b else s

/-- Apply what stream bytes `a` to `b - 1` bring of one section; an error code ends the load. A HINIT write that is refused for an
uncorrectable granule (R263) ends it with SOURCE: DEDUCED, log entry 81. -/
def State.applySection (s : State) (n : Nat) (st : List Byte) (a b : Nat) (x : Section) : Option Nat × State :=
  let p := slice st x a b
  match x.kind with
  | 1 => (none, s.wr (Memory.engine x.target (x.param + p.1)) p.2)
  | 2 => (none, s.wr (Memory.engine x.target (0x40000 + x.param + p.1)) p.2)
  | 3 =>
    let got := (st.drop x.off).take (min b (x.off + x.len) - x.off)
    let r := forgeRecords got.length got
    let dests := forgeDests st b x
    let bad := decide (¬ dests.Nodup) || dests.any (fun d => decide (1280 ≤ d.2) || !((s.slot n).bound 2).contains d.1)
      || (decide (x.off + x.len ≤ b) && !r.2.isEmpty)
    if bad then (some errFormat, s)
    else (none, r.1.foldl (fun t y => y.2.foldl (fun u d => u.putFrame d.1 d.2 y.1) t) s)
  | 6 =>
    if x.off + x.len ≤ b ∧ a < x.off + x.len then
      (none, { s with chain := { s.chain with
        tables := (x.target, n, (st.drop x.off).take x.len) :: s.chain.tables.filter (fun t => t.1 != x.target) } })
    else (none, s)
  | 7 =>
    match s.partition (4 + n) with
    | some (base, _) =>
      let r := s.hoardWrite 26 (base + x.param + p.1) p.2
      (if r.1 = .uncorrectable then some errSource else none, r.2)
    | none => (none, s)
  | _ => (none, s)

/-- Sections name only engines that BIND binds, and HINIT lies within the declared use (R279). -/
def sectionsBound (st : List Byte) : Bool :=
  let x := (sections st).getD 0 ⟨0, 0, 0, 0, 0⟩
  let bind := bindsOf ((st.drop x.off).take x.len)
  let engine := fun (e : Nat) => bind.any (fun b => b.1 == 1 && b.2.1 == e)
  (sections st).all (fun x => match x.kind with
    | 1 => engine x.target
    | 2 => engine x.target
    | 7 => decide (x.param + x.len ≤ hoardUse bind)
    | _ => true)

/-- Apply what stream bytes `a` to `b - 1` bring, section by section in table order. -/
def State.applyRange (s : State) (n : Nat) (st : List Byte) (a b : Nat) : Option Nat × State :=
  (sections st).foldl (fun (p : Option Nat × State) x => match p.1 with
    | some c => (some c, p.2)
    | none => p.2.applySection n st a b x) (none, s)

/-- A trailer is right when TMAGIC, TKIND and BODYLEN are (R289). -/
def trailerOk (st : List Byte) : Bool :=
  let o := slenOf st - 256
  leAt st o 4 == 0x54534941 && byteAt st (o + 4) == byteAt st 9 && leAt st (o + 8) 4 == o

/-! ## The end of a load -/

/-- No loaded slot binds a tile: the FORGE PLL stops (R297). -/
def State.forgeStop (s : State) : State :=
  if (List.range 3).any (fun m => (s.slot m).admitted && !((s.slot m).bound 2).isEmpty) then s else s.set Reg.PRS_FCLK_MHZ 0

/-- The mode tables of a slot are removed; the active mode's, which is visible, stays until the Chain leaves that mode (R307). -/
def State.dropTables (s : State) (n : Nat) : State :=
  { s with chain := { s.chain with tables := s.chain.tables.filter (fun t => t.2.1 != n) } }

/-- Complete the descriptor of a load, with its PROGRESS on every member of its chain. -/
def State.endLoad (s : State) (r : Option RingRef) (st prog : Nat) (entry : Bool) : State :=
  match r with
  | none => s
  | some r =>
    let c := (((s.ring r.ring).q.find? r.picks).bind (fun d => (s.ring r.ring).chain d)).getD []
    let s := s.modDesc r.ring (inChain c) (fun d => { d with prog := prog })
    if entry then s.endWithEntry r.ring (inChain c) st else s.doneNow r.ring (inChain c)

/-- The load of slot `n` ends with a code (R292): before admission the slot returns to EMPTY, after it the slot is FAILED. -/
def State.failLoadAs (s : State) (n code status : Nat) : State :=
  let x := s.slot n
  let off := x.stream.length
  let s := (s.set (Reg.PRS_ERR_CODE n) code).set (Reg.PRS_ERR_OFFSET n) off
  let s := s.record 0x0501 n (code + off * 2 ^ 32)
  let s := s.endLoad x.req status (s.get (Reg.PRS_PROG_BYTES n)) true
  let s := { s with prs := { s.prs with active := none } }.set Reg.PRS_GSTAT_BUSY 0
  if x.admitted then
    let s := (x.bound 1).foldl State.resetEng s
    let s := (x.bound 2).foldl State.zeroTile s
    let s := x.ports.foldl (fun t p => t.set (Reg.PORT_LCFG_EN p) 0) s
    let s := (x.bound 6).foldl State.releasePins s
    ((s.dropTables n).modSlot n (fun y => { y with file := [], src := none, stream := [], req := none, after := none })).setSlotState n slotFailed
  else (((s.modSlot n (fun y => { Slot.empty with unload := y.unload })).setWord (Reg.PRS_ID n) 0).set (Reg.PRS_VER_VERSION n) 0).setSlotState n slotEmpty

def State.failLoad (s : State) (n code : Nat) : State := s.failLoadAs n code statusFail

/-- A PRS_LOAD that is refused: FAIL, progress 0 (R283). -/
def State.refuseLoad (s : State) (r : LoadReq) (code : Nat) : State :=
  ((s.set (Reg.PRS_ERR_CODE r.slot) code).record 0x0501 r.slot code).endLoad r.req statusFail 0 true

/-- Stage what has come of a SEALED stream in the staging partition; what is written before the stream overflows, or before its source
fails, has been accepted (R288, R292). DESIGN CHOICE, log entry 27. -/
def State.stage (s : State) (n : Nat) (whole : Bool) (file : List Byte) : State :=
  let p := (s.partition 3).getD (0, 0)
  let b := file.take p.2
  let s := ((s.hoardWrite 26 p.1 b).2.modSlot n (fun x => { x with stream := b })).set (Reg.PRS_PROG_BYTES n) b.length
  if p.2 < file.length then s.failLoad n errTooLarge
  else if whole then s.setSlotState n slotStaged
  else s.failLoad n errSource

/-- The loader starts a load, or refuses it: first it reads and checks the header; a SEALED file it stages, a FRAME file it takes record by
record (R283, R284, R286, R287). A source that does not deliver ends the load with code SOURCE, a chain of another length than the file's
with FORMAT. DEDUCED, log entry 27. -/
def State.startLoad (s : State) (r : LoadReq) : State :=
  if s.slotState r.slot ≠ slotEmpty then s.refuseLoad r errSlotBusy
  else if s.on Reg.PWR_QSTAT_ACTIVE then s.refuseLoad r errQuenched
  else
    let n := r.slot
    let s := { s with prs := { s.prs with active := some (Fin.ofNat 3 n) } }.set Reg.PRS_GSTAT_BUSY 1
    let s := (s.modSlot n (fun x => { Slot.empty with req := r.req, unload := x.unload, boot := r.req.isNone })).setSlotState n slotLoading
    let s := (s.setWord (Reg.PRS_ERR n) 0).set (Reg.PRS_PROG_BYTES n) 0
    let p := s.readSrc r.src 0 64
    let h := p.2.1
    let s := p.2.2
    if !p.1 then s.failLoad n errSource
    else match s.headerError h with
      | some c => s.failLoad n c
      | none =>
        let s := s.setWord (Reg.PRS_ID n) (BitVec.ofNat 32 (byteAt h 8 + byteAt h 9 * 2 ^ 8 + byteAt h 10 % 32 * 2 ^ 10
          + byteAt h 11 / 2 % 4 * 2 ^ 15 + byteAt h 11 / 8 % 2 * 2 ^ 17))
        let s := s.set (Reg.PRS_VER_VERSION n) (leAt h 12 4)
        if r.src.wrongLength (fileLen h) then s.failLoad n errFormat
        else if byteAt h 9 = 0 then s.modSlot n (fun x => { x with file := h, src := some (r.src, fileLen h) })
        else
          let q := s.readSrc r.src 64 (fileLen h - 64)
          q.2.2.stage n q.1 (h ++ q.2.1)

/-- When no load is in progress the waiting ones start, in consumption order (R283). -/
def State.nextLoad (s : State) : State :=
  let rec go : Nat → State → State
    | 0, s => s
    | k + 1, s =>
      if s.prs.active.isSome then s
      else match s.prs.waiting with
        | [] => s
        | r :: q => go k ({ s with prs := { s.prs with waiting := q } }.startLoad r)
  go s.prs.waiting.length s

/-! ## Unloading (R26, R307) -/

/-- Set-up registers from key `a` up to `b` take their reset values; what was captured or held for them goes with them (R26, R30, R31). -/
def State.resetRegs (s : State) (a b : Nat) : State :=
  { s with
    regs := s.regs.filter (fun r => decide (r.1 < a ∨ b ≤ r.1)), caps := s.caps.filter (fun r => decide (r.1 < a ∨ b ≤ r.1)),
    held := s.held.filter (fun r => decide (r.1 < a ∨ b ≤ r.1)) }

/-- A port is unloaded: a frame in transmission ends, the MAC is disabled, and the port is the host's in its reset state (R307). -/
def State.unloadPort (s : State) (p : Nat) : State :=
  let sent := ((s.port p).wire.map (fun f => f.sent + s.fragSent p f)).getD 0
  let s := if s.portUp p then s.portDown p sent else s
  (s.resetRegs (Reg.PORT_LCFG p) (Reg.PORT_LCFG p + 0x200)).modPort p (fun _ => Port.zero)

/-- The pins of slot `n` are high-impedance: no unit is named for them (R307, R527). -/
def State.unselectPins (s : State) (n : Nat) : State :=
  (List.range 32).foldl (fun (t : State) p =>
    if s.pinOwner p = n then t.set ⟨Reg.TNG_PIO_FSEL (p / 4), 8 * (p % 4), 5⟩ 0 else t) s

/-- A slot reads EMPTY: its state, identity, hash and resources; what its last load ended with, its upset counts and its settings stay. -/
def State.emptySlot (s : State) (n : Nat) : State :=
  ((((((s.set (Reg.PRS_STAT_STEP n) 0).setWord (Reg.PRS_ID n) 0).set (Reg.PRS_VER_VERSION n) 0).setWord (Reg.PRS_HASH_LO n) 0).setWord
    (Reg.PRS_HASH_HI n) 0).setWord (Reg.PRS_RES n) 0).setSlotState n slotEmpty

/-- The resources of slot `n` return to the host in their reset state and the slot reads EMPTY. -/
def State.unloadNow (s : State) (n : Nat) : State :=
  let x := s.slot n
  let s := s.unselectPins n
  let s := (x.bound 1).foldl (fun (t : State) e =>
    let phys := t.get (Reg.ENG_PHYS_CORE e)
    let u := (t.resetEng e).resetRegs (Reg.ENG_CTRL e) (Reg.ENG_CTRL e + 0x40)
    (u.set (Reg.ENG_PHYS_CORE e) phys).modEng e (fun _ => Eng.zero)) s
  let s := (x.bound 2).foldl State.zeroTile s
  let s := x.ports.foldl State.unloadPort s
  let s := (List.range 8).foldl (fun (t : State) i =>
    if x.ports.contains (t.get (Reg.PWR_SAFE_CTL_PORT i)) then t.set (Reg.PWR_SAFE_CTL_V i) 0 else t) s
  let s := (x.bound 5).foldl (fun (t : State) c =>
    { (t.resetRegs (Reg.PORT_CAN_CFG c) (Reg.PORT_CAN_CFG c + 0x20)) with cans := t.cans.setIfInBounds c Can.zero }) s
  let s := (x.bound 6).foldl (fun (t : State) c =>
    { ((t.resetRegs (Reg.TNG_CTRL c) (Reg.TNG_CTRL c + 0x20)).resetRegs (Reg.TNG_PROG c 0) (Reg.TNG_PROG c 0 + 0x80)) with
      tongs := t.tongs.setIfInBounds c Tongs.zero }) s
  let s := (x.bound 7).foldl (fun (t : State) c =>
    { (t.resetRegs (Reg.TMR_CTRL c) (Reg.TMR_CTRL c + 0x80)) with tmr := t.tmr.setIfInBounds c Timer.zero }) s
  let s := if (x.bound 2).contains s.prs.rbTile then { s with prs := { s.prs with rbFrame := 0 } } else s
  let s := (s.dropTables n).modSlot n (fun y => { Slot.empty with unload := y.unload })
  (s.emptySlot n).forgeStop.checkVoids

/-- The waiting PRS_UNLOADs of a slot complete. -/
def State.unloadsDone (s : State) (n : Nat) : State :=
  let l := (s.slot n).unload
  l.foldl (fun t r => t.doneNow r.ring r.picks) (s.modSlot n (fun x => { x with unload := [] }))

/-- Waiting PRS_UNLOADs act: at once on an EMPTY slot, and on a RUNNING or FAILED one at a Settle start or while no tick runs; one for a
slot that has come to WAIT_DONE ends its load first (R307). -/
def State.tryUnload (s : State) (settle : Bool) (n : Nat) : State :=
  if (s.slot n).unload.isEmpty then s
  else
    let s := if s.slotState n = slotWaitDone then s.failLoad n errCancelled else s
    let st := s.slotState n
    if st = slotEmpty then s.unloadsDone n
    else if (st = slotRunning ∨ st = slotFailed) ∧ (settle ∨ !s.running) then (s.unloadNow n).unloadsDone n
    else s

/-- A load has ended: waiting loads start, boot autoload may have ended (R285), waiting unloads may act (R307). -/
def State.afterLoad (s : State) : State :=
  let s := s.nextLoad
  let s := if s.prs.booting && s.prs.waiting.all (fun r => r.req.isSome) && !s.prs.active.any (fun n => (s.slot n.val).boot) then
      { s with prs := { s.prs with booting := false } }.set Reg.PRS_GSTAT_BOOTDONE 1
    else s
  s.each 3 (fun n t => t.tryUnload false n)

end Sys2Proof.Machine
end

