-- ==== Sys2Proof/Machine/Quench.lean ====
section
/-!
DEFINITION. Quench and its release (R665 to R669), as shared operations.
-/

namespace Sys2Proof.Machine

/-- The QNCH flag of the newest ledger entry: the fault that started a Quench (R656, R665). -/
def State.markQnch (s : State) : State :=
  { s with ledger := match s.ledger with
    | [] => []
    | e :: r => { e with flags := e.flags ||| 1 } :: r }

/-- A Swage loop in AUTO goes to MANUAL hold (R476, R490). -/
def State.manualHold (s : State) (l : Nat) : State :=
  if s.on (Reg.SWG_n_CTRL_AUTO l) then
    { s.set (Reg.SWG_n_CTRL_AUTO l) 0 with
      loops := s.loops.setIfInBounds l { (s.loops.getD l Loop.zero) with manLoad := true, transfer := false } }
  else s

/-- A Quench: the loop goes to MANUAL hold, and an output that it has computed is not applied any more (R490). -/
def State.quenchLoop (s : State) (l : Nat) : State :=
  let s := s.manualHold l
  { s with loops := s.loops.setIfInBounds l { (s.loops.getD l Loop.zero) with uPend := none } }

/-- DETAIL of a QUENCH or QUENCH_CLEAR entry: the source bitmap and one source (R656). -/
def quenchDetail (srcs src : Nat) : Nat := srcs + src * 2 ^ 16

/-- Source `src` of Quench fires (R665, R666); `fault`: the newest ledger entry is the fault that fires it. -/
def State.quench (s : State) (src : Nat) (fault : Bool) : State :=
  if s.on Reg.PWR_QSTAT_ACTIVE then
    let srcs := s.get Reg.PWR_QSTAT_SRCS ||| 2 ^ src
    (s.set Reg.PWR_QSTAT_SRCS srcs).record 0x0E03 0xFF (quenchDetail srcs src)
  else
    let s := if fault then s.markQnch else s
    let s := ((s.set Reg.PWR_QSTAT_ACTIVE 1).set Reg.PWR_QSTAT_FIRST src).set Reg.PWR_QSTAT_SRCS (2 ^ src)
    let s := (s.record 0x0E03 0xFF (quenchDetail (2 ^ src) src)).vecEvent 0
    let s := s.safeLsw.each 16 (fun l t => t.quenchLoop l)
    let s := { s with chain := { s.chain with withdraw := true, spoilt := s.chain.voted } }
    let s := match s.prs.active with
      | some n => (s.failLoad n.val errQuenched).afterLoad
      | none => s
    s.checkVoids

/-- Does HOLD refuse a release (R668)? A Quench that source 7 started, with Tj at 125 °C or above. DEDUCED, log entry 38. -/
def State.quenchHeld (s : State) : Bool := s.on Reg.PWR_QSTAT_HOLD

/-- An active Quench that is not held is released (R668). -/
def State.quenchRelease (s : State) : State :=
  let d := quenchDetail (s.get Reg.PWR_QSTAT_SRCS) (s.get Reg.PWR_QSTAT_FIRST)
  let s := ((s.set Reg.PWR_QSTAT_ACTIVE 0).set Reg.PWR_QSTAT_FIRST 0).set Reg.PWR_QSTAT_SRCS 0
  (s.record 0x0E04 0xFF d).commitIdle

end Sys2Proof.Machine
end

