-- ==== Sys2Proof/Machine/EngOps.lean ====
section
/-!
DEFINITION. Tasks, event inputs, overruns, traps and halts of the Anvil engines (02 Tasks and budgets, 06), as operations that
commands share.
-/

namespace Sys2Proof.Machine

/-! ## Contexts -/

/-- The context a task kind runs in (R160). -/
def Eng.ctx (g : Eng) (k : TaskKind) : Ctx :=
  match k with
  | .phase => g.ph
  | .event => g.ev

def Eng.setCtx (g : Eng) (k : TaskKind) (c : Ctx) : Eng :=
  match k with
  | .phase => { g with ph := c }
  | .event => { g with ev := c }

/-- The context of the current task. -/
def State.ctxOf (s : State) (e : Nat) : Ctx :=
  match (s.engN e).cur with
  | some r => (s.engN e).ctx r.kind
  | none => (s.engN e).ph

def State.modCtx (s : State) (e : Nat) (k : TaskKind) (f : Ctx → Ctx) : State :=
  s.modEng e (fun g => g.setCtx k (f (g.ctx k)))

/-- Change the current run of an engine. -/
def State.modRun (s : State) (e : Nat) (f : Run → Run) : State := s.modEng e (fun g => { g with cur := g.cur.map f })

/-- Does a task marked Strike issue the engine's current request (R20)? -/
def State.strikeRun (s : State) (e : Nat) : Bool :=
  match (s.engN e).cur with
  | some r => r.strike
  | none => false

/-- The task of a slot. -/
def Eng.task (g : Eng) (slot : Nat) : Option TaskDef := g.tasks.find? (fun t => t.slot == slot)

/-- The event task an input is bound to (R170). -/
def Eng.bound (g : Eng) (i : Nat) : Option TaskDef := g.tasks.find? (fun t => t.kind == .event && t.input == i)

/-- The inputs bound to event tasks. -/
def Eng.boundMask (g : Eng) : BitVec 64 :=
  g.tasks.foldl (fun m t => if t.kind == .event then m ||| BitVec.ofNat 64 (2 ^ t.input) else m) 0

def bit64 (i : Nat) : BitVec 64 := BitVec.ofNat 64 (2 ^ (i % 64))

/-- Activations of an event slot charged to this tick. -/
def Eng.chargedOf (g : Eng) (slot : Nat) : Nat := ((g.charged.find? (fun p => p.1 == slot)).map (fun p => p.2)).getD 0

/-- May the slot be activated again in this tick (R51)? -/
def Eng.within (g : Eng) (t : TaskDef) : Bool := decide (g.chargedOf t.slot < t.act)

/-- Does the engine start tasks? Not halted, not in reset, and past the first Compute after a reset (R187, R189). -/
def Eng.starts (g : Eng) : Bool := !g.halted && !g.inReset && !g.holdOff

/-- Is the engine idle or running a phase task (R47, R176)? -/
def Eng.free (g : Eng) : Bool :=
  match g.cur with
  | none => true
  | some r => r.kind == .phase

/-- The instruction at `pc` completes: the loop levels and the next PC (R165, R211). -/
def loopNext (pc : W32) : List LoopLevel → List LoopLevel × W32
  | [] => ([], pc + 4)
  | l :: r => if l.le = pc then (if 1 < l.lc.toNat then ({ l with lc := l.lc - 1 } :: r, l.ls) else loopNext pc r) else (l :: r, pc + 4)

/-- An instruction that is no branch completes. -/
def Ctx.complete (c : Ctx) : Ctx :=
  let p := loopNext c.pc c.loops
  { c with loops := p.1, pc := p.2 }

/-! ## Starting tasks -/

/-- A new activation. -/
def Run.new (t : TaskDef) (stall : Stall) : Run :=
  { slot := t.slot, kind := t.kind, strike := t.strike, clock := 0, stall := stall, first := true, entry := none, handler := none,
    lutGot := [], trap := none }

/-- A context at the start of an activation: loop levels and return stack cleared, PC at the entry (R739). -/
def Ctx.enter (c : Ctx) (t : TaskDef) : Ctx := { c with loops := [], rstk := [], pc := BitVec.ofNat 32 (t.entry * 4) }

/-- The EVS word of an entry (R178). -/
def evsWord (t : TaskDef) (late defer : Bool) : W32 :=
  BitVec.ofNat 32 (t.input + (if late then 64 else 0) + (if defer then 128 else 0) + (if t.aligned then 256 else 0))

/-- A preempted phase task: WFE and WAITT issue again when it resumes; an issued access stays in progress (R175). -/
def Run.preempt (r : Run) : Run :=
  { r with stall := match r.stall with
    | .waitt _ => .none
    | .wfe _ _ => .none
    | x => x }

/-- An event task enters (R47, R174 to R180): it consumes its pending bit and is charged to this tick.
Its budget clock starts here, a late one's too (DESIGN CHOICE, log entry 63). -/
def State.enterEvent (s : State) (e : Nat) (t : TaskDef) (fresh : Bool) : State :=
  let g := s.engN e
  let defer := g.deferred &&& bit64 t.input != 0
  let late := !fresh || defer
  let s := s.modEng e (fun g => { g with
    pend := g.pend &&& ~~~ bit64 t.input, deferred := g.deferred &&& ~~~ bit64 t.input,
    charged := (t.slot, g.chargedOf t.slot + 1) :: g.charged.filter (fun p => p.1 != t.slot),
    pre := match g.cur with
      | some r => some r.preempt
      | none => g.pre,
    cur := some (Run.new t (if t.aligned && !late then .aligned s.entryDly else .none)), fresh := 0,
    ev := { g.ev.enter t with evs := evsWord t late defer } })
  if late then s.count (Reg.ENG_LATECNT_COUNT e) 1 else s

/-- The lowest event slot that may enter. -/
def Eng.nextEvent (g : Eng) : Option TaskDef :=
  (List.range 32).findSome? (fun n => g.tasks.find? (fun t =>
    t.slot == n && t.kind == .event && g.pend &&& bit64 t.input != 0 && g.within t))

/-- WFE at an engine completes when a pending unbound input of its mask is set: the lowest one is consumed (R220). -/
def State.wfeCheck (s : State) (e : Nat) : State :=
  match (s.engN e).cur with
  | none => s
  | some r =>
    match r.stall with
    | .wfe mask d =>
      let hit := (s.engN e).pend &&& mask &&& ~~~ (s.engN e).boundMask
      match (List.range 64).find? (fun i => hit &&& bit64 i != 0) with
      | none => s
      | some i =>
        let s := s.modEng e (fun g => { g with pend := g.pend &&& ~~~ bit64 i })
        let s := s.modCtx e r.kind (fun c => { c with d := c.d.setIfInBounds d (BitVec.ofNat 32 i) }.complete)
        s.modRun e (fun r => { r with stall := .none })
    | _ => s

/-- Is the device in RUN, and entering no other state (R622)? -/
def State.awake (s : State) : Bool := s.get Reg.PWR_STAT_STATE == 0 && s.power.entering.isNone

/-- May the engine start tasks now: it does, the device is awake and no TAP instruction holds it (R624, R629, R726)? -/
def State.engStarts (s : State) (e : Nat) : Bool := (s.engN e).starts && s.awake && !s.tap.hold

/-- An engine that is free enters its lowest pending event slot, or a WFE consumes an input. `fresh`: inputs that registered on
this TIME edge. DEDUCED, log entry 7. -/
def State.activate (s : State) (e : Nat) (fresh : BitVec 64) : State :=
  let g := s.engN e
  if g.free && s.engStarts e then
    match g.nextEvent with
    | some t => s.enterEvent e t (fresh &&& bit64 t.input != 0)
    | none => s.wfeCheck e
  else if s.engStarts e then s.wfeCheck e
  else s

/-! ## Event inputs -/

/-- Does engine `e` own the source of input `i` (R171)? DEDUCED, log entry 7. -/
def State.ownsInput (s : State) (e i : Nat) : Bool :=
  let o := s.engOwner e
  o != 3 && (
    if i < 6 then s.portOwner i == o
    else if i < 12 then s.portOwner (i - 6) == o
    else if i < 14 then s.portOwner (i - 6) == o
    else if i < 26 then true
    else if i < 34 then s.on (Reg.ENG_CFG_SECURE e)
    else if i < 38 then true
    else if i < 54 then s.bindOwner 7 (i - 38) == o
    else if i < 62 then s.bindOwner 6 (i - 54) == o
    else true)

/-- The inputs of a mask that register on an engine. -/
def State.ownedMask (s : State) (e : Nat) (m : BitVec 64) : BitVec 64 :=
  (List.range 64).foldl (fun r i => if m &&& bit64 i != 0 && s.ownsInput e i then r ||| bit64 i else r) 0

def popcount64 (m : BitVec 64) : Nat := ((List.range 64).filter (fun i => m &&& bit64 i != 0)).length

/-- An event task that would have started is counted as skipped, and its cyclic requests are sent again (R57, R189). -/
def State.skipEvent (s : State) (e : Nat) (t : TaskDef) : State :=
  (s.modEng e (fun g => { g with resend := t.slot :: g.resend.filter (fun n => n != t.slot) })).count (Reg.ENG_SKIP_COUNT e) 1

/-- A newly set pending bit of a bound input: an engine that starts nothing counts it as skipped (R187, R189); beyond the
declared activations it is deferred (R51). DEDUCED, log entry 7. While RUNNING is 0 no tick start clears the charges, so that events beyond the
declared count are deferred until ticks start: DESIGN CHOICE, log entry 94. A skipped activation keeps its pending bit and comes late once the engine
starts tasks again (DESIGN CHOICE, log entry 64). -/
def State.noteInput (s : State) (e i : Nat) : State :=
  match (s.engN e).bound i with
  | none => s
  | some t =>
    if !(s.engN e).starts then s.skipEvent e t
    else if (s.engN e).within t then s
    else (s.modEng e (fun g => { g with deferred := g.deferred ||| bit64 i })).count Reg.HRT_EVDEFER_COUNT 1

/-- Inputs register on one TIME edge at engine `e` (R169, R171). DEDUCED, log entry 7. -/
def State.registerNow (s : State) (e : Nat) (m : BitVec 64) : State :=
  if (s.engN e).inReset then s
  else
    let m := s.ownedMask e m
    let merged := m &&& (s.engN e).pend
    let fresh := m &&& ~~~ (s.engN e).pend
    let s := if merged = 0 then s else s.count (Reg.ENG_EVMERGE_COUNT e) (popcount64 merged)
    let s := s.modEng e (fun g => { g with pend := g.pend ||| fresh, fresh := g.fresh ||| fresh })
    let s := (List.range 64).foldl (fun t i => if fresh &&& bit64 i != 0 then t.noteInput e i else t) s
    s.activate e (s.engN e).fresh

/-- Inputs register at engine `e`; while the inputs of one edge are collected, with them. -/
def State.register (s : State) (e : Nat) (m : BitVec 64) : State :=
  match s.collect with
  | some v => { s with collect := some (v.setIfInBounds e (v.getD e 0 ||| m)) }
  | none => s.registerNow e m

/-- An input registers on every engine whose personality owns its source. -/
def State.registerAll (s : State) (i : Nat) : State := s.each 16 (fun e t => t.register e (bit64 i))

/-- What `f` brings to the event inputs registers on one edge, so that the lowest slot enters first (R47, R191); within a wider collection, with
that. -/
def State.onOneEdge (s : State) (f : State → State) : State :=
  if s.collect.isSome then f s
  else
    let s := f { s with collect := some (Vector.replicate 16 0) }
    ({ s with collect := none }).each 16 (fun e t => t.registerNow e ((s.collect.getD (Vector.replicate 16 0)).getD e 0))

/-! ## Ends of tasks -/

/-- The phase task of a slot starts (R46). -/
def State.startPhase (s : State) (e : Nat) (t : TaskDef) : State :=
  s.modEng e (fun g => { g with cur := some (Run.new t .none), ph := g.ph.enter t })

/-- The event tasks whose inputs are pending at a halt would have started: each is counted as skipped (R189). -/
def State.skipPending (s : State) (e : Nat) : State :=
  if !(s.engN e).starts then s
  else (List.range 64).foldl (fun (t : State) i =>
    if (t.engN e).pend &&& bit64 i = 0 then t
    else match (t.engN e).bound i with
      | some d => t.skipEvent e d
      | none => t) s

/-- A halt takes effect (R188): phase tasks still to start in this Compute, and pending event tasks, are skipped (R189). -/
def State.haltNow (s : State) (e : Nat) : State :=
  (((s.skipTodo e).skipPending e).modEng e (fun g => { g with halted := true, haltReq := false })).set (Reg.ENG_DBG_HALTED e) 1

/-- A trap of an instruction that completed while its task was preempted is taken on resuming (R175); the engine otherwise
goes on with a pending event, the preempted task or the next phase task. `takeTrap` is what a trap does. A halt requested while an event
task preempts a phase task comes at the end of the phase task (DESIGN CHOICE, log entry 65). -/
def State.goOn (takeTrap : State → Nat → Nat → State) (s : State) (e : Nat) : State :=
  let g := s.engN e
  if g.cur.isSome then s
  else if g.pre.isNone && g.haltReq then s.haltNow e
  else
    let s := s.activate e (s.engN e).fresh
    let g := s.engN e
    if g.cur.isSome then s
    else match g.pre with
      | some r =>
        let s := s.modEng e (fun g => { g with cur := some { r with trap := none }, pre := none })
        match r.trap with
        | some c => takeTrap s e c
        | none => s.wfeCheck e
      | none =>
        if s.phase = 1 ∧ s.running ∧ s.engStarts e then
          match g.todo with
          | [] => s
          | n :: r =>
            let s := s.modEng e (fun g => { g with todo := r })
            match g.task n with
            | some t => s.startPhase e t
            | none => s
        else s

/-- The current task is gone: its posted entries that are still live are kept for the commit (`keep`) or discarded. -/
def State.dropTask (s : State) (e : Nat) (keep : Bool) : State :=
  match (s.engN e).cur with
  | none => s
  | some r =>
    s.modEng e (fun g => { g with
      cur := none,
      emitq := if keep then g.emitq.map (fun (x : EmitEntry) => if x.slot == r.slot && x.live then { x with live := false } else x)
        else (g.discard r.slot).emitq,
      endedOk := if keep then r.slot :: g.endedOk.filter (fun n => n != r.slot) else g.endedOk })

/-- The ledger's report of an overrun and its count (R60, R61). -/
def State.overrunReport (s : State) (e slot : Nat) (k : TaskKind) (strike : Bool) : State :=
  let kind := if k == .event then 1 else 0
  let s := (s.count Reg.HRT_OVRCNT_COUNT 1).set Reg.HRT_STAT_OVR 1
  let s := ((s.set Reg.HRT_OVRLAST_SLOT slot).set Reg.HRT_OVRLAST_ENGINE e).set Reg.HRT_OVRLAST_KIND kind
  let s := (s.set Reg.HRT_OVRLAST_TICKLO s.tick).record 0x0101 e (slot + kind * 2 ^ 8)
  if !strike || (s.engN e).overNow.contains slot then s
  else
    let n := (((s.engN e).overruns.find? (fun p => p.1 == slot)).map (fun p => p.2)).getD 0 + 1
    let q := s.get Reg.HRT_CTRL_OVRQ
    let hit := decide (0 < q ∧ q ≤ n)
    let s := s.modEng e (fun g => { g with
      overruns := (slot, if hit then 0 else n) :: g.overruns.filter (fun p => p.1 != slot), overNow := slot :: g.overNow })
    if hit then s.quench 1 true else s

/-- The current task is stopped as an overrun (R49, R57, R59, R60). -/
def State.overrunStop (s : State) (e : Nat) : State :=
  match (s.engN e).cur with
  | none => s
  | some r =>
    let s := (s.dropTask e false).modEng e (fun g => { g with resend := r.slot :: g.resend.filter (fun n => n != r.slot) })
    s.overrunReport e r.slot r.kind r.strike

/-! ## Traps (R182 to R185) -/

def resumable (c : Nat) : Bool := c == causeBus || c == causeDeadline

/-- The current instruction of engine `e` raises a trap. The engine goes on with its handler, or with no task: what follows then
is `goOn`. -/
def State.trapTake (s : State) (e c : Nat) : State :=
  match (s.engN e).cur with
  | none => s
  | some r =>
    let pc := (s.ctxOf e).pc
    let s := s.record 0x0301 e (r.slot + c * 2 ^ 8 + pc.toNat * 2 ^ 32)
    let s := ((s.set (Reg.ENG_TRAP_CAUSE e) c).set (Reg.ENG_TRAP_SLOT e) r.slot).count (Reg.ENG_TRAP_COUNT e) 1
    let s := s.set (Reg.ENG_TRAPPC_PC e) pc.toNat
    let s := s.modCtx e r.kind (fun x => { x with tcause := BitVec.ofNat 32 c, tpc := pc })
    let q := r.strike && s.on (Reg.ENG_CFG_TRAPQ e)
    match r.handler with
    | some _ =>
      let s := (s.dropTask e false).count (Reg.ENG_TRAP_DOUBLE e) 1
      if q then s.quench 2 true else s
    | none =>
      let s := if q && !resumable c then s.quench 2 true else s
      if s.on (Reg.ENG_TRAPV_EN e) then
        let s := s.modEng e (fun g => if resumable c then g else g.discard r.slot)
        let s := s.modCtx e r.kind (fun x => { x with pc := BitVec.ofNat 32 (s.get (Reg.ENG_TRAPV_BASE e) * 4 + c * 16) })
        s.modRun e (fun r => { r with handler := some (resumable c), stall := .none, first := false, lutGot := [], trap := none })
      else s.dropTask e false

/-- A task's budget in TIME cycles (R48): ceil(W × 2.5 / 4). -/
def TaskDef.budget (t : TaskDef) : Nat := (5 * t.w + 7) / 8

/-- Has the budget clock of the current task reached its budget (R49)? -/
def State.spent (s : State) (e : Nat) : Bool :=
  match (s.engN e).cur with
  | some r => ((s.engN e).task r.slot).any (fun t => decide (t.budget ≤ r.clock))
  | none => false

/-- A trap is taken, or in the cycle in which the task's budget expires the task stops as an overrun (R193). -/
def State.trapOrOverrun (s : State) (e c : Nat) : State := if s.spent e then s.overrunStop e else s.trapTake e c

/-- A trap taken on resuming; the engine goes on (once more: a task that this trap stops has no trap of its own behind it). -/
def State.trapResume (s : State) (e c : Nat) : State := State.goOn (fun s _ _ => s) (s.trapOrOverrun e c) e

def State.go (s : State) (e : Nat) : State := State.goOn State.trapResume s e

/-- The current task ends within budget: its entries wait for the commit. -/
def State.endTask (s : State) (e : Nat) : State := (s.dropTask e true).go e

/-- The current task stops as an overrun, and the engine goes on. -/
def State.overrun (s : State) (e : Nat) : State := (s.overrunStop e).go e

/-- The current instruction raises a trap; in the cycle in which the task's budget expires it stops as an overrun instead (R193). -/
def State.trap (s : State) (e c : Nat) : State := (s.trapOrOverrun e c).go e

/-- An instruction boundary while no tick runs: a halt that waited for an access takes effect (R188). -/
def State.haltWaiting (s : State) (e : Nat) : State := if (s.engN e).haltReq && !s.running then s.haltNow e else s

end Sys2Proof.Machine
end

