-- ==== Sys2Proof/Machine/Sha.lean ====
section
/-!
DEFINITION. SHA-384 as FIPS 180-4 defines it; the spec names the standard and does not restate it. PRESUMED, log entry 5.
-/

namespace Sys2Proof.Machine

/-- The round constants. PRESUMED, log entry 5. -/
def shaK0 : List (BitVec 64) :=
  [0x428A2F98D728AE22, 0x7137449123EF65CD, 0xB5C0FBCFEC4D3B2F, 0xE9B5DBA58189DBBC, 0x3956C25BF348B538,
   0x59F111F1B605D019, 0x923F82A4AF194F9B, 0xAB1C5ED5DA6D8118, 0xD807AA98A3030242, 0x12835B0145706FBE,
   0x243185BE4EE4B28C, 0x550C7DC3D5FFB4E2, 0x72BE5D74F27B896F, 0x80DEB1FE3B1696B1, 0x9BDC06A725C71235,
   0xC19BF174CF692694, 0xE49B69C19EF14AD2, 0xEFBE4786384F25E3, 0x0FC19DC68B8CD5B5, 0x240CA1CC77AC9C65]
def shaK1 : List (BitVec 64) :=
  [0x2DE92C6F592B0275, 0x4A7484AA6EA6E483, 0x5CB0A9DCBD41FBD4, 0x76F988DA831153B5, 0x983E5152EE66DFAB,
   0xA831C66D2DB43210, 0xB00327C898FB213F, 0xBF597FC7BEEF0EE4, 0xC6E00BF33DA88FC2, 0xD5A79147930AA725,
   0x06CA6351E003826F, 0x142929670A0E6E70, 0x27B70A8546D22FFC, 0x2E1B21385C26C926, 0x4D2C6DFC5AC42AED,
   0x53380D139D95B3DF, 0x650A73548BAF63DE, 0x766A0ABB3C77B2A8, 0x81C2C92E47EDAEE6, 0x92722C851482353B]
def shaK2 : List (BitVec 64) :=
  [0xA2BFE8A14CF10364, 0xA81A664BBC423001, 0xC24B8B70D0F89791, 0xC76C51A30654BE30, 0xD192E819D6EF5218,
   0xD69906245565A910, 0xF40E35855771202A, 0x106AA07032BBD1B8, 0x19A4C116B8D2D0C8, 0x1E376C085141AB53,
   0x2748774CDF8EEB99, 0x34B0BCB5E19B48A8, 0x391C0CB3C5C95A63, 0x4ED8AA4AE3418ACB, 0x5B9CCA4F7763E373,
   0x682E6FF3D6B2B8A3, 0x748F82EE5DEFB2FC, 0x78A5636F43172F60, 0x84C87814A1F0AB72, 0x8CC702081A6439EC]
def shaK3 : List (BitVec 64) :=
  [0x90BEFFFA23631E28, 0xA4506CEBDE82BDE9, 0xBEF9A3F7B2C67915, 0xC67178F2E372532B, 0xCA273ECEEA26619C,
   0xD186B8C721C0C207, 0xEADA7DD6CDE0EB1E, 0xF57D4F7FEE6ED178, 0x06F067AA72176FBA, 0x0A637DC5A2C898A6,
   0x113F9804BEF90DAE, 0x1B710B35131C471B, 0x28DB77F523047D84, 0x32CAAB7B40C72493, 0x3C9EBE0A15C9BEBC,
   0x431D67C49C100D4C, 0x4CC5D4BECB3E42B6, 0x597F299CFC657E2A, 0x5FCB6FAB3AD6FAEC, 0x6C44198C4A475817]

def shaK : List (BitVec 64) := shaK0 ++ shaK1 ++ shaK2 ++ shaK3

/-- The working variables and the chaining value. -/
structure ShaVars where
  a : BitVec 64
  b : BitVec 64
  c : BitVec 64
  d : BitVec 64
  e : BitVec 64
  f : BitVec 64
  g : BitVec 64
  h : BitVec 64
deriving DecidableEq, Repr

/-- The initial chaining value of SHA-384. PRESUMED, log entry 5. -/
def shaInit : ShaVars :=
  ⟨0xCBBB9D5DC1059ED8, 0x629A292A367CD507, 0x9159015A3070DD17, 0x152FECD8F70E5939,
   0x67332667FFC00B31, 0x8EB44A8768581511, 0xDB0C2E0D64F98FA7, 0x47B5481DBEFA4FA4⟩

/-- The two rotations and the third one, or a shift, that the standard combines. -/
def shaMix (x y z : BitVec 64) : BitVec 64 := x ^^^ y ^^^ z

/-- One round: the variables, and the window of the next sixteen schedule words. -/
def shaRound (p : ShaVars × List (BitVec 64)) (k : BitVec 64) : ShaVars × List (BitVec 64) :=
  let v := p.1
  let w := fun (i : Nat) => p.2.getD i 0
  let s1 := shaMix (v.e.rotateRight 14) (v.e.rotateRight 18) (v.e.rotateRight 41)
  let t1 := v.h + s1 + ((v.e &&& v.f) ^^^ (~~~ v.e &&& v.g)) + k + w 0
  let s0 := shaMix (v.a.rotateRight 28) (v.a.rotateRight 34) (v.a.rotateRight 39)
  let t2 := s0 + ((v.a &&& v.b) ^^^ (v.a &&& v.c) ^^^ (v.b &&& v.c))
  let x0 := shaMix ((w 1).rotateRight 1) ((w 1).rotateRight 8) (w 1 >>> 7)
  let x1 := shaMix ((w 14).rotateRight 19) ((w 14).rotateRight 61) (w 14 >>> 6)
  (⟨t1 + t2, v.a, v.b, v.c, v.d + t1, v.e, v.f, v.g⟩, p.2.drop 1 ++ [x1 + w 9 + x0 + w 0])

/-- Bytes, first byte highest, as a number. -/
def shaNat (b : List (BitVec 8)) : Nat := b.foldl (fun n x => n * 256 + x.toNat) 0

/-- Words of eight bytes. -/
def shaWords : Nat → List (BitVec 8) → List (BitVec 64)
  | 0, _ => []
  | n + 1, b => BitVec.ofNat 64 (shaNat (b.take 8)) :: shaWords n (b.drop 8)

/-- One block of 128 bytes. -/
def shaBlock (v : ShaVars) (b : List (BitVec 8)) : ShaVars :=
  let r := (shaK.foldl shaRound (v, shaWords 16 b)).1
  ⟨v.a + r.a, v.b + r.b, v.c + r.c, v.d + r.d, v.e + r.e, v.f + r.f, v.g + r.g, v.h + r.h⟩

def shaBlocks : Nat → ShaVars → List (BitVec 8) → ShaVars
  | 0, v, _ => v
  | n + 1, v, b => shaBlocks n (shaBlock v (b.take 128)) (b.drop 128)

/-- The message with its padding: a 1 bit, zeros, and its length in bits in the last 16 bytes. -/
def shaPad (m : List (BitVec 8)) : List (BitVec 8) :=
  m ++ 0x80 :: List.replicate ((239 - m.length % 128) % 128) 0
    ++ (List.range 16).map (fun i => BitVec.ofNat 8 (8 * m.length / 256 ^ (15 - i)))

/-- The first eight bytes of the SHA-384 of a byte string, first byte lowest (R290, R427). PRESUMED, log entry 5. -/
def sha384Head (m : List (BitVec 8)) : BitVec 64 :=
  let x := (shaBlocks ((shaPad m).length / 128) shaInit (shaPad m)).a.toNat
  BitVec.ofNat 64 ((List.range 8).foldl (fun n i => n + x / 256 ^ (7 - i) % 256 * 256 ^ i) 0)

end Sys2Proof.Machine
end

