-- ==== Sys2Proof/Machine/AccessOps.lean ====
section
/-!
DEFINITION. What every access to a set-up register meets (R4 to R7, R27, R30, R31, R137 to R140): ownership, locks, access
codes, wide registers and the reports.
-/

namespace Sys2Proof.Machine

/-! ## Who -/

/-- The requester number of R243 of an initiator. -/
def whoReq (w : Who) : Nat :=
  match w with
  | .engine e => e.val
  | .emit e _ => e.val
  | _ => 23

/-- The engine whose load, store or commit it is. -/
def whoEngine (w : Who) : Option (Fin 16) :=
  match w with
  | .engine e => some e
  | .emit e _ => some e
  | _ => none

def isHost (w : Who) : Bool := w == .host

/-- The personality slot of an initiator (R25), or 3 for the host side. -/
def State.whoSlot (s : State) (w : Who) : Nat :=
  match whoEngine w with
  | some e => s.engOwner e.val
  | none => 3

/-! ## Reports -/

/-- The SRC bit of DEV_ACCERR: 1 for an engine or a commit. -/
def whoSrc (w : Who) : Nat := if (whoEngine w).isSome then 1 else 0

/-- A set-up access fault (R137): cause 1 width or alignment, 2 ownership. -/
def State.accessFault (s : State) (w : Who) (key cause : Nat) : State :=
  let o := key % 0x10000
  let s := ((s.set Reg.DEV_ACCERR_OFFSET o).set Reg.DEV_ACCERR_CAUSE cause).set Reg.DEV_ACCERR_SRC (whoSrc w)
  ((s.count Reg.DEV_ACCERR_COUNT 1).set Reg.DEV_STAT_ACCF 1).record 0x0001 0xFF (o + whoSrc w * 2 ^ 16)

/-- A lock violation (R139). -/
def State.lockFault (s : State) (w : Who) (key : Nat) : State :=
  let o := key % 0x10000
  let s := if s.on Reg.DEV_STAT_LOCKV then s else s.set Reg.DEV_LOCKERR_OFFSET o
  ((s.count Reg.DEV_LOCKERR_COUNT 1).set Reg.DEV_STAT_LOCKV 1).record 0x0002 0xFF (o + whoSrc w * 2 ^ 16)

/-! ## Owners (R25, R526) -/

/-- The owner of the resource a set-up register belongs to; 3 the host, and for what no personality can own. DEDUCED, log entry 12. -/
def State.keyOwner (s : State) (key : Nat) : Nat :=
  if 0x3100 ≤ key ∧ key < 0x3500 then s.engOwner ((key - 0x3100) / 0x40)
  else if 0x6100 ≤ key ∧ key < 0x6D00 then s.portOwner ((key - 0x6100) / 0x200)
  else if 0x6E00 ≤ key ∧ key < 0x6E40 then s.portOwner (6 + (key - 0x6E00) / 0x20)
  else if key = Reg.TNG_PEND_CFG then s.bindOwner 6 (s.get Reg.TNG_PEND_CFG_TM)
  else if 0xB100 ≤ key ∧ key < 0xB200 then s.bindOwner 6 ((key - 0xB100) / 0x20)
  else if 0xB400 ≤ key ∧ key < 0xB800 then s.bindOwner 6 ((key - 0xB400) / 0x80)
  else if 0xB800 ≤ key ∧ key < 0xC000 then s.bindOwner 7 ((key - 0xB800) / 0x80)
  else 3

/-- Is slot `o` the owner of a resource that this initiator must not write: the host, or an engine (its loads and stores, its commits)
of another slot (R27, R226)? DEDUCED, log entry 12. -/
def State.foreign (s : State) (w : Who) (o : Nat) : Bool := o != 3 && (isHost w || ((whoEngine w).isSome && s.whoSlot w != o))

/-- Is a write refused under R27? DEDUCED, log entry 12. -/
def State.ownRefused (s : State) (w : Who) (key : Nat) : Bool := s.foreign w (s.keyOwner key)

/-- A write that meets R27: refused with a report, or done. DEDUCED, log entry 12. -/
def State.owned (s : State) (w : Who) (key : Nat) (f : State → State) : State :=
  if s.ownRefused w key then s.accessFault w key 2 else f s

/-! ## Locks -/

/-- Is some personality slot in a state other than EMPTY? -/
def State.slotsBusy (s : State) : Bool := (List.range 3).any (fun n => s.slotState n != slotEmpty)

/-- The lock condition of the register's field table, for its RWL fields. -/
def State.lockCond (s : State) (key : Nat) : Bool :=
  if 0x1000 ≤ key ∧ key < 0x2000 then s.running || s.hearth.armed
  else if key = Reg.RING_DBADDR_LO ∨ key = Reg.RING_DBADDR_HI then s.on Reg.RING_GCTRL_DBEN
  else if key = Reg.RING_SHADDR_LO ∨ key = Reg.RING_SHADDR_HI then s.on Reg.RING_GCTRL_SHEN
  else if 0x2800 ≤ key ∧ key < 0x3000 then s.on (Reg.RING_CTRL_EN ((key - 0x2800) / 0x20))
  else if key = Reg.ENG_ENTRYDLY then s.running || s.slotsBusy
  else if 0x4200 ≤ key ∧ key < 0x4240 then s.running || s.slotsBusy
  else if key = Reg.TIME_CTRL then s.running
  else if key = Reg.CHN_SCFG ∨ key = Reg.CHN_ETCFG ∨ (0x8880 ≤ key ∧ key < 0x88A0) then s.on Reg.CHN_RUNCTL_RUN
  else if 0x9100 ≤ key ∧ key < 0x9900 then s.on (Reg.SWG_n_CTRL_EN ((key - 0x9100) / 0x80))
  else if 0xA300 ≤ key ∧ key < 0xA360 then
    let h := (key - 0xA300) / 0x10
    (List.range 16).any (fun l => s.on (Reg.SWG_n_CTRL_EN l) &&
      (s.get (Reg.SWG_n_CFG_OUT l) == h + 1 || s.get (Reg.SWG_n_CFG_OUT l) == h + 7 || s.get (Reg.SWG_n_CFG_OUT l) == h + 13))
  else if 0xB100 ≤ key ∧ key < 0xB200 then s.on (Reg.TNG_CTRL_RUN ((key - 0xB100) / 0x20))
  else if 0xB400 ≤ key ∧ key < 0xB800 then s.on (Reg.TNG_CTRL_RUN ((key - 0xB400) / 0x80))
  else if 0xB800 ≤ key ∧ key < 0xC000 then s.on (Reg.TMR_CTRL_RUN ((key - 0xB800) / 0x80))
  else if key = Reg.PWR_WDTCFG then s.on Reg.PWR_WDTCFG_EN
  else if 0xF000 ≤ key ∧ key < 0x10000 then
    let c := (key - 0xF000) / 0x100
    s.on (Reg.MBX_A2B_STAT_DB c) || s.on (Reg.MBX_B2A_STAT_DB c)
  else if 0x12040 ≤ key ∧ key < 0x12070 then s.on Reg.KEY_STAT_ROOTSET
  else false

/-- Are the RWL fields of a register locked (R138)? -/
def State.locked (s : State) (key : Nat) : Bool :=
  s.lockCond key || (decide (key < 0x10000) && fieldGet (s.word Reg.DEV_LOCK) (key / 0x1000) 1 == 1)

/-! ## Access codes (R5) -/

/-- One field of a write: its new value and whether a lock held it. `keep` excepts a field under R526. -/
def writeField (locked : Bool) (keep : FldDef → Bool) (v : W32) (p : W32 × Bool) (f : FldDef) : W32 × Bool :=
  let n := fieldGet v f.lo f.w
  let old := fieldGet p.1 f.lo f.w
  match f.acc with
  | .rw => if keep f then p else (fieldSet p.1 f.lo f.w n, p.2)
  | .rwl => if locked then (p.1, true) else (fieldSet p.1 f.lo f.w n, p.2)
  | .w1c => (fieldSet p.1 f.lo f.w (old - (old &&& n)), p.2)
  | .w1s => (fieldSet p.1 f.lo f.w (old ||| n), p.2)
  | _ => p

/-- The fields of the register at `key` take a written word by their access codes; a lock violation is reported (R139, R140). -/
def State.writeFields (s : State) (w : Who) (key : Nat) (v : W32) (keep : FldDef → Bool) : State :=
  match RegMap.find key with
  | none => s
  | some d =>
    let p := d.fields.foldl (writeField (s.locked key) keep v) (s.word key, false)
    let s := if p.2 then s.lockFault w key else s
    s.setWord key p.1

/-- Fields that a read clears (R5, ROC). -/
def State.clearOnRead (s : State) (key : Nat) : State :=
  match RegMap.find key with
  | none => s
  | some d => s.setWord key (d.fields.foldl (fun x f => match f.acc with
    | .roc => fieldSet x f.lo f.w 0
    | _ => x) (s.word key))

/-! ## Wide registers (R30, R31) -/

/-- The lowest word of the wide register that a word belongs to, and its number of words. -/
def wideOf (key : Nat) : Option (Nat × Nat) :=
  let pair := fun (base : Nat) => some (if (key - base) % 8 = 0 then (key, 2) else (key - 4, 2))
  if key = 0x8 ∨ key = 0xC then some (0x8, 2)
  else if 0x100 ≤ key ∧ key < 0x200 then pair 0x100
  else if 0x1020 ≤ key ∧ key < 0x1030 then pair 0x1020
  else if 0x2008 ≤ key ∧ key < 0x2020 then pair 0x2008
  else if 0x2800 ≤ key ∧ key < 0x3000 ∧ key % 0x20 < 0x10 then pair 0x2800
  else if 0x3100 ≤ key ∧ key < 0x3500 ∧ (key % 0x40 = 0x18 ∨ key % 0x40 = 0x1C) then some (key / 0x40 * 0x40 + 0x18, 2)
  else if 0x4300 ≤ key ∧ key < 0x4380 then pair 0x4300
  else if 0x5100 ≤ key ∧ key < 0x51C0 ∧ (key % 0x40 = 0x10 ∨ key % 0x40 = 0x14) then some (key / 0x40 * 0x40 + 0x10, 2)
  else if 0x7008 ≤ key ∧ key < 0x7014 then some (0x7008, 3)
  else if 0x7020 ≤ key ∧ key < 0x7028 then some (0x7020, 2)
  else if 0x7030 ≤ key ∧ key < 0x7038 then some (0x7030, 2)
  else if 0x8010 ≤ key ∧ key < 0x8018 then some (0x8010, 2)
  else if 0x8828 ≤ key ∧ key < 0x8830 then some (0x8828, 2)
  else if 0x8840 ≤ key ∧ key < 0x8880 then pair 0x8840
  else if 0xB800 ≤ key ∧ key < 0xC000 ∧ 0x18 ≤ key % 0x80 ∧ key % 0x80 < 0x60 then pair 0xB800
  else if 0xE010 ≤ key ∧ key < 0xE018 then some (0xE010, 2)
  else if 0xE420 ≤ key ∧ key < 0xE440 then some (0xE420, 8)
  else if 0x10100 ≤ key ∧ key < 0x10180 then pair 0x10100
  else none

/-- Is the word a lower word of a writable wide register, whose writes are held (R31)? -/
def heldWord (key : Nat) : Bool :=
  match wideOf key with
  | some (lo, _) => key == lo && (decide (0x100 ≤ key ∧ key < 0x200) || key == 0x2008 || key == 0x2010
      || decide (0x2800 ≤ key ∧ key < 0x3000) || key == 0x7020 || decide (0xB800 ≤ key ∧ key < 0xC000 ∧ (key % 0x80 = 0x18 ∨ 0x40 ≤ key % 0x80))
      || key == 0xE010 || decide (0x10100 ≤ key ∧ key < 0x10180))
  | none => false

/-- A word held for its wide register; a word never written is held as 0. -/
def State.heldAt (s : State) (key : Nat) : Option W32 := (s.held.find? (fun p => p.1 == key)).map (fun p => p.2)

/-- Hold a lower word. -/
def State.hold (s : State) (key : Nat) (v : W32) : State := { s with held := (key, v) :: s.held.filter (fun p => p.1 != key) }

/-- The word captured by the last read of the lowest word (R30). -/
def State.capAt (s : State) (key : Nat) : W32 := ((s.caps.find? (fun p => p.1 == key)).map (fun p => p.2)).getD 0

def State.capture (s : State) (key : Nat) (v : W32) : State := { s with caps := (key, v) :: s.caps.filter (fun p => p.1 != key) }

end Sys2Proof.Machine
end

