-- ==== Sys2Proof/Machine/Time.lean ====
section
/-!
DEFINITION. The time base: its edge, slews, steps, holdover and grants (11).
-/

namespace Sys2Proof.Machine

/-! ## Nominal times (R38) -/

/-- Has the time base reached a time that is to come (R38)? -/
def State.reached (s : State) (t : Option Nat) : Bool := t.any (fun x => decide (x ≤ s.now))

/-- The nominal time of boundary n of the tick in progress (R34, R38). -/
def State.boundaryAt (s : State) (n : Nat) : Option Nat := some (s.hearth.nominal + s.boundary n)

/-! ## The TIME edge (R361, R362, R364) -/

def addMin : Nat := 0x3FFCB924
def addMax : Nat := 0x400346DC

/-- The share of a slew on one edge, in 2^-28 ns (R364). -/
def slewShare (rate : Nat) : Nat := rate * 2 ^ 30 / 1000000

/-- The slew contribution of the next TIME edge: the share towards zero or the whole remainder, within the limit of the effective
increment. -/
def State.slewPart (s : State) : Int :=
  let inc : Int := s.get Reg.TIME_ADDEND_ADD
  let sh : Int := slewShare s.time.rate
  let want := max (-sh) (min sh s.time.rem)
  max (addMin : Int) (min (addMax : Int) (inc + want)) - inc

/-- Add to the time base, in 2^-28 ns. -/
def State.addTb (s : State) (x : Int) : State := { s with tb := s.tb + BitVec.ofInt 92 x }

/-- The time base takes one TIME edge. -/
def State.tbEdge (s : State) : State :=
  let p := s.slewPart
  let was := s.now
  let s := s.addTb (s.get Reg.TIME_ADDEND_ADD + p)
  { s with time := { s.time with rem := s.time.rem - p, prev := was } }

/-! ## Steps (R365, R366, R368, R41) -/

/-- DETAIL of a TIME entry: refusal number and delta. -/
def timeDetail (num : Nat) (delta : Int) : Nat := num + (BitVec.ofInt 64 delta).toNat * 2 ^ 32

/-- A step or the return of a source moves the nominal grid: the next tick is lengthened to it (R41). -/
def State.regrid (s : State) : State := { s with hearth := { s.hearth with regrid := true } }

/-- Shift a time in ns by a signed delta. -/
def shiftNat (n : Nat) (d : Int) : Nat := ((n : Int) + d).toNat

/-- The first multiple of TP at or after the time base: the start of the first tick under SRC 2. -/
def State.nextMultiple (s : State) : Nat := (s.now + s.tp - 1) / s.tp * s.tp

/-- The times that a frame's duration on its port is reckoned from move with the time base. -/
def Frame.shift (d : Int) (f : Frame) : Frame :=
  { f with bound := f.bound.map (fun b => shiftNat b (10 * d)), seg := shiftNat f.seg d, retry := f.retry.map (fun t => shiftNat t d) }

def RxFrame.shift (d : Int) (r : RxFrame) : RxFrame := { r with t := shiftNat r.t d }

/-- The same for a port. -/
def Port.shift (d : Int) (x : Port) : Port :=
  let m := fun (o : Option Nat) => o.map (fun t => shiftNat t d)
  { x with
    q := x.q.map (Frame.shift d), wire := x.wire.map (Frame.shift d), preempted := x.preempted.map (Frame.shift d), rx := x.rx.map (RxFrame.shift d)
    creditT := shiftNat x.creditT d, pauseEnd := m x.pauseEnd, commitAt := m x.commitAt, pauseSent := shiftNat x.pauseSent d }

/-- An aligned entry on the edge at which a step is applied: a GETT on it gives the stepped value (R381). -/
def Run.shift (now : Nat) (d : Int) (r : Run) : Run :=
  { r with entry := if r.entry = some (BitVec.ofNat 64 now) then some (BitVec.ofNat 64 (shiftNat now d)) else r.entry }

/-- Every time that a duration in progress is reckoned from, and every bound of the promise, moves with the time base, so that a step alters
no duration (R41, R69, R79). Stamps that have been taken stay. DEDUCED, log entry 47. -/
def State.shiftTimes (s : State) (d : Int) : State :=
  let m := fun (o : Option (Nat × List Byte)) => o.map (fun x => (shiftNat x.1 d, x.2))
  { s with
    ports := s.ports.map (Port.shift d)
    cans := s.cans.map (fun (x : Can) => { x with rx := x.rx.map (RxFrame.shift d) })
    vidDrain := shiftNat s.vidDrain d
    sec := { s.sec with dirs := s.sec.dirs.map (fun (x : MbxDir) => { x with timing := x.timing.map (fun t => shiftNat t d) }) }
    chain := { s.chain with
      links := s.chain.links.map (fun (l : Link) => { l with heldAt := shiftNat l.heldAt d })
      thisTick := m s.chain.thisTick, prevTick := m s.chain.prevTick }
    loops := s.loops.map (fun (l : Loop) => { l with tEnter := shiftNat l.tEnter d, applyAt := shiftNat l.applyAt d })
    lsw := { s.lsw with
      chans := s.lsw.chans.map (fun (c : Chan) => { c with pwmAt := shiftNat c.pwmAt d })
      hbs := s.lsw.hbs.map (fun (h : HalfBridge) => { h with offAt := shiftNat h.offAt d }) }
    prs := { s.prs with
      doneAt := shiftNat s.prs.doneAt d
      slots := s.prs.slots.map (fun (x : Slot) => { x with after := x.after.map (fun t => shiftNat t d) }) }
    eng := s.eng.map (fun (g : Eng) => { g with cur := g.cur.map (Run.shift s.now d), pre := g.pre.map (Run.shift s.now d) }) }

/-- A step is added to the time base: every time that the tick in progress is reckoned from moves with it, so that the tick runs
to its end unchanged; the grid moves but under SRC 1 (R41). So does the start of a first tick that is awaited, but under SRC 2, where it
is the next multiple of TP. -/
def State.stepTb (s : State) (d : Int) : State :=
  let s := (s.shiftTimes d).addTb (d * 2 ^ 28)
  let s := (s.set Reg.TIME_STAT_VALID 1).set Reg.TIME_STAT_STEPCNT (s.get Reg.TIME_STAT_STEPCNT + 1)
  let s := { s with time := { s.time with rem := 0, rate := 0 } }
  if s.running then
    let s := { s with hearth := { s.hearth with
      nominal := shiftNat s.hearth.nominal d, emitAt := shiftNat s.hearth.emitAt d, edge := s.hearth.edge.map (fun e => shiftNat e d) } }
    if s.get Reg.HRT_CTRL_SRC = 1 then { s with hearth := { s.hearth with grid := shiftNat s.hearth.grid d } } else s.regrid
  else if s.hearth.armed then
    { s with hearth := { s.hearth with
      nominal := if s.get Reg.HRT_CTRL_SRC = 2 then s.nextMultiple else shiftNat s.hearth.nominal d,
      edge := s.hearth.edge.map (fun e => shiftNat e d) } }
  else s

/-- One accepted or granted step is applied (R365, R368). -/
def State.applyStep (s : State) (x : Int × Option (Nat × RingRef)) : State :=
  let s := s.stepTb x.1
  match x.2 with
  | none => s
  | some (num, r) =>
    let s := (s.record 0x0702 0xFF (timeDetail num x.1)).set Reg.TIME_STAT_HOLD (if s.time.refusedSince then 1 else 0)
    s.endWithEntry r.ring r.picks statusDone

/-- Every step in effect is applied on this edge, in order (R365, R380). -/
def State.applySteps (s : State) : State :=
  let l := s.time.steps
  l.foldl State.applyStep { s with time := { s.time with steps := [] } }

/-- Is a request for a step of `d` ns accepted (R366, R379)? -/
def State.stepOk (s : State) (d : Int) : Bool :=
  !s.on Reg.TIME_STAT_VALID || (!s.on Reg.TIME_STAT_HOLD && decide (d.natAbs ≤ s.get Reg.TIME_JUMPLIM_LIM))

/-- A step request (R366): accepted, or refused into holdover. -/
def State.stepRequest (s : State) (d : BitVec 64) : State :=
  if s.stepOk d.toInt then { s with time := { s.time with steps := s.time.steps ++ [(d.toInt, none)] } }
  else
    let n := nextSeq (s.get Reg.TIME_REFNUM_NUM)
    let s := (s.setWord64 Reg.TIME_PEND_LO Reg.TIME_PEND_HI d).set Reg.TIME_REFNUM_NUM n
    let s := ((s.set Reg.TIME_STAT_HOLD 1).set Reg.TIME_STAT_REFUSED 1).count Reg.TIME_REFCNT_COUNT 1
    let s := { s with time := { s.time with granted := false, refusedSince := true } }
    s.recordF 0x0701 0xFF (timeDetail n d.toInt) (if s.on Reg.TIME_STEPC_MASTER then 2 else 0)

/-! ## The servo owner (R363, R443) -/

/-- Does the clock agreement alone steer (R443)? -/
def State.agreementSteers (s : State) : Bool := s.on Reg.CHN_SCFG_STEER && s.get Reg.CHN_STAT_STATE == 4

/-- May this initiator steer the time base: the host is the owner 3, and neither PF1 nor the debug port (R363, R727)? -/
def State.steers (s : State) (w : Who) : Bool :=
  let o := s.get Reg.TIME_CTRL_OWNER
  !s.agreementSteers && (if o = 3 then w == .host else s.whoSlot w == o && s.slotState o == slotRunning)

/-- A write to a register that steers: ignored and reported when it is not the owner's. -/
def State.steering (s : State) (w : Who) (key : Nat) (f : State → State) : State :=
  if s.steers w then f s else s.accessFault w key 2

/-- ADD takes a value, limited (R362). -/
def State.setAddend (s : State) (v : Int) : State :=
  let c := max (addMin : Int) (min (addMax : Int) v)
  let s := s.set Reg.TIME_ADDEND_ADD c.toNat
  if c = v then s else s.set Reg.TIME_STAT_CLAMP 1

/-- A slew of `ofs` ns at `rate` ppm replaces the one in progress; rate 0 cancels it (R364). -/
def State.startSlew (s : State) (ofs : Int) (rate : Nat) : State :=
  { s with time := { s.time with rem := if rate = 0 then 0 else ofs * 2 ^ 28, rate := min rate 200 } }

def State.writeAddend (s : State) (w : Who) (v : W32) : State :=
  s.steering w Reg.TIME_ADDEND (fun s => s.setAddend v.toNat)

def State.writeSlew (s : State) (w : Who) (v : W32) : State :=
  s.steering w Reg.TIME_SLEW (fun s =>
    (s.setWord Reg.TIME_SLEW v).startSlew (v.setWidth 24).toInt (fieldGet v 24 8))

/-- A write to TIME_STEP_HI takes the held TIME_STEP_LO with it and makes the request (R31). -/
def State.writeStepHi (s : State) (w : Who) (v : W32) : State :=
  s.steering w Reg.TIME_STEP_HI (fun s =>
    let lo := (s.heldAt Reg.TIME_STEP_LO).getD (s.word Reg.TIME_STEP_LO)
    let s := { s with held := s.held.filter (fun p => p.1 != Reg.TIME_STEP_LO) }
    ((s.setWord Reg.TIME_STEP_LO lo).setWord Reg.TIME_STEP_HI v).stepRequest (v ++ lo))

/-- A write to TIME_STEP_LO is held. -/
def State.writeStepLo (s : State) (w : Who) (v : W32) : State :=
  s.steering w Reg.TIME_STEP_LO (fun s => s.hold Reg.TIME_STEP_LO v)

def State.writeStepc (s : State) (w : Who) (v : W32) : State :=
  s.steering w Reg.TIME_STEPC (fun s => s.set Reg.TIME_STEPC_MASTER (fieldGet v 0 1))

/-- TIME_JUMPLIM stores within its limits (R369). -/
def State.clampJumplim (s : State) : State :=
  s.set Reg.TIME_JUMPLIM_LIM (max 64 (min 1000000000 (s.get Reg.TIME_JUMPLIM_LIM)))

/-- TIME_SLEWREM: the remainder in ns, truncated toward zero (R364). -/
def State.slewRem (s : State) : W32 := (BitVec.ofInt 24 (Int.tdiv s.time.rem (2 ^ 28))).setWidth 32

/-- A read of TIME_NOW_LO captures the other two words (R377). -/
def State.readNow (s : State) : W32 × State :=
  let ns := BitVec.ofNat 64 s.now
  let frac := s.tb.toNat / 2 ^ 12 % 2 ^ 16
  (ns.setWidth 32, (s.capture Reg.TIME_NOW_HI ((ns >>> 32).setWidth 32)).capture Reg.TIME_NOW_FRAC (BitVec.ofNat 32 frac))

/-! ## Commands -/

/-- TIME_GRANT: the first ready descriptor of ring n grants the pending step, or is stale (R368). DEDUCED, log entry 24. -/
def execTimeGrant (n : Fin 64) (s : State) : Host.Outcome State Fault Refusal :=
  match s.ready n 0x29 with
  | none => .next s
  | some d =>
    let num := d.opx.toNat % 2 ^ 32
    let pend := (s.word64 Reg.TIME_PEND_LO Reg.TIME_PEND_HI).toInt
    if num = s.get Reg.TIME_REFNUM_NUM ∧ s.on Reg.TIME_STAT_HOLD ∧ !s.time.granted then
      let s := s.start n d
      .next { s with time := { s.time with
        granted := true, refusedSince := false,
        steps := s.time.steps ++ [(pend, some (num, { ring := n, idx := d.idx, gen := d.gen, tag := d.tag }))] } }
    else .next ((s.record 0x0703 0xFF (timeDetail num pend)).endWithEntry n (fun e => e.is d.idx d.gen) statusFail)

def execTimeAddendWrite (w : Who) (v : BitVec 32) (s : State) : Host.Outcome State Fault Refusal := .next (s.writeAddend w v)

def execTimeSlewWrite (w : Who) (v : BitVec 32) (s : State) : Host.Outcome State Fault Refusal := .next (s.writeSlew w v)

/-- The slew in progress reaches its end: its last contribution, which one edge can add, is added. DEDUCED, log entry 24. -/
def execSlewEnd (s : State) : Host.Outcome State Fault Refusal :=
  .next (if s.slewPart = s.time.rem then { s.addTb s.time.rem with time := { s.time with rem := 0 } } else s)

def execStepRequest (w : Who) (v : BitVec 32) (s : State) : Host.Outcome State Fault Refusal := .next (s.writeStepHi w v)

def execTimeNowRead (w : Who) (s : State) : Host.Outcome State Fault Refusal :=
  let p := s.readNow
  .next (p.2.send (.readValue w Reg.TIME_NOW_LO p.1))

end Sys2Proof.Machine
end

