-- ==== Sys2Proof/Machine/ChainOps.lean ====
section
/-!
DEFINITION. The Chain's shared operations (12, 13): link states, cells and credits, routes, hashes, the election candidate, the
modes, the clock agreement.
-/

namespace Sys2Proof.Machine

def State.modChain (s : State) (f : Chain → Chain) : State := { s with chain := f s.chain }

/-! ## Links (R386, R387) -/

def linkDown : Nat := 0
def linkTrain : Nat := 1
def linkHello : Nat := 2
def linkUp : Nat := 3

def State.linkState (s : State) (l : Nat) : Nat := s.get (Reg.CHN_L_STAT_STATE l)

def State.setLink (s : State) (l v : Nat) : State :=
  if s.linkState l = v then s else (s.set (Reg.CHN_L_STAT_STATE l) v).set (Reg.CHN_L_STAT_LCHG l) 1

/-- Is the link enabled, so that it leaves DOWN unless it waits for its retry? DEDUCED, log entry 21. -/
def State.linkLeaves (s : State) (l : Nat) : Bool :=
  s.linkState l == linkDown && s.on Reg.CHN_CFG_EN && s.on (Reg.CHN_L_CFG_EN l) && !(s.linkD l).retry

/-- Every enabled link that is DOWN, and waits for no retry, starts training. DEDUCED, log entry 21. -/
def State.trainLinks (s : State) : State := s.each 4 (fun l t => if t.linkLeaves l then t.setLink l linkTrain else t)

/-- The device's own UID and P (R392). -/
def State.uid (s : State) : BitVec 64 := s.word64 Reg.DEV_UID_LO Reg.DEV_UID_HI
def State.prio (s : State) : Nat := s.get Reg.CHN_PRIO_STRAP * 64 + s.get Reg.CHN_CFG_PRIO

/-- PRIO is written: EFF follows (R392). -/
def State.setEff (s : State) : State := s.set Reg.CHN_PRIO_EFF s.prio

/-! ## Chain status -/

def chnOff : Nat := 0
def chnDiscover : Nat := 1
def chnElect : Nat := 2
def chnAssign : Nat := 3
def chnConfigured : Nat := 4
def chnQuarantine : Nat := 5
def chnNoid : Nat := 6

def State.chnState (s : State) : Nat := s.get Reg.CHN_STAT_STATE
def State.chnSet (s : State) (v : Nat) : State := s.set Reg.CHN_STAT_STATE v
def State.chnId (s : State) : Nat := s.get Reg.CHN_STAT_ID
def State.chnRunning (s : State) : Bool := s.on Reg.CHN_RUNCTL_RUN
def State.integ (s : State) : Bool := s.on Reg.CHN_SSTAT_INTEG
def State.activeMode (s : State) : Nat := s.get Reg.CHN_MSTAT_ACTIVE

/-- May TT and ET cells go (R424, R455)? DEDUCED, log entry 23. -/
def State.etOpen (s : State) : Bool := s.chnState == chnConfigured && s.chnRunning

/-! ## Hashes (R427, R428) -/

def wordBytes (w : W32) : List Byte := leBytes 4 w.toNat

/-- The configuration hash (R427). -/
def State.cfgHash (s : State) : BitVec 64 :=
  sha384Head ((s.chain.fixs.map wordBytes).flatten ++ wordBytes (s.word Reg.CHN_SCFG &&& 0xFFFF) ++ wordBytes (s.word Reg.CHN_ETCFG)
    ++ wordBytes (s.word Reg.HRT_PERIOD))

/-- The table that a RUNNING slot holds for a mode (R429). -/
def State.table (s : State) (m : Nat) : Option (List Byte) :=
  (s.chain.tables.find? (fun t => t.1 == m && decide (t.2.1 < 3) && s.slotState t.2.1 == slotRunning)).map (fun t => t.2.2)

/-- Does the device hold mode `m` (R429)? -/
def State.holdsMode (s : State) (m : Nat) : Bool := m == 0 || (s.table m).isSome

/-- The hash of the active mode, by the table that is visible (R429); 0 for the empty M0. -/
def State.activeHash (s : State) : BitVec 64 :=
  match s.chain.vis with
  | some t => sha384Head t
  | none => 0

/-- The hash of held mode `m`; 0 when it is not held and for the empty M0. The active mode's table stays when its slot is unloaded (R307). -/
def State.modeHash (s : State) (m : Nat) : BitVec 64 :=
  match s.table m with
  | some t => sha384Head t
  | none => if m = s.activeMode then s.activeHash else 0

/-- A TT slot entry (13). -/
structure TtSlot where
  offset : Nat
  src : Nat
  dst : Nat
  strike : Bool
  pid : Nat
  sline : Nat
  plen : Nat
  dline : Nat
  deng : Nat
deriving DecidableEq, Repr

def ttSlot (b : List Byte) : TtSlot :=
  { offset := leAt b 0 4, src := byteAt b 4, dst := byteAt b 5, strike := byteAt b 6 % 2 == 1, pid := byteAt b 7, sline := leAt b 8 3,
    plen := byteAt b 11, dline := leAt b 12 3, deng := byteAt b 15 }

/-- The slots of a mode table. -/
def ttSlots (t : List Byte) : List TtSlot := (chunks 16 (leAt t 0 2) (t.drop 16)).map ttSlot

/-- The slots of the active mode's visible table (R429). -/
def State.activeSlots (s : State) : List TtSlot := (s.chain.vis.map ttSlots).getD []

/-! ## Routes -/

/-- The routing entry of a destination: link, V, hops. -/
def State.rt (s : State) (d : Nat) : Nat := fieldGet (s.word (Reg.CHN_RT (d / 4))) (d % 4 * 8) 8
def State.rtValid (s : State) (d : Nat) : Bool := s.rt d / 4 % 2 == 1
def State.rtLink (s : State) (d : Nat) : Nat := s.rt d % 4
def State.rtHops (s : State) (d : Nat) : Nat := s.rt d / 8

/-- Load the 32 entries of a table. -/
def State.loadRoutes (s : State) (t : List Nat) : State :=
  s.each 32 (fun d u => u.setWord (Reg.CHN_RT (d / 4)) (fieldSet (u.word (Reg.CHN_RT (d / 4))) (d % 4 * 8) 8 (t.getD d 0)))

/-! ## The CRC of a cell (R389, R390) -/

def crc16Bit (c : BitVec 16) : BitVec 16 := if c.getLsbD 15 then (c <<< 1) ^^^ 0x1021 else c <<< 1
def crc16Byte (c : BitVec 16) (b : Byte) : BitVec 16 := (List.range 8).foldl (fun x _ => crc16Bit x) (c ^^^ (b.setWidth 16 <<< 8))

/-- CRC-16: polynomial 0x1021, initial value 0xFFFF, unreflected, no final exclusive-OR. -/
def crc16 (b : List Byte) : BitVec 16 := b.foldl crc16Byte 0xFFFF

/-- Header bytes 0 to 5 of a cell. -/
def cellHeader (c : Cell) : List Byte :=
  [c.kind % 4 + c.vc % 2 * 4 + (if c.tree then 8 else 0) + c.op % 16 * 16, c.dst % 32, c.src % 32, c.hops % 16, c.plen % 128, c.tag].map (BitVec.ofNat 8)

/-- The CRC field of a cell whose payload bytes the spec gives: over header bytes 0 to 2, 4 and 5 and the payload; its complement is the
stomp code. -/
def cellCrc (c : Cell) (stomp : Bool) : Option (BitVec 16) :=
  match c.body with
  | .bytes b => let x := crc16 ((cellHeader c).take 3 ++ (cellHeader c).drop 4 ++ b); some (if stomp then ~~~ x else x)
  | _ => none

/-- The 72 bytes of such a cell. -/
def cellWire (c : Cell) (stomp : Bool) : Option (List Byte) :=
  match c.body with
  | .bytes b => (cellCrc c stomp).map (fun x => cellHeader c ++ (leBytes 2 x.toNat).reverse ++ b)
  | _ => none

/-! ## Sending (R411 to R413) -/

/-- Of the hop classes 0 to 7, the one that a cell arriving with these hops occupies (R411). DEDUCED, log entry 88. -/
def hopClass (h : Nat) : Nat := min h 7

/-- The credit counter of a cell on its next input: channel and hop class. -/
def creditIdx (c : Cell) : Nat := c.vc % 2 * 8 + hopClass c.hops

/-- A cell slot of input `src`, for channel `vc` and arriving hops `h`, is free again: its credit goes back (R411). -/
def State.freeSlot (s : State) (src vc h : Nat) : State :=
  if src < 4 ∧ s.linkState src = linkUp then s.send (.credit src (vc % 2) (hopClass h)) else s

/-- An ET or MGMT cell is sent on a credit, but for HELLO and SYNC, which have buffers of their own (R411, R435). -/
def credited (c : Cell) : Bool := c.kind == 1 || (c.kind == 2 && c.op != 0 && c.op != 8)

/-- A cell that waited leaves its input slot; its HOPS has been incremented here. -/
def State.freed (s : State) (x : QCell) : State := if credited x.cell then s.freeSlot x.src x.cell.vc (x.cell.hops - 1) else s

def isSev (c : Cell) : Bool := c.kind == 1 && c.vc == 0 && c.op == 3

/-- Cells are lost: counted in LINK, SEV cells in EV too (R410, R414, R415), and their input slots are free. -/
def State.lost (s : State) (xs : List QCell) : State :=
  xs.foldl State.freed ((s.count Reg.CHN_DROP_LINK xs.length).count Reg.CHN_DROP_EV (xs.filter (fun x => isSev x.cell)).length)

/-- Does a link hold the credit that the cell needs? -/
def Link.credit (l : Link) (c : Cell) : Bool := !credited c || decide (0 < l.credits.getD (creditIdx c) 0)

/-- The order of R413 on one channel: the source granted last goes behind the others; a Strike-tagged cell wins over an untagged one
(R21), and among cells of equal tagging the sources follow from the round-robin pointer on (R32). DEDUCED, log entry 62. -/
def QCell.order (x : QCell) (rr last : Nat) : Nat :=
  (x.src + 5 - rr % 5) % 5 + (if x.strike then 0 else 5) + (if x.src = last then 10 else 0)

/-- Does an earlier SEVR of the same engine to the same device wait, which this one may not overtake (R222)? -/
def Link.behind (l : Link) (x : QCell) : Bool :=
  x.eng.isSome && (l.q.takeWhile (fun y => y != x)).any (fun y => y.eng == x.eng && y.cell.dst == x.cell.dst)

/-- The waiting cell that is sent next, of those that may go: a TT cell, then a response, then a request; the earliest of its source. -/
def Link.nextCell (l : Link) (may : QCell → Bool) (rr : Nat) : Option QCell :=
  let q := l.q.filter (fun x => may x && l.credit x.cell && !l.behind x)
  let best := fun (vc last : Nat) => ((q.filter (fun x => x.cell.vc == vc)).map (fun x => (x.order rr last, x))).foldl
    (fun (b : Option (Nat × QCell)) x => match b with
      | none => some x
      | some y => if x.1 < y.1 then some x else some y) none
  match q.find? (fun x => x.cell.kind == 0) with
  | some x => some x
  | none => match best 1 l.last1 with
    | some x => some x.2
    | none => (best 0 l.last0).map (fun x => x.2)

/-- This device's TOPO (R398). -/
def State.ownTopo (s : State) : Topo :=
  { uid := s.uid, prev := s.chain.prevId,
    nbrs := (List.range 4).map (fun l =>
      if s.linkState l = linkUp then some ((s.linkD l).uid, s.get (Reg.CHN_L_STAT_PEERLINK l)) else none) }

/-! ## The manager's routes (R402, R403) -/

/-- Every TOPO the manager knows, its own first: as a later TOPO has settled it (R422). -/
def State.allTopos (s : State) : List Topo :=
  let ts := s.chain.topos.map (fun t => t.1)
  (ts.find? (fun t => t.uid == s.uid)).getD s.ownTopo :: ts.filter (fun t => t.uid != s.uid)

def topoOf (ts : List Topo) (u : BitVec 64) : Option Topo := ts.find? (fun t => t.uid == u)

/-- Neighbour UIDs of a device. -/
def topoPeers (t : Topo) : List (BitVec 64) := (t.nbrs.filterMap (fun n => n)).map (fun n => n.1)

/-- UIDs at each distance from a device: the list at place d holds those at distance d. -/
def layers (ts : List Topo) : Nat → List (BitVec 64) → List (BitVec 64) → List (List (BitVec 64))
  | 0, _, cur => [cur]
  | fuel + 1, seen, cur =>
    let next := (((cur.filterMap (topoOf ts)).map topoPeers).flatten.filter (fun u => !seen.contains u)).eraseDups
    if next.isEmpty then [cur] else cur :: layers ts fuel (seen ++ next) next

/-- dist(x, d), or none when there is no path. -/
def distOf (ts : List Topo) (x d : BitVec 64) : Option Nat := (layers ts 32 [x] [x]).findIdx? (fun l => l.contains d)

/-- The devices within 8 hops of this one, the manager (R400). -/
def State.near (s : State) : List Topo :=
  let ts := s.allTopos
  let ls := (layers ts 32 [s.uid] [s.uid]).take 9
  ts.filter (fun t => ls.any (fun x => x.contains t.uid))

/-- The devices with an ID that the manager reaches. An ID stays assigned to a device that has left (R399). DEDUCED, log entry 22. -/
def State.members (s : State) : List (BitVec 64 × Nat) := s.chain.ids.filter (fun x => s.near.any (fun t => t.uid == x.1))

/-- The table entry of device `x` for destination `d` under R402: the neighbour one nearer with the lowest ID, its lowest link. -/
def routeEntry (ts : List Topo) (ids : List (BitVec 64 × Nat)) (x : Topo) (d : BitVec 64) : Nat :=
  match distOf ts x.uid d with
  | none => 0
  | some 0 => 0
  | some (n + 1) =>
    let idOf := fun (u : BitVec 64) => ((ids.find? (fun y => y.1 == u)).map (fun y => y.2)).getD 32
    let opts := ((List.range 4).filterMap (fun l => match x.nbrs.getD l none with
      | some (u, _) => if idOf u < 32 ∧ distOf ts u d = some n then some (idOf u, l) else none
      | none => none))
    match opts.foldl (fun (b : Option (Nat × Nat)) o => match b with
      | none => some o
      | some y => if o.1 < y.1 then some o else some y) none with
    | some (_, l) => l + 4 + 8 * (n + 1)
    | none => 0

/-- The 32 entries of device `x`. -/
def routeTable (ts : List Topo) (ids : List (BitVec 64 × Nat)) (x : Topo) : List Nat :=
  (List.range 32).map (fun i => match ids.find? (fun y => y.2 == i) with
    | some y => routeEntry ts ids x y.1
    | none => 0)

/-- Walk the path of R402 from `a` to `d`: does it pass `m`? -/
def pathPasses (ts : List Topo) (ids : List (BitVec 64 × Nat)) : Nat → BitVec 64 → BitVec 64 → BitVec 64 → Bool
  | 0, _, _, _ => false
  | n + 1, a, m, d =>
    if a = m then true
    else match topoOf ts a with
      | none => false
      | some t =>
        let e := routeEntry ts ids t d
        match t.nbrs.getD (e % 4) none with
        | some (u, _) => if e = 0 then false else pathPasses ts ids n u m d
        | none => false

/-- Does the path of R402 from device `a` to device `d` pass this device? The manager knows every TOPO. Another device has its own 32
routes only (R403): a shortest path that passes it comes in and goes out by different links; which of those paths pass it the spec gives it no
means to tell: a free value. DESIGN CHOICE, log entry 89. -/
def State.onPath (s : State) (a d : Nat) : Bool :=
  let uidOf := fun i => (s.chain.ids.find? (fun y => y.2 == i)).map (fun y => y.1)
  if s.isMgr then match uidOf a, uidOf d with
    | some ua, some ud => pathPasses s.allTopos s.chain.ids 9 ua s.uid ud
    | _, _ => false
  else s.rtLink a != s.rtLink d && Config.onPath s.uid s.chnId a d

/-! ## Reservations (R432) -/

/-- Departures of the table's slots on this device's outputs: link, and time in ns after the tick start (R432). -/
def State.departures (s : State) (sl : List TtSlot) : List (Nat × Nat) :=
  let me := s.chnId
  sl.filterMap (fun x =>
    if x.src = me then (if s.rtValid x.dst then some (s.rtLink x.dst, x.offset) else none)
    else if x.dst = me then none
    else if s.rtValid x.src ∧ s.rtValid x.dst ∧ s.onPath x.src x.dst then
      some (s.rtLink x.dst, x.offset + s.rtHops x.src * 600)
    else none)

/-- Departures of the sync slots in use, on every link, h hops from their sender (R432, R435). -/
def State.syncDepartures (s : State) : List Nat :=
  (s.chain.fixs.zipIdx.filter (fun x => x.2 == 0 || x.1.getLsbD 31)).map (fun x =>
    let dev := if x.2 = 0 then 0 else fieldGet x.1 23 5
    fieldGet x.1 0 23 * 10 + (if dev = s.chnId then 0 else s.rtHops dev * 600))

/-- Is a reserved departure on link `l` less than 112 ns ahead, in this tick or at the start of the next, so that no ET or MGMT cell
starts (R432)? DEDUCED, log entry 90. -/
def State.guarded (s : State) (l : Nat) : Bool :=
  s.running &&
    let deps := ((s.departures s.activeSlots).filter (fun x => x.1 == l)).map (fun x => x.2) ++ s.syncDepartures
    let next := s.hearth.nominal + s.tp + s.hearth.lengthen
    deps.any (fun d => let a := s.hearth.nominal + d; let b := next + d
      (decide (s.now < a) && decide (a < s.now + 112)) || (decide (s.now < b) && decide (b < s.now + 112)))

/-- May this cell go on link `l` now: the link is UP, or in HELLO for a HELLO; a TT or ET cell while the Chain runs (R424, R455); an ET or
MGMT cell with no reserved departure near (R432)? -/
def State.cellMay (s : State) (l : Nat) (x : QCell) : Bool :=
  (s.linkState l == linkUp || (s.linkState l == linkHello && x.cell.kind == 2 && x.cell.op == 0))
    && (x.cell.kind == 2 || s.etOpen) && (x.cell.kind == 0 || !s.guarded l)

/-- The cell that link `l` sends next. -/
def State.nextCell (s : State) (l : Nat) : Option QCell := (s.linkD l).nextCell (s.cellMay l) s.chain.rr

/-- A DLYREQ or DLYRSP takes its send time as it leaves (R436). -/
def State.stampDly (s : State) (l : Nat) (c : Cell) : Cell × State :=
  match c.body with
  | .dly t1 t2 _ => if c.op = 14 then ({ c with body := .dly s.tb 0 0 }, s.modLink l (fun x => { x with dly := some s.tb.toNat }))
    else ({ c with body := .dly t1 t2 s.tb }, s)
  | _ => (c, s)

/-- Cell `x` leaves on link `l`. -/
def State.depart (s : State) (l : Nat) (x : QCell) : State :=
  let p := s.stampDly l x.cell
  ((p.2.modLink l (fun y => { y with
    q := y.q.erase x, credits := if credited x.cell then y.credits.modify (creditIdx x.cell) (fun n => n - 1) else y.credits,
    last0 := if x.cell.kind ≠ 0 ∧ x.cell.vc = 0 then x.src else y.last0,
    last1 := if x.cell.vc = 1 then x.src else y.last1 })).send (.cell l p.1 x.stomp)).freed x

/-- Cells that wait on a link go while there is one that may. -/
def State.pump (s : State) (l : Nat) : State :=
  (List.range ((s.linkD l).q.length)).foldl (fun t _ => match t.nextCell l with
    | none => t
    | some x => t.depart l x) s

/-- Is the link enabled, so that it is UP or comes UP again? -/
def State.linkOn (s : State) (l : Nat) : Bool := s.on Reg.CHN_CFG_EN && s.on (Reg.CHN_L_CFG_EN l)

/-- A cell waits for a link's output, also while the link trains (R33). A link that is not enabled has no output: the cell
is lost (R414). DEDUCED, log entry 62. -/
def State.enqueueQ (s : State) (l : Nat) (x : QCell) : State :=
  if s.linkState l = linkUp ∨ s.linkOn l then (s.modLink l (fun y => { y with q := y.q ++ [x] })).pump l
  else s.lost [x]

/-- The cells that wait for a link are discarded (R414). -/
def State.dropQueue (s : State) (l : Nat) : State := (s.lost (s.linkD l).q).modLink l (fun x => { x with q := [] })

/-- Have the outgoing ET queues emptied, and every own ET request gone? -/
def State.etEmpty (s : State) : Bool := (List.range 4).all (fun l => (s.linkD l).q.all (fun x => x.cell.kind != 1))

/-- A cell of this device: tagged Strike or not, of an engine's SEVR or not. -/
def ownCell (strike : Bool) (eng : Option Nat) (c : Cell) : QCell := { src := 4, strike := strike, cell := c, stomp := false, eng := eng }

/-- May this device inject the cell now (R415, R424, CHN_ETCFG)? Not past one of its kind that waits. -/
def State.mayInject (s : State) (c : Cell) : Bool :=
  let lim := if c.kind = 1 then fieldGet s.chain.etcfg 0 16 else fieldGet s.chain.etcfg 16 16
  !(s.chain.wait.any (fun x => x.cell.kind == c.kind && x.cell.vc == c.vc)) &&
    (if c.kind = 1 && c.vc = 0 then s.etOpen && !s.chain.draining && (lim == 0 || decide (s.chain.etUsed < lim))
    else if c.kind = 1 then s.etOpen
    else if c.kind = 2 then lim == 0 || decide (s.chain.mgmtUsed < lim)
    else true)

/-- A cell of this device goes to the link. -/
def State.injectOn (s : State) (l : Nat) (x : QCell) : State :=
  let s := if x.cell.kind = 1 && x.cell.vc = 0 then s.modChain (fun c => { c with etUsed := c.etUsed + 1 })
    else if x.cell.kind = 2 then s.modChain (fun c => { c with mgmtUsed := c.mgmtUsed + 1 }) else s
  s.enqueueQ l x

/-- A routed cell of this device; what the limits hold waits. -/
def State.injectQ (s : State) (x : QCell) : State :=
  if !s.rtValid x.cell.dst then (s.count Reg.CHN_DROP_NOROUTE 1).count Reg.CHN_DROP_EV (if isSev x.cell then 1 else 0)
  else if s.mayInject x.cell then s.injectOn (s.rtLink x.cell.dst) x else s.modChain (fun c => { c with wait := c.wait ++ [x] })

/-- A routed cell that is not tagged. -/
def State.inject (s : State) (c : Cell) : State := s.injectQ (ownCell false none c)

/-- Own cells that waited go, in order, as far as the limits allow. -/
def State.injectWaiting (s : State) : State := s.chain.wait.foldl State.injectQ (s.modChain (fun x => { x with wait := [] }))

/-- Cells that wait here for a run state, a limit or a reserved departure go as far as they may. -/
def State.pumpAll (s : State) : State := s.injectWaiting.each 4 (fun l t => t.pump l)

def cellOf (kind vc op dst src plen tag : Nat) (b : Body) : Cell :=
  { kind := kind, vc := vc, tree := false, op := op, dst := dst, src := src, hops := 0, plen := plen, tag := tag, body := b }

/-- A payload of `n` bytes, padded with zeros to 64 (R389). -/
def pad64 (b : List Byte) : List Byte := b ++ List.replicate (64 - b.length) 0

/-- An ET cell of this device with payload `b`. -/
def State.etCell (s : State) (vc op dst tag : Nat) (b : List Byte) : Cell := cellOf 1 vc op dst s.chnId b.length tag (.bytes (pad64 b))

/-- An ET cell of this device, tagged Strike or not. DEDUCED, log entry 23. -/
def State.sendEtT (s : State) (strike : Bool) (vc op dst tag : Nat) (b : List Byte) : State :=
  if s.etOpen then s.injectQ (ownCell strike none (s.etCell vc op dst tag b)) else s

/-- An ET cell that is not tagged. -/
def State.sendEt (s : State) (vc op dst tag : Nat) (b : List Byte) : State := s.sendEtT false vc op dst tag b

/-- The SEV cell of engine `e`'s SEVR (R222). -/
def State.sendSev (s : State) (e : Nat) (strike : Bool) (dev : Nat) (b : List Byte) : State :=
  s.injectQ (ownCell strike (some e) (s.etCell 0 3 dev 0 b))

/-- Is this initiator's access tagged Strike: of a task marked Strike, or posted by one (R20)? -/
def State.whoStrike (s : State) (w : Who) : Bool :=
  match w with
  | .engine e => s.strikeRun e
  | .emit _ b => b
  | _ => false

/-! ## Request tags (R412) -/

/-- A tag that no request holds, from the next one on; none while 64 wait for a response (R412). DEDUCED, log entry 53. -/
def State.freeTag (s : State) : Option Nat :=
  let used := s.chain.tags.map (fun x => x.1) ++ s.chain.mtags.map (fun x => x.1)
  if 64 ≤ used.length then none else ((List.range 256).map (fun i => (s.chain.nextTag + i) % 256)).find? (fun t => !used.contains t)

/-- Mailbox requests that wait for a tag take those that are free, in order, and go. -/
def State.serveMwait (s : State) : State :=
  s.chain.mwait.foldl (fun t x => match t.freeTag with
    | none => t
    | some g =>
      (t.modChain (fun c => { c with mtags := (g, x.1, x.2.1) :: c.mtags, nextTag := (g + 1) % 256, mwait := c.mwait.drop 1 })).sendEtT
        x.2.2.1 0 2 (t.get (Reg.MBX_CFG_RDEV x.1)) g x.2.2.2) s

/-- The tag of a request is free again. -/
def State.dropTag (s : State) (tag : Nat) : State :=
  (s.modChain (fun c => { c with tags := c.tags.filter (fun x => x.1 != tag), mtags := c.mtags.filter (fun x => x.1 != tag) })).serveMwait

/-- A MGMT cell of this device to a device with an ID. -/
def State.sendMgmt (s : State) (vc op dst : Nat) (b : Body) : State := s.inject (cellOf 2 vc op dst s.chnId 64 0 b)

/-- A MGMT cell on the election tree over one link (R397). -/
def State.sendTree (s : State) (l : Nat) (vc op : Nat) (b : Body) : State :=
  s.injectOn l (ownCell false none { (cellOf 2 vc op 0 s.chnId 64 0 b) with tree := true })

/-- The parent link. -/
def State.parent (s : State) : Option Nat := s.chain.cand.bind (fun c => c.2.2.2)

/-- Towards the manager on the tree. -/
def State.treeUp (s : State) (vc op : Nat) (b : Body) : State :=
  match s.parent with
  | some l => s.sendTree l vc op b
  | none => s

/-- Away from the manager: the link that the TOPO of the destination UID arrived on. -/
def State.treeDown (s : State) (uid : BitVec 64) (vc op : Nat) (b : Body) : State :=
  match s.chain.topos.find? (fun t => t.1.uid == uid) with
  | some t => s.sendTree t.2 vc op b
  | none => s

/-- The manager sends a MGMT cell to every other device with an ID. -/
def State.toAll (s : State) (op : Nat) (b : Body) : State :=
  (s.members.filter (fun x => x.2 != 0)).foldl (fun t x => t.sendMgmt 0 op x.2 b) s

/-- A device towards the manager: a configured one by its routes, another on the tree (R397). -/
def State.toMgr (s : State) (vc op : Nat) (b : Body) : State :=
  if s.chnState = chnConfigured ∨ s.chnState = chnQuarantine then s.sendMgmt vc op 0 b else s.treeUp vc op b

/-- The manager to a device: by the routes once the device is configured, on the tree before that (R397). -/
def State.toDev (s : State) (x : BitVec 64 × Nat) (vc op : Nat) (b : Body) : State :=
  if s.chain.conf.contains x.1 && s.rtValid x.2 then s.sendMgmt vc op x.2 b else s.treeDown x.1 vc op b

/-! ## HELLO (R393) -/

/-- The HELLO payload of link `l`. -/
def State.helloBytes (s : State) (l : Nat) : List Byte :=
  let c := s.chain.cand.getD (0, 0, 0, none)
  let en := bitmap ((List.range 4).filter (fun i => s.on (Reg.CHN_L_CFG_EN i)))
  leBytes 8 s.uid.toNat ++ leBytes 8 c.2.1.toNat ++ [BitVec.ofNat 8 s.prio, BitVec.ofNat 8 c.1, BitVec.ofNat 8 c.2.2.1, BitVec.ofNat 8 l,
      if s.on Reg.CHN_STAT_IDV then BitVec.ofNat 8 s.chnId else 0xFF, BitVec.ofNat 8 (en + (if s.prio = 0 then 0 else 16)), 0, 0]
    ++ wordBytes (s.word Reg.CHN_VER) ++ [0, 0, 0, 0]
    ++ ((List.range 3).map (fun n => if s.slotState n = slotEmpty then leBytes 8 0
        else wordBytes (s.word (Reg.PRS_HASH_LO n)) ++ wordBytes (s.word (Reg.PRS_HASH_HI n)))).flatten
    ++ leBytes 8 s.cfgHash.toNat

/-- Send a HELLO on link `l`. -/
def State.sendHello (s : State) (l : Nat) : State :=
  s.enqueueQ l (ownCell false none (cellOf 2 0 0 0 s.chnId 64 0 (.bytes (s.helloBytes l))))

/-! ## The candidate (R394 to R396) -/

/-- Is candidate a better than b: by P, then by the lower UID? -/
def better (a b : Nat × BitVec 64 × Nat × Option Nat) : Bool :=
  decide (b.1 < a.1) || (a.1 == b.1 && decide (a.2.1 < b.2.1))

/-- The better of a held candidate and one offered: better, or the same at a shorter distance. -/
def takeCand (h : Option (Nat × BitVec 64 × Nat × Option Nat)) (x : Nat × BitVec 64 × Nat × Option Nat) :
    Option (Nat × BitVec 64 × Nat × Option Nat) :=
  match h with
  | none => some x
  | some y => if better x y || (x.1 == y.1 && x.2.1 == y.2.1 && decide (x.2.2.1 < y.2.2.1)) then some x else h

/-- The candidate from itself and the latest HELLO of every UP link; the lowest link wins a tie (R394, R395, R418). -/
def State.newCand (s : State) : Option (Nat × BitVec 64 × Nat × Option Nat) :=
  let own := if s.prio = 0 then none else some (s.prio, s.uid, 0, none)
  (List.range 4).foldl (fun h l =>
    let b := (s.linkD l).hello
    let d := byteAt b 18 + 1
    if s.linkState l = linkUp ∧ byteAt b 17 ≠ 0 ∧ d ≤ 8 then takeCand h (byteAt b 17, BitVec.ofNat 64 (leAt b 8 8), d, some l) else h) own

/-! ## Modes -/

/-- Mode `m` becomes the active one at this tick start, and the table held for it visible (R429). -/
def State.becomeMode (s : State) (m : Nat) : State :=
  let t := s.table m
  let s := if s.activeMode = m then s else (s.set Reg.CHN_MSTAT_ACTIVE m).set Reg.CHN_MSWTICK_TICK s.tick
  s.modChain (fun c => { c with vis := t, ttData := if c.vis = t then c.ttData else [] })

/-- The active mode is `m` from this tick start on; one that it is already stays as it is. -/
def State.setMode (s : State) (m : Nat) : State := if s.activeMode = m then s else s.becomeMode m

/-- Do two reservations on one link output lie less than 112 ns apart (R432)? Sync slots are reserved on every link. -/
def State.conflict (s : State) (t : List Byte) : Bool :=
  let deps := s.departures (ttSlots t)
  (List.range 4).any (fun l =>
    let d := (deps.filter (fun x => x.1 == l)).map (fun x => x.2) ++ (if s.linkState l = linkUp then s.syncDepartures else [])
    (d.zipIdx).any (fun x => (d.zipIdx).any (fun y => decide (x.2 < y.2) && decide (x.1 < y.1 + 112) && decide (y.1 < x.1 + 112))))

/-- The reason for which this device votes NO on mode `m` with hash `h`, or 0: READY (R451). -/
def State.voteReason (s : State) (m : Nat) (h : BitVec 64) : Nat :=
  let t := (s.table m).getD []
  if !s.holdsMode m then 1
  else if h ≠ s.modeHash m then 2
  else if (s.table m).isSome && leAt t 4 4 != s.get Reg.HRT_PERIOD_PERIOD then 3
  else if s.conflict t then 4
  else if !s.integ then 5
  else if s.on Reg.CHN_SSTAT_QUAR || s.on Reg.PWR_QSTAT_ACTIVE then 6
  else 0

/-- The open proposal ends. -/
def State.abortProposal (s : State) (why : Option (Nat × Nat)) : State :=
  match s.chain.proposal with
  | none => s
  | some p =>
    let s := s.toAll 12 (.mabort (s.get Reg.CHN_MSTAT_PNUM))
    let s := (s.set Reg.CHN_MSTAT_VOTING 0).set Reg.CHN_MSTAT_RESULT 2
    let s := match why.or p.no with
      | some (d, w) => (s.set Reg.CHN_MSTAT_NODEV d).set Reg.CHN_MSTAT_NOWHY w
      | none => s
    let s := s.modChain (fun c => { c with proposal := none })
    match p.req with
    | none => s
    | some r => (s.record 0x0205 0xFF 0).endWithEntry r.ring r.picks statusFail

/-- A proposal is opened (R450). -/
def State.propose (s : State) (m : Nat) (r : Option RingRef) : State :=
  let k := if s.running && s.phase == 0 then s.tick else s.tick + 1
  let s := (s.set Reg.CHN_MSTAT_PNUM (s.get Reg.CHN_MSTAT_PNUM + 1)).set Reg.CHN_MSTAT_VOTING 1
  s.modChain (fun c => { c with proposal := some { mode := m, k := k, sent := false, ready := [], no := none, req := r, abort := false } })

/-- May a proposal be made (R450, R454)? -/
def State.mayPropose (s : State) : Bool := s.isMgr && s.chain.proposal.isNone

/-- At the start of Compute(k) the proposal goes out and the manager votes for itself (R450, R451). -/
def State.chainCompute (s : State) : State :=
  match s.chain.proposal with
  | none => s
  | some p =>
    if p.sent || p.k != s.tick then s
    else
      let s := s.toAll 9 (.propose p.mode (s.modeHash p.mode) (s.get Reg.CHN_MSTAT_PNUM) (p.k + 2))
      let w := s.voteReason p.mode (s.modeHash p.mode)
      s.modChain (fun c => { c with voted := if w = 0 then some (p.k + 2) else c.voted, proposal := some { p with
        sent := true, ready := if w = 0 then [0] else [], no := if w = 0 then none else some (0, w) } })

/-- A commit is held: the switch comes at the next tick start (R453). During a Quench a device follows none; the manager shows it in its
SYNCs all the same, and does not switch (R452, R456). -/
def State.holdCommit (s : State) (m : Nat) : State :=
  let q := s.on Reg.PWR_QSTAT_ACTIVE
  if (q && !s.isMgr) || decide (3 ≤ s.phase) then s
  else ((s.set Reg.CHN_MSTAT_PEND m).set Reg.CHN_MSTAT_PV 1).modChain (fun c => { c with
    commit := some (m, s.tick + 1), spoilt := if q then some (s.tick + 1) else c.spoilt })

/-- At the start of Gather(k + 1) the manager counts the votes (R452, R460). -/
def State.voteCheck (s : State) : State :=
  match s.chain.proposal with
  | none => s
  | some p =>
    if !p.sent || decide (s.tick ≤ p.k) then s
    else
      let missing := (s.members.map (fun x => x.2)).find? (fun i => !p.ready.contains i)
      match p.no with
      | some w => s.abortProposal (some w)
      | none =>
        match missing with
        | some d => s.abortProposal (some (d, 7))
        | none =>
          if p.abort then s.abortProposal none
          else
            let s := s.toAll 11 (.mcommit p.mode (s.get Reg.CHN_MSTAT_PNUM))
            let s := ((s.set Reg.CHN_MSTAT_VOTING 0).set Reg.CHN_MSTAT_RESULT 1).modChain (fun c => { c with
              proposal := none, done := p.req.map (fun r => (p.k + 2, r)) })
            s.holdCommit p.mode

/-- The administrative fields become operational (R425). -/
def State.adoptConfig (s : State) : State :=
  s.modChain (fun c => { c with
    fixs := (List.range 8).map (fun j => s.word (Reg.CHN_FIXS j) ||| (if j = 0 then 0x80000000 else 0)),
    scfg := s.word Reg.CHN_SCFG &&& 0xFFFF, etcfg := s.word Reg.CHN_ETCFG })

/-- The Chain stops: TT and ET traffic stop, the mode is M0, an open vote is aborted (R425, R459). -/
def State.chainStop (s : State) : State :=
  let s := (s.set Reg.CHN_RUNCTL_RUN 0).abortProposal none
  let s := (s.set Reg.CHN_MSTAT_PV 0).modChain (fun c => { c with commit := none, withdraw := s.on Reg.PWR_QSTAT_ACTIVE, wdrawn := false })
  s.setMode 0

/-- A withdrawal or a switch at this tick start; a withdrawal holds (R453, R456, R462). A device that has Quenched since it voted READY for
the switch stays in M0 (R461), and no mode but M0 becomes active while the Chain is STOPPED (R424). -/
def State.modeSwitch (s : State) : State :=
  let due := match s.chain.commit with
    | some (m, t) => if t ≤ s.tick then some m else none
    | none => none
  let s := if due.isSome then (s.set Reg.CHN_MSTAT_PV 0).modChain (fun c => { c with commit := none }) else s
  if s.chain.withdraw then
    let s := (s.set Reg.CHN_MSTAT_PV 0).modChain (fun c => { c with commit := none, withdraw := s.on Reg.PWR_QSTAT_ACTIVE, wdrawn := false })
    s.setMode 0
  else match due with
    | some m => if !s.chnRunning || s.chain.spoilt == some s.tick then s else s.becomeMode m
    | none => s

/-- A Chain disagreement: withdraw to M0 at the next tick start (R433, R456), once for each tick. -/
def State.withdraw (s : State) : State :=
  if s.chain.wdrawn then s
  else ((s.set Reg.CHN_MSTAT_WDRAW 1).record 0x0807 0xFF s.uid.toNat).modChain (fun c => { c with withdraw := true, wdrawn := true })

/-! ## Clock agreement (R439 to R449) -/

/-- Operational PREC in 1/16 ns, and SLEWR. -/
def State.prec (s : State) : Int := (max 1 (fieldGet s.chain.scfg 0 8) * 16 : Nat)
def State.slewr (s : State) : Nat := fieldGet s.chain.scfg 8 8

/-- Round a value in 1/16 ns to the nearest ns, halves away from zero. -/
def roundNs (a : Int) : Int := if 0 ≤ a then (a + 8) / 16 else -((-a + 8) / 16)

/-- Divide with rounding to the nearest, halves away from zero. -/
def roundDiv (n : Int) (d : Nat) : Int := if d = 0 then 0 else if 0 ≤ n then (2 * n + d) / (2 * d) else -((2 * (-n) + d) / (2 * d))

def insertInt (x : Int) : List Int → List Int
  | [] => [x]
  | y :: r => if x ≤ y then x :: y :: r else y :: insertInt x r

def sortInt (l : List Int) : List Int := l.foldr insertInt []

/-- The fault-tolerant mean of a value set (R440). -/
def ftMean (l : List Int) : Option Int :=
  let n := l.length
  let k := if n ≤ 2 then 0 else if n ≤ 7 then 1 else 2
  let m := ((sortInt l).drop k).take (n - 2 * k)
  if n = 0 then none else some (Int.tdiv (m.foldl (· + ·) 0) m.length)

/-- The value set of the tick (R440, R447). -/
def State.valueSet (s : State) : List Int :=
  if s.integ then
    let own := (s.chain.fixs.zipIdx).any (fun x => (x.2 == 0 || x.1.getLsbD 31) && x.1.getLsbD 28
      && (if x.2 = 0 then s.isMgr else fieldGet x.1 23 5 == s.chnId))
    (s.chain.vals.filter (fun v => v.2.1 == s.tick)).map (fun v => v.2.2) ++ (if own then [0] else [])
  else if s.isMgr then [0]
  else match s.chain.val0.find? (fun v => v.1 == s.tick) with
    | some v => [v.2]
    | none => []

/-- Back to LISTEN with a report (R449). -/
def State.timeLost (s : State) : State :=
  (((s.set Reg.CHN_SSTAT_INTEG 0).count Reg.CHN_SSTAT_REINT 1).record 0x0805 0xFF s.uid.toNat
    |>.modChain (fun c => { c with good := 0, noA := 0, ttTail := true })).checkVoids

/-- The correction of one Settle (R441, R446, R448, R449). A step that has been refused keeps a steering device in LISTEN until it is granted,
whatever a is (R448). -/
def State.correct1 (s : State) (a : Int) : State :=
  let steer := s.on Reg.CHN_SCFG_STEER
  if s.integ then
    let s := if steer then s.startSlew (-(roundNs a)) s.slewr else s
    if decide (4 * s.prec < a.natAbs) then s.timeLost else s.modChain (fun c => { c with noA := 0 })
  else if decide ((a.natAbs : Int) ≤ s.prec) && !(steer && s.on Reg.TIME_STAT_HOLD) then
    let s := s.modChain (fun c => { c with good := c.good + 1 })
    if 4 ≤ s.chain.good then (s.set Reg.CHN_SSTAT_INTEG 1).modChain (fun c => { c with good := 0, noA := 0 }) else s
  else
    let s := s.modChain (fun c => { c with good := 0 })
    if steer ∧ s.prec < (a.natAbs : Int) then s.stepRequest (BitVec.ofInt 64 (-(roundNs a))) else s

/-- The rate trim of every tick whose number is 15 mod 16 (R442). -/
def State.rateTrim (s : State) : State :=
  if s.tick % 16 = 15 then
    let x := max (-512) (min 512 (roundDiv (s.chain.sumA * 2 ^ 26) (1024 * s.tp)))
    let s := if s.on Reg.CHN_SCFG_STEER && s.integ then
        (s.setAddend ((s.get Reg.TIME_ADDEND_ADD : Int) - x)).set Reg.CHN_RATE_DADD (BitVec.ofInt 16 (-x)).toNat
      else s
    s.modChain (fun c => { c with sumA := 0 })
  else s

/-- The clock agreement's work of Settle(k), of a CONFIGURED device. A tick in which the device forms no a counts as 0 in R442's sum. -/
def State.averaging (s : State) : State :=
  if s.chnState ≠ chnConfigured then s.rateTrim
  else
    let vs := s.valueSet
    let was := s.integ
    let s := s.set Reg.CHN_SSTAT_NVAL (min vs.length 8)
    let s := match ftMean vs with
      | some a =>
        let s := (s.set Reg.CHN_OFFS_A (BitVec.ofInt 32 a).toNat).modChain (fun c => { c with sumA := c.sumA + a })
        s.correct1 a
      | none =>
        if was then
          let s := s.modChain (fun c => { c with noA := c.noA + 1 })
          if 16 ≤ s.chain.noA && !s.isMgr then s.timeLost else s
        else s.modChain (fun c => { c with good := 0 })
    s.rateTrim

/-- The Chain's part of a Settle start: averaging, the end of a committed CHN_MODE, and the deviations of the next tick. -/
def State.chainSettle (s : State) : State :=
  let s := s.averaging
  match s.chain.done with
  | some (t, r) =>
    if t ≤ s.tick then
      let s := s.modDesc r.ring r.picks (fun d => { d with prog := t % 2 ^ 32 })
      (s.doneNow r.ring r.picks).modChain (fun c => { c with done := none })
    else s
  | none => s

/-- A new tick: the value sets of past ticks are done, SDEV.V tells whether the tick that ended had the slot's SYNC, the limits start again and
the round-robin pointers advance (R22). -/
def State.newSyncTick (s : State) : State :=
  let s := s.each 8 (fun j t => t.setB (Reg.CHN_SDEV_V j) (t.chain.seen.contains (j, t.tick - 1)))
  (s.modChain (fun c => { c with
    vals := c.vals.filter (fun v => decide (s.tick ≤ v.2.1)), val0 := c.val0.filter (fun v => decide (s.tick ≤ v.1)), ttTail := false,
    etUsed := 0, mgmtUsed := 0, seen := c.seen.filter (fun x => decide (s.tick ≤ x.2 + 2)),
    rr := (c.rr + 1) % 5 })).pumpAll

/-- A device enters LISTEN newly CONFIGURED (R446). -/
def State.listen (s : State) : State :=
  (s.set Reg.CHN_SSTAT_INTEG 0).modChain (fun c => { c with good := 0, noA := 0 })

/-- QUARANTINE (R455). -/
def State.quarantine (s : State) : State :=
  if s.on Reg.CHN_SSTAT_QUAR then s.modChain (fun c => { c with matchCnt := 0 })
  else
    let s := ((s.set Reg.CHN_SSTAT_QUAR 1).chnSet chnQuarantine).listen
    ((s.record 0x0806 0xFF s.uid.toNat).modChain (fun c => { c with matchCnt := 0 })).checkVoids

end Sys2Proof.Machine
end

