-- ==== Sys2Proof/Machine/Chain.lean ====
section
/-!
DEFINITION. The commands of the Chain fabric (12): links, HELLO and election, TOPO, IDs and routes, forwarding, remote targets.
-/

namespace Sys2Proof.Machine

/-! ## Election and TOPO -/

/-- The candidate is formed anew; a change of its identity starts an election (R394 to R396, R416, R417). DEDUCED, log entry 21. -/
def State.recand (s : State) : State :=
  let n := s.newCand
  if n.map (fun c => (c.1, c.2.1)) = s.chain.cand.map (fun c => (c.1, c.2.1)) then s.modChain (fun c => { c with cand := n })
  else
    let prev := if s.on Reg.CHN_STAT_IDV then s.chnId else s.chain.prevId
    let s := s.modChain (fun c => { c with
      cand := n, settled := false, prevId := prev, ids := [], topos := [], sent := [], conf := [], route := none, newRoutes := none,
      routeWait := [], drainWait := [], draining := false, drained := false, run := [] })
    let s := ((s.abortProposal none).set Reg.CHN_STAT_MGR 0).set Reg.CHN_STAT_IDV 0
    let s := (s.set Reg.CHN_STAT_NDEV 0).set Reg.CHN_STAT_DIAM 0
    if s.chnState = chnOff then s
    else s.chnSet (if (List.range 4).any (fun l => s.linkState l == linkUp) then chnElect else chnDiscover)

/-- Compute and send the routes of every device with an ID (R402, R403, R415): changed tables go out, then DRAINQ to the devices
that are configured and so hold routes already. -/
def State.sendRoutes (s : State) : State :=
  let ts := s.allTopos
  let ids := s.members
  let old := ids.filter (fun x => x.2 != 0 && s.chain.conf.contains x.1)
  let s := s.modChain (fun c => { c with
    newRoutes := some (routeTable ts ids (ts.headD s.ownTopo)), routeWait := c.routeWait.filter (fun u => ids.any (fun x => x.1 == u)) })
  let s := (ids.filter (fun x => x.2 != 0)).foldl (fun (t : State) x =>
    match topoOf ts x.1 with
    | none => t
    | some d =>
      let r := routeTable ts ids d
      if t.chain.sent.contains (x.1, r) then t
      else
        let t := t.modChain (fun c => { c with
          sent := (x.1, r) :: c.sent.filter (fun y => y.1 != x.1), routeWait := x.1 :: c.routeWait.filter (fun y => y != x.1) })
        t.toDev x 0 2 (.route x.1 x.2 r)) s
  let s := old.foldl (fun t x => t.sendMgmt 0 4 x.2 .drainq) s
  s.modChain (fun c => { c with
    drainWait := old.map (fun x => x.2), draining := !old.isEmpty, drained := s.etEmpty })

/-- A device switches to the routes it holds and resumes injection (R415, R433, R446). One that they configure starts STOPPED, in M0 (R424). -/
def State.switchRoutes (s : State) (t : List Nat) : State :=
  let s := s.loadRoutes t
  let s := if s.chain.draining && !s.chain.drained then
      s.each 4 (fun l u => (u.lost ((u.linkD l).q.filter (fun x => x.cell.kind == 1))).modLink l (fun x => { x with q := x.q.filter (fun y => y.cell.kind != 1) }))
    else s
  let s := s.modChain (fun c => { c with draining := false, drained := false, route := none, newRoutes := none })
  let s := if s.chnState = chnConfigured ∨ s.chnState = chnQuarantine then s
    else
      let s := s.chnSet (if s.on Reg.CHN_SSTAT_QUAR then chnQuarantine else chnConfigured)
      let s := s.listen.modChain (fun c => { c with firstStep := false, sync0 := none, commit := none })
      ((s.set Reg.CHN_RUNCTL_RUN 0).set Reg.CHN_MSTAT_PV 0).setMode 0
  let s := match s.chain.vis with
    | some m => if s.conflict m then s.withdraw else s
    | none => s
  s.pumpAll.checkVoids

/-- The manager sends COMMIT to every device with an ID and switches itself (R403, R415); an open proposal is spoilt (R460). DEDUCED, log entry 22. -/
def State.managerCommit (s : State) : State :=
  let dsts := s.members.filter (fun x => x.2 != 0)
  let s := dsts.foldl (fun t x => t.toDev x 0 3 (.commit x.1)) s
  let s := s.modChain (fun c => { c with
    routeWait := [], drainWait := [], conf := dsts.map (fun x => x.1), proposal := c.proposal.map (fun p => { p with abort := true }) })
  match s.chain.newRoutes with
  | some t => s.switchRoutes t
  | none => s

/-- COMMIT goes out once every device has answered, the manager by its own empty ET queues. DEDUCED, log entry 22. -/
def State.commitIfReady (s : State) : State :=
  if s.isMgr && s.chain.newRoutes.isSome && s.chain.routeWait.isEmpty && s.chain.drainWait.isEmpty && (!s.chain.draining || s.etEmpty) then
    s.managerCommit
  else s

/-- The ET queues of a draining device are empty: it answers the DRAINQ once (R415). -/
def State.drainAnswer (s : State) : State :=
  if s.chain.draining && !s.chain.drained && s.etEmpty && !s.isMgr then
    (s.modChain (fun c => { c with drained := true })).toMgr 1 5 (.ack 4 s.uid)
  else s

/-- Cells may go on link `l`: what waits goes, and a drain that this ends is answered (R411, R413, R415). -/
def State.flow (s : State) (l : Nat) : State := (s.pump l).drainAnswer.commitIfReady

/-- Every neighbour named in a TOPO has sent one of its own (R399). -/
def State.toposComplete (s : State) : Bool :=
  let ts := s.allTopos
  ((ts.map topoPeers).flatten).all (fun u => (topoOf ts u).isSome)

/-- A stored TOPO `u` as the later TOPO `t` has it: the two ends of a link report the same state of it (R422). -/
def settleTopo (t u : Topo) : Topo :=
  { u with nbrs := u.nbrs.zipIdx.map (fun x => match t.nbrs.findIdx? (fun n => n == some (u.uid, x.2)) with
    | some k => some (t.uid, k)
    | none => if x.1.any (fun n => n.1 == t.uid) then none else x.1) }

/-- The TOPO of a device has come by link `l` (4: this device's own): tree cells for that device leave by it (R397); on the manager it settles
what the other reports say of the same links (R422). -/
def State.noteTopo (s : State) (l : Nat) (t : Topo) : State :=
  s.modChain (fun c => { c with topos := (t, l) :: (c.topos.filter (fun x => x.1.uid != t.uid)).map (fun x =>
    (if s.isMgr then settleTopo t x.1 else x.1, x.2)) })

/-- The routes are computed again on a configured manager that knows the topology (R415). -/
def State.reroute (s : State) : State :=
  if s.toposComplete && s.chnState == chnConfigured then s.sendRoutes.commitIfReady else s

/-- The links or neighbours of this device changed: it tells the manager, or computes the routes again (R398, R414, R415). -/
def State.topoChanged (s : State) : State :=
  if !s.chain.settled then s
  else if s.isMgr then (s.noteTopo 4 s.ownTopo).reroute
  else s.toMgr 0 1 (.topo s.ownTopo)

/-! ## Links -/

/-- A link is lost (R387, R414). DEDUCED, log entry 21. -/
def State.linkLoss (s : State) (l : Nat) : State :=
  let x := s.linkD l
  let s := (s.setLink l linkDown).record 0x0801 l x.uid.toNat
  let s := (s.dropQueue l).modLink l (fun y => { Link.zero with held := y.held })
  let s := (s.set (Reg.CHN_L_STAT_PEERV l) 0).set (Reg.CHN_L_STAT_PEERID l) 0x1F
  s.recand.topoChanged.drainAnswer.commitIfReady.checkVoids

/-- A link whose enables were cleared. -/
def State.linkOff (s : State) (l : Nat) : State :=
  if s.linkState l = linkUp then s.linkLoss l else ((s.setLink l linkDown).dropQueue l).modLink l (fun y => { y with retry := false })

/-- The enables of the Chain or of a link were written. -/
def State.chainEnables (s : State) : State :=
  let s := s.setEff
  if s.on Reg.CHN_CFG_EN then
    let s := if s.chnState = chnOff then (s.chnSet chnDiscover).recand else s.recand
    let s := s.each 4 (fun l t => if t.on (Reg.CHN_L_CFG_EN l) then t else if t.linkState l = linkDown then t.dropQueue l else t.linkOff l)
    s.trainLinks
  else if s.chnState = chnOff then s
  else
    let s := s.each 4 (fun l t => if t.linkState l = linkDown then t.dropQueue l else t.linkOff l)
    let s := ((s.chainStop.listen.chnSet chnOff).set Reg.CHN_STAT_MGR 0).set Reg.CHN_STAT_IDV 0
    s.modChain (fun c => { c with cand := none, settled := false })

/-- A link's receiver has locked and adapted: it enters HELLO and sends one (R386, R393). -/
def execChainLinkTrained (l : Fin 4) (s : State) : Host.Outcome State Fault Refusal :=
  .next (if s.linkState l = linkTrain ∨ s.linkLeaves l then ((s.setLink l linkHello).sendHello l).pump l else s)

def execChainTrainTimeout (l : Fin 4) (s : State) : Host.Outcome State Fault Refusal :=
  .next (if s.linkState l = linkTrain ∨ s.linkLeaves l then (s.setLink l linkDown).modLink l (fun x => { x with retry := true }) else s)

def execChainTrainRetry (l : Fin 4) (s : State) : Host.Outcome State Fault Refusal :=
  let s := s.modLink l (fun x => { x with retry := false })
  .next (if s.linkLeaves l then s.setLink l linkTrain else s)

def execHelloSend (l : Fin 4) (s : State) : Host.Outcome State Fault Refusal :=
  .next (if s.linkState l = linkUp ∨ s.linkState l = linkHello then s.sendHello l else s)

/-- A HELLO with a valid CRC arrives on link l (R386, R387, R394, R395). -/
def execHello (l : Fin 4) (b : List Byte) (s : State) : Host.Outcome State Fault Refusal :=
  if b.length ≠ 64 then .fault .illFormed
  else if s.linkState l ≠ linkUp ∧ s.linkState l ≠ linkHello then .next s
  else
    let uid := BitVec.ofNat 64 (leAt b 0 8)
    if s.linkState l = linkUp ∧ (s.linkD l).uid ≠ uid then .next (s.linkLoss l)
    else
      let fresh := s.linkState l != linkUp
      let s := (s.setLink l linkUp).modLink l (fun x => { x with hello := b, uid := uid })
      let s := (s.set (Reg.CHN_L_STAT_PEERV l) (if byteAt b 20 = 0xFF then 0 else 1)).set (Reg.CHN_L_STAT_PEERID l)
        (if byteAt b 20 = 0xFF then 0x1F else byteAt b 20)
      let s := (s.set (Reg.CHN_L_STAT_PEERLINK l) (byteAt b 19)).set (Reg.CHN_L_PEERUID_UID l) (leAt b 0 4)
      let s := if s.chnState = chnDiscover then s.chnSet chnElect else s
      let s := s.recand
      .next (if fresh then s.topoChanged.flow l else s)

/-- DESIGN CHOICE, log entry 8. -/
def execHelloTimeout (l : Fin 4) (s : State) : Host.Outcome State Fault Refusal :=
  .next (if s.linkState l = linkUp then (s.count (Reg.CHN_L_ERR_LOCK l) 1).linkLoss l else s)

def execChainLinkDown (l : Fin 4) (s : State) : Host.Outcome State Fault Refusal :=
  .next (if s.linkState l = linkUp then (s.count (Reg.CHN_L_ERR_LOCK l) 1).linkLoss l else s)

/-- The device receives ID `n`: an entry when it held another one before (R401). -/
def State.takeId (s : State) (n : Nat) : State :=
  let prev := if s.on Reg.CHN_STAT_IDV then s.chnId else s.chain.prevId
  let s := s.modChain (fun c => { c with prevId := n })
  if prev = 0xFF ∨ prev = n then s else s.record 0x0803 0xFF (s.uid.toNat + prev * 2 ^ 64 + n * 2 ^ 72)

/-- The candidate has not changed for 1,024 us (R396, R398). -/
def execCandidateSettled (s : State) : Host.Outcome State Fault Refusal :=
  match s.chain.cand with
  | none => .next s
  | some c =>
    if s.chain.settled || !s.on Reg.CHN_CFG_EN then .next s
    else
      let s := (s.setWord64 Reg.CHN_MGRUID_LO Reg.CHN_MGRUID_HI c.2.1).modChain (fun x => { x with settled := true })
      let s := s.chnSet chnAssign
      if c.2.1 = s.uid then
        .next (((((s.set Reg.CHN_STAT_MGR 1).takeId 0).set Reg.CHN_STAT_ID 0).set Reg.CHN_STAT_IDV 1).noteTopo 4 s.ownTopo)
      else .next (s.treeUp 0 1 (.topo s.ownTopo))

/-- A device that reports on the tree is not configured, whatever it was: its ROUTE goes out again (R397, R403). -/
def State.unconfigured (s : State) (u : BitVec 64) : State :=
  s.modChain (fun c => { c with conf := c.conf.filter (fun x => x != u), sent := c.sent.filter (fun x => x.1 != u) })

/-- A TOPO arrives for this device, the manager (R397, R398, R403, R415). A tree TOPO that passes here, which CELL_FORWARD sends on, leaves the
link that it came by. DEDUCED, log entry 20. -/
def execTopo (hop : TopoHop) (t : Topo) (s : State) : Host.Outcome State Fault Refusal :=
  if s.linkState hop.link ≠ linkUp ∨ t.uid = s.uid then .next s
  else
    let old := s.chain.topos
    let came := old.find? (fun x => x.1.uid == t.uid)
    let s := if hop.tree ∨ (s.isMgr ∧ came = none) then s.noteTopo hop.link t
      else match came with
        | some x => if s.isMgr then s.noteTopo x.2 t else s
        | none => s
    if !s.isMgr then .next s
    else
      let again := hop.tree && s.chain.sent.any (fun x => x.1 == t.uid)
      let s := if hop.tree then s.unconfigured t.uid else s
      let s := match s.chain.ids.find? (fun x => x.1 == t.uid) with
        | some x => s.toDev x 1 5 (.ack 1 t.uid)
        | none => s.treeDown t.uid 1 5 (.ack 1 t.uid)
      let same := !again && old.any (fun x => x.1.uid == t.uid && x.1.nbrs == t.nbrs)
      let known := s.chain.ids.any (fun x => x.1 == t.uid)
      .next (if same || !known then s else s.reroute)

/-! ## IDs (R399, R400) -/

def lowestFree (used : List Nat) : Option Nat := ((List.range 31).map (fun i => i + 1)).find? (fun i => !used.contains i)

def insertUid (u : BitVec 64) : List (BitVec 64) → List (BitVec 64)
  | [] => [u]
  | v :: r => if u ≤ v then u :: v :: r else v :: insertUid u r

/-- IDs of the devices: every one already assigned, then unique free previous ones, then the lowest free in ascending UID order (R399). The
second list holds the devices that receive none. -/
def assignIds (own : BitVec 64) (held : List (BitVec 64 × Nat)) (near : List Topo) (far : List (BitVec 64)) :
    List (BitVec 64 × Nat) × List (BitVec 64) :=
  let ids := (own, 0) :: held.filter (fun x => x.1 != own)
  let new := near.filter (fun t => t.uid != own && !ids.any (fun x => x.1 == t.uid))
  let prevOk := fun (t : Topo) => decide (t.prev < 32) && !ids.any (fun x => x.2 == t.prev)
    && (new.filter (fun u => u.prev == t.prev)).length == 1
  let ids := ids ++ (new.filter prevOk).map (fun t => (t.uid, t.prev))
  let rest := (new.filter (fun t => !prevOk t)).foldl (fun l t => insertUid t.uid l) []
  rest.foldl (fun p u => match lowestFree (p.1.map (fun x => x.2)) with
    | some i => (p.1 ++ [(u, i)], p.2)
    | none => (p.1, p.2 ++ [u])) (ids, far)

/-- The manager assigns IDs and sends the routes (R399, R400, R403). DEDUCED, log entry 22. -/
def execIdAssignment (s : State) : Host.Outcome State Fault Refusal :=
  if !(s.isMgr && s.chain.settled && s.toposComplete) then .next s
  else
    let ts := s.allTopos
    let ls := layers ts 32 [s.uid] [s.uid]
    let far := ((ls.drop 9).flatten)
    let p := assignIds s.uid s.chain.ids s.near far
    let s := s.modChain (fun c => { c with ids := p.1 })
    let here := s.members
    let diam := (here.filterMap (fun x => here.foldl (fun (m : Option Nat) y => match distOf ts x.1 y.1 with
      | some d => some (max d (m.getD 0))
      | none => m) none)).foldl max 0
    let s := (s.set Reg.CHN_STAT_NDEV here.length).set Reg.CHN_STAT_DIAM diam
    let s := p.2.foldl (fun (t : State) u => (t.record 0x0802 0xFF u.toNat).treeDown u 0 2 (.route u 0xFF [])) s
    .next s.sendRoutes.commitIfReady

/-- A ROUTE for device `uid` arrives on link l: its ID (0xFF none) and table (R400, R401, R403). One for another device CELL_FORWARD sends on.
DEDUCED, log entry 20. -/
def execRoute (l : Fin 4) (uid : BitVec 64) (id : BitVec 8) (t : List (BitVec 8)) (s : State) : Host.Outcome State Fault Refusal :=
  if id ≠ 0xFF ∧ t.length ≠ 32 then .fault .illFormed
  else if s.linkState l ≠ linkUp ∨ uid ≠ s.uid then .next s
  else if id = 0xFF then
    .next (((s.chnSet chnNoid).set Reg.CHN_STAT_IDV 0).modChain (fun c => { c with route := none }))
  else
    let n := id.toNat % 32
    let s := (((s.takeId n).set Reg.CHN_STAT_ID n).set Reg.CHN_STAT_IDV 1).modChain (fun c => { c with route := some (t.map BitVec.toNat) })
    .next (s.toMgr 1 5 (.ack 2 s.uid))

def execDrainq (s : State) : Host.Outcome State Fault Refusal :=
  if s.isMgr ∨ (s.chnState ≠ chnConfigured ∧ s.chnState ≠ chnQuarantine) then .next s
  else .next (s.modChain (fun c => { c with draining := true, drained := false })).drainAnswer

def execDrainqTimeout (s : State) : Host.Outcome State Fault Refusal :=
  .next (if s.isMgr && s.chain.newRoutes.isSome && (!s.chain.drainWait.isEmpty || s.chain.draining) then s.managerCommit else s)

/-- COMMIT for device `uid` arrives on link l (R403, R415): it switches to the table of its ROUTE; where its table has not changed, so that no
ROUTE came, to the one it has, and resumes injection. -/
def execCommit (l : Fin 4) (uid : BitVec 64) (s : State) : Host.Outcome State Fault Refusal :=
  if s.linkState l ≠ linkUp ∨ uid ≠ s.uid then .next s
  else
    let s := match s.chain.route with
      | some t => s.switchRoutes t
      | none => if s.chnState = chnConfigured ∨ s.chnState = chnQuarantine then s.switchRoutes ((List.range 32).map s.rt) else s
    .next (s.toMgr 1 5 (.ack 3 s.uid))

/-- An acknowledge of operation `op` of device `uid` arrives on link l: the manager takes it (R391, R415). One for another device CELL_FORWARD
sends on. -/
def execAck (l : Fin 4) (op : BitVec 4) (uid : BitVec 64) (s : State) : Host.Outcome State Fault Refusal :=
  if s.linkState l ≠ linkUp then .next s
  else if s.isMgr then
    let id := (s.chain.ids.find? (fun x => x.1 == uid)).map (fun x => x.2)
    let s := s.modChain (fun c => { c with
      routeWait := if op = 2 then c.routeWait.filter (fun u => u != uid) else c.routeWait,
      drainWait := if op = 4 then c.drainWait.filter (fun d => some d != id) else c.drainWait })
    .next s.commitIfReady
  else .next s

/-! ## Forwarding (R390, R405) -/

/-- A combination of KIND, VC and OP that R391 and chapter 13 give. -/
def cellOpOk (c : Cell) : Bool :=
  match c.kind with
  | 0 => c.vc == 0 && c.op == 0
  | 1 => if c.vc = 0 then decide (c.op < 4) else decide (c.op < 3)
  | 2 => c.op == 0 || (if c.vc = 0 then [1, 2, 3, 4, 8, 9, 11, 12, 13, 14].contains c.op else [5, 10, 15].contains c.op)
  | _ => false

/-- The device away from the manager that a tree cell is for (R397); none towards the manager. -/
def downTo (b : Body) : Option (BitVec 64) :=
  match b with
  | .route u _ _ => some u
  | .commit u => some u
  | .ack op u => if op = 1 then some u else none
  | _ => none

/-- A cell for no route or past its hops is dropped; an RD or WR whose CRC is right is answered with status 1 (R405, R410). -/
def State.dropCell (s : State) (c : Cell) (f : Fld) (good : Bool) : State :=
  let s := (s.count f 1).count Reg.CHN_DROP_EV (if isSev c then 1 else 0)
  if good ∧ c.kind = 1 ∧ c.vc = 0 ∧ c.op ≤ 1 ∧ s.rtValid c.src then
    s.inject (cellOf 1 1 c.op c.src s.chnId 1 c.tag (.bytes (pad64 [1])))
  else s

/-- The link on which a tree cell leaves (R397); none where it is for this device or has no way. -/
def State.treeLink (s : State) (c : Cell) : Option Nat :=
  match downTo c.body with
  | some u => if u = s.uid then none else (s.chain.topos.find? (fun t => t.1.uid == u)).map (fun t => t.2)
  | none => if s.isMgr then none else s.parent

/-- Where a cell that has come in leaves: none for one that goes no further or is dropped. -/
def State.cellLink (s : State) (c : Cell) : Option Nat :=
  if 8 ≤ c.hops then none else if c.tree then s.treeLink c else if s.rtValid c.dst then some (s.rtLink c.dst) else none

/-- A header that R391 gives, of a cell for another device, which is not flooded or link-local and may go on (R424, R435, R455). -/
def State.cellPasses (s : State) (c : Cell) : Bool :=
  !(s.on Reg.CHN_STAT_IDV && c.dst == s.chnId && !c.tree) && (if c.kind = 2 then !(List.contains [0, 8, 14, 15] c.op) else s.etOpen)

/-- The header of cell `c` is in on link l; `chk` is how its CRC ends: 0 right, 1 wrong, 2 the stomp code. A stomped or wrong cell
goes on as a stomped one, which the next device discards. A cell that was in flight on a link since lost is discarded (R414). What the cell does
at its destination is the command of its operation. DEDUCED, log entries 23 and 88. -/
def execCellForward (l : Fin 4) (c : Cell) (chk : Fin 3) (s : State) : Host.Outcome State Fault Refusal :=
  if s.linkState l ≠ linkUp then
    .next (if c.kind = 2 ∧ c.op = 0 then s else s.lost [{ src := 4, strike := false, cell := c, stomp := false }])
  else
    let free := fun (t : State) => if credited c then t.freeSlot l c.vc c.hops else t
    let s := if chk = 1 then s.count (Reg.CHN_L_ERR_CRC l) 1 else if chk = 2 then s.count Reg.CHN_DROP_STOMP 1 else s
    if !cellOpOk c then .next (free (s.count Reg.CHN_DROP_HDR 1))
    else if !s.cellPasses c then
      .next (free (if isSev c ∧ (chk ≠ 0 ∨ !(s.on Reg.CHN_STAT_IDV && c.dst == s.chnId)) then s.count Reg.CHN_DROP_EV 1 else s))
    else
      let s := match c.body with
        | .topo t => if c.tree ∧ chk = 0 ∧ !s.isMgr then s.noteTopo l t else s
        | _ => s
      match s.cellLink c with
      | some k =>
        let x := { c with hops := c.hops + 1 }
        .next (s.enqueueQ k { src := l, strike := false, cell := x, stomp := chk != 0 })
      | none =>
        .next (free (if 8 ≤ c.hops then s.dropCell c Reg.CHN_DROP_TTL (chk == 0)
          else if c.tree then s else s.dropCell c Reg.CHN_DROP_NOROUTE (chk == 0)))

/-- A credit of a channel and hop class comes back on link l (R411). -/
def execCreditReturn (l : Fin 4) (vc : Fin 2) (h : Fin 8) (s : State) : Host.Outcome State Fault Refusal :=
  let s := s.modLink l (fun x => { x with credits := x.credits.modify (vc.val * 8 + h.val) (fun n => min 2 (n + 1)) })
  .next (s.flow l)

/-! ## Remote targets (R407, R410) -/

/-- Bytes of a remote access by its size code. -/
def remoteSize (c : Nat) : Nat := match c with
  | 0 => 1
  | 1 => 2
  | 2 => 4
  | _ => 16

/-- Does a slot in one of the states with this PID own the partition at a Hoard offset, or is it shared (kind 7)? -/
def State.pidIn (s : State) (ok : Nat → Bool) (pid o : Nat) : Bool :=
  match s.partKind o with
  | some 7 => true
  | some k => decide (4 ≤ k) && ok (k - 4) && s.get (Reg.PRS_ID_PID (k - 4)) == pid
  | none => false

/-- A RUNNING slot with this PID, or kind 7 (R431). -/
def State.pidReaches (s : State) (pid o : Nat) : Bool := s.pidIn (fun n => s.slotState n == slotRunning) pid o

/-- A slot that holds a personality, which is an admitted one, with this PID, or kind 7 (R407). DEDUCED, log entry 90. -/
def State.pidHolds (s : State) (pid o : Nat) : Bool := s.pidIn (fun n => (s.slot n).admitted) pid o

/-- The destination's access of an RD or WR: status and data (R407). -/
def State.remoteAccess (s : State) (pid o n : Nat) (w : Option (List Byte)) : Nat × List Byte × State :=
  let addr := Memory.hoard (o % 0x1000000)
  if (s.partKind (o % 0x1000000)).isSome && !s.pidHolds pid (o % 0x1000000) && s.secOk 25 (o % 0x1000000) then
    (1, [], s.recordAccess codeAddress 25 addr w.isSome)
  else
    let p := match w with
      | none => s.hoardRead 25 o n
      | some b => s.hoardWrite 25 o b
    match p.1 with
    | .ok b => (0, b, p.2)
    | .denied _ => (1, [], p.2)
    | .uncorrectable => (2, [], p.2)

/-- An RD from device src arrives. -/
def execEtRd (src : Fin 32) (tag : BitVec 8) (b : List Byte) (s : State) : Host.Outcome State Fault Refusal :=
  if b.length ≠ 64 then .fault .illFormed
  else if !s.etOpen then .next s
  else
    let p := s.remoteAccess (byteAt b 5) (leAt b 0 4) (remoteSize (byteAt b 4)) none
    .next (p.2.2.sendEt 1 0 src tag.toNat ([BitVec.ofNat 8 p.1, 0, 0, 0, 0, 0, 0, 0] ++ p.2.1))

/-- A WR from device src arrives. -/
def execEtWr (src : Fin 32) (tag : BitVec 8) (b : List Byte) (s : State) : Host.Outcome State Fault Refusal :=
  if b.length ≠ 64 then .fault .illFormed
  else if !s.etOpen then .next s
  else
    let n := remoteSize (byteAt b 4)
    let p := s.remoteAccess (byteAt b 5) (leAt b 0 4) n (some ((b.drop 8).take n))
    .next (p.2.2.sendEt 1 1 src tag.toNat [BitVec.ofNat 8 p.1])

/-- A SEV cell of a personality with this PID has arrived and checked (R410). -/
def execSevCell (mask : BitVec 16) (line : Fin 4) (pid : BitVec 8) (s : State) : Host.Outcome State Fault Refusal :=
  let hit := (List.range 16).filter (fun e => mask.getLsbD e && decide (s.engOwner e < 3)
    && s.get (Reg.PRS_ID_PID (s.engOwner e)) == pid.toNat)
  if !s.etOpen || hit.isEmpty then .next (s.count Reg.CHN_DROP_EV 1)
  else .next (hit.foldl (fun t e => t.register e (bit64 (34 + line.val))) s)

end Sys2Proof.Machine
end

