-- ==== Sys2Proof/Machine/ChainSched.lean ====
section
/-!
DEFINITION. The commands of the Chain schedule (13): TT slots, SYNC cells, link delay, the voted mode switch, RUN cells.
-/

namespace Sys2Proof.Machine

/-! ## TT slots (R430, R431) -/

/-- 1.0 us before slot i of the active table, when this device is its source: the source line is read. -/
def execTtSlineRead (i : Fin 512) (s : State) : Host.Outcome State Fault Refusal :=
  match s.activeSlots[i.val]? with
  | none => .next s
  | some t =>
    if t.src ≠ s.chnId ∨ !s.on Reg.CHN_STAT_IDV then .next s
    else
      let p := s.hoardRead 25 (t.sline * 64) 64
      match p.1 with
      | .ok b => .next (p.2.modChain (fun c => { c with ttData := (i.val, b.take t.plen) :: c.ttData.filter (fun x => x.1 != i.val) }))
      | _ => .next p.2

/-- Does a RUNNING slot with this PID own the line (R28, R241)? -/
def State.pidOwns (s : State) (pid o : Nat) : Bool :=
  match s.partKind o with
  | some k => decide (4 ≤ k ∧ k < 7) && s.slotState (k - 4) == slotRunning && s.get (Reg.PRS_ID_PID (k - 4)) == pid
  | none => false

/-- Slot i starts: this device sends its TT cell when every condition holds (R430); one that left INTEGRATED sends until the next tick
start (R449). The cell goes at once, or when the link, which trains, is UP (R33). DEDUCED, log entry 90. -/
def execTtSlot (i : Fin 512) (s : State) : Host.Outcome State Fault Refusal :=
  match s.activeSlots[i.val]? with
  | none => .next s
  | some t =>
    match s.chain.ttData.find? (fun x => x.1 == i.val) with
    | none => .next s
    | some d =>
      let s := s.modChain (fun c => { c with ttData := c.ttData.filter (fun x => x.1 != i.val) })
      if t.src = s.chnId ∧ s.pidOwns t.pid (t.sline * 64) ∧ (s.integ ∨ s.chain.ttTail) ∧ s.etOpen ∧ s.rtValid t.dst then
        .next (s.enqueueQ (s.rtLink t.dst) (ownCell t.strike none (cellOf 0 0 0 t.dst s.chnId t.plen 0 (.bytes (pad64 d.2)))))
      else .next s

/-- The slot that a cell of slot i belongs to, with its start: slot i of this tick; before that slot's start, slot i of the tick
before, by the table that was visible then. DESIGN CHOICE, log entry 66. -/
def State.ttAt (s : State) (i : Nat) : Option (TtSlot × Nat) :=
  let here := s.activeSlots[i]?.map (fun t => (t, s.hearth.nominal + t.offset))
  let before := s.chain.prevTick.bind (fun x => (ttSlots x.2)[i]?.map (fun t => (t, x.1 + t.offset)))
  match here with
  | some (t, b) => if b ≤ s.now ∨ before.isNone then some (t, b) else before
  | none => before

/-- Past its bound while every condition holds, and has held since the slot's start at `start`, a Strike cell is a miss (R76, R79, R83). -/
def State.ttMiss (s : State) (l : Nat) (t : TtSlot) (start : Nat) : State :=
  let bound := start + 600 * s.rtHops t.src
  if t.strike && decide (bound < s.now) && s.strikeHeld (8 + l) && (s.strikeFail (8 + l)).isNone
      && decide ((s.linkD l).heldAt ≤ start) then
    (s.record 0x0104 (8 + l) ((s.now - bound) * 2 ^ 32)).count (Reg.CHN_L_MISS_COUNT l) 1
  else s

/-- The cell of slot i, addressed to this device, has arrived on link l and checked (R431). -/
def execTtCell (l : Fin 4) (i : Fin 512) (b : List Byte) (s : State) : Host.Outcome State Fault Refusal :=
  if b.length ≠ 64 then .fault .illFormed
  else match s.ttAt i.val with
  | none => .next s
  | some (t, start) =>
    if t.dst ≠ s.chnId ∨ !s.etOpen then .next s
    else
      let s := s.ttMiss l t start
      let slotOk := s.pidReaches t.pid (t.dline * 64)
      let engOk := t.deng == 0xFF || (decide (t.deng < 16) && decide (s.engOwner t.deng < 3)
        && s.slotState (s.engOwner t.deng) == slotRunning && s.get (Reg.PRS_ID_PID (s.engOwner t.deng)) == t.pid)
      if !slotOk || !engOk then .next (s.count Reg.CHN_TTSTAT_DROP 1)
      else
        let p := s.hoardWrite 25 (t.dline * 64) (b.take t.plen)
        .next (if t.deng = 0xFF then p.2 else p.2.register t.deng (bit64 62))

/-! ## SYNC (R434, R435, R439) -/

/-- The SYNC payload of slot j (13, SYNC payload). -/
def State.syncBytes (s : State) (j : Nat) : List Byte :=
  let v := s.get Reg.CHN_MSTAT_PEND + (if s.on Reg.CHN_MSTAT_PV then 128 else 0)
  leBytes 8 (s.word64 Reg.HRT_TSTART_LO Reg.HRT_TSTART_HI).toNat ++ leBytes 8 s.tick
    ++ [BitVec.ofNat 8 s.activeMode, BitVec.ofNat 8 v, BitVec.ofNat 8 (s.get Reg.CHN_MSTAT_PNUM),
      BitVec.ofNat 8 ((if s.integ then 1 else 0) + (if s.chnRunning then 2 else 0))]
    ++ wordBytes (s.word Reg.HRT_PERIOD) ++ leBytes 8 s.activeHash.toNat ++ leBytes 8 0 ++ leBytes 8 s.cfgHash.toNat
    ++ wordBytes (s.word Reg.CHN_VER) ++ [BitVec.ofNat 8 j] ++ List.replicate 11 0

/-- The operational word of sync slot j, when the slot is in use. -/
def State.fixs (s : State) (j : Nat) : Option W32 :=
  let w := s.chain.fixs.getD j 0
  if j = 0 ∨ w.getLsbD 31 then some w else none

/-- Is this device the sender of sync slot j? -/
def State.ownSync (s : State) (j : Nat) (w : W32) : Bool := if j = 0 then s.isMgr else fieldGet w 23 5 == s.chnId

/-- Sync slot j is at its offset: its sender sends; the manager slot 0 always, another device when it is INTEGRATED and not quarantined
(R426, R434). -/
def execSyncSlot (j : Fin 8) (s : State) : Host.Outcome State Fault Refusal :=
  match s.fixs j with
  | none => .next s
  | some w =>
    if s.ownSync j w && (s.chnState == chnConfigured || (j == 0 && s.chnState == chnQuarantine)) && (j == 0 || s.integ) && s.running then
      .next (s.each 4 (fun l t => if t.linkState l = linkUp then
        t.send (.cell l (cellOf 2 0 8 0 t.chnId 64 0 (.bytes (s.syncBytes j))) false) else t))
    else .next s

/-- The tick comparison of R437 and R42: a TP that differs from the manager's returns RUN to 0 with code 8. -/
def State.mgrTpCheck (s : State) (tp : Nat) : State :=
  let s := s.modChain (fun c => { c with mgrTp := some tp })
  if s.get Reg.HRT_CTRL_SRC = 3 ∧ s.hearth.armed ∧ tp ≠ s.get Reg.HRT_PERIOD_PERIOD ∧ !s.isMgr then
    { ((s.set Reg.HRT_CTRL_RUN 0).set Reg.HRT_STAT_CFGERR 1).set Reg.HRT_STAT_CFGCODE 8 with hearth := { s.hearth with armed := false } }
  else s

/-- What a CONFIGURED or quarantined device takes from a slot-0 SYNC (R437, R438, R453, R455, R456): tick number n, TSTART T,
deviation d in 1/16 ns. -/
def State.slot0 (s : State) (b : List Byte) (n T : Nat) (d : Int) : State :=
  let agree := leAt b 40 8 == s.cfgHash.toNat && leAt b 48 4 == s.get Reg.CHN_VER_VER
  let first := !s.chain.firstStep && s.hearth.armed && s.get Reg.HRT_CTRL_SRC == 3
  let s := s.mgrTpCheck (leAt b 20 4)
  let s := if !agree then s.quarantine
    else if s.on Reg.CHN_SSTAT_QUAR then
      let s := s.modChain (fun c => { c with matchCnt := c.matchCnt + 1 })
      if 16 ≤ s.chain.matchCnt then ((s.set Reg.CHN_SSTAT_QUAR 0).chnSet chnConfigured).listen else s
    else s
  let s := s.modChain (fun c => { c with sync0 := some (n, T) })
  let s := if first then
      let s := s.modChain (fun c => { c with firstStep := true })
      if s.on Reg.CHN_SCFG_STEER && decide (s.prec < d.natAbs) then s.stepRequest (BitVec.ofInt 64 (-(roundNs d))) else s
    else s
  let s := if byteAt b 17 / 128 = 1 then s.holdCommit (byteAt b 17 % 8) else s
  let differs := byteAt b 16 % 8 != s.activeMode || leAt b 24 8 != s.activeHash.toNat
  if differs && !s.isMgr then s.withdraw else s

/-- A SYNC arrives on link l; `way` gives its source, its hops and its residence here (R435, R439, R457). This device's own
slot gives no deviation. DEDUCED, log entries 24 and 90. -/
def execSync (l : Fin 4) (way : SyncHop) (b : List Byte) (s : State) : Host.Outcome State Fault Refusal :=
  if b.length ≠ 64 then .fault .illFormed
  else
    let j := byteAt b 52
    let n := leAt b 8 8
    if 8 ≤ j ∨ s.linkState l ≠ linkUp ∨ s.chain.seen.contains (j, n) then .next s
    else
      let s := s.modChain (fun c => { c with seen := (j, n) :: c.seen })
      let din := s.get (Reg.CHN_L_DLY_DLY l)
      let corr := (BitVec.ofNat 64 (leAt b 32 8)).toInt
      let out := BitVec.ofInt 64 (corr + din * 2 ^ 12 + way.res.toInt)
      let fwd := b.take 32 ++ leBytes 8 out.toNat ++ b.drop 40
      let s := s.each 4 (fun i t => if t.linkState i = linkUp ∧ i ≠ l.val ∧ s.chnState ≠ chnQuarantine then
        t.send (.cell i { (cellOf 2 0 8 0 way.src 64 0 (.bytes fwd)) with hops := way.hops + 1 } false) else t)
      match s.fixs j with
      | none => .next s
      | some w =>
        if (s.chnState ≠ chnConfigured ∧ s.chnState ≠ chnQuarantine) ∨ s.ownSync j w then .next s
        else
          let T := leAt b 0 8
          let Tn : Int := if s.running then s.hearth.nominal + ((n : Int) - s.tick) * s.tp else T
          let d := ((s.tb.toNat : Int) - (Tn + fieldGet w 0 23 * 10) * 2 ^ 28 - corr * 2 ^ 12 - din * 2 ^ 24) / 2 ^ 24
          let s := (s.set (Reg.CHN_SDEV_DEV j) (BitVec.ofInt 24 d).toNat).set (Reg.CHN_SDEV_V j) 1
          let s := if !s.running then s
            else if n < s.tick ∨ (n = s.tick ∧ s.phase = 3) then s.count Reg.CHN_TTSTAT_SLATE 1
            else
              let s := if w.getLsbD 28 && byteAt b 19 % 2 == 1 then s.modChain (fun c => { c with vals := c.vals ++ [(j, n, d)] }) else s
              if j = 0 then s.modChain (fun c => { c with val0 := c.val0.filter (fun v => v.1 != n) ++ [(n, d)] }) else s
          .next (if j = 0 then s.slot0 b n T d else s)

/-! ## Link delay (R436) -/

/-- A DLYREQ waits for its output like any MGMT cell (R411, R432); t1 is the time at which it leaves. -/
def execDelayMeasure (l : Fin 4) (s : State) : Host.Outcome State Fault Refusal :=
  if s.linkState l ≠ linkUp then .next s
  else .next (s.enqueueQ l (ownCell false none (cellOf 2 0 14 0 s.chnId 64 0 (.dly s.tb 0 0))))

/-- A DLYREQ sent at t1 arrives: its DLYRSP carries t1, this time t2, and the time t3 at which it leaves. -/
def execDlyreq (l : Fin 4) (t1 : BitVec 92) (s : State) : Host.Outcome State Fault Refusal :=
  if s.linkState l ≠ linkUp then .next s
  else .next (s.enqueueQ l (ownCell false none (cellOf 2 1 15 0 s.chnId 64 0 (.dly t1 s.tb s.tb))))

/-- DLY takes ((t4 - t1) - (t3 - t2)) / 2 in 1/16 ns. -/
def execDlyrsp (l : Fin 4) (t1 t2 t3 : BitVec 92) (s : State) : Host.Outcome State Fault Refusal :=
  if s.linkState l ≠ linkUp ∨ (s.linkD l).dly ≠ some t1.toNat then .next s
  else
    let d : Int := ((s.tb.toNat : Int) - t1.toNat - (t3.toNat - t2.toNat)) / 2 / 2 ^ 24
    .next ((s.modLink l (fun x => { x with dly := none })).set (Reg.CHN_L_DLY_DLY l) (min 0xFFFF d.toNat))

/-! ## Modes (R450 to R453) -/

/-- The CHN_MODE descriptor at the head of ring n's work (R450, R454). -/
def execChnMode (n : Fin 64) (s : State) : Host.Outcome State Fault Refusal :=
  match s.ready n 0x2A with
  | none => .next s
  | some d =>
    if !s.chnRunning then .next ((s.record 0x0205 0xFF 0).endWithEntry n (fun e => e.is d.idx d.gen) statusFail)
    else if s.mayPropose then
      .next ((s.start n d).propose (d.target % 8) (some { ring := n, idx := d.idx, gen := d.gen, tag := d.tag }))
    else .next s

/-- CHN_MCTL is written. DEDUCED, log entry 24. -/
def State.writeMctl (s : State) (v : W32) : State :=
  let s := s.set Reg.CHN_MCTL_MODE (fieldGet v 0 3)
  if fieldGet v 3 1 = 1 ∧ s.mayPropose then s.propose (fieldGet v 0 3) none else s

def execModeGo (w : Who) (v : BitVec 32) (s : State) : Host.Outcome State Fault Refusal :=
  .next (s.owned w Reg.CHN_MCTL (fun s => s.writeMctl v))

/-- A PROPOSE arrives: this device answers with its VOTE (R451). DEDUCED, log entry 20. -/
def execPropose (m : Fin 8) (h : BitVec 64) (pnum : BitVec 8) (s : State) : Host.Outcome State Fault Refusal :=
  if s.isMgr || !s.on Reg.CHN_STAT_IDV then .next s
  else
    let w := s.voteReason m h
    .next ((s.modChain (fun c => { c with voted := if w = 0 then some (s.tick + 2) else c.voted })).sendMgmt 1 10 0 (.vote pnum.toNat w))

/-- A VOTE of device src arrives: reason 0 is READY (R452, R458). -/
def execVote (src : Fin 32) (pnum : BitVec 8) (why : Fin 8) (s : State) : Host.Outcome State Fault Refusal :=
  match s.chain.proposal with
  | none => .next s
  | some p =>
    if !s.isMgr || !p.sent || s.get Reg.CHN_MSTAT_PNUM != pnum.toNat then .next s
    else
      let q : Proposal := if why = 0 then { p with ready := src.val :: p.ready.filter (fun i => i != src.val) }
        else { p with no := match p.no with
          | some x => some x
          | none => some (src.val, why.val) }
      .next (s.modChain (fun c => { c with proposal := some q }))

/-- An MCOMMIT arrives: every device with an ID holds the commit, a quarantined one too (R453). -/
def execMcommit (m : Fin 8) (pnum : BitVec 8) (s : State) : Host.Outcome State Fault Refusal :=
  if s.isMgr || !s.on Reg.CHN_STAT_IDV then .next s
  else .next ((s.set Reg.CHN_MSTAT_PNUM pnum.toNat).holdCommit m)

/-- A MABORT arrives: what was held for the proposal is dropped. -/
def execMabort (_pnum : BitVec 8) (s : State) : Host.Outcome State Fault Refusal :=
  if s.isMgr then .next s
  else .next ((s.set Reg.CHN_MSTAT_PV 0).modChain (fun c => { c with commit := none }))

/-! ## RUN cells (R425, R642) -/

/-- A RUN cell's content is held for its target tick (1 START, 2 STOP, 3 CRESET), beside those held for other ticks. -/
def State.holdRun (s : State) (cmd target : Nat) : State :=
  s.modChain (fun c => { c with run := c.run ++ [{ cmd := cmd, target := target }] })

/-- A RUN cell arrives: command 0 START, 1 STOP, 2 CRESET (R425, R437, R455, R642). DEDUCED, log entry 20. -/
def execRun (cmd : Fin 3) (target : BitVec 64) (h : BitVec 64) (ver tp mask : BitVec 32) (s : State) :
    Host.Outcome State Fault Refusal :=
  if s.isMgr || !s.on Reg.CHN_STAT_IDV then .next s
  else if h ≠ s.cfgHash ∨ ver.toNat ≠ s.get Reg.CHN_VER_VER then .next (s.mgrTpCheck tp.toNat).quarantine
  else
    let s := s.mgrTpCheck tp.toNat
    if cmd = 2 ∧ !mask.getLsbD s.chnId then .next s else .next (s.holdRun (cmd.val + 1) target.toNat)

/-- The manager sends a RUN cell for tick k + 2 to every device with an ID. -/
def State.sendRun (s : State) (cmd : Nat) (mask : W32) : State :=
  let t := s.tick + 2
  let s := s.toAll 13 (.run cmd t s.cfgHash (s.word Reg.CHN_VER) (s.word Reg.HRT_PERIOD) mask)
  if cmd = 3 ∧ !mask.getLsbD s.chnId then s else s.holdRun cmd t

/-- CHN_RUNCTL is written: START and STOP act on the manager only (R425). -/
def State.writeRunctl (s : State) (v : W32) : State :=
  if !s.isMgr || s.chnState != chnConfigured then s
  else if fieldGet v 1 1 = 1 then s.sendRun 2 0
  else if fieldGet v 0 1 = 1 then s.sendRun 1 0
  else s

def execChainStart (w : Who) (s : State) : Host.Outcome State Fault Refusal :=
  .next (s.owned w Reg.CHN_RUNCTL (fun s => s.writeRunctl 1))

def execChainStop (w : Who) (s : State) : Host.Outcome State Fault Refusal :=
  .next (s.owned w Reg.CHN_RUNCTL (fun s => s.writeRunctl 2))

/-- CHAIN reset (R642): the Chain state and the CHN registers return to reset but CHN_CFG and CHN_Ln_CFG; links retrain; the mode
tables stay held, and M0's is visible. Requests that await an answer end by their timeouts (R408, R423, R686). -/
def State.chainReset (s : State) : State :=
  let s := s.abortProposal none
  let cfg := s.word Reg.CHN_CFG
  let en := (List.range 4).map (fun l => s.word (Reg.CHN_L_CFG l))
  let ver := s.word Reg.CHN_VER
  let strap := s.word Reg.CHN_PRIO
  let c := s.chain
  let tables := s.chain.tables
  let vis := s.table 0
  let s := s.resetRegs 0x8000 0x9000
  let s := ((s.setWord Reg.CHN_CFG cfg).setWord Reg.CHN_VER ver).setWord Reg.CHN_PRIO strap
  let s := s.each 4 (fun l t => t.setWord (Reg.CHN_L_CFG l) (en.getD l 1))
  let s := { s with chain := { Chain.zero with tables := tables, vis := vis, tags := c.tags, nextTag := c.nextTag, mtags := c.mtags, mwait := c.mwait } }
  s.chainEnables.checkVoids

/-- CHAIN_RESET: the start of the target tick of a CRESET has come (R642). -/
def execChainReset (s : State) : Host.Outcome State Fault Refusal :=
  .next (if s.chain.run.any (fun r => r.cmd == 3 && decide (r.target ≤ s.tick)) then (s.noteReset 8).chainReset else s)

/-- One RUN command takes effect: START adopts the administrative fields and runs the Chain in M0, STOP stops it (R425). -/
def State.runCmd (s : State) (r : RunCmd) : State :=
  if r.cmd = 1 then ((s.adoptConfig.set Reg.CHN_RUNCTL_RUN 1).becomeMode 0).pumpAll.checkVoids else s.chainStop.checkVoids

/-- The RUN commands whose target tick has come, in order, CRESET excepted. -/
def State.runDue (s : State) : State :=
  let due := fun (r : RunCmd) => decide (r.target ≤ s.tick) && r.cmd != 3
  (s.chain.run.filter due).foldl State.runCmd (s.modChain (fun c => { c with run := c.run.filter (fun r => !due r) }))

/-- The Chain's part of a tick start: RUN targets, CRESET excepted, switches, votes, the new value set (R22, R425, R452, R453). -/
def State.chainTick (s : State) : State :=
  let s := s.newSyncTick.runDue.modeSwitch.voteCheck
  s.modChain (fun c => { c with prevTick := c.thisTick, thisTick := some (s.hearth.nominal, c.vis.getD []) })

end Sys2Proof.Machine
end

