-- ==== Sys2Proof/Machine/Flags.lean ====
section
/-!
DEFINITION. The flag computations of the GRG instructions (R199 to R202, R208, R216 to R219): each gives a result and the new
FLG word from the old one.
-/

namespace Sys2Proof.Machine

/-- Replace one bit of a word. -/
def putBit (w : W32) (i : Nat) (b : Bool) : W32 := fieldSet w i 1 (if b then 1 else 0)

def flgZ (f : W32) : Bool := f.getLsbD 0
def flgN (f : W32) : Bool := f.getLsbD 1
def flgC (f : W32) : Bool := f.getLsbD 2
def flgV (f : W32) : Bool := f.getLsbD 3
def flgAZ (f : W32) : Bool := f.getLsbD 4
def flgAN (f : W32) : Bool := f.getLsbD 5

/-- Z and N from a result. -/
def setZN (f r : W32) : W32 := putBit (putBit f 0 (r == 0)) 1 r.msb
def setC (f : W32) (c : Bool) : W32 := putBit f 2 c
def setV (f : W32) (v : Bool) : W32 := putBit f 3 v

/-- AZ and AN of an address compare (R208). -/
def setA (f : W32) (a b : BitVec 16) : W32 := putBit (putBit f 4 (a == b)) 5 (decide (a.toNat < b.toNat))

/-- Does a signed value lie outside 32 bits? -/
def sOver (v : Int) : Bool := decide (v < -2147483648 ∨ 2147483647 < v)

/-- s + t + c with Z N C V. -/
def addF (f s t : W32) (c : Bool) : W32 × W32 :=
  let k := if c then 1 else 0
  let r := s + t + BitVec.ofNat 32 k
  (r, setV (setC (setZN f r) (decide (2 ^ 32 ≤ s.toNat + t.toNat + k))) (sOver (s.toInt + t.toInt + k)))

/-- s − t − 1 + c with Z N C V; C is 1 when no borrow occurs. -/
def subF (f s t : W32) (c : Bool) : W32 × W32 :=
  let k := if c then 0 else 1
  let r := s - t - BitVec.ofNat 32 k
  (r, setV (setC (setZN f r) (decide (t.toNat + k ≤ s.toNat))) (sOver (s.toInt - t.toInt - k)))

/-- A result with Z and N only. -/
def znF (f r : W32) : W32 × W32 := (r, setZN f r)

/-- The four kinds of shift. -/
inductive Shift where
  | shl | shr | sar | ror
deriving DecidableEq, Repr

/-- A shift by n with Z N C (R201). -/
def shiftF (k : Shift) (f s : W32) (n : Nat) : W32 × W32 :=
  if n = 0 then (s, setC (setZN f s) false)
  else
    let p : W32 × Bool := match k with
      | .shl => if n < 32 then (s <<< n, s.getLsbD (32 - n)) else (0, false)
      | .shr => if n < 32 then (s >>> n, s.getLsbD (n - 1)) else (0, false)
      | .sar => if n < 32 then (s.sshiftRight n, s.getLsbD (n - 1)) else (s.sshiftRight 31, s.msb)
      | .ror => let r := s.rotateRight (n % 32); (r, r.msb)
    (p.1, setC (setZN f p.1) p.2)

/-- Leading zeros of a word, 0 to 32. -/
def clz (s : W32) : Nat := 32 - (if s = 0 then 0 else Nat.log2 s.toNat + 1)

/-- DIVU (R202): C = 0. -/
def divuF (f s t : W32) : W32 × W32 :=
  let r : W32 := if t = 0 then 0xFFFFFFFF else BitVec.ofNat 32 (s.toNat / t.toNat)
  (r, setV (setC (setZN f r) false) (t == 0))

/-- DIVS (R202): truncated toward 0; C = 0. -/
def divsF (f s t : W32) : W32 × W32 :=
  let ovf := s == 0x80000000 && t == 0xFFFFFFFF
  let r : W32 :=
    if t = 0 then (if s.msb then 0x80000000 else 0x7FFFFFFF)
    else if ovf then 0x7FFFFFFF
    else BitVec.ofInt 32 (Int.tdiv s.toInt t.toInt)
  (r, setV (setC (setZN f r) false) (t == 0 || ovf))

/-- ABS (R202): Z N V. -/
def absF (f s : W32) : W32 × W32 :=
  let r : W32 := if s = 0x80000000 then 0x7FFFFFFF else if s.msb then 0 - s else s
  (r, setV (setZN f r) (s == 0x80000000))

/-- The rounded value of an accumulator shifted by sh (R216). -/
def roundAcc (m : BitVec 72) (sh : Nat) : Int := if sh = 0 then m.toInt else (m.toInt + 2 ^ (sh - 1)) / 2 ^ sh

/-- RND (R216): the nearer limit with V and SAT when the value does not fit; C unchanged. -/
def rndF (f : W32) (m : BitVec 72) (sh : Nat) : W32 × W32 :=
  let v := roundAcc m sh
  let r := BitVec.ofInt 32 (max (-2147483648) (min 2147483647 v))
  let g := setV (setZN f r) (sOver v)
  (r, if sOver v then putBit g 6 true else g)

/-- A LUTI result (R218, R219): V cleared, C when past the end. -/
def lutF (f r : W32) (c : Bool) : W32 × W32 := (r, setV (setC (setZN f r) c) false)

/-- The condition of B (R209); 14 always, 15 is no condition. -/
def condB (f : W32) (cond : Nat) : Option Bool :=
  match cond with
  | 0 => some (flgZ f)
  | 1 => some (!flgZ f)
  | 2 => some (flgC f)
  | 3 => some (!flgC f)
  | 4 => some (flgN f)
  | 5 => some (!flgN f)
  | 6 => some (flgV f)
  | 7 => some (!flgV f)
  | 8 => some (flgC f && !flgZ f)
  | 9 => some (!flgC f || flgZ f)
  | 10 => some (flgN f == flgV f)
  | 11 => some (flgN f != flgV f)
  | 12 => some (!flgZ f && flgN f == flgV f)
  | 13 => some (flgZ f || flgN f != flgV f)
  | 14 => some true
  | _ => none

/-- The condition of BA (R209). -/
def condBA (f : W32) (cond : Nat) : Bool :=
  match cond with
  | 0 => flgAZ f
  | 1 => !flgAZ f
  | 2 => flgAN f
  | _ => !flgAN f

end Sys2Proof.Machine
end

