-- ==== Sys2Proof/Machine/Operands.lean ====
section
/-!
DEFINITION. The operand forms of the GRG instructions (R161 to R168, R200, R205, R209): registers, immediates, banked and
circular addresses, loop levels, branch targets and the return stack.
-/

namespace Sys2Proof.Machine

/-! ## Registers of a context -/

def Ctx.D (c : Ctx) (i : Nat) : W32 := c.d.getD i 0
def Ctx.A (c : Ctx) (i : Nat) : BitVec 16 := c.a.getD i 0
def Ctx.BNK (c : Ctx) (i : Nat) : BitVec 16 := c.bnk.getD i 0
def Ctx.LEN (c : Ctx) (i : Nat) : BitVec 16 := c.len.getD i 0
def Ctx.M (c : Ctx) (i : Nat) : BitVec 72 := c.m.getD i 0
def Ctx.setD (c : Ctx) (i : Nat) (v : W32) : Ctx := { c with d := c.d.setIfInBounds i v }
def Ctx.setA (c : Ctx) (i : Nat) (v : BitVec 16) : Ctx := { c with a := c.a.setIfInBounds i v }
def Ctx.setM (c : Ctx) (i : Nat) (v : BitVec 72) : Ctx := { c with m := c.m.setIfInBounds i v }

/-- A 64-bit operand in Ds and D((s + 1) mod 16), low word first (R220, R223). -/
def Ctx.pair (c : Ctx) (s : Nat) : BitVec 64 := c.D ((s + 1) % 16) ++ c.D s

/-- A 64-bit result into Dd and D((d + 1) mod 16), low word first (R225). -/
def Ctx.setPair (c : Ctx) (d : Nat) (v : BitVec 64) : Ctx := (c.setD d (v.setWidth 32)).setD ((d + 1) % 16) ((v >>> 32).setWidth 32)

/-! ## Immediates (R200) -/

def immS (i : BitVec 18) : W32 := i.signExtend 32
def immZ (i : BitVec 18) : W32 := i.setWidth 32

/-! ## Addresses (R161 to R163) -/

/-- The address of an access through An. -/
def Ctx.addr (c : Ctx) (n : Nat) (a : BitVec 16) : W32 := c.BNK (n / 2) ++ a

/-- The smallest power of two at or above L. -/
def pow2At (l : Nat) : Nat := 2 ^ (if l ≤ 1 then 0 else Nat.log2 (l - 1) + 1)

/-- An after a post-modify or an addition of `step` (R162). -/
def circular (an len : BitVec 16) (step : Int) : BitVec 16 :=
  if len = 0 then BitVec.ofInt 16 ((an.toNat : Int) + step)
  else
    let b := an.toNat / pow2At len.toNat * pow2At len.toNat
    BitVec.ofNat 16 (b + (((an.toNat : Int) - b + step) % (len.toNat : Int)).toNat)

def Ctx.bump (c : Ctx) (n : Nat) (step : Int) : Ctx := c.setA n (circular (c.A n) (c.LEN n) step)

/-- The address of an LD or ST (R205). -/
def Ctx.ea (c : Ctx) (n : Nat) (pm : Bool) (disp : BitVec 15) : W32 :=
  c.addr n (if pm then c.A n else c.A n + disp.signExtend 16)

/-! ## Loops, branches and the return stack (R164 to R168, R209 to R213) -/

def LoopLevel.holds (l : LoopLevel) (t : W32) : Bool := decide (l.ls.toNat ≤ t.toNat ∧ t.toNat ≤ l.le.toNat)

/-- A taken branch to `t` closes each level whose body does not hold it, and every level inside (R166). -/
def closeFor (t : W32) : List LoopLevel → List LoopLevel
  | [] => []
  | l :: r =>
    let k := closeFor t r
    if k.length < r.length then k else if l.holds t then l :: r else r

/-- Is `pc` the innermost level's end address? -/
def Ctx.atEnd (c : Ctx) : Bool :=
  match c.loops with
  | [] => false
  | l :: _ => l.le == c.pc

/-- A target `off` words from `pc`. -/
def target (pc : W32) (off : Int) : W32 := pc + BitVec.ofInt 32 (4 * off)

def Ctx.jump (c : Ctx) (t : W32) : Ctx := { c with loops := closeFor t c.loops, pc := t }

/-- Push the address of the next instruction; the oldest of sixteen entries is overwritten (R167). -/
def Ctx.push (c : Ctx) : Ctx := { c with rstk := (((c.pc + 4).setWidth 18) :: c.rstk).take 16 }

/-! ## Issue and completion -/

/-- Can the engine issue an instruction: a task is current, nothing stalls it, it is not halted. -/
def State.issues (s : State) (e : Nat) : Bool :=
  match (s.engN e).cur with
  | none => false
  | some r => decide (r.stall = .none) && !(s.engN e).halted

/-- Count an error of an engine memory word (R155). -/
def State.engCorr (s : State) (e k : Nat) : State :=
  if s.eccOne.contains k then { s with eccOne := s.eccOne.filter (fun x => x != k) }.count (Reg.ENG_ECC_CORR e) 1 else s

/-- The trap that the current task has raised and not taken yet (R153, R261). -/
def Eng.raised (g : Eng) : Option Nat := g.cur.bind (fun (r : Run) => r.trap)

/-- The trap before the instruction at PC: one raised meanwhile, or that of the fetch (R155, R197). -/
def State.fetchTrap (s : State) (e : Nat) : Option Nat :=
  let pc := (s.ctxOf e).pc.toNat
  if (s.engN e).raised.isSome then (s.engN e).raised
  else if 0x20000 ≤ pc then some causeIllegal
  else if s.eccUnc.contains (Memory.engine e pc) then some causeImemEcc
  else none

/-- The current task of engine `e` issues an instruction with this effect. -/
def State.issueForced (s : State) (e : Nat) (f : State → Run → Ctx → State) : State :=
  match (s.engN e).cur with
  | none => s
  | some r =>
    match s.fetchTrap e with
    | some c => (if c = causeImemEcc then s.count (Reg.ENG_ECC_UNC e) 1 else s).trap e c
    | none => f (s.engCorr e (Memory.engine e (s.ctxOf e).pc.toNat)) r (s.ctxOf e)

/-- The effect of an instruction on the current task: the context it leaves; the activation has issued an instruction. -/
def State.put (s : State) (e : Nat) (c : Ctx) : State :=
  match (s.engN e).cur with
  | none => s
  | some r => (s.modCtx e r.kind (fun _ => c)).modRun e (fun r => { r with first := false, stall := .none, lutGot := [] })

/-- The instruction completes with context `c` (before loop handling). -/
def State.done (s : State) (e : Nat) (c : Ctx) : State := s.put e c.complete

/-- A data operation's result and flags. -/
def State.alu (s : State) (e d : Nat) (c : Ctx) (r : W32 × W32) : State := s.done e { c.setD d r.1 with flg := r.2 }

end Sys2Proof.Machine
end

