-- ==== Sys2Proof/Machine/GrgCore.lean ====
section
/-!
DEFINITION. The GRG instructions that touch no memory and no emit queue (07): what each does to the context of the engine that
issues it. An engine that has no current task, is halted or waits issues nothing.
-/

namespace Sys2Proof.Machine

/-- Engine `e` issues an instruction with this effect, if it can. -/
def State.issueG (s : State) (e : Nat) (f : State → Run → Ctx → State) : State := if s.issues e then s.issueForced e f else s

/-- The effect of an instruction. -/
abbrev Effect := State → Run → Ctx → State


/-- ADD (R200). -/
def iAdd (e d s t : Fin 16) : Effect := fun st _ c => st.alu e d c (addF c.flg (c.D s) (c.D t) false)

/-- ADD, issued by engine e. -/
def execAdd (e d rs t : Fin 16) (s : State) : Host.Outcome State Fault Refusal := .next (s.issueG e (iAdd e d rs t))

/-- ADDC (R200). -/
def iAddc (e d s t : Fin 16) : Effect := fun st _ c => st.alu e d c (addF c.flg (c.D s) (c.D t) (flgC c.flg))

/-- ADDC, issued by engine e. -/
def execAddc (e d rs t : Fin 16) (s : State) : Host.Outcome State Fault Refusal := .next (s.issueG e (iAddc e d rs t))

/-- SUB (R200). -/
def iSub (e d s t : Fin 16) : Effect := fun st _ c => st.alu e d c (subF c.flg (c.D s) (c.D t) true)

/-- SUB, issued by engine e. -/
def execSub (e d rs t : Fin 16) (s : State) : Host.Outcome State Fault Refusal := .next (s.issueG e (iSub e d rs t))

/-- SUBC (R200). -/
def iSubc (e d s t : Fin 16) : Effect := fun st _ c => st.alu e d c (subF c.flg (c.D s) (c.D t) (flgC c.flg))

/-- SUBC, issued by engine e. -/
def execSubc (e d rs t : Fin 16) (s : State) : Host.Outcome State Fault Refusal := .next (s.issueG e (iSubc e d rs t))

/-- AND (R200). -/
def iAndD (e d s t : Fin 16) : Effect := fun st _ c => st.alu e d c (znF c.flg ((c.D s) &&& (c.D t)))

/-- AND, issued by engine e. -/
def execAndD (e d rs t : Fin 16) (s : State) : Host.Outcome State Fault Refusal := .next (s.issueG e (iAndD e d rs t))

/-- OR (R200). -/
def iOrD (e d s t : Fin 16) : Effect := fun st _ c => st.alu e d c (znF c.flg ((c.D s) ||| (c.D t)))

/-- OR, issued by engine e. -/
def execOrD (e d rs t : Fin 16) (s : State) : Host.Outcome State Fault Refusal := .next (s.issueG e (iOrD e d rs t))

/-- XOR (R200). -/
def iXor (e d s t : Fin 16) : Effect := fun st _ c => st.alu e d c (znF c.flg ((c.D s) ^^^ (c.D t)))

/-- XOR, issued by engine e. -/
def execXor (e d rs t : Fin 16) (s : State) : Host.Outcome State Fault Refusal := .next (s.issueG e (iXor e d rs t))

/-- ANDN (R200). -/
def iAndn (e d s t : Fin 16) : Effect := fun st _ c => st.alu e d c (znF c.flg ((c.D s) &&& ~~~ (c.D t)))

/-- ANDN, issued by engine e. -/
def execAndn (e d rs t : Fin 16) (s : State) : Host.Outcome State Fault Refusal := .next (s.issueG e (iAndn e d rs t))

/-- SHL by t[7:0] (R200, R201). -/
def iShl (e d s t : Fin 16) : Effect := fun st _ c => st.alu e d c (shiftF .shl c.flg (c.D s) ((c.D t).toNat % 256))

/-- SHL by t[7:0], issued by engine e. -/
def execShl (e d rs t : Fin 16) (s : State) : Host.Outcome State Fault Refusal := .next (s.issueG e (iShl e d rs t))

/-- SHR by t[7:0] (R200, R201). -/
def iShr (e d s t : Fin 16) : Effect := fun st _ c => st.alu e d c (shiftF .shr c.flg (c.D s) ((c.D t).toNat % 256))

/-- SHR by t[7:0], issued by engine e. -/
def execShr (e d rs t : Fin 16) (s : State) : Host.Outcome State Fault Refusal := .next (s.issueG e (iShr e d rs t))

/-- SAR by t[7:0] (R200, R201). -/
def iSar (e d s t : Fin 16) : Effect := fun st _ c => st.alu e d c (shiftF .sar c.flg (c.D s) ((c.D t).toNat % 256))

/-- SAR by t[7:0], issued by engine e. -/
def execSar (e d rs t : Fin 16) (s : State) : Host.Outcome State Fault Refusal := .next (s.issueG e (iSar e d rs t))

/-- ROR by t[7:0] (R200, R201). -/
def iRor (e d s t : Fin 16) : Effect := fun st _ c => st.alu e d c (shiftF .ror c.flg (c.D s) ((c.D t).toNat % 256))

/-- ROR by t[7:0], issued by engine e. -/
def execRor (e d rs t : Fin 16) (s : State) : Host.Outcome State Fault Refusal := .next (s.issueG e (iRor e d rs t))

/-- CMP (R200). -/
def iCmp (e s t : Fin 16) : Effect := fun st _ c => st.done e { c with flg := (subF c.flg (c.D s) (c.D t) true).2 }

/-- CMP, issued by engine e. -/
def execCmp (e rs t : Fin 16) (s : State) : Host.Outcome State Fault Refusal := .next (s.issueG e (iCmp e rs t))

/-- TST (R200). -/
def iTst (e s t : Fin 16) : Effect := fun st _ c => st.done e { c with flg := setZN c.flg (c.D s &&& c.D t) }

/-- TST, issued by engine e. -/
def execTst (e rs t : Fin 16) (s : State) : Host.Outcome State Fault Refusal := .next (s.issueG e (iTst e rs t))

/-- MOV (R200). -/
def iMov (e d s : Fin 16) : Effect := fun st _ c => st.done e (c.setD d (c.D s))

/-- MOV, issued by engine e. -/
def execMov (e d rs : Fin 16) (s : State) : Host.Outcome State Fault Refusal := .next (s.issueG e (iMov e d rs))

/-- MIN, signed (R200). -/
def iMinS (e d s t : Fin 16) : Effect := fun st _ c => st.alu e d c (znF c.flg (if (c.D s).toInt ≤ (c.D t).toInt then (c.D s) else (c.D t)))

/-- MIN, signed, issued by engine e. -/
def execMinS (e d rs t : Fin 16) (s : State) : Host.Outcome State Fault Refusal := .next (s.issueG e (iMinS e d rs t))

/-- MAX, signed (R200). -/
def iMaxS (e d s t : Fin 16) : Effect := fun st _ c => st.alu e d c (znF c.flg (if (c.D t).toInt ≤ (c.D s).toInt then (c.D s) else (c.D t)))

/-- MAX, signed, issued by engine e. -/
def execMaxS (e d rs t : Fin 16) (s : State) : Host.Outcome State Fault Refusal := .next (s.issueG e (iMaxS e d rs t))

/-- MINU (R200). -/
def iMinu (e d s t : Fin 16) : Effect := fun st _ c => st.alu e d c (znF c.flg (if (c.D s).toNat ≤ (c.D t).toNat then (c.D s) else (c.D t)))

/-- MINU, issued by engine e. -/
def execMinu (e d rs t : Fin 16) (s : State) : Host.Outcome State Fault Refusal := .next (s.issueG e (iMinu e d rs t))

/-- MAXU (R200). -/
def iMaxu (e d s t : Fin 16) : Effect := fun st _ c => st.alu e d c (znF c.flg (if (c.D t).toNat ≤ (c.D s).toNat then (c.D s) else (c.D t)))

/-- MAXU, issued by engine e. -/
def execMaxu (e d rs t : Fin 16) (s : State) : Host.Outcome State Fault Refusal := .next (s.issueG e (iMaxu e d rs t))

/-- CLZ (R200). -/
def iClz (e d s : Fin 16) : Effect := fun st _ c => st.alu e d c (znF c.flg (BitVec.ofNat 32 (Sys2Proof.Machine.clz (c.D s))))

/-- CLZ, issued by engine e. -/
def execClz (e d rs : Fin 16) (s : State) : Host.Outcome State Fault Refusal := .next (s.issueG e (iClz e d rs))

/-- MULL: the low 32 bits of the product (R200). -/
def iMull (e d s t : Fin 16) : Effect := fun st _ c => st.alu e d c (znF c.flg ((c.D s) * (c.D t)))

/-- MULL: the low 32 bits of the product, issued by engine e. -/
def execMull (e d rs t : Fin 16) (s : State) : Host.Outcome State Fault Refusal := .next (s.issueG e (iMull e d rs t))

/-- DIVU (R200, R202). -/
def iDivu (e d s t : Fin 16) : Effect := fun st _ c => st.alu e d c (divuF c.flg (c.D s) (c.D t))

/-- DIVU, issued by engine e. -/
def execDivu (e d rs t : Fin 16) (s : State) : Host.Outcome State Fault Refusal := .next (s.issueG e (iDivu e d rs t))

/-- DIVS (R200, R202). -/
def iDivs (e d s t : Fin 16) : Effect := fun st _ c => st.alu e d c (divsF c.flg (c.D s) (c.D t))

/-- DIVS, issued by engine e. -/
def execDivs (e d rs t : Fin 16) (s : State) : Host.Outcome State Fault Refusal := .next (s.issueG e (iDivs e d rs t))

/-- ABS (R200, R202). -/
def iAbs (e d s : Fin 16) : Effect := fun st _ c => st.alu e d c (absF c.flg (c.D s))

/-- ABS, issued by engine e. -/
def execAbs (e d rs : Fin 16) (s : State) : Host.Outcome State Fault Refusal := .next (s.issueG e (iAbs e d rs))

/-- NEG: 0 − s (R200). -/
def iNeg (e d s : Fin 16) : Effect := fun st _ c => st.alu e d c (subF c.flg 0 (c.D s) true)

/-- NEG: 0 − s, issued by engine e. -/
def execNeg (e d rs : Fin 16) (s : State) : Host.Outcome State Fault Refusal := .next (s.issueG e (iNeg e d rs))

/-- ADDI (R200). -/
def iAddi (e d s : Fin 16) (imm : BitVec 18) : Effect := fun st _ c => st.alu e d c (addF c.flg (c.D s) (immS imm) false)

/-- ADDI, issued by engine e. -/
def execAddi (e d rs : Fin 16) (imm : BitVec 18) (s : State) : Host.Outcome State Fault Refusal := .next (s.issueG e (iAddi e d rs imm))

/-- ANDI (R200). -/
def iAndi (e d s : Fin 16) (imm : BitVec 18) : Effect := fun st _ c => st.alu e d c (znF c.flg ((c.D s) &&& immZ imm))

/-- ANDI, issued by engine e. -/
def execAndi (e d rs : Fin 16) (imm : BitVec 18) (s : State) : Host.Outcome State Fault Refusal := .next (s.issueG e (iAndi e d rs imm))

/-- ORI (R200). -/
def iOri (e d s : Fin 16) (imm : BitVec 18) : Effect := fun st _ c => st.alu e d c (znF c.flg ((c.D s) ||| immZ imm))

/-- ORI, issued by engine e. -/
def execOri (e d rs : Fin 16) (imm : BitVec 18) (s : State) : Host.Outcome State Fault Refusal := .next (s.issueG e (iOri e d rs imm))

/-- XORI (R200). -/
def iXori (e d s : Fin 16) (imm : BitVec 18) : Effect := fun st _ c => st.alu e d c (znF c.flg ((c.D s) ^^^ immZ imm))

/-- XORI, issued by engine e. -/
def execXori (e d rs : Fin 16) (imm : BitVec 18) (s : State) : Host.Outcome State Fault Refusal := .next (s.issueG e (iXori e d rs imm))

/-- CMPI (R200). -/
def iCmpi (e s : Fin 16) (imm : BitVec 18) : Effect := fun st _ c => st.done e { c with flg := (subF c.flg (c.D s) (immS imm) true).2 }

/-- CMPI, issued by engine e. -/
def execCmpi (e rs : Fin 16) (imm : BitVec 18) (s : State) : Host.Outcome State Fault Refusal := .next (s.issueG e (iCmpi e rs imm))

/-- SHLI (R200, R201). -/
def iShli (e d s : Fin 16) (amt : BitVec 5) : Effect := fun st _ c => st.alu e d c (shiftF .shl c.flg (c.D s) amt.toNat)

/-- SHLI, issued by engine e. -/
def execShli (e d rs : Fin 16) (amt : BitVec 5) (s : State) : Host.Outcome State Fault Refusal := .next (s.issueG e (iShli e d rs amt))

/-- SHRI (R200, R201). -/
def iShri (e d s : Fin 16) (amt : BitVec 5) : Effect := fun st _ c => st.alu e d c (shiftF .shr c.flg (c.D s) amt.toNat)

/-- SHRI, issued by engine e. -/
def execShri (e d rs : Fin 16) (amt : BitVec 5) (s : State) : Host.Outcome State Fault Refusal := .next (s.issueG e (iShri e d rs amt))

/-- SARI (R200, R201). -/
def iSari (e d s : Fin 16) (amt : BitVec 5) : Effect := fun st _ c => st.alu e d c (shiftF .sar c.flg (c.D s) amt.toNat)

/-- SARI, issued by engine e. -/
def execSari (e d rs : Fin 16) (amt : BitVec 5) (s : State) : Host.Outcome State Fault Refusal := .next (s.issueG e (iSari e d rs amt))

/-- RORI (R200, R201). -/
def iRori (e d s : Fin 16) (amt : BitVec 5) : Effect := fun st _ c => st.alu e d c (shiftF .ror c.flg (c.D s) amt.toNat)

/-- RORI, issued by engine e. -/
def execRori (e d rs : Fin 16) (amt : BitVec 5) (s : State) : Host.Outcome State Fault Refusal := .next (s.issueG e (iRori e d rs amt))

/-- MOVI (R200). -/
def iMovi (e d : Fin 16) (h : Bool) (imm : BitVec 16) : Effect := fun st _ c =>
  st.done e (c.setD d (if h then imm ++ (c.D d).setWidth 16 else imm.setWidth 32))

/-- MOVI, issued by engine e. -/
def execMovi (e d : Fin 16) (h : Bool) (imm : BitVec 16) (s : State) : Host.Outcome State Fault Refusal := .next (s.issueG e (iMovi e d h imm))

/-- EXT (R200, R203). -/
def iExt (e d s : Fin 16) (pos w1 : BitVec 5) (sgn : Bool) : Effect := fun st _ c =>
  if 32 < pos.toNat + w1.toNat + 1 then st.trap e causeIllegal
  else
    let v := fieldGet (c.D s) pos.toNat (w1.toNat + 1)
    let r : W32 := if sgn ∧ 2 ^ w1.toNat ≤ v then BitVec.ofInt 32 ((v : Int) - 2 ^ (w1.toNat + 1)) else BitVec.ofNat 32 v
    st.alu e d c (znF c.flg r)

/-- EXT, issued by engine e. -/
def execExt (e d rs : Fin 16) (pos w1 : BitVec 5) (sgn : Bool) (s : State) : Host.Outcome State Fault Refusal := .next (s.issueG e (iExt e d rs pos w1 sgn))

/-- INS (R200, R203). -/
def iIns (e d s : Fin 16) (pos w1 : BitVec 5) : Effect := fun st _ c =>
  if 32 < pos.toNat + w1.toNat + 1 then st.trap e causeIllegal
  else st.alu e d c (znF c.flg (fieldSet (c.D d) pos.toNat (w1.toNat + 1) (c.D s).toNat))

/-- INS, issued by engine e. -/
def execIns (e d rs : Fin 16) (pos w1 : BitVec 5) (s : State) : Host.Outcome State Fault Refusal := .next (s.issueG e (iIns e d rs pos w1))

/-! ## Transfers between classes (R204) -/

/-- The register MOVX reads; none for a class, index or direction the table does not permit. -/
def Ctx.movxRead (c : Ctx) (cls idx : Nat) : Option W32 :=
  match cls with
  | 0 => some ((c.A idx).setWidth 32)
  | 1 => if idx < 4 then some ((c.BNK idx).setWidth 32) else none
  | 2 => some ((c.LEN idx).setWidth 32)
  | 3 => if idx = 0 then some c.flg else none
  | 4 => if idx = 0 then some c.evs else none
  | 5 => if idx = 0 then some c.tcause else if idx = 1 then some c.tpc else none
  | 6 =>
    if idx < 4 then some ((c.loops.reverse[idx]?).elim 0 (fun l => l.lc.setWidth 32))
    else if idx = 4 then some (BitVec.ofNat 32 c.loops.length) else none
  | 7 => if idx = 0 then some (BitVec.ofNat 32 c.rstk.length) else none
  | _ => none

/-- The register MOVX writes. -/
def Ctx.movxWrite (c : Ctx) (cls idx : Nat) (v : W32) : Option Ctx :=
  match cls with
  | 0 => some (c.setA idx (v.setWidth 16))
  | 1 => if idx < 4 then some { c with bnk := c.bnk.setIfInBounds idx (v.setWidth 16) } else none
  | 2 => some { c with len := c.len.setIfInBounds idx (v.setWidth 16) }
  | 3 => if idx = 0 then some { c with flg := v &&& 0x7F } else none
  | _ => none

/-- MOVX (R204). -/
def iMovx (e d : Fin 16) (dir : Bool) (cls : Fin 16) (idx : Fin 8) : Effect := fun st _ c =>
  if dir then
    match c.movxWrite cls idx (c.D d) with
    | some c => st.done e c
    | none => st.trap e causeIllegal
  else
    match c.movxRead cls idx with
    | some v => st.done e (c.setD d v)
    | none => st.trap e causeIllegal

/-- MOVX, issued by engine e. -/
def execMovx (e d : Fin 16) (dir : Bool) (cls : Fin 16) (idx : Fin 8) (s : State) : Host.Outcome State Fault Refusal := .next (s.issueG e (iMovx e d dir cls idx))

/-! ## Address operations (R208) -/

/-- MOVA (R208). -/
def iMova (e : Fin 16) (a : Fin 8) (imm : BitVec 16) : Effect := fun st _ c => st.done e (c.setA a imm)

/-- MOVA, issued by engine e. -/
def execMova (e : Fin 16) (a : Fin 8) (imm : BitVec 16) (s : State) : Host.Outcome State Fault Refusal := .next (s.issueG e (iMova e a imm))

/-- ADDA (R162, R208). -/
def iAdda (e : Fin 16) (a : Fin 8) (imm : BitVec 16) : Effect := fun st _ c => st.done e (c.bump a imm.toInt)

/-- ADDA, issued by engine e. -/
def execAdda (e : Fin 16) (a : Fin 8) (imm : BitVec 16) (s : State) : Host.Outcome State Fault Refusal := .next (s.issueG e (iAdda e a imm))

/-- ADDAR (R162, R208). -/
def iAddar (e : Fin 16) (a b : Fin 8) : Effect := fun st _ c => st.done e (c.bump a (c.A b).toInt)

/-- ADDAR, issued by engine e. -/
def execAddar (e : Fin 16) (a b : Fin 8) (s : State) : Host.Outcome State Fault Refusal := .next (s.issueG e (iAddar e a b))

/-- CMPA (R208). -/
def iCmpa (e : Fin 16) (a : Fin 8) (imm : BitVec 16) : Effect := fun st _ c => st.done e { c with flg := setA c.flg (c.A a) imm }

/-- CMPA, issued by engine e. -/
def execCmpa (e : Fin 16) (a : Fin 8) (imm : BitVec 16) (s : State) : Host.Outcome State Fault Refusal := .next (s.issueG e (iCmpa e a imm))

/-- CMPAR (R208). -/
def iCmpar (e : Fin 16) (a b : Fin 8) : Effect := fun st _ c => st.done e { c with flg := setA c.flg (c.A a) (c.A b) }

/-- CMPAR, issued by engine e. -/
def execCmpar (e : Fin 16) (a b : Fin 8) (s : State) : Host.Outcome State Fault Refusal := .next (s.issueG e (iCmpar e a b))

/-! ## Branches, calls, returns and loops (R209 to R213) -/

/-- B (R166, R209). -/
def iB (e : Fin 16) (cond : Fin 16) (off : BitVec 22) : Effect := fun st _ c =>
  match condB c.flg cond with
  | none => st.trap e causeIllegal
  | some true => st.put e (c.jump (target c.pc off.toInt))
  | some false => st.done e c

/-- B, issued by engine e. -/
def execB (e : Fin 16) (cond : Fin 16) (off : BitVec 22) (s : State) : Host.Outcome State Fault Refusal := .next (s.issueG e (iB e cond off))

/-- BA (R166, R209). -/
def iBa (e : Fin 16) (cond : Fin 4) (off : BitVec 22) : Effect := fun st _ c =>
  if condBA c.flg cond then st.put e (c.jump (target c.pc off.toInt)) else st.done e c

/-- BA, issued by engine e. -/
def execBa (e : Fin 16) (cond : Fin 4) (off : BitVec 22) (s : State) : Host.Outcome State Fault Refusal := .next (s.issueG e (iBa e cond off))

/-- A call to `t` (R167): it closes no level; with RSOVF a full stack traps. -/
def State.callTo (st : State) (e : Nat) (c : Ctx) (t : W32) : State :=
  if 16 ≤ c.rstk.length ∧ st.on (Reg.ENG_CFG_RSOVF e) then st.trap e causeStackOvf
  else st.put e { c.push with pc := t }

/-- CALL (R167, R209). -/
def iCall (e : Fin 16) (off : BitVec 26) : Effect := fun st _ c => st.callTo e c (target c.pc off.toInt)

/-- CALL, issued by engine e. -/
def execCall (e : Fin 16) (off : BitVec 26) (s : State) : Host.Outcome State Fault Refusal := .next (s.issueG e (iCall e off))

/-- CALLR (R167, R209). -/
def iCallr (e s : Fin 16) : Effect := fun st _ c => if (c.D s).toNat % 4 ≠ 0 then st.trap e causeAlign else st.callTo e c (c.D s)

/-- CALLR, issued by engine e. -/
def execCallr (e rs : Fin 16) (s : State) : Host.Outcome State Fault Refusal := .next (s.issueG e (iCallr e rs))

/-- JR (R166, R209). -/
def iJr (e s : Fin 16) : Effect := fun st _ c => if (c.D s).toNat % 4 ≠ 0 then st.trap e causeAlign else st.put e (c.jump (c.D s))

/-- JR, issued by engine e. -/
def execJr (e rs : Fin 16) (s : State) : Host.Outcome State Fault Refusal := .next (s.issueG e (iJr e rs))

/-- RET (R166, R168, R209). -/
def iRet (e : Fin 16) : Effect := fun st _ c =>
  match c.rstk with
  | [] => st.trap e causeStackUnf
  | a :: r => st.put e { c with rstk := r, pc := a.setWidth 32 }

/-- RET, issued by engine e. -/
def execRet (e : Fin 16) (s : State) : Host.Outcome State Fault Refusal := .next (s.issueG e (iRet e))

/-- A loop instruction with a count and an offset in words (R164, R210, R212). -/
def State.openLoop (st : State) (e : Nat) (c : Ctx) (count : BitVec 16) (off : Nat) : State :=
  let le := target c.pc off
  if off = 0 ∨ c.atEnd then st.trap e causeIllegal
  else if count = 0 then st.put e { c with pc := le + 4 }
  else if 4 ≤ c.loops.length then st.trap e causeLoopOvf
  else st.put e { c with loops := { ls := c.pc + 4, le := le, lc := count } :: c.loops, pc := c.pc + 4 }

/-- LOOPI (R210). -/
def iLoopi (e : Fin 16) (count : BitVec 16) (off : BitVec 10) : Effect := fun st _ c => st.openLoop e c count off.toNat

/-- LOOPI, issued by engine e. -/
def execLoopi (e : Fin 16) (count : BitVec 16) (off : BitVec 10) (s : State) : Host.Outcome State Fault Refusal := .next (s.issueG e (iLoopi e count off))

/-- LOOP (R210). -/
def iLoop (e s : Fin 16) (off : BitVec 18) : Effect := fun st _ c => st.openLoop e c ((c.D s).setWidth 16) off.toNat

/-- LOOP, issued by engine e. -/
def execLoop (e rs : Fin 16) (off : BitVec 18) (s : State) : Host.Outcome State Fault Refusal := .next (s.issueG e (iLoop e rs off))

/-- LBRK (R213). -/
def iLbrk (e : Fin 16) : Effect := fun st _ c =>
  match c.loops with
  | [] => st.trap e causeIllegal
  | l :: r => st.put e { c with loops := r, pc := l.le + 4 }

/-- LBRK, issued by engine e. -/
def execLbrk (e : Fin 16) (s : State) : Host.Outcome State Fault Refusal := .next (s.issueG e (iLbrk e))

/-! ## Accumulators (R215, R216) -/

/-- The exact product of two data registers. -/
def mulS (s t : W32) : BitVec 72 := BitVec.ofInt 72 (s.toInt * t.toInt)
def mulU (s t : W32) : BitVec 72 := BitVec.ofNat 72 (s.toNat * t.toNat)

/-- MUL (R215). -/
def iMul (e : Fin 16) (m : Fin 4) (s t : Fin 16) : Effect := fun st _ c => st.done e (c.setM m (mulS (c.D s) (c.D t)))

/-- MUL, issued by engine e. -/
def execMul (e : Fin 16) (m : Fin 4) (rs t : Fin 16) (s : State) : Host.Outcome State Fault Refusal := .next (s.issueG e (iMul e m rs t))

/-- MULU (R215). -/
def iMulu (e : Fin 16) (m : Fin 4) (s t : Fin 16) : Effect := fun st _ c => st.done e (c.setM m (mulU (c.D s) (c.D t)))

/-- MULU, issued by engine e. -/
def execMulu (e : Fin 16) (m : Fin 4) (rs t : Fin 16) (s : State) : Host.Outcome State Fault Refusal := .next (s.issueG e (iMulu e m rs t))

/-- MAC (R215). -/
def iMac (e : Fin 16) (m : Fin 4) (s t : Fin 16) : Effect := fun st _ c => st.done e (c.setM m (c.M m + mulS (c.D s) (c.D t)))

/-- MAC, issued by engine e. -/
def execMac (e : Fin 16) (m : Fin 4) (rs t : Fin 16) (s : State) : Host.Outcome State Fault Refusal := .next (s.issueG e (iMac e m rs t))

/-- MACU (R215). -/
def iMacu (e : Fin 16) (m : Fin 4) (s t : Fin 16) : Effect := fun st _ c => st.done e (c.setM m (c.M m + mulU (c.D s) (c.D t)))

/-- MACU, issued by engine e. -/
def execMacu (e : Fin 16) (m : Fin 4) (rs t : Fin 16) (s : State) : Host.Outcome State Fault Refusal := .next (s.issueG e (iMacu e m rs t))

/-- MSU (R215). -/
def iMsu (e : Fin 16) (m : Fin 4) (s t : Fin 16) : Effect := fun st _ c => st.done e (c.setM m (c.M m - mulS (c.D s) (c.D t)))

/-- MSU, issued by engine e. -/
def execMsu (e : Fin 16) (m : Fin 4) (rs t : Fin 16) (s : State) : Host.Outcome State Fault Refusal := .next (s.issueG e (iMsu e m rs t))

/-- MSUU (R215). -/
def iMsuu (e : Fin 16) (m : Fin 4) (s t : Fin 16) : Effect := fun st _ c => st.done e (c.setM m (c.M m - mulU (c.D s) (c.D t)))

/-- MSUU, issued by engine e. -/
def execMsuu (e : Fin 16) (m : Fin 4) (rs t : Fin 16) (s : State) : Host.Outcome State Fault Refusal := .next (s.issueG e (iMsuu e m rs t))

/-- MLD (R215). -/
def iMld (e : Fin 16) (m : Fin 4) (s : Fin 16) : Effect := fun st _ c => st.done e (c.setM m ((c.D s).signExtend 72))

/-- MLD, issued by engine e. -/
def execMld (e : Fin 16) (m : Fin 4) (rs : Fin 16) (s : State) : Host.Outcome State Fault Refusal := .next (s.issueG e (iMld e m rs))

/-- MCLR (R215). -/
def iMclr (e : Fin 16) (m : Fin 4) : Effect := fun st _ c => st.done e (c.setM m 0)

/-- MCLR, issued by engine e. -/
def execMclr (e : Fin 16) (m : Fin 4) (s : State) : Host.Outcome State Fault Refusal := .next (s.issueG e (iMclr e m))

/-- MSHL (R215). -/
def iMshl (e : Fin 16) (m : Fin 4) (sh : BitVec 6) : Effect := fun st _ c => st.done e (c.setM m (c.M m <<< sh.toNat))

/-- MSHL, issued by engine e. -/
def execMshl (e : Fin 16) (m : Fin 4) (sh : BitVec 6) (s : State) : Host.Outcome State Fault Refusal := .next (s.issueG e (iMshl e m sh))

/-- MSHR (R215). -/
def iMshr (e : Fin 16) (m : Fin 4) (sh : BitVec 6) : Effect := fun st _ c => st.done e (c.setM m ((c.M m).sshiftRight sh.toNat))

/-- MSHR, issued by engine e. -/
def execMshr (e : Fin 16) (m : Fin 4) (sh : BitVec 6) (s : State) : Host.Outcome State Fault Refusal := .next (s.issueG e (iMshr e m sh))

/-- RND (R215, R216). -/
def iRnd (e d : Fin 16) (m : Fin 4) (sh : BitVec 6) : Effect := fun st _ c => st.alu e d c (rndF c.flg (c.M m) sh.toNat)

/-- RND, issued by engine e. -/
def execRnd (e d : Fin 16) (m : Fin 4) (sh : BitVec 6) (s : State) : Host.Outcome State Fault Refusal := .next (s.issueG e (iRnd e d m sh))

/-! ## Events and time (R220 to R225) -/

/-- WFE: the lowest pending input of the mask is consumed, or the engine waits (R220). -/
def iWfe (e d s : Fin 16) : Effect := fun st _ c =>
  let mask := c.pair s &&& ~~~ (st.engN e).boundMask
  if mask = 0 then st.done e (c.setD d 0xFFFFFFFF)
  else
    let st := st.modRun e (fun r => { r with first := false, stall := .wfe (c.pair s) d })
    st.wfeCheck e

/-- WFE: the lowest pending input of the mask is consumed, or the engine waits, issued by engine e. -/
def execWfe (e d rs : Fin 16) (s : State) : Host.Outcome State Fault Refusal := .next (s.issueG e (iWfe e d rs))

/-- SEV to the engines of a mask that a slot owns (R221). -/
def State.sevMask (st : State) (slot line : Nat) (mask : Nat) : State :=
  st.each 16 (fun n t => if mask / 2 ^ n % 2 = 1 ∧ t.engOwner n = slot then t.register n (bit64 (34 + line)) else t)

/-- SEV (R221). -/
def iSev (e : Fin 16) (line : Fin 4) (s : Fin 16) : Effect := fun st _ c =>
  let slot := st.engOwner e
  (st.done e c).sevMask slot line (c.D s).toNat

/-- SEV, issued by engine e. -/
def execSev (e : Fin 16) (line : Fin 4) (rs : Fin 16) (s : State) : Host.Outcome State Fault Refusal := .next (s.issueG e (iSev e line rs))

/-- WAITT (R223): a target that the time base reaches in this TIME cycle is on time (R236). -/
def iWaitt (e s l : Fin 16) : Effect := fun st _ c =>
  let t := (c.pair s).toNat
  if st.now < t then st.modRun e (fun r => { r with first := false, stall := .waitt (c.pair s) })
  else if st.time.prev < t then st.done e { c with flg := setC c.flg false }
  else if st.now - t ≤ (c.D l).toNat then st.done e { c with flg := setC c.flg (decide (t < st.now)) }
  else st.trap e causeDeadline

/-- WAITT, issued by engine e. -/
def execWaitt (e rs l : Fin 16) (s : State) : Host.Outcome State Fault Refusal := .next (s.issueG e (iWaitt e rs l))

/-- GETT (R177, R225). -/
def iGett (e d : Fin 16) : Effect := fun st r c =>
  let t : BitVec 64 := match r.first, r.entry with
    | true, some t => t
    | _, _ => BitVec.ofNat 64 st.now
  st.done e (c.setPair d t)

/-- GETT, issued by engine e. -/
def execGett (e d : Fin 16) (s : State) : Host.Outcome State Fault Refusal := .next (s.issueG e (iGett e d))

/-- GETTK (R225). -/
def iGettk (e d : Fin 16) : Effect := fun st _ c => st.done e (c.setD d (BitVec.ofNat 32 st.tick))

/-- GETTK, issued by engine e. -/
def execGettk (e d : Fin 16) (s : State) : Host.Outcome State Fault Refusal := .next (s.issueG e (iGettk e d))

/-! ## System (R183, R229) -/

/-- NOP (R229). -/
def iNop (e : Fin 16) : Effect := fun st _ c => st.done e c

/-- NOP, issued by engine e. -/
def execNop (e : Fin 16) (s : State) : Host.Outcome State Fault Refusal := .next (s.issueG e (iNop e))

/-- END: LDEPTH and RDEPTH read 0, and the task ends within budget (R229). -/
def iEndTask (e : Fin 16) : Effect := fun st _ c => (st.put e { c with loops := [], rstk := [], pc := c.pc + 4 }).endTask e

/-- END, issued by engine e. -/
def execEndTask (e : Fin 16) (s : State) : Host.Outcome State Fault Refusal := .next (s.issueG e (iEndTask e))

/-- RETT: back to the instruction after the trapping one, or the end of the task (R183, R229). -/
def iRett (e : Fin 16) : Effect := fun st r c =>
  match r.handler with
  | none => st.trap e causeIllegal
  | some true =>
    let p := loopNext c.tpc c.loops
    (st.put e { c with loops := p.1, pc := p.2 }).modRun e (fun r => { r with handler := none })
  | some false => st.endTask e

/-- RETT: back to the instruction after the trapping one, or the end of the task, issued by engine e. -/
def execRett (e : Fin 16) (s : State) : Host.Outcome State Fault Refusal := .next (s.issueG e (iRett e))

/-- ILLEGAL_INSTRUCTION (R198). -/
def iIllegalInstruction (e : Fin 16) (_w : BitVec 32) : Effect := fun st _ _ => st.trap e causeIllegal

/-- ILLEGAL_INSTRUCTION, issued by engine e. -/
def execIllegalInstruction (e : Fin 16) (_w : BitVec 32) (s : State) : Host.Outcome State Fault Refusal := .next (s.issueG e (iIllegalInstruction e _w))

/-- A WAITT of engine e that waits for a time the time base has reached ends (R223); it writes C 0. -/
def State.waittRelease (s : State) (e : Fin 16) : State :=
  match (s.engN e).cur with
  | none => s
  | some r =>
    match r.stall with
    | .waitt t => if t.toNat ≤ s.now ∧ s.awake then let c := s.ctxOf e; s.done e { c with flg := setC c.flg false } else s
    | _ => s

/-- WAITT_RELEASE: the time base has reached the target of a stalled WAITT (R223). -/
def execWaittRelease (e : Fin 16) (s : State) : Host.Outcome State Fault Refusal := .next (s.waittRelease e)

end Sys2Proof.Machine
end

