-- ==== Sys2Proof/Machine/IngotOps.lean ====
section
/-!
DEFINITION. The Ingot controller (17) and the repair record it writes (18), as shared operations.
-/

namespace Sys2Proof.Machine

/-! ## Sectors (R561 to R563, R577) -/

def secErasing : Nat := 1
def secSuspended : Nat := 2
def secTorn : Nat := 3

/-- Is a program or erase of sector `k` a protected write? -/
def State.protects (s : State) (k : Nat) (src : IngSrc) : Bool :=
  match src with
  | .repair => !(k == 124 || k == 125)
  | _ => decide (124 ≤ k) || fieldGet (s.word (Reg.ING_WP (k / 32))) (k % 32) 1 == 1

def IngSrc.req (x : IngSrc) : Nat :=
  match x with
  | .ring _ => 0
  | .cmd => 1
  | .repair => 2

/-- The sector of a job's next unit. -/
def IngJob.sector (j : IngJob) : Nat := if j.erase then j.idx else j.idx / 256

def State.modIng (s : State) (f : Ingot → Ingot) : State := { s with ing := f s.ing }

/-! ## The repair record (R608, R609) -/

/-- The 4,096 bytes of a record image. -/
def recordImage (es : List (List Byte)) (gen : Nat) : List Byte :=
  let body := es.flatten ++ List.replicate (4064 - 16 * es.length) 0xFF ++ leBytes 4 0x52504D54 ++ leBytes 4 gen ++ leBytes 2 es.length
    ++ leBytes 2 1 ++ List.replicate 16 0
  body ++ leBytes 4 (crc32c body).toNat

/-- GEN and entries of the image in a sector, when it is valid. -/
def State.recordAt (s : State) (k : Nat) : Option (Nat × List (List Byte)) :=
  let b := s.rd (Memory.ingot (k * 0x10000)) 4096
  if s.get (sectorFld k) = secNormal ∧ leAt b 4064 4 = 0x52504D54 ∧ leAt b 4074 2 = 1 ∧ leAt b 4072 2 ≤ 254
      ∧ crc32c (b.take 4092) = BitVec.ofNat 32 (leAt b 4092 4) then
    some (leAt b 4068 4, chunks 16 (leAt b 4072 2) b)
  else none

/-- The newest valid image: its sector, GEN and entries. -/
def State.newestRecord (s : State) : Option (Nat × Nat × List (List Byte)) :=
  match s.recordAt 124, s.recordAt 125 with
  | none, none => none
  | some a, none => some (124, a)
  | none, some b => some (125, b)
  | some a, some b => if a.1 < b.1 then some (125, b) else some (124, a)

/-- The sector the next image goes to. -/
def State.recordTarget (s : State) : Nat := if s.temper.sector = some 124 then 125 else 124

def State.writesRecord (s : State) : Bool :=
  let r := fun (j : IngJob) => j.src == .repair
  s.ing.jobs.any r || s.ing.cur.any r || s.ing.susp.any (fun x => r x.1)

/-- A rewrite of the record is queued, unless one is on its way. -/
def State.queueRecord (s : State) : State :=
  if s.temper.due && !s.writesRecord then
    s.modIng (fun g => { g with jobs := g.jobs ++ [{ src := .repair, erase := true, idx := s.recordTarget, data := [], left := 1, cut := false }] })
  else s

/-- A substitution in RECORD is complete (R611). DEDUCED, log entry 41. -/
def State.endSub (s : State) : State :=
  if s.get Reg.TMP_SUBSTAT_STATE = 4 then (s.set Reg.TMP_SUBSTAT_STATE 0).set Reg.TMP_SUBSTAT_DONE 1 else s

/-- The record write has ended; what fell due meanwhile follows. -/
def State.recordEnd (s : State) (ok : Bool) : State :=
  let s := if ok then
      let k := s.recordTarget
      let g := s.temper.gen + 1
      ({ s with temper := { s.temper with sector := some k, gen := g } }.set Reg.TMP_REPSTAT_VALID 1).set Reg.TMP_REPSTAT_GEN g
    else (s.set Reg.TMP_REPSTAT_WERR 1).record 0x0D07 0xFF 0
  s.endSub.queueRecord

/-- A repair has completed: its entry is appended and the record is rewritten (R609). -/
def State.addRepair (s : State) (kind source unit index spare : Nat) : State :=
  if 254 ≤ s.temper.repairs.length then ((s.set Reg.TMP_REPSTAT_FULL 1).record 0x0D07 0xFF 0).endSub
  else
    let e := [BitVec.ofNat 8 kind, BitVec.ofNat 8 source] ++ leBytes 2 unit ++ leBytes 4 index ++ leBytes 4 spare
      ++ leBytes 4 (s.get Reg.PWR_BOOTCNT_COUNT)
    let es := s.temper.repairs ++ [e]
    let s := { s with temper := { s.temper with repairs := es, due := true } }.set Reg.TMP_REPSTAT_COUNT es.length
    (s.setB Reg.TMP_REPSTAT_FULL (decide (254 ≤ es.length))).queueRecord

/-! ## Operations (R565 to R576) -/

/-- The first job a test admits, from the round-robin pointer on. -/
def Ingot.pick (g : Ingot) (ok : IngJob → Bool) : Option IngJob :=
  (List.range 3).findSome? (fun i => g.jobs.find? (fun j => j.src.req == (g.rr + i) % 3 && ok j))

/-- One more unit of a ring's job has taken full effect. -/
def State.ingProgress (s : State) (j : IngJob) : State :=
  match j.src with
  | .ring r => s.modDesc r.ring r.picks (fun d => { d with prog := d.prog + 1 })
  | _ => s

/-- A job is done. -/
def State.ingDone (s : State) (j : IngJob) : State :=
  match j.src with
  | .ring r =>
    if (s.ring r.ring).q.any (fun d => r.picks d && d.short) then s.endNoEntry r.ring r.picks statusFail else s.doneNow r.ring r.picks
  | .cmd => (s.set Reg.ING_CMDSTAT_RESULT 2).set Reg.ING_CMDSTAT_CODE 0
  | .repair => s.recordEnd true

/-- A job has failed with the newest entry; `code` is that of ING_CMDSTAT. -/
def State.ingFail (s : State) (j : IngJob) (code : Nat) : State :=
  match j.src with
  | .ring r => s.endWithEntry r.ring r.picks statusFail
  | .cmd => (s.set Reg.ING_CMDSTAT_RESULT 3).set Reg.ING_CMDSTAT_CODE code
  | .repair => s.recordEnd false

/-- A ring's job ends at a unit boundary because its ring was disabled (R116). -/
def State.ingStop (s : State) (j : IngJob) : State :=
  match j.src with
  | .ring r =>
    if (s.ring r.ring).q.any (fun (d : Desc) => r.picks d && d.prog == 0) then s.finish r.ring r.picks statusNone none (some s.time32)
    else s.endNoEntry r.ring r.picks statusPart
  | _ => s

/-- The first unit of a job starts, or the job is refused (R563, R572, R573). -/
def State.ingStart (s : State) (j : IngJob) : State :=
  let k := j.sector
  let off := if j.erase then k * 0x10000 else j.idx * 256
  if s.protects k j.src then ((s.set Reg.ING_STAT_PROT 1).record 0x0C01 k off).ingFail j 2
  else if !j.erase ∧ s.get (sectorFld k) ≠ secNormal then ((s.set Reg.ING_STAT_TORNW 1).record 0x0C03 k off).ingFail j 3
  else
    let j := if j.src = .repair ∧ j.erase then { j with data := recordImage s.temper.repairs (s.temper.gen + 1) } else j
    let s := if j.src = .repair ∧ j.erase then { s with temper := { s.temper with due := false } } else s
    let s := (s.modIng (fun g => { g with cur := some j })).set Reg.ING_STAT_BUSY 1
    if j.erase then ((s.set Reg.ING_STAT_OP 2).set (sectorFld k) secErasing).set Reg.ING_ESECT_SECTOR k
    else s.set Reg.ING_STAT_OP 1

/-- The suspended erase resumes (R575). -/
def State.ingResume (s : State) : State :=
  match s.ing.susp, s.ing.cur with
  | some (j, _), none =>
    let s := s.modIng (fun g => { g with susp := none, cur := some j, suspReq := none })
    (((s.set Reg.ING_STAT_SUSPD 0).set Reg.ING_STAT_BUSY 1).set Reg.ING_STAT_OP 2).set (sectorFld j.sector) secErasing
  | _, _ => s

/-- Nothing runs: the next operation starts, a suspended erase resumes; an erase runs and a program of another sector waits: it
is suspended under AUTOSUSP (R574 to R576). -/
def State.ingNext : Nat → State → State
  | 0, s => s
  | f + 1, s =>
    match s.ing.cur with
    | some c =>
      if c.erase && s.on Reg.ING_CTRL_AUTOSUSP && s.ing.suspReq.isNone && s.ing.jobs.any (fun j => !j.erase && j.sector != c.sector) then
        s.modIng (fun g => { g with suspReq := some false })
      else s
    | none =>
      match s.ing.pick (fun j => !j.erase || s.ing.susp.isNone) with
      | some j => State.ingNext f ((s.modIng (fun g => { g with jobs := g.jobs.erase j })).ingStart j)
      | none =>
        match s.ing.susp with
        | some (_, false) => if s.ing.readWait then s else s.ingResume
        | _ => s

/-- Let the controller go on; every job can be refused once. -/
def State.ingGo (s : State) : State := State.ingNext (s.ing.jobs.length + 2) s

def State.ingQueue (s : State) (j : IngJob) : State := (s.modIng (fun g => { g with jobs := g.jobs ++ [j] })).ingGo

/-- The running operation is over. -/
def State.ingFree (s : State) : State :=
  (((s.modIng (fun g => { g with cur := none, suspReq := none })).set Reg.ING_STAT_BUSY 0).set Reg.ING_STAT_OP 0)

/-- A unit has taken effect; the rest of the job waits its turn, ends it or stops at this boundary. -/
def State.ingUnitDone (s : State) (j rest : IngJob) (more : Bool) : State :=
  let s := s.ingFree.ingProgress j
  if !more then (s.ingDone j).ingGo
  else if j.cut then (s.ingStop j).ingGo
  else (s.modIng (fun g => { g with jobs := rest :: g.jobs })).ingGo

/-- May a read of sector `k` go now? When an erase of another sector runs it waits, and under AUTOSUSP suspends the erase (R574, R576). -/
def State.ingReadable (s : State) (k : Nat) : Bool :=
  match s.ing.cur with
  | some c => !c.erase || c.sector == k
  | none => true

/-- DEDUCED, log entry 35. -/
def State.ingAsk (s : State) : State :=
  if s.on Reg.ING_CTRL_AUTOSUSP then
    s.modIng (fun g => { g with readWait := true, suspReq := match g.suspReq with
      | none => some false
      | some b => some b })
  else s

/-- A read has been served. -/
def State.ingServed (s : State) : State :=
  if s.ing.readWait then (s.modIng (fun g => { g with readWait := false })).ingGo else s

/-- A disabled ring's jobs stop at the next unit boundary; a suspended one first resumes (R116, R588). DEDUCED, log entry 35. -/
def State.ingCut (s : State) (n : Nat) : State :=
  let mine := fun (j : IngJob) => match j.src with
    | .ring r => r.ring == n
    | _ => false
  let waiting := s.ing.jobs.filter mine
  let s := s.modIng (fun g => { g with
    jobs := g.jobs.filter (fun j => !mine j),
    cur := g.cur.map (fun j => if mine j then { j with cut := true } else j),
    susp := g.susp.map (fun x => if mine x.1 then ({ x.1 with cut := true }, false) else x) })
  (waiting.foldl State.ingStop s).ingGo

end Sys2Proof.Machine
end

