-- ==== Sys2Proof/Machine/Crypto.lean ====
section
/-!
DEFINITION. The checks of the Warden (R288, R690, R698): HMAC-SHA-256 (FIPS 180-4, RFC 2104) and ECDSA on P-384 over SHA-384 (FIPS 186-4). The
spec names the standards and does not restate them. PRESUMED, log entry 5.
-/

namespace Sys2Proof.Machine

/-! ## SHA-256 and HMAC -/

/-- The round constants. PRESUMED, log entry 5. -/
def sha256K0 : List (BitVec 32) :=
  [0x428A2F98, 0x71374491, 0xB5C0FBCF, 0xE9B5DBA5, 0x3956C25B, 0x59F111F1, 0x923F82A4, 0xAB1C5ED5, 0xD807AA98, 0x12835B01, 0x243185BE,
   0x550C7DC3, 0x72BE5D74, 0x80DEB1FE, 0x9BDC06A7, 0xC19BF174, 0xE49B69C1, 0xEFBE4786, 0x0FC19DC6, 0x240CA1CC, 0x2DE92C6F, 0x4A7484AA,
   0x5CB0A9DC, 0x76F988DA, 0x983E5152, 0xA831C66D, 0xB00327C8, 0xBF597FC7, 0xC6E00BF3, 0xD5A79147, 0x06CA6351, 0x14292967]
def sha256K1 : List (BitVec 32) :=
  [0x27B70A85, 0x2E1B2138, 0x4D2C6DFC, 0x53380D13, 0x650A7354, 0x766A0ABB, 0x81C2C92E, 0x92722C85, 0xA2BFE8A1, 0xA81A664B, 0xC24B8B70,
   0xC76C51A3, 0xD192E819, 0xD6990624, 0xF40E3585, 0x106AA070, 0x19A4C116, 0x1E376C08, 0x2748774C, 0x34B0BCB5, 0x391C0CB3, 0x4ED8AA4A,
   0x5B9CCA4F, 0x682E6FF3, 0x748F82EE, 0x78A5636F, 0x84C87814, 0x8CC70208, 0x90BEFFFA, 0xA4506CEB, 0xBEF9A3F7, 0xC67178F2]

/-- The eight variables a to h. -/
abbrev Sha256Vars := List (BitVec 32)

/-- The initial chaining value of SHA-256. PRESUMED, log entry 5. -/
def sha256Init : Sha256Vars := [0x6A09E667, 0xBB67AE85, 0x3C6EF372, 0xA54FF53A, 0x510E527F, 0x9B05688C, 0x1F83D9AB, 0x5BE0CD19]

/-- One round: the variables, and the window of the next sixteen schedule words. -/
def sha256Round (p : Sha256Vars × List (BitVec 32)) (k : BitVec 32) : Sha256Vars × List (BitVec 32) :=
  let v := fun (i : Nat) => p.1.getD i 0
  let w := fun (i : Nat) => p.2.getD i 0
  let s1 := (v 4).rotateRight 6 ^^^ (v 4).rotateRight 11 ^^^ (v 4).rotateRight 25
  let t1 := v 7 + s1 + ((v 4 &&& v 5) ^^^ (~~~ v 4 &&& v 6)) + k + w 0
  let s0 := (v 0).rotateRight 2 ^^^ (v 0).rotateRight 13 ^^^ (v 0).rotateRight 22
  let t2 := s0 + ((v 0 &&& v 1) ^^^ (v 0 &&& v 2) ^^^ (v 1 &&& v 2))
  let x0 := (w 1).rotateRight 7 ^^^ (w 1).rotateRight 18 ^^^ (w 1 >>> 3)
  let x1 := (w 14).rotateRight 17 ^^^ (w 14).rotateRight 19 ^^^ (w 14 >>> 10)
  ([t1 + t2, v 0, v 1, v 2, v 3 + t1, v 4, v 5, v 6], p.2.drop 1 ++ [x1 + w 9 + x0 + w 0])

/-- Words of four bytes, the first byte highest. -/
def sha256Words : Nat → List (BitVec 8) → List (BitVec 32)
  | 0, _ => []
  | n + 1, b => BitVec.ofNat 32 (shaNat (b.take 4)) :: sha256Words n (b.drop 4)

def sha256Blocks : Nat → Sha256Vars → List (BitVec 8) → Sha256Vars
  | 0, v, _ => v
  | n + 1, v, b =>
    let r := ((sha256K0 ++ sha256K1).foldl sha256Round (v, sha256Words 16 b)).1
    sha256Blocks n (List.zipWith (· + ·) v r) (b.drop 64)

/-- `n` bytes of a number, the highest first. -/
def beBytes (n v : Nat) : List (BitVec 8) := (List.range n).map (fun i => BitVec.ofNat 8 (v / 256 ^ (n - 1 - i)))

/-- The 32 bytes of the SHA-256 of a byte string. PRESUMED, log entry 5. -/
def sha256 (m : List (BitVec 8)) : List (BitVec 8) :=
  let p := m ++ 0x80 :: List.replicate ((119 - m.length % 64) % 64) 0 ++ beBytes 8 (8 * m.length)
  (sha256Blocks (p.length / 64) sha256Init p).flatMap (fun x => beBytes 4 x.toNat)

/-- HMAC-SHA-256 under a key of 32 bytes (RFC 2104). PRESUMED, log entry 5. -/
def hmac256 (key m : List (BitVec 8)) : List (BitVec 8) :=
  let pad := fun (x : BitVec 8) => (key ++ List.replicate (64 - key.length) 0).map (fun b => b ^^^ x)
  sha256 (pad 0x5C ++ sha256 (pad 0x36 ++ m))

/-! ## SHA-384 whole -/

/-- The 48 bytes of the SHA-384 of a byte string. PRESUMED, log entry 5. -/
def sha384 (m : List (BitVec 8)) : List (BitVec 8) :=
  let v := shaBlocks ((shaPad m).length / 128) shaInit (shaPad m)
  [v.a, v.b, v.c, v.d, v.e, v.f].flatMap (fun x => beBytes 8 x.toNat)

/-! ## ECDSA on P-384 -/

/-- The field prime, the curve's b, its order and base point. PRESUMED, log entry 5. -/
def p384P : Nat := 2 ^ 384 - 2 ^ 128 - 2 ^ 96 + 2 ^ 32 - 1
def p384B : Nat := 0xB3312FA7E23EE7E4988E056BE3F82D19181D9C6EFE8141120314088F5013875AC656398D8A2ED19D2A85C8EDD3EC2AEF
def p384N : Nat := 0xFFFFFFFFFFFFFFFFFFFFFFFFFFFFFFFFFFFFFFFFFFFFFFFFC7634D81F4372DDF581A0DB248B0A77AECEC196ACCC52973
def p384G : Nat × Nat :=
  (0xAA87CA22BE8B05378EB1C71EF320AD746E1D3B628BA79B9859F741E082542A385502F25DBF55296C3A545E3872760AB7,
   0x3617DE4A96262C6F5D9E98BF9292DC29F8F41DBD289A147CE9DA3113B5F0B8C00A60B1CE1D7E819D7A431D7C90EA0E5F)

/-- b to the power e modulo m, e below 2^fuel. -/
def powMod (m : Nat) : Nat → Nat → Nat → Nat
  | 0, _, _ => 1
  | f + 1, b, e => if e % 2 = 1 then b * powMod m f (b * b % m) (e / 2) % m else powMod m f (b * b % m) (e / 2)

/-- The inverse modulo a prime of 384 bits. -/
def invMod (m a : Nat) : Nat := powMod m 384 (a % m) (m - 2)

/-- A point of the curve; none is the point at infinity. -/
abbrev EcPoint := Option (Nat × Nat)

/-- The sum of two points. -/
def ecAdd (a b : EcPoint) : EcPoint :=
  match a, b with
  | none, q => q
  | q, none => q
  | some (x1, y1), some (x2, y2) =>
    if x1 = x2 ∧ (y1 + y2) % p384P = 0 then none
    else
      let l := if x1 = x2 then (3 * x1 * x1 + (p384P - 3)) * invMod p384P (2 * y1) % p384P
        else (y2 + p384P - y1) * invMod p384P (x2 + p384P - x1) % p384P
      let x := (l * l + 2 * p384P - x1 - x2) % p384P
      some (x, (l * (x1 + p384P - x) + p384P - y1) % p384P)

/-- k times a point, k below 2^fuel. -/
def ecMul : Nat → Nat → EcPoint → EcPoint
  | 0, _, _ => none
  | f + 1, k, q => if k % 2 = 1 then ecAdd q (ecMul f (k / 2) (ecAdd q q)) else ecMul f (k / 2) (ecAdd q q)

/-- Does the signature r then s (96 bytes) verify over the SHA-384 of `m` under the uncompressed point `key` (97 bytes)? PRESUMED, log entry 5. -/
def ecdsaOk (key sig m : List (BitVec 8)) : Bool :=
  let x := shaNat ((key.drop 1).take 48)
  let y := shaNat ((key.drop 49).take 48)
  let r := shaNat (sig.take 48)
  let s := shaNat ((sig.drop 48).take 48)
  let w := invMod p384N s
  let z := shaNat (sha384 m)
  key.head? == some 0x04 && decide (x < p384P ∧ y < p384P ∧ (y * y + 3 * x) % p384P = (x * x * x + p384B) % p384P)
    && decide (1 ≤ r ∧ r < p384N ∧ 1 ≤ s ∧ s < p384N)
    && (match ecAdd (ecMul 384 (z * w % p384N) (some p384G)) (ecMul 384 (r * w % p384N) (some (x, y))) with
      | none => false
      | some q => q.1 % p384N == r)

end Sys2Proof.Machine
end

