-- ==== Sys2Proof/Machine/SecOps.lean ====
section
/-!
DEFINITION. The anti-rollback counters (R289, R696) and the keys of the Warden's checks (R288, R690, R698).
-/

namespace Sys2Proof.Machine

/-- Raise counter `i` to `v`: whether it was raised, and the state. -/
def State.raiseArb (s : State) (i v : Nat) : Bool × State :=
  let used := s.sec.raises.getD i 0
  if v ≤ s.get (Reg.KEY_ARB_VAL i) then (false, s)
  else if 1024 ≤ used then (false, s.set Reg.KEY_STAT_ARBFULL 1)
  else (true, { s with sec := { s.sec with raises := s.sec.raises.setIfInBounds i (used + 1) } }.set (Reg.KEY_ARB_VAL i) v)

/-! ## Keys -/

/-- The customer root key hash: byte 4j is the lowest of KEY_ROOTH_j (21, KEY_ROOTH). -/
def State.rootHash (s : State) : List Byte := (List.range 12).flatMap (fun j => leBytes 4 (s.word (Reg.KEY_ROOTH j)).toNat)

/-- Is there a sound root key hash, and is it the SHA-384 of this key (R288, R695, R698)? -/
def State.rootOk (s : State) (key : List Byte) : Bool :=
  s.on Reg.KEY_STAT_ROOTSET && !s.on Reg.KEY_STAT_ROOTBAD && sha384 key == s.rootHash

/-- The 256-bit device key (R288, R693). -/
def deviceKey : List Byte := List.ofFn Sys2Proof.Config.deviceKey

/-- The Drikete patch key hash in ROM (R690). -/
def patchKeyHash : List Byte := List.ofFn Sys2Proof.Config.patchKeyHash

/-- A byte string that ends in a key, 7 bytes and a signature: do they have R690's form, does the key satisfy `key`, and does the signature
verify over `m`? -/
def signedBy (key : List Byte → Bool) (b m : List Byte) : Bool :=
  let t := b.drop (b.length - 200)
  decide (200 ≤ b.length) && t.head? == some 0x04 && (t.drop 97).take 7 == List.replicate 7 0 && key (t.take 97) && ecdsaOk (t.take 97) (t.drop 104) m

end Sys2Proof.Machine
end

