-- ==== Sys2Proof/Machine/Prs.lean ====
section
/-!
DEFINITION. The commands of the personality loader, the DONE line and the readback unit (09).
-/

namespace Sys2Proof.Machine

/-! ## Requests -/

/-- A load request waits its turn. -/
def State.requestLoad (s : State) (r : LoadReq) : State :=
  { s with prs := { s.prs with waiting := s.prs.waiting ++ [r] } }.afterLoad

/-- The bytes of a chain's buffers, when all have arrived. -/
def chainData : List Desc → Option (List Byte)
  | [] => some []
  | d :: q => match d.data, chainData q with
    | some b, some r => some (b ++ r)
    | _, _ => none

/-- PRS_LOAD: the descriptor chain at the head of ring n's work; when the boot SPI flash is the source, `sfdp` is what it answers to an
SFDP read and `flash` what it holds from the source offset on (R282, R284). -/
def execPrsLoad (n : Fin 64) (sfdp flash : List Byte) (s : State) : Host.Outcome State Fault Refusal :=
  match s.ready n 0x22 with
  | none => .next s
  | some d =>
    match (s.ring n).chain d with
    | none => .next s
    | some c =>
      let ref : RingRef := { ring := n, idx := d.idx, gen := d.gen, tag := d.tag }
      let go := fun (x : LoadSrc) => (s.modDesc n (inChain c) (fun e => { e with started := true })).requestLoad
        { slot := d.target % 4, src := x, req := some ref }
      let off := d.opx.toNat / 2 ^ 32
      match d.opx.toNat % 256 with
      | 0 =>
        match chainData c with
        | none => .next s
        | some b => .next (go (.chain b))
      | 1 => .next (go (.ingot off))
      | _ => .next (go (.flash sfdp off flash))

/-- PRS_UNLOAD: the descriptor at the head of ring n's work (R307). -/
def execPrsUnload (n : Fin 64) (s : State) : Host.Outcome State Fault Refusal :=
  match s.ready n 0x23 with
  | none => .next s
  | some d =>
    let m := d.target % 4
    let s := (s.start n d).modSlot m (fun x => { x with unload := x.unload ++ [{ ring := n, idx := d.idx, gen := d.gen, tag := d.tag }] })
    if s.slotState m = slotWaitDone then .next (s.tryUnload false m).afterLoad else .next (s.tryUnload false m)

/-! ## The stream -/

/-- The load of slot `n` ends with a code and the loader goes on. -/
def State.loadFails (s : State) (n code : Nat) : State := (s.failLoad n code).afterLoad

/-- PRS_HASH: the personality hash of a body (R290). -/
def State.setHash (s : State) (n : Nat) (st : List Byte) : State :=
  s.setWord64 (Reg.PRS_HASH_LO n) (Reg.PRS_HASH_HI n) (sha384Head (st.take (st.length - 256)))

/-- The end of the BUDGET section, or of a stream without one. -/
def budgetEnd (st : List Byte) : Nat := let x := (sections st).getD 1 ⟨0, 0, 0, 0, 0⟩; x.off + x.len

/-- Mode tables are checked when their section is complete (R428). -/
def modeOk (b : List Byte) : Bool :=
  let sl := ttSl b
  b.length == 16 + 16 * leAt b 0 2 && decide (leAt b 0 2 ≤ 512) && leAt b 2 2 == 0 && leAt b 8 8 == 0
    && sl.all (fun x => x.length == 16 && decide (leAt x 0 4 < leAt b 4 4 * 10) && decide (byteAt x 4 < 32 ∧ byteAt x 5 < 32)
      && byteAt x 4 != byteAt x 5 && decide (byteAt x 6 < 2) && decide (leAt x 8 3 < 2 ^ 18 ∧ leAt x 12 3 < 2 ^ 18)
      && decide (byteAt x 11 ≤ 64) && (decide (byteAt x 15 < 16) || byteAt x 15 == 0xFF))
    && rising (sl.map (fun x => leAt x 0 4))
where
  ttSl (b : List Byte) : List (List Byte) := chunks 16 (leAt b 0 2) (b.drop 16)
  rising : List Nat → Bool
    | a :: c :: r => decide (a < c) && rising (c :: r)
    | _ => true

def modesOk (st : List Byte) (a b : Nat) : Bool :=
  (sections st).all (fun x => x.kind != 6 || !(decide (x.off + x.len ≤ b) && decide (a < x.off + x.len)) || modeOk ((st.drop x.off).take x.len))

/-- Stream bytes of an admitted slot take effect; an error ends the load. -/
def State.takeRange (s : State) (n : Nat) (st : List Byte) (a b : Nat) : Option Nat × State :=
  if modesOk st a b then s.applyRange n st a b else (some errFormat, s)

/-- A stretch of the FRAME stream from byte `a` on has checked (R287, R291). -/
def State.frameBytes (s : State) (n a : Nat) : State :=
  let st := (s.slot n).stream
  let b := st.length
  let early := decide (a < tableEnd st)
  if early && decide (tableEnd st ≤ b) && !tableOk st then s.loadFails n errFormat
  else if decide (tableEnd st ≤ b) && !gapsZero st then s.loadFails n errFormat
  else if b < tableEnd st ∨ b < budgetEnd st then (if b = slenOf st then s.loadFails n errFormat else s)
  else
    let p : Option Nat × State × Nat :=
      if (s.slot n).admitted then (none, s, a)
      else if !sectionsBound st then (some errFormat, s, 0)
      else match s.admission n st with
        | some c => (some c, s, 0)
        | none => (none, s.claim n st, 0)
    match p.1 with
    | some c => s.loadFails n c
    | none =>
      let q := p.2.1.takeRange n st p.2.2 b
      match q.1 with
      | some c => q.2.loadFails n c
      | none =>
        if b = slenOf st then (if trailerOk st then q.2.setHash n st else q.2.loadFails n errFormat) else q.2

/-- The loader takes the next record of the load in progress (R287). -/
def execFrameRecord (s : State) : Host.Outcome State Fault Refusal :=
  match s.prs.active with
  | none => .next s
  | some n =>
    let q := s.fillRecord n
    let s := q.2
    let x := s.slot n
    if !q.1 then .next (s.loadFails n errSource)
    else if x.file.length < 260 then .next s
    else
      let r := x.file.take 260
      let body := r.take 256
      if (crc32c body).toNat ≠ leAt r 256 4 then .next (s.loadFails n errFrameCrc)
      else
        let s := (s.modSlot n (fun y => { y with file := y.file.drop 260, stream := y.stream ++ body })).set (Reg.PRS_PROG_BYTES n)
          (s.get (Reg.PRS_PROG_BYTES n) + 260)
        .next (s.frameBytes n x.stream.length)

/-- Does the trailer's signature (VMODE 1) or tag (VMODE 2) verify over the body (R288)? -/
def State.tagOk (s : State) (st : List Byte) : Bool :=
  let body := st.take (slenOf st - 256)
  let t := st.drop (slenOf st - 256)
  let key := (t.drop 0x30).take 97
  if byteAt st 9 = 1 then s.rootOk key && ecdsaOk key ((t.drop 0x98).take 96) body
  else hmac256 deviceKey body == (t.drop 0x10).take 32

/-- The Warden's check of the staged stream of slot n ends (R288, R289, R291, R294). It waits behind a patch check (21, The Warden). The
command is the moment; the result follows from the stream and the keys: DESIGN CHOICE, log entry 5. A staging read that is uncorrectable, like a refused HINIT write, ends the
load with SOURCE: DEDUCED, log entry 81. -/
def execTagCheckDone (n : Fin 3) (_ended : Unit) (s : State) : Host.Outcome State Fault Refusal :=
  if !s.sec.patch.isEmpty then .next s else
  if s.prs.active ≠ some n ∨ s.slotState n ≠ slotStaged ∨ (s.slot n).admitted then .next s
  else
    let staged := (s.slot n).stream
    let r := match s.partition 3 with
      | some (base, _) => s.hoardRead 26 base staged.length
      | none => (.ok staged, s)
    let s := r.2
    -- a read that is denied gives 0 (R256, R269)
    let st := match r.1 with
      | .ok b => b
      | .denied b => b
      | .uncorrectable => staged
    let arb := byteAt st 16
    if !trailerOk st then .next (s.loadFails n errFormat)
    else if !s.tagOk st then .next (s.loadFails n errTag)
    else if arb ≠ 0xFF ∧ leAt st 12 4 < s.get (Reg.KEY_ARB_VAL arb) then .next (s.loadFails n errRollback)
    else if !tableOk st || !gapsZero st || !sectionsBound st || !modesOk st 0 st.length then .next (s.loadFails n errFormat)
    else match s.admission n st with
      | some c => .next (s.loadFails n c)
      | none =>
        let s := s.claim n st
        if r.1 = .uncorrectable then .next (s.loadFails n errSource)
        else
          let q := s.applyRange n st 0 st.length
          match q.1 with
          | some c => .next (q.2.loadFails n c)
          | none => .next (q.2.setHash n st)

/-! ## Start-up (R298 to R302) -/

/-- What a step does: CLK starts the FORGE PLL, OUT enables the MACs of the slot's ports (R297, R298) and lets its pins be driven
(State.slotOut). GSR and WEN act inside the tiles. DESIGN CHOICE, log entry 79. -/
def State.doStep (s : State) (n step : Nat) : State :=
  let x := s.slot n
  match step with
  | 0 => if (x.bound 2).isEmpty || s.on Reg.PRS_FCLK_MHZ then s else s.set Reg.PRS_FCLK_MHZ x.fclk
  | 3 => x.ports.foldl (fun t p => t.set (Reg.PORT_LCFG_EN p) 1) s
  | _ => s

/-- The last start-up step is done: the load ends as DONE, and the slot's engines leave ENGINE reset, to start at the next Compute (R187,
R299). DEDUCED, log entry 26. -/
def State.loadEnds (s : State) (n : Nat) : State :=
  let x := s.slot n
  let s := (x.bound 1).foldl (fun (t : State) e => t.modEng e (fun g => { g with inReset := false, holdOff := true })) s
  let s := (s.modSlot n (fun y => { y with req := none, file := [], src := none })).endLoad x.req statusDone (s.get (Reg.PRS_PROG_BYTES n)) false
  ({ s with prs := { s.prs with active := none } }.set Reg.PRS_GSTAT_BUSY 0).afterLoad

/-- WAIT_DONE is passed (R301, R313). -/
def State.passDone (s : State) (n : Nat) (after : Option Nat) : State :=
  let s := (s.modSlot n (fun x => { x with passed := true, after := after })).setSlotState n slotStartup
  if s.get (Reg.PRS_STAT_STEP n) = 4 then s.loadEnds n else s

/-- The Gather start that the steps after WAIT_DONE wait for: the first at or after acceptance + 2.0 us, while ticks run and until that
one has been (R301). -/
def State.afterDone (s : State) : Option Nat :=
  let a := s.prs.doneAt + 2000
  if s.running && decide (s.hearth.nominal < a) then some a else none

/-- Every section of slot n's image has been applied: the start-up steps begin. -/
def execSectionApplyDone (n : Fin 3) (s : State) : Host.Outcome State Fault Refusal :=
  let x := s.slot n
  let ready := x.admitted && s.prs.active == some n && (s.slotState n == slotStaged
    || (s.slotState n == slotLoading && !x.stream.isEmpty && x.stream.length == slenOf x.stream))
  if ready then .next ((s.setSlotState n slotStartup).set (Reg.PRS_STAT_STEP n) 0) else .next s

/-- The next start-up step of slot n completes. -/
def execStartUpStep (n : Fin 3) (s : State) : Host.Outcome State Fault Refusal :=
  let i := s.get (Reg.PRS_STAT_STEP n)
  if s.slotState n ≠ slotStartup ∨ 4 ≤ i ∨ (s.slot n).after.isSome then .next s
  else
    let s := (s.doStep n (stepAt (s.stepOrder n) i)).set (Reg.PRS_STAT_STEP n) (i + 1)
    if s.waitAfter n = i + 1 ∧ !(s.slot n).passed then
      (if s.on Reg.PRS_DONECTL_LEVEL then .next (s.passDone n s.afterDone)
       else
        let s := s.setSlotState n slotWaitDone
        .next (if (s.slot n).unload.isEmpty then s else (s.tryUnload false n).afterLoad))
    else if i = 3 then .next (s.loadEnds n)
    else .next s

/-- Does the Engor pull DONE low (R300)? A slot whose ORDER has no WAIT_DONE holds DONE low in STARTUP until its fourth step: DESIGN CHOICE,
log entry 94. -/
def State.doneLow (s : State) : Bool :=
  s.on Reg.PRS_DONECTL_EN && (!s.on Reg.PRS_GSTAT_BOOTDONE || (List.range 3).any (fun n =>
    let st := s.slotState n
    st == slotLoading || st == slotStaged || (st == slotStartup && s.waitAfter n != 0 && !(s.slot n).passed)
      || (st == slotStartup && s.waitAfter n == 0 && decide (s.get (Reg.PRS_STAT_STEP n) < 4))))

/-- The DONE pin rises or falls (R301). DEDUCED, log entry 26. -/
def execDoneEdge (high : Bool) (s : State) : Host.Outcome State Fault Refusal :=
  let s := { s with prs := { s.prs with donePin := high, doneRising := high && !s.prs.donePin || (high && s.prs.doneRising) } }
  .next (if high then s else s.set Reg.PRS_DONECTL_LEVEL 0)

/-- DONE has been sampled high for 1.0 us (R301). DEDUCED, log entry 26. -/
def execDoneAccept (s : State) : Host.Outcome State Fault Refusal :=
  if !(s.prs.donePin && s.prs.doneRising) then .next s
  else
    let s := { s with prs := { s.prs with doneRising := false, doneAt := s.now } }.set Reg.PRS_DONECTL_LEVEL 1
    .next (s.each 3 (fun n t => if t.slotState n = slotWaitDone then t.passDone n t.afterDone else t))

/-- Slot n has waited TMO ms (R302). -/
def execDoneTimeout (n : Fin 3) (s : State) : Host.Outcome State Fault Refusal :=
  if s.slotState n = slotWaitDone ∧ s.on Reg.PRS_DONECTL_TMO then .next (s.loadFails n errDoneTimeout) else .next s

/-- At a Gather start, steps that waited for it may go on (R301). -/
def State.prsGather (s : State) : State :=
  s.each 3 (fun n t => t.modSlot n (fun x => match x.after with
    | some a => if a ≤ t.now then { x with after := none } else x
    | none => x))

/-- The signature of a tile: the CRC-32C of its frames 0 to 1,023 in frame order (R304). -/
def State.tileSig (s : State) (t : Nat) : W32 := crc32c (s.rd (Memory.frame t 0) 65536)

/-- At a Compute start, slots whose start-up is complete reach RUNNING: their engines start (R299), the
anti-rollback counter is raised (R289), the signatures are stored (R304). DEDUCED, log entry 26. -/
def State.prsCompute (s : State) : State :=
  s.each 3 (fun n s =>
    if s.slotState n ≠ slotStartup ∨ s.get (Reg.PRS_STAT_STEP n) ≠ 4 ∨ (s.waitAfter n ≠ 0 ∧ !(s.slot n).passed) then s
    else
      let x := s.slot n
      let s := (s.setSlotState n slotRunning).set (Reg.PRS_STARTTICK_TICK n) s.tick
      let ver := s.get (Reg.PRS_VER_VERSION n)
      let s := if x.arb ≠ 0xFF then (s.raiseArb x.arb ver).2 else s
      if s.get (Reg.PRS_ID_UPMODE n) = 1 then (x.bound 2).foldl (fun t i => t.setWord (Reg.PRS_FT_SIG i) (t.tileSig i)) s else s)

/-! ## Boot autoload (R285) -/

def dirEntry (d : List Byte) (i : Nat) : Nat × Nat := (byteAt d (8 + 8 * i), leAt d (12 + 8 * i) 4)

def dirOk (d : List Byte) : Bool :=
  let n := byteAt d 4
  let es := (List.range (min n 3)).map (dirEntry d)
  leAt d 0 4 == 0x44534941 && leAt d 60 4 == (crc32c (d.take 60)).toNat && decide (1 ≤ n ∧ n ≤ 3) && leAt d 5 3 == 0
    && (List.range (min n 3)).all (fun i => leAt d (9 + 8 * i) 3 == 0) && es.all (fun e => decide (e.1 < 3))
    && decide (es.map (fun e => e.1)).Nodup && (d.drop (8 + 8 * n)).take (52 - 8 * n) == List.replicate (52 - 8 * n) 0

/-- The entries of a directory become load requests; `src` is the source of entry `i` at an offset. -/
def State.bootLoads (s : State) (d : List Byte) (src : Nat → Nat → LoadSrc) : State :=
  if dirOk d then
    let l := (List.range (byteAt d 4)).map (fun i =>
      ({ slot := (dirEntry d i).1, src := src i (dirEntry d i).2, req := none } : LoadReq))
    { s with prs := { s.prs with booting := true, waiting := s.prs.waiting ++ l } }.afterLoad
  else (s.set Reg.PRS_GSTAT_BOOTERR 1).set Reg.PRS_GSTAT_BOOTDONE 1

/-- The loader reads the boot directory; `sfdp` is what the boot SPI flash answers to an SFDP read, `dir` and `images` what it holds at
offset 0 and at each entry's. -/
def execBootAutoload (f : BootFlash) (images : List (List Byte)) (s : State) : Host.Outcome State Fault Refusal :=
  if s.on Reg.PRS_GSTAT_BOOTDONE || s.prs.booting then .next s
  else
    let flash := fun (t : State) =>
      let p := t.spiRead f.sfdp 0 64 f.dir
      p.2.2.bootLoads p.2.1 (fun i off => .flash f.sfdp off (images.getD i []))
    let ing := s.readSrc (.ingot 0) 0 64
    let ingot := ing.2.2.bootLoads ing.2.1 (fun _ off => .ingot off)
    match s.get Reg.PRS_GSTAT_BOOTSRC with
    | 0 => .next (s.set Reg.PRS_GSTAT_BOOTDONE 1)
    | 1 => .next ingot
    | 2 => .next (flash s)
    | _ => .next (if dirOk ing.2.1 then ingot else flash ing.2.2)

/-! ## The boot SPI balls (R723) -/

/-- What a ball does. -/
inductive Ball where
  | highZ
  | low
  | high
  /-- It follows the command in progress. -/
  | active
deriving DecidableEq, Repr

/-- Does the loader still take the file of a load from the boot SPI flash? -/
def State.spiBusy (s : State) : Bool := s.prs.active.any (fun n => match (s.slot n.val).src with
  | some (.flash .., len) => decide (s.get (Reg.PRS_PROG_BYTES n.val) < len)
  | _ => false)

/-- SPI_CS_N: high whenever the loader does not read (R723). -/
def State.spiCsN (s : State) : Ball := if s.spiBusy then .low else .high

/-- SPI_CLK and SPI_IO0 to SPI_IO3: high-impedance whenever the loader does not read (R723). -/
def State.spiBalls (s : State) : Ball := if s.spiBusy then .active else .highZ

/-! ## Readback (R303 to R306) -/

/-- The slot of a tile that readback checks: RUNNING, with upset mode GOLDEN or SCRUB. -/
def State.rbSlot (s : State) (t : Nat) : Option Nat :=
  (List.range 3).find? (fun n => s.slotState n == slotRunning && ((s.slot n).bound 2).contains t
    && (s.get (Reg.PRS_ID_UPMODE n) == 1 || s.get (Reg.PRS_ID_UPMODE n) == 2))

/-- An upset that could not be corrected is reported and may Quench (R304 to R306). -/
def State.upsetReport (s : State) (n t : Nat) (flag : Fld) : State :=
  let s := ((s.set flag 1).count (Reg.PRS_UPCNT_UNC n) 1).record 0x0502 n (t * 2 ^ 32)
  if s.on (Reg.PRS_CFG_UPACT n) then s.quench 3 true else s

/-- Flip a bit of a tile frame: in memory and in the list of wrong bits. -/
def State.flip (s : State) (t f b : Nat) : State :=
  let k := Memory.frame t f + b / 8
  let s := { s with mem := Memory.write s.mem k (Memory.read s.mem k ^^^ BitVec.ofNat 8 (2 ^ (b % 8))) }
  let l := s.prs.upsets
  { s with prs := { s.prs with upsets := if l.contains (t, f, b) then l.filter (fun u => u != (t, f, b)) else (t, f, b) :: l } }

/-- One frame of tile `t` of slot `n` is read. DESIGN CHOICE, log entry 27. -/
def State.rbFrameRead (s : State) (n t f : Nat) : State :=
  if s.get (Reg.PRS_ID_UPMODE n) = 2 then
    match s.prs.upsets.filter (fun u => u.1 == t && u.2.1 == f) with
    | [] => s
    | [u] => ((s.flip t f u.2.2).count (Reg.PRS_UPCNT_CORR n) 1).set (Reg.PRS_STAT_UPSET n) 1
    | _ => s.upsetReport n t (Reg.PRS_STAT_UPUNC n)
  else
    let c := (s.rd (Memory.frame t f) 64).foldl crc32cByte (if f = 0 then 0xFFFFFFFF else s.prs.rbCrc)
    let s := { s with prs := { s.prs with rbCrc := c } }
    if f = 1023 ∧ ~~~ c ≠ s.word (Reg.PRS_FT_SIG t) then s.upsetReport n t (Reg.PRS_STAT_UPSET n) else s

/-- The readback unit reads its next frame, in which the bits `flips` have changed since. DESIGN CHOICE, log entry 27. -/
def execReadbackFrame (flips : List (Fin 512)) (s : State) : Host.Outcome State Fault Refusal :=
  if !s.on Reg.PRS_FCLK_MHZ then .next s
  else
    let t0 := s.prs.rbTile
    let order := (List.range 5).map (fun i => (t0 + i) % 5)
    match order.find? (fun t => (s.rbSlot t).isSome) with
    | none => .next { s with prs := { s.prs with rbFrame := 0 } }
    | some t =>
      match s.rbSlot t with
      | none => .next s
      | some n =>
        let f := if t = t0 then s.prs.rbFrame else 0
        let s := flips.foldl (fun u b => u.flip t f b.val) s
        let s := s.rbFrameRead n t f
        .next { s with prs := { s.prs with rbTile := if f = 1023 then (t + 1) % 5 else t, rbFrame := (f + 1) % 1024 } }

end Sys2Proof.Machine
end

