-- ==== Sys2Proof/Machine/Port.lean ====
section
/-!
DEFINITION. The commands of the MACs and CAN controllers (10): links, frames, PAUSE, gates, preemption, cut-through, delivery.
-/

namespace Sys2Proof.Machine

/-! ## Delivery to the host (R106, R373) -/

/-- A descriptor whose buffer is posted and not filled. -/
def Desc.posted (d : Desc) : Bool := d.started && d.res.isNone && !d.written

/-- The lowest-numbered enabled ring of a kind that a test picks. -/
def State.ringFor (s : State) (kind : Nat) (ok : Nat → Bool) : Option Nat :=
  (List.range 64).find? (fun n => s.get (Reg.RING_CFG_KIND n) == kind && s.on (Reg.RING_CTRL_EN n) && ok n)

/-- Fill consecutive buffers of ring `n`; the last one is PART when the buffers run out. -/
def State.fillBufs (s : State) (n : Nat) (time : W32) (first : Bool) : List Desc → List Byte → State
  | [], _ => s
  | d :: q, b =>
    let part := b.take d.len
    let rest := b.drop d.len
    let s := s.issue (.hostWrite d.addr part)
    let s := s.modDesc n (fun e => e.is d.idx d.gen) (fun e => { e with prog := part.length, flags := some (first, rest.isEmpty) })
    if rest.isEmpty then s.finish n (fun e => e.is d.idx d.gen) statusDone none (some time)
    else if q.isEmpty then
      let s := s.recordRing 0x0202 n d.idx 0 d.tag.toNat
      s.finish n (fun e => e.is d.idx d.gen) statusPart (some s.led16) (some time)
    else (s.finish n (fun e => e.is d.idx d.gen) statusDone none (some time)).fillBufs n time false q rest

/-- The RX ring for a frame (R106): an enabled one; failing that, one that was disabled in this Gather, which has no posted buffer left
(R123). -/
def State.rxRing (s : State) (port cls : Nat) : Option Nat :=
  let fits := fun n => gateBit (s.get (Reg.RING_CFG_SEL n)) port && gateBit (s.get (Reg.RING_CFG_CLS n)) cls
  match s.ringFor 1 fits with
  | some n => some n
  | none =>
    if s.running ∧ s.phase = 0 then
      (List.range 64).find? (fun n => s.get (Reg.RING_CFG_KIND n) == 1 && (s.ring n).offAt == some s.tick && fits n)
    else none

/-- A frame of port 0 to 7 goes to the host. DESIGN CHOICE, log entry 28. -/
def State.deliver (s : State) (port cls : Nat) (b : List Byte) (time : W32) : State :=
  match s.rxRing port cls with
  | none => s.count Reg.RING_NOROUTE_COUNT 1
  | some n =>
    match (s.ring n).q.filter Desc.posted with
    | [] => s.count (Reg.RING_STAT_DROP n) 1
    | l => s.fillBufs n time true l b

/-- Have all RX writes gone out, so that their frames and access units may be released (R319, R347)? The model waits until no write of PF0
waits. DESIGN CHOICE, log entry 95. -/
def State.rxWritten (s : State) : Bool := s.hif.rxQ.isEmpty && !s.outWait.any Output.isWrite

/-- Does a frame or an access unit wait for its RX write? -/
def State.dueHeld (s : State) : Bool :=
  s.ports.any (fun (x : Port) => x.rx.any (fun r => r.due)) || s.cans.any (fun (x : Can) => x.rx.any (fun r => r.due))
    || s.video.any (fun (v : Video) => !v.leaving.isEmpty)

/-- A host frame whose RX write has completed. -/
def RxFrame.written (r : RxFrame) : List RxFrame :=
  if !r.due then [r] else if r.fwd.isEmpty then [] else [{ r with due := false }]

/-- What waits for its RX write is released once it has completed (R319, R347). -/
def State.releaseDue (s : State) : State :=
  if !(s.rxWritten && s.dueHeld) then s
  else
    let s := { s with
      ports := s.ports.map (fun (x : Port) => { x with rx := x.rx.flatMap RxFrame.written })
      cans := s.cans.map (fun (x : Can) => { x with rx := x.rx.flatMap RxFrame.written })
      video := s.video.map (fun (v : Video) => { v with leaving := [] }) }
    s.each 6 (fun p t => t.pauseCheck p)

/-- The frames that the Gather has handed over are written to the host at its end, when no disable can fall into it any more (R123): those of
class 7 ahead of every write that waits, the others behind (R75, R95). DESIGN CHOICE, log entry 95. -/
def State.deliverRx (s : State) : State :=
  let put := fun (t : State) (f : HostFrame) => t.deliver f.port f.cls f.bytes f.time
  let t := (s.hif.rxQ.filter (fun f => f.cls == 7)).foldl put { s with outWait := [], hif := { s.hif with rxQ := [] } }
  let t := { t with outWait := t.outWait ++ s.outWait }.drainWait
  ((s.hif.rxQ.filter (fun f => f.cls != 7)).foldl put t).releaseDue

/-! ## The receive region (R319, R336) -/

/-- Is the PAUSE to be sent again: the occupancy is at or above XON still, and half of the time of the last one has passed (R336)? -/
def State.refreshDue (s : State) (p : Nat) : Bool :=
  (s.port p).xoff && decide (s.get (Reg.PORT_PTHR_XON p) * 1024 ≤ s.occupancy p)
    && s.on (Reg.PORT_PCFG_TXEN p) && s.portUp p && s.portFdx p
    && decide ((s.port p).pauseSent + s.get (Reg.PORT_PCFG_QUANTA p) * 256000 / s.rate p ≤ s.now)

def execPauseRefresh (p : Fin 6) (s : State) : Host.Outcome State Fault Refusal :=
  .next (if s.refreshDue p then s.queuePause p (s.get (Reg.PORT_PCFG_QUANTA p)) else s)

/-! ## PAUSE received (R333 to R335) -/

/-- A valid PAUSE arrives: the selector ends the running fragment of a preemptable frame when Clause 99 permits (R84, R334). -/
def State.takePause (s : State) (p quanta : Nat) : State :=
  if !(s.on (Reg.PORT_PCFG_RXEN p) && s.portUp p && s.portFdx p) then s
  else
    let s := s.credits p
    let s := (s.modPort p (fun x => { x with pauseEnd := if quanta = 0 then none else some (s.now + quanta * 512000 / s.rate p) })).set
      (Reg.PORT_PSTAT_PAUSED p) (if quanta = 0 then 0 else 1)
    ((s.set (Reg.PORT_PSTAT_REMAIN p) quanta).checkVoid p).select p

def execPause (p : Fin 6) (quanta : BitVec 16) (s : State) : Host.Outcome State Fault Refusal := .next (s.takePause p quanta.toNat)

/-- Has the time of the PAUSE in force passed (R334)? -/
def State.pauseOver (s : State) (p : Nat) : Bool := (s.port p).pauseEnd.any (fun t => decide (t ≤ s.now))

/-- The hold of a PAUSE ends (R334): RXEN written to 0 meanwhile does not keep it. -/
def State.endPause (s : State) (p : Nat) : State :=
  (((((s.credits p).modPort p (fun x => { x with pauseEnd := none })).set (Reg.PORT_PSTAT_PAUSED p) 0).set
    (Reg.PORT_PSTAT_REMAIN p) 0).checkVoid p).select p

def execPauseExpiry (p : Fin 6) (s : State) : Host.Outcome State Fault Refusal := .next (if s.pauseOver p then s.endPause p else s)

/-- Quanta that remain of a PAUSE in force. -/
def State.pauseRemain (s : State) (p : Nat) : Nat :=
  match (s.port p).pauseEnd with
  | none => 0
  | some t => ((t - s.now) * s.rate p + 511999) / 512000

/-! ## Links -/

/-- Preemption after a change of EN, NOVERIFY or the link (R325). -/
def State.preUpdate (s : State) (p : Nat) : State :=
  if !(s.on (Reg.PORT_PRE_EN p) && s.portUp p && s.portFdx p) then
    (s.set (Reg.PORT_PRE_ACTIVE p) 0).set (Reg.PORT_PRE_VSTAT p) 0
  else if s.on (Reg.PORT_PRE_NOVERIFY p) then (s.set (Reg.PORT_PRE_ACTIVE p) 1).set (Reg.PORT_PRE_VSTAT p) 0
  else if s.get (Reg.PORT_PRE_VSTAT p) = 0 then
    (((s.set (Reg.PORT_PRE_ACTIVE p) 0).set (Reg.PORT_PRE_VSTAT p) 1).modPort p (fun x => { x with vtries := 0 })).send (.verify p false)
  else s.setB (Reg.PORT_PRE_ACTIVE p) (s.get (Reg.PORT_PRE_VSTAT p) == 2)

/-- Is this a copy of a frame that port `p` forwards cut through? -/
def Frame.cutFrom (p : Nat) (f : Frame) : Bool := f.cutThrough && f.src == .fwd p

/-- Does egress `e` send, or hold the rest of, a frame that port `p` forwards cut through? -/
def State.cutsOn (s : State) (p e : Nat) : Bool := ((s.port e).wire.toList ++ (s.port e).preempted.toList).any (Frame.cutFrom p)

/-- Egress `e` ends a frame that port `p` forwards cut through with the stomp code (R339, R341, R356); its last bit asserts transmit done
(R320). -/
def State.cutEgress (s : State) (p : Nat) (code : W32) (e : Nat) : State :=
  if !s.cutsOn p e then s
  else
    let rest := fun (o : Option Frame) => o.filter (fun f => !f.cutFrom p)
    ((((s.send (.txCut e (some code))).count (Reg.PORT_STOMP_TX e) 1).modPort e (fun x => { x with
      wire := rest x.wire, preempted := rest x.preempted })).registerAll (6 + e)).select e

/-- The stomp code over the bytes that the egress has sent (R339): all of these, or as many as the model does not know, when the code is a free
value. DESIGN CHOICE, log entry 29. -/
def State.stompOf (s : State) (b : Option (List Byte)) : W32 × State :=
  match b with
  | some b => (stompCode b, s)
  | none => (s.free.1.setWidth 32, s.free.2)

/-- The frame that port `p` forwards cut through ends on its egresses with the stomp code (R339, R341, R356). -/
def State.stompOut (s : State) (p : Nat) (b : Option (List Byte)) : State :=
  match (s.port p).ct with
  | none => s
  | some c => if c.egress.isEmpty then s else
    let r := s.stompOf b
    r.2.onOneEdge (fun s => c.egress.foldl (fun t e => t.cutEgress p r.1 e) s)

/-- Is the mode one that the port can bring up, and the link's outcome one it accepts (R314)? -/
def modeAccepts (p mode speed : Nat) (fdx : Bool) : Bool :=
  if p < 4 then
    decide (speed < 2) && (match mode with
      | 0 => true
      | 1 => speed == 0 && !fdx
      | 2 => speed == 0 && fdx
      | 3 => speed == 1 && !fdx
      | 4 => speed == 1 && fdx
      | _ => false)
  else fdx && (match mode with
    | 0 => decide (speed < 3)
    | 1 => speed == 2
    | 2 => speed == 3
    | _ => false)

/-- Is the port's PHY held down, by a reset, HIBERNATE or, on an FP port, a TAP instruction (R626, R643, R726)? -/
def State.phyOff (s : State) (p : Nat) : Bool := s.power.reset.isSome || s.get Reg.PWR_STAT_STATE == 3 || (s.tap.hold && decide (p < 4))

def execLinkUp (p : Fin 6) (speed : Fin 4) (fdx : Bool) (s : State) : Host.Outcome State Fault Refusal :=
  if !s.on (Reg.PORT_LCFG_EN p) || !modeAccepts p (s.get (Reg.PORT_LCFG_MODE p)) speed fdx || s.portUp p || s.phyOff p then .next s
  else
    let s := ((s.set (Reg.PORT_LSTAT_UP p) 1).set (Reg.PORT_LSTAT_SPEED p) speed.val).setB (Reg.PORT_LSTAT_FDX p) fdx
    .next (((s.set (Reg.PORT_LSTAT_LCHG p) 1).preUpdate p).select p)

/-- The link of port p goes down; `sent` bytes of the frame on the wire were sent (R316, R356, R357). -/
def State.linkFalls (s : State) (p sent : Nat) : State :=
  if !s.portUp p then s
  else
    let s := s.stompOut p none
    let copies := ((s.port p).wire.toList ++ (s.port p).preempted.toList).filter (fun f => f.cutThrough)
    ((if copies.isEmpty then s else s.count (Reg.PORT_DROP_LINK p) copies.length)).portDown p sent

def execLinkDown (p : Fin 6) (sent : BitVec 16) (s : State) : Host.Outcome State Fault Refusal := .next (s.linkFalls p sent.toNat)

def execPreemptVerifyTimeout (p : Fin 6) (s : State) : Host.Outcome State Fault Refusal :=
  if s.get (Reg.PORT_PRE_VSTAT p) ≠ 1 then .next s
  else
    let s := s.modPort p (fun x => { x with vtries := x.vtries + 1 })
    .next (if 3 ≤ (s.port p).vtries then s.set (Reg.PORT_PRE_VSTAT p) 3 else s.send (.verify p false))

/-- A verify mPacket (response false) or a valid response arrives. -/
def execPreemptVerifyResponse (p : Fin 6) (response : Bool) (s : State) : Host.Outcome State Fault Refusal :=
  if response && s.get (Reg.PORT_PRE_VSTAT p) == 1 then
    .next (((s.set (Reg.PORT_PRE_VSTAT p) 2).preUpdate p).select p)
  else if !response && s.on (Reg.PORT_PRE_EN p) && s.portUp p && s.portFdx p then .next (s.send (.verify p true))
  else .next s

/-! ## Receive (R318 to R321, R337 to R340, R44) -/

/-- A collision in half duplex: the frame is cut (its jam follows) and waits out a backoff of a random number of slots of 512 bit
times below 2^min(n, 10), n its own collisions; the 16th discards it (R315, Clause 4). The random number is a free value. PRESUMED, log
entry 68. -/
def State.collide (s : State) (p : Nat) : State :=
  match (s.port p).wire with
  | none => s
  | some f =>
    let n := f.tries + 1
    let r := (s.send (.txCut p none)).free
    if 16 ≤ n then
      let s := r.2.modPort p (fun x => { x with wire := none })
      match f.src with
      | .ring k i => s.endTx k i statusFail 0 (some (r.1.setWidth 16)) (s.startTime p f)
      | _ => s.failFrame p f 0 true
    else r.2.modPort p (fun x => { x with
      wire := none, q := { f with tries := n, retry := some (s.now + r.1.toNat % 2 ^ min n 10 * (512000 / s.rate p)) } :: x.q })

/-- An SFD arrives. In half duplex the transmitter defers from here on, and a frame that it is sending has collided (R315). -/
def execStartOfFrame (p : Fin 6) (s : State) : Host.Outcome State Fault Refusal :=
  if !(s.portUp p && s.on (Reg.PORT_LCFG_EN p)) then .next s
  else
    let t := (s.modPort p (fun x => { x with sof := s.now })).registerAll p
    .next (if s.portFdx p then t else (t.modPort p (fun x => { x with rxBusy := true })).collide p)

/-- VLAN priority of a frame with one IEEE 802.1Q tag. -/
def vlanPrio (b : List Byte) : Option Nat := if byteAt b 12 = 0x81 ∧ byteAt b 13 = 0x00 then some (byteAt b 14 / 32) else none

/-- The class PMAP gives (R321). -/
def State.pmap (s : State) (p : Nat) (b : List Byte) : Nat :=
  match vlanPrio b with
  | some q => fieldGet (s.word (Reg.PORT_PMAP p)) (3 * q) 3
  | none => s.get (Reg.PORT_PMAP_UNTAG p)

/-- The class of a received frame; `own` is the personality's classification, when it gives one. -/
def State.classify (s : State) (p : Nat) (b : List Byte) (own : Option Nat) : Nat :=
  match own with
  | some c => if s.portOwner p = 3 then s.pmap p b else c
  | none => s.pmap p b

/-- Egress ports of a frame forwarded from FP port `p` (R337). -/
def State.egresses (s : State) (p : Nat) : List Nat :=
  if p < 4 ∧ s.on (Reg.PORT_FWD_CTEN p) then
    (List.range 4).filter (fun e => e != p && gateBit (s.get (Reg.PORT_FWD_EGR p)) e && s.portOwner e == s.portOwner p)
  else []

/-- Is this a PAUSE (R333)? -/
def isPauseFrame (b : List Byte) : Bool :=
  b.take 6 == [0x01, 0x80, 0xC2, 0x00, 0x00, 0x01] && (b.drop 12).take 4 == [0x88, 0x08, 0x00, 0x01]

/-- Can a frame that begins with these bytes still turn out to be a PAUSE, which is never forwarded (R333)? Such a frame is held until it is
complete. DEDUCED, log entry 87. -/
def maybePause (b : List Byte) : Bool :=
  b.take 6 == [0x01, 0x80, 0xC2, 0x00, 0x00, 0x01] && (b.drop 12).take 4 == ([0x88, 0x08, 0x00, 0x01] : List Byte).take (b.length - 12)

/-- Does a forwarded frame start cut through on egress `e` now (R338)? -/
def State.cutOk (s : State) (p e cls : Nat) : Bool :=
  let x := s.port e
  s.portUp e && s.portFdx e && s.on (Reg.PORT_LCFG_EN e) && s.rate e == s.rate p && x.wire.isNone && (x.preempted.isNone || s.express e cls)
    && !x.q.any (fun f => decide ((if cls = 7 then 8 else cls) ≤ f.prio) && s.eligible e f) && !s.paused e cls
    && (s.preemptable e cls && s.gateOpen e cls || (s.gateOpen e cls && (!s.gated e || cls == 7 || (match s.closesIn e cls with
      | none => true
      | some n => decide (s.lineTime e 1538 ≤ n * 10)))))

/-- Has a tile the cut-through path from FP port `p` to egress `e` (R295, type 3), since its slot's OUT step? -/
def State.tiledPair (s : State) (p e : Nat) : Bool :=
  (List.range 3).any (fun n => s.slotOut n && (s.slot n).binds.any (fun b => b.1 == 2 &&
    ((byteAt b.2.2 0 == 3 && byteAt b.2.2 1 == p * 4 + e) || (byteAt b.2.2 2 == 3 && byteAt b.2.2 3 == p * 4 + e))))

/-- A tile aborts the frame that port `p` forwards cut through (R296, R356): each egress whose path has a tile and that is still sending it
ends it with the stomp code, also when its last byte has been received; the others, and the copies that are held, go on. -/
def State.tileAbort (s : State) (p : Nat) : State :=
  let cut := (List.range 4).filter (fun e => s.tiledPair p e && s.cutsOn p e)
  if cut.isEmpty then s
  else
    let r := s.stompOf none
    (cut.foldl (fun t e => t.cutEgress p r.1 e) r.2).modPort p (fun x => { x with
      ct := x.ct.map (fun c => { c with egress := c.egress.filter (fun e => !cut.contains e) }) })

/-- Bytes after which a forwarded frame starts (R338). -/
def State.ctStart (s : State) (p : Nat) : Nat := max 14 (min 64 (s.get (Reg.PORT_FWD_CTSTART p)))

/-- The ingress has received CTSTART bytes, these ones, of a frame that no tile marks local and that it forwards (R337, R338), and nothing happens
on fewer; or a tile on its cut-through path aborts the frame in progress. DESIGN CHOICE, log entry 29. -/
def execCutThroughStart (p : Fin 4) (b : List Byte) (ev : CutEvent) (s : State) : Host.Outcome State Fault Refusal :=
  match ev with
  | .abort => .next (s.tileAbort p)
  | .frame cls loc =>
    if loc || decide (b.length < s.ctStart p) || (s.egresses p).isEmpty || (s.port p).ct.isSome || !s.portUp p then .next s
    else
      let c := s.classify p b (cls.map (fun x => x.val))
      let es := s.egresses p
      let go := es.filter (fun e => s.cutOk p e c && !(maybePause b && s.portFdx p))
      let s := go.foldl (fun (t : State) e =>
        let f : Frame := { bytes := b, hasFcs := true, cls := c, src := .fwd p, k := 0, bound := none, start := t.now, cut := false, seg := t.now, cutThrough := true, recv := true }
        ((t.credits e).modPort e (fun x => { x with wire := some f })).send (.txStart e b true)) s
      .next (s.modPort p (fun x => { x with ct := some { egress := go, held := es.filter (fun e => !go.contains e), stomped := false } }))

def execCutThroughOverlength (p : Fin 4) (s : State) : Host.Outcome State Fault Refusal :=
  match (s.port p).ct with
  | none => .next s
  | some c => if c.stomped then .next s else
    .next (((s.stompOut p none).modPort p (fun x => { x with ct := some { egress := [], held := [], stomped := true, long := true } })).count
      (Reg.PORT_DROP_LEN p) 1)

/-- The frame in reception on `p` is over. -/
def State.endCut (s : State) (p : Nat) : State := s.modPort p (fun x => { x with ct := none })

/-- A frame's bytes go into its port's region, round its end (R319). DESIGN CHOICE, log entry 28. -/
def State.storeRx (s : State) (p : Nat) (r : RxFrame) : State :=
  let at_ := (s.port p).rxAt
  let base := 0x20000000 + p * 0x20000
  let room := 0x20000 - at_
  let s := (s.wr (base + at_) (r.bytes.take room)).wr base (r.bytes.drop room)
  s.modPort p (fun x => { x with rx := x.rx ++ [{ r with pos := at_ }], rxAt := (at_ + r.bytes.length) % 0x20000 })

/-- How the FCS at the end of a received frame checks (R340): right (0), wrong (1), or the stomp code (2), the complement of the right one. -/
def fcsCheck (b : List Byte) : Nat :=
  let c := stompCode (b.take (b.length - 4))
  let f := BitVec.ofNat 32 (leAt b (b.length - 4) 4)
  if f = ~~~ c then 0 else if f = c then 2 else 1

/-- The low 32 bits of the receive time of the frame received on port `p`, in the link's mode (R371, R373). -/
def State.rxTime (s : State) (p : Nat) : W32 := BitVec.ofInt 32 (((s.port p).sof : Int) - (s.latencies p).1)

/-- The copies that egresses send cut through of the frame received on `p` go on with all of its bytes. -/
def State.wholeCut (s : State) (p : Nat) (b : List Byte) : State :=
  let f := fun (o : Option Frame) => o.map (fun (f : Frame) => if f.recv && f.cutFrom p then { f with bytes := b, recv := false } else f)
  s.each 4 (fun e t => t.modPort e (fun y => { y with wire := f y.wire, preempted := f y.preempted }))

/-- A frame with its FCS has been received on port p. `cls`: the class a personality's classification gives; `loc`: an attached
tile marks it local, so that what an egress sends of it ends with the stomp code; `toHost`: the personality that owns the port delivers it to
the host. DESIGN CHOICE, log entry 29. -/
def State.receive (s : State) (p : Nat) (b : List Byte) (cls : Option Nat) (loc toHost : Bool) : State :=
  let chk := fcsCheck b
  let body := some (b.take (b.length - 4))
  let long := match (s.port p).ct with
    | some x => x.long
    | none => false
  if b.length < 64 ∨ 1522 < b.length then
    let s := (s.stompOut p body).endCut p
    if long then s else s.count (Reg.PORT_DROP_LEN p) 1
  else if chk ≠ 0 then
    ((s.stompOut p body).endCut p).count (if chk = 2 then Reg.PORT_STOMP_RX p else Reg.PORT_DROP_FCS p) 1
  else if isPauseFrame b && s.portFdx p then
    (s.endCut p).takePause p (byteAt b 16 * 256 + byteAt b 17)
  else
    let c := s.classify p b cls
    let ct := (s.port p).ct
    let store := match ct with
      | some x => x.held
      | none => s.egresses p
    let stomped := match ct with
      | some x => x.stomped
      | none => false
    let fwd := if loc || stomped || decide (1518 < b.length) then [] else store.filter (fun e => s.portUp e)
    let s := (if loc then s.stompOut p body else s.wholeCut p b).endCut p
    -- a frame that is too long to be forwarded (R341)
    let s := if 1518 < b.length ∧ !loc ∧ !store.isEmpty then s.count (Reg.PORT_DROP_LEN p) 1 else s
    let k := s.cbReceive p b
    -- a frame that loses its redundancy tag here and is forwarded with it is kept twice
    let size := match k.1 with
      | some i => i.length + (if i = b ∨ fwd.isEmpty then 0 else b.length)
      | none => if fwd.isEmpty then 0 else b.length
    if 0x20000 < s.occupancy p + size then s.count (Reg.PORT_DROP_RXOVF p) 1
    else
      let r : RxFrame := {
        bytes := b, cls := c, t := s.now, sof := (s.port p).sof, handed := none, fwd := fwd, own := true, toHost := toHost, time := s.rxTime p }
      let s := match k.1 with
        | some i => if i = b then k.2.storeRx p r
            else (if fwd.isEmpty then k.2 else k.2.storeRx p { r with own := false }).storeRx p { r with bytes := i, fwd := [] }
        | none => if fwd.isEmpty then k.2 else k.2.storeRx p { r with own := false }
      let s := fwd.foldl (fun (t : State) e =>
        (t.join e { bytes := b, hasFcs := true, cls := c, src := .fwd p, k := t.tick, bound := none, start := 0, cut := false } false).select e) s
      s.pauseCheck p

/-- What is left of a received frame whose consumer on this port is done with it. -/
def RxFrame.gone (r : RxFrame) : List RxFrame := if r.fwd.isEmpty then [] else [{ r with own := false }]

/-- A frame handed to an engine task is released at the second Gather start after the handover (R319). -/
def RxFrame.release (r : RxFrame) : List RxFrame :=
  match r.handed with
  | some n => if !r.own then [r] else if 1 ≤ n then r.gone else [{ r with handed := some (n + 1) }]
  | none => [r]

/-- One more Gather start for the frames that are with an engine task. -/
def State.releaseRx (s : State) : State :=
  { s with
    ports := s.ports.map (fun (x : Port) => { x with rx := x.rx.flatMap RxFrame.release })
    cans := s.cans.map (fun (x : Can) => { x with rx := x.rx.flatMap RxFrame.release }) }

/-- One frame of port 0 to 7 at a Gather start: handed over once 2.0 us have passed since its last byte, to the host, or to an engine task of
the personality that owns the port (R44, R106). The result: the frame as it stays; and its delivery. The spec names no address at which a task
finds a received CAN frame; the model keeps its bytes in `Can.rx`, which no access reaches. DESIGN CHOICE, log entry 94. -/
def State.gatherFrame (s : State) (p : Nat) (cls7 : Bool) (r : RxFrame) : List RxFrame × State :=
  if !r.own ∨ r.handed.isSome ∨ s.now < r.t + 2000 ∨ (r.cls == 7) ≠ cls7 then ([r], s)
  else if s.portOwner p = 3 ∨ r.toHost then
    ([{ r with own := false, due := true }],
      { s with hif := { s.hif with rxQ := s.hif.rxQ ++ [{ port := p, cls := r.cls, bytes := r.bytes, time := r.time }] } })
  else ([{ r with handed := some 0 }], s)

/-- The frames of one port at a Gather start. -/
def State.gatherFrames (s : State) (p : Nat) (cls7 : Bool) (l : List RxFrame) : List RxFrame × State :=
  l.foldl (fun (a : List RxFrame × State) r => let y := a.2.gatherFrame p cls7 r; (a.1 ++ y.1, y.2)) ([], s)

/-- Handover of every port's frames of class 7, or of the others. -/
def State.handover (s : State) (cls7 : Bool) : State :=
  let s := s.each 6 (fun p t =>
    let x := t.gatherFrames p cls7 (t.port p).rx
    (x.2.modPort p (fun y => { y with rx := x.1 })).pauseCheck p)
  s.each 2 (fun c t =>
    let x := t.gatherFrames (6 + c) cls7 (t.cans.getD c Can.zero).rx
    { x.2 with cans := x.2.cans.setIfInBounds c { (x.2.cans.getD c Can.zero) with rx := x.1 } })

/-! ## Transmit (R320, R372, R373) -/

/-- The transmit time of a frame whose last bit has just been sent: floor of E - TXLAT - 8 L / rate. -/
def State.txTime (s : State) (p : Nat) (f : Frame) : W32 :=
  let x : Int := (s.tb.toNat : Int) * 10 - ((s.latencies p).2 * 10 + s.lineTime p f.lenFcs) * 2 ^ 28
  BitVec.ofInt 32 (x / (10 * 2 ^ 28))

/-- The last bit of the frame on port p's wire has been sent. -/
def execTransmitDone (p : Fin 6) (s : State) : Host.Outcome State Fault Refusal :=
  match (s.port p).wire with
  | none => .next s
  | some f =>
    let s := (s.credits p).modPort p (fun x => { x with wire := none })
    -- an uncorrectable granule behind the bytes sent (R263)
    let s := if f.bad then (s.send (.txCut p (some (stompCode f.wireBytes)))).count (Reg.PORT_STOMP_TX p) 1 else s
    let s := s.registerAll (6 + p.val)
    let s := match f.src with
      | .ring r i => s.endTx r i statusDone f.bytes.length none (if f.cut then none else some (s.txTime p f))
      | .fwd i => s.fwdGone i p f
      | _ => s
    .next (s.select p)

/-- The credit of a shaped class rises to 0 on a free wire. -/
def execShaperCreditZero (p : Fin 6) (c : Fin 2) (s : State) : Host.Outcome State Fault Refusal :=
  let s := s.credits p
  let n := c.val + 1
  if s.shaped p n && decide ((s.port p).credit n < 0) && (s.port p).q.any (fun f => f.cls == n) then
    .next ((s.modPort p (fun x => x.setCredit n 0)).select p)
  else .next s

/-! ## Gates (R328 to R330) -/

/-- The administrative list becomes operational. -/
def State.swapGates (s : State) (p : Nat) : State :=
  (s.modPort p (fun x => { x with gates := s.adminGates p, gateIdx := 0, commitAt := none })).set (Reg.PORT_GCTL_PEND p) 0

/-- PORT_n_GCTL is written. -/
def State.writeGctl (s : State) (p : Nat) (v : W32) : State :=
  let s := (s.credits p).set (Reg.PORT_GCTL_EN p) (fieldGet v 0 1) |>.set (Reg.PORT_GCTL_NENT p) (fieldGet v 8 5)
  let s := if fieldGet v 1 1 = 0 then s
    else if s.running then (s.set (Reg.PORT_GCTL_PEND p) 1).modPort p (fun x => { x with commitAt := x.commitAt.or (some s.now) })
    else s.swapGates p
  s.select p

def execGateListCommit (w : Who) (p : Fin 6) (v : BitVec 32) (s : State) : Host.Outcome State Fault Refusal :=
  .next (s.owned w (Reg.PORT_GCTL p) (fun s => s.writeGctl p v))

/-- Has the time come for the next entry of port p's operational list? An entry that would start at or after TP does not run (R329). -/
def State.gateDue (s : State) (p : Nat) : Bool :=
  let x := s.port p
  let at_ := (x.gates.take (x.gateIdx + 1)).foldl (fun n g => n + g.2 * 10) 0
  s.running && decide (x.gateIdx + 1 < x.gates.length) && decide (at_ < s.tp)
    && decide (s.hearth.nominal + at_ ≤ s.now)

/-- The next entry of port p's operational list begins; a class whose gate it closes has its fragment ended by the selector (R330). -/
def execGateEntryStart (p : Fin 6) (s : State) : Host.Outcome State Fault Refusal :=
  if s.gateDue p then
    let s := (s.credits p).modPort p (fun x => { x with gateIdx := x.gateIdx + 1 })
    .next (s.select p)
  else .next s

/-- Longest stretch in ns for which class `c` stays open in a list; `n` is the stretch so far. -/
def openSpan (c : Nat) : Nat → List (Nat × Nat) → Nat
  | n, [] => n
  | n, (g, d) :: r => if gateBit g c then openSpan c (n + d) r else max n (openSpan c 0 r)

/-- The frames at the heads of queues that are longer than every open window are discarded, preemptable ones too (R330). -/
def State.noFit (s : State) (p : Nat) : State :=
  if !s.gated p then s
  else
    let l := cutTo 0 s.tp ((s.port p).gates.map (fun x => (x.1, x.2 * 10)))
    (List.range 7).foldl (fun (t : State) c =>
      match (t.port p).q.find? (fun f => f.cls == c && !f.isPause) with
      | none => t
      | some f =>
        if l.any (fun x => !gateBit x.1 c) && decide (openSpan c 0 (l ++ l) * 10 < t.wireTime p f) then
          ((t.modPort p (fun x => { x with q := x.q.erase f })).record 0x0603 p f.lenFcs).failFrame p f 0 false
        else t) s

/-- Can a class-7 frame still come that counts to tick `k` (R73, R324)? In this tick or later, or a host frame whose descriptor is not
complete, or has been shown by a read of tick `k` or before and not been fetched, so that its target tick may be `k`. -/
def State.openTick (s : State) (k : Nat) : Bool :=
  decide (s.tick ≤ k) || (List.range 64).any (fun n =>
    (s.ring n).shown.any (fun x => decide (x.2 ≤ k)) || (s.ring n).q.any (fun d => d.opcode == 0x01 && !d.written && d.tickK == k))

/-- A tick start at the ports: the gate cycle starts, a committed list is taken, and what fits no window goes. -/
def State.portsTick (s : State) : State :=
  s.each 6 (fun p t =>
    let t := t.credits p
    let t := if t.commitBy p t.now then t.swapGates p else t
    let t := t.modPort p (fun x => { x with gateIdx := 0, used7 := x.used7.filter (fun u => t.openTick u.1) })
    (t.noFit p).select p)

/-! ## CAN (R350, R351, R360) -/

def State.can (s : State) (c : Nat) : Can := s.cans.getD c Can.zero
def State.modCan (s : State) (c : Nat) (f : Can → Can) : State := { s with cans := s.cans.setIfInBounds c (f (s.can c)) }

/-- Bit FDF of the CAN buffer layout (R350). -/
def canFdf (b : List Byte) : Bool := byteAt b 4 / 16 % 2 == 1

/-- On a free bus the oldest frame of the highest non-empty class goes. A classical controller sends no frame with FDF, which waits until
FDEN is set, while the others go: DESIGN CHOICE, log entry 87. -/
def State.canSelect (s : State) (c : Nat) : State :=
  let x := s.can c
  if x.wire.isSome ∨ !s.on (Reg.PORT_CAN_CFG_EN c) ∨ s.get (Reg.PORT_CAN_STAT_STATE c) = 2 then s
  else match (List.range 8).reverse.findSome? (fun k => x.q.find? (fun f => f.cls == k && (s.on (Reg.PORT_CAN_CFG_FDEN c) || !canFdf f.bytes))) with
    | none => s
    | some f =>
      (s.modCan c (fun y => { y with q := y.q.erase f, wire := some { f with start := s.now } })).send (.txStart (6 + c) f.bytes true)

/-- A frame of a CAN queue ends. -/
def State.endCan (s : State) (f : Frame) (st sent : Nat) (led : Option (BitVec 16)) (time : Option W32) : State :=
  match f.src with
  | .ring r i => s.endTx r i st sent led time
  | _ => s

/-- The error counters of controller `c` take these values. -/
def State.canErrs (s : State) (c tec rec : Nat) : State :=
  let s := (s.set (Reg.PORT_CAN_STAT_TEC c) tec).set (Reg.PORT_CAN_STAT_REC c) rec
  if s.get (Reg.PORT_CAN_STAT_STATE c) = 2 then s else s.set (Reg.PORT_CAN_STAT_STATE c) (if 128 ≤ tec ∨ 128 ≤ rec then 1 else 0)

/-- DESIGN CHOICE, log entry 29. -/
def execCanFrameTransmitted (c : Fin 2) (tec rec : BitVec 8) (s : State) : Host.Outcome State Fault Refusal :=
  match (s.can c).wire with
  | none => .next s
  | some f =>
    let s := (s.canErrs c tec.toNat rec.toNat).modCan c (fun x => { x with wire := none })
    .next ((s.endCan f statusDone f.bytes.length none (some (BitVec.ofNat 32 f.start))).canSelect c)

/-- The frame that was on the bus goes back to its place in the queue and the controller chooses again. -/
def State.canRetry (s : State) (c : Nat) : State :=
  match (s.can c).wire with
  | none => s
  | some f => (s.modCan c (fun x => { x with wire := none, q := f :: x.q })).canSelect c

def execCanArbitrationLost (c : Fin 2) (s : State) : Host.Outcome State Fault Refusal := .next (s.canRetry c)

/-- DESIGN CHOICE, log entry 29. -/
def execCanBusError (c : Fin 2) (tec rec : BitVec 8) (s : State) : Host.Outcome State Fault Refusal :=
  .next ((s.canErrs c tec.toNat rec.toNat).canRetry c)

/-- A frame in the CAN buffer layout is received: it registers and waits for its consumer; where an engine task finds it the spec does not say
(log entry 94). DESIGN CHOICE, log entry 28. DESIGN CHOICE, log entry 29. -/
def execCanFrameReceived (c : Fin 2) (f : CanRx) (tec rec : BitVec 8) (s : State) : Host.Outcome State Fault Refusal :=
  if f.bytes.length < 8 ∨ 72 < f.bytes.length then .fault .illFormed
  else if !s.on (Reg.PORT_CAN_CFG_EN c) || s.get (Reg.PORT_CAN_STAT_STATE c) == 2 then .next s
  -- a classical controller takes an FD frame as the protocol exception event (R350)
  else if canFdf f.bytes ∧ !s.on (Reg.PORT_CAN_CFG_FDEN c) then .next s
  else
    let s := s.canErrs c tec.toNat rec.toNat
    let r : RxFrame := { bytes := f.bytes, cls := 0, t := s.now, sof := s.now, handed := none, fwd := [], own := true, toHost := f.toHost, time := BitVec.ofNat 32 s.now }
    .next ((s.modCan c (fun x => { x with rx := x.rx ++ [r] })).registerAll (12 + c.val))

def execCanBusoff (c : Fin 2) (s : State) : Host.Outcome State Fault Refusal :=
  if s.get (Reg.PORT_CAN_STAT_STATE c) = 2 then .next s
  else
    let x := s.can c
    let s := (s.set (Reg.PORT_CAN_STAT_STATE c) 2).set (Reg.PORT_CAN_STAT_BOFF c) 1
    let s := s.record 0x0604 (6 + c.val) 0
    let s := s.modCan c (fun y => { y with q := [], wire := none, recovering := s.on (Reg.PORT_CAN_CFG_AUTOREC c) })
    let fs := match x.wire with
      | some f => f :: x.q
      | none => x.q
    .next (fs.foldl (fun t f => t.endCan f statusFail 0 (some t.led16) none) s)

def execCanBusoffRecovery (c : Fin 2) (s : State) : Host.Outcome State Fault Refusal :=
  if !(s.can c).recovering then .next s
  else
    let s := (s.set (Reg.PORT_CAN_STAT_STATE c) 0).set (Reg.PORT_CAN_STAT_TEC c) 0 |>.set (Reg.PORT_CAN_STAT_REC c) 0
    .next ((s.modCan c (fun x => { x with recovering := false })).canSelect c)

/-- RECOVER is written to 1. -/
def State.canRecover (s : State) (c : Nat) : State :=
  if s.get (Reg.PORT_CAN_STAT_STATE c) = 2 then s.modCan c (fun x => { x with recovering := true }) else s

def execCanRecover (w : Who) (c : Fin 2) (s : State) : Host.Outcome State Fault Refusal :=
  .next (s.owned w (Reg.PORT_CAN_CFG c) (fun s => s.canRecover c))

end Sys2Proof.Machine
end

