-- ==== Sys2Proof/Machine/Video.lean ====
section
/-!
DEFINITION. Video reassembly and delivery (10).
-/

namespace Sys2Proof.Machine

def State.vid (s : State) (n : Nat) : Video := s.video.getD n Video.zero
def State.modVid (s : State) (n : Nat) (f : Video → Video) : State := { s with video := s.video.setIfInBounds n (f (s.vid n)) }

/-- What one packet brings to an access unit: NAL units in Annex B form with the types of those that begin. -/
inductive Piece where
  /-- Whole NAL units, or the first fragment of one (`frag`). -/
  | begins (bytes : List Byte) (types : List Nat) (frag : Bool)
  /-- A later fragment. -/
  | goesOn (bytes : List Byte)
  | unknown
deriving DecidableEq, Repr

def startCode : List Byte := [0, 0, 0, 1]

def nalType (codec : Nat) (b : List Byte) : Nat := if codec = 0 then byteAt b 0 % 32 else byteAt b 0 / 2 % 64

/-- The NAL units of an aggregation packet: sizes of two bytes, the higher first. -/
def aggregate (codec : Nat) : Nat → List Byte → Option (List Byte × List Nat)
  | 0, _ => some ([], [])
  | _ + 1, [] => some ([], [])
  | k + 1, b =>
    let n := byteAt b 0 * 256 + byteAt b 1
    let u := (b.drop 2).take n
    if b.length < 2 ∨ u.length < n ∨ n = 0 then none
    else (aggregate codec k (b.drop (2 + n))).map (fun r => (startCode ++ u ++ r.1, nalType codec u :: r.2))

/-- A payload under RFC 6184 (codec 0) or RFC 7798 (codec 1), as R345 names them. -/
def payloadPiece (codec : Nat) (b : List Byte) : Piece :=
  let t := nalType codec b
  if codec = 0 then
    if 1 ≤ t ∧ t ≤ 23 then .begins (startCode ++ b) [t] false
    else if t = 24 then (match aggregate 0 b.length (b.drop 1) with
      | some r => .begins r.1 r.2 false
      | none => .unknown)
    else if t = 28 ∧ 2 ≤ b.length then
      let h := byteAt b 1
      if h / 128 = 1 then .begins (startCode ++ [BitVec.ofNat 8 (byteAt b 0 / 32 * 32 + h % 32)] ++ b.drop 2) [h % 32] true
      else .goesOn (b.drop 2)
    else .unknown
  else if 2 ≤ b.length ∧ t ≤ 47 then .begins (startCode ++ b) [t] false
  else if t = 48 then (match aggregate 1 b.length (b.drop 2) with
    | some r => .begins r.1 r.2 false
    | none => .unknown)
  else if t = 49 ∧ 3 ≤ b.length then
    let h := byteAt b 2
    if h / 128 = 1 then
      .begins (startCode ++ [BitVec.ofNat 8 (byteAt b 0 / 128 * 128 + h % 64 * 2 + byteAt b 0 % 2), BitVec.ofNat 8 (byteAt b 1)] ++ b.drop 3)
        [h % 64] true
    else .goesOn (b.drop 3)
  else .unknown

/-- An IRAP NAL unit (VID buffer header). -/
def isIrap (codec t : Nat) : Bool := if codec = 0 then t == 5 else decide (16 ≤ t ∧ t ≤ 21)

/-- 4 KiB pages of an access unit. -/
def pages (n : Nat) : Nat := (n + 4095) / 4096

/-- The pages that a stream holds. -/
def Video.held (v : Video) : List Nat := (v.cur.toList ++ v.ready).flatMap (fun a => a.pgs) ++ v.leaving

/-- The pages of the active video partition that no stream holds. -/
def State.freePages (s : State) : List Nat :=
  match s.partition 2 with
  | none => []
  | some (base, size) =>
    let held := (List.range 8).flatMap (fun i => (s.vid i).held)
    ((List.range (size / 4096)).map (fun i => base + 4096 * i)).filter (fun p => !held.contains p)

/-- Can the open AU of stream `n`, which holds `old` pages, hold `new` bytes (R347)? -/
def State.pageOk (s : State) (n old new : Nat) : Bool :=
  let more := pages new - old
  decide ((s.vid n).held.length + more ≤ s.get (Reg.PORT_VID_CFG_QUOTA n) * 16) && decide (more ≤ s.freePages.length)

/-- The open AU of stream `n` takes `k` more pages; which free page it takes is a free value. DESIGN CHOICE, log entry 83. -/
def State.takePages (s : State) (n : Nat) : Nat → State
  | 0 => s
  | k + 1 =>
    let l := s.freePages
    match l[s.free.1.toNat % l.length]? with
    | none => s
    | some p => State.takePages (s.free.2.modVid n (fun v => { v with cur := v.cur.map (fun a => { a with pgs := a.pgs ++ [p] }) })) n k

/-- The parts of `n` bytes from byte `pos` of an AU on: place in the Hoard, first byte of the part, bytes. -/
def AccessUnit.parts (a : AccessUnit) (pos n : Nat) : List (Nat × Nat × Nat) :=
  (a.pgs.zipIdx.map (fun x =>
    let lo := max pos (4096 * x.2)
    (x.1 + lo % 4096, lo - pos, min (pos + n) (4096 * (x.2 + 1)) - lo))).filter (fun x => x.2.2 != 0)

/-- Bytes are written to the open AU's pages from byte `pos` on: was no write refused for an uncorrectable granule (R241, R263, R347)? -/
def State.auWrite (s : State) (a : AccessUnit) (pos : Nat) (b : List Byte) : Bool × State :=
  (a.parts pos b.length).foldl (fun p x =>
    let q := p.2.hoardWrite 24 x.1 ((b.drop x.2.1).take x.2.2)
    (p.1 && q.1 != .uncorrectable, q.2)) (true, s)

/-- The bytes of an AU as its copy reads them: whether none was uncorrectable, and zeros where a read was denied (R18) or uncorrectable
(R263). DESIGN CHOICE, log entry 83. -/
def State.auRead (s : State) (a : AccessUnit) (n : Nat) : Bool × List Byte × State :=
  (a.parts 0 n).foldl (fun p x =>
    match p.2.2.hoardRead 24 x.1 x.2.2 with
    | (.ok b, t) => (p.1, p.2.1 ++ b, t)
    | (.denied b, t) => (p.1, p.2.1 ++ b, t)
    | (.uncorrectable, t) => (false, p.2.1 ++ List.replicate x.2.2 0, t)) (true, [], s)

/-- The open AU ends (R346). -/
def State.endAu (s : State) (n : Nat) (nomark : Bool) : State :=
  match (s.vid n).cur with
  | none => s
  | some a =>
    let s := s.modVid n (fun v => { v with cur := none })
    if a.loss && !s.on (Reg.PORT_VID_CFG_DAMAGED n) then s.count (Reg.PORT_VID_DROP_LOSS n) 1
    else s.modVid n (fun v => { v with ready := v.ready ++ [{ a with nomark := nomark }] })

/-- The open AU is dropped, and its later packets too (R347). -/
def State.dropAu (s : State) (n : Nat) (f : Fld) : State :=
  (s.count f 1).modVid n (fun v => { v with cur := none, skipAu := true, skipTs := v.cur.map (fun a => a.ts) })

/-- Make room for the open AU to grow: the oldest waiting AU goes first, then the open one (R347). -/
def State.makeRoom (s : State) (n old new : Nat) : State :=
  (List.range ((s.vid n).ready.length + 1)).foldl (fun (t : State) _ =>
    if t.pageOk n old new || (t.vid n).cur.isNone then t
    else match (t.vid n).ready with
      | _ :: q => (t.count (Reg.PORT_VID_DROP_NOBUF n) 1).modVid n (fun v => { v with ready := q })
      | [] => t.dropAu n (Reg.PORT_VID_DROP_NOBUF n)) s

/-- Bytes join the open AU (R347); one whose bytes cannot be written is flagged LOSS. DESIGN CHOICE, log entry 83. -/
def State.growAu (s : State) (n codec : Nat) (b : List Byte) (types : List Nat) : State :=
  match (s.vid n).cur with
  | none => s
  | some a =>
    let len := a.len + b.length
    if 0x200000 < len then s.dropAu n (Reg.PORT_VID_DROP_TOOBIG n)
    else
      let s := s.makeRoom n a.pgs.length len
      let s := if (s.vid n).cur.isSome then s.takePages n (pages len - a.pgs.length) else s
      match (s.vid n).cur with
      | none => s
      | some a =>
        let p := s.auWrite a a.len b
        p.2.modVid n (fun v => { v with cur := some { a with
          len := len, loss := a.loss || !p.1, nals := a.nals + types.length, irap := a.irap || types.any (isIrap codec) } })

/-- Stream `n` takes a packet (R345, R346). -/
def State.takePacket (s : State) (n : Nat) (ssrc ts : W32) (seq : Nat) (mark : Bool) (payload : List Byte) (t0 : Nat) : State :=
  let v := s.vid n
  let codec := s.get (Reg.PORT_VID_CFG_CODEC n)
  let d := (seq + 65536 - (v.expect.getD seq)) % 65536
  if 32768 ≤ d then s.count (Reg.PORT_VID_DROP_LATE n) 1
  else
    let loss := decide (1 ≤ d)
    let s := s.modVid n (fun v => { v with
      expect := some ((seq + 1) % 65536), skipFrag := v.skipFrag || loss,
      cur := v.cur.map (fun a => { a with loss := a.loss || loss }) })
    let s := match (s.vid n).cur with
      | some a => if a.ts = ts then s else s.endAu n true
      | none => s
    if (s.vid n).skipAu && (s.vid n).skipTs == some ts then
      -- the last packet of a dropped AU: the next one begins a new AU (R346, R347)
      if mark then s.modVid n (fun v => { v with skipAu := false, skipTs := none }) else s
    else
      let s := s.modVid n (fun v => { v with skipAu := false, skipTs := none })
      let s := if (s.vid n).cur.isSome then s
        else
          let a : AccessUnit := {
            len := 0, pgs := [], loss := loss, nomark := false, irap := false, nals := 0, ts := ts, seq0 := seq,
            seq1 := seq, pkts := 0, t0 := t0, tend := s.now, ssrc := ssrc }
          s.modVid n (fun v => { v with cur := some a })
      let s := s.modVid n (fun v => { v with cur := v.cur.map (fun a => { a with seq1 := seq, pkts := a.pkts + 1, tend := s.now }) })
      let s := match payloadPiece codec payload with
        | .begins b types frag =>
          (s.modVid n (fun v => { v with skipFrag := v.skipFrag && !frag })).growAu n codec b types
        | .goesOn b => if (s.vid n).skipFrag then s else s.growAu n codec b []
        | .unknown => s.modVid n (fun v => { v with skipFrag := true, cur := v.cur.map (fun a => { a with loss := true }) })
      if mark then
        let s := if (s.vid n).skipAu then s.modVid n (fun v => { v with skipAu := false, skipTs := none }) else s
        s.endAu n false
      else s

/-- The stream that takes a packet (R344). -/
def State.streamOf (s : State) (u dport pt ssrc : Nat) : Option Nat :=
  (List.range 8).find? (fun n => s.on (Reg.PORT_VID_CFG_EN n) && s.get (Reg.PORT_VID_CFG_PORT n) == u
    && s.portOwner (4 + u) == 3 && s.get (Reg.PORT_VID_DPORT_DPORT n) == dport && s.get (Reg.PORT_VID_CFG_PT n) == pt
    && (!s.on (Reg.PORT_VID_CFG_SSRCEN n) || s.get (Reg.PORT_VID_SSRC_SSRC n) == ssrc))

/-! ### The packet in its frame (R344). PRESUMED, log entry 96. -/

/-- What R344 and R346 read of an RTP packet. -/
structure Rtp where
  dport : Nat
  pt : Nat
  ssrc : W32
  ts : W32
  seq : Nat
  mark : Bool
  payload : List Byte
deriving DecidableEq, Repr

/-- `n` bytes at `i`, the highest first. -/
def beAt (b : List Byte) (i n : Nat) : Nat := ((b.drop i).take n).foldl (fun v x => v * 256 + x.toNat) 0

/-- The RTP packet in a UDP payload: CSRC list and header extension skipped, padding removed. -/
def parseRtp (dport : Nat) (b : List Byte) : Option Rtp :=
  let csrc := 12 + 4 * (byteAt b 0 % 16)
  let start := if byteAt b 0 / 16 % 2 = 1 then csrc + 4 + 4 * beAt b (csrc + 2) 2 else csrc
  let pad := if byteAt b 0 / 32 % 2 = 1 then byteAt b (b.length - 1) else 0
  if byteAt b 0 / 64 ≠ 2 ∨ b.length < start + pad then none
  else some {
    dport := dport, pt := byteAt b 1 % 128, ssrc := BitVec.ofNat 32 (beAt b 8 4), ts := BitVec.ofNat 32 (beAt b 4 4), seq := beAt b 2 2,
    mark := decide (128 ≤ byteAt b 1), payload := (b.drop start).take (b.length - start - pad) }

/-- The UDP datagram that begins at `i`. -/
def parseUdp (b : List Byte) (i : Nat) : Option Rtp :=
  let n := beAt b (i + 4) 2
  if n < 8 ∨ b.length < i + n then none else parseRtp (beAt b (i + 2) 2) ((b.drop (i + 8)).take (n - 8))

/-- The RTP packet in a frame without its FCS: UDP over unfragmented IPv4, or over IPv6 with no extension header, with or without one VLAN
tag (R344). -/
def parseFrame (b : List Byte) : Option Rtp :=
  let o := if beAt b 12 2 = 0x8100 then 18 else 14
  let type := beAt b (o - 2) 2
  if type = 0x0800 ∧ byteAt b o / 16 = 4 ∧ 5 ≤ byteAt b o % 16 ∧ beAt b (o + 6) 2 % 2 ^ 14 = 0 ∧ byteAt b (o + 9) = 17 then
    parseUdp b (o + 4 * (byteAt b o % 16))
  else if type = 0x86DD ∧ byteAt b o / 16 = 6 ∧ byteAt b (o + 6) = 17 then parseUdp b (o + 40)
  else none

/-- A matched packet in a frame of `len` bytes goes through the input buffer of 64 KiB, which drains at 2 Gbit/s, 4 ns a byte; one that finds no
room is discarded (R349). DEDUCED, log entry 96. -/
def State.streamTakes (s : State) (u n len : Nat) (x : Rtp) : State :=
  let drain := max s.vidDrain s.now
  if 4 * 65536 < drain - s.now + 4 * len then s.count Reg.PORT_VIDOVF_COUNT 1
  else { s with vidDrain := drain + 4 * len }.takePacket n x.ssrc x.ts x.seq x.mark x.payload ((s.port (4 + u)).sof - (s.latencies (4 + u)).1)

/-- An RTP packet has been received on uplink u, given by its fields. One that matches no stream leaves nothing here: its frame follows R106 as
RX_FRAME brings it, which reads the fields itself. DESIGN CHOICE, log entry 96. -/
def execVideoPacket (u : Fin 2) (dport : BitVec 16) (pt : BitVec 7) (ssrc ts : BitVec 32) (seq : BitVec 16) (mark : Bool) (len : BitVec 11)
    (payload : List Byte) (s : State) : Host.Outcome State Fault Refusal :=
  match s.streamOf u dport.toNat pt.toNat ssrc.toNat with
  | none => .next s
  | some n => .next (s.streamTakes u n len.toNat { dport := dport.toNat, pt := pt.toNat, ssrc := ssrc, ts := ts, seq := seq.toNat, mark := mark, payload := payload })

/-- The packet in a good frame with its FCS on port `p` and the stream that takes it (R344). -/
def State.streamPacket (s : State) (p : Nat) (b : List Byte) : Option (Nat × Rtp) :=
  if p < 4 ∨ b.length < 64 ∨ 1522 < b.length ∨ fcsCheck b ≠ 0 ∨ isPauseFrame b then none
  else (parseFrame (b.take (b.length - 4))).bind (fun x => (s.streamOf (p - 4) x.dport x.pt x.ssrc.toNat).map (fun n => (n, x)))

/-- RX_FRAME: the bytes from the destination address on, and the FCS received behind them. A packet of a camera stream goes to the reassembler
(R344); in half duplex the transmitter's deference ends with the reception (R315). -/
def execRxFrame (p : Fin 6) (b : List Byte) (cls : Option (Fin 8)) (rt : RxRoute) (fcs : BitVec 32) (s : State) :
    Host.Outcome State Fault Refusal :=
  if !(s.portUp p && s.on (Reg.PORT_LCFG_EN p)) then .next s
  else
    let all := b ++ leBytes 4 fcs.toNat
    match s.streamPacket p all with
    | some (n, x) => .next (s.streamTakes (p - 4) n all.length x)
    | none =>
      let t := (s.halfPort p (fun x => { x with rxBusy := false })).receive p all (cls.map (fun x => x.val)) rt.loc rt.toHost
      .next (if s.portFdx p then t else t.select p)

/-- The VID buffer header (10). -/
def AccessUnit.header (a : AccessUnit) (n written : Nat) (trunc : Bool) : List Byte :=
  let g := (if a.loss then 1 else 0) + (if a.nomark then 2 else 0) + (if trunc then 4 else 0) + (if a.irap then 8 else 0)
  [BitVec.ofNat 8 n, BitVec.ofNat 8 g] ++ leBytes 2 a.nals ++ leBytes 4 written ++ leBytes 4 a.ts.toNat ++ leBytes 2 a.seq0
    ++ leBytes 2 a.seq1 ++ leBytes 4 a.pkts ++ leBytes 8 a.t0 ++ leBytes 4 a.ssrc.toNat

/-- The oldest waiting AU of stream `n` goes to the next posted VID_BUF (R348, R110). One that cannot be read whole is flagged
LOSS, and dropped as such. DESIGN CHOICE, log entry 83. The pages are held until the copy has completed (R347). -/
def State.videoCopy (s : State) (n : Nat) : State :=
  match (s.vid n).ready with
  | [] => s
  | a :: q =>
    match s.ringFor 4 (fun r => gateBit (s.get (Reg.RING_CFG_SEL r)) n) with
    | none => s
    | some r =>
      match (s.ring r).q.find? Desc.posted with
      | none => s
      | some d =>
        let written := min a.len (d.len - 32)
        let trunc := decide (written < a.len)
        let s := s.modVid n (fun v => { v with ready := q, leaving := v.leaving ++ a.pgs })
        let r' := s.auRead a written
        let s := r'.2.2
        let a := { a with loss := a.loss || !r'.1 }
        if a.loss && !s.on (Reg.PORT_VID_CFG_DAMAGED n) then
          (s.count (Reg.PORT_VID_DROP_LOSS n) 1).modVid n (fun v => { v with leaving := v.leaving.filter (fun p => !a.pgs.contains p) })
        else
        let s := s.issue (.hostWrite d.addr (a.header n written trunc ++ r'.2.1))
        let s := s.modDesc r (fun e => e.is d.idx d.gen) (fun e => { e with prog := written, flags := some (true, true) })
        let time := some (BitVec.ofNat 32 a.tend)
        if trunc then
          let f := s.free
          f.2.finish r (fun e => e.is d.idx d.gen) statusPart (some (f.1.setWidth 16)) time
        else s.finish r (fun e => e.is d.idx d.gen) statusDone none time

/-- In each Gather every stream's oldest waiting AU goes, the streams ascending (R348). -/
def State.videoGather (s : State) : State := (s.each 8 (fun n t => t.videoCopy n)).releaseDue

/-- VID_BUF: the buffers of the chain at the head of ring n's work are posted, once all of it is consumed (R101, R103). -/
def execVidBuf (n : Fin 64) (s : State) : Host.Outcome State Fault Refusal :=
  match s.ready n 0x30 with
  | none => .next s
  | some d =>
    match (s.ring n).chain d with
    | none => .next s
    | some c => .next (s.modDesc n (inChain c) (fun e => { e with started := true }))

end Sys2Proof.Machine
end

