-- ==== Sys2Proof/Machine/Rings.lean ====
section
/-!
DEFINITION. The host rings (04): doorbell reads, descriptors and their data, the work of the TX, RX and CMD opcodes that need
no other block, and the writes of a Settle.
-/

namespace Sys2Proof.Machine

/-! ## The doorbell block (R92, R93, R99) -/

/-- A doorbell block read is requested; one that is not issued yet, or one queued behind the read in flight, takes it in. -/
def State.doorbellRead (s : State) : State :=
  let o := Output.hostRead .doorbell (s.word64 Reg.RING_DBADDR_LO Reg.RING_DBADDR_HI) 512 false
  if !s.on Reg.RING_GCTRL_DBEN then s
  else if s.hif.dbFlight then
    if !s.hif.reads.contains .doorbell then s else { s with hif := { s.hif with dbQueued := true } }
  else { s with hif := { s.hif with dbFlight := true } }.issue o

/-- Enabled rings become active: at a Gather or, while ticks are stopped, at the idle service (R88, R98); a ring disabled since
consumes nothing more (R116). -/
def State.activateRings (s : State) : State :=
  s.each 64 (fun n t =>
    let en := t.on (Reg.RING_CTRL_EN n)
    t.modRing n (fun r => { r with live := en, fetched := 0, fetching := if en then r.fetching else 0 }))

/-- The first `m` of the announced entries. -/
def keepShown : Nat → List (Nat × Nat) → List (Nat × Nat)
  | _, [] => []
  | m, (c, k) :: r => if m ≤ c then (if m = 0 then [] else [(m, k)]) else (c, k) :: keepShown (m - c) r

/-- A ring takes its doorbell entry: position p, generation g, of a read that counts to tick k (R92, R93); its MASK counts in any case
(R111). EVT entries are taken while RUNNING is 0 too: DESIGN CHOICE, log entry 72. -/
def State.takeEntry (s : State) (n k p g : Nat) (mask : Bool) : State :=
  let kind := s.get (Reg.RING_CFG_KIND n)
  let s := s.modRing n (fun r => { r with mask := mask })
  if !(s.on (Reg.RING_CTRL_EN n) && (s.ring n).live && !s.on (Reg.RING_STAT_ERR n) && (s.running || kind == 2 || kind == 3)) then s
  else
    let size := s.ringSize n
    let r := s.ring n
    let ahead := if kind = 3 then (r.gen + 256 - g) % 256 else (g + 256 - r.gen) % 256
    let outst : Int := if kind = 3 then (ahead : Int) * size + r.ci - p else (ahead : Int) * size + p - r.ci
    if size ≤ p then s.ringError n 1
    else if outst < 0 ∨ (size : Int) < outst then s.ringError n 2
    else if kind = 3 then s.modRing n (fun r => { r with rp := p, rg := g })
    else
      let m := outst.toNat
      s.modRing n (fun r => { r with
        out := m,
        shown := if r.out < m then r.shown ++ [(m - r.out, k)] else keepShown m r.shown })

/-- Consumed descriptors without a written completion. -/
def Ring.unwritten (r : Ring) : Nat := (r.q.filter (fun d => !d.written)).length

/-- Is the ring a Strike ring (R104)? Its descriptor reads are Strike-tagged (R74). -/
def State.strikeRing (s : State) (n : Nat) : Bool := s.on (Reg.RING_CFG_STRIKE n) && s.get (Reg.RING_CFG_KIND n) == 0

/-- Descriptor reads of one ring, up to BURST in a tick and, on TX and CMD rings, up to 64 open descriptors (R95, R663). -/
def State.fetchRing (s : State) (n : Nat) : State :=
  if !s.consumes n then s
  else
    let r := s.ring n
    let kind := s.get (Reg.RING_CFG_KIND n)
    let burst := s.get (Reg.RING_CTRL_BURST n)
    let room := if kind = 0 ∨ kind = 2 then 64 - (r.unwritten + r.fetching) else 65536
    let m := min (r.out - r.fetching) (min ((if burst = 0 then 256 else burst) - r.fetched) room)
    let base := s.word64 (Reg.RING_BASE_LO n) (Reg.RING_BASE_HI n)
    let size := s.ringSize n
    let s := (List.range m).foldl (fun (t : State) i =>
      t.issue (.hostRead (.desc n) (base + BitVec.ofNat 64 ((r.ci + r.fetching + i) % size * 32)) 32 (s.strikeRing n))) s
    s.modRing n (fun r => { r with fetching := r.fetching + m, fetched := r.fetched + m })

/-- Strike rings ascending, then the others from the round-robin pointer on (R95, R96). -/
def State.fetchAll (s : State) : State :=
  let strike := s.strikeRing
  let p := s.get Reg.RING_PTR_PTR
  let s' := ((List.range 64).filter strike).foldl State.fetchRing s
  (((List.range 64).map (fun i => (p + i) % 64)).filter (fun n => !strike n)).foldl State.fetchRing s'

/-- The tick a doorbell read that completes now counts to (R69, R99). R99 says so of nudge reads; the read of a Gather that completes at or after
the start of Emit(k) counts to tick k+1 alike: DESIGN CHOICE, log entry 94. -/
def State.readTick (s : State) : Nat := if s.running && decide (2 ≤ s.phase) then s.tick + 1 else s.tick

/-- DOORBELL_READ_COMPLETE: every part of the doorbell block has arrived, or the read failed, and no ring advances (R114). While no tick
runs the writes of R97 follow the CMD work so found (R98). -/
def execDoorbellReadComplete (ok : Bool) (block : List Byte) (s : State) : Host.Outcome State Fault Refusal :=
  if ok ∧ block.length ≠ 512 then .fault .illFormed
  else if !s.hif.dbFlight then .next s
  else
    let s := { s with hif := { s.hif with dbFlight := false, idleDue := s.hif.idleDue || !s.running } }.landed .doorbell false
    let s := if ok then
        (s.each 64 (fun n t => t.takeEntry n s.readTick (leAt block (8 * n) 2) (byteAt block (8 * n + 4)) (byteAt block (8 * n + 5) % 2 == 1))).fetchAll
      else ((s.count Reg.RING_DBFAIL_COUNT 1).record 0x0204 0xFF 0).vecEvent 0
    .next (if s.hif.dbQueued then { s with hif := { s.hif with dbQueued := false } }.doorbellRead else s)

/-! ## Descriptors (R100 to R104) -/

/-- The kind of ring an opcode is for, or none. -/
def opKind (op : Nat) : Option Nat :=
  if op = 0x01 then some 0
  else if op = 0x10 then some 1
  else if 0x20 ≤ op ∧ op ≤ 0x2D then some 2
  else if op = 0x30 then some 4
  else none

/-- The opcodes that form chains. -/
def opChains (op : Nat) : Bool := op == 0x01 || op == 0x10 || op == 0x22 || op == 0x30

/-- Does the opcode use a buffer, or read one? -/
def Desc.buffered (d : Desc) : Bool :=
  [0x01, 0x10, 0x21, 0x24, 0x25, 0x26, 0x28, 0x30].contains d.opcode || (d.opcode == 0x22 && d.opx.toNat % 256 == 0)
def Desc.reads (d : Desc) : Bool :=
  [0x01, 0x21, 0x24, 0x26].contains d.opcode || (d.opcode == 0x22 && d.opx.toNat % 256 == 0)

/-- Is the buffer too short for the opcode: empty, or no room for the header of a VID_BUF (R103, R348)? -/
def Desc.tiny (d : Desc) : Bool := d.buffered && (d.len == 0 || (d.opcode == 0x30 && decide (d.len < 32)))

/-- Are TARGET, OPX and LENGTH in the ranges of R102 and R566? -/
def Desc.ranged (d : Desc) : Bool :=
  let x := d.opx.toNat
  let lo := x % 2 ^ 32
  let hi := x / 2 ^ 32
  if d.opcode = 0x01 then decide (d.target ≤ 7 ∧ d.cls ≤ 7 ∧ x / 2 ^ 16 ≤ 1)
  else if d.opcode = 0x21 then decide (d.target = 0 ∧ x = 0 ∧ d.len % 8 = 0 ∧ d.len ≤ 4096)
  else if d.opcode = 0x22 then decide (d.target ≤ 2 ∧ x % 256 ≤ 2 ∧ (x % 256 = 0 ∨ d.addr = 0))
  else if d.opcode = 0x23 then decide (d.target ≤ 2 ∧ x = 0)
  else if d.opcode = 0x24 ∨ d.opcode = 0x25 then decide (d.target = 0 ∧ 0x10000000 ≤ lo ∧ lo < 0x11000000 ∧ lo % 16 = 0)
  else if d.opcode = 0x26 then decide (d.target = 0 ∧ lo + d.len ≤ 0x800000 ∧ lo % 256 = 0 ∧ d.len % 256 = 0)
  else if d.opcode = 0x27 then decide (d.target = 0 ∧ lo ≤ 127 ∧ 1 ≤ hi ∧ lo + hi ≤ 128)
  else if d.opcode = 0x28 then decide (d.target = 0 ∧ lo + d.len ≤ 0x800000 ∧ lo % 16 = 0 ∧ d.len % 16 = 0)
  else if d.opcode = 0x29 ∨ d.opcode = 0x2D then d.target == 0
  else if d.opcode = 0x2A then decide (d.target ≤ 7 ∧ x = 0)
  else decide (d.target = 0 ∧ x = 0)

/-- Is a descriptor that opens a chain, or stands alone, refused (R103, R104)? -/
def State.refuses (s : State) (n : Nat) (d : Desc) : Bool :=
  opKind d.opcode != some (s.get (Reg.RING_CFG_KIND n)) || !d.ranged || !d.first || (!d.last && !opChains d.opcode)
    || d.tiny
    || (d.opcode == 0x01 && s.on (Reg.RING_CFG_STRIKE n) && d.cls != 7)
    || (d.opcode == 0x2A && !s.on Reg.CHN_STAT_MGR)

/-- The fields of a descriptor (04, Descriptor layout). -/
def Desc.parse (b : List Byte) (idx gen kdb : Nat) : Desc :=
  let l := leAt b 8 4
  { idx := idx, gen := gen, addr := BitVec.ofNat 64 (leAt b 0 8), len := l % 2 ^ 24, first := l / 2 ^ 24 % 2 == 1,
    last := l / 2 ^ 25 % 2 == 1, irq := l / 2 ^ 26 % 2 == 1, hasFcs := l / 2 ^ 27 % 2 == 1, opcode := leAt b 12 2,
    cls := byteAt b 14, target := byteAt b 15, ttick := leAt b 16 4, tag := BitVec.ofNat 32 (leAt b 20 4),
    opx := BitVec.ofNat 64 (leAt b 24 8), data := none, k := 0, late := false, kdb := kdb, started := false, prog := 0,
    demoted := false, res := none, written := false, wait := [] }

/-- The target tick (R100). -/
def Desc.aim (d : Desc) (now : Nat) : Desc :=
  let diff := (d.ttick + 2 ^ 32 - now % 2 ^ 32) % 2 ^ 32
  if d.ttick = 0 then { d with k := now }
  else if 1 ≤ diff ∧ diff < 2 ^ 31 then { d with k := now + diff }
  else { d with k := now, late := true }

/-- Append a consumed descriptor: CIDX advances (R94). -/
def State.append (s : State) (n : Nat) (d : Desc) : State :=
  let size := s.ringSize n
  s.modRing n (fun r => { r with
    q := r.q ++ [d], ci := (r.ci + 1) % size, gen := if r.ci + 1 = size then (r.gen + 1) % 256 else r.gen,
    out := r.out - 1, shown := match r.shown with
      | [] => []
      | (c, k) :: t => if c ≤ 1 then t else (c - 1, k) :: t })

/-- Is there a valid safe frame on a port while a Quench makes it count (R667)? -/
def State.safeOn (s : State) (p : Nat) : Bool :=
  s.on Reg.PWR_QSTAT_ACTIVE && s.running &&
    (List.range 8).any (fun i => s.on (Reg.PWR_SAFE_CTL_V i) && s.get (Reg.PWR_SAFE_CTL_PORT i) == p)

/-- The low half of the SEQ of the entry that started the Quench. -/
def State.quenchSeq (s : State) : BitVec 16 :=
  let first := s.get Reg.PWR_QSTAT_FIRST
  match s.ledger.find? (fun (e : LedgerEntry) => e.code == 0x0E03 && e.detail == BitVec.ofNat 96 (quenchDetail (2 ^ first) first)) with
  | some e => e.seq.setWidth 16
  | none => 0

/-- The data read of a consumed descriptor, Strike-tagged for a class-7 frame (R74, R104). -/
def State.readData (s : State) (n : Nat) (d : Desc) : State :=
  if d.reads then s.issue (.hostRead (.data n d.idx) d.addr d.len (d.opcode == 0x01 && d.cls == 7)) else s

/-- What a FENCE of ring `n` waits for: the descriptors of the rings it names, its own excepted, that are consumed by now and not complete
(R102, R122). -/
def State.fenceWait (s : State) (n : Nat) (d : Desc) : List (Nat × Nat × Nat) :=
  if d.opcode ≠ 0x2D then []
  else ((List.range 64).filter (fun m => m != n && d.opx.toNat / 2 ^ m % 2 == 1)).flatMap (fun m =>
    ((s.ring m).q.filter (fun (e : Desc) => !e.written)).map (fun (e : Desc) => (m, e.idx, e.gen)))

/-- Does the opcode take TIME at its completion (R109)? DEDUCED, log entry 30. -/
def timedOp (op : Nat) : Bool := decide (0x20 ≤ op ∧ op ≤ 0x2D ∧ op ≠ 0x21)

/-- Complete picked descriptors without any work done: NONE, or FAIL with the entry given. DEDUCED, log entry 30. -/
def State.endUnstarted (s : State) (n : Nat) (p : Desc → Bool) (st : Nat) (led : Option (BitVec 16)) (op : Nat) : State :=
  s.finish n p st led (if timedOp op then some s.time32 else none)

/-- The last member of a chain is consumed: what has spoilt the chain ends it. -/
def State.closeChain (s : State) (n i g op cls target : Nat) : State :=
  let bad := (s.ring n).chainBad
  let s := s.modRing n (fun r => { r with chainAt := none, chainBad := none })
  let members := (s.ring n).q.dropWhile (fun e => !e.is i g)
  match bad with
  | some (st, led) => s.endUnstarted n (inChain members) st led op
  | none =>
    if op = 0x01 ∧ cls = 7 ∧ s.safeOn target then (s.noteSeq n).finish n (inChain members) statusFail (some s.quenchSeq) none
    -- a CAN frame that is consumed in bus-off (R360)
    else if op = 0x01 ∧ 6 ≤ target ∧ s.get (Reg.PORT_CAN_STAT_STATE (target - 6)) = 2 then
      let s := (s.record 0x0604 target 0).noteSeq n
      s.finish n (inChain members) statusFail (some s.led16) none
    else s

/-- A descriptor that opens a chain or stands alone is consumed, or refused with DESC_BAD. -/
def State.consumeFirst (s : State) (n : Nat) (d : Desc) : State :=
  let bad := s.refuses n d
  let s := s.append n { d with wait := s.fenceWait n d }
  let s := if bad then s.recordRing 0x0201 n d.idx 0 d.tag.toNat else s.readData n d
  let s := s.modRing n (fun r => { r with
    chainAt := if d.first then some (d.idx, d.gen) else none,
    chainBad := if bad then some (statusFail, some s.led16) else none })
  if d.last then s.closeChain n d.idx d.gen d.opcode d.cls d.target
  else if !d.first then (s.modRing n (fun r => { r with chainBad := none })).endUnstarted n (fun e => e.is d.idx d.gen) statusFail (some s.led16) d.opcode
  else s

/-- A further member of the chain opened at (i, g) is consumed. -/
def State.consumeNext (s : State) (n i g : Nat) (d : Desc) : State :=
  match (s.ring n).q.find? (fun e => e.is i g && e.res.isNone) with
  | none =>
    -- The chain was cut by FLUSH: what follows of it completes alike.
    let s := (s.append n d).endUnstarted n (fun e => e.is d.idx d.gen) statusNone none d.opcode
    if d.last then s.modRing n (fun r => { r with chainAt := none, chainBad := none }) else s
  | some o =>
    let d := { d with opcode := o.opcode, cls := o.cls, target := o.target, ttick := o.ttick, k := o.k, late := o.late, opx := o.opx }
    let count := ((s.ring n).q.dropWhile (fun e => !e.is i g)).length
    let bad := d.first || d.tiny || (d.opcode == 0x01 && decide (16 ≤ count))
    let s := s.append n d
    let s := if bad then s.recordRing 0x0201 n d.idx 0 d.tag.toNat
      else if (s.ring n).chainBad.isNone then s.readData n d else s
    let s := if bad && (s.ring n).chainBad.isNone then s.modRing n (fun r => { r with chainBad := some (statusFail, some s.led16) }) else s
    if d.last then s.closeChain n i g o.opcode o.cls o.target else s

/-- DESCRIPTOR_READ_COMPLETE: the next descriptor of ring n has arrived, or its read failed. Its TTICK and LATE are judged here, once, by
the tick in progress: DESIGN CHOICE, log entry 73. -/
def execDescriptorReadComplete (n : Fin 64) (ok : Bool) (b : List Byte) (s : State) : Host.Outcome State Fault Refusal :=
  if ok ∧ b.length ≠ 32 then .fault .illFormed
  else if (s.ring n).fetching = 0 then .next s
  else
    let s := (s.modRing n (fun r => { r with fetching := r.fetching - 1 })).landed (.desc n) true
    let r := s.ring n
    if s.on (Reg.RING_STAT_ERR n) ∨ !r.live ∨ r.frozen ∨ r.out = 0 then .next s
    -- while no tick runs only a CMD ring consumes (R98)
    else if s.on (Reg.RING_CTRL_EN n) ∧ !s.consumes n then .next s
    else if !ok then .next (if s.on (Reg.RING_CTRL_EN n) then s.ringError n 3 else s)
    else
      let kdb := match r.shown with
        | [] => s.tick
        | (_, k) :: _ => k
      let d := (Desc.parse b r.ci r.gen kdb).aim s.tick
      if !s.on (Reg.RING_CTRL_EN n) then .next ((s.append n d).endUnstarted n (fun e => e.is d.idx d.gen) statusNone none d.opcode)
      else match r.chainAt with
        | none => .next (s.consumeFirst n d).checkVoids
        | some (i, g) => .next (s.consumeNext n i g d).checkVoids

/-- HOST_DATA_READ_COMPLETE: the data read of the descriptor at index `idx` of ring n has ended, or has failed behind the bytes `b`. What
arrives after a reset of the function is discarded (R144). A HOARD_WRITE or ING_PROGRAM still works on the bytes that arrived (R115); a
PRS_LOAD takes no byte before all have: DESIGN CHOICE, log entry 74. -/
def execHostDataReadComplete (n : Fin 64) (idx : BitVec 16) (ok : Bool) (b : List Byte) (s : State) : Host.Outcome State Fault Refusal :=
  let s := s.landed (.data n idx.toNat) false
  if (s.ring n).frozen then .next s
  else match (s.ring n).q.find? (fun (d : Desc) => d.idx == idx.toNat && d.reads && d.data.isNone && d.res.isNone) with
  | none => .next s
  | some d =>
    if ok then
      if b.length = d.len then .next (s.modDesc n (fun e => e.is d.idx d.gen) (fun e => { e with data := some b })) else .next s
    else if d.opcode = 0x24 ∨ d.opcode = 0x26 then
      .next (s.modDesc n (fun e => e.is d.idx d.gen) (fun e => { e with data := some (b.take (d.len - 1)), short := true }))
    else
      let c := ((chains (s.ring n).q).find? (fun c => inChain c d)).getD [d]
      if c.any (fun e => e.last) then .next (s.endNoEntry n (inChain c) statusFail)
      else
        let f := s.free
        .next (f.2.modRing n (fun r => { r with chainBad := match r.chainBad with
          | none => some (statusFail, some (f.1.setWidth 16))
          | some x => some x }))

/-! ## TX and RX -/

/-- The bytes of a frame: the VLAN tag goes behind the two addresses. DEDUCED, log entry 31. -/
def Desc.frameBytes (d : Desc) (b : List Byte) : List Byte :=
  let x := d.opx.toNat
  if x / 2 ^ 16 % 2 = 1 then b.take 12 ++ [0x81, 0x00, BitVec.ofNat 8 (x / 256), BitVec.ofNat 8 x] ++ b.drop 12 else b

/-- Data bytes of a CAN frame from DLC and FDF (ISO 11898-1). -/
def canData (b : List Byte) : Nat :=
  let dlc := byteAt b 4 % 16
  if dlc ≤ 8 then dlc
  else if byteAt b 4 / 16 % 2 = 0 then 8
  else [12, 16, 20, 24, 32, 48, 64].getD (dlc - 9) 64

/-- Is a CAN buffer one that R351 takes? -/
def canOk (b : List Byte) : Bool :=
  decide (8 ≤ b.length ∧ b.length = 8 + (if byteAt b 3 / 64 % 2 = 1 then 0 else canData b)) && !(byteAt b 3 / 64 % 2 == 1 && byteAt b 4 / 16 % 2 == 1)

/-- Is the start of Emit(k) of a host frame still to come (R69, R105)? -/
def State.early (s : State) (f : Frame) : Bool := decide (s.tick < f.k) || (s.running && s.tick == f.k && decide (s.phase < 2))

/-- TX_FRAME: the chain at the head of ring n's work, whose data is complete. DEDUCED, log entry 31. -/
def execTxFrame (n : Fin 64) (s : State) : Host.Outcome State Fault Refusal :=
  match s.ready n 0x01 with
  | none => .next s
  | some d =>
    match (s.ring n).chain d with
    | none => .next s
    | some c =>
      match chainData c with
      | none => .next s
      | some b =>
        let s := s.modDesc n (inChain c) (fun e => { e with started := true })
        let fail := fun (t : State) code len => (((t.record code d.target len).noteSeq n)).endTx n d.idx statusFail 0 (some (BitVec.ofNat 16 (nextSeq (s.get Reg.PWR_LEDHEAD_SEQ)))) none
        let f : Frame :=
          { bytes := d.frameBytes b, hasFcs := d.hasFcs, cls := d.cls, src := .ring n d.idx, k := d.tickK, bound := none,
            start := 0, cut := false, ins := if d.opx.toNat / 2 ^ 16 % 2 = 1 then 4 else 0 }
        if 6 ≤ d.target then
          if !canOk b then .next (fail s 0x0602 b.length)
          else if s.early f then .next (s.modCan (d.target - 6) (fun x => { x with stage := x.stage ++ [{ f with bytes := b, hasFcs := true }] }))
          else .next ((s.modCan (d.target - 6) (fun x => { x with q := x.q ++ [{ f with bytes := b, hasFcs := true }] })).canSelect (d.target - 6))
        else if d.cls = 7 ∧ s.safeOn d.target then .next (s.endTx n d.idx statusFail 0 (some s.quenchSeq) none)
        else if f.lenFcs < 64 ∨ 1518 < f.lenFcs then .next (fail s 0x0602 f.lenFcs)
        else if s.early f then
          .next (s.modPort d.target (fun x => { x with stage := x.stage ++ [f] }))
        else .next ((s.join d.target f false).select d.target)

/-- RX_BUF: the buffers of the chain at the head of ring n's work are posted. -/
def execRxBuf (n : Fin 64) (s : State) : Host.Outcome State Fault Refusal :=
  match s.ready n 0x10 with
  | none => .next s
  | some d =>
    match (s.ring n).chain d with
    | none => .next s
    | some c => .next (s.modDesc n (inChain c) (fun e => { e with started := true }))

/-! ## CMD work that needs no other block -/

def execCmdNop (n : Fin 64) (s : State) : Host.Outcome State Fault Refusal :=
  match s.ready n 0x20 with
  | none => .next s
  | some d => .next (s.doneNow n (fun e => e.is d.idx d.gen))

/-- Copy units of up to 16 bytes until one fails: bytes of the units copied, and the reason. DEDUCED, log entry 11. -/
def State.copyIn (s : State) (o : Nat) : List (List Byte) → Nat → Option Bool × Nat × State
  | [], p => (none, p, s)
  | u :: r, p =>
    match s.hoardWrite 21 (o + p) u with
    | (.ok _, t) => State.copyIn t o r (p + u.length)
    | (_, t) => (some true, p, t)

/-- The same towards host memory; `burst`: the copy has more than one word (R245, R262). DEDUCED, log entry 11. -/
def State.copyOut (s : State) (burst : Bool) (o : Nat) : Nat → Nat → List Byte → Option Bool × List Byte × State
  | 0, _, acc => (none, acc, s)
  | f + 1, left, acc =>
    match s.hoardReadAs burst 21 (o + acc.length) (min 16 left) with
    | (.ok b, t) => State.copyOut t burst o f (left - b.length) (acc ++ b)
    | (_, t) => (some true, acc, t)

/-- PROGRESS of a copy: a multiple of 16. DEDUCED, log entry 31. -/
def whole16 (n : Nat) : Nat := n / 16 * 16

def State.setProg (s : State) (n : Nat) (d : Desc) (v : Nat) : State :=
  s.modDesc n (fun e => e.is d.idx d.gen) (fun e => { e with prog := v })

/-- The end of a copy. DEDUCED, log entry 11. DEDUCED, log entry 31. -/
def State.endCopy (s : State) (n : Nat) (d : Desc) (failed : Option Bool) (copied : Nat) : State :=
  let s := s.setProg n d (whole16 copied)
  match failed with
  | none => s.doneNow n (fun e => e.is d.idx d.gen)
  | some _ => s.endWithEntry n (fun e => e.is d.idx d.gen) statusFail

/-- Bytes of a copy that `units` 16-byte units take of the `left` that are left; 0 units stand for all of them. -/
def unitBytes (units left : Nat) : Nat := if units = 0 then left else min left (16 * units)

/-- A copy of `all` bytes stands at `copied`: it has failed, has all of them, or goes on with a further command (R116). `short`: its data
read failed behind them (R115). -/
def State.afterUnits (s : State) (n : Nat) (d : Desc) (failed : Option Bool) (copied all : Nat) (short : Bool) : State :=
  if failed.isNone ∧ copied < all then (s.start n d).setProg n d copied
  else if failed.isNone ∧ short then (s.setProg n d (whole16 copied)).endNoEntry n (fun e => e.is d.idx d.gen) statusFail
  else s.endCopy n d failed copied

/-- HOARD_WRITE: the descriptor at the head of ring n's work, whose data has arrived, or the one in progress: `units` 16-byte units of
it, or all that are left (0) (R102, R116). -/
def execHoardWrite (c : CopyRun) (s : State) : Host.Outcome State Fault Refusal :=
  match s.atWork c.ring 0x24 with
  | none => .next s
  | some d =>
    match d.data with
    | none => .next s
    | some b =>
      let all := if d.short then whole16 b.length else b.length
      let now := ((b.take all).drop d.prog).take (unitBytes c.units.toNat (all - d.prog))
      let r := s.copyIn (d.opx.toNat % 2 ^ 32 - 0x10000000) (chunks 16 ((now.length + 15) / 16) now) d.prog
      .next (r.2.2.afterUnits c.ring d r.1 r.2.1 all d.short)

/-- HOARD_READ: the descriptor at the head of ring n's work, or the one in progress: `units` 16-byte units of it, or all that are left (0)
(R102, R116). -/
def execHoardRead (c : CopyRun) (s : State) : Host.Outcome State Fault Refusal :=
  match s.atWork c.ring 0x25 with
  | none => .next s
  | some d =>
    let now := unitBytes c.units.toNat (d.len - d.prog)
    let r := s.copyOut (decide (16 < d.len)) (d.opx.toNat % 2 ^ 32 - 0x10000000 + d.prog) ((now + 15) / 16) now []
    let t := if r.2.1.isEmpty then r.2.2 else r.2.2.issue (.hostWrite (d.addr + BitVec.ofNat 64 d.prog) r.2.1)
    .next (t.afterUnits c.ring d r.1 (d.prog + r.2.1.length) d.len false)

/-- A disabled ring's copies in progress stop where they stand: PART, or NONE before their first unit (R116). -/
def State.cutCopies (s : State) (n : Nat) : State :=
  let mine := fun (d : Desc) => d.started && d.res.isNone && (d.opcode == 0x24 || d.opcode == 0x25 || d.opcode == 0x28)
  let s := s.finish n (fun d => mine d && d.prog == 0) statusNone none (some s.time32)
  if (s.ring n).q.any mine then s.endNoEntry n mine statusPart else s

/-- FENCE: the descriptor at the head of ring n's work waits for what the named rings consumed before it; what is complete already ends it
at once (R102, R122). -/
def execFence (n : Fin 64) (s : State) : Host.Outcome State Fault Refusal :=
  match s.ready n 0x2D with
  | none => .next s
  | some d => .next ((s.modDesc n (fun e => e.is d.idx d.gen) (fun e => { e with started := true })).flushRing n)

/-! ## Enable, disable, flush (R88, R116, R120, R121, R664) -/

/-- Do the enable checks pass (R88)? -/
def State.ringOk (s : State) (n : Nat) : Bool :=
  let k := s.get (Reg.RING_CFG_KIND n)
  decide (k ≤ 4) && decide (s.get (Reg.RING_CFG_SIZE n) ≤ 12)
    && (k == 1 || k == 4 || (s.get (Reg.RING_CFG_SEL n) == 0 && s.get (Reg.RING_CFG_CLS n) == 0))
    && (k == 0 || !s.on (Reg.RING_CFG_STRIKE n))

/-- EN is written to 1. DEDUCED, log entry 33. -/
def State.enableRing (s : State) (n : Nat) : State :=
  if s.ringActive n then s
  else if !s.ringOk n then s.ringError n 4
  else
    let s := s.set (Reg.RING_CTRL_EN n) 1
    -- an error stands until RING_n_START has been written anew (R120)
    let s := if (s.ring n).restarted then (s.set (Reg.RING_STAT_ERR n) 0).set (Reg.RING_STAT_ERRCODE n) 0 else s
    let i := s.get (Reg.RING_START_IDX n)
    let g := s.get (Reg.RING_START_GEN n)
    s.modRing n (fun r => { Ring.zero with
      kind := s.get (Reg.RING_CFG_KIND n), ci := i, gen := g, rp := i, rg := g, valid := true, lseq := r.lseq,
      mark := s.get Reg.PWR_LEDHEAD_SEQ })

def execRingEnable (w : Who) (n : Fin 64) (s : State) : Host.Outcome State Fault Refusal :=
  .next (s.owned w (Reg.RING_CTRL n) (fun s => s.enableRing n))

/-- Is the frame one of ring `n`? -/
def Frame.ofRing (n : Nat) (f : Frame) : Bool :=
  match f.src with
  | .ring r _ => r == n
  | _ => false

def Frame.ringIdx (f : Frame) : Option (Nat × Nat) :=
  match f.src with
  | .ring r i => some (r, i)
  | _ => none

/-- FIRST indices of ring `n`'s frames that are on a wire. -/
def State.onWire (s : State) (n : Nat) : List Nat :=
  let fs := (s.ports.toList.flatMap (fun p => p.wire.toList ++ p.preempted.toList)) ++ s.cans.toList.flatMap (fun c => c.wire.toList)
  fs.filterMap (fun f => match f.ringIdx with
    | some (r, i) => if r == n then some i else none
    | none => none)

/-- Consumed work of ring `n` that has not started completes as NONE, posted buffers too when `posted`. DEDUCED, log entry 30. -/
def State.cancelRing (s : State) (n : Nat) (posted : Bool) : State :=
  let kind := (s.ring n).kind
  if kind = 0 then
    let keep := s.onWire n
    let gone := ((chains (s.ring n).q).filter (fun c => match c with
      | [] => false
      | d :: _ => !keep.contains d.idx)).flatten
    let s := { s with
      ports := s.ports.map (fun (p : Port) => { p with stage := p.stage.filter (fun f => !f.ofRing n), q := p.q.filter (fun f => !f.ofRing n) }),
      cans := s.cans.map (fun (c : Can) => { c with stage := c.stage.filter (fun f => !f.ofRing n), q := c.q.filter (fun f => !f.ofRing n) }) }
    s.finish n (inChain gone) statusNone none none
  else
    let waits := (s.prs.waiting.filterMap (fun (l : LoadReq) => l.req)).filter (fun (r : RingRef) => r.ring == n)
    let gone := fun (d : Desc) => !d.started || posted && (kind == 1 || kind == 4 || d.opcode == 0x2D)
      || ((chains (s.ring n).q).any (fun c => inChain c d && c.any (fun e => waits.any (fun r => r.picks e))))
    let s' := { s with prs := { s.prs with waiting := s.prs.waiting.filter (fun l => match l.req with
      | some r => r.ring != n
      | none => true) } }
    let timed := (s'.ring n).q.filter (fun d => gone d && timedOp d.opcode)
    (s'.finish n (inChain timed) statusNone none (some s.time32)).finish n gone statusNone none none

/-- FLUSH is written to 1 (R116): nothing happens while EN is 0. DEDUCED, log entry 30. -/
def State.flushCmd (s : State) (n : Nat) : State := if s.on (Reg.RING_CTRL_EN n) then s.cancelRing n false else s

def execRingFlush (w : Who) (n : Fin 64) (s : State) : Host.Outcome State Fault Refusal :=
  .next (s.owned w (Reg.RING_CTRL n) (fun s => s.flushCmd n))

/-! ## The writes of a Settle (R94, R97, R111, R112, R659) -/

/-- A ledger entry as it lies in memory (20). -/
def LedgerEntry.bytes (e : LedgerEntry) : List Byte :=
  leBytes 4 e.seq.toNat ++ leBytes 2 e.code.toNat ++ [e.unit, e.flags] ++ leBytes 8 e.time.toNat ++ leBytes 4 e.tick.toNat ++ leBytes 12 e.detail.toNat

/-- One entry goes to EVT ring `n`, or is dropped when the ring is full (R93). DEDUCED, log entry 33. -/
def State.evtPut (s : State) (n : Nat) (e : LedgerEntry) : State :=
  let r := s.ring n
  let size := s.ringSize n
  let outst := (r.gen + 256 - r.rg) % 256 * size + r.ci - r.rp
  if size ≤ outst then (s.count (Reg.RING_STAT_DROP n) 1).modRing n (fun r => { r with ovfl := true })
  else
    let base := s.word64 (Reg.RING_BASE_LO n) (Reg.RING_BASE_HI n)
    let s := s.issue (.hostWrite (base + BitVec.ofNat 64 (r.ci * 32)) e.bytes)
    (s.modRing n (fun r => { r with ci := (r.ci + 1) % size, gen := if r.ci + 1 = size then (r.gen + 1) % 256 else r.gen })).ringEvent n

/-- Entries newer than SEQ `q`, oldest first. -/
def newerThan (q : Nat) (l : List LedgerEntry) : List LedgerEntry := (l.takeWhile (fun e => e.seq.toNat != q)).reverse

/-- Entries recorded since the last Settle go to every enabled EVT ring. DEDUCED, log entry 33. -/
def State.evtWrites (s : State) : State :=
  let since := newerThan s.hif.evtSeq s.ledger
  let t := s.each 64 (fun n t =>
    if t.get (Reg.RING_CFG_KIND n) == 3 && t.on (Reg.RING_CTRL_EN n) && (t.ring n).live && !t.on (Reg.RING_STAT_ERR n) then
      let own := newerThan (t.ring n).mark s.ledger
      (since.filter (fun e => own.contains e)).foldl (fun t e => t.evtPut n e) t
    else t)
  { t with hif := { t.hif with evtSeq := s.get Reg.PWR_LEDHEAD_SEQ } }

def State.ringErrs (s : State) : Nat := bitmap ((List.range 64).filter (fun n => s.on (Reg.RING_STAT_ERR n)))

/-- Ports and links whose promise is void (VOIDMAP). -/
def State.voidMap (s : State) : Nat := bitmap (strikeUnits.filter (fun u => s.on (voidFld u)))

/-- Slots that are loaded: RUNNING, or being unloaded. DEDUCED, log entry 32. -/
def State.loadedMap (s : State) : Nat :=
  bitmap ((List.range 3).filter (fun n => s.slotState n == slotRunning || s.slotState n == slotUnloading))

/-- A ring's word in the shadow block. -/
def State.shadowRing (s : State) (n : Nat) : Nat :=
  let r := s.ring n
  r.ci + r.gen * 2 ^ 16 + s.get (Reg.RING_CTRL_EN n) * 2 ^ 24 + s.get (Reg.RING_STAT_ERR n) * 2 ^ 25
    + (if s.ringHeld n then 2 ^ 26 else 0) + (if r.ovfl then 2 ^ 27 else 0)

/-- The 1,024 bytes of the shadow block for the state `s`. DEDUCED, log entry 32. -/
def State.shadowBytes (s : State) (seq : Nat) (sent : BitVec 64) : List Byte :=
  let state := s.get Reg.HRT_STAT_RUNNING + 2 * s.get Reg.PWR_QSTAT_ACTIVE + (if s.voidMap = 0 then 0 else 4) + 8 * s.loadedMap
  leBytes 4 seq ++ leBytes 4 state ++ leBytes 8 s.tick ++ leBytes 8 (s.word64 Reg.HRT_TSTART_LO Reg.HRT_TSTART_HI).toNat
    ++ leBytes 4 (s.get Reg.PWR_LEDHEAD_SEQ) ++ leBytes 4 s.voidMap ++ leBytes 8 s.ringErrs ++ leBytes 8 sent.toNat
    ++ List.replicate 208 0 ++ (List.range 64).flatMap (fun n => leBytes 4 (s.shadowRing n)) ++ List.replicate 508 0 ++ leBytes 4 seq

/-- Is vector `v` of PF0 masked in the table, or all of them by the function mask? -/
def PciFn.masked (f : PciFn) (v : Nat) : Bool :=
  f.msixMask || ((f.tbl.find? (fun e => e.1 == v)).map (fun e => e.2.2.2)).getD true

/-- Vectors that are sent in this Settle, and those that become or stay pending (R111, R112). -/
def State.vecsDue (s : State) : BitVec 64 × BitVec 64 :=
  let f := s.pcie.pf0
  if !f.msixEn then (0, f.pba)
  else
    let all := s.hif.vecs ||| f.pba
    let m := BitVec.ofNat 64 (bitmap ((List.range 64).filter (fun v => !f.masked v)))
    (all &&& m, all &&& ~~~ m)

/-- The messages of PF1, which go out when the function may issue them (R679). -/
def State.settlePf1 (s : State) : State :=
  let f := s.pcie.pf1
  let all := s.hif.vecs1 ||| f.pba
  let m := BitVec.ofNat 64 (bitmap ((List.range 8).filter (fun v => !f.masked v)))
  let open1 := f.bme && !f.d3 && !f.flr && s.on Reg.DEV_PCISTAT_LINKUP
  if !f.msixEn then { s with hif := { s.hif with vecs1 := 0 } }
  else if !open1 then s
  else
    let s := { s with hif := { s.hif with vecs1 := 0 }, pcie := { s.pcie with pf1 := { f with pba := all &&& ~~~ m } } }
    ((List.range 8).filter (fun i => (all &&& m) &&& bit64 i != 0)).foldl (fun t i => t.send (.msix true i)) s

/-- EVT entries, the shadow block and the messages, in this order; the block describes the state `snap`, as the Settle found it. DEDUCED, log entry 32. DEDUCED, log entry 34. -/
def State.settleHost (snap s : State) : State :=
  let s := s.evtWrites
  let v := s.vecsDue
  let s := if s.on Reg.RING_GCTRL_SHEN && !s.pcie.pf0.d3 then
      let q := if s.hif.shSeq = 0xFFFFFFFF then 1 else s.hif.shSeq + 1
      let s := { s with hif := { s.hif with shSeq := BitVec.ofNat 32 (nextSeq s.hif.shSeq.toNat) } }
      s.issue (.hostWrite (s.word64 Reg.RING_SHADDR_LO Reg.RING_SHADDR_HI) (snap.shadowBytes q.toNat v.1))
    else s
  let s := { s with hif := { s.hif with vecs := 0 }, pcie := { s.pcie with pf0 := { s.pcie.pf0 with pba := v.2 } } }
  (((List.range 64).filter (fun i => v.1 &&& bit64 i != 0)).foldl (fun t i => t.issue (.msix false i)) s).settlePf1

end Sys2Proof.Machine
end

