-- ==== Sys2Proof/Machine/Mbx.lean ====
section
/-!
DEFINITION. Mailboxes, the Warden, the key store and debug unlock (21). Channel c below 8 is MBN c, channel 8 + c is MBS c;
direction 2c is A to B of channel c, 2c + 1 is B to A.
-/

namespace Sys2Proof.Machine

def State.modSec (s : State) (f : Secure → Secure) : State := { s with sec := f s.sec }

/-! ## Ends (R674 to R676) -/

/-- An end of a channel. -/
inductive MbxEnd where
  | none
  | host
  | engine (e : Nat)
  | remote
  | warden
deriving DecidableEq, Repr

def mbxEnd (mbs b : Bool) (type idx : Nat) : MbxEnd :=
  match type with
  | 1 => .host
  | 2 => .engine idx
  | 3 => if b then (if mbs then .warden else .remote) else .none
  | _ => .none

/-- Ends A and B that a CFG value names. -/
def endsOf (c : Nat) (v : W32) : MbxEnd × MbxEnd :=
  (mbxEnd (decide (8 ≤ c)) false (fieldGet v 0 2) (fieldGet v 4 4), mbxEnd (decide (8 ≤ c)) true (fieldGet v 8 2) (fieldGet v 12 4))

def State.ends (s : State) (c : Nat) : MbxEnd × MbxEnd := endsOf c (s.word (Reg.MBX_CFG c))
def State.sender (s : State) (i : Nat) : MbxEnd := if i % 2 = 0 then (s.ends (i / 2)).1 else (s.ends (i / 2)).2
def State.receiver (s : State) (i : Nat) : MbxEnd := if i % 2 = 0 then (s.ends (i / 2)).2 else (s.ends (i / 2)).1

/-- Is the channel configured (R674, R689)? -/
def State.mbxConfigured (s : State) (c : Nat) : Bool :=
  let e := s.ends c
  let ok := fun (x : MbxEnd) => match x with
    | .none => false
    | .engine n => decide (c < 8) || s.on (Reg.ENG_CFG_SECURE n)
    | _ => true
  ok e.1 && ok e.2 && e.1 != e.2

/-- Does an initiator reach the channel's registers (R677)? -/
def State.mbxReach (s : State) (w : Who) (c : Nat) : Bool :=
  decide (c < 8) || w == .pf1 || (match whoEngine w with
    | some e => s.on (Reg.ENG_CFG_SECURE e)
    | none => false)

/-- Is the initiator this end? -/
def isEnd (w : Who) (c : Nat) (x : MbxEnd) : Bool :=
  match x with
  | .host => if c < 8 then w == .host else w == .pf1
  | .engine n => (whoEngine w).any (fun e => e.val == n)
  | _ => false

/-! ## Registers of a direction -/

def mbxCtl (i : Nat) : Nat := if i % 2 = 0 then Reg.MBX_A2B_CTL (i / 2) else Reg.MBX_B2A_CTL (i / 2)
def mbxStat (i : Nat) : Nat := if i % 2 = 0 then Reg.MBX_A2B_STAT (i / 2) else Reg.MBX_B2A_STAT (i / 2)
def mbxBuf (i j : Nat) : Nat := if i % 2 = 0 then Reg.MBX_A2B_BUF (i / 2) j else Reg.MBX_B2A_BUF (i / 2) j
def mbxDb (i : Nat) : Fld := ⟨mbxStat i, 0, 1⟩
def mbxAck (i : Nat) : Fld := ⟨mbxStat i, 1, 1⟩
def mbxTimeout (i : Nat) : Fld := ⟨mbxStat i, 2, 1⟩
def mbxCancelled (i : Nat) : Fld := ⟨mbxStat i, 3, 1⟩
def mbxRefused (i : Nat) : Fld := ⟨mbxStat i, 4, 1⟩
def mbxRstate (i : Nat) : Fld := ⟨mbxStat i, 8, 2⟩

def State.dir (s : State) (i : Nat) : MbxDir := s.sec.dirs.getD i { len := 0, timing := none, wait := none }
def State.modDir (s : State) (i : Nat) (f : MbxDir → MbxDir) : State :=
  s.modSec (fun x => { x with dirs := x.dirs.setIfInBounds i (f (s.dir i)) })

/-- The first `n` bytes of a direction's buffer. -/
def State.message (s : State) (i n : Nat) : List Byte := ((List.range 16).flatMap (fun j => wordBytes (s.word (mbxBuf i j)))).take n

/-- Put a message into a direction's buffer. -/
def State.putMessage (s : State) (i : Nat) (b : List Byte) : State :=
  s.each ((b.length + 3) / 4) (fun j t =>
    let old := wordBytes (t.word (mbxBuf i j))
    let part := (b.drop (4 * j)).take 4
    t.setWord (mbxBuf i j) (BitVec.ofNat 32 (leNat (part ++ old.drop part.length))))

/-! ## Receiver states (R683) -/

/-- The state of an end of channel `c` at this instant; `last`: what the last MBXA reported. -/
def State.endState (s : State) (c : Nat) (x : MbxEnd) (last : Nat) : Nat :=
  match x with
  | .none => 0
  | .warden => 0
  | .engine e =>
    if (s.engN e).inReset ∨ s.engOwner e = 3 ∨ s.slotState (s.engOwner e) ≠ slotRunning then 1
    else if (s.engN e).halted ∨ s.get Reg.PWR_STAT_STATE = 2 then 2
    else 0
  | .host =>
    let f := if c < 8 then s.pcie.pf0 else s.pcie.pf1
    if f.flr ∨ s.power.hostReset then 1 else if f.d3 ∨ !f.bme then 2 else 0
  | .remote => if s.chnState ≠ chnConfigured ∨ !s.rtValid (s.get (Reg.MBX_CFG_RDEV c)) then 3 else last

/-- RSTATE of a direction. -/
def State.rstate (s : State) (i : Nat) : Nat := s.endState (i / 2) (s.receiver i) (s.get (mbxRstate i))

/-! ## Reports and notifications -/

/-- A ledger entry about a direction (R700). -/
def State.recordMbx (s : State) (code i : Nat) : State := s.record code (i / 2) (i % 2 + s.rstate i * 256)

/-- An access to an MBS channel without the right to it (R19). -/
def State.mbxDeny (s : State) (w : Who) (key : Nat) (write : Bool) : State :=
  let s := s.recordAccess codeSecure (whoReq w) (0x30000000 + key) write
  match w with
  | .engine e => s.trap e causeBus
  | _ => s

/-- An end of channel `c` is notified (R679). DEDUCED, log entry 45. -/
def State.notify (s : State) (c : Nat) (x : MbxEnd) : State :=
  match x with
  | .engine e => s.register e (bit64 (18 + c))
  | .host =>
    let v := BitVec.ofNat 64 (2 ^ s.get (Reg.MBX_CFG_VEC c))
    if c < 8 then (if s.pcie.pf0.msixEn then { s with hif := { s.hif with vecs := s.hif.vecs ||| v } } else s)
    else if !s.pcie.pf1.msixEn then s
    else { s with hif := { s.hif with vecs1 := s.hif.vecs1 ||| v } }
  | _ => s

/-! ## Across the Chain (R685 to R688) -/

/-- A mailbox request to the remote end of channel `c`, tagged Strike or not (R20): KIND 0 MSG, 1 TAKEN, 2 CANCEL, and for MSG the message. It goes
under a tag of its own, once one of the 64 is free (R412). DEDUCED, log entry 42. -/
def State.sendMbx (s : State) (strike : Bool) (c kind : Nat) (b : List Byte) : State :=
  let p := pad64 ([BitVec.ofNat 8 kind, BitVec.ofNat 8 (s.get (Reg.MBX_CFG_RCH c)), BitVec.ofNat 8 c, BitVec.ofNat 8 b.length, 0, 0, 0, 0] ++ b)
  (s.modChain (fun x => { x with mwait := x.mwait ++ [(c, kind, strike, p)] })).serveMwait

/-- The answer to a mailbox request about channel `c`. DEDUCED, log entry 42. -/
def State.sendMbxa (s : State) (dst tag c status : Nat) : State :=
  s.sendEt 1 2 dst tag (pad64 [BitVec.ofNat 8 status, BitVec.ofNat 8 (s.endState c (s.ends c).1 0)])

/-! ## Sending and taking (R678 to R682) -/

/-- The requests of channel `c` that await their MBXA no longer concern a message: their answers, or timeouts, only free their tags. -/
def State.disownTags (s : State) (c : Nat) : State :=
  s.modChain (fun x => { x with
    mtags := x.mtags.map (fun t => if t.2.1 = c then (t.1, c, 1) else t),
    mwait := x.mwait.filter (fun m => !(m.1 == c && m.2.1 != 1)) })

/-- The message of direction `i` is no longer pending. -/
def State.unring (s : State) (i : Nat) : State :=
  let s := (s.set (mbxDb i) 0).modDir i (fun d => { d with timing := none, wait := none })
  if i % 2 = 0 then s.disownTags (i / 2) else s

/-- The message of direction `i` counts as taken (R680). -/
def State.taken (s : State) (i : Nat) : State := ((s.unring i).set (mbxAck i) 1).notify (i / 2) (s.sender i)

/-- A refused doorbell (R674). -/
def State.refuseDb (s : State) (i : Nat) : State := s.set (mbxRefused i) 1

/-- When the timeout of a message that is accepted now in direction `i` expires: TMO µs on, at least 1 and at most 1,000,000 (R681). -/
def State.mbxUntil (s : State) (i : Nat) : Nat := s.now + 1000 * max 1 (min 1000000 (s.get ⟨mbxCtl i, 12, 20⟩))

/-- A message becomes pending in direction `i`: DB and the flags; `timing`: when its timeout expires. -/
def State.ring1 (s : State) (i n : Nat) (timing : Option Nat) : State :=
  let s := (((s.set (mbxDb i) 1).set (mbxAck i) 0).set (mbxTimeout i) 0).set (mbxCancelled i) 0
  (s.set (mbxRefused i) 0).modDir i (fun _ => { len := n, timing := timing, wait := none })

/-- An answer of the Warden on channel `c` (R692): a doorbell of the B end. DEDUCED, log entry 45. -/
def State.wardenAnswer (s : State) (c : Nat) (b : List Byte) : State :=
  let i := 2 * c + 1
  if s.on (mbxDb i) || !s.mbxConfigured c then s.refuseDb i
  else
    let s := (s.putMessage i b).set ⟨mbxCtl i, 0, 7⟩ b.length
    (s.ring1 i b.length (some (s.mbxUntil i))).notify c (s.receiver i)

/-- Does the Warden serve messages now? It performs one operation at a time. -/
def State.wardenFree (s : State) : Bool := s.sec.patch.isEmpty && s.sec.check.isNone

/-- The Warden takes the oldest message and answers it. -/
def State.wardenServe (s : State) (c : Nat) (b : List Byte) : State :=
  ((s.modSec (fun x => { x with queue := x.queue.drop 1 })).taken (2 * c)).wardenAnswer c b

/-- The first bytes of an answer: command plus 0x80, status, two zeros. -/
def answerHead (cmd status : Nat) : List Byte := [BitVec.ofNat 8 (cmd + 0x80), BitVec.ofNat 8 status, 0, 0]

/-- Messages whose command has no row of its own are answered with status 1 as they come to the head. DEDUCED, log entry 45. -/
def State.wardenSkip : Nat → State → State
  | 0, s => s
  | f + 1, s => match s.sec.queue with
    | [] => s
    | (c, b) :: _ =>
      if s.wardenFree && !(decide (1 ≤ byteAt b 0 ∧ byteAt b 0 ≤ 3)) then
        State.wardenSkip f (s.wardenServe c (answerHead (byteAt b 0) 1 ++ [0, 0, 0, 0]))
      else s

/-- DEDUCED, log entry 45. -/
def State.wardenGo (s : State) : State := State.wardenSkip s.sec.queue.length s

/-- A write of 1 to DB by the sender of direction `i`, tagged Strike or not (R678, R685). -/
def State.doorbell (s : State) (strike : Bool) (i : Nat) : State :=
  let c := i / 2
  let n := s.get ⟨mbxCtl i, 0, 7⟩
  let x := s.receiver i
  if !s.mbxConfigured c || s.on (mbxDb i) || decide (n = 0) || decide ((if x = .remote then 56 else 64) < n) then s.refuseDb i
  else
    let s := s.ring1 i n (some (s.mbxUntil i))
    match x with
    | .remote => (s.modDir i (fun d => { d with wait := some 0 })).sendMbx strike c 0 (s.message i n)
    | .warden => (s.modSec (fun y => { y with queue := y.queue ++ [(c, s.message i n)] })).wardenGo
    | x => s.notify c x

/-- CANCEL by the sender while DB is 1 (R682, R688). -/
def State.cancelMsg (s : State) (strike : Bool) (i : Nat) : State :=
  let c := i / 2
  match s.receiver i with
  | .remote => if (s.dir i).wait = some 2 then s else (s.modDir i (fun d => { d with wait := some 2 })).sendMbx strike c 2 []
  | _ => ((s.unring i).set (mbxCancelled i) 1).modSec (fun y => { y with queue := y.queue.filter (fun m => m.1 != c || i % 2 == 1) })

/-- TAKE by the receiver while DB is 1 (R680, R687). -/
def State.take (s : State) (strike : Bool) (i : Nat) : State :=
  let t := s.taken i
  match s.sender i with
  | .remote => t.sendMbx strike (i / 2) 1 []
  | _ => t

/-- xCTL of direction `i` is written (R675): the sender's fields, or the receiver's TAKE. DEDUCED, log entry 45. -/
def State.writeMbxCtl (s : State) (w : Who) (i : Nat) (v : W32) : State :=
  let c := i / 2
  let on := fun b => fieldGet v b 1 == 1
  let pending := s.on (mbxDb i)
  if !s.mbxReach w c then s.mbxDeny w (mbxCtl i) true
  else if isEnd w c (s.sender i) then
    let s := (s.set ⟨mbxCtl i, 0, 7⟩ (fieldGet v 0 7)).set ⟨mbxCtl i, 12, 20⟩ (fieldGet v 12 20)
    let s := if on 10 then s.recordMbx 0x0F03 i else s
    let s := if on 8 then s.doorbell (s.whoStrike w) i else s
    if on 9 && pending then s.cancelMsg (s.whoStrike w) i else s
  else if isEnd w c (s.receiver i) then
    let s := if on 8 || on 9 || !on 10 then s.recordMbx 0x0F03 i else s
    if on 10 && pending then s.take (s.whoStrike w) i else s
  else s.recordMbx 0x0F03 i

/-- A word of a buffer is written: by the sender while DB is 0 (R675, R678). -/
def State.writeMbxBuf (s : State) (w : Who) (i j : Nat) (v : W32) : State :=
  let c := i / 2
  if !s.mbxReach w c then s.mbxDeny w (mbxBuf i j) true
  else if !isEnd w c (s.sender i) then s.recordMbx 0x0F03 i
  else if s.on (mbxDb i) then s
  else s.setWord (mbxBuf i j) v

/-- xSTAT is written: its flags are the sender's (R675). -/
def State.writeMbxStat (s : State) (w : Who) (i : Nat) (v : W32) : State :=
  let c := i / 2
  if !s.mbxReach w c then s.mbxDeny w (mbxStat i) true
  else if !isEnd w c (s.sender i) then s.recordMbx 0x0F03 i
  else s.writeFields w (mbxStat i) v (fun _ => false)

/-- May an initiator write MBX_c_CFG to this value (R676)? -/
def State.mayConfigure (s : State) (w : Who) (c : Nat) (v : W32) : Bool :=
  let engines := fun (p : MbxEnd × MbxEnd) => [p.1, p.2].filterMap (fun x => match x with
    | .engine e => some e
    | _ => none)
  match whoEngine w with
  | some _ => s.mbxReach w c && (engines (s.ends c) ++ engines (endsOf c v)).all (fun e => s.engOwner e == s.whoSlot w)
  | none => if c < 8 then w == .host else w == .pf1

def State.writeMbxCfg (s : State) (w : Who) (c : Nat) (v : W32) : State :=
  if !s.mbxReach w c then s.mbxDeny w (Reg.MBX_CFG c) true
  else if s.mayConfigure w c v then s.writeFields w (Reg.MBX_CFG c) v (fun _ => false)
  else s.record 0x0F03 c 0

def execMailboxCfgWrite (w : Who) (c : Fin 16) (v : BitVec 32) (s : State) : Host.Outcome State Fault Refusal := .next (s.writeMbxCfg w c v)

/-- xCTL is written with DB 1. -/
def execMailboxDoorbell (w : Who) (i : Fin 32) (v : BitVec 32) (s : State) : Host.Outcome State Fault Refusal :=
  .next (s.writeMbxCtl w i (v ||| 0x100))

/-- xCTL is written with TAKE 1. -/
def execMailboxTake (w : Who) (i : Fin 32) (v : BitVec 32) (s : State) : Host.Outcome State Fault Refusal :=
  .next (s.writeMbxCtl w i (v ||| 0x400))

/-- xCTL is written with CANCEL 1. -/
def execMailboxCancel (w : Who) (i : Fin 32) (v : BitVec 32) (s : State) : Host.Outcome State Fault Refusal :=
  .next (s.writeMbxCtl w i (v ||| 0x200))

/-- Has the timeout of the message in direction `i` expired (R681)? -/
def State.mbxExpired (s : State) (i : Nat) : Bool := s.on (mbxDb i) && (s.dir i).timing.any (fun t => decide (t ≤ s.now))

/-- The timeout of the message in direction `i` expires (R681). -/
def execMbxTimeout (i : Fin 32) (s : State) : Host.Outcome State Fault Refusal :=
  if s.mbxExpired i then
    .next ((((s.set (mbxTimeout i) 1).modDir i (fun d => { d with timing := none })).notify (i / 2) (s.sender i)).recordMbx 0x0F01 i)
  else .next s

/-! ## Mailbox cells -/

/-- Does channel `c` name this channel of this device as its remote end (R685)? -/
def State.namesRemote (s : State) (c src rch : Nat) : Bool :=
  decide (c < 8) && (s.ends c).2 == .remote && s.get (Reg.MBX_CFG_RDEV c) == src && s.get (Reg.MBX_CFG_RCH c) == rch

/-- MSG of device `src` with this payload (R685). -/
def execMsg (src : Fin 32) (tag : BitVec 8) (b : List Byte) (s : State) : Host.Outcome State Fault Refusal :=
  if b.length ≠ 64 then .fault .illFormed
  else
    let c := byteAt b 1
    let i := 2 * c + 1
    if s.namesRemote c src (byteAt b 2) && s.mbxConfigured c && !s.on (mbxDb i) then
      let n := byteAt b 3 % 128
      let s := (s.putMessage i ((b.drop 8).take n)).set ⟨mbxCtl i, 0, 7⟩ n
      .next (((s.ring1 i n none).notify c (s.receiver i)).sendMbxa src tag.toNat c 0)
    else .next (s.sendMbxa src tag.toNat c 1)

/-- TAKEN of device `src` (R687). -/
def execTaken (src : Fin 32) (tag : BitVec 8) (b : List Byte) (s : State) : Host.Outcome State Fault Refusal :=
  if b.length ≠ 64 then .fault .illFormed
  else
    let c := byteAt b 1
    let i := 2 * c
    if s.namesRemote c src (byteAt b 2) && s.on (mbxDb i) then .next ((s.taken i).sendMbxa src tag.toNat c 4)
    else .next (s.sendMbxa src tag.toNat c 2)

/-- CANCEL of device `src` (R688). -/
def execCancel (src : Fin 32) (tag : BitVec 8) (b : List Byte) (s : State) : Host.Outcome State Fault Refusal :=
  if b.length ≠ 64 then .fault .illFormed
  else
    let c := byteAt b 1
    let i := 2 * c + 1
    if s.namesRemote c src (byteAt b 2) && s.on (mbxDb i) then .next ((s.unring i).sendMbxa src tag.toNat c 3)
    else .next (s.sendMbxa src tag.toNat c 2)

/-- The remote end has refused the message of channel `c`, or has not answered (R686). -/
def State.remoteRefused (s : State) (c : Nat) : State := ((s.unring (2 * c)).set (mbxRefused (2 * c)) 1).recordMbx 0x0F02 (2 * c)

/-- The mailbox request under a tag: its channel and KIND. -/
def State.mbxTag (s : State) (tag : Nat) : Option (Nat × Nat) := (s.chain.mtags.find? (fun x => x.1 == tag)).map (fun x => x.2)

/-- What an MBXA of status `st` says of the message of channel `c` that the request of KIND `kind` concerns (R685 to R688). -/
def State.mbxAnswer (s : State) (c kind st : Nat) : State :=
  let i := 2 * c
  if kind = 1 ∨ !s.on (mbxDb i) then s
  else match st with
    | 0 => if (s.dir i).wait = some 0 then s.modDir i (fun d => { d with wait := none }) else s
    | 1 => s.remoteRefused c
    | 2 => if kind = 2 then s.taken i else s
    | 3 => (s.unring i).set (mbxCancelled i) 1
    | _ => s

/-- MBXA under a request's tag, with this status and RSTATE; one under no tag that is held came after its timeout and is discarded (R408, R685 to
R688). -/
def execMbxa (tag : BitVec 8) (status : Fin 5) (r : Fin 4) (s : State) : Host.Outcome State Fault Refusal :=
  match s.mbxTag tag.toNat with
  | none => .next s
  | some (c, kind) => .next (((s.set (mbxRstate (2 * c)) r).mbxAnswer c kind status).dropTag tag.toNat)

/-- CHN_RTMO.US have passed since the request under this tag was sent, and no MBXA has come (R686). -/
def execMbxRemoteTimeout (tag : BitVec 8) (s : State) : Host.Outcome State Fault Refusal :=
  match s.mbxTag tag.toNat with
  | none => .next s
  | some (c, kind) => .next ((if kind ≠ 1 ∧ s.on (mbxDb (2 * c)) then s.remoteRefused c else s).dropTag tag.toNat)

/-! ## The Warden (R690 to R692) -/

/-- The staging partition's range, in bytes from the Hoard's start. -/
def State.staged (s : State) (a n : Nat) : Bool :=
  match s.partition 3 with
  | some (base, size) => decide (base ≤ a ∧ a + n ≤ base + size)
  | none => false

/-- A write by the host through PF1, which alone reaches the Warden (R19). -/
def State.pf1Only (s : State) (w : Who) (key : Nat) (f : State → State) : State := if w == .pf1 then f s else s.mbxDeny w key true

/-- WDN_PATCH_LEN is written (R690). -/
def State.writePatchLen (s : State) (w : Who) (v : W32) : State :=
  let s := s.writeFields w Reg.WDN_PATCH_LEN v (fun _ => false)
  let a := (s.word Reg.WDN_PATCH_ADDR).toNat
  if 0x10000000 ≤ a ∧ a < 0x11000000 then s.modSec (fun x => { x with patch := x.patch ++ [(a - 0x10000000, v.toNat)] }) else s

def execPatchCheck (w : Who) (v : BitVec 32) (s : State) : Host.Outcome State Fault Refusal :=
  .next (s.pf1Only w Reg.WDN_PATCH_LEN (fun s => s.writePatchLen w v))

/-- Bytes that the Warden reads from the Hoard (R243, R245), zeros where a bank does not serve (R18, R256); none when a granule is uncorrectable. -/
def State.wardenRead (s : State) (o n : Nat) : Option (List Byte) × State :=
  let p := (linePieces o n).foldl (fun (p : Access × State) x =>
    let q := p.2.readChecked (p.2.wardenDeny x.1 x.2) 26 x.1 x.2 (isBurst 26 o n); (p.1.join q.1, q.2)) (.ok [], s)
  match p.1 with
  | .ok b => (some b, p.2)
  | .denied b => (some b, p.2)
  | .uncorrectable => (none, p.2)

/-- Is a patch signed by the Drikete patch key (R690)? -/
def patchOk (b : List Byte) : Bool := signedBy (fun key => sha384 key == patchKeyHash) b (b.take (b.length - 200))

/-- The patch check in progress ends (R690). The command is the moment: DESIGN CHOICE, log entry 5. -/
def execPatchCheckDone (_ended : Unit) (s : State) : Host.Outcome State Fault Refusal :=
  match s.sec.patch with
  | [] => .next s
  | (a, n) :: rest =>
    let s := s.modSec (fun x => { x with patch := rest })
    let fail := fun (t : State) => ((t.set Reg.WDN_STAT_PFAIL 1).record 0x0F04 0xFF 0).wardenGo
    if !(s.staged a n) || n = 0 || 65536 < n then .next (fail s)
    else
      let p := s.wardenRead a n
      match p.1 with
      | none => .next (fail p.2)
      | some b =>
        let ver := leAt b 4 4
        if patchOk b && decide (p.2.sec.floor.toNat ≤ ver) then
          .next ((p.2.modSec (fun x => { x with floor := BitVec.ofNat 32 ver })).set Reg.WDN_STAT_PATCH 1).wardenGo
        else .next (fail p.2)

/-- Take a held lower word (R31); a word not written since the last take keeps its value. -/
def State.takeHeld (s : State) (key : Nat) : W32 × State :=
  ((s.heldAt key).getD (s.word key), { s with held := s.held.filter (fun p => p.1 != key) })

/-- Is the core permitted by secure descriptor `r` for the engine it serves? -/
def State.corePermitted (s : State) (r core : Nat) : Bool :=
  (List.range 16).any (fun e => s.coreOf e == core && s.secPermits r e)

/-- Lines in descriptor `r`'s range that a core not permitted holds are invalidated (R270). -/
def State.secFlush (s : State) (r : Nat) (inRange : Nat → Bool) : State :=
  let lines := (s.hoard.dir.filter (fun p => inRange p.1)).map (fun p => p.1)
  lines.foldl (fun t l =>
    if (List.range 18).any (fun c => (t.hoard.copy c l).isSome && !t.corePermitted r c) || (t.hoard.inFlight l).isSome then t.recall l true
    else t) s

/-- WDN_SEC_r_HI is written: the descriptor takes effect and HRD_SEC_r mirrors it (R270, R691). -/
def State.writeSecHi (s : State) (r : Nat) (v : W32) : State :=
  let old := fun (l : Nat) => s.secHas r l
  let p := s.takeHeld (Reg.WDN_SEC_LO r)
  let lo := p.1 &&& 0x00FFF001
  let hi := v &&& 0xFFFF
  let s := (p.2.setWord (Reg.WDN_SEC_LO r) lo).setWord (Reg.WDN_SEC_HI r) hi
  let empty := decide (fieldGet hi 0 12 < fieldGet lo 12 12)
  let s := (s.setWord (Reg.HRD_SEC_LO r) (fieldSet lo 0 1 (if empty then 0 else fieldGet lo 0 1))).setWord (Reg.HRD_SEC_HI r) hi
  s.secFlush r (fun l => old l || s.secHas r l)

def execSecureDescriptorWrite (w : Who) (r : Fin 16) (v : BitVec 32) (s : State) : Host.Outcome State Fault Refusal :=
  .next (s.pf1Only w (Reg.WDN_SEC_HI r) (fun s => s.writeSecHi r v))

/-- Serve the oldest message, if it has this command and the Warden is free (R692). -/
def State.wardenCommand (s : State) (cmd : Nat) (f : State → List Byte → List Byte × State) : State :=
  match s.sec.queue with
  | [] => s
  | (c, b) :: _ => if s.wardenFree && byteAt b 0 == cmd then let p := f s b; (p.2.wardenServe c p.1).wardenGo else s

def execArbRead (s : State) : Host.Outcome State Fault Refusal :=
  .next (s.wardenCommand 1 (fun s b =>
    if b.length < 2 ∨ 64 ≤ byteAt b 1 then (answerHead 1 1 ++ [0, 0, 0, 0], s)
    else (answerHead 1 0 ++ wordBytes (s.word (Reg.KEY_ARB (byteAt b 1))), s)))

/-- ARB_RAISE: status 2 when nothing was raised (R696). -/
def execArbRaise (s : State) : Host.Outcome State Fault Refusal :=
  .next (s.wardenCommand 2 (fun s b =>
    if b.length < 8 ∨ 64 ≤ byteAt b 1 then (answerHead 2 1 ++ [0, 0, 0, 0], s)
    else
      let p := s.raiseArb (byteAt b 1) (leAt b 4 4)
      (answerHead 2 (if p.1 then 0 else 2) ++ wordBytes (p.2.word (Reg.KEY_ARB (byteAt b 1))), p.2)))

def execUidRead (s : State) : Host.Outcome State Fault Refusal :=
  .next (s.wardenCommand 3 (fun s _ => (answerHead 3 0 ++ wordBytes (s.word Reg.DEV_UID_LO) ++ wordBytes (s.word Reg.DEV_UID_HI), s)))

/-! ## Key store (R694 to R696) -/

/-- KEY_CTL is written (R694). DEDUCED, log entry 45. -/
def State.writeKeyCtl (s : State) (v : W32) : State :=
  let cmd := fieldGet v 0 2
  let err := s.set Reg.KEY_STAT_CMDERR 1
  if fieldGet v 8 8 ≠ 0xC3 ∨ cmd = 0 then err
  else if cmd = 3 then (s.raiseArb (fieldGet v 2 6) (s.word Reg.KEY_ARBVAL).toNat).2
  else if s.on Reg.KEY_STAT_BUSY ∨ (cmd = 1 ∧ s.on Reg.KEY_STAT_ROOTSET) then err
  else
    let words := if cmd = 1 then (List.range 12).map (fun j => s.word (Reg.KEY_ROOTH j)) else []
    (s.modSec (fun x => { x with burn := some (cmd, words) })).set Reg.KEY_STAT_BUSY 1

/-- KEY_CTL is written with CMD 1. -/
def execBurnRoot (w : Who) (confirm : BitVec 8) (s : State) : Host.Outcome State Fault Refusal :=
  .next (s.pf1Only w Reg.KEY_CTL (fun s => s.writeKeyCtl (BitVec.ofNat 32 (1 + confirm.toNat * 256))))

/-- KEY_CTL is written with CMD 2. -/
def execBurnSeal (w : Who) (confirm : BitVec 8) (s : State) : Host.Outcome State Fault Refusal :=
  .next (s.pf1Only w Reg.KEY_CTL (fun s => s.writeKeyCtl (BitVec.ofNat 32 (2 + confirm.toNat * 256))))

/-- KEY_CTL is written with CMD 3. -/
def execRaise (w : Who) (i : BitVec 6) (confirm : BitVec 8) (s : State) : Host.Outcome State Fault Refusal :=
  .next (s.pf1Only w Reg.KEY_CTL (fun s => s.writeKeyCtl (BitVec.ofNat 32 (3 + i.toNat * 4 + confirm.toNat * 256))))

/-- The fuses of a burn hold. DESIGN CHOICE, log entry 39. -/
def State.burnt (s : State) (cmd : Nat) (words : List W32) : State :=
  if cmd = 1 then ((words.zipIdx).foldl (fun (t : State) x => t.setWord (Reg.KEY_ROOTH x.2) x.1) s).set Reg.KEY_STAT_ROOTSET 1
  else (s.set Reg.KEY_STAT_SEALONLY 1).set Reg.PRS_GSTAT_SEALONLY 1

/-- The burn in progress completes (R694). -/
def execKeyBurn (s : State) : Host.Outcome State Fault Refusal :=
  match s.sec.burn with
  | none => .next s
  | some (cmd, words) =>
    .next ((((s.burnt cmd words).set Reg.KEY_STAT_BUSY 0).modSec (fun x => { x with burn := none })).record 0x0F05 0xFF 0)

/-! ## Debug unlock (R697 to R699, R706) -/

/-- REQ is written with a SCOPE. -/
def State.debugRequest (s : State) (scope : Nat) : State :=
  if s.on Reg.DBGU_CTL_REFUSE then s
  else if !s.on Reg.KEY_STAT_ROOTSET then s.set Reg.DBGU_CTL_UNLOCKED scope
  else
    let a := s.free
    let b := a.2.free
    let u := b.2.uid
    let words := [a.1.setWidth 32, (a.1 >>> 32).setWidth 32, b.1.setWidth 32, (b.1 >>> 32).setWidth 32, u.setWidth 32, (u >>> 32).setWidth 32,
      BitVec.ofNat 32 scope, 0]
    ((words.zipIdx).foldl (fun (t : State) x => t.setWord (Reg.DBGU_CHAL x.2) x.1) b.2).modSec (fun x => { x with chal := some scope })

/-- DBGU_CTL is written: SCOPE, then REQ, then LOCK. -/
def State.writeDbguCtl (s : State) (v : W32) : State :=
  let scope := fieldGet v 2 2
  let s := s.set Reg.DBGU_CTL_SCOPE scope
  let s := if fieldGet v 0 1 = 1 then s.debugRequest scope else s
  if fieldGet v 1 1 = 1 then s.set Reg.DBGU_CTL_UNLOCKED 0 else s

/-- DBGU_CTL is written with REQ 1. -/
def execDebugRequest (w : Who) (scope : BitVec 2) (s : State) : Host.Outcome State Fault Refusal :=
  .next (s.pf1Only w Reg.DBGU_CTL (fun s => s.writeDbguCtl (BitVec.ofNat 32 (1 + scope.toNat * 4))))

/-- DBGU_CTL is written with LOCK 1. -/
def execDebugLock (w : Who) (scope : BitVec 2) (s : State) : Host.Outcome State Fault Refusal :=
  .next (s.pf1Only w Reg.DBGU_CTL (fun s => s.writeDbguCtl (BitVec.ofNat 32 (2 + scope.toNat * 4))))

/-- DBGU_RADDR is written: the outstanding challenge is checked, once (R698). -/
def State.writeRaddr (s : State) (v : W32) : State :=
  match s.sec.chal with
  | none => s
  | some scope =>
    if s.sec.check.isSome then s
    else
      (s.modSec (fun x => { x with chal := none, check := some (v.toNat, scope, (List.range 8).map (fun k => s.word (Reg.DBGU_CHAL k))) })).set
        Reg.DBGU_CTL_BUSY 1

def execDebugResponseCheck (w : Who) (v : BitVec 32) (s : State) : Host.Outcome State Fault Refusal :=
  .next (s.pf1Only w Reg.DBGU_RADDR (fun s => s.writeRaddr v))

/-- Is a response signed by the root key over these challenge words (R698)? -/
def State.responseOk (s : State) (chal : List W32) (b : List Byte) : Bool :=
  signedBy s.rootOk b (chal.flatMap (fun x => leBytes 4 x.toNat))

/-- The response check ends (R698). The command is the moment: DESIGN CHOICE, log entry 5. -/
def execDbgUnlock (_ended : Unit) (s : State) : Host.Outcome State Fault Refusal :=
  match s.sec.check with
  | none => .next s
  | some (a, scope, chal) =>
    let s := (s.modSec (fun x => { x with check := none })).set Reg.DBGU_CTL_BUSY 0
    let r := if 0x10000000 ≤ a ∧ a + 200 ≤ 0x11000000 then s.wardenRead (a - 0x10000000) 200 else (none, s)
    if r.1.any (r.2.responseOk chal) then
      .next ((r.2.set Reg.DBGU_CTL_UNLOCKED scope).record 0x0F06 0xFF 0).wardenGo
    else
      let n := r.2.sec.fails + 1
      .next (((r.2.modSec (fun x => { x with fails := n })).setB Reg.DBGU_CTL_REFUSE (decide (4 ≤ n))).record 0x0F07 0xFF 0).wardenGo

/-! ## What resets do here (19, Master survival table) -/

/-- The Warden session, debug unlock and the MBS channels are cleared. -/
def State.clearSession (s : State) : State :=
  let s := ((s.resetRegs 0xF800 0x10000).resetRegs 0x13000 0x14000).set Reg.WDN_STAT_PATCH 0
  (s.set Reg.WDN_STAT_PFAIL 0).modSec (fun x => { x with
    dirs := Vector.ofFn (fun (i : Fin 32) => if i.val < 16 then x.dirs[i] else { len := 0, timing := none, wait := none }),
    queue := [], patch := [], chal := none, check := none, fails := 0 })

/-- MBS channels alone are cleared (N12). -/
def State.clearMbs (s : State) : State :=
  (s.resetRegs 0xF800 0x10000).modSec (fun x => { x with
    dirs := Vector.ofFn (fun (i : Fin 32) => if i.val < 16 then x.dirs[i] else { len := 0, timing := none, wait := none }), queue := [] })

/-- MBN messages whose sender or receiver is the host are cancelled (N11). -/
def State.cancelHostMsgs (s : State) : State :=
  s.each 16 (fun i t => if t.on (mbxDb i) && (t.sender i == .host || t.receiver i == .host) then (t.unring i).set (mbxCancelled i) 1 else t)

end Sys2Proof.Machine
end

