-- ==== Sys2Proof/Machine/Hoard.lean ====
section
/-!
DEFINITION. The commands of the Hoard's banks, partitions and migrations (08).
-/

namespace Sys2Proof.Machine

/-! ## Partitions (R240) -/

/-- The used entries of the pending layout. -/
def State.pendingParts (s : State) : List Part :=
  ((List.range 8).map (fun p => { base := s.get (Reg.HRD_PART_BASE p), size := s.get (Reg.HRD_PART_SIZE p), kind := s.get (Reg.HRD_PART_KIND p) })).filter
    (fun (p : Part) => p.size != 0 && p.kind != 0)

def overlaps (a b : Part) : Bool := decide (a.base < b.base + b.size ∧ b.base < a.base + a.size)

/-- The code of the first failed check of a layout, or 0. -/
def partCode (l : List Part) : Nat :=
  if l.zipIdx.any (fun x => l.zipIdx.any (fun y => decide (x.2 < y.2) && overlaps x.1 y.1)) then 1
  else if l.any (fun p => decide (256 < p.base + p.size)) then 2
  else if [3, 4, 5, 6].any (fun k => decide (1 < (l.filter (fun p => p.kind == k)).length)) then 3
  else 0

/-- APPLY is written: a locked write never gets here. -/
def State.partApply (s : State) : State :=
  let l := s.pendingParts
  let c := partCode l
  let s := s.set Reg.HRD_STAT_PARTCODE c
  if c = 0 then s.modHoard (fun h => { h with parts := l }) else s.set Reg.HRD_STAT_PARTERR 1

def execPartitionApply (w : Who) (s : State) : Host.Outcome State Fault Refusal :=
  .next (s.owned w Reg.HRD_PCTL State.partApply)

/-! ## Bank states (R253 to R256, R276) -/

/-- The target of a bank; 3 is taken as 2. DEDUCED, log entry 25. -/
def State.bankTgt (s : State) (b : Nat) : Nat := min 2 (s.get (Reg.HRD_BANK_TGT b))
def State.bankCur (s : State) (b : Nat) : Nat := s.get (Reg.HRD_BANK_CUR b)

/-- The lines of bank `b` that the directory records. -/
def State.bankLines (s : State) (b : Nat) : List Nat := (s.hoard.dir.filter (fun p => bankOf p.1 == b)).map (fun p => p.1)

/-- A drain recalls every line that engines hold in the bank. -/
def State.drainBank (s : State) (b : Nat) : State :=
  (s.bankLines b).foldl (fun t l => t.recall l true) (s.set (Reg.HRD_BANK_CUR b) curDrain)

/-- A transition starts: CUR reads 5 until it completes in state `to`. -/
def State.beginTrans (s : State) (b dst : Nat) : State :=
  (s.set (Reg.HRD_BANK_CUR b) curTrans).modHoard (fun h => { h with transTo := h.transTo.setIfInBounds b (some dst) })

/-- At a Settle start a bank's pending transition, or that of a drained bank, starts (R253, R254). -/
def State.settleBank (s : State) (b : Nat) : State :=
  let t := s.bankTgt b
  let c := s.bankCur b
  if c = curOn then (if t = 0 then s else s.drainBank b)
  else if c = curDrain then (if t ≠ 0 ∧ (s.bankLines b).isEmpty then s.beginTrans b t else s)
  else if c = curRet then (if t = 0 then s.beginTrans b curOn else if t = 2 then s.beginTrans b curOff else s)
  else if c = curOff then (if t = 2 ∨ !s.bankMapped b then s else s.beginTrans b curFill)
  else s

def State.settleBanks (s : State) : State := s.each 32 (fun b t => t.settleBank b)

/-- Forget the error marks of a bank. -/
def State.clearEcc (s : State) (b : Nat) : State :=
  let inB := fun (g : Nat) => decide (0x10000000 ≤ g ∧ g < 0x11000000) && bankOf (g - 0x10000000) == b
  { s with eccUnc := s.eccUnc.filter (fun g => !inB g), eccOne := s.eccOne.filter (fun g => !inB g) }

/-- A bank's contents are zero with valid ECC, or lost. -/
def State.zeroBank (s : State) (b : Nat) : State :=
  { s.clearEcc b with mem := Memory.clear s.mem (Memory.hoard (b * 0x80000)) (Memory.hoard ((b + 1) * 0x80000)) }

/-! ## Migrations (R265 to R268) -/

/-- DEDUCED, log entry 25. -/
def State.spareUsed (s : State) (i : Nat) : Bool :=
  if i = 0 then s.get Reg.TMP_SPARES_BANK32 != 0x3F else s.get Reg.TMP_SPARES_BANK33 != 0x3F

/-- The lowest-numbered unused spare bank. -/
def State.spareBank (s : State) : Option Nat := if !s.spareUsed 0 then some 32 else if !s.spareUsed 1 then some 33 else none

/-- A migration of bank `b` starts, waits until the bank is ON, or finds no spare (R265, R268); the entry's UNIT is the bank. DEDUCED, log entry 14. -/
def State.startMig (s : State) (b : Nat) : State :=
  match s.spareBank with
  | none => (s.set Reg.HRD_STAT_NOSPARE 1).record 0x0403 b 0
  | some p =>
    if s.bankCur b = curOn then
      (s.set Reg.HRD_STAT_MIGBUSY 1).modHoard (fun h => { h with migs := [{ bank := b, spare := p, copied := false, pos := 0 }] })
    else s.modHoard (fun h => { h with migWait := b :: h.migWait.filter (fun x => x != b) })

/-- A migration that waited for bank `b` to be ON starts (R268). -/
def State.startWaiting (s : State) (b : Nat) : State :=
  if s.hoard.migWait.contains b ∧ s.hoard.migs.isEmpty then
    (s.modHoard (fun h => { h with migWait := h.migWait.filter (fun x => x != b) })).startMig b
  else s

/-- Bank `b` comes to read ON: it enters DRAIN at once when TGT is another state (R253, R254); else a migration that waited for it starts
(R268). -/
def State.bankOn (s : State) (b : Nat) : State :=
  if s.bankTgt b = 0 then (s.set (Reg.HRD_BANK_CUR b) curOn).startWaiting b else s.drainBank b

/-- TGT of bank `b` is written (R253). -/
def State.writeTgt (s : State) (b v : Nat) : State :=
  if !s.bankMapped b then s else
  let s := s.set (Reg.HRD_BANK_TGT b) v
  if s.bankCur b = curOn then (if s.bankTgt b = 0 then s else s.drainBank b)
  else if s.bankCur b = curDrain then (if s.bankTgt b = 0 then s.bankOn b else s)
  else s

def execBankTargetWrite (w : Who) (b : Fin 32) (v : BitVec 2) (s : State) : Host.Outcome State Fault Refusal :=
  .next (s.owned w (Reg.HRD_BANK b) (fun s => s.writeTgt b v.toNat))

/-- HRD_MIG is written: BANK, THR (locked by the field's lock) and GO, which is ignored while MIGBUSY is 1. -/
def State.writeMig (s : State) (w : Who) (v : W32) : State :=
  let s := s.writeFields w Reg.HRD_MIG v (fun _ => false)
  if fieldGet v 8 1 = 1 ∧ !s.on Reg.HRD_STAT_MIGBUSY then s.startMig (fieldGet v 0 5) else s

def execMigrationGo (w : Who) (v : BitVec 32) (s : State) : Host.Outcome State Fault Refusal :=
  .next (s.owned w Reg.HRD_MIG (fun s => s.writeMig w v))

def execMigrationThreshold (b : Fin 32) (s : State) : Host.Outcome State Fault Refusal :=
  let thr := s.get Reg.HRD_MIG_THR
  if thr = 0 ∨ s.get (Reg.HRD_BANK_CORR b) < thr ∨ s.bankCur b ≠ curOn then .next s
  else if s.on Reg.HRD_STAT_MIGBUSY then .next (s.modHoard (fun h => { h with migWait := b.val :: h.migWait.filter (fun x => x != b.val) }))
  else .next (s.startMig b)

/-- Is this a Settle, or does no tick run? A repair, a bank's change of state, a fill and a migration's copy act in no other phase (R80, R254,
R255, R266). -/
def State.inSettle (s : State) : Bool := !s.running || s.phase == 3

/-- Does the migration go on: is its bank ON (R268)? -/
def State.migrates (s : State) (m : Migration) : Bool := s.bankCur m.bank == curOn

/-- The last word of the migration in progress is copied, in a Settle: the switch comes at the next Settle start (R266, R267). -/
def execMigrationCopyDone (s : State) : Host.Outcome State Fault Refusal :=
  .next (if s.inSettle then s.modHoard (fun h => { h with migs := h.migs.map (fun m =>
    if s.migrates m then { m with copied := true, pos := 32768 } else m) }) else s)

/-- A Settle copies further words of the migrating bank, in ascending order: how many is a free value, short of the last word, which
MIGRATION_COPY_DONE stands for (R266). DESIGN CHOICE, log entry 78. -/
def State.migCopy (s : State) : State :=
  match s.hoard.migs with
  | [] => s
  | m :: _ =>
    if m.copied || !s.migrates m then s
    else
      let a := s.free
      a.2.modHoard (fun h => { h with migs := h.migs.map (fun x => { x with pos := x.pos + a.1.toNat % (32768 - x.pos) }) })

/-- The transition of bank `b`, if one is in progress, completes (R254, R255). -/
def State.endTrans (s : State) (b : Nat) : State :=
  match s.hoard.transTo.getD b none with
  | none => s
  | some t =>
    let s := (s.set (Reg.HRD_BANK_CUR b) t).modHoard (fun h => { h with transTo := h.transTo.setIfInBounds b none })
    if t = curOff then s.zeroBank b
    else if t = curOn then s.bankOn b
    else s

/-- A transition of bank `b` completes; it does so within its Settle (R80, R254). -/
def execBankTransitionDone (b : Fin 32) (s : State) : Host.Outcome State Fault Refusal := .next (if s.inSettle then s.endTrans b else s)

def execFillDone (b : Fin 32) (s : State) : Host.Outcome State Fault Refusal :=
  if s.bankCur b ≠ curFill ∨ !s.inSettle then .next s
  else .next ((s.zeroBank b).bankOn b)

/-! ## The scrubber (R264) -/

/-- The word of its bank that holds granule `g`, when bank `b` has it. -/
def granuleWord (b g : Nat) : Option Nat :=
  if 0x10000000 ≤ g ∧ g < 0x11000000 ∧ bankOf (g - 0x10000000) = b then some ((g - 0x10000000) % 0x80000 / 16) else none

/-- Put a granule into a list that ascends by a key. -/
def insertBy (key : Nat → Nat) (g : Nat) : List Nat → List Nat
  | [] => [g]
  | x :: r => if key g ≤ key x then g :: x :: r else x :: insertBy key g r

/-- One bank's scrub steps of one Settle: no word that a migration has not copied yet. DEDUCED, log entry 25. -/
def State.scrubBank (s : State) (b : Nat) : State :=
  if s.bankCur b ≠ curOn then s
  else
    let rate := if s.get Reg.HRD_SCRUB_RATE = 0 then 4096 else s.get Reg.HRD_SCRUB_RATE
    let start := s.hoard.scrub.getD b 0
    let seen := fun g => match granuleWord b g with
      | some w => decide ((w + 32768 - start) % 32768 < rate) && !s.hoard.migs.any (fun m => m.bank == b && decide (m.pos ≤ w))
      | none => false
    let s := (s.eccOne.filter seen).foldl State.correct s
    let order := fun (g : Nat) => ((g - 0x10000000) % 0x80000 / 8 + 65536 - 2 * start) % 65536
    let s := ((s.eccUnc.filter seen).foldr (insertBy order) []).foldl (fun t g => t.uncorrectable 0xFF g false) s
    s.modHoard (fun h => { h with scrub := h.scrub.setIfInBounds b ((start + rate) % 32768) })

def State.scrub (s : State) : State := if s.on Reg.HRD_CTRL_SCRUBEN then s.each 32 (fun b t => t.scrubBank b) else s

end Sys2Proof.Machine
end

