-- ==== Sys2Proof/Machine/Ingot.lean ====
section
/-!
DEFINITION. The commands of the Ingot (17), and the disabling of a ring, which can stop them (R116).
-/

namespace Sys2Proof.Machine

/-- ING_PROGRAM: the descriptor at the head of ring n's work, whose data has arrived, or the whole pages of it that have (R115, R568, R571). -/
def execIngProgram (n : Fin 64) (s : State) : Host.Outcome State Fault Refusal :=
  match s.ready n 0x26 with
  | none => .next s
  | some d =>
    match d.data with
    | none => .next s
    | some b =>
      let b := if d.short then b.take (b.length / 256 * 256) else b
      if b.isEmpty then .next (s.endNoEntry n (fun e => e.is d.idx d.gen) statusFail)
      else .next ((s.start n d).ingQueue
        { src := .ring { ring := n, idx := d.idx, gen := d.gen, tag := d.tag }, erase := false, idx := d.opx.toNat % 2 ^ 32 / 256,
          data := b, left := 0, cut := false })

/-- Does an erase wait or run? A further one holds its ring (R576). -/
def State.erasing (s : State) : Bool := s.ing.jobs.any (fun j => j.erase) || s.ing.cur.any (fun j => j.erase) || s.ing.susp.isSome

/-- ING_ERASE: the descriptor at the head of ring n's work (R573, R576). DEDUCED, log entry 35. -/
def execIngErase (n : Fin 64) (s : State) : Host.Outcome State Fault Refusal :=
  match s.ready n 0x27 with
  | none => .next s
  | some d =>
    if s.erasing then .next s
    else .next ((s.start n d).ingQueue
      { src := .ring { ring := n, idx := d.idx, gen := d.gen, tag := d.tag }, erase := true, idx := d.opx.toNat % 2 ^ 32, data := [],
        left := d.opx.toNat / 2 ^ 32, cut := false })

/-- ING_READ: the descriptor at the head of ring n's work, or the one in progress: `units` 16-byte units of it, or all that are left (0)
(R116, R566, R579). DEDUCED, log entry 35. -/
def execIngRead (c : CopyRun) (s : State) : Host.Outcome State Fault Refusal :=
  match s.atWork c.ring 0x28 with
  | none => .next s
  | some d =>
    let x := d.opx.toNat % 2 ^ 32 + d.prog
    if !s.ingReadable (x / 0x10000) then .next s.ingAsk
    else
      let r := s.ingUnits (unitBytes c.units.toNat (d.len - d.prog) / 16) x []
      let t := if r.2.1.isEmpty then r.2.2 else r.2.2.issue (.hostWrite (d.addr + BitVec.ofNat 64 d.prog) r.2.1)
      .next ((t.afterUnits c.ring d (if r.1 then none else some true) (d.prog + r.2.1.length) d.len false).ingServed)

/-- ING_CMD is written (R567). -/
def State.writeIngCmd (s : State) (v : W32) : State :=
  let i := fieldGet v 0 15
  let op := fieldGet v 16 2
  let busy := s.get Reg.ING_CMDSTAT_RESULT == 1
  let s := (s.set Reg.ING_CMD_INDEX i).set Reg.ING_CMD_OP op
  if fieldGet v 31 1 = 0 ∨ busy then s
  else if op = 0 ∨ op = 3 ∨ (op = 2 ∧ 127 < i) then (s.set Reg.ING_CMDSTAT_RESULT 3).set Reg.ING_CMDSTAT_CODE 1
  else
    let data := if op = 1 then (List.range 64).flatMap (fun j => leBytes 4 (s.word (Reg.ING_BUF j)).toNat) else []
    ((s.set Reg.ING_CMDSTAT_RESULT 1).set Reg.ING_CMDSTAT_CODE 0).ingQueue
      { src := .cmd, erase := op == 2, idx := i, data := data, left := 1, cut := false }

/-- A write of GO with OP 1 and this INDEX. -/
def execIngCmdProgram (w : Who) (i : BitVec 15) (s : State) : Host.Outcome State Fault Refusal :=
  .next (s.owned w Reg.ING_CMD (fun s => s.writeIngCmd (BitVec.ofNat 32 (0x80010000 + i.toNat))))

/-- A write of GO with OP 2 and this INDEX. -/
def execIngCmdErase (w : Who) (i : BitVec 15) (s : State) : Host.Outcome State Fault Refusal :=
  .next (s.owned w Reg.ING_CMD (fun s => s.writeIngCmd (BitVec.ofNat 32 (0x80020000 + i.toNat))))

/-- The running page program writes its commit marker (`ok`), or fails verification twice (R568 to R571). -/
def execPageProgramDone (ok : Bool) (s : State) : Host.Outcome State Fault Refusal :=
  match s.ing.cur with
  | none => .next s
  | some j =>
    if j.erase then .next s
    else if ok then
      let k := Memory.ingot (j.idx * 256)
      let s := s.wr k (j.data.take 256)
      let keep := fun g => decide (g < k ∨ k + 256 ≤ g)
      let s := { s with eccUnc := s.eccUnc.filter keep, eccOne := s.eccOne.filter keep }
      .next (s.ingUnitDone j { j with idx := j.idx + 1, data := j.data.drop 256 } (decide (256 < j.data.length)))
    else .next (((s.ingFree.record 0x0C02 j.sector (j.idx * 256)).ingFail j 4).ingGo)

/-- The running sector erase completes (R573). -/
def execSectorEraseDone (s : State) : Host.Outcome State Fault Refusal :=
  match s.ing.cur with
  | none => .next s
  | some j =>
    if !j.erase then .next s
    else
      let k := Memory.ingot (j.idx * 0x10000)
      let keep := fun g => decide (g < k ∨ k + 0x10000 ≤ g)
      let s := { s with mem := Memory.clear s.mem k (k + 0x10000), eccUnc := s.eccUnc.filter keep, eccOne := s.eccOne.filter keep }
      let s := s.set (sectorFld j.idx) secNormal
      match j.src with
      | .repair => .next (s.ingUnitDone j { j with erase := false, idx := j.idx * 256 } true)
      | _ => .next (s.ingUnitDone j { j with idx := j.idx + 1, left := j.left - 1 } (decide (1 < j.left)))

/-- ING_CTRL.SUSP is written to 1 (R574). -/
def State.writeSusp (s : State) : State :=
  match s.ing.cur with
  | some j => if j.erase then s.modIng (fun g => { g with suspReq := some true }) else s
  | none => s

def execEraseSuspend (w : Who) (s : State) : Host.Outcome State Fault Refusal := .next (s.owned w Reg.ING_CTRL State.writeSusp)

/-- The suspension under way takes effect (R574). -/
def execSuspendComplete (s : State) : Host.Outcome State Fault Refusal :=
  match s.ing.cur, s.ing.suspReq with
  | some j, some b =>
    let s := (s.ingFree.modIng (fun g => { g with susp := some (j, b) })).set (sectorFld j.sector) secSuspended
    .next (s.set Reg.ING_STAT_SUSPD 1).ingGo
  | _, _ => .next s

/-- ING_CTRL.RESUME is written to 1 (R575): at once, or when the running program ends. -/
def State.writeResume (s : State) : State :=
  match s.ing.susp with
  | none => s
  | some (j, _) => if s.ing.cur.isNone then s.ingResume else s.modIng (fun g => { g with susp := some (j, false) })

def execEraseResume (w : Who) (s : State) : Host.Outcome State Fault Refusal := .next (s.owned w Reg.ING_CTRL State.writeResume)

/-- A load that ring `n` asked for and that is in progress stops as PART (R116, R292). -/
def State.cutLoad (s : State) (n : Nat) : State :=
  match (List.range 3).find? (fun i => (s.slot i).req.any (fun r => r.ring == n) && s.slotState i != slotRunning) with
  | some i => (s.failLoadAs i errCancelled statusPart).afterLoad
  | none => s

/-- EN is written to 0 (R116). -/
def State.disableRing (s : State) (n : Nat) : State :=
  if !s.on (Reg.RING_CTRL_EN n) then s
  else
    let s := (s.set (Reg.RING_CTRL_EN n) 0).modRing n (fun r => { r with
      chainAt := none, chainBad := none, offAt := if s.running ∧ s.phase = 0 then some s.tick else none })
    (((s.cancelRing n true).cutCopies n).cutLoad n).ingCut n

def execRingDisable (w : Who) (n : Fin 64) (s : State) : Host.Outcome State Fault Refusal :=
  .next (s.owned w (Reg.RING_CTRL n) (fun s => s.disableRing n))

end Sys2Proof.Machine
end

