-- ==== Sys2Proof/Machine/Temper.lean ====
section
/-!
DEFINITION. The Temper loops (18): Bellows, equalisation, threshold loops, placement, substitution; and the end of a migration.
-/

namespace Sys2Proof.Machine

def State.modTemper (s : State) (f : Temper → Temper) : State := { s with temper := f s.temper }

/-! ## Bellows (R589 to R597) -/

/-- DESIGN CHOICE, log entry 39. -/
def State.vstart (s : State) (i : Nat) : Nat := s.get (Reg.TMP_LAD_VSTART i)
def State.rung (s : State) : Nat := s.get Reg.TMP_BLWSTAT_RUNG
def State.emergency (s : State) : Bool := s.get Reg.TMP_BLWSTAT_STATE == 2

/-- A new voltage is due: it goes out, or replaces what is queued behind the transaction in flight (R591). -/
def State.avsSend (s : State) (v : Nat) : State :=
  match s.temper.fly with
  | none => (s.modTemper (fun t => { t with fly := some v })).send (.avs v)
  | some _ => s.modTemper (fun t => { t with queued := some v })

def State.setVcode (s : State) (v : Nat) : State :=
  if s.get Reg.TMP_BLWSTAT_VCODE = v then s else (s.set Reg.TMP_BLWSTAT_VCODE v).avsSend v

/-- EMERGENCY is entered (R595, R618). -/
def State.enterEmergency (s : State) : State :=
  if s.emergency then s
  else
    let s := ((s.set Reg.TMP_BLWSTAT_STATE 2).set Reg.TMP_BLWSTAT_EMEV 1).record 0x0D02 0xFF 0
    let s := if s.temper.fsw.isSome then s else s.set Reg.TMP_BLWSTAT_RUNG 0
    let s := s.modTemper (fun t => { t with em := 0, target := 0, fsw := t.fsw.map (fun _ => 0) })
    (s.setVcode 50).checkVoids

def execBellowsEmerg (s : State) : Host.Outcome State Fault Refusal := .next s.enterEmergency

/-- Tj reaches 135 °C: the device Quenches, and HOLD stands until Tj falls below 125 °C (R596, R668). DEDUCED, log entry 38. -/
def execThermalQuench (s : State) : Host.Outcome State Fault Refusal :=
  let t := (s.record 0x0D04 0xFF 0).quench 7 true
  .next (if t.get Reg.PWR_QSTAT_FIRST = 7 then t.set Reg.PWR_QSTAT_HOLD 1 else t)

/-- TLIM and SLACKHI as they are taken. -/
def State.tlim (s : State) : Int := max 60 (min 124 (s.get Reg.TMP_BLWTHR_TLIM))
def State.slackHi (s : State) : Nat := max (s.get Reg.TMP_BLWTHR_SLACKHI) (s.get Reg.TMP_BLWTHR_SLACKLO + 1)

/-- The voltage loop (R592). -/
def State.voltLoop (s : State) (x : Int) : State :=
  let v := s.get Reg.TMP_BLWSTAT_VCODE
  if x < (s.get Reg.TMP_BLWTHR_SLACKLO : Int) then
    let s := s.modTemper (fun t => { t with hi := 0 })
    if v < 50 then s.setVcode (v + 1) else s
  else if (s.slackHi : Int) < x then
    if 15 ≤ s.temper.hi ∧ 0 < v then
      let s := s.modTemper (fun t => { t with hi := 0 })
      if s.emergency then s else s.setVcode (v - 1)
    else s.modTemper (fun t => { t with hi := min 15 (t.hi + 1) })
  else s.modTemper (fun t => { t with hi := 0 })

/-- The floor (R596). -/
def State.floorCheck (s : State) (x : Int) : State :=
  if x < 0 ∧ s.rung = 0 ∧ s.get Reg.TMP_BLWSTAT_VCODE = 50 then
    let n := s.temper.floor + 1
    let s := s.modTemper (fun t => { t with floor := min n 17 })
    if n = 16 then
      let s := (s.set Reg.TMP_BLWSTAT_FLOORFAIL 1).record 0x0D03 0xFF 0
      if s.on Reg.TMP_BLWCFG_FLOORQ then s.quench 6 true else s
    else s
  else s.modTemper (fun t => { t with floor := 0 })

/-- The throttle states (R595). -/
def State.throttle (s : State) (x tj : Int) : State :=
  if s.emergency then
    if (s.get Reg.TMP_BLWTHR_SLACKLO : Int) ≤ x ∧ tj < 125 ∧ !s.temper.failed then
      if 1023 ≤ s.temper.em then (s.modTemper (fun t => { t with em := 0, target := 0 })).set Reg.TMP_BLWSTAT_STATE 0
      else s.modTemper (fun t => { t with em := t.em + 1 })
    else s.modTemper (fun t => { t with em := 0 })
  else if x < 0 ∨ 125 ≤ tj then s.enterEmergency
  else if s.get Reg.TMP_BLWSTAT_STATE = 0 then
    if s.tlim ≤ tj then (s.modTemper (fun t => { t with lim := 0 })).set Reg.TMP_BLWSTAT_STATE 1 else s
  else if tj < s.tlim - 5 then
    if 1023 ≤ s.temper.lim then (s.modTemper (fun t => { t with lim := 0 })).set Reg.TMP_BLWSTAT_STATE 0
    else s.modTemper (fun t => { t with lim := t.lim + 1 })
  else s.modTemper (fun t => { t with lim := 0 })

/-- The target under AUTO, from the largest busy time over 16 Compute phases in TIME cycles of 4 ns (R593). -/
def State.autoTarget (s : State) : Nat :=
  let busy := s.temper.busy16.toList.foldl max 0 * 4 * 100
  let span := 16 * (s.boundary 2 - s.boundary 1)
  let util := s.get Reg.TMP_BLWCFG_UTIL
  let f := 400 + 50 * s.rung
  let t := s.temper.target
  if util * span < busy then t + 1
  else if 0 < s.rung ∧ 10 ≤ util ∧ busy * f ≤ (util - 10) * span * (f - 50) then t - 1
  else t

/-- The target rung (R593, R619). -/
def State.retarget (s : State) : State :=
  if s.emergency then s
  else
    let due := s.running && s.tick % 16 == 15
    let t := if s.on Reg.TMP_BLWCFG_MODE then s.get Reg.TMP_BLWCFG_RUNG else if due then s.autoTarget else s.temper.target
    let cap := if s.get Reg.TMP_BLWSTAT_STATE = 1 then min 10 (s.get Reg.TMP_BLWTHR_TCAP) else 10
    s.modTemper (fun x => { x with target := min t cap, busy16 := if due then Vector.replicate 16 0 else x.busy16 })

/-- A step down starts its frequency switch; a step up first raises the voltage (R594). -/
def State.stepRung (s : State) : State :=
  if s.emergency ∨ s.temper.fsw.isSome then s
  else
    let t := s.temper.target
    if t < s.rung then s.modTemper (fun x => { x with fsw := some t })
    else if s.rung < t then
      if s.get Reg.TMP_BLWSTAT_VCODE < s.vstart t then s.setVcode (s.vstart t)
      else if s.vstart t ≤ s.temper.volt ∧ s.temper.fly.isNone ∧ s.temper.settling.isNone then s.modTemper (fun x => { x with fsw := some t })
      else s
    else s

/-- One evaluation: minimum slack in ps and Tj in °C (R592). DEDUCED, log entry 37. DEDUCED, log entry 38. -/
def State.bellowsEval (s : State) (slack tj : BitVec 16) : State :=
  let x := slack.toInt
  let s := (s.set Reg.TMP_SLACK_VAL slack.toNat).set Reg.TMP_TEMP_VAL tj.toNat
  let s := if tj.toInt < 125 then s.set Reg.PWR_QSTAT_HOLD 0 else s
  let s := ((s.voltLoop x).floorCheck x).throttle x tj.toInt
  (s.retarget.stepRung).modTemper (fun t => { t with failed := false })

/-- While ticks are stopped Bellows evaluates every 100 us. -/
def execBellowsIdleEvaluation (slack tj : BitVec 16) (s : State) : Host.Outcome State Fault Refusal :=
  .next (if s.running then s else s.bellowsEval slack tj)

/-- The AVSBus transaction in flight is acknowledged, or fails (R591). -/
def execAvsTransactionDone (ok : Bool) (s : State) : Host.Outcome State Fault Refusal :=
  match s.temper.fly with
  | none => .next s
  | some v =>
    let q := s.temper.queued
    if ok then
      let s := s.modTemper (fun t => { t with fly := none, queued := none, settling := some v, fails := 0 })
      .next (match q with
        | some w => s.avsSend w
        | none => s)
    else if s.temper.fails + 1 < 3 then
      let s := s.modTemper (fun t => { t with fly := none, queued := none, fails := t.fails + 1, failed := true })
      .next (s.avsSend (q.getD v))
    else
      let s := s.modTemper (fun t => { t with fly := none, queued := none, fails := 0, failed := true })
      let s := ((s.set Reg.TMP_BLWSTAT_AVSERR 1).record 0x0D01 0xFF 0)
      .next (if s.emergency then s.avsSend 50 else s.enterEmergency)

/-- 10 us after the acknowledgement the voltage is relied on (R591, R594). -/
def execAvsSettled (s : State) : Host.Outcome State Fault Refusal :=
  match s.temper.settling with
  | none => .next s
  | some v => .next ((s.modTemper (fun t => { t with settling := none, volt := v })).stepRung)

/-- The frequency switch in progress completes (R594, R618). -/
def execFrequencySwitchDone (s : State) : Host.Outcome State Fault Refusal :=
  match s.temper.fsw with
  | none => .next s
  | some r => .next ((s.modTemper (fun t => { t with fsw := none })).set Reg.TMP_BLWSTAT_RUNG r)

/-! ## Receiver equalisation (R598 to R600) and threshold loops (R602) -/

/-- A lane's sampler has measured its eye (R600). -/
def execMarginMeasure (l : Fin 6) (eyeh : BitVec 10) (eyew : BitVec 6) (s : State) : Host.Outcome State Fault Refusal :=
  let s := (s.set (Reg.TMP_EQ_EYE_EYEH l) eyeh.toNat).set (Reg.TMP_EQ_EYE_EYEW l) eyew.toNat
  let n := if eyeh.toNat < s.get (Reg.TMP_EQ_CFG_MARGMIN l) then min 1024 (s.temper.low.getD l 0 + 1) else 0
  let s := s.modTemper (fun t => { t with low := t.low.setIfInBounds l n })
  .next (if n = 1024 ∧ !s.on (Reg.TMP_EQ_EYE_LOW l) then (s.set (Reg.TMP_EQ_EYE_LOW l) 1).record 0x0D05 l 0 else s)

/-- A tap of -32 is taken as -31. -/
def tapOk (v : Nat) : Nat := if v = 0x20 then 0x21 else v

/-- A CODE word as it is taken: CTLE and taps 0 to 3. DESIGN CHOICE, log entry 36. -/
def eqCode (v : W32) : W32 :=
  BitVec.ofNat 32 (fieldGet v 0 4 + tapOk (fieldGet v 4 6) * 2 ^ 4 + tapOk (fieldGet v 10 6) * 2 ^ 10 + tapOk (fieldGet v 16 6) * 2 ^ 16
    + tapOk (fieldGet v 22 6) * 2 ^ 22)
/-- DESIGN CHOICE, log entry 36. -/
def eqTap (v : W32) : W32 := BitVec.ofNat 32 (tapOk (fieldGet v 0 6))

/-- Codes that the adaptation has reached: free values. DESIGN CHOICE, log entry 36. -/
def State.freeCodes (s : State) : (W32 × W32) × State :=
  let f := s.free
  ((eqCode (f.1.setWidth 32), eqTap ((f.1 >>> 32).setWidth 32)), f.2)

/-- TMP_EQ_l_CFG is written (R599). LOAD counts when FREEZE was 1 before the write. DESIGN CHOICE, log entry 36. -/
def State.writeEqCfg (s : State) (l : Nat) (v : W32) : State :=
  let was := s.on (Reg.TMP_EQ_CFG_FREEZE l)
  let now := fieldGet v 0 1 = 1
  let s := (s.set (Reg.TMP_EQ_CFG_FREEZE l) (fieldGet v 0 1)).set (Reg.TMP_EQ_CFG_MARGMIN l) (fieldGet v 8 8)
  if was ∧ fieldGet v 1 1 = 1 then
    s.modTemper (fun t => { t with eq := t.eq.setIfInBounds l (s.word (Reg.TMP_EQ_CODE l), s.word (Reg.TMP_EQ_TAP4 l)) })
  else if !was ∧ now then
    let f := s.freeCodes
    f.2.modTemper (fun t => { t with eq := t.eq.setIfInBounds l f.1 })
  else s

def execEqLoad (w : Who) (l : Fin 6) (v : BitVec 32) (s : State) : Host.Outcome State Fault Refusal :=
  .next (s.owned w (Reg.TMP_EQ_CFG l) (fun s => s.writeEqCfg l v))

/-- TMP_EQ_l_CODE or TAP4 reads the value in force: as frozen, or wherever the adaptation is. DESIGN CHOICE, log entry 36. -/
def State.readEq (s : State) (l : Nat) (tap : Bool) : W32 × State :=
  let p := if s.on (Reg.TMP_EQ_CFG_FREEZE l) then (s.temper.eq.getD l (0, 0), s) else s.freeCodes
  (if tap then p.1.2 else p.1.1, p.2)

/-- A trim of -8 to +8 as 5 bits. -/
def trimOf (f : BitVec 64) : BitVec 5 := BitVec.ofInt 5 (((f.toNat % 17 : Nat) : Int) - 8)

/-- TMP_THRCTL is written: what is frozen now stands where the loop had it (R602). -/
def State.writeThrctl (s : State) (v : W32) : State :=
  let old := s.word Reg.TMP_THRCTL
  let s := s.setWord Reg.TMP_THRCTL (BitVec.ofNat 32 (fieldGet v 0 13))
  let s := (List.range 8).foldl (fun (t : State) a =>
    if fieldGet old (4 + a) 1 = 0 ∧ fieldGet v (4 + a) 1 = 1 then
      let f := t.free
      f.2.modTemper (fun x => { x with trims := x.trims.setIfInBounds a (trimOf f.1) })
    else t) s
  if fieldGet old 12 1 = 0 ∧ fieldGet v 12 1 = 1 then
    let f := s.free
    f.2.modTemper (fun x => { x with pendThr := f.1.setWidth 12 })
  else s

/-- TMP_THRVAL: the pendant threshold and the trim of the channel AINSEL. DESIGN CHOICE, log entry 36. -/
def State.readThrval (s : State) : W32 × State :=
  let a := min 7 (s.get Reg.TMP_THRVAL_AINSEL)
  let p := if s.on Reg.TMP_THRCTL_PENDFRZ then (s.temper.pendThr, s) else let f := s.free; (f.1.setWidth 12, f.2)
  let q := if s.get Reg.TMP_THRCTL_AINFRZ / 2 ^ a % 2 = 1 then (s.temper.trims.getD a 0, p.2) else let f := p.2.free; (trimOf f.1, f.2)
  (BitVec.ofNat 32 (p.1.toNat + s.get Reg.TMP_THRVAL_AINSEL * 2 ^ 16 + q.1.toNat * 2 ^ 21), q.2)

/-! ## Task placement (R603 to R605) -/

def State.busyTask (s : State) (e slot : Nat) : Nat :=
  ((s.temper.busyT.filter (fun x => x.1 == e && x.2.1 == slot)).map (fun x => x.2.2)).foldl (· + ·) 0
def State.busyOf (s : State) (e : Nat) : Nat := ((s.temper.busyT.filter (fun x => x.1 == e)).map (fun x => x.2.2)).foldl (· + ·) 0

/-- A TIME edge in Compute: every engine with a task current has been busy. DEDUCED, log entry 37. -/
def State.busyEdge (s : State) : State :=
  if !(s.running && s.phase == 1) then s
  else s.each 16 (fun e t => match (t.engN e).cur with
    | none => t
    | some r => t.modTemper (fun x => { x with
        busy16 := x.busy16.setIfInBounds e (x.busy16.getD e 0 + 1),
        busyT := if x.busyT.any (fun y => y.1 == e && y.2.1 == r.slot) then
            x.busyT.map (fun y => if y.1 == e && y.2.1 == r.slot then (y.1, y.2.1, y.2.2 + 1) else y)
          else (e, r.slot, 1) :: x.busyT }))

/-- Does an engine with these tasks pass R53? -/
def State.passes (s : State) (ts : List TaskDef) : Bool := decide (work (ts.map (fun t => (0, t))) 0 ≤ s.admitLimit)

/-- The element with the largest key; the first of equals. -/
def maxBy (f : Nat → Nat) : List Nat → Option Nat
  | [] => none
  | a :: r => match maxBy f r with
    | none => some a
    | some b => if f a < f b then some b else some a

/-- One move at most for slot `n` (R604, R617). -/
def State.placeSlot (s : State) (n : Nat) : State :=
  let engines := (s.slot n).bound 1
  let st := s.get Reg.TMP_SUBSTAT_STATE
  let subbing := (st == 2 || st == 3) && engines.contains (s.get Reg.TMP_SUBSTAT_ENGINE)
  if s.slotState n ≠ slotRunning ∨ !s.on (Reg.PRS_ID_REBAL n) ∨ !s.on Reg.TMP_PLCCTL_EN ∨ subbing then s
  else
    let free := engines.filter (fun e => s.get Reg.TMP_PLCCTL_PIN / 2 ^ e % 2 == 0)
    match maxBy s.busyOf free, maxBy (fun e => 2 ^ 64 - s.busyOf e) free with
    | some h, some l =>
      let bh := s.busyOf h
      let bl := s.busyOf l
      if (bh - bl) * 100 ≤ s.get Reg.TMP_PLCCTL_HYST * bh then s
      else
        let eh := s.engN h
        let el := s.engN l
        let cand := eh.tasks.filter (fun t => t.kind == .phase && !t.strike && !el.tasks.any (fun u => u.slot == t.slot)
          && s.passes (t :: el.tasks) && s.passes (eh.tasks.filter (fun u => u.slot != t.slot)))
        let cost := fun slot => max (bh - s.busyTask h slot) (bl + s.busyTask h slot)
        match maxBy (fun x => 2 ^ 64 - cost x) (cand.map (fun t => t.slot)) with
        | none => s
        | some slot =>
          match eh.task slot with
          | none => s
          | some t =>
            let s := (s.modEng h (fun g => { g with tasks := g.tasks.filter (fun u => u.slot != slot) })).modEng l (fun g => { g with
              tasks := g.tasks ++ [t] })
            let s := s.modSlot n (fun x => { x with budget := x.budget.map (fun b => if b.1 == h && b.2.slot == slot then (l, b.2) else b) })
            let s := ((s.set Reg.TMP_PLCSTAT_FROM h).set Reg.TMP_PLCSTAT_TO l).set Reg.TMP_PLCSTAT_SLOT slot
            s.count Reg.TMP_PLCSTAT_MOVES 1
    | _, _ => s

/-! ## Live substitution (R610 to R616) -/

/-- The lowest unused spare core. DEDUCED, log entry 25. -/
def State.spareCore (s : State) : Option Nat :=
  if s.get Reg.TMP_SPARES_SPA = 0x1F then some 16 else if s.get Reg.TMP_SPARES_SPB = 0x1F then some 17 else none

/-- A substitution of engine `e` starts, unless it is ignored: a GO also for a halted engine (R610). -/
def State.startSub (s : State) (e : Nat) (auto : Bool) : State :=
  if s.get Reg.TMP_SUBSTAT_STATE ≠ 0 ∨ (!auto ∧ (s.engN e).halted) ∨ s.coreOf e = 0x1F then s
  else match s.spareCore with
    | some c => ((s.set Reg.TMP_SUBSTAT_STATE 1).set Reg.TMP_SUBSTAT_ENGINE e).set Reg.TMP_SUBSTAT_SPARE c
    | none =>
      if auto && s.temper.told.getLsbD e then s
      else
        let s := (s.set Reg.TMP_SUBSTAT_NOSPARE 1).record 0x0D06 e 0
        if auto then s.modTemper (fun t => { t with told := t.told ||| BitVec.ofNat 16 (2 ^ e) }) else s

/-- TMP_SUBCTL is written. -/
def State.writeSubctl (s : State) (v : W32) : State :=
  let s := s.setWord Reg.TMP_SUBCTL (v &&& 0xFFFF002F)
  if fieldGet v 4 1 = 1 then s.startSub (fieldGet v 0 4) false else s

def execSubstitutionGo (w : Who) (v : BitVec 32) (s : State) : Host.Outcome State Fault Refusal :=
  .next (s.owned w Reg.TMP_SUBCTL (fun s => s.writeSubctl v))

/-- Has ENG_n_ECC.CORR of engine `e` grown by THR or more since the last 1,024-tick check (R610)? -/
def State.subGrown (s : State) (e : Nat) : Bool :=
  let thr := s.get Reg.TMP_SUBCTL_THR
  let c := s.get (Reg.ENG_ECC_CORR e)
  let base := s.temper.corr.getD e 0
  s.on Reg.TMP_SUBCTL_AUTO && thr != 0 && decide (thr ≤ if c < base then c else c - base)

/-- The automatic triggers are checked for engine `e`; `low`: a CPR local to its core reports s below SLACKLO (R610). -/
def execSubstitutionAutoTrigger (e : Fin 16) (low : Bool) (s : State) : Host.Outcome State Fault Refusal :=
  .next (if s.subGrown e || (s.on Reg.TMP_SUBCTL_AUTO && low && s.get Reg.TMP_BLWSTAT_VCODE == 50) then s.startSub e true else s)

/-- The 1,024-tick check of the corrected counts, in ascending order of the engines (R610, R621), and a new interval for it. -/
def State.subCheck (s : State) : State :=
  (s.each 16 (fun e t => if t.subGrown e then t.startSub e true else t)).modTemper (fun t => { t with
    corr := Vector.ofFn (fun e : Fin 16 => s.get (Reg.ENG_ECC_CORR e)) })

/-- The Settle of a tick ≡ 1,023 mod 1,024: placement, the check of R610, and a new interval for both. Of engines or tasks that
compare equal, placement takes the lowest (DESIGN CHOICE, log entry 99). -/
def State.placement (s : State) : State :=
  if s.tick % 1024 ≠ 1023 then s
  else ((s.each 3 (fun n t => t.placeSlot n)).modTemper (fun t => { t with busyT := [] })).subCheck

/-- An uncorrectable error in the memories being copied abandons the substitution; a Settle long enough for the dirty bytes that
are left enters FINAL (R611, R615). DEDUCED, log entry 37. -/
def State.subSettle (s : State) (dirty : Nat) : State :=
  let e := s.get Reg.TMP_SUBSTAT_ENGINE
  if s.get Reg.TMP_SUBSTAT_STATE ≠ 1 then s
  else if s.eccUnc.any (fun g => decide (Memory.engine e 0 ≤ g ∧ g < Memory.engine e 0x80000)) then s.subAbandon e
  else
    let len := s.tickAt - (s.hearth.nominal + s.boundary 3)
    if dirty ≤ len * 32 / 10 then s.set Reg.TMP_SUBSTAT_STATE 2 else s

/-- FINAL is complete and the old core idle: the contexts move and the shell points at the spare; a halt that waited is applied
(R611, R613, R616). The switch falls into the Settle of FINAL (R81). -/
def State.subSwitch (s : State) : State :=
  let e := s.get Reg.TMP_SUBSTAT_ENGINE
  let st := s.get Reg.TMP_SUBSTAT_STATE
  if (st ≠ 2 ∧ st ≠ 3) ∨ (s.engN e).cur.isSome ∨ !s.inSettle then s
  else
    let old := s.coreOf e
    let c := s.get Reg.TMP_SUBSTAT_SPARE
    let s := (s.set (Reg.ENG_PHYS_CORE e) c).set (if c = 16 then Reg.TMP_SPARES_SPA else Reg.TMP_SPARES_SPB) e
    let s := (s.modTemper (fun t => { t with drain := some old })).set Reg.TMP_SUBSTAT_STATE 4
    let s := if (s.engN e).haltReq ∧ (s.engN e).pre.isNone then s.haltNow e else s
    s.addRepair 6 2 old 0 c

def execSubstitutionSwitch (s : State) : Host.Outcome State Fault Refusal := .next s.subSwitch

/-- FINAL ends without the switch: back to COPY (R612). -/
def State.finalEnds (s : State) : State :=
  let st := s.get Reg.TMP_SUBSTAT_STATE
  if st = 2 ∨ st = 3 then (s.set Reg.TMP_SUBSTAT_STATE 1).count Reg.TMP_SUBSTAT_RETRY 1 else s

/-- The Settle has left no 256 ns for the switch: back to COPY (R612). -/
def execSubstitutionFinalTimeout (s : State) : Host.Outcome State Fault Refusal := .next s.finalEnds

/-- The end of a Settle: every transition that began in it has completed (R80, R254), and FINAL has ended, by the switch if the engine is
idle (R81, R612). -/
def State.settleEnd (s : State) : State := (s.each 32 (fun b t => t.endTrans b)).subSwitch.finalEnds

/-- The old core has written its last line back and powers off (R613). -/
def execOldCoreDrained (s : State) : Host.Outcome State Fault Refusal :=
  match s.temper.drain with
  | none => .next s
  | some c => .next ((s.flushCore c).modTemper (fun t => { t with drain := none }))

/-! ## The end of a migration (R267) -/

/-- The lowest-numbered ON bank whose migration waits starts it, when none is in progress. -/
def State.startNext (s : State) : State :=
  match (List.range 32).find? (fun b => s.hoard.migWait.contains b && s.bankCur b == curOn) with
  | none => s
  | some b => s.startWaiting b

/-- At a Settle start: a copied bank is served by its spare from now on and the old physical bank is OFF (R267); a migration that waited
starts. -/
def State.migSwitch (s : State) : State :=
  match s.hoard.migs with
  | [] => s.startNext
  | m :: _ =>
    if !m.copied || !s.migrates m then s
    else
      let old := s.get (mapFld m.bank)
      let s := (s.set (mapFld m.bank) m.spare).set (if m.spare = 32 then Reg.TMP_SPARES_BANK32 else Reg.TMP_SPARES_BANK33) m.bank
      let s := ((s.set Reg.HRD_STAT_MIGDONE 1).set Reg.HRD_STAT_MIGBUSY 0).modHoard (fun h => { h with migs := [], physOff := old :: h.physOff.filter (fun x => x != old) })
      (s.addRepair 3 3 old 0 m.spare).startNext

end Sys2Proof.Machine
end

