-- ==== Sys2Proof/Machine/Reset.lean ====
section
/-!
DEFINITION. The resets (19, Reset kinds and What survives; 05, Resets and power at the interface): what each kind clears, keeps
and records, the start-up sequence, FLR and D3hot.
-/

namespace Sys2Proof.Machine

/-! ## Rings under note N2 (R662) -/

/-- Bytes of a frame on the wire of port `p` that have been sent: preamble excluded. -/
def State.wireSent (s : State) (p : Nat) (f : Frame) : Nat := min f.bytes.length ((s.now - f.start) * s.rate p / 8000 - 8)

/-- PROGRESS of TX chains on the wires, and of the load in progress, as it stands now. -/
def State.noteProgress (s : State) : State :=
  let s := s.each 6 (fun p t => match (t.port p).wire with
    | some f => (match f.src with
      | .ring r i => (match ((t.ring r).q.find? (fun (d : Desc) => d.idx == i && !d.written)).bind (fun (d : Desc) => (t.ring r).chain d) with
        | some c => (spread (t.wireSent p f) c).foldl (fun u x => u.modDesc r (fun d => d.is x.1.idx x.1.gen) (fun d => { d with prog := x.2 })) t
        | none => t)
      | _ => t)
    | none => t)
  match s.prs.active with
  | none => s
  | some n => match (s.slot n).req with
    | none => s
    | some r => s.modDesc r.ring r.picks (fun d => { d with prog := s.get (Reg.PRS_PROG_BYTES n) })

/-- What of ring `n` runs to its end after the reset: TX chains on a wire, and the started CMD work that nothing has to grant. -/
def State.runsOn (s : State) (n : Nat) (d : Desc) : Bool :=
  let waits := (s.prs.waiting.filterMap (fun (l : LoadReq) => l.req)).filter (fun (r : RingRef) => r.ring == n)
  match (s.ring n).kind with
  | 0 => ((chains (s.ring n).q).any (fun c => inChain c d && (match c with
      | [] => false
      | o :: _ => (s.onWire n).contains o.idx)))
  | 2 => d.started && d.opcode != 0x2D
      && !((chains (s.ring n).q).any (fun c => inChain c d && c.any (fun e => waits.any (fun r => r.picks e))))
  | _ => false

/-- One ring stops: it consumes nothing more; `cut`: its started work ends with the reset, else it runs to its end. -/
def State.freezeRing (s : State) (cut : Bool) (n : Nat) : State :=
  s.modRing n (fun r => { r with
    q := r.q.map (fun (d : Desc) => { d with started := d.res.isSome || (!cut && s.runsOn n d) }),
    frozen := r.valid, err := if r.frozen then r.err else s.on (Reg.RING_STAT_ERR n),
    live := false, out := 0, shown := [], fetching := 0, fetched := 0, chainAt := none, chainBad := none, ovfl := false })

/-- Note N2 of the master table: every ring stops and the RING registers take their reset values (R662). -/
def State.freezeRings (s : State) (cut : Bool) : State :=
  let s := (s.noteProgress).each 64 (fun n t => t.freezeRing cut n)
  let gone := fun (f : Frame) => match f.src with
    | .ring _ _ => false
    | _ => true
  let s := { s with
    ports := s.ports.map (fun (p : Port) => { p with
      stage := p.stage.filter gone, q := p.q.filter gone }),
    cans := s.cans.map (fun (c : Can) => { c with stage := c.stage.filter gone, q := c.q.filter gone }),
    prs := { s.prs with waiting := s.prs.waiting.filter (fun l => l.req.isNone) },
    outWait := [] }
  let s := s.resetRegs 0x2000 0x3000
  { s with hif := { s.hif with
    dbFlight := false, dbQueued := false, reads := [], rxQ := [], idleDue := false, shSeq := 0, vecs := 0, evtSeq := s.get Reg.PWR_LEDHEAD_SEQ } }

/-! ## Whole-device resets (R639, R643 to R645, R648) -/

/-- Registers that a whole-device reset of this scope keeps. -/
def keptKey (scope k : Nat) (sub : Bool) : Bool :=
  decide (0xC040 ≤ k ∧ k < 0xC060) || decide (0x12000 ≤ k ∧ k < 0x13000)
    || (decide (2 ≤ scope) && (k == Reg.PWR_LEDHEAD || k == Reg.PWR_RSTCAUSE || k == Reg.PWR_RSTCFG || k == Reg.PWR_BOOTCNT))
    || (scope == 9 && (k == Reg.DEV_PCISTAT || decide (0x4040 ≤ k ∧ k < 0x4060) || k == Reg.TMP_SPARES
      || decide (0x3100 ≤ k ∧ k < 0x3500 ∧ k % 0x40 = 0x28) || (sub && k == Reg.TMP_SUBSTAT)))

/-- Sectors that the reset strikes while they are erased or suspended are TORN (R577). -/
def State.tearSectors (s : State) : State :=
  s.each 128 (fun k t => if t.get (sectorFld k) = secErasing ∨ t.get (sectorFld k) = secSuspended then t.set (sectorFld k) secTorn else t)

/-- A bank that no physical bank serves is OFF (R607). -/
def State.lostBanks (s : State) : State := s.each 32 (fun b t => if t.bankMapped b then t else t.set (Reg.HRD_BANK_CUR b) curOff)

/-- The latches of the channels, which a SOFT reset keeps (R505, R648). -/
def State.keepLatches (old s : State) : State :=
  s.each 12 (fun c t => t.setWord (Reg.LSW_CH_STAT c) (old.word (Reg.LSW_CH_STAT c) &&& 0xF))

/-- The state after a whole-device reset of scope `k`, from the state in which the reset was recorded. DEDUCED, log entry 41. DEDUCED, log entry 44. -/
def State.afterReset (s : State) (k : Nat) : State :=
  let por := decide (k ≤ 1)
  let soft := k == 9
  let sub := s.get Reg.TMP_SUBSTAT_STATE == 4
  let ingot := fun (x : Nat) => decide (0x40000000 ≤ x ∧ x < 0x40800000)
  let t : State := { State.reset with
    regs := s.regs.filter (fun r => keptKey k r.1 sub), mem := s.mem.filter (fun c => ingot c.1),
    eccUnc := s.eccUnc.filter ingot, eccOne := s.eccOne.filter ingot, freeCtr := s.freeCtr, out := s.out, pending := s.pending,
    ledger := if por then [] else s.ledger,
    hoard := { Hoard.zero with physOff := if soft then s.hoard.physOff else [] },
    hif := if por then HostIf.zero else s.hif,
    pcie := if soft then s.pcie else Pcie.zero,
    tb := if soft then s.tb else 0,
    pio := { Pio.zero with ext := s.pio.ext },
    lsw := { Lsw.zero with chans := s.lsw.chans.map (fun (c : Chan) => { Chan.zero with hot := c.hot }) },
    power := { Power.zero with opBad := s.power.opBad, reset := some k, hostReset := soft && s.power.hostReset },
    sec := { Secure.zero with floor := s.sec.floor, raises := s.sec.raises, burn := s.sec.burn },
    tap := if por then Tap.zero else s.tap,
    temper := if soft then { Temper.zero with
        repairs := s.temper.repairs, sector := s.temper.sector, gen := s.temper.gen, told := s.temper.told, volt := s.temper.volt,
        due := sub && s.temper.due }
      else Temper.zero }
  let t := (t.set Reg.KEY_STAT_BUSY 0).set Reg.KEY_STAT_CMDERR 0
  let t := if soft then s.keepLatches t else t
  let t := if soft then
      let u := ((t.set Reg.TIME_STAT_VALID (s.get Reg.TIME_STAT_VALID)).set Reg.TIME_STAT_STEPCNT (s.get Reg.TIME_STAT_STEPCNT)).set
        Reg.DEV_STAT_BAR2EN (s.get Reg.DEV_STAT_BAR2EN)
      let u := (u.set Reg.PRS_GSTAT_BOOTSRC (s.get Reg.PRS_GSTAT_BOOTSRC)).set Reg.CHN_PRIO_STRAP (s.get Reg.CHN_PRIO_STRAP)
      let u := (u.set Reg.TMP_REPSTAT_COUNT s.temper.repairs.length).set Reg.TMP_REPSTAT_VALID (s.get Reg.TMP_REPSTAT_VALID)
      (u.set Reg.TMP_REPSTAT_GEN (s.get Reg.TMP_REPSTAT_GEN)).set Reg.TMP_REPSTAT_FULL (s.get Reg.TMP_REPSTAT_FULL)
    else t
  t.tearSectors.lostBanks

/-- A whole-device reset of this kind is asserted; one that is in progress at a broader scope restarts (R644). DESIGN CHOICE, log entry 3. DEDUCED, log entry 41. -/
def State.wholeReset (s : State) (kind : Nat) : State :=
  let scope := match s.power.reset with
    | some k => min k kind
    | none => kind
  let causes := (if s.power.reset.isSome then s.get Reg.PWR_RSTCAUSE_KIND else 0) ||| 2 ^ kind
  let s := s.noteReset kind
  let s := (s.subAbandon (s.get Reg.TMP_SUBSTAT_ENGINE)).freezeRings true
  let t := s.afterReset scope
  if scope ≤ 1 then (t.set Reg.PWR_RSTCAUSE_KIND causes).set Reg.PWR_RSTCAUSE_LAST kind else t

def execPor (s : State) : Host.Outcome State Fault Refusal := .next (s.wholeReset 0)

/-- A brown-out; `src`: the monitors that report it (VSUP, VIO33, VDD18, VCORE). DEDUCED, log entry 44. -/
def execBor (src : BitVec 4) (s : State) : Host.Outcome State Fault Refusal :=
  let t := s.wholeReset 1
  .next (t.set Reg.PWR_RSTCAUSE_BORSRC (t.get Reg.PWR_RSTCAUSE_BORSRC ||| src.toNat))

def execRstN (s : State) : Host.Outcome State Fault Refusal := .next (s.wholeReset 2)

/-- DEV_CTRL is written. -/
def State.writeDevCtrl (s : State) (v : W32) : State := if fieldGet v 0 1 = 1 then s.wholeReset 9 else s

def execSoftReset (w : Who) (s : State) : Host.Outcome State Fault Refusal := .next (s.owned w Reg.DEV_CTRL (fun s => s.writeDevCtrl 1))

/-! ## Start-up (R606, R607, R646, R695, R708, R734) -/

/-- One entry of the repair record is applied: banks and cores that stand on a spare (R606). -/
def State.applyEntry (s : State) (e : List Byte) : State :=
  let unit := leAt e 2 2
  let spare := leAt e 8 4
  if byteAt e 0 = 3 then
    s.each 32 (fun b t => if t.get (mapFld b) = unit then
      (t.set (mapFld b) spare).set (if spare = 32 then Reg.TMP_SPARES_BANK32 else Reg.TMP_SPARES_BANK33) b else t)
  else if byteAt e 0 = 6 then
    s.each 16 (fun n t => if t.coreOf n = unit then
      (t.set (Reg.ENG_PHYS_CORE n) spare).set (if spare = 16 then Reg.TMP_SPARES_SPA else Reg.TMP_SPARES_SPB) n else t)
  else s

/-- The newest valid record is applied. -/
def State.applyRecord (s : State) : State :=
  match s.newestRecord with
  | none => s
  | some (k, gen, es) =>
    let s := s.modTemper (fun t => { t with repairs := es, sector := some k, gen := gen })
    let s := ((s.set Reg.TMP_REPSTAT_COUNT es.length).set Reg.TMP_REPSTAT_VALID 1).set Reg.TMP_REPSTAT_GEN gen
    es.foldl State.applyEntry (s.setB Reg.TMP_REPSTAT_FULL (decide (254 ≤ es.length)))

/-- A bank that self-test leaves defective moves to the lowest unused spare, or is lost (R606, R607). -/
def State.repairBank (s : State) (b : Nat) : State :=
  match s.spareBank with
  | some p =>
    let old := s.get (mapFld b)
    ((s.set (mapFld b) p).set (if p = 32 then Reg.TMP_SPARES_BANK32 else Reg.TMP_SPARES_BANK33) b).addRepair 3 1 old 0 p
  | none => ((s.set (mapFld b) 0x3F).set (Reg.HRD_BANK_CUR b) curOff).record 0x0D06 b 0

/-- A core that self-test leaves defective is replaced by the lowest unused spare, or is lost. -/
def State.repairCore (s : State) (n : Nat) : State :=
  match s.spareCore with
  | some c =>
    let old := s.coreOf n
    ((s.set (Reg.ENG_PHYS_CORE n) c).set (if c = 16 then Reg.TMP_SPARES_SPA else Reg.TMP_SPARES_SPB) n).addRepair 6 1 old 0 c
  | none => (s.set (Reg.ENG_PHYS_CORE n) 0x1F).record 0x0D06 n 0

/-- Self-test repairs: rows and columns, then banks, then cores in ascending order. -/
def State.selfTest (s : State) (banks : List (Fin 32)) (engines : List (Fin 16)) (rows : List (Fin 8 × BitVec 16 × BitVec 32 × BitVec 32))
    (unrep : Bool) : State :=
  let n := s.temper.repairs.length
  let s := rows.foldl (fun (t : State) r => if r.1 = 0 ∨ r.1 = 3 ∨ r.1 = 6 then t
    else t.addRepair r.1 1 r.2.1.toNat r.2.2.1.toNat r.2.2.2.toNat) s
  let s := s.each 32 (fun b t => if banks.any (fun x => x.val == b) then t.repairBank b else t)
  let s := s.each 16 (fun e t => if engines.any (fun x => x.val == e) then t.repairCore e else t)
  let s := if unrep then (s.set Reg.TMP_REPSTAT_UNREP 1).record 0x0D06 0xFF 0 else s
  s.set Reg.TMP_REPSTAT_NEWREP (min 15 (s.temper.repairs.length - n))

/-- What a cut burn has left: nothing (0), all of it (1), or a root hash that fails its check word (2) (R695). DESIGN CHOICE, log entry 39. -/
def State.endCutBurn (s : State) (out : Nat) : State :=
  match s.sec.burn with
  | none => s
  | some (cmd, words) =>
    let s := s.modSec (fun x => { x with burn := none })
    if out = 1 then s.burnt cmd words
    else if out = 2 ∧ cmd = 1 then (s.set Reg.KEY_STAT_ROOTSET 1).set Reg.KEY_STAT_ROOTBAD 1
    else s

/-- Is the current TAP instruction one of R726? -/
def Tap.holds (t : Tap) : Bool := [0x00, 0x03, 0x04, 0x05, 0x06].contains t.ir.toNat

def State.setStraps (s : State) (boot mpri : Nat) : State := ((s.set Reg.PRS_GSTAT_BOOTSRC boot).set Reg.CHN_PRIO_STRAP mpri).setEff

/-- RESET_RELEASE: a whole-device reset is released and start-up runs (R646): straps, TEST_EN (R708), what self-test finds and
what a cut burn has left. After SOFT only READY is reached anew. DEDUCED, log entry 44. -/
def execResetRelease (bar2 : Bool) (boot mpri : Fin 4) (test : Bool) (banks : List (Fin 32)) (engines : List (Fin 16))
    (rows : List (Fin 8 × BitVec 16 × BitVec 32 × BitVec 32)) (unrep : Bool) (burn : Fin 3) (s : State) : Host.Outcome State Fault Refusal :=
  match s.power.reset with
  | none => .next s
  | some kind =>
    if kind ≠ 9 ∧ test then .next s
    else
      let s := if kind = 9 then s.setEff
        else
          let t := ((s.setB Reg.DEV_STAT_BAR2EN bar2).setStraps boot mpri).endCutBurn burn
          (t.applyRecord).selfTest banks engines rows unrep
      let s := if kind ≤ 1 then s else s.set Reg.PWR_BOOTCNT_COUNT (s.get Reg.PWR_BOOTCNT_COUNT + 1)
      let s := s.set Reg.PRS_GSTAT_SEALONLY (s.get Reg.KEY_STAT_SEALONLY)
      let s := (s.set Reg.PWR_STAT_READY 1).set Reg.PWR_STAT_STATE 0
      let s := { s with power := { s.power with reset := none }, pcie := { s.pcie with ready := true },
                        tap := { s.tap with hold := s.tap.holds } }
      let s := if kind = 9 then s else s.avsSend (s.vstart 0)
      .next (s.queueRecord.ingGo.chainEnables.refreshLsw)

/-! ## Resets of the host side (R142, R144, R641) -/

/-- Reads that engines await through the function are lost: what arrives is discarded (R144). -/
def State.loseReads (s : State) : State :=
  let lose := fun (r : Run) => { r with stall := match r.stall with
    | .hostRead op _ => .hostRead op true
    | x => x }
  { s with eng := s.eng.map (fun (g : Eng) => { g with cur := g.cur.map lose, pre := g.pre.map lose }) }

/-- Note N1: the translation entries and the BAR2 window (R648). -/
def State.resetXlat (s : State) : State :=
  (s.resetRegs 0x100 0x200).resetRegs 0x28 0x2C

/-- What a reset of PF0 does to the rings, the window into the host and the host's messages. -/
def State.resetPf0 (s : State) (flr : Bool) : State :=
  let s := ((s.freezeRings false).resetXlat).loseReads
  { s with pcie := { s.pcie with pf0 := s.pcie.pf0.afterReset flr } }

/-- A hot reset, a link down or PERST_N at the host side (R641, R648). -/
def State.hostReset (s : State) (kind : Nat) : State :=
  let s := (((s.noteReset kind).resetPf0 false).clearSession)
  let s := ((s.set Reg.DEV_PCISTAT_LINKUP 0).set Reg.DEV_PCISTAT_WIDTH 0).set Reg.DEV_PCISTAT_SPEED 0
  let s := { s with hif := { s.hif with vecs1 := 0 }, power := { s.power with hostReset := true },
                    pcie := { s.pcie with pf1 := PciFn.dflt } }
  s.cancelHostMsgs

/-- PERST_N: the whole device, or the host side with the straps sampled anew (R641). -/
def execPerstN (bar2 : Bool) (boot mpri : Fin 4) (s : State) : Host.Outcome State Fault Refusal :=
  if s.on Reg.PWR_RSTCFG_PERST && s.power.reset.isNone then .next (((s.hostReset 4).setB Reg.DEV_STAT_BAR2EN bar2).setStraps boot mpri)
  else .next (s.wholeReset 4)

/-- HOT_RESET: a PCIe hot reset, or the link goes down. -/
def execHotReset (s : State) : Host.Outcome State Fault Refusal := .next (s.hostReset 5)

/-- FLR of PF0 (R144). The messages are cancelled while the host end reports RESET (R704). -/
def execFlrPf0 (s : State) : Host.Outcome State Fault Refusal := .next (((s.noteReset 6).resetPf0 true).cancelHostMsgs)

/-- FLR of PF1 (R144). -/
def execFlrPf1 (s : State) : Host.Outcome State Fault Refusal :=
  let s := (s.noteReset 7).clearSession
  .next { s with hif := { s.hif with vecs1 := 0 }, pcie := { s.pcie with pf1 := s.pcie.pf1.afterReset true } }

/-- The FLR of a function completes. -/
def execFlrComplete (pf1 : Bool) (s : State) : Host.Outcome State Fault Refusal :=
  let p := s.pcie
  .next ({ s with pcie := if pf1 then { p with pf1 := { p.pf1 with flr := false } } else { p with pf0 := { p.pf0 with flr := false } } }.drainWait)

/-- A function enters or leaves D3hot (R146). -/
def State.setD3 (s : State) (pf1 d3 : Bool) : State :=
  let p := s.pcie
  { s with pcie := if pf1 then { p with pf1 := { p.pf1 with d3 := d3 } } else { p with pf0 := { p.pf0 with d3 := d3 } } }.drainWait

def execD3hotEntry (pf1 : Bool) (s : State) : Host.Outcome State Fault Refusal := .next (s.setD3 pf1 true)
def execD3hotExit (pf1 : Bool) (s : State) : Host.Outcome State Fault Refusal := .next (s.setD3 pf1 false)

/-- The PCIe link has trained: width 0 one, 1 two, 2 four lanes; speed 0 to 3 (R646). -/
def execPcieLinkUp (width : Fin 3) (speed : Fin 4) (s : State) : Host.Outcome State Fault Refusal :=
  let s := ((s.set Reg.DEV_PCISTAT_LINKUP 1).set Reg.DEV_PCISTAT_WIDTH (2 ^ width.val)).set Reg.DEV_PCISTAT_SPEED (speed.val + 1)
  .next ({ s with power := { s.power with hostReset := false } }.drainWait)

/-! ## Watchdog, and the manager's CHAIN reset (R640, R642) -/

def wdtKey : Nat := 0xA55A

/-- PWR_WDTKICK is written. -/
def State.writeWdtkick (s : State) (v : W32) : State :=
  if fieldGet v 0 16 = wdtKey then
    { s.set Reg.PWR_WDTREM_REMAIN (if s.on Reg.PWR_WDTCFG_EN then max 1 (s.get Reg.PWR_WDTCFG_TMO) else 0) with power := { s.power with wdt := 0 } }
  else s.wholeReset 3

def execWdtKick (w : Who) (key : BitVec 16) (s : State) : Host.Outcome State Fault Refusal :=
  .next (s.owned w Reg.PWR_WDTKICK (fun s => s.writeWdtkick (key.setWidth 32)))

/-- Does the watchdog count now (R640)? -/
def State.wdtRuns (s : State) : Bool := s.on Reg.PWR_WDTCFG_EN && (decide (s.get Reg.PWR_STAT_STATE < 2) || s.on Reg.PWR_WDTCFG_SLP)

/-- Half the count of the watchdog. -/
def State.wdtHalf (s : State) : Nat := max 1 (s.get Reg.PWR_WDTCFG_TMO) / 2

/-- The watchdog comes to half its count. -/
def State.wdtWarn (s : State) : State := ((s.set Reg.PWR_STAT_WDTWARN 1).set Reg.PWR_WDTREM_REMAIN s.wdtHalf).record 0x0E01 0xFF 0

/-- The watchdog is at half its count, unless it has passed it. -/
def execWdtWarn (s : State) : Host.Outcome State Fault Refusal :=
  .next (if s.wdtRuns ∧ s.wdtHalf < s.get Reg.PWR_WDTREM_REMAIN then s.wdtWarn else s)

/-- `n` units of the watchdog pass without its end. -/
def State.wdtPass (s : State) (n : Nat) : State :=
  let was := s.get Reg.PWR_WDTREM_REMAIN
  let left := max 1 (was - n)
  (if s.wdtHalf < was ∧ left ≤ s.wdtHalf then s.wdtWarn else s).set Reg.PWR_WDTREM_REMAIN left

/-- A TIME edge of 4 ns passes at the watchdog: a unit of 976,562.5 ns ends, and the last one with the WDT reset (R640). DESIGN CHOICE, log entry 92. -/
def State.wdtEdge (s : State) : State :=
  if !s.wdtRuns then s
  else
    let x := s.power.wdt + 8
    if x < 1953125 then { s with power := { s.power with wdt := x } }
    else
      let s := { s with power := { s.power with wdt := x - 1953125 } }
      if s.get Reg.PWR_WDTREM_REMAIN ≤ 1 then s.wholeReset 3 else s.wdtPass 1

/-- The watchdog expires. DESIGN CHOICE, log entry 8. -/
def execWdt (s : State) : Host.Outcome State Fault Refusal := .next (if s.wdtRuns then s.wholeReset 3 else s)

/-- PWR_CHRST_GO is written: the manager sends CRESET for tick k + 2; another device ignores it (R642). -/
def State.writeChrst (s : State) (v : W32) : State :=
  if fieldGet v 0 1 = 1 ∧ s.isMgr then s.sendRun 3 (s.word Reg.PWR_CHRST_MASK) else s

def execChrstGo (w : Who) (s : State) : Host.Outcome State Fault Refusal := .next (s.owned w Reg.PWR_CHRST_GO (fun s => s.writeChrst 1))

end Sys2Proof.Machine
end

