-- ==== Sys2Proof/Machine/Lsw.lean ====
section
/-!
DEFINITION. The commands of the load switches, half-bridges and analogue inputs (15).
-/

namespace Sys2Proof.Machine

/-! ## Protection -/

/-- A channel latches off (R503, R504): its latch, its count, its ledger entry. DEDUCED, log entry 14. -/
def State.trip (s : State) (latch cnt : Fld) (code c ma : Nat) : State :=
  (((s.set latch 1).count cnt 1).record code c ma).refreshLsw

/-- ILIM in mA: 0.5 A + 0.25 A each; 15 is taken as 14 (R503). -/
def State.ilim (s : State) (c : Nat) : Nat := 500 + 250 * min 14 (s.get (Reg.LSW_CH_CFG_ILIM c))

/-- IOL in mA (R506). -/
def State.iol (s : State) (c : Nat) : Nat := 5 * within (s.get (Reg.LSW_CH_CFG_IOL c)) 1 40

/-- LSW_OVERCURRENT (R503, R519): a current at or below ILIM is no excursion. -/
def execLswOvercurrent (c : Fin 12) (ma : BitVec 16) (s : State) : Host.Outcome State Fault Refusal :=
  .next (if s.ilim c < ma.toNat then s.trip (Reg.LSW_CH_STAT_OCL c) (Reg.LSW_CH_CNT_OC c) 0x0A01 c ma.toNat else s)

/-- LSW_OVERTEMP (R504). -/
def execLswOvertemp (c : Fin 12) (ma : BitVec 16) (s : State) : Host.Outcome State Fault Refusal :=
  .next ((s.modChan c (fun x => { x with hot := true })).trip (Reg.LSW_CH_STAT_OTL c) (Reg.LSW_CH_CNT_OT c) 0x0A02 c ma.toNat)

/-- LSW_OPEN (R506): a current below IOL, only with OLEN, while the channel is continuously on, and once until OPEN has been cleared. -/
def execLswOpen (c : Fin 12) (ma : BitVec 16) (s : State) : Host.Outcome State Fault Refusal :=
  .next (if decide (ma.toNat < s.iol c) && s.on (Reg.LSW_CH_CFG_OLEN c) && decide ((s.chan c).now = .on) && !s.on (Reg.LSW_CH_STAT_OPEN c) then
      ((s.set (Reg.LSW_CH_STAT_OPEN c) 1).count (Reg.LSW_CH_CNT_OL c) 1).record 0x0A03 c ma.toNat
    else s)

/-- LSW_SUPPLY (R507): VSUP is above 38.0 V or below 4.2 V, and every channel turns off; the entry names no channel. DEDUCED, log entry 14. -/
def execLswSupply (high : Bool) (mv : BitVec 16) (s : State) : Host.Outcome State Fault Refusal :=
  if (if high then mv.toNat ≤ 38000 else 4200 ≤ mv.toNat) then .next s
  else
  let s := if high then (s.set Reg.LSW_GSTAT_OV 1).set Reg.LSW_GSTAT_OVEV 1
    else (s.set Reg.LSW_GSTAT_UV 1).set Reg.LSW_GSTAT_UVEV 1
  let s := s.record 0x0A04 0xFF mv.toNat
  .next { s with lsw := { s.lsw with supplyOff := true } }.refreshLsw

/-- SUPPLY_RECOVERY (R507, R521). -/
def execSupplyRecovery (s : State) : Host.Outcome State Fault Refusal :=
  .next ((s.set Reg.LSW_GSTAT_UV 0).set Reg.LSW_GSTAT_OV 0).commitIdle

/-- A latch of a channel is cleared; the channel returns at the next Emit start, or at once while RUNNING is 0 (R505). -/
def State.clearLatch (s : State) (f : Fld) (c : Nat) : State :=
  if s.on f then ((s.set f 0).modChan c (fun x => { x with relWait := true })).commitIdle else s

/-- CLEAR_OCL (R505). -/
def execClearOcl (_w : Who) (c : Fin 12) (s : State) : Host.Outcome State Fault Refusal :=
  .next (s.clearLatch (Reg.LSW_CH_STAT_OCL c) c)

/-- 1 is written to CLR.OTL: ignored while the sensor reads 150 °C or above (R504). -/
def State.clearOtl (s : State) (c : Nat) : State := if (s.chan c).hot then s else s.clearLatch (Reg.LSW_CH_STAT_OTL c) c

/-- CLEAR_OTL (R504): ignored while the sensor reads 150 °C or above. -/
def execClearOtl (_w : Who) (c : Fin 12) (hot : Bool) (s : State) : Host.Outcome State Fault Refusal :=
  .next ((s.modChan c (fun x => { x with hot := hot })).clearOtl c)

/-! ## Half-bridges -/

/-- A write to LSW_HB_h_CFG: a change of EN turns both sides off and sets both stored commands to MODE 0 (R509). -/
def State.writeHb (s : State) (w : Who) (h : Nat) (v : W32) : State :=
  let old := s.on (Reg.LSW_HB_CFG_EN h)
  let s := s.writeFields w (Reg.LSW_HB_CFG h) v (fun _ => false)
  if s.on (Reg.LSW_HB_CFG_EN h) == old then s
  else
    let off := fun (t : State) (c : Nat) =>
      ((t.set (Reg.LSW_CH_CMD_MODE c) 0).modChan c (fun x => { x with eff := .off })).drive c .off
    let s := off (off s h) (h + 6)
    let s := ((s.set (Reg.LSW_HB_STAT_SIDE h) 0).set (Reg.LSW_HB_STAT_DTACT h) 0).modHb h
      (fun _ => HalfBridge.zero)
    s.refreshLsw

/-- HALF_BRIDGE_PAIR (R509). -/
def execHalfBridgePair (w : Who) (h : Fin 6) (v : BitVec 32) (s : State) : Host.Outcome State Fault Refusal :=
  .next (s.writeHb w h v)

/-- Has the old side of a pair been off for the dead time DT x 10 ns (R512)? -/
def State.deadOver (s : State) (h : Nat) : Bool :=
  (s.hb h).dtOld != 0 && s.passed (s.hb h).offAt (10 * within (s.get (Reg.LSW_HB_CFG_DT h)) 10 200)

/-- DEAD_TIME_END (R512): the side that waits turns on, once the dead time has passed. -/
def execDeadTimeEnd (h : Fin 6) (s : State) : Host.Outcome State Fault Refusal :=
  .next (if !s.deadOver h then s
    else ((s.set (Reg.LSW_HB_STAT_DTACT h) 0).modHb h (fun x => { x with dtOld := 0 })).refreshLsw)

/-! ## PWM -/

/-- PWM_PERIOD (R500): the running period has ended and the next one starts. -/
def execPwmPeriod (c : Fin 12) (s : State) : Host.Outcome State Fault Refusal :=
  .next (if (s.chan c).now.isPwm && s.pwmOver c then
      (s.modChan c (fun x => { x with pwmAt := s.now - (s.now - x.pwmAt) % (5 * s.pwmCycles c) })).set (Reg.LSW_CH_STAT_ON c) 1
    else s)

/-- Is the on-phase of the duty in effect over (R500)? -/
def State.pwmEnds (s : State) (c : Nat) : Bool :=
  match (s.chan c).now with
  | .pwm d => s.pwmOnOver c d
  | _ => false

/-- PWM_ON_PHASE_END (R500). -/
def execPwmOnPhaseEnd (c : Fin 12) (s : State) : Host.Outcome State Fault Refusal :=
  .next (if s.pwmEnds c then s.setOn c false else s)

/-! ## Measurements -/

/-- CURRENT_SENSE_UPDATE (R514): 0 to 8,000 mA; a channel that is off reads 0. It brings each channel's temperature, 150 °C or above or not,
with its current: DESIGN CHOICE, log entry 48. -/
def execCurrentSenseUpdate (vsup : BitVec 16) (ch : Vector (BitVec 16 × Bool) 12) (s : State) : Host.Outcome State Fault Refusal :=
  .next ((s.set Reg.LSW_VSUP_MV vsup.toNat).each 12 (fun c t =>
    (t.modChan c (fun x => { x with hot := (ch.getD c (0, false)).2 })).set (Reg.LSW_CH_CUR_NOW c)
      (if t.on (Reg.LSW_CH_STAT_ON c) then min (ch.getD c (0, false)).1.toNat 8000 else 0)))

/-- The enabled AIN channel the sequencer takes next: the lowest at or above `seq`, else the lowest (R516). -/
def State.nextAin (s : State) : Option Nat :=
  let en := (List.range 8).filter (fun a => s.get Reg.LSW_ADCCTL_EN / 2 ^ a % 2 == 1)
  match en.find? (fun a => decide (s.lsw.seq ≤ a)) with
  | some a => some a
  | none => en.head?

/-- ADC_CONVERSION_START (R516): while a conversion is in flight none starts (DEDUCED, log entry 13). -/
def execAdcConversionStart (s : State) : Host.Outcome State Fault Refusal :=
  .next (match s.lsw.conv, s.nextAin with
    | none, some a => { s with lsw := { s.lsw with conv := some a, seq := a + 1 } }
    | _, _ => s)

/-- The code of an input (R515): 0 to 10 V in µV, or 0 to 20 mA in nA. -/
def ainCode (mode : Bool) (x : Int) : Nat :=
  let full := if mode then 20000000 else 10000000
  min (x.toNat * 4096 / full) 4095

/-- Is the input at or beyond full scale (R515)? -/
def ainFull (mode : Bool) (x : Int) : Bool := decide ((if mode then 20000000 else 10000000) ≤ x)

/-- The window check of one conversion (R518). -/
def State.ainWindow (s : State) (a code : Nat) : State :=
  let below := decide (code < s.get (Reg.LSW_AIN_WIN_LO a))
  let above := decide (s.get (Reg.LSW_AIN_WIN_HI a) < code)
  let s := (s.setB (Reg.LSW_AIN_STAT_BELOW a) below).setB (Reg.LSW_AIN_STAT_ABOVE a) above
  let x := s.lsw.ains.getD a { outCnt := 0, armed := true }
  let put := fun (y : Ain) => { s with lsw := { s.lsw with ains := s.lsw.ains.setIfInBounds a y } }
  if !below && !above then put { outCnt := 0, armed := true }
  else if x.outCnt + 1 < max 1 (s.get (Reg.LSW_AIN_CFG_WCNT a)) then put { x with outCnt := x.outCnt + 1 }
  else
    let t := put { outCnt := 0, armed := false }
    if !x.armed then t
    else
      let t := t.set (Reg.LSW_AIN_STAT_WIN a) 1
      match s.get (Reg.LSW_AIN_CFG_WACT a) with
      | 1 => t.record 0x0A07 a code
      | 2 => (t.record 0x0A07 a code).quench 5 true
      | _ => t

/-- ADC_CONVERSION_DONE (R515, R516, R517, R518, R524). -/
def execAdcConversionDone (x : Int) (s : State) : Host.Outcome State Fault Refusal :=
  .next (match s.lsw.conv with
    | none => s
    | some a =>
      let s := { s with lsw := { s.lsw with conv := none } }
      let mode := s.on (Reg.LSW_AIN_CFG_MODE a)
      let open_ := s.on (Reg.LSW_AIN_STAT_SHUNT a)
      let code := if open_ then 4095 else ainCode mode x
      let s := s.set (Reg.LSW_AIN_DATA_CODE a) code
      let s := if open_ || ainFull mode x then s.set (Reg.LSW_AIN_STAT_OVR a) 1 else s
      s.ainWindow a code)

/-- AIN_OVERLOAD (R517). -/
def execAinOverload (a : Fin 8) (s : State) : Host.Outcome State Fault Refusal :=
  .next (if s.on (Reg.LSW_AIN_CFG_MODE a) && !s.on (Reg.LSW_AIN_STAT_SHUNT a) then
      ((s.set (Reg.LSW_AIN_STAT_SHUNT a) 1).set (Reg.LSW_AIN_STAT_SHUNTEV a) 1).record 0x0A06 a (s.get (Reg.LSW_AIN_DATA_CODE a))
    else s)

/-- SHUNT_CLOSE (R517). -/
def execShuntClose (a : Fin 8) (s : State) : Host.Outcome State Fault Refusal :=
  .next (s.set (Reg.LSW_AIN_STAT_SHUNT a) 0)

/-! ## Register writes without a row of their own -/

/-- A write to a register of the LSW block: a command takes effect at the next Emit start, or at once while RUNNING is 0
(R499). -/
def State.writeLsw (s : State) (w : Who) (key : Nat) (v : W32) : State :=
  (s.writeFields w key v (fun _ => false)).commitIdle.refreshLsw

end Sys2Proof.Machine
end

