-- ==== Sys2Proof/Machine/Swage.lean ====
section
/-!
DEFINITION. The commands of the Swage control engine (14).
-/

namespace Sys2Proof.Machine

def State.loop (s : State) (l : Nat) : Loop := s.loops.getD l Loop.zero
def State.modLoop (s : State) (l : Nat) (f : Loop → Loop) : State := { s with loops := s.loops.setIfInBounds l (f (s.loop l)) }

/-! ## Signed fields and saturation -/

/-- A field read as a signed number. -/
def State.sget (s : State) (f : Fld) : Int := (BitVec.ofNat f.w (s.get f)).toInt

/-- A signed number written to a field. -/
def State.sset (s : State) (f : Fld) (v : Int) : State := s.set f (BitVec.ofInt f.w v).toNat

def clampI (v lo hi : Int) : Int := max lo (min hi v)
def sat32 (v : Int) : Int := clampI v (-2147483648) 2147483647
/-- A level or MAN value outside −1,024 to 1,024 is taken as the nearer limit (R487). -/
def level1024 (v : Int) : Int := clampI v (-1024) 1024
/-- DEDUCED, log entry 16. -/
def wrap64 (v : Int) : Int := (BitVec.ofInt 64 v).toInt

/-! ## Inputs (R470) -/

/-- The 16-bit difference of the two latest captures; 0 before there are two (R470; DEDUCED, log entry 15). -/
def State.capDiff (s : State) (n : Nat) : Nat :=
  let t := s.tmr.getD n Timer.zero
  if t.caps0 < 2 then 0 else (t.last0 - t.prev0).toNat % 65536

/-- A raw source: 0 AIN, 1 current sense, 2 timer, 3 Tongs; outside the ranges 0. -/
def State.raw (s : State) (kind i : Nat) : Nat :=
  match kind with
  | 0 => if i < 8 then s.get (Reg.LSW_AIN_DATA_CODE i) else 0
  | 1 => if i < 12 then min (s.get (Reg.LSW_CH_CUR_NOW i)) 65535 else 0
  | 2 => s.capDiff i
  | 3 => if i < 8 then s.get (Reg.TNG_EVCNT_COUNT i) else 0
  | _ => 0

def State.fbRaw (s : State) (l : Nat) : Nat := s.raw (s.get (Reg.SWG_n_SRC_FBSEL l)) (s.get (Reg.SWG_n_SRC_FBIDX l))

/-- The raw set-point source of SPSEL 3 to 5 (R471). -/
def State.spRaw (s : State) (l : Nat) : Nat :=
  let i := s.get (Reg.SWG_n_SRC_SPIDX l)
  match s.get (Reg.SWG_n_SRC_SPSEL l) with
  | 3 => s.raw 0 i
  | 4 => s.raw 2 i
  | 5 => s.raw 3 i
  | _ => 0

/-- The raw inputs of a sample: latched at the tick start when tick-synchronous (R464). The samples of a new tick count from 0. -/
def State.latchSwage (s : State) : State :=
  s.each 16 (fun l t => t.modLoop l (fun x => { x with fbRaw := s.fbRaw l, spRaw := s.spRaw l, next := 0, prev := [], prevEh := none }))

/-- A register of a tick-synchronous loop is about to be written: in the SWAGE cycle of the tick-start latch this tick's sample uses what stood
there before (R491). -/
def State.noteLoopWrite (s : State) (key : Nat) : State :=
  let l := (key - 0x9100) / 0x80
  if key < 0x9100 ∨ 0x9900 ≤ key ∨ key % 0x80 = 0 ∨ s.swgNsamp l ≠ 0 ∨ !s.running ∨ s.phase ≠ 0 then s
  else
    let same := decide (s.now / 5 = (s.word64 Reg.HRT_TSTART_LO Reg.HRT_TSTART_HI).toNat / 5)
    let band := decide (key = Reg.SWG_n_BAND l)
    s.modLoop l (fun x =>
      if same then { x with
        prev := if x.prev.any (fun p => p.1 == key) then x.prev else (key, s.word key) :: x.prev
        prevEh := if band && x.prevEh.isNone then some (s.get (Reg.SWG_n_STAT_EH l)) else x.prevEh }
      else { x with prev := x.prev.filter (fun p => p.1 != key), prevEh := if band then none else x.prevEh })

def State.fbIn (s : State) (l : Nat) : Nat := if s.swgNsamp l = 0 then (s.loop l).fbRaw else s.fbRaw l
def State.spIn (s : State) (l : Nat) : Nat := if s.swgNsamp l = 0 then (s.loop l).spRaw else s.spRaw l

def scaled (raw : Nat) (gain ofs : Int) : Int := sat32 ((raw : Int) * gain + ofs * 256)

def State.fbVal (s : State) (l : Nat) (raw : Nat) : Int := scaled raw (s.sget (Reg.SWG_n_FBSCL_GAIN l)) (s.sget (Reg.SWG_n_FBSCL_OFS l))

/-- The set-point source (R471). -/
def State.spVal (s : State) (l : Nat) : Int :=
  match s.get (Reg.SWG_n_SRC_SPSEL l) with
  | 1 => (s.loop l).p / 65536
  | 2 => (s.loop l).v / 65536
  | 3 => scaled (s.spIn l) (s.sget (Reg.SWG_n_SPSCL_GAIN l)) (s.sget (Reg.SWG_n_SPSCL_OFS l))
  | 4 => scaled (s.spIn l) (s.sget (Reg.SWG_n_SPSCL_GAIN l)) (s.sget (Reg.SWG_n_SPSCL_OFS l))
  | 5 => scaled (s.spIn l) (s.sget (Reg.SWG_n_SPSCL_GAIN l)) (s.sget (Reg.SWG_n_SPSCL_OFS l))
  | _ => s.sget (Reg.SWG_n_SP_SP l)

/-! ## Profile generator (R481 to R484) -/

/-- Floor square root of a number below 2^110. -/
def isqrt (n : Nat) : Nat := (List.range 56).reverse.foldl (fun r i => if (r + 2 ^ i) * (r + 2 ^ i) ≤ n then r + 2 ^ i else r) 0

/-- p, v and a after one step towards `tgt`, and whether the profile is at rest (R482). -/
def profileStep (pos : Bool) (tgt V A J p v a : Int) : Int × Int × Int × Int × Bool :=
  let dd := tgt - p
  let vt := if pos then dd.sign * min V ((isqrt (2 * A * dd.natAbs).toNat : Nat) : Int) else tgt
  let dv := vt - v
  let vb := Int.tdiv (a * (a.natAbs : Int)) (2 * J)
  let at_ := if dv > vb then A else if dv < vb then -A else 0
  let a := a + clampI (at_ - a) (-J) J
  let v := clampI (v + a) (-V) V
  let p := p + v
  if pos && decide (((tgt - p).natAbs : Int) < 65536 ∧ (v.natAbs : Int) ≤ A) then (tgt, 0, 0, at_, true)
  else if !pos && decide (((vt - v).natAbs : Int) ≤ J ∧ (a.natAbs : Int) ≤ J) then (p, vt, 0, at_, true)
  else (p, v, a, at_, false)

/-- The phase of the step just taken (R483). -/
def profilePhase (old : Nat) (a0 a at_ : Int) (done : Bool) : Nat :=
  if done then 0
  else if a0.natAbs < a.natAbs then 1
  else if a.natAbs < a0.natAbs then 3
  else if a = at_ ∧ at_ ≠ 0 then 2
  else if a = 0 then 4
  else old

/-- The generator at a sample: at a MANUAL sample it starts from y; otherwise a target in force runs (R481, R482, R497). DEDUCED, log entry 16. -/
def State.profile (s : State) (l : Nat) (manual : Bool) (y : Int) : State :=
  let x := s.loop l
  let pos := s.get (Reg.SWG_n_SRC_SPSEL l) == 1
  let ptgt := if pos then s.sget (Reg.SWG_n_PTGT_TGT l) * 65536 else s.sget (Reg.SWG_n_PTGT_TGT l)
  let tgt := if x.pgo then some ptgt else x.tgt
  if manual then
    ((s.modLoop l (fun q => { q with p := y * 65536, v := 0, a := 0, tgt := tgt, pgo := false, armed := x.armed || x.pgo })).set
      (Reg.SWG_n_STAT_PDONE l) 1).set (Reg.SWG_n_STAT_PHASE l) 0
  else
    let s := if x.pgo || (x.armed && tgt.isSome) then s.set (Reg.SWG_n_STAT_PDONE l) 0 else s
    let s := s.modLoop l (fun q => { q with tgt := tgt, pgo := false, armed := false })
    match tgt with
    | none => s
    | some t =>
      let lim := fun (f : Fld) => ((max 1 (s.get f) : Nat) : Int)
      let J := lim (Reg.SWG_n_JMAX_LIM l)
      let again := !pos && s.on (Reg.SWG_n_STAT_PDONE l) && decide (J < ((t - x.v).natAbs : Int))
      let s := if again then s.set (Reg.SWG_n_STAT_PDONE l) 0 else s
      if s.on (Reg.SWG_n_STAT_PDONE l) then s
      else
        let r := profileStep pos t (lim (Reg.SWG_n_VMAX_LIM l)) (lim (Reg.SWG_n_AMAX_LIM l)) J x.p x.v x.a
        let done := r.2.2.2.2
        let s := s.modLoop l (fun q => { q with p := wrap64 r.1, v := wrap64 r.2.1, a := wrap64 r.2.2.1 })
        (s.setB (Reg.SWG_n_STAT_PDONE l) done).set (Reg.SWG_n_STAT_PHASE l)
          (profilePhase (s.get (Reg.SWG_n_STAT_PHASE l)) x.a r.2.2.1 r.2.2.2.1 done)

/-! ## The law (R472 to R477) -/

def stLow : Nat := 0
def stMid : Nat := 1
def stHigh : Nat := 2

def State.swgLevel (s : State) (l st : Nat) : Int :=
  level1024 (match st with
    | 0 => s.sget (Reg.SWG_n_LVL_LO l)
    | 1 => s.sget (Reg.SWG_n_MAN_MID l)
    | _ => s.sget (Reg.SWG_n_LVL_HI l))

/-- The level nearest to `u`; ties go to the lower state; MID only with three levels (R477, R480). -/
def State.swgNearest (s : State) (l : Nat) (u : Int) : Nat :=
  let d := fun st => (u - s.swgLevel l st).natAbs
  let best := if s.on (Reg.SWG_n_CFG_LEV3 l) && decide (d stMid < d stLow) then stMid else stLow
  if d stHigh < d best then stHigh else best

/-- The instant of sample `j` of this tick, with NSAMP above 0: the first SWAGE edge, at a multiple of 5 ns, at or after its time (R465, R469). -/
def State.swgAt (s : State) (l j : Nat) : Nat := (s.hearth.nominal + j * s.tp / s.swgNsamp l + 4) / 5 * 5

/-- The instant of a sample (R472). -/
def State.swgInstant (s : State) (l : Nat) : Nat :=
  if s.swgNsamp l = 0 then (s.word64 Reg.HRT_TSTART_LO Reg.HRT_TSTART_HI).toNat else s.swgAt l (s.loop l).next

/-- Has the dwell of the state elapsed (R473)? -/
def State.swgDwell (s : State) (l st inst : Nat) : Bool :=
  let x := s.loop l
  let d := if st = stHigh then s.get (Reg.SWG_n_DWELL_DHI l) else s.get (Reg.SWG_n_DWELL_DLO l)
  x.dwellOk || decide (d * 100000 ≤ inst - x.tEnter)

/-- The state the law wants (R472). -/
def lawWant (lev3 : Bool) (st : Nat) (e h d : Int) : Nat :=
  if !lev3 then (if e > h then stHigh else if e < -h then stLow else st)
  else if e > d + h then stHigh
  else if e < -(d + h) then stLow
  else if st = stHigh ∧ e < d - h then stMid
  else if st = stLow ∧ e > -(d - h) then stMid
  else st

/-- A change of state made by the law: instant, direction, reversal (R472, R485). -/
def State.swgSwitch (s : State) (l old new inst : Nat) (blocked : Bool) : State :=
  let dir : Int := if old < new then 1 else -1
  let s := s.set (Reg.SWG_n_STAT_STATE l) new
  s.modLoop l (fun x => { x with
    tEnter := inst, dwellOk := false, lastDir := dir,
    revs := if x.lastDir == -dir && !blocked then 0 :: x.revs else x.revs })

/-- In two-level operation the state is LOW or HIGH only: a MID left from three levels becomes the level nearest to it (R472). The spec does not
say which: DESIGN CHOICE, log entry 98. -/
def State.swgTwoLevel (s : State) (l : Nat) : State :=
  if !s.on (Reg.SWG_n_CFG_LEV3 l) && s.get (Reg.SWG_n_STAT_STATE l) == stMid then
    s.set (Reg.SWG_n_STAT_STATE l) (s.swgNearest l (s.swgLevel l stMid))
  else s

/-- Inputs, profile and set-point of one sample: y and sp (R470, R471, R475). -/
def State.swgInputs (s : State) (l : Nat) : State :=
  let y := s.fbVal l (s.fbIn l)
  let s := s.profile l (!s.on (Reg.SWG_n_CTRL_AUTO l)) y
  let src := s.spVal l
  let f := match (s.loop l).filt with
    | none => src
    | some f => f + (src - f) / (2 ^ s.get (Reg.SWG_n_SRC_SPFILT l) : Nat)
  let s := s.modLoop l (fun x => { x with
    filt := some f, revs := (x.revs.map (fun n => n + 1)).filter (fun n => decide (n < max 1 (s.get (Reg.SWG_n_OSC_WIN l)))) })
  (s.sset (Reg.SWG_n_Y_VAL l) y).sset (Reg.SWG_n_SPV_VAL l) f

/-- The output one loop computes: MANUAL, the transfer sample, or the law; the trim of the law follows the decision. -/
def State.swgCompute (s : State) (l : Nat) : State × Int :=
  let s := (s.swgInputs l).setB (Reg.SWG_n_STAT_BLOCKED l) (s.swgBlocked l)
  let y := s.sget (Reg.SWG_n_Y_VAL l)
  let sp := s.sget (Reg.SWG_n_SPV_VAL l)
  let inst := s.swgInstant l
  let dir := s.on (Reg.SWG_n_CFG_DIR l)
  let lev3 := s.on (Reg.SWG_n_CFG_LEV3 l)
  let h : Int := s.get (Reg.SWG_n_STAT_EH l)
  let d : Int := max ((s.get (Reg.SWG_n_BAND_D l) : Nat) : Int) h
  let tlim : Int := s.get (Reg.SWG_n_TRIMCFG_TLIM l)
  if !s.on (Reg.SWG_n_CTRL_AUTO l) then
    let s := if (s.loop l).manLoad then
        (s.set (Reg.SWG_n_MAN_MAN l) (s.get (Reg.SWG_n_OUTV_U l))).modLoop l (fun x => { x with manLoad := false })
      else s
    (s, level1024 (s.sget (Reg.SWG_n_MAN_MAN l)))
  else if (s.loop l).transfer then
    let st := s.swgNearest l (level1024 (s.sget (Reg.SWG_n_MAN_MAN l)))
    let et : Int := if !lev3 then 0 else if st = stHigh then d else if st = stLow then -d else 0
    let t := clampI (if dir then y - sp - et else y - sp + et) (-tlim) tlim
    let s := ((s.set (Reg.SWG_n_STAT_STATE l) st).sset (Reg.SWG_n_TRIM_VAL l) t).modLoop l (fun x => { x with
      transfer := false, tEnter := inst, dwellOk := false })
    (s, s.swgLevel l st)
  else
    let c := sat32 (sp + s.sget (Reg.SWG_n_TRIM_VAL l))
    let e := if dir then sat32 (y - c) else sat32 (c - y)
    let s := s.swgTwoLevel l
    let st := s.get (Reg.SWG_n_STAT_STATE l)
    let want := lawWant lev3 st e h d
    let s := if want ≠ st ∧ s.swgDwell l st inst then s.swgSwitch l st want inst (s.on (Reg.SWG_n_STAT_BLOCKED l)) else s
    (s, s.swgLevel l (s.get (Reg.SWG_n_STAT_STATE l)))

/-- The decision's effect on one member in AUTO: a loser tracks the winner, any other updates its trim unless BLOCKED
(R474, R480). `law`: its sample ran the law. -/
def State.swgDecide (s : State) (l : Nat) (loser law : Bool) (uw : Int) : State :=
  let s := s.setB (Reg.SWG_n_STAT_LOSER l) loser
  if loser then
    (s.set (Reg.SWG_n_STAT_STATE l) (s.swgNearest l uw)).modLoop l (fun x => { x with dwellOk := true })
  else if law && !s.on (Reg.SWG_n_STAT_BLOCKED l) then
    let tlim : Int := s.get (Reg.SWG_n_TRIMCFG_TLIM l)
    let ki : Int := s.get (Reg.SWG_n_TRIMCFG_KI l)
    let t := s.sget (Reg.SWG_n_TRIM_VAL l) + (s.sget (Reg.SWG_n_SPV_VAL l) - s.sget (Reg.SWG_n_Y_VAL l)) * ki / 65536
    s.sset (Reg.SWG_n_TRIM_VAL l) (clampI t (-tlim) tlim)
  else s

/-- The oscillation detector after a sample (R485, R486, R495). -/
def State.swgOsc (s : State) (l : Nat) : State :=
  let n := s.get (Reg.SWG_n_OSC_NREV l)
  if n = 0 ∨ (s.loop l).revs.length < max 2 n then s
  else
    let s := ((s.set (Reg.SWG_n_STAT_OSCHIT l) 1).record 0x0902 l 0).modLoop l (fun x => { x with revs := [] })
    match s.get (Reg.SWG_n_OSC_ACT l) with
    | 1 => s.manualHold l
    | 2 => s.quench 4 true
    | _ => s.set (Reg.SWG_n_STAT_EH l) (min (2 * s.get (Reg.SWG_n_STAT_EH l)) 0xFFFF)

/-- The loop with the lowest u, the lowest number on a tie (R479). -/
def winner : List (Nat × Int) → Option (Nat × Int)
  | [] => none
  | p :: r => match winner r with
    | none => some p
    | some q => if p.2 ≤ q.2 then some p else some q

/-- What one loop's sample has computed: its output, its instant, and whether it ran in AUTO and ran the law. -/
structure SwgResult where
  /-- The loop. -/
  l : Nat
  /-- Its output u. -/
  u : Int
  /-- Its instant, ns. -/
  inst : Nat
  /-- It is in AUTO. -/
  auto : Bool
  /-- It ran the law: no transfer sample. -/
  law : Bool
deriving DecidableEq, Repr

/-- Are two loops decided together (R478)? -/
def State.swgMates (s : State) (l m : Nat) : Bool := l == m || (s.swgGrp l != 0 && s.swgGrp l == s.swgGrp m)

/-- The decision of a loop or of its group, once every member is computed (R466, R474, R478 to R480): what is to be applied 1.0 us after the
instant, but not of a BLOCKED sample or under a Quench (R489, R490). -/
def State.swgDecideGroup (s : State) (rs : List SwgResult) : State :=
  match winner (rs.map (fun r => (r.l, r.u))) with
  | none => s
  | some w =>
    let s := rs.foldl (fun (t : State) r => if r.auto then t.swgDecide r.l (decide (r.l ≠ w.1)) r.law w.2 else t.set (Reg.SWG_n_STAT_LOSER r.l) 0) s
    let s := rs.foldl (fun (t : State) r => t.modLoop r.l (fun x => { x with
      uPend := if t.on (Reg.SWG_n_STAT_BLOCKED r.l) || t.on Reg.PWR_QSTAT_ACTIVE then none else some w.2
      applyAt := r.inst + 1000, next := x.next + 1 })) s
    (rs.filter (fun r => r.auto)).foldl (fun t r => t.swgOsc r.l) s

/-- Coincident samples: the loops are computed in ascending order, and each group is decided after its last member (R466). `done`: what
groups that are not complete have computed. -/
def State.swgRun (done : List SwgResult) : List Nat → State → State
  | [], s => s
  | l :: q, s =>
    let auto := s.on (Reg.SWG_n_CTRL_AUTO l)
    let law := auto && !(s.loop l).transfer
    let inst := s.swgInstant l
    let p := s.swgCompute l
    let done := done ++ [{ l := l, u := p.2, inst := inst, auto := auto, law := law }]
    if q.any (s.swgMates l) then State.swgRun done q p.1
    else State.swgRun (done.filter (fun r => !s.swgMates l r.l)) q (p.1.swgDecideGroup (done.filter (fun r => s.swgMates l r.l)))

/-- The loops that sample at the instant of loop `l`'s next sample (R463, R466, R468). -/
def State.swgCoincident (s : State) (l : Nat) : List Nat :=
  (List.range 16).filter (fun m => s.swgOn m && !(s.loop m).stopped && decide ((s.loop m).next < s.swgNsamp m)
    && s.swgAt m (s.loop m).next == s.swgAt l (s.loop l).next)

/-- The samples of one instant (R465, R466, R478 to R480). DEDUCED, log entry 16. -/
def State.swgSample (s : State) (l : Nat) : State := State.swgRun [] (s.swgCoincident l) s

/-- Has the instant of the loop's next sample of this tick come (R463, R465, R468)? -/
def State.swgDue (s : State) (l : Nat) : Bool :=
  s.running && s.tongsClock && s.swgOn l && !(s.loop l).stopped && decide ((s.loop l).next < s.swgNsamp l ∧ s.swgAt l (s.loop l).next ≤ s.now)

/-- SWAGE_SAMPLE (R463 to R466): a sample instant. Tick-synchronous loops are computed at the start of Compute. -/
def execSwageSample (l : Fin 16) (s : State) : Host.Outcome State Fault Refusal :=
  .next (if s.swgDue l then s.swgSample l else s)

/-- Registers written in the SWAGE cycle of the latch take their earlier words for `f`, and then what was written, but where `f` itself has
written (R491). -/
def State.withPrevious (s : State) (ls : List Nat) (f : State → State) : State :=
  let ws := ls.flatMap (fun l => (s.loop l).prev.map (fun p => (p.1, p.2, s.word p.1)))
  let es := ls.filterMap (fun l => (s.loop l).prevEh.map (fun h => (Reg.SWG_n_STAT_EH l, h, s.get (Reg.SWG_n_STAT_EH l))))
  let s := f (es.foldl (fun (t : State) x => t.set x.1 x.2.1) (ws.foldl (fun (t : State) x => t.setWord x.1 x.2.1) s))
  let s := ws.foldl (fun (t : State) x => if t.word x.1 = x.2.1 then t.setWord x.1 x.2.2 else t) s
  es.foldl (fun (t : State) x => if t.get x.1 = x.2.1 then t.set x.1 x.2.2 else t) s

/-- At the start of Compute the tick-synchronous loops are computed (R464, R466). -/
def State.swgTick (s : State) : State :=
  let ls := (List.range 16).filter (fun l => s.swgOn l && s.swgNsamp l == 0 && !(s.loop l).stopped)
  s.withPrevious ls (State.swgRun [] ls)

/-! ## Outputs (R487 to R490) -/

/-- What `u` makes of the channels an OUT value names (R487). -/
def outDrive (o : Nat) (u : Int) : List (Nat × Drive) :=
  let duty := fun (x : Int) => Drive.ofCmd 2 x.toNat
  if o = 0 then []
  else if o ≤ 12 then [(o - 1, duty (level1024 u))]
  else [(o - 13, duty (level1024 u)), (o - 7, duty (-(level1024 u)))]

/-- The pending output of one loop is applied; not while a Quench is active (R490). -/
def State.swgApply1 (s : State) (l : Nat) : State :=
  match (s.loop l).uPend with
  | none => s
  | some u =>
    let s := s.modLoop l (fun x => { x with uPend := none })
    if s.on Reg.PWR_QSTAT_ACTIVE then s
    else
      let s := s.sset (Reg.SWG_n_OUTV_U l) u
      (outDrive (s.swgOut l) u).foldl (fun t d => t.modChan d.1 (fun x => { x with swg := some d.2 })) s

/-- The output of a loop, or of its whole group, is applied. -/
def State.swgApply (s : State) (l : Nat) : State := ((s.swgGroup l).foldl State.swgApply1 s).refreshLsw

/-- At the start of Emit the tick-synchronous loops apply (R464). -/
def State.swgEmit (s : State) : State :=
  (s.each 16 (fun l t => if t.swgOn l && t.swgNsamp l == 0 then t.swgApply1 l else t)).refreshLsw

/-- Has the loop's output waited 1.0 us since its sample (R465)? -/
def State.swgApplyDue (s : State) (l : Nat) : Bool :=
  s.running && s.tongsClock && s.swgOn l && s.swgNsamp l != 0 && (s.loop l).uPend.isSome && decide ((s.loop l).applyAt ≤ s.now)

/-- SWAGE_OUTPUT_APPLY (R465): while RUNNING is 0 every output holds (R463). -/
def execSwageOutputApply (l : Fin 16) (s : State) : Host.Outcome State Fault Refusal :=
  .next (if s.swgApplyDue l then s.swgApply l else s)

/-! ## Control writes -/

/-- SWG_STAT.USED: samples per tick of the enabled loops. -/
def State.swgUsed (s : State) : Nat :=
  ((List.range 16).filter s.swgOn).foldl (fun n l => n + max (s.swgNsamp l) 1) 0

def State.setUsed (s : State) : State := s.set Reg.SWG_STAT_USED s.swgUsed

/-- Check 2 of R467: the sample rate fits the period. -/
def State.swgRateOk (s : State) (l : Nat) : Bool := s.swgNsamp l == 0 || decide (5000 * s.swgNsamp l ≤ s.tp)

/-- The first failed enable check of R467, for loop `l` with its EN already set; 0 none. -/
def State.swgCheck (s : State) (l : Nat) : Nat :=
  let others := (List.range 16).filter (fun m => m != l && s.swgOn m)
  let o := s.swgOut l
  let mates := others.filter (fun m => s.swgGrp m == s.swgGrp l)
  if 64 < s.swgUsed then 1
  else if !s.swgRateOk l then 2
  else if others.any (fun m => (outChans (s.swgOut m)).any (fun c => (outChans o).contains c))
      || (decide (1 ≤ o ∧ o ≤ 12) && s.paired (o - 1)) || (decide (13 ≤ o) && !s.paired (o - 13)) then 3
  else if s.swgGrp l != 0 && (mates.any (fun m => s.swgNsamp m != s.swgNsamp l)
      || decide (1 < ((l :: mates).filter (fun m => s.swgOut m != 0)).length)) then 4
  else 0

/-- EN is written to 1 while it is 0 (R467, R471, R481, R486). From then on the loop's value, the u last applied, drives its channels (R488,
R501): DESIGN CHOICE, log entry 98. DEDUCED, log entry 16. -/
def State.swgEnable (s : State) (l : Nat) : State :=
  let t := s.set (Reg.SWG_n_CTRL_EN l) 1
  match t.swgCheck l with
  | 0 =>
    let y := t.fbVal l (t.fbRaw l)
    let t := (t.set (Reg.SWG_n_STAT_EH l) (t.get (Reg.SWG_n_BAND_H l))).set (Reg.SWG_n_STAT_PDONE l) 1
    let t := t.modLoop l (fun x => { x with
      filt := none, p := y * 65536, v := 0, a := 0, stopped := false, uPend := none,
      next := if t.running then ((List.range (t.swgNsamp l)).filter (fun j => decide (t.swgAt l j < t.now))).length else 0 })
    let t := ((t.set (Reg.SWG_n_STAT_PHASE l) 0).setB (Reg.SWG_n_STAT_BLOCKED l) (t.swgBlocked l)).swgTwoLevel l
    ((outDrive (t.swgOut l) (t.sget (Reg.SWG_n_OUTV_U l))).foldl (fun t d => t.modChan d.1 (fun x => { x with swg := some d.2 })) t).setUsed.refreshLsw
  | c => (s.set Reg.SWG_STAT_CFGERR 1).set Reg.SWG_STAT_CFGCODE c

/-- EN is written to 0: when no enabled loop names a channel any more, its stored command applies (R488). -/
def State.swgDisable (s : State) (l : Nat) : State :=
  let cs := outChans (s.swgOut l)
  let s := ((s.set (Reg.SWG_n_CTRL_EN l) 0).modLoop l (fun x => { x with uPend := none })).setUsed
  let free := cs.filter (fun c => !(List.range 16).any (fun m => s.swgOn m && (outChans (s.swgOut m)).contains c))
  (free.foldl (fun (t : State) c => t.modChan c (fun x => { x with swg := none, eff := t.stored c })) s).refreshLsw

/-- AUTO is written (R476, R477): only a change of AUTO switches the loop (DEDUCED, log entry 16). -/
def State.swgAuto (s : State) (l : Nat) (b : Bool) : State :=
  let was := s.on (Reg.SWG_n_CTRL_AUTO l)
  if was == b then s
  else if b then (s.set (Reg.SWG_n_CTRL_AUTO l) 1).modLoop l (fun x => { x with transfer := true })
  else s.manualHold l

def State.swgPgo (s : State) (l : Nat) : State := s.modLoop l (fun x => { x with pgo := true })

/-- A write to SWG_n_BAND sets EH to H (R486). -/
def State.swgBand (s : State) (w : Who) (l : Nat) (v : W32) : State :=
  let s := s.writeFields w (Reg.SWG_n_BAND l) v (fun _ => false)
  s.set (Reg.SWG_n_STAT_EH l) (s.get (Reg.SWG_n_BAND_H l))

/-- A write to SWG_n_CTRL. -/
def State.writeSwgCtrl (s : State) (l : Nat) (v : W32) : State :=
  let en := fieldGet v 0 1 == 1
  let was := s.swgOn l
  let s := if en && !was then s.swgEnable l else if was && !en then s.swgDisable l else s
  let s := s.swgAuto l (fieldGet v 1 1 == 1)
  if fieldGet v 2 1 = 1 then s.swgPgo l else s

/-- SWAGE_ENABLE (R467). -/
def execSwageEnable (_w : Who) (l : Fin 16) (s : State) : Host.Outcome State Fault Refusal :=
  .next (if s.swgOn l then s else s.swgEnable l)

/-- SWAGE_AUTO (R476, R477). -/
def execSwageAuto (_w : Who) (l : Fin 16) (b : Bool) (s : State) : Host.Outcome State Fault Refusal := .next (s.swgAuto l b)

/-- SWAGE_PGO (R481, R484). -/
def execSwagePgo (_w : Who) (l : Fin 16) (s : State) : Host.Outcome State Fault Refusal := .next (s.swgPgo l)

/-- SWAGE_BAND_WRITE (R486). -/
def execSwageBandWrite (w : Who) (l : Fin 16) (v : BitVec 32) (s : State) : Host.Outcome State Fault Refusal :=
  .next ((s.noteLoopWrite (Reg.SWG_n_BAND l)).swgBand w l v)

/-- At the start of the ticks, enabled loops that fail check 2 go to MANUAL hold and are not sampled (R468). -/
def State.swgRunStart (s : State) : State :=
  s.each 16 (fun l t =>
    if t.swgOn l && !t.swgRateOk l then
      (((t.manualHold l).set (Reg.SWG_n_STAT_RATEERR l) 1).modLoop l (fun x => { x with stopped := true })).record 0x0901 l 0
    else t)

end Sys2Proof.Machine
end

