-- ==== Sys2Proof/Machine/Tongs.lean ====
section
/-!
DEFINITION. The commands of the Tongs engines, the pendant receiver and the timers (16).
-/

namespace Sys2Proof.Machine

def State.tng (s : State) (t : Nat) : Tongs := s.tongs.getD t Tongs.zero
def State.modTng (s : State) (t : Nat) (f : Tongs → Tongs) : State := { s with tongs := s.tongs.setIfInBounds t (f (s.tng t)) }

/-! ## Pins (R526 to R529) -/

/-- The pin number of window pin `p` of engine `t`. -/
def State.window (s : State) (t p : Nat) : Nat := (s.get (Reg.TNG_CFG_PINBASE t) + p) % 32

/-- The owner of a Tongs engine. -/
def State.tngOwner (s : State) (t : Nat) : Nat := s.bindOwner 6 t

/-- The unit that a pin's FSEL names: 0 none, 1 to 8 TM0 to TM7, 16 to 31 TMR0 to TMR15; 9 to 15 are taken as 0 (R527). -/
def State.fsel (s : State) (pin : Nat) : Nat :=
  let v := fieldGet (s.word (Reg.TNG_PIO_FSEL (pin / 4))) (8 * (pin % 4)) 5
  if 9 ≤ v ∧ v < 16 then 0 else v

/-- The owner of the unit that FSEL names. -/
def State.unitOwner (s : State) (u : Nat) : Nat := if u < 16 then s.bindOwner 6 (u - 1) else s.bindOwner 7 (u - 16)

/-- The level to which a pin is driven; none: high-impedance. Only the unit that FSEL names drives it, and only while that unit has the
pin's owner (R527), so a changed FSEL hands the pin to the new unit (R560); a personality's pin is driven from the OUT step on (09). A timer
drives its output level (R550), a Tongs engine what its DRIVE and SHOUT instructions left (R531); nothing in HIBERNATE (R532), nor under a
TAP hold, where the boundary cells stand in for the units (R726; log entry 57). -/
def State.pinDrive (s : State) (pin : Nat) : Option Bool :=
  let u := s.fsel pin
  let o := s.pinOwner pin
  if u = 0 ∨ s.get Reg.PWR_STAT_STATE = 3 ∨ s.tap.hold ∨ s.unitOwner u ≠ o ∨ (o < 3 ∧ !s.slotOut o) then none
  else if u < 16 then
    let x := s.tongs.getD (u - 1) Tongs.zero
    if x.drvEn.getLsbD pin then some (x.drvLvl.getLsbD pin) else none
  else some (s.on (Reg.TMR_STAT_OUT (u - 16)))

/-- Which pins the Engor drives now, and to which levels. -/
def State.driven (s : State) : W32 × W32 :=
  if (List.range 8).all (fun i => s.word (Reg.TNG_PIO_FSEL i) == 0) then (0, 0)
  else (List.range 32).foldl (fun v p => match s.pinDrive p with
    | some b => (putBit v.1 p true, putBit v.2 p b)
    | none => v) (0, 0)

/-- What the Engor drives from `time` on is what it drives now (R530, R550). -/
def State.pioDrive (s : State) (time : Nat) : State :=
  let d := s.driven
  let h := (s.pio.hist.head?.map (fun h => h.2)).getD (0, 0)
  if h == d then s else { s with pio := s.pio.drive time d.1 d.2 }

/-- A TIME cycle passes in the TONGS domain: 1.6 TONGS cycles. -/
def State.pioEdge (s : State) : State :=
  if s.tongsClock then ({ s with pio := { s.pio with t := s.pio.t + 8 } } : State).pioDrive (s.pio.t + 8) else s

/-- A sampled window pin, where `pins` is what the synchronisers hold: 0 when the pin has another owner (R528). -/
def State.pinIn (s : State) (t p : Nat) (pins : W32) : Bool :=
  pins.getLsbD (s.window t p) && s.pinOwner (s.window t p) == s.tngOwner t

/-- The window pins W0 to W7 as bits 7:0. -/
def State.windowIn (s : State) (t : Nat) (pins : W32) : Nat :=
  ((List.range 8).map (fun p => if s.pinIn t p pins then 2 ^ p else 0)).foldl (· + ·) 0

/-- The engine drives window pin `p` to a level, or releases it. -/
def State.drivePin (s : State) (t p : Nat) (level : Option Bool) : State :=
  let w := s.window t p
  s.modTng t (fun x => match level with
    | none => { x with drvEn := putBit x.drvEn w false }
    | some b => { x with drvEn := putBit x.drvEn w true, drvLvl := putBit x.drvLvl w b })

/-! ## Steps (R530) -/

def State.tngRuns (s : State) (t : Nat) : Bool := s.on (Reg.TNG_CTRL_RUN t)

/-- The step in progress ends; a waiting instruction is abandoned and issues again from its beginning (R531). -/
def State.tngAbandon (s : State) (t : Nat) : State := (s.set (Reg.TNG_STAT_WAIT t) 0).modTng t (fun x => { x with delay := none })

/-- An instruction completes: PC goes to `pc` and nothing waits. -/
def State.tngAt (s : State) (t pc : Nat) : State := (s.set (Reg.TNG_STAT_PC t) (pc % 64)).set (Reg.TNG_STAT_WAIT t) 0
def State.tngNext (s : State) (t : Nat) : State := s.tngAt t (s.get (Reg.TNG_STAT_PC t) + 1)
def State.tngWait (s : State) (t : Nat) : State := s.set (Reg.TNG_STAT_WAIT t) 1

/-- An illegal instruction (R534). -/
def State.tngIllegal (s : State) (t : Nat) : State :=
  ((s.set (Reg.TNG_CTRL_RUN t) 0).set (Reg.TNG_STAT_ILL t) 1).record 0x0B01 t 0

/-! ## FIFOs (R536 to R538) -/

/-- Is a Forge tile attached to the engine's FIFOs (R295)? -/
def State.tngTile (s : State) (t : Nat) : Bool :=
  (List.range 3).any (fun n =>
    let x := s.slot n
    x.admitted && x.binds.any (fun b => b.1 == 2 && ((byteAt b.2.2 0 == 5 && byteAt b.2.2 1 == t) || (byteAt b.2.2 2 == 5 && byteAt b.2.2 3 == t))))

/-- A word into the RX FIFO without waiting: discarded and counted when the FIFO is full (R536). -/
def State.tngDeliver (s : State) (t : Nat) (w : W32) : State :=
  if 8 ≤ (s.tng t).rx.length then s.count (Reg.TNG_DROP_COUNT t) 1 else s.modTng t (fun x => { x with rx := x.rx ++ [w] })

/-! ## Timers: captures and compares -/

def State.timer (s : State) (n : Nat) : Timer := s.tmr.getD n Timer.zero
def State.modTimer (s : State) (n : Nat) (f : Timer → Timer) : State := { s with tmr := s.tmr.setIfInBounds n (f (s.timer n)) }

/-- The 48-bit value in a LO and a HI field. -/
def State.get48 (s : State) (lo hi : Fld) : Nat := s.get lo + s.get hi * 2 ^ 32
def State.set48 (s : State) (lo hi : Fld) (v : Nat) : State := (s.set lo v).set hi (v / 2 ^ 32)

def State.tmrCnt (s : State) (n : Nat) : Nat := s.get48 (Reg.TMR_CNT_LO_CNT n) (Reg.TMR_CNT_HI_CNT n)
def State.setTmrCnt (s : State) (n v : Nat) : State := s.set48 (Reg.TMR_CNT_LO_CNT n) (Reg.TMR_CNT_HI_CNT n) v
def State.tmrCmp (s : State) (n c : Nat) : Nat := s.get48 (Reg.TMR_CMP_LO_VAL n c) (Reg.TMR_CMP_HI_VAL n c)

/-- Capture `c` lands (R549, R551, R554). -/
def State.tmrCapture (s : State) (n c : Nat) : State :=
  let v := s.tmrCnt n
  let s := if s.on (Reg.TMR_CAP_HI_FRESH n c) then s.set (Reg.TMR_CAP_HI_OVERCAP n c) 1 else s
  let s := (s.set48 (Reg.TMR_CAP_LO_VAL n c) (Reg.TMR_CAP_HI_VAL n c) v).set (Reg.TMR_CAP_HI_FRESH n c) 1
  let s := if c = 0 then s.modTimer n (fun x => { x with
      prev0 := x.last0, last0 := BitVec.ofNat 48 v, caps0 := min 2 (x.caps0 + 1) }) else s
  if s.get (Reg.TMR_EVCFG_CAPIEN n) / 2 ^ c % 2 = 1 then s.registerAll (38 + n) else s

/-- SRC and IDX of a capture. -/
def State.capSrc (s : State) (n c : Nat) : Nat := fieldGet (s.word (Reg.TMR_CAPCFG n)) (8 * c) 3
def State.capIdx (s : State) (n c : Nat) : Nat := fieldGet (s.word (Reg.TMR_CAPCFG n)) (8 * c + 3) 5

/-- Every capture whose source is `src` with index test `p` fires (R548). -/
def State.captures (s : State) (p : Nat → Nat → Bool) : State :=
  s.onOneEdge (fun s => s.each 16 (fun n t => t.each 4 (fun c u => if p (u.capSrc n c) (u.capIdx n c) then u.tmrCapture n c else u)))

/-- The captures of each tick start (R548, source 5). -/
def State.tickCaptures (s : State) : State := s.captures (fun src _ => src == 5)

/-- One compare matches: its flag, its action, its event (R550, R551). -/
def State.tmrMatch (s : State) (n c : Nat) : State :=
  let s := s.set (Reg.TMR_STAT_CMPF n) (s.get (Reg.TMR_STAT_CMPF n) ||| 2 ^ c)
  let out := s.on (Reg.TMR_STAT_OUT n)
  let s := s.setB (Reg.TMR_STAT_OUT n) (match s.get (Reg.TMR_EVCFG_ACT n) / 4 ^ c % 4 with
    | 1 => true
    | 2 => false
    | 3 => !out
    | _ => out)
  if s.get (Reg.TMR_EVCFG_CMPIEN n) / 2 ^ c % 2 = 1 then s.registerAll (38 + n) else s

/-- In MODE 1 a compare above compare 0 never matches (R550). -/
def State.tmrNever (s : State) (n c : Nat) : Bool := s.on (Reg.TMR_CFG_MODE n) && decide (s.tmrCmp n 0 < s.tmrCmp n c)

/-- Where the next count edge takes the counter: one up, or to 0 at its wrap (R544). -/
def State.tmrNext (s : State) (n : Nat) : Nat :=
  let v := s.tmrCnt n
  if (s.on (Reg.TMR_CFG_MODE n) && v == s.tmrCmp n 0) || v == 2 ^ 48 - 1 then 0 else v + 1

/-- The counter becomes `v`; the compares equal to it match in ascending order. -/
def State.tmrTo (s : State) (n v : Nat) : State :=
  (s.setTmrCnt n v).each 4 (fun c t => if t.tmrCmp n c = v && !t.tmrNever n c then t.tmrMatch n c else t)

/-- One count edge (R544); a stopped timer makes its last one (R545). -/
def State.tmrCount (s : State) (n : Nat) : State :=
  if !(s.on (Reg.TMR_CTRL_RUN n) || (s.timer n).stopping) then s
  else
    let s := s.modTimer n (fun x => { x with stopping := false })
    if s.tmrNext n == 0 then (s.set (Reg.TMR_STAT_WRAP n) 1).tmrTo n 0 else s.tmrTo n (s.tmrNext n)

/-- One TIME cycle passes at a prescaled timer: 8 fifths of a TONGS cycle (R544). DESIGN CHOICE, log entry 19. -/
def State.tmrEdge (s : State) (n : Nat) : State :=
  if s.on (Reg.TMR_CFG_CSRC n) || !(s.on (Reg.TMR_CTRL_RUN n) || (s.timer n).stopping) then s
  else
    let per := 5 * (s.get (Reg.TMR_CFG_PRESC n) + 1)
    let p := (s.timer n).pre + 8
    (s.modTimer n (fun x => { x with pre := p % per })).each (p / per) (fun _ t => t.tmrCount n)

/-! ## EVT (R539) -/

/-- Engine `t` raises its event. -/
def State.tngEvent (s : State) (t : Nat) : State :=
  s.onOneEdge (fun s =>
  let o := s.tngOwner t
  let s := if o = 3 then s.set (Reg.TNG_STAT_EVT t) 1
    else
      let m := s.get (Reg.TNG_EVCNT_EVMASK t)
      s.each 16 (fun e u => if m / 2 ^ e % 2 = 1 then u.register e (bit64 (54 + t)) else u)
  s.captures (fun src idx => src == 4 && idx == t))

/-! ## Tongs commands -/

/-- RUN is written (R531, R540). -/
def State.tngRun (s : State) (t : Nat) (b : Bool) : State :=
  if b then
    if (s.on Reg.TNG_PEND_CFG_EN && s.get Reg.TNG_PEND_CFG_TM == t) || s.tngRuns t then s
    else (s.set (Reg.TNG_CTRL_RUN t) 1).modTng t (fun x => { x with t0 := s.pio.t, m := 0 })
  else (s.set (Reg.TNG_CTRL_RUN t) 0).tngAbandon t

/-- RESTART is written to 1 (R531). -/
def State.tngRestart (s : State) (t : Nat) : State :=
  if s.tngRuns t then s
  else (s.set (Reg.TNG_STAT_PC t) 0).modTng t (fun x =>
    { Tongs.zero with drvEn := x.drvEn, drvLvl := x.drvLvl, txLatch := x.txLatch, rxLatch := x.rxLatch })

/-- A write to TNG_t_CTRL: RESTART is judged by RUN as it was. DESIGN CHOICE, log entry 18. -/
def State.writeTngCtrl (s : State) (t : Nat) (v : W32) : State :=
  (if fieldGet v 1 1 = 1 then s.tngRestart t else s).tngRun t (fieldGet v 0 1 == 1)

/-- TONGS_RUN (R530, R531). -/
def execTongsRun (w : Who) (t : Fin 8) (b : Bool) (s : State) : Host.Outcome State Fault Refusal :=
  .next (s.owned w (Reg.TNG_CTRL t) (fun u => u.tngRun t b))

/-- TONGS_RESTART (R531). -/
def execTongsRestart (w : Who) (t : Fin 8) (s : State) : Host.Outcome State Fault Refusal :=
  .next (s.owned w (Reg.TNG_CTRL t) (fun u => u.tngRestart t))

/-! ## The instruction set (R533) -/

/-- A Tongs instruction, with the operand fields of its word (R533). -/
inductive TongsOp where
  /-- JMP cond, target; p is the pin of conditions 3 and 4. -/
  | jmp (cond p : Fin 8) (dest : Fin 64)
  /-- WAIT p, level. -/
  | wait (level : Bool) (p : Fin 8)
  /-- DRIVE mode, mask. -/
  | drive (mode : Fin 4) (mask : BitVec 8)
  /-- SHIN p. -/
  | shin (p : Fin 8)
  /-- SHOUT p. -/
  | shout (p : Fin 8)
  /-- PULL. -/
  | pull (block : Bool)
  /-- PUSH. -/
  | push (block : Bool)
  /-- LDI k, imm. -/
  | ldi (k : Fin 4) (imm : BitVec 10)
  /-- MOV dst, src. -/
  | mov (dst src : Fin 8)
  /-- ALU d, s, op. -/
  | alu (d rs op : Fin 4)
  /-- CNT op. -/
  | cnt (op : Fin 4)
  /-- EVT. -/
  | evt
  /-- DELAY n. -/
  | delay (n : BitVec 12)
deriving DecidableEq, Repr

/-- The instruction of a program word; none: an opcode 0xD to 0xF, or a bit that the encoding does not name is not 0 (R533, R534). -/
def decodeTongs (w : BitVec 16) : Option TongsOp :=
  let f := fun (lo n : Nat) => w.toNat / 2 ^ lo % 2 ^ n
  let zero := fun (lo n : Nat) (op : TongsOp) => if f lo n = 0 then some op else none
  match f 12 4 with
  | 0 => some (.jmp (Fin.ofNat 8 (f 9 3)) (Fin.ofNat 8 (f 6 3)) (Fin.ofNat 64 (f 0 6)))
  | 1 => zero 0 8 (.wait (f 11 1 == 1) (Fin.ofNat 8 (f 8 3)))
  | 2 => zero 8 2 (.drive (Fin.ofNat 4 (f 10 2)) (BitVec.ofNat 8 (f 0 8)))
  | 3 => if f 11 1 = 0 then zero 0 8 (.shin (Fin.ofNat 8 (f 8 3))) else none
  | 4 => if f 11 1 = 0 then zero 0 8 (.shout (Fin.ofNat 8 (f 8 3))) else none
  | 5 => zero 0 11 (.pull (f 11 1 == 1))
  | 6 => zero 0 11 (.push (f 11 1 == 1))
  | 7 => some (.ldi (Fin.ofNat 4 (f 10 2)) (BitVec.ofNat 10 (f 0 10)))
  | 8 => zero 0 6 (.mov (Fin.ofNat 8 (f 9 3)) (Fin.ofNat 8 (f 6 3)))
  | 9 => zero 0 6 (.alu (Fin.ofNat 4 (f 10 2)) (Fin.ofNat 4 (f 8 2)) (Fin.ofNat 4 (f 6 2)))
  | 10 => zero 0 10 (.cnt (Fin.ofNat 4 (f 10 2)))
  | 11 => zero 0 12 .evt
  | 12 => some (.delay (BitVec.ofNat 12 (f 0 12)))
  | _ => none

/-- The program word at the PC of engine `t`. -/
def State.tngWord (s : State) (t : Nat) : BitVec 16 :=
  let pc := s.get (Reg.TNG_STAT_PC t)
  BitVec.ofNat 16 (s.get (if pc % 2 = 0 then Reg.TNG_PROG_I0 t (pc / 2) else Reg.TNG_PROG_I1 t (pc / 2)))

/-- The instruction at the PC of engine `t`; none: an illegal word. -/
def State.tngOp (s : State) (t : Nat) : Option TongsOp := decodeTongs (s.tngWord t)

/-- JMP: the conditions of R533. Those on K0 and K1 decrement the register that is not 0. -/
def State.tngJmp (s : State) (t : Nat) (pins : W32) (cond p : Fin 8) (dest : Fin 64) : State :=
  let x := s.tng t
  let k := fun (i : Nat) => x.k.getD i 0
  let len := if s.get (Reg.TNG_CFG_SHLEN t) = 0 then 32 else s.get (Reg.TNG_CFG_SHLEN t)
  let dec := fun (i : Nat) => (s.modTng t (fun y => { y with k := y.k.setIfInBounds i (k i - 1) })).tngAt t dest
  let goes := fun (b : Bool) => if b then s.tngAt t dest else s.tngNext t
  match cond.val with
  | 0 => goes true
  | 1 => if k 0 = 0 then s.tngNext t else dec 0
  | 2 => if k 1 = 0 then s.tngNext t else dec 1
  | 3 => goes (s.pinIn t p pins)
  | 4 => goes (!s.pinIn t p pins)
  | 5 => goes (!x.tx.isEmpty)
  | 6 => goes (x.shcnt == len)
  | _ => goes x.z

/-- DRIVE: mode 0 low, 1 high, 2 release, 3 toggle, on the pins of the mask. -/
def State.tngDrive (s : State) (t : Nat) (mode : Fin 4) (mask : BitVec 8) : State :=
  let x := s.tng t
  ((List.range 8).foldl (fun u p =>
    if mask.getLsbD p then u.drivePin t p (match mode.val with
      | 0 => some false
      | 1 => some true
      | 2 => none
      | _ => some (!x.drvLvl.getLsbD (u.window t p))) else u) s).tngNext t

/-- One bit into SH, at the end the shift direction gives; SHCNT saturates at 32. -/
def Tongs.shiftIn (x : Tongs) (dir b : Bool) : Tongs :=
  let v : W32 := if b then 1 else 0
  { x with sh := if dir then (x.sh >>> 1) ||| (v <<< 31) else (x.sh <<< 1) ||| v, shcnt := min 32 (x.shcnt + 1) }

/-- SHOUT: the pin takes the next bit of SH, and a 0 is shifted in. -/
def State.tngShout (s : State) (t : Nat) (p : Fin 8) : State :=
  let dir := s.on (Reg.TNG_CFG_SHDIR t)
  ((s.drivePin t p (some ((s.tng t).sh.getLsbD (if dir then 0 else 31)))).modTng t (fun y => y.shiftIn dir false)).tngNext t

/-- PULL (R536). -/
def State.tngPull (s : State) (t : Nat) (block : Bool) : State :=
  match (s.tng t).tx with
  | w :: r => (s.modTng t (fun y => { y with sh := w, shcnt := 0, tx := r, last := w })).tngNext t
  | [] =>
    if block then s.tngWait t
    else ((s.modTng t (fun y => { y with sh := y.last, shcnt := 0 })).set (Reg.TNG_STAT_STALE t) 1).tngNext t

/-- PUSH (R536). -/
def State.tngPush (s : State) (t : Nat) (block : Bool) : State :=
  if block && decide (8 ≤ (s.tng t).rx.length) then s.tngWait t
  else ((s.tngDeliver t (s.tng t).sh).modTng t (fun y => { y with sh := 0, shcnt := 0 })).tngNext t

/-- MOV between K0 to K3, SH, COUNT, PINS and SHCNT; SHCNT as destination is illegal (R533, R534). -/
def State.tngMov (s : State) (t : Nat) (pins : W32) (dst src : Fin 8) : State :=
  let x := s.tng t
  let v : W32 := match src.val with
    | 4 => x.sh
    | 5 => BitVec.ofNat 32 (s.get (Reg.TNG_EVCNT_COUNT t))
    | 6 => BitVec.ofNat 32 (s.windowIn t pins)
    | 7 => BitVec.ofNat 32 x.shcnt
    | i => x.k.getD i 0
  match dst.val with
  | 7 => s.tngIllegal t
  | 4 => (s.modTng t (fun y => { y with sh := v })).tngNext t
  | 5 => (s.set (Reg.TNG_EVCNT_COUNT t) v.toNat).tngNext t
  | 6 => ((List.range 8).foldl (fun u p => u.drivePin t p (some (v.getLsbD p))) s).tngNext t
  | i => (s.modTng t (fun y => { y with k := y.k.setIfInBounds i v })).tngNext t

/-- ALU. -/
def State.tngAlu (s : State) (t : Nat) (d rs op : Fin 4) : State :=
  let a := (s.tng t).k.getD d.val 0
  let b := (s.tng t).k.getD rs.val 0
  let r : W32 := match op.val with
    | 0 => a + b
    | 1 => a - b
    | 2 => a &&& b
    | _ => a ^^^ b
  (s.modTng t (fun y => { y with k := y.k.setIfInBounds d r, z := r == 0 })).tngNext t

/-- CNT. -/
def State.tngCnt (s : State) (t : Nat) (op : Fin 4) : State :=
  let c := s.get (Reg.TNG_EVCNT_COUNT t)
  (s.set (Reg.TNG_EVCNT_COUNT t) (match op.val with
    | 0 => c + 1
    | 1 => c + 65535
    | 2 => 0
    | _ => ((s.tng t).k.getD 0 0).toNat)).tngNext t

/-- DELAY n: n + 1 steps. -/
def State.tngDelay (s : State) (t : Nat) (n : BitVec 12) : State :=
  match (s.tng t).delay with
  | none => if n = 0 then s.tngNext t else (s.modTng t (fun y => { y with delay := some n.toNat })).tngWait t
  | some k => if k ≤ 1 then (s.modTng t (fun y => { y with delay := none })).tngNext t
    else s.modTng t (fun y => { y with delay := some (k - 1) })

/-- What an instruction does on its step edge, where `pins` is what the synchronisers hold (R533). -/
def State.tngDo (s : State) (t : Nat) (pins : W32) (op : TongsOp) : State :=
  match op with
  | .jmp cond p dest => s.tngJmp t pins cond p dest
  | .wait level p => if s.pinIn t p pins == level then s.tngNext t else s.tngWait t
  | .drive mode mask => s.tngDrive t mode mask
  | .shin p => (s.modTng t (fun x => x.shiftIn (s.on (Reg.TNG_CFG_SHDIR t)) (s.pinIn t p pins))).tngNext t
  | .shout p => s.tngShout t p
  | .pull block => s.tngPull t block
  | .push block => s.tngPush t block
  | .ldi k imm => (s.modTng t (fun y => { y with k := y.k.setIfInBounds k (imm.setWidth 32) })).tngNext t
  | .mov dst src => s.tngMov t pins dst src
  | .alu d rs op => s.tngAlu t d rs op
  | .cnt op => s.tngCnt t op
  | .evt => (s.tngNext t).tngEvent t
  | .delay n => s.tngDelay t n

/-! ## Step edges (R530, R535) -/

/-- The TONGS cycle of step edge m, counted from RUN (R535). -/
def State.tngCycle (s : State) (t m : Nat) : Nat :=
  let i := s.get (Reg.TNG_DIV_INT t)
  if i = 0 then m * 65536 else m * i + m * s.get (Reg.TNG_DIV_FRAC t) / 256

/-- When the next step edge of engine `t` falls, on the clock of `State.pio`. The first one after RUN is edge 1. DEDUCED, log entry 18. -/
def State.tngEdge (s : State) (t : Nat) : Nat := (s.tng t).t0 + 5 * s.tngCycle t ((s.tng t).m + 1)

/-- Has the next step edge of a running engine come (R530)? -/
def State.tngDue (s : State) (t : Nat) : Bool := s.tongsClock && s.tngRuns t && decide (s.tngEdge t ≤ s.pio.t)

/-- The step of engine `t`: the word at PC is issued, or is illegal (R530, R534); what it drives changes 1 TONGS cycle later. -/
def State.tngStep (s : State) (t : Nat) : State :=
  let e := s.tngEdge t
  let u := s.modTng t (fun x => { x with m := x.m + 1 })
  ((match s.tngOp t with
    | some op => u.tngDo t (s.pio.sampled e) op
    | none => u.tngIllegal t) : State).pioDrive (e + 5)

/-- A row for a step of engine `t`: it is that step, when a step edge has come and the word at PC is the row's instruction. DESIGN CHOICE, log entry 18. -/
def State.tngRow (s : State) (t : Nat) (op : TongsOp) : State := if s.tngDue t && s.tngOp t == some op then s.tngStep t else s

/-- The same for a row that says what stands on the pins from outside. -/
def State.tngPins (s : State) (t : Nat) (op : TongsOp) (pins : W32) : State :=
  if s.tngDue t && s.tngOp t == some op then ({ s with pio := { s.pio with ext := pins } } : State).tngStep t else s

/-- The engine whose step edge came first among those that have come. -/
def State.tngNextDue (s : State) : Option Nat :=
  (List.range 8).foldl (fun (b : Option Nat) t =>
    if !s.tngDue t then b else match b with
      | none => some t
      | some x => if s.tngEdge t < s.tngEdge x then some t else b) none

/-- JMP (R533). -/
def execTongsJmp (t : Fin 8) (cond p : Fin 8) (dest : Fin 64) (pins : BitVec 32) (s : State) : Host.Outcome State Fault Refusal :=
  .next (s.tngPins t (.jmp cond p dest) pins)

/-- WAIT (R533). -/
def execTongsWait (t : Fin 8) (level : Bool) (p : Fin 8) (pins : BitVec 32) (s : State) : Host.Outcome State Fault Refusal :=
  .next (s.tngPins t (.wait level p) pins)

/-- DRIVE (R533). -/
def execTongsDrive (t : Fin 8) (mode : Fin 4) (mask : BitVec 8) (s : State) : Host.Outcome State Fault Refusal :=
  .next (s.tngRow t (.drive mode mask))

/-- SHIN (R533). -/
def execTongsShin (t : Fin 8) (p : Fin 8) (pins : BitVec 32) (s : State) : Host.Outcome State Fault Refusal :=
  .next (s.tngPins t (.shin p) pins)

/-- SHOUT (R533). -/
def execTongsShout (t : Fin 8) (p : Fin 8) (s : State) : Host.Outcome State Fault Refusal := .next (s.tngRow t (.shout p))

/-- PULL (R536). -/
def execTongsPull (t : Fin 8) (block : Bool) (s : State) : Host.Outcome State Fault Refusal := .next (s.tngRow t (.pull block))

/-- PUSH (R536). -/
def execTongsPush (t : Fin 8) (block : Bool) (s : State) : Host.Outcome State Fault Refusal := .next (s.tngRow t (.push block))

/-- LDI (R533). -/
def execTongsLdi (t : Fin 8) (k : Fin 4) (imm : BitVec 10) (s : State) : Host.Outcome State Fault Refusal := .next (s.tngRow t (.ldi k imm))

/-- MOV (R533, R534). -/
def execTongsMov (t : Fin 8) (dst src : Fin 8) (pins : BitVec 32) (s : State) : Host.Outcome State Fault Refusal :=
  .next (s.tngPins t (.mov dst src) pins)

/-- ALU (R533). -/
def execTongsAlu (t : Fin 8) (d rs : Fin 4) (op : Fin 4) (s : State) : Host.Outcome State Fault Refusal := .next (s.tngRow t (.alu d rs op))

/-- CNT (R533). -/
def execTongsCnt (t : Fin 8) (op : Fin 4) (s : State) : Host.Outcome State Fault Refusal := .next (s.tngRow t (.cnt op))

/-- EVT (R539). -/
def execTongsEvt (t : Fin 8) (s : State) : Host.Outcome State Fault Refusal := .next (s.tngRow t .evt)

/-- DELAY (R533): one of its n + 1 steps. -/
def execTongsDelay (t : Fin 8) (n : BitVec 12) (s : State) : Host.Outcome State Fault Refusal := .next (s.tngRow t (.delay n))

/-- Is the word at PC illegal (R534)? -/
def State.tngBad (s : State) (t : Nat) : Bool :=
  match s.tngOp t with
  | none => true
  | some (.mov dst _) => dst == 7
  | some _ => false

/-- TONGS_ILLEGAL (R534): the step of an illegal word. -/
def execTongsIllegal (t : Fin 8) (s : State) : Host.Outcome State Fault Refusal := .next (if s.tngDue t && s.tngBad t then s.tngStep t else s)

/-- A word written to TXF (R537, R538). -/
def State.txfWrite (s : State) (t : Nat) (v : W32) : State :=
  if s.tngTile t then s
  else if 8 ≤ (s.tng t).tx.length then s.set (Reg.TNG_STAT_TXOVF t) 1
  else s.modTng t (fun x => { x with tx := x.tx ++ [v] })

/-- A read of RXF: the word it returns (R537, R538). -/
def State.rxfRead (s : State) (t : Nat) : W32 × State :=
  if s.tngTile t then (0, s)
  else match (s.tng t).rx with
    | [] => (0, s.set (Reg.TNG_STAT_RXUNF t) 1)
    | w :: r => (w, s.modTng t (fun x => { x with rx := r }))

/-- TONGS_TXF_WRITE (R537). -/
def execTongsTxfWrite (w : Who) (t : Fin 8) (v : BitVec 32) (s : State) : Host.Outcome State Fault Refusal :=
  .next (s.owned w (Reg.TNG_TXF t) (fun u => u.txfWrite t v))

/-- TONGS_RXF_READ (R537). -/
def execTongsRxfRead (w : Who) (t : Fin 8) (s : State) : Host.Outcome State Fault Refusal :=
  .next (let p := s.rxfRead t; p.2.send (.readValue w (Reg.TNG_RXF t) p.1))

/-! ## Pendant receiver (R540 to R543) -/

/-- A code in progress ends or is discarded; the threshold loop runs again, unless a flood still freezes it (R542). -/
def State.pendDrop (s : State) : State :=
  { ((s.set Reg.TNG_PEND_STAT_CODE 0).setB Reg.TNG_PEND_STAT_FROZEN s.pend.froze) with
    pend := { s.pend with bits := 0, n := 0, markBit := false } }

/-- The receiver is switched off: nothing of it goes on (R540). DESIGN CHOICE, log entry 99. -/
def State.pendOff (s : State) : State := ({ s with pend := Pendant.zero } : State).pendDrop

/-- The space that ends a code: 1 to 24 bits are delivered as one word, with EVT (R541). The ending space is no bit. DEDUCED, log entry 17. -/
def State.pendEnd (s : State) : State :=
  let t := s.get Reg.TNG_PEND_CFG_TM
  let w := s.pend.bits ||| BitVec.ofNat 32 (s.pend.n * 2 ^ 24 + 2 ^ 31)
  let n := s.pend.n
  let s := s.pendDrop
  let s := { s with pend := { s.pend with armed := true } }
  if n = 0 then s else (s.tngDeliver t w).tngEvent t

/-- A write to TNG_PEND_CFG (R540). -/
def State.writePend (s : State) (w : Who) (v : W32) : State :=
  let was := s.on Reg.TNG_PEND_CFG_EN
  let s := s.writeFields w Reg.TNG_PEND_CFG v (fun _ => false)
  if s.on Reg.TNG_PEND_CFG_EN && s.tngRuns (s.get Reg.TNG_PEND_CFG_TM) then
    let s := (s.set Reg.TNG_PEND_CFG_EN 0).set Reg.TNG_PEND_STAT_CFGERR 1
    if was then s.pendOff else s
  else if was && !s.on Reg.TNG_PEND_CFG_EN then s.pendOff
  else s

/-- PEND_ENABLE (R540). -/
def execPendEnable (w : Who) (v : BitVec 32) (s : State) : Host.Outcome State Fault Refusal :=
  .next (s.owned w Reg.TNG_PEND_CFG (fun u => u.writePend w v))

/-- A mark or a space has ended (R541). DEDUCED, log entry 17. -/
def State.pendInterval (s : State) (mark : Bool) (ns : Nat) : State :=
  let hdr := s.get Reg.TNG_PEND_CFG_HDR * 10000
  let fin := s.get Reg.TNG_PEND_CFG_END * 10000
  let split := s.get Reg.TNG_PEND_CFG_SPLIT * 1000
  let p := s.pend
  let code := s.on Reg.TNG_PEND_STAT_CODE
  if mark then
    if p.saturated then { s with pend := { p with saturated := false, armed := false } }
    else if code then
      if hdr ≤ ns then s.pendDrop.count Reg.TNG_PEND_STAT_BAD 1 else { s with pend := { p with markBit := true } }
    else if p.armed && decide (hdr ≤ ns) then
      { ((s.set Reg.TNG_PEND_STAT_CODE 1).set Reg.TNG_PEND_STAT_FROZEN 1) with
        pend := { p with armed := false, bits := 0, n := 0, markBit := false } }
    else { s with pend := { p with armed := false } }
  else
    if code then
      if fin ≤ ns then s.pendEnd
      else if !p.markBit then s
      else if 24 ≤ p.n then s.pendDrop.count Reg.TNG_PEND_STAT_BAD 1
      else
        let b : W32 := if split ≤ ns then 1 else 0
        { s with pend := { p with bits := p.bits ||| (b <<< p.n), n := p.n + 1, markBit := false } }
    else { s with pend := { p with armed := decide (fin ≤ ns) } }

/-- PEND_MARK (R541). -/
def execPendMark (mark : Bool) (ns : BitVec 40) (s : State) : Host.Outcome State Fault Refusal :=
  .next (if s.tongsClock && s.on Reg.TNG_PEND_CFG_EN then s.pendInterval mark ns.toNat else s)

/-- PEND_CODE_END (R541): the space has lasted END × 10 µs, before it ends. -/
def execPendCodeEnd (s : State) : Host.Outcome State Fault Refusal :=
  .next (if s.tongsClock && s.on Reg.TNG_PEND_CFG_EN && s.on Reg.TNG_PEND_STAT_CODE then s.pendEnd else s)

/-- PEND_FLOOD (R542): once a saturation. -/
def execPendFlood (s : State) : Host.Outcome State Fault Refusal :=
  .next (if s.tongsClock && s.on Reg.TNG_PEND_CFG_EN && !s.pend.saturated then
      let s := s.pendDrop
      let s := ((s.set Reg.TNG_PEND_STAT_FLOOD 1).set Reg.TNG_PEND_STAT_FROZEN 1).record 0x0B02 0xFF 0
      { s with pend := { s.pend with saturated := true, armed := false, froze := true } }
    else s)

/-- PEND_THRESHOLD_RESUME (R542). -/
def execPendThresholdResume (s : State) : Host.Outcome State Fault Refusal :=
  .next (if s.pend.saturated || s.on Reg.TNG_PEND_STAT_CODE || !s.tongsClock then s
    else { (s.set Reg.TNG_PEND_STAT_FROZEN 0) with pend := { s.pend with froze := false } })

/-! ## Timer commands -/

/-- RUN of a timer is written (R545). -/
def State.tmrRun (s : State) (n : Nat) (b : Bool) : State :=
  let was := s.on (Reg.TMR_CTRL_RUN n)
  if b && !was then
    ((s.set (Reg.TMR_CTRL_RUN n) 1).set (Reg.TMR_STAT_OUT n) (s.get (Reg.TMR_CFG_OINIT n))).modTimer n
      (fun x => { x with stopping := false, pre := 0 })
  else if was && !b then (s.set (Reg.TMR_CTRL_RUN n) 0).modTimer n (fun x => { x with stopping := true })
  else s

/-- SWCAP takes the captures of a mask, whatever their source (R548). -/
def State.tmrSwcap (s : State) (n mask : Nat) : State := s.each 4 (fun c t => if mask / 2 ^ c % 2 = 1 then t.tmrCapture n c else t)

/-- A write to TMR_n_CTRL. -/
def State.writeTmrCtrl (s : State) (n : Nat) (v : W32) : State := (s.tmrSwcap n (fieldGet v 1 4)).tmrRun n (fieldGet v 0 1 == 1)

/-- TIMER_RUN (R545). -/
def execTimerRun (w : Who) (n : Fin 16) (b : Bool) (s : State) : Host.Outcome State Fault Refusal :=
  .next (s.owned w (Reg.TMR_CTRL n) (fun t => t.tmrRun n b))

/-- TIMER_SWCAP (R548). -/
def execTimerSwcap (w : Who) (n : Fin 16) (mask : BitVec 4) (s : State) : Host.Outcome State Fault Refusal :=
  .next (s.owned w (Reg.TMR_CTRL n) (fun t => t.tmrSwcap n mask.toNat))

/-- TIMER_CAPTURE (R528, R548): an edge of a pin the timer's owner owns. -/
def execTimerCapture (n : Fin 16) (c : Fin 4) (rising : Bool) (s : State) : Host.Outcome State Fault Refusal :=
  .next (let src := s.capSrc n c
    if s.tongsClock && (src == 3 || (src == 1 && rising) || (src == 2 && !rising)) && s.pinOwner (s.capIdx n c) == s.bindOwner 7 n then
      (s.bringPin (s.capIdx n c) rising).tmrCapture n c
    else s)

/-- TIMER_COMPARE_MATCH (R550): the counter becomes equal to compare c; where it already is, it matched before. DESIGN CHOICE, log entry 19. -/
def execTimerCompareMatch (n : Fin 16) (c : Fin 4) (s : State) : Host.Outcome State Fault Refusal :=
  .next (let v := s.tmrCmp n c
    if s.tongsClock && s.on (Reg.TMR_CTRL_RUN n) && s.tmrCnt n != v && !s.tmrNever n c then
      (s.modTimer n (fun x => { x with pre := 0 })).tmrTo n v
    else if s.tongsClock && (s.timer n).stopping && s.tmrNext n == v then s.tmrCount n
    else s)

/-- TIMER_WRAP (R544). DESIGN CHOICE, log entry 19. -/
def execTimerWrap (n : Fin 16) (s : State) : Host.Outcome State Fault Refusal :=
  .next (if s.tongsClock && s.on (Reg.TMR_CTRL_RUN n) then
      ((s.set (Reg.TMR_STAT_WRAP n) 1).modTimer n (fun x => { x with pre := 0 })).tmrTo n 0
    else if s.tongsClock && (s.timer n).stopping && s.tmrNext n == 0 then s.tmrCount n
    else s)

/-- A read of TMR_n_CNT_LO: all ones and RUNRD while RUN is 1, else the counter (R30, R547). -/
def State.readCnt (s : State) (n : Nat) : W32 × State :=
  if s.on (Reg.TMR_CTRL_RUN n) then
    (0xFFFFFFFF, (s.set (Reg.TMR_STAT_RUNRD n) 1).capture (Reg.TMR_CNT_HI n) 0xFFFF)
  else (s.word (Reg.TMR_CNT_LO n), s.capture (Reg.TMR_CNT_HI n) (s.word (Reg.TMR_CNT_HI n)))

/-- A read of TMR_n_CAPc_LO: the value, with FRESH and OVERCAP held for the HI read and cleared (R549). -/
def State.readCap (s : State) (n c : Nat) : W32 × State :=
  let t := s.capture (Reg.TMR_CAP_HI n c) (s.word (Reg.TMR_CAP_HI n c))
  (s.word (Reg.TMR_CAP_LO n c), (t.set (Reg.TMR_CAP_HI_FRESH n c) 0).set (Reg.TMR_CAP_HI_OVERCAP n c) 0)

/-- TIMER_RUNNING_READ (R547). -/
def execTimerRunningRead (w : Who) (n : Fin 16) (s : State) : Host.Outcome State Fault Refusal :=
  .next (let p := s.readCnt n; p.2.send (.readValue w (Reg.TMR_CNT_LO n) p.1))

/-- CAPTURE_READ (R549). -/
def execCaptureRead (w : Who) (n : Fin 16) (c : Fin 4) (s : State) : Host.Outcome State Fault Refusal :=
  .next (let p := s.readCap n c; p.2.send (.readValue w (Reg.TMR_CAP_LO n c) p.1))

/-- TIMER_COUNT_EDGE (R544): only with CSRC 1, on a pin the timer's owner owns. -/
def execTimerCountEdge (n : Fin 16) (s : State) : Host.Outcome State Fault Refusal :=
  .next (if s.tongsClock && s.on (Reg.TMR_CFG_CSRC n) && s.pinOwner (s.get (Reg.TMR_CFG_CPIN n)) == s.bindOwner 7 n then
      (s.bringPin (s.get (Reg.TMR_CFG_CPIN n)) true).tmrCount n
    else s)

/-- Catch-up of a timer after `slow` SLOW periods of sleep (R552). -/
def State.tmrCatchUp (s : State) (n slow : Nat) : State :=
  if s.on (Reg.TMR_CFG_CATCHUP n) && !s.on (Reg.TMR_CFG_CSRC n) && s.on (Reg.TMR_CTRL_RUN n) then
    let a := slow * 400000000 / ((s.get (Reg.TMR_CFG_PRESC n) + 1) * 32768)
    let v := s.tmrCnt n
    let mode := s.on (Reg.TMR_CFG_MODE n)
    let top := s.tmrCmp n 0
    -- counts until the first wrap, and the length of a period after it
    let toWrap := if mode && decide (v ≤ top) then top - v + 1 else 2 ^ 48 - v
    let period := if mode then top + 1 else 2 ^ 48
    let wraps := decide (toWrap ≤ a)
    let fin := if wraps then (a - toWrap) % period else v + a
    let passed := fun c => let x := s.tmrCmp n c
      decide (v < x ∧ x ≤ (if wraps then v + toWrap - 1 else v + a))
        || (wraps && decide (x < period ∧ x ≤ a - toWrap))
    let s := if wraps then s.set (Reg.TMR_STAT_WRAP n) 1 else s
    let s := s.setTmrCnt n fin
    s.each 4 (fun c t => if passed c && !t.tmrNever n c then (t.tmrMatch n c).set (Reg.TMR_STAT_CATCH n) 1 else t)
  else s

end Sys2Proof.Machine
end

