-- ==== Sys2Proof/Machine/Power.lean ====
section
/-!
DEFINITION. The power states and the doze planner (19): what the planner looks at and chooses, entry and wake, and the idle
service of a device whose ticks are stopped (R98).
-/

namespace Sys2Proof.Machine

def State.modPower (s : State) (f : Power → Power) : State := { s with power := f s.power }

/-! ## What the planner looks at (R631 to R635) -/

/-- Would a tick that starts in this state have work (R631)? -/
def State.hasWork (s : State) : Bool :=
  (List.range 3).any (fun n => s.slotState n == slotRunning) || (List.range 16).any (fun l => s.swgOn l)
    || s.on Reg.RING_GCTRL_DBEN || s.chnRunning || (List.range 6).any (fun p => s.on (Reg.PORT_GCTL_EN p))

/-- The time at which the first tick starts (R438, R736, R737): 48 ns after the edge under SRC 1, the nominal start under SRC 0 and 2, one
TP after the manager's latest SYNC under SRC 3, once no step of the time base is pending or refused. -/
def State.firstAt (s : State) : Option Nat :=
  if s.get Reg.HRT_CTRL_SRC = 1 then s.hearth.edge.map (fun e => e + 48)
  else if s.follows then (if !s.time.steps.isEmpty ∨ s.on Reg.TIME_STAT_HOLD then none else s.chain.sync0.map (fun x => x.2 + s.tp))
  else some s.hearth.nominal

/-- Start of the next tick, when one is to come and its time is known. -/
def State.nextTick (s : State) : Option Nat :=
  if s.running then (if s.hearth.stopping then none else some s.tickAt)
  else if s.hearth.armed then s.firstAt
  else none

/-- Offsets in ns, from a tick start, of the TT and sync slots that this device sends, forwards or receives (R432). -/
def State.slotOffsets (s : State) : List Nat :=
  let sl := s.activeSlots
  if !s.chnRunning then []
  else s.syncDepartures ++ (s.departures sl).map (fun x => x.2)
    ++ (sl.filter (fun x => x.dst == s.chnId)).map (fun x => x.offset + s.rtHops x.src * 600)

/-- Does timer `n` act when a compare matches: are its ACT, its CMPIEN or its driven pin non-zero (R632)? -/
def State.tmrActs (s : State) (n : Nat) : Bool :=
  s.on (Reg.TMR_EVCFG_ACT n) || s.on (Reg.TMR_EVCFG_CMPIEN n) || (List.range 32).any (fun pin => s.fsel pin == 16 + n)

/-- Instants in ns at which the compares of running timer `n` next match, when it acts. Pin edges that it counts have no known time. -/
def State.compareTimes (s : State) (n : Nat) : List Nat :=
  if !s.on (Reg.TMR_CTRL_RUN n) || s.on (Reg.TMR_CFG_CSRC n) || !s.tmrActs n then []
  else
    let v := s.tmrCnt n
    let top := if s.on (Reg.TMR_CFG_MODE n) then s.tmrCmp n 0 else 2 ^ 48 - 1
    let last := if v ≤ top then top else 2 ^ 48 - 1
    let cycles := s.get (Reg.TMR_CFG_PRESC n) + 1
    ((List.range 4).map (s.tmrCmp n)).filterMap (fun x =>
      let k := if v < x ∧ x ≤ last then some (x - v) else if x ≤ top then some (last + 1 - v + x) else none
      k.map (fun k => s.now + (k * cycles * 5 - (s.timer n).pre) / 2))

/-- Sample instants of the enabled loops in a tick that starts at `t` (R464, R465). -/
def State.sampleTimes (s : State) (t : Nat) : List Nat :=
  ((List.range 16).filter (fun l => s.swgOn l)).flatMap (fun l =>
    if s.swgNsamp l = 0 then [t] else (List.range (s.swgNsamp l)).map (fun j => (t + j * s.tp / s.swgNsamp l + 4) / 5 * 5))

/-- Targets of stalled WAITTs. -/
def State.waitTimes (s : State) : List Nat :=
  s.eng.toList.filterMap (fun (g : Eng) => match g.cur with
    | some r => (match r.stall with
      | .waitt t => some t.toNat
      | _ => none)
    | none => none)

def minOf : List Nat → Option Nat
  | [] => none
  | x :: r => match minOf r with
    | none => some x
    | some y => some (min x y)

/-- E: the earliest known time of work at or after now; none: unbounded (R632). -/
def State.nextWork (s : State) : Option Nat :=
  let now := s.now
  let ticks := match s.nextTick with
    | some t => if s.hasWork then [t] else []
    | none => []
  let starts := (if s.running then [s.hearth.nominal] else []) ++ s.nextTick.toList
  let slots := starts.flatMap (fun t => s.slotOffsets.map (fun o => t + o - 1000))
  let samples := if s.running then starts.flatMap s.sampleTimes else []
  let hint := (s.word64 Reg.PWR_HINT_LO Reg.PWR_HINT_HI).toNat
  minOf ((ticks ++ slots ++ (List.range 16).flatMap s.compareTimes ++ samples ++ s.waitTimes
    ++ (if now < hint then [hint] else [])).filter (fun t => decide (now ≤ t)))

/-- Entry and wake times of a sleep state in ns (R622). -/
def entryTime (st : Nat) : Nat := if st = 1 then 1000 else if st = 2 then 20000 else 400000
def wakeTime (st : Nat) : Nat := if st = 1 then 5000 else if st = 2 then 80000 else 3000000

def State.margin (s : State) : Nat := s.get Reg.PWR_PLANCFG_MARGIN * 1000

/-- Does the state fit before E (R633, R653)? -/
def State.fitsBefore (s : State) (st : Nat) : Bool :=
  match s.nextWork with
  | none => true
  | some e => decide (s.now + s.margin + entryTime st + wakeTime st + (if 2 ≤ st then 30520 else 0) ≤ e)

/-- Is Strike reception configured (R634)? -/
def State.strikeReception (s : State) : Bool :=
  (List.range 6).any (fun p => s.on (Reg.PORT_ALLOW_FRAMES p) && s.on (Reg.PORT_ALLOWB_BYTES p))
    || (List.range 64).any (fun n => s.on (Reg.RING_CTRL_EN n) && s.get (Reg.RING_CFG_KIND n) == 1 && decide (128 ≤ s.get (Reg.RING_CFG_CLS n)))
    || (s.activeSlots.any (fun x => x.strike && x.dst == s.chnId))

/-- Is a non-posted request of the Engor outstanding? -/
def State.readsOut (s : State) : Bool :=
  s.hif.dbFlight || (List.range 64).any (fun n => decide (0 < (s.ring n).fetching)
      || (s.ring n).q.any (fun d => d.reads && d.data.isNone && d.res.isNone))
    || s.eng.toList.any (fun (g : Eng) => (g.cur.toList ++ g.pre.toList).any (fun r => match r.stall with
      | .hostRead _ _ => true
      | _ => false))

/-- Are the preconditions of HIBERNATE met (R626)? -/
def State.mayHibernate (s : State) : Bool :=
  !s.running && (List.range 3).all (fun n => s.slotState n == slotEmpty)
    && (List.range 64).all (fun n => (s.ring n).frozen || !((s.ring n).q.any (fun d => !d.written)))

/-- The deepest state that no blocker forbids (R635). -/
def State.blockLimit (s : State) : Nat :=
  if s.ing.cur.isSome || s.get Reg.TMP_SUBSTAT_STATE != 0 || !s.hoard.migs.isEmpty
      || (List.range 32).any (fun b => decide (curFill ≤ s.bankCur b)) || s.readsOut then 1
  else if s.mayHibernate then 3
  else 2

/-- Neither a blocker nor PWR_STRIKEMAX forbids the state. -/
def State.allows (s : State) (st : Nat) : Bool :=
  decide (st ≤ s.blockLimit) && (!s.strikeReception || decide (st ≤ s.get Reg.PWR_STRIKEMAX_MAX))

/-- The choice of R633; 0: the device stays in RUN. -/
def State.bestState (s : State) : Nat :=
  (([3, 2, 1].find? (fun st => decide (st ≤ s.get Reg.PWR_PLANCFG_MAXST) && s.allows st && s.fitsBefore st))).getD 0

/-- Is every engine idle, or stalled in WFE or WAITT (R624)? DEDUCED, log entry 46. -/
def State.enginesRest (s : State) : Bool :=
  s.eng.toList.all (fun (g : Eng) => g.pre.isNone && (match g.cur with
    | none => true
    | some r => (match r.stall with
      | .waitt _ => true
      | .wfe _ _ => true
      | _ => false)))

/-- One decision of the doze planner (R624, R633, R636). -/
def State.plan (s : State) : State :=
  if !s.awake || !s.on Reg.PWR_STAT_READY || !s.enginesRest then s
  else
    let f := s.get Reg.PWR_CTRL_FORCE
    let forced := f != 0 && s.allows f
    let st := if forced then f else s.bestState
    let s := if f != 0 && !forced then s.set Reg.PWR_STAT_REQERR 1 else s
    let arm := s.nextWork.map (fun e => e - s.margin - wakeTime st)
    let s := s.set Reg.PWR_STAT_LAST st
    if st = 0 then s else s.modPower (fun p => { p with entering := some st, armed := arm })

/-- Are the writes of order 2 issued, and is no FINAL or SWITCH in progress (R630)? -/
def State.planReady (s : State) : Bool :=
  s.outWait.isEmpty && s.get Reg.TMP_SUBSTAT_STATE != 2 && s.get Reg.TMP_SUBSTAT_STATE != 3

/-- The planner runs last: now, or in the same Settle once what goes before it is done (R630). -/
def State.planLast (s : State) : State :=
  let s := s.modPower (fun p => { p with planDue := !s.planReady })
  if s.planReady then s.plan else s

/-! ## Entry (R622, R625, R626) -/

/-- Every link goes DOWN on the way into HIBERNATE. -/
def State.linksDown (s : State) : State :=
  let s := s.each 6 (fun p t => t.linkFalls p 0)
  let s := s.each 4 (fun l t => if t.linkState l = linkDown then t else t.linkOff l)
  s.checkVoids

/-- The Hoard banks in HIBERNATE. -/
def State.banksSleep (s : State) : State :=
  let ret := s.on Reg.PWR_HIBCFG_HRET
  s.each 32 (fun b t =>
    if ret then (if t.bankCur b = curOn then t.set (Reg.HRD_BANK_CUR b) curRet else t)
    else (t.zeroBank b).set (Reg.HRD_BANK_CUR b) curOff)

/-- What HIBERNATE clears: engine memories and contexts, mailboxes, the Warden session (R648). -/
def State.hibernate (s : State) : State :=
  let s := s.each 18 (fun c t => t.flushCore c)
  let s := (s.linksDown).banksSleep.clearSession.resetRegs 0xF000 0xF800
  let s := s.modSec (fun x => { x with dirs := Vector.replicate 32 { len := 0, timing := none, wait := none } })
  let gone := fun (k : Nat) => decide (Memory.engine 0 0 ≤ k ∧ k < Memory.engine 16 0)
  { s with
    eng := s.eng.map (fun (g : Eng) => { Eng.zero with inReset := g.inReset, holdOff := g.holdOff }),
    mem := Memory.clear s.mem (Memory.engine 0 0) (Memory.engine 16 0),
    eccUnc := s.eccUnc.filter (fun k => !gone k), eccOne := s.eccOne.filter (fun k => !gone k) }

/-- SLEEP_ENTRY_DONE: the state that is being entered is reached. -/
def execSleepEntryDone (s : State) : Host.Outcome State Fault Refusal :=
  match s.power.entering with
  | none => .next s
  | some st =>
    let s := s.modPower (fun p => { p with entering := none })
    let s := s.count (if st = 1 then Reg.PWR_SLPCNT_DOZE else if st = 2 then Reg.PWR_SLPCNT_NAP else Reg.PWR_SLPCNT_HIB) 1
    let s := if 2 ≤ st then (s.each 8 (fun t u => u.tngAbandon t)).pendDrop else s
    let s := if st = 3 then s.hibernate else s
    .next ((s.set Reg.PWR_STAT_STATE st).refreshLsw)

/-! ## Wake sources (R637, R651) -/

/-- The state that the device is in or is entering. -/
def State.sleepState (s : State) : Nat := s.power.entering.getD (s.get Reg.PWR_STAT_STATE)

/-- The device wakes, now or once its entry completes. DESIGN CHOICE, log entry 43. -/
def State.wake (s : State) (src : Fld) (v : Nat) : State := (s.set src (s.get src ||| v)).modPower (fun p => { p with waking := true })

/-- WAKE_SOURCE: source `src` registers; `supply` tells a supply event from the other events of source 7. DESIGN CHOICE, log entry 43. -/
def execWakeSource (src : Fin 8) (supply : Bool) (s : State) : Host.Outcome State Fault Refusal :=
  let st := s.sleepState
  if !s.awake && (s.get Reg.PWR_WAKEEN_EN / 2 ^ src.val) % 2 == 1 && !(src == 3 && decide (2 ≤ st)) && !(src == 7 && st == 3 && !supply) then
    .next (s.wake Reg.PWR_WAKESRC_SRC (2 ^ src.val))
  else .next s

/-- Has the time of the armed wake come (R633)? In NAP and HIBERNATE it comes on a SLOW edge while the time base stands. -/
def State.armedNow (s : State) : Bool := !s.awake && (s.power.armed.any (fun t => decide (t ≤ s.now) || !s.tongsClock))

/-- ARMED_WAKE: the wake that the planner armed fires, once. -/
def execArmedWake (s : State) : Host.Outcome State Fault Refusal :=
  .next (if s.armedNow then (s.wake Reg.PWR_WAKESRC_ARMED 1).modPower (fun p => { p with armed := none }) else s)

/-- A nudge or a BAR access wakes the device and clears FORCE (R628, R636); the access waits for the wake. -/
def State.hostWake (s : State) (a : HeldAccess) : State :=
  ((s.wake Reg.PWR_WAKESRC_PCIE 1).set Reg.PWR_CTRL_FORCE 0).modPower (fun p => { p with held := p.held ++ [a] })

/-! ## Wake (R376, R552, R624 to R626, R638) -/

/-- The time base and the timers are carried over `slow` SLOW periods. `time.prev` stays: the time added at a wake counts as reached in the
TIME cycle in progress, so that a WAITT evaluated before the next edge takes the path of R236: DESIGN CHOICE, log entries 46 and 94. -/
def State.carryTime (s : State) (slow : Nat) : State :=
  let s := (s.addTb (slow * 1953125 * 2 ^ 22 : Nat)).set Reg.TIME_STAT_COARSE 1
  let s := s.record 0x0704 0xFF (slow * 1953125 / 64)
  s.onOneEdge (fun s => s.each 16 (fun n t => t.tmrCatchUp n slow))

/-- Every tick start that the time base has passed counts as a tick without work. -/
def State.passTicks (s : State) : State :=
  match s.nextTick with
  | none => s
  | some t =>
    if s.now < t ∨ s.tp = 0 ∨ !s.running then s
    else
      let n := (s.now - t) / s.tp + 1
      let start := t + (n - 1) * s.tp
      let s := s.setWord64 Reg.HRT_TICK_LO Reg.HRT_TICK_HI (BitVec.ofNat 64 (s.tick + n))
      let s := s.setWord64 Reg.HRT_TSTART_LO Reg.HRT_TSTART_HI (BitVec.ofNat 64 start)
      { s with hearth := { s.hearth with nominal := start, lengthen := 0, taken := false, edge := none } }

/-- The Hoard banks after HIBERNATE. -/
def State.banksWake (s : State) : State :=
  s.each 32 (fun b t =>
    let dst := t.bankTgt b
    let t := if t.bankCur b = curOff ∨ dst = 2 then t.zeroBank b else t
    if !t.bankMapped b then t else if dst = 0 then t.bankOn b else t.set (Reg.HRD_BANK_CUR b) (if dst = 1 then curRet else curOff))

/-- Back in RUN: stalled instructions are evaluated again, and pending events enter late (R224, R629). DEDUCED, log entry 46. -/
def State.enginesWake (s : State) : State :=
  let s := { s with eng := s.eng.map (fun (g : Eng) => { g with cur := g.cur.map Run.preempt }) }
  s.each 16 (fun e t => (t.activate e 0).go e)

/-- The device is back in RUN; what the host has asked for meanwhile follows. -/
def State.wakeUp (s : State) (slow : Nat) : State :=
  let st := s.get Reg.PWR_STAT_STATE
  let s := (s.set Reg.PWR_STAT_STATE 0).modPower (fun p => { p with waking := false, armed := none })
  let s := if 2 ≤ st then (s.carryTime slow).passTicks else s
  let s := if 2 ≤ st ∧ s.on Reg.PWR_WDTCFG_EN ∧ s.on Reg.PWR_WDTCFG_SLP then s.wdtPass (slow / 32) else s
  let s := if st = 3 then s.banksWake.chainReset else s
  s.refreshLsw.enginesWake

/-! ## The idle service (R98) -/

/-- Is CMD work that the idle service found still open (R98)? -/
def State.cmdOpen (s : State) : Bool :=
  (List.range 64).any (fun n => s.get (Reg.RING_CFG_KIND n) == 2 && s.consumes n
    && (decide (0 < (s.ring n).fetching) || (s.ring n).q.any (fun d => !d.written)))

/-- The writes of R97 while no tick runs, once the CMD work that the doorbell read found is done, or at the latest with the next poll; and
the doze planner. DESIGN CHOICE, log entry 75. -/
def State.idleService (s : State) : State :=
  (State.settleHost s { s with hif := { s.hif with idleDue := false } }).planLast

/-- IDLE_DOORBELL_POLL: the 100 us service of stopped ticks: a doorbell read, the writes of R97, the planner. DEDUCED, log entry 34. DESIGN CHOICE, log entry 43. -/
def execIdleDoorbellPoll (s : State) : Host.Outcome State Fault Refusal :=
  if s.running || !s.awake || !s.on Reg.PWR_STAT_READY then .next s
  else
    let s := (if s.hif.idleDue then s.idleService else s).activateRings.doorbellRead
    .next (if s.on Reg.RING_GCTRL_DBEN then s else s.idleService)

end Sys2Proof.Machine
end

