-- ==== Sys2Proof/Machine/Hearth.lean ====
section
/-!
DEFINITION. The Hearth (02): starting and stopping the tick, the tick sources, and the starts of Gather, Compute and Settle.
-/

namespace Sys2Proof.Machine

def State.modHearth (s : State) (f : Hearth → Hearth) : State := { s with hearth := f s.hearth }

/-! ## Starting and stopping (R35, R36, R62, R63, R312, R736) -/

/-- The code of the first failed limit of R35, in table order; 0 none. -/
def State.limitCode (s : State) : Nat :=
  let p := s.get Reg.HRT_PERIOD_PERIOD
  let b1 := s.get Reg.HRT_B1_B
  let b2 := s.get Reg.HRT_B2_B
  let b3 := s.get Reg.HRT_B3_B
  let o1 := s.boundary 1
  let o2 := s.boundary 2
  let o3 := s.boundary 3
  let src := s.get Reg.HRT_CTRL_SRC
  if p < 2500 ∨ 6553600 < p then 1
  else if !(decide (1 ≤ b1 ∧ b1 < b2 ∧ b2 < b3 ∧ b3 ≤ 1023)) then 2
  else if o1 < 4000 then 3
  else if s.tp - o3 < 8000 ∨ (s.tp - o3) * 10 < s.tp then 4
  else if o2 - o1 < 2000 ∨ o3 - o2 < 2000 then 5
  else if src = 2 ∧ 100000000 % p ≠ 0 then 6
  else if src = 1 ∧ s.tp < s.get Reg.HRT_SYNCWIN_WIN * 4 then 9
  else 0

/-- The code of the first failed start check (R36); 0 none. Every admitted slot is checked, a FAILED one too, which keeps its claims
(R292, R312). DESIGN CHOICE, log entry 85. -/
def State.startCode (s : State) : Nat :=
  let p := s.get Reg.HRT_PERIOD_PERIOD
  let loaded := ((List.range 3).map s.slot).filter (fun (x : Slot) => x.admitted)
  if s.limitCode ≠ 0 then s.limitCode
  else if loaded.any (fun x => !s.admits x.budget) then 7
  else if s.follows && s.chain.mgrTp.any (fun m => m != p) then 8
  else if loaded.any (fun x => decide (p < x.mintick)) then 10
  else 0

/-- RUN is written to 1 while no tick runs and none is to start: `nominal` is the start of the first tick, under SRC 1 the end of the
wait for its edge (R737). DEDUCED, log entry 47. -/
def State.tickRunStart (s : State) : State :=
  let c := s.startCode
  if c ≠ 0 then ((s.set Reg.HRT_CTRL_RUN 0).set Reg.HRT_STAT_CFGERR 1).set Reg.HRT_STAT_CFGCODE c
  else
    let src := s.get Reg.HRT_CTRL_SRC
    let first := if src = 1 then s.now + 16 * s.tp else if src = 2 then s.nextMultiple else s.now + 2000
    ((s.set Reg.HRT_CTRL_RUN 1).set Reg.HRT_STAT_CFGCODE 0).swgRunStart.modHearth (fun _ => { Hearth.zero with armed := true, nominal := first })

/-- RUN is written to 0: the tick in progress runs to its end, or the start is cancelled. -/
def State.tickRunStop (s : State) : State :=
  let s := s.set Reg.HRT_CTRL_RUN 0
  if s.running then s.modHearth (fun h => { h with stopping := true }) else s.modHearth (fun h => { h with armed := false })

/-- HRT_CTRL is written. -/
def State.writeHrtCtrl (s : State) (w : Who) (v : W32) : State :=
  let was := s.on Reg.HRT_CTRL_RUN
  let s := s.writeFields w Reg.HRT_CTRL v (fun _ => false)
  if fieldGet v 0 1 = 0 then s.tickRunStop
  else if s.running then s.setB Reg.HRT_CTRL_RUN was
  else if s.hearth.armed then s
  else s.tickRunStart

/-- HRT_CTRL is written with RUN 1. DESIGN CHOICE, log entry 58. -/
def execTickRunStart (w : Who) (v : BitVec 32) (s : State) : Host.Outcome State Fault Refusal := .next (s.writeHrtCtrl w (v ||| 1))

/-- HRT_CTRL is written with RUN 0. -/
def execTickRunStop (w : Who) (v : BitVec 32) (s : State) : Host.Outcome State Fault Refusal :=
  .next (s.writeHrtCtrl w (v &&& 0xFFFFFFFE))

/-! ## Tick starts (R22, R38 to R45, R51, R61) -/

/-- Does the TIME domain run (R622)? -/
def State.timeRuns (s : State) : Bool := decide (s.get Reg.PWR_STAT_STATE < 2) && s.power.reset.isNone

/-- A tick of number `num` and nominal start `nominal` starts: the Hearth's own state. A tick that the grid has moved away from is
lengthened to it (R41). The window of the first tick start on the realigned grid, half of which has passed by then, is judged, so that SYNCMISS
can count (R40): DESIGN CHOICE, log entry 94. DEDUCED, log entry 47. -/
def State.hearthTick (s : State) (num nominal : Nat) (taken : Bool) : State :=
  let h := s.hearth
  let sync := if s.follows then s.chain.sync0.filter (fun x => decide (s.tick ≤ x.1)) else none
  let grid := (sync.map (fun x => x.2)).getD h.grid
  let regrid := h.regrid || (sync.isSome && h.free)
  let l := if regrid then (grid % s.tp + s.tp - nominal % s.tp) % s.tp else 0
  let back := (!regrid && h.lengthen != 0) || (regrid && l == 0)
  let s := if l = 0 then s else s.set Reg.HRT_STAT_REALIGN 1
  let s := (s.setWord64 Reg.HRT_TICK_LO Reg.HRT_TICK_HI (BitVec.ofNat 64 num)).setWord64 Reg.HRT_TSTART_LO Reg.HRT_TSTART_HI (BitVec.ofNat 64 s.now)
  let s := (s.set Reg.HRT_STAT_RUNNING 1).set Reg.HRT_STAT_PHASE 0
  s.modHearth (fun h => { h with
    armed := false, nominal := nominal, lengthen := l, regrid := false, grid := grid, edge := none, taken := taken,
    missed := if sync.isSome then 1 else h.missed + 1, free := h.free && !back, syncOut := s.on Reg.HRT_CTRL_SOE })

/-- Round-robin pointers advance (R22): of the ring DMA engine (R96), the Ingot (R565), the Hoard's banks (R243) and the port
buffers (R249); those of the Chain's outputs advance with the other parts of its new tick (R413). -/
def State.advancePointers (s : State) : State :=
  ((s.set Reg.RING_PTR_PTR (s.get Reg.RING_PTR_PTR + 1)).modIng (fun g => { g with rr := (g.rr + 1) % 3 })).modHoard
    (fun h => { h with rr := (h.rr + 1) % 27, rrBuf := (h.rrBuf + 1) % 28 })

/-- The counts that begin anew with a tick: charged activations, and the runs of overruns that this tick's predecessor ended. -/
def Eng.newTick (g : Eng) : Eng :=
  { g with charged := [], overNow := [], overruns := g.overruns.filter (fun p => g.overNow.contains p.1) }

/-- Inputs are latched (R45, R464, R514, R516, R548). -/
def State.latchInputs (s : State) : State :=
  let s := s.each 12 (fun c t => (t.set (Reg.LSW_CH_CUR_TICK c) (t.get (Reg.LSW_CH_CUR_NOW c))).modChan c (fun x => { x with
    latch := t.word (Reg.LSW_CH_STAT c) }))
  let s := s.each 8 (fun a t => t.set (Reg.LSW_AIN_DATA_LATCH a) (t.get (Reg.LSW_AIN_DATA_CODE a)))
  let s := { s with tongs := s.tongs.map (fun (x : Tongs) => { x with txLatch := x.tx.length, rxLatch := x.rx.length }) }
  s.latchSwage.tickCaptures

/-- The work of a Gather start, once the Hearth has begun the tick. -/
def State.gather (s : State) : State :=
  let s := { s.advancePointers with eng := s.eng.map Eng.newTick }
  s.onOneEdge (fun s =>
  let s := s.latchInputs.activateRings.doorbellRead
  let s := (s.releaseRx.handover true).chainTick.portsTick.checkResumes
  let s := (s.handover false).videoGather.prsGather
  s.registerAll 14) |>.each 16 (fun e t => (t.activate e 0).go e)

/-- The tick number of a start at `nominal` (02, Tick sources). -/
def State.tickNumber (s : State) (nominal : Nat) : Nat :=
  if s.get Reg.HRT_CTRL_SRC = 2 then nominal / s.tp
  else match if s.follows then s.chain.sync0 else none with
    | some (n, t) => if s.tick ≤ n ∧ t ≤ nominal then n + (nominal - t + s.tp / 2) / s.tp else s.tick + 1
    | none => s.tick + 1

/-- The start of tick 0 or of the first tick (R438, R736, R737): by the edge under SRC 1, at T0 under SRC 0, at a multiple of TP under
SRC 2, one TP after the manager's latest SYNC under SRC 3, once no step of the time base is pending or refused. T0 and the edge time e are taken
in whole ns, without the time base's fraction: DESIGN CHOICE, log entry 94. -/
def execFirstTickStart (s : State) : Host.Outcome State Fault Refusal :=
  if !(s.hearth.armed && s.timeRuns && s.reached s.firstAt) then .next s
  else
    let src := s.get Reg.HRT_CTRL_SRC
    if src = 1 then
      match s.hearth.edge with
      | none => .next s
      | some e => .next (s.hearthTick 0 (e + 48) true).gather
    else if src = 2 then .next (s.hearthTick (s.now / s.tp) (s.now / s.tp * s.tp) false).gather
    else if s.follows then
      match s.chain.sync0 with
      | none => .next s
      | some (n, t) =>
        let k := (s.now - t) / s.tp
        .next (s.hearthTick (n + k) (t + k * s.tp) false).gather
    else .next ((s.modHearth (fun h => { h with grid := s.now })).hearthTick 0 s.now false).gather

/-- No edge has come within 16 TP: tick 0 starts free-running (R737). -/
def execFirstEdgeTimeout (s : State) : Host.Outcome State Fault Refusal :=
  if s.hearth.armed && s.timeRuns && s.get Reg.HRT_CTRL_SRC == 1 && s.hearth.edge.isNone && s.reached (some s.hearth.nominal) then
    .next (((s.set Reg.HRT_STAT_SRCLOSS 1).modHearth (fun h => { h with free := true })).hearthTick 0 s.now true).gather
  else .next s

/-- The tick has run to its end and none follows (R62): what waits for a tick acts as it does while no tick runs. -/
def State.stopTicks (s : State) : State :=
  let s := ((s.set Reg.HRT_STAT_RUNNING 0).set Reg.HRT_STAT_PHASE 0).modHearth (fun _ => Hearth.zero)
  let s := (s.set Reg.HRT_CTRL_RUN 0).commitLsw
  let s := s.each 3 (fun n t => t.modSlot n (fun x => { x with after := none }))
  let s := (s.each 3 (fun n t => t.tryUnload true n)).each 6 (fun p t => (if (t.port p).commitAt.isSome then t.swapGates p else t).select p)
  s.each 16 (fun e t => if (t.engN e).haltReq && !(t.engN e).inAccess then t.haltNow e else t)

/-- Is the next tick start due (R38)? -/
def State.tickDue (s : State) : Bool := s.running && s.phase == 3 && s.timeRuns && s.reached (some s.tickAt)

/-- Settle ends: the next tick starts, or a stop takes effect. DEDUCED, log entry 47. -/
def State.tickStart (s : State) : State :=
  if s.hearth.stopping then s.settleEnd.stopTicks
  else match s.hearth.edge with
    | some e => (s.settleEnd.hearthTick (s.tick + 1) (e + 48) true).gather
    | none =>
      let n := s.tickAt
      let s := s.settleEnd
      (s.hearthTick (s.tickNumber n) n false).gather

def execTickStart (s : State) : Host.Outcome State Fault Refusal := .next (if s.tickDue then s.tickStart else s)

/-- SYNC_OUT falls 1 us after the tick start (R43). -/
def execSyncOutEnd (s : State) : Host.Outcome State Fault Refusal :=
  .next (if s.hearth.nominal + 1000 ≤ s.now then s.modHearth (fun h => { h with syncOut := false }) else s)

/-! ## SYNC_IN (R39, R40, R64, R737) -/

/-- An edge at `e` in a running tick with windows. -/
def State.syncEdge (s : State) (e : Nat) : State :=
  let h := s.hearth
  let win := s.get Reg.HRT_SYNCWIN_WIN
  let next := h.nominal + s.tp + h.lengthen
  if !h.taken ∧ h.nominal ≤ e ∧ e ≤ h.nominal + win then s.modHearth (fun h => { h with taken := true, lengthen := e + 48 - h.nominal })
  else if h.edge.isNone ∧ next ≤ e + win ∧ e ≤ next ∧ h.nominal * 2 + s.tp ≤ (e + 48) * 2 ∧ h.nominal + s.boundary 3 + s.settleMin ≤ e + 48 then
    s.modHearth (fun h => { h with edge := some e })
  else s.count Reg.HRT_SRCCNT_SYNCOOW 1

/-- An edge in a running tick: it brings a lost source back (R40), or is judged by the windows. -/
def State.edgeIn (s : State) : State :=
  let s := s.modHearth (fun h => { h with missed := 0 })
  let h := s.hearth
  if h.free then
    if h.regrid ∨ h.lengthen ≠ 0 then s else s.regrid.modHearth (fun h => { h with grid := s.now + 48 })
  else s.syncEdge s.now

/-- A SYNC_IN rising edge, at the time base as it stands, in whole ns: DESIGN CHOICE, log entry 94. Between the first edge and tick 0, 48 ns
later, further edges are ignored and not counted (R737): DESIGN CHOICE, log entry 94. An edge behind a tick start that is due and has not come
yet is judged in that tick (R39). DEDUCED, log entry 47. -/
def execSyncInEdge (s : State) : Host.Outcome State Fault Refusal :=
  if s.get Reg.HRT_CTRL_SRC ≠ 1 ∨ !s.timeRuns then .next s
  else if s.hearth.armed then .next (s.modHearth (fun h => { h with edge := some (h.edge.getD s.now) }))
  else if !s.running then .next s
  else if s.tickDue && decide (s.tickAt < s.now) then .next (let t := s.tickStart; if t.running then t.edgeIn else t)
  else .next s.edgeIn

/-- The window of the current nominal start closes without an accepted edge (R39, R40). -/
def execSyncWindowEnd (s : State) : Host.Outcome State Fault Refusal :=
  if s.running && s.get Reg.HRT_CTRL_SRC == 1 && !s.hearth.free && !s.hearth.taken && decide (s.hearth.nominal + s.get Reg.HRT_SYNCWIN_WIN < s.now) then
    .next ((s.count Reg.HRT_SRCCNT_SYNCMISS 1).modHearth (fun h => { h with taken := true }))
  else .next s

/-- Sixteen ticks have passed without an edge, or without the manager's SYNC (R40). -/
def execSourceLoss (s : State) : Host.Outcome State Fault Refusal :=
  if s.running && (s.get Reg.HRT_CTRL_SRC == 1 || s.follows) && decide (17 ≤ s.hearth.missed) && !s.hearth.free then
    .next ((s.set Reg.HRT_STAT_SRCLOSS 1).modHearth (fun h => { h with free := true }))
  else .next s

/-! ## Compute, Settle and budgets (R46, R49, R187, R189, R228, R630) -/

/-- The slots of an engine's phase tasks, ascending. -/
def Eng.phaseSlots (g : Eng) : List Nat := (List.range 32).filter (fun n => g.tasks.any (fun t => t.slot == n && t.kind == .phase))

/-- One engine at the start of Compute: phase tasks of an engine that is halted or in ENGINE reset are skipped. -/
def State.computeEngine (s : State) (e : Nat) : State :=
  let g := s.engN e
  if g.inReset ∨ g.halted then
    if s.slotState (s.engOwner e) = slotRunning then
      (s.modEng e (fun g => { g with resend := g.phaseSlots ++ g.resend.filter (fun n => !g.phaseSlots.contains n) })).count
        (Reg.ENG_SKIP_COUNT e) g.phaseSlots.length
    else s
  else (s.modEng e (fun g => { g with holdOff := false, todo := g.phaseSlots })).go e

def execComputeStart (s : State) : Host.Outcome State Fault Refusal :=
  if !(s.running && s.phase == 0 && s.timeRuns && s.reached (s.boundaryAt 1)) then .next s
  else .next ((((s.deliverRx.set Reg.HRT_STAT_PHASE 1).prsCompute).each 16 (fun e t => t.computeEngine e)).swgTick.registerAll 15)

/-- The Settle work of R630, in its order: minimum slack in ps and Tj in °C for Bellows, and the bytes that FINAL has still to copy. DEDUCED, log entry 37. -/
def execSettleStart (slack tj : BitVec 16) (dirty : BitVec 20) (s : State) : Host.Outcome State Fault Refusal :=
  if !(s.running && s.phase == 2 && s.timeRuns && s.reached (s.boundaryAt 3)) then .next s
  else
    let s := s.set Reg.HRT_STAT_PHASE 3
    let t := (s.applySteps.bellowsEval slack tj).settleBanks.migSwitch
    let t := ((t.subSettle dirty.toNat).chainSettle).each 3 (fun n u => u.tryUnload true n)
    let t := (State.settleHost s t).migCopy.scrub.placement
    .next (t.registerAll 17).planLast

/-- The current task of engine e has used up its budget (R48, R49). -/
def execTaskBudgetExpiry (e : Fin 16) (s : State) : Host.Outcome State Fault Refusal :=
  .next (if s.spent e then s.overrun e else s)

/-! ## Event inputs (R169, R174, R177) -/

/-- The inputs of a mask register on one TIME edge at engine e. -/
def execEventInput (e : Fin 16) (m : BitVec 64) (s : State) : Host.Outcome State Fault Refusal := .next (s.register e m)

/-- Edge E + DLY: the prepared handler's first instruction issues from here. -/
def execAlignedEntry (e : Fin 16) (s : State) : Host.Outcome State Fault Refusal :=
  .next (s.modRun e (fun r => match r.stall with
    | .aligned 0 => { r with stall := .none, entry := some (BitVec.ofNat 64 s.now) }
    | _ => r))

end Sys2Proof.Machine
end

