-- ==== Sys2Proof/Machine/Setup.lean ====
section
/-!
DEFINITION. The set-up space (R4 to R7, R27, R30, R31, R136 to R141): what a write to each register does and what a read of it
returns. Whatever writes or reads a set-up register by its offset comes here.
-/

namespace Sys2Proof.Machine

/-! ## Writes -/

/-- The register's fields take the word by their access codes. -/
def State.plain (s : State) (w : Who) (key : Nat) (v : W32) : State := s.writeFields w key v (fun _ => false)

/-- The highest word of a wide register is written: the whole value takes effect (R31). A lock is reported once, at this word. -/
def State.writeWide (s : State) (w : Who) (lo hi : Nat) (v : W32) : State :=
  let p := s.takeHeld lo
  let s := p.2
  let s := match RegMap.find lo with
    | none => s
    | some d => s.setWord lo (d.fields.foldl (writeField (s.locked hi) (fun _ => false) p.1) (s.word lo, false)).1
  s.plain w hi v

/-- DEV block. -/
def State.writeDev (s : State) (w : Who) (key : Nat) (v : W32) : State :=
  if key = Reg.DEV_CTRL then s.writeDevCtrl v
  else if key = Reg.DEV_NUDGE then s.doorbellRead
  else if 0x100 ≤ key ∧ key < 0x200 then (if key % 8 = 4 then s.writeWide w (key - 4) key v else s.hold key v)
  else s.plain w key v

/-- RING_n_CTRL is written (R116, R121). BURST takes the written value also where the write's EN 1 is ignored. DESIGN CHOICE, log entry 86. -/
def State.writeRingCtrl (s : State) (n : Nat) (v : W32) : State :=
  let s := s.set (Reg.RING_CTRL_BURST n) (fieldGet v 8 8)
  let s := if fieldGet v 0 1 = 1 then s.enableRing n else s.disableRing n
  if fieldGet v 1 1 = 1 then s.flushCmd n else s

/-- RING block. -/
def State.writeRing1 (s : State) (w : Who) (key : Nat) (v : W32) : State :=
  if (0x2008 ≤ key ∧ key < 0x2018) ∨ (0x2800 ≤ key ∧ key % 0x20 < 0x10) then
    (if key % 8 = 4 then s.writeWide w (key - 4) key v else s.hold key v)
  else if 0x2800 ≤ key ∧ key % 0x20 = 0x14 then s.writeRingCtrl ((key - 0x2800) / 0x20) v
  else if 0x2800 ≤ key ∧ key % 0x20 = 0x18 then (s.plain w key v).modRing ((key - 0x2800) / 0x20) (fun r => { r with restarted := r.restarted || !s.locked key })
  else s.plain w key v

/-- ENG_n_CTRL: RST by the owning personality's firmware (R186). -/
def State.writeEngCtrl (s : State) (w : Who) (n : Nat) (v : W32) : State :=
  if fieldGet v 0 1 = 1 ∧ (whoEngine w).isSome ∧ s.whoSlot w = s.engOwner n ∧ s.engOwner n ≠ 3 then s.resetEng n else s

/-- May the initiator write ENG_n_DBG (06, Debug halt; R697 to R699)? -/
def State.mayDebug (s : State) (w : Who) (n : Nat) : Bool :=
  let open1 := s.get Reg.DBGU_CTL_UNLOCKED / (if s.on (Reg.ENG_CFG_SECURE n) then 2 else 1) % 2 == 1
  match w with
  | .jtag => !s.on Reg.KEY_STAT_ROOTSET || open1
  | .pf1 => open1
  | _ => false

/-- HALT is written to 1 (R188). DEDUCED, log entry 49. -/
def State.haltWrite (s : State) (n : Nat) : State :=
  let g := s.engN n
  if g.halted then s.set (Reg.ENG_DBG_HALT n) 1
  else if !s.running then
    let s := s.set (Reg.ENG_DBG_HALT n) 1
    if g.inAccess then s.modEng n (fun g => { g with haltReq := true }) else s.haltNow n
  else if g.strike then (s.set (Reg.ENG_DBG_HALT n) 0).set (Reg.ENG_DBG_REFUSED n) 1
  else if g.cur.isNone && g.pre.isNone then (s.set (Reg.ENG_DBG_HALT n) 1).haltNow n
  else (s.set (Reg.ENG_DBG_HALT n) 1).modEng n (fun g => { g with haltReq := true })

/-- HALT is written to 0: the engine goes on. -/
def State.resumeWrite (s : State) (n : Nat) : State :=
  let s := (s.set (Reg.ENG_DBG_HALT n) 0).set (Reg.ENG_DBG_HALTED n) 0
  ((s.modEng n (fun g => { g with halted := false, haltReq := false })).activate n 0).go n

/-- ENG_n_DBG without STEP, whose instruction is the command DEBUG_STEP's. While FINAL or SWITCH is in progress a halt waits for
SWITCH (R616). DEDUCED, log entry 49. -/
def State.writeEngDbg (s : State) (w : Who) (n : Nat) (v : W32) : State :=
  if !s.mayDebug w n then s
  else
    let s := if fieldGet v 3 1 = 1 then s.set (Reg.ENG_DBG_REFUSED n) 0 else s
    let st := s.get Reg.TMP_SUBSTAT_STATE
    if fieldGet v 0 1 = 0 then s.resumeWrite n
    else if (st = 2 ∨ st = 3) ∧ s.get Reg.TMP_SUBSTAT_ENGINE = n then
      (s.set (Reg.ENG_DBG_HALT n) 1).modEng n (fun g => { g with haltReq := true })
    else s.haltWrite n

/-- ENG block. -/
def State.writeEng (s : State) (w : Who) (key : Nat) (v : W32) : State :=
  let n := (key - 0x3100) / 0x40
  if key = Reg.ENG_ENTRYDLY then
    let s := s.plain w key v
    let d := s.get Reg.ENG_ENTRYDLY_DLY
    s.setB Reg.ENG_GSTAT_DLYCLAMP (decide (d < 8 ∨ 64 < d))
  else if key < 0x3100 ∨ 0x3500 ≤ key then s.plain w key v
  else if key % 0x40 = 0 then s.writeEngCtrl w n v
  else if key % 0x40 = 0x34 then s.writeEngDbg w n v
  else s.plain w key v

/-- HRD block. -/
def State.writeHrd (s : State) (w : Who) (key : Nat) (v : W32) : State :=
  if key = Reg.HRD_MIG then s.writeMig w v
  else if key = Reg.HRD_PCTL then (if fieldGet v 0 1 = 1 then s.partApply else s)
  else if 0x4100 ≤ key ∧ key < 0x4180 then s.writeTgt ((key - 0x4100) / 4) (fieldGet v 0 2)
  else s.plain w key v

/-- A register of port `p`. On a port that a personality owns, the class-7 allowance is the BIND entry's (R324). DEDUCED, log entry 49. -/
def State.writePort (s : State) (w : Who) (key p : Nat) (v : W32) : State :=
  let o := (key - 0x6100) % 0x200
  let s := if o = 0x28 then s.writeGctl p v
    else if (o = 0x0C ∨ o = 0x10) ∧ s.portOwner p ≠ 3 then s
    else if o = 0x24 then (s.plain w key v).preUpdate p
    else if o = 0x18 ∨ o = 0x1C then (s.plain w key v).pauseCheck p
    else if o = 0x2C ∨ o = 0x30 then ((s.credits p).plain w key v).credits p
    else s.plain w key v
  (s.checkVoid p).select p

/-- PORT block. -/
def State.writePorts (s : State) (w : Who) (key : Nat) (v : W32) : State :=
  if 0x6100 ≤ key ∧ key < 0x6D00 then s.writePort w key ((key - 0x6100) / 0x200) v
  else if 0x6E00 ≤ key ∧ key < 0x6E40 then
    let c := (key - 0x6E00) / 0x20
    let s := s.plain w key v
    let s := if key % 0x20 = 0 ∧ fieldGet v 3 1 = 1 then s.canRecover c else s
    s.canSelect c
  else if 0x6D00 ≤ key ∧ key < 0x6D80 ∧ key % 0x10 = 0 then
    -- the first packet after EN is set gives the expected sequence number (R346)
    let n := (key - 0x6D00) / 0x10
    let t := s.plain w key v
    if !s.on (Reg.PORT_VID_CFG_EN n) && t.on (Reg.PORT_VID_CFG_EN n) then t.modVid n (fun x => { x with expect := none }) else t
  else s.plain w key v

/-- TIME block. -/
def State.writeTime (s : State) (w : Who) (key : Nat) (v : W32) : State :=
  if key = Reg.TIME_ADDEND then s.writeAddend w v
  else if key = Reg.TIME_SLEW then s.writeSlew w v
  else if key = Reg.TIME_STEP_LO then s.writeStepLo w v
  else if key = Reg.TIME_STEP_HI then s.writeStepHi w v
  else if key = Reg.TIME_STEPC then s.writeStepc w v
  else if key = Reg.TIME_JUMPLIM then (s.plain w key v).clampJumplim
  else s.plain w key v

/-- CHN block. -/
def State.writeChn (s : State) (w : Who) (key : Nat) (v : W32) : State :=
  if key = Reg.CHN_CFG ∨ (0x8040 ≤ key ∧ key < 0x8080 ∧ key % 0x10 = 0) then (s.plain w key v).chainEnables
  else if key = Reg.CHN_RUNCTL then s.writeRunctl v
  else if key = Reg.CHN_MCTL then s.writeMctl v
  else s.plain w key v

/-- SWG block. -/
def State.writeSwg (s : State) (w : Who) (key : Nat) (v : W32) : State :=
  let l := (key - 0x9100) / 0x80
  if 0x9100 ≤ key ∧ key < 0x9900 ∧ key % 0x80 = 0 then s.writeSwgCtrl l v
  else if 0x9100 ≤ key ∧ key < 0x9900 ∧ key % 0x80 = 0x18 then s.swgBand w l v
  else s.plain w key v

/-- LSW_CH_c_CLR (R504, R505): whether the sensor stands at 150 °C or above, the model does not know (DESIGN CHOICE, log entry 48). -/
def State.writeClr (s : State) (c : Nat) (v : W32) : State :=
  let s := if fieldGet v 0 1 = 1 then s.clearLatch (Reg.LSW_CH_STAT_OCL c) c else s
  if fieldGet v 1 1 = 1 then s.clearOtl c else s

/-- LSW block. -/
def State.writeLswReg (s : State) (w : Who) (key : Nat) (v : W32) : State :=
  if 0xA100 ≤ key ∧ key < 0xA280 then
    (if key % 0x20 = 0x10 then s.writeClr ((key - 0xA100) / 0x20) v else s.writeLsw w key v)
  else if 0xA300 ≤ key ∧ key < 0xA360 ∧ key % 0x10 = 0 then s.writeHb w ((key - 0xA300) / 0x10) v
  else s.plain w key v

/-- TNG_PIO_FSEL_i: a pin that a personality owns keeps its field against the host, and the write is reported (R526). -/
def State.writeFsel (s : State) (w : Who) (key : Nat) (v : W32) : State :=
  let i := (key - 0xB020) / 4
  let keep := fun (f : FldDef) => s.foreign w (s.pinOwner (4 * i + f.lo / 8))
  let t := if (List.range 4).any (fun j => s.foreign w (s.pinOwner (4 * i + j))) then s.accessFault w key 2 else s
  t.writeFields w key v keep

/-- TNG and timer registers. -/
def State.writeTng (s : State) (w : Who) (key : Nat) (v : W32) : State :=
  let t := (key - 0xB100) / 0x20
  let n := (key - 0xB800) / 0x80
  if 0xB020 ≤ key ∧ key < 0xB040 then s.writeFsel w key v
  else if key = Reg.TNG_PEND_CFG then s.writePend w v
  else if 0xB100 ≤ key ∧ key < 0xB200 ∧ key % 0x20 = 0 then s.writeTngCtrl t v
  else if 0xB100 ≤ key ∧ key < 0xB200 ∧ key % 0x20 = 0x10 then s.txfWrite t v
  else if 0xB800 ≤ key ∧ key % 0x80 = 0 then s.writeTmrCtrl n v
  else if 0xB800 ≤ key ∧ (key % 0x80 = 0x18 ∨ 0x40 ≤ key % 0x80 ∧ key % 0x80 < 0x60 ∧ key % 8 = 0) then s.hold key v
  else if 0xB800 ≤ key ∧ (key % 0x80 = 0x1C ∨ 0x40 ≤ key % 0x80 ∧ key % 0x80 < 0x60) then s.writeWide w (key - 4) key v
  else s.plain w key v

/-- ING block; bits 31:28 of ING_WP_3 stay 1. -/
def State.writeIng (s : State) (w : Who) (key : Nat) (v : W32) : State :=
  if key = Reg.ING_CTRL then
    let s := s.plain w key v
    let s := if fieldGet v 1 1 = 1 then s.writeSusp else s
    if fieldGet v 2 1 = 1 then s.writeResume else s
  else if key = Reg.ING_CMD then s.writeIngCmd v
  else if key = Reg.ING_WP 3 then s.plain w key (v ||| 0xF0000000)
  else s.plain w key v

/-- TMP block. -/
def State.writeTmp (s : State) (w : Who) (key : Nat) (v : W32) : State :=
  let l := (key - 0xD100) / 0x10
  let eq := decide (0xD100 ≤ key ∧ key < 0xD160)
  if eq && key % 0x10 == 0 then
    (s.set (Reg.TMP_EQ_CFG_MARGMIN l) (fieldGet v 8 8)).writeEqCfg l v
  else if eq && key % 0x10 == 4 then s.setWord key (eqCode v)
  else if eq && key % 0x10 == 0xC then s.setWord key (eqTap v)
  else if key = Reg.TMP_THRCTL then s.writeThrctl v
  else if key = Reg.TMP_SUBCTL then s.writeSubctl v
  else s.plain w key v

/-- PWR_QCTL (R665, R668, R669): SET fires source 0; CLEAR is the host's, and gives way to SET. -/
def State.writeQctl (s : State) (w : Who) (v : W32) : State :=
  if fieldGet v 0 1 = 1 then s.quench 0 false
  else if fieldGet v 1 1 = 1 ∧ isHost w ∧ s.on Reg.PWR_QSTAT_ACTIVE ∧ !s.quenchHeld then s.quenchRelease
  else s

/-- PWR_SAFE_i: a write that names a port the writer does not own is handled as in R27 (R667). -/
def State.writeSafe (s : State) (w : Who) (key : Nat) (v : W32) : State :=
  let i := (key - 0xE4C0) / 8
  let port := if key % 8 = 4 then fieldGet v 20 3 else s.get (Reg.PWR_SAFE_CTL_PORT i)
  let foreign := fun (p : Nat) => p < 6 && s.portOwner p != s.whoSlot w
  if (if key % 8 = 4 then foreign port || (s.on (Reg.PWR_SAFE_CTL_V i) && foreign (s.get (Reg.PWR_SAFE_CTL_PORT i)))
      else s.on (Reg.PWR_SAFE_CTL_V i) && foreign port) then s.accessFault w key 2
  else s.plain w key v

/-- PWR_WDTCFG: the watchdog starts with its full count (R640). -/
def State.writeWdtcfg (s : State) (w : Who) (v : W32) : State :=
  let was := s.on Reg.PWR_WDTCFG_EN
  let s := s.plain w Reg.PWR_WDTCFG v
  if !was && s.on Reg.PWR_WDTCFG_EN then { s.set Reg.PWR_WDTREM_REMAIN (max 1 (s.get Reg.PWR_WDTCFG_TMO)) with power := { s.power with wdt := 0 } } else s

/-- PWR block. -/
def State.writePwr (s : State) (w : Who) (key : Nat) (v : W32) : State :=
  if key = Reg.PWR_HINT_LO then s.hold key v
  else if key = Reg.PWR_HINT_HI then s.writeWide w Reg.PWR_HINT_LO key v
  else if key = Reg.PWR_WDTCFG then s.writeWdtcfg w v
  else if key = Reg.PWR_WDTKICK then s.writeWdtkick v
  else if key = Reg.PWR_CHRST_GO then s.writeChrst v
  else if key = Reg.PWR_QCTL then s.writeQctl w v
  else if 0xE4C0 ≤ key ∧ key < 0xE500 then s.writeSafe w key v
  else s.plain w key v

/-- A mailbox channel's registers; channels 8 to 15 are the MBS channels. -/
def State.writeMbx (s : State) (w : Who) (key : Nat) (v : W32) : State :=
  let c := (key - 0xF000) / 0x100
  let o := key % 0x100
  if !s.mbxReach w c then s.mbxDeny w key true
  else if o = 0 then s.writeMbxCfg w c v
  else if o = 0x04 then s.writeMbxCtl w (2 * c) v
  else if o = 0x0C then s.writeMbxCtl w (2 * c + 1) v
  else if o = 0x08 then s.writeMbxStat w (2 * c) v
  else if o = 0x10 then s.writeMbxStat w (2 * c + 1) v
  else if 0x40 ≤ o ∧ o < 0x80 then s.writeMbxBuf w (2 * c) ((o - 0x40) / 4) v
  else if 0x80 ≤ o ∧ o < 0xC0 then s.writeMbxBuf w (2 * c + 1) ((o - 0x80) / 4) v
  else s

/-- The blocks that PF1 alone reaches: WDN, KEY, DBGU. -/
def State.writeSecure (s : State) (w : Who) (key : Nat) (v : W32) : State :=
  if key = Reg.WDN_PATCH_LEN then s.writePatchLen w v
  else if 0x10100 ≤ key ∧ key < 0x10180 then (if key % 8 = 4 then s.writeSecHi ((key - 0x10100) / 8) v else s.hold key v)
  else if key = Reg.KEY_CTL then s.writeKeyCtl v
  else if key = Reg.DBGU_CTL then s.writeDbguCtl v
  else if key = Reg.DBGU_RADDR then s.writeRaddr v
  else s.plain w key v

/-- The debug port writes ENG_n_DBG and ENG_n_DBGSEL within its scope, and nothing else (R727). -/
def State.writeJtag (s : State) (key : Nat) (v : W32) : State :=
  let n := (key - 0x3100) / 0x40
  if 0x3100 ≤ key ∧ key < 0x3500 ∧ key % 0x40 = 0x34 then s.writeEngDbg .jtag n v
  else if 0x3100 ≤ key ∧ key < 0x3500 ∧ key % 0x40 = 0x38 ∧ s.mayDebug .jtag n then s.plain .jtag key v
  else s

/-- A register of PF0's set-up space that R27 does not keep from the writer. -/
def State.writeBlock (s : State) (w : Who) (key : Nat) (v : W32) : State :=
  match key / 0x1000 with
  | 0 => s.writeDev w key v
  | 1 => if key = Reg.HRT_CTRL then s.writeHrtCtrl w v else s.plain w key v
  | 2 => s.writeRing1 w key v
  | 3 => s.writeEng w key v
  | 4 => s.writeHrd w key v
  | 6 => s.writePorts w key v
  | 7 => s.writeTime w key v
  | 8 => s.writeChn w key v
  | 9 => s.writeSwg w key v
  | 10 => s.writeLswReg w key v
  | 11 => s.writeTng w key v
  | 12 => s.writeIng w key v
  | 13 => s.writeTmp w key v
  | 14 => s.writePwr w key v
  | 15 => s.writeMbx w key v
  | _ => s.plain w key v

/-- A 32-bit write to an aligned set-up offset (PF0) or, from 0x1_0000 on, to PF1's blocks. An offset without a register takes nothing and is no
fault (R136). -/
def State.setupWrite (s : State) (w : Who) (key : Nat) (v : W32) : State :=
  if w = .jtag then s.writeJtag key v
  else if 0x10000 ≤ key then s.pf1Only w key (fun s => s.writeSecure w key v)
  else if key < 0xF000 ∧ (RegMap.find key).isNone then s
  else s.owned w key (fun s => (s.noteLoopWrite key).writeBlock w key v)

/-! ## Reads -/

/-- ENG_n_STAT.STATE. -/
def State.engState (s : State) (e : Nat) : Nat :=
  let g := s.engN e
  if s.engOwner e = 3 then 5
  else if g.inReset then 0
  else if g.halted then 4
  else match g.cur with
    | some r => if r.kind = .event then 3 else 2
    | none => 1

/-- ENG_n_DBGDATA (R190). A DBGSEL.REG that the rule's list does not name, 41 to 63, reads 0: DESIGN CHOICE, log entry 94. -/
def State.dbgData (s : State) (e : Nat) : W32 :=
  if !(s.engN e).halted then 0
  else
    let c := if s.on (Reg.ENG_DBGSEL_CTX e) then (s.engN e).ev else (s.engN e).ph
    let r := s.get (Reg.ENG_DBGSEL_REG e)
    if r < 16 then c.d.getD r 0
    else if r < 24 then (c.a.getD (r - 16) 0).setWidth 32
    else if r < 28 then (c.bnk.getD (r - 24) 0).setWidth 32
    else if r < 36 then (c.len.getD (r - 28) 0).setWidth 32
    else match r with
      | 36 => c.flg
      | 37 => c.evs
      | 38 => c.tcause
      | 39 => c.tpc
      | 40 => c.pc
      | _ => 0

/-- Word `i` of the ledger entry that PWR_LEDSEL names (R660). -/
def State.ledWord (s : State) (i : Nat) : W32 :=
  let q := s.get Reg.PWR_LEDSEL_SEQ
  let h := s.get Reg.PWR_LEDHEAD_SEQ
  if q = 0 ∨ h < q ∨ q + 255 < h then 0
  else match s.ledger.find? (fun (e : LedgerEntry) => e.seq.toNat == q) with
    | none => 0
    | some e => BitVec.ofNat 32 (leAt e.bytes (4 * i) 4)

/-- What a register of the ENG block reads. -/
def State.readEng (s : State) (key : Nat) : W32 :=
  let n := (key - 0x3100) / 0x40
  if key < 0x3100 ∨ 0x3500 ≤ key then s.word key
  else match key % 0x40 with
    | 0x08 => BitVec.ofNat 32 (s.engState n + (((s.engN n).cur.map (fun (r : Run) => r.slot)).getD 0) * 8 + s.engOwner n * 256)
    | 0x18 => (s.engN n).pend.setWidth 32
    | 0x1C => ((s.engN n).pend >>> 32).setWidth 32
    | 0x3C => s.dbgData n
    | _ => s.word key

/-- What a mailbox register reads: CTL.DB mirrors STAT.DB, and RSTATE is the receiver's state now (R683). -/
def State.readMbx (s : State) (key : Nat) : W32 :=
  let c := (key - 0xF000) / 0x100
  let db := fun (i : Nat) => fieldSet (s.word key) 8 1 (s.get (mbxDb i))
  match key % 0x100 with
  | 0x04 => db (2 * c)
  | 0x0C => db (2 * c + 1)
  | 0x08 => fieldSet (s.word key) 8 2 (s.rstate (2 * c))
  | 0x10 => fieldSet (s.word key) 8 2 (s.rstate (2 * c + 1))
  | _ => s.word key

/-- The value a register has, where it is more than the word it holds. LIMIT shows the low 24 bits of L (DEDUCED, log entry 61: the reserved
bits read 0). -/
def State.readWord (s : State) (key : Nat) : W32 :=
  if key = Reg.DEV_PCISTAT then fieldSet (s.word key) 9 1 (if s.pcie.pf0.bme then 1 else 0)
  else if key = Reg.DEV_RESDATA then s.residueWord (s.get Reg.DEV_RESIDX_IDX)
  else if key = Reg.HRT_ADMIT then BitVec.ofNat 32 (s.admitLimit % 2 ^ 24)
  else if key = Reg.PORT_FWD 4 ∨ key = Reg.PORT_FWD 5 then 0
  else if key = Reg.RING_ERR_LO then BitVec.ofNat 32 s.ringErrs
  else if key = Reg.RING_ERR_HI then BitVec.ofNat 32 (s.ringErrs / 2 ^ 32)
  else if 0x2800 ≤ key ∧ key < 0x3000 ∧ key % 0x20 = 0x1C then
    let n := (key - 0x2800) / 0x20
    fieldSet (fieldSet (s.word key) 4 1 (if s.ringHeld n then 1 else 0)) 5 1 (if s.ringActive n then 1 else 0)
  else if 0x3000 ≤ key ∧ key < 0x4000 then s.readEng key
  else if key = Reg.PRS_DONECTL then fieldSet (s.word key) 1 1 (if s.doneLow then 1 else 0)
  else if 0x6100 ≤ key ∧ key < 0x6D00 ∧ (key - 0x6100) % 0x200 = 0x20 then
    fieldSet (s.word key) 16 16 (s.pauseRemain ((key - 0x6100) / 0x200))
  else if key = Reg.TIME_SLEWREM then s.slewRem
  else if 0x7100 ≤ key ∧ key < 0x7118 then
    let p := s.latencies ((key - 0x7100) / 4)
    BitVec.ofNat 32 (p.1 + p.2 * 2 ^ 16)
  else if key = Reg.CHN_CFGHASH_LO then s.cfgHash.setWidth 32
  else if key = Reg.CHN_CFGHASH_HI then (s.cfgHash >>> 32).setWidth 32
  else if 0x8840 ≤ key ∧ key < 0x8880 then
    let h := s.modeHash ((key - 0x8840) / 8)
    if key % 8 = 0 then h.setWidth 32 else (h >>> 32).setWidth 32
  else if 0xB100 ≤ key ∧ key < 0xB200 ∧ key % 0x20 = 0x0C then
    let t := s.tng ((key - 0xB100) / 0x20)
    -- while ticks run the levels are those latched at the tick start (R45). DEDUCED, log entry 70.
    fieldSet (fieldSet (s.word key) 12 4 (if s.running then t.txLatch else t.tx.length)) 16 4 (if s.running then t.rxLatch else t.rx.length)
  else if key = Reg.TNG_PIO_IN then s.pio.sampled s.pio.t
  else if 0xE420 ≤ key ∧ key < 0xE440 then s.ledWord ((key - 0xE420) / 4)
  else if 0xF000 ≤ key ∧ key < 0x10000 then s.readMbx key
  else if key = Reg.WDN_STAT then
    fieldSet (s.word key) 2 1 (if s.sec.patch.isEmpty && s.sec.check.isNone && s.sec.queue.isEmpty then 0 else 1)
  else s.word key

/-- A read of the lowest word of a wide register captures the words above it (R30). -/
def State.captureAbove (s : State) (lo n : Nat) : State :=
  (List.range (n - 1)).foldl (fun (t : State) i => t.capture (lo + 4 * (i + 1)) (s.readWord (lo + 4 * (i + 1)))) s

/-- A read of a register, with what the read itself does (R5, R30, R141, R190). -/
def State.readReg (s : State) (key : Nat) : W32 × State :=
  let n := (key - 0xB800) / 0x80
  let o := key % 0x80
  let timer := decide (0xB800 ≤ key ∧ key < 0xC000)
  if key = Reg.TIME_NOW_LO then s.readNow
  else if timer && o == 0x18 then s.readCnt n
  else if timer && decide (0x20 ≤ o ∧ o < 0x40) && key % 8 == 0 then s.readCap n ((o - 0x20) / 8)
  else if 0xB100 ≤ key ∧ key < 0xB200 ∧ key % 0x20 = 0x14 then s.rxfRead ((key - 0xB100) / 0x20)
  else if 0xD100 ≤ key ∧ key < 0xD160 ∧ (key % 0x10 = 4 ∨ key % 0x10 = 0xC) then s.readEq ((key - 0xD100) / 0x10) (key % 0x10 == 0xC)
  else if key = Reg.TMP_THRVAL then s.readThrval
  else match wideOf key with
    | some (lo, k) => if key = lo then (s.readWord key, (s.captureAbove lo k).clearOnRead key) else (s.capAt key, s)
    | none =>
      let t := s.clearOnRead key
      (s.readWord key, if key = Reg.DEV_RESDATA then t.set Reg.DEV_RESIDX_IDX (s.get Reg.DEV_RESIDX_IDX + 1) else t)

/-- A 32-bit read at an aligned offset; an offset without a register reads 0 (R136). -/
def State.setupRead (s : State) (w : Who) (key : Nat) : W32 × State :=
  if 0x10000 ≤ key then (if w = .pf1 then s.readReg key else (0, s.mbxDeny w key false))
  else if 0xF000 ≤ key ∧ !s.mbxReach w ((key - 0xF000) / 0x100) then (0, s.mbxDeny w key false)
  else if (RegMap.find key).isNone then (0, s)
  else s.readReg key

/-! ## Accesses of any shape (R4) -/

/-- A write of a word, or of another width, at any offset. -/
def State.accessWrite (s : State) (w : Who) (key : Nat) (word : Bool) (v : W32) : State :=
  if word && key % 4 == 0 then s.setupWrite w key v else s.accessFault w key 1

/-- A read of a word, or of another width, at any offset. -/
def State.accessRead (s : State) (w : Who) (key : Nat) (word : Bool) : W32 × State :=
  if word && key % 4 == 0 then s.setupRead w key else (0, s.accessFault w key 1)

/-! ## Requests to a BAR (R128, R142, R143, R146, R628) -/

/-- Does a function serve memory requests? -/
def State.fnOpen (s : State) (pf1 : Bool) : Bool :=
  let f := if pf1 then s.pcie.pf1 else s.pcie.pf0
  f.mse && !f.d3 && !f.flr && s.on Reg.DEV_PCISTAT_LINKUP && s.pcie.ready && s.power.reset.isNone

/-- Is the device asleep, or on its way there? -/
def State.asleep (s : State) : Bool := s.get Reg.PWR_STAT_STATE != 0 || s.power.entering.isSome

/-- The register that an offset of PF1's BAR0 names (R128); the MBS channels lie at 0xF800 of the set-up space. An offset that names
none keeps its place, so that only its width and alignment can be wrong (R4, R136). -/
def pf1Key (off : Nat) : Nat := if 0x1000 ≤ off ∧ off < 0x1800 then 0xF800 + (off - 0x1000) else 0x10000 + off

/-- The register that a set-up offset names for its initiator. -/
def whoKey (w : Who) (off : Nat) : Nat := if w = .pf1 then pf1Key off else off

/-- The register that an address decodes to: a host bus address against the BAR0 of its function, as the last configuration write left it
(R128, R148); of another initiator, the set-up offset. -/
def State.decodes (s : State) (w : Who) (a : BitVec 32) : Option Nat :=
  match w with
  | .host => if a &&& 0xFFFF0000 = s.pcie.pf0.bar0 then some (whoKey w (a.toNat % 0x10000)) else none
  | .pf1 => if a &&& 0xFFFFC000 = s.pcie.pf1.bar0 then some (whoKey w (a.toNat % 0x4000)) else none
  | _ => some (whoKey w (a.toNat % 0x10000))

def whoFromHost (w : Who) : Bool := w == .host || w == .pf1

/-- May the access of an initiator go ahead now; `none`: now, `some false`: never, `some true`: after a wake. DEDUCED, log entry 49. DESIGN CHOICE, log entry 58. -/
def State.gate (s : State) (w : Who) (key : Nat) : Option Bool :=
  if !whoFromHost w then none
  else if !s.fnOpen (w == .pf1) then some false
  else if s.asleep && !decide (0xE000 ≤ key ∧ key < 0xF000) then some true
  else none

/-- A write of a register, now or after a wake. -/
def State.regWrite (s : State) (w : Who) (key : Nat) (word : Bool) (v : W32) : State :=
  match s.gate w key with
  | none => s.accessWrite w key word v
  | some true => if word && key % 4 == 0 then s.hostWake (.write w key v) else s.accessFault w key 1
  | some false => s

/-- A read of a register, now or after a wake. -/
def State.regRead (s : State) (w : Who) (key : Nat) (word : Bool) : State :=
  match s.gate w key with
  | none => let p := s.accessRead w key word; p.2.send (.readValue w key p.1)
  | some true => if word && key % 4 == 0 then s.hostWake (.read w key) else (s.accessFault w key 1).send (.readValue w key 0)
  | some false => s.send (.reply (w == .pf1) .unsupported [])

/-- REGISTER_WRITE: `word` tells an access of 32 bits. A request that decodes to no BAR is no one's here. -/
def execRegisterWrite (w : Who) (addr : BitVec 32) (word : Bool) (v : BitVec 32) (s : State) : Host.Outcome State Fault Refusal :=
  .next (match s.decodes w addr with
    | some key => s.regWrite w key word v
    | none => s)

/-- REGISTER_READ. DEDUCED, log entry 49. -/
def execRegisterRead (w : Who) (addr : BitVec 32) (word : Bool) (s : State) : Host.Outcome State Fault Refusal :=
  .next (match s.decodes w addr with
    | some key => s.regRead w key word
    | none => s.send (.reply (w == .pf1) .unsupported []))

/-- DEV_NUDGE (R99, R628). -/
def execDevNudge (w : Who) (v : BitVec 32) (s : State) : Host.Outcome State Fault Refusal := .next (s.regWrite w (whoKey w 0x18) true v)

/-- DEV_LOCK (R138). -/
def execDevLock (w : Who) (v : BitVec 32) (s : State) : Host.Outcome State Fault Refusal := .next (s.regWrite w (whoKey w 0x1C) true v)

/-- DEV_RESDATA (R141, R151). DEDUCED, log entry 49. -/
def execDevResdata (w : Who) (s : State) : Host.Outcome State Fault Refusal := .next (s.regRead w (whoKey w 0x34) true)

/-! ## Quench (R665 to R669) -/

def execQuenchSet (w : Who) (s : State) : Host.Outcome State Fault Refusal := .next (s.writeQctl w 1)

def execQuenchClearWrite (w : Who) (s : State) : Host.Outcome State Fault Refusal := .next (s.writeQctl w 2)

/-- An edge of a PIO pin: source 8 when PWR_QPIO names the pin and the edge. -/
def execQuenchPin (pin : Fin 32) (rising : Bool) (s : State) : Host.Outcome State Fault Refusal :=
  let e := s.get Reg.PWR_QPIO_EDGE
  .next (if s.get Reg.PWR_QPIO_PIN = pin.val ∧ (e = 3 ∨ e = (if rising then 1 else 2)) then (s.bringPin pin rising).quench 8 false else s.bringPin pin rising)

/-- The QUENCH descriptor at the head of ring n's work. -/
def execQuench (n : Fin 64) (s : State) : Host.Outcome State Fault Refusal :=
  match s.ready n 0x2B with
  | none => .next s
  | some d => .next ((s.start n d).quench 0 false |>.endWithSeq n (fun e => e.is d.idx d.gen) statusDone (nextSeq (s.get Reg.PWR_LEDHEAD_SEQ)))

/-- The QUENCH_CLEAR descriptor at the head of ring n's work. -/
def execQuenchClear (n : Fin 64) (s : State) : Host.Outcome State Fault Refusal :=
  match s.ready n 0x2C with
  | none => .next s
  | some d =>
    let me := fun (e : Desc) => e.is d.idx d.gen
    let s := s.start n d
    if !s.on Reg.PWR_QSTAT_ACTIVE then .next (s.doneNow n me)
    else if s.quenchHeld then .next (s.endNoEntry n me statusFail)
    else .next (s.quenchRelease.endWithSeq n me statusDone (nextSeq (s.get Reg.PWR_LEDHEAD_SEQ)))

end Sys2Proof.Machine
end

