-- ==== Sys2Proof/Machine/Emit.lean ====
section
/-!
DEFINITION. Emit (R50, R56 to R58): the end of phase tasks, the commit of the emit queues, cyclic requests, safe frames, and the
REG_WRITE descriptor that acts at its start.
-/

namespace Sys2Proof.Machine

/-! ## Boundary 2 (R50, R57) -/

/-- A phase task that an event task preempts is stopped as an overrun too. -/
def State.overrunPreempted (s : State) (e : Nat) : State :=
  match (s.engN e).pre with
  | none => s
  | some r =>
    let s := s.modEng e (fun g => { (g.discard r.slot) with
      pre := none, resend := r.slot :: g.resend.filter (fun n => n != r.slot) })
    s.overrunReport e r.slot r.kind r.strike

/-- Phase tasks of one engine that are still current are stopped. DEDUCED, log entry 47. -/
def State.stopPhase (s : State) (e : Nat) : State :=
  let s := s.modEng e (fun g => { g with todo := [] })
  let s := s.overrunPreempted e
  let s := match (s.engN e).cur with
    | some r => if r.kind == TaskKind.phase then s.overrunStop e else s
    | none => s
  s.go e

/-! ## Transmit requests (R227, R228, R318, R667) -/

def ctlLen (c : W32) : Nat := fieldGet c 0 14
def ctlCyc (c : W32) : Bool := c.getLsbD 14
def ctlCls (c : W32) : Nat := fieldGet c 16 3
def ctlPort (c : W32) : Nat := fieldGet c 20 3
def ctlHasFcs (c : W32) : Bool := c.getLsbD 23

/-- The bytes of a frame in the port buffers or the Hoard, as the MAC's requester reads them: only those before an uncorrectable granule, and
false (R263); zeros where the access is denied (R18, R19). DESIGN CHOICE, log entry 48. -/
def State.frameAt (s : State) (a n : Nat) : Bool × List Byte × State :=
  if 0x20000000 ≤ a ∧ a + n ≤ 0x20200000 then (true, s.rd a n, s)
  else if 0x10000000 ≤ a ∧ a < 0x11000000 then
    match s.hoardRead 23 (a - 0x10000000) n with
    | (.ok b, t) => (true, b, t)
    | (.denied b, t) => (true, b, t)
    | (.uncorrectable, t) => (false, t.rd (Memory.hoard (a - 0x10000000)) (t.goodBytes 23 (a - 0x10000000) n), t)
  else (true, List.replicate n 0, s.recordAccess codeAddress 23 a false)

/-- A request for a frame of MAC `p` (0 to 5): it joins its queue, or is discarded outside the length limits (R318); one that ends at an
uncorrectable granule is sent up to there (R263). DESIGN CHOICE, log entry 48. -/
def State.requestMac (s : State) (p addr len : Nat) (f : Frame) : State :=
  let n := if f.hasFcs then len else max len 60 + 4
  if n < 64 ∨ 1518 < n then s.record 0x0602 p n
  else
    let r := s.frameAt addr len
    r.2.2.join p { f with bytes := r.2.1, bad := !r.1 } (f.cls == 7)

/-- A request for a frame of CAN controller `c`. DEDUCED, log entry 52. -/
def State.requestCan (s : State) (c addr len : Nat) (f : Frame) : State :=
  match s.frameAt addr len with
  | (true, b, t) => if canOk b then t.modCan c (fun x => { x with q := x.q ++ [{ f with bytes := b, hasFcs := true }] }) else t.record 0x0602 (6 + c) len
  | (false, _, t) => t

/-- A committed transmit request of engine `e`, slot `slot`. -/
def State.transmit (s : State) (e slot addr : Nat) (ctl : W32) : State :=
  let p := ctlPort ctl
  let f : Frame :=
    { bytes := [], hasFcs := ctlHasFcs ctl, cls := ctlCls ctl, src := .fw e slot, k := s.tick, bound := none, start := 0, cut := false }
  if 6 ≤ p then s.requestCan (p - 6) addr (ctlLen ctl) f
  else if ctlCls ctl = 7 ∧ s.safeOn p then s
  else s.requestMac p addr (ctlLen ctl) f

/-- The valid safe frames, while a Quench is active (R667). -/
def State.safeFrames (s : State) : State :=
  if !s.on Reg.PWR_QSTAT_ACTIVE then s
  else s.each 8 (fun i t =>
    let p := t.get (Reg.PWR_SAFE_CTL_PORT i)
    if t.on (Reg.PWR_SAFE_CTL_V i) && decide (p < 6) then
      t.requestMac p (t.get (Reg.PWR_SAFE_ADDR_ADDR i)) (t.get (Reg.PWR_SAFE_CTL_LEN i))
        { bytes := [], hasFcs := false, cls := 7, src := .safe i, k := t.tick, bound := none, start := 0, cut := false }
    else t)

/-! ## The commit (R56, R139, R226) -/

/-- Cyclic requests of the tasks that overran or were not started are sent again, unless the link is down (R57, R228, R316). DEDUCED, log entry 52. -/
def State.resendCyclic (s : State) (e : Nat) : State :=
  (((s.engN e).cyc.filter (fun (c : CycReq) => (s.engN e).resend.contains c.slot)).foldl (fun t c =>
    if 6 ≤ c.port || t.portUp c.port then t.transmit e c.slot c.addr.toNat c.ctl else t)) s

/-- One committed entry. -/
def State.commitEntry (e : Nat) (s : State) (x : EmitEntry) : State :=
  if !x.tx then s.accessWrite (.emit (Fin.ofNat 16 e) (((s.engN e).task x.slot).any (fun t => t.strike))) x.a.toNat true x.v
  else
    let s := if ctlCyc x.v then
        let c : CycReq := { slot := x.slot, port := ctlPort x.v, addr := x.a, ctl := x.v }
        s.modEng e (fun g => { g with cyc := c :: g.cyc.filter (fun (y : CycReq) => !(y.slot == x.slot && y.port == c.port)) })
      else s
    s.transmit e x.slot x.a.toNat x.v

/-- The commit of one engine's queue, in post order. Entries of an activation that is still running wait (R58). DEDUCED, log entry 52. -/
def State.commitEngine (s : State) (e : Nat) : State :=
  let s := s.resendCyclic e
  let ready := (s.engN e).emitq.filter (fun (x : EmitEntry) => !x.live)
  let named := fun (c : CycReq) => ready.any (fun x => x.tx && ctlCyc x.v && x.slot == c.slot && ctlPort x.v == c.port)
  let s := s.modEng e (fun g => { g with
    emitq := g.emitq.filter (fun x => x.live), resend := [], endedOk := [],
    cyc := g.cyc.filter (fun c => !g.endedOk.contains c.slot || named c) })
  ready.foldl (State.commitEntry e) s

/-- Host frames whose tick is reached join their queues (R69, R105); a class-7 frame gives way to a safe frame (R667). -/
def State.joinStaged (s : State) (p : Nat) : State :=
  let due := (s.port p).stage.filter (fun f => decide (f.k ≤ s.tick))
  let s := s.modPort p (fun x => { x with stage := x.stage.filter (fun f => !decide (f.k ≤ s.tick)) })
  due.foldl (fun t f =>
    match f.src with
    | .ring r i => if f.cls = 7 ∧ t.safeOn p then t.endTx r i statusFail 0 (some t.quenchSeq) none else t.join p f (f.cls == 7 && f.k == t.tick)
    | _ => t.join p f false) s

/-- The same for CAN controller `c`. -/
def State.joinCan (s : State) (c : Nat) : State :=
  s.modCan c (fun x => { x with
    q := x.q ++ x.stage.filter (fun f => decide (f.k ≤ s.tick)), stage := x.stage.filter (fun f => !decide (f.k ≤ s.tick)) })

/-- Every transmitter chooses. -/
def State.selectAll (s : State) : State := (s.each 6 (fun p t => t.select p)).each 2 (fun c t => t.canSelect c)

/-- EMIT_START. DEDUCED, log entry 52. -/
def execEmitStart (s : State) : Host.Outcome State Fault Refusal :=
  if !(s.running && s.phase == 1 && s.timeRuns && s.reached (s.boundaryAt 2)) then .next s
  else
    let s := ((s.set Reg.HRT_STAT_PHASE 2).modHearth (fun h => { h with emitAt := s.now })).checkVoids
    let s := ((s.each 16 (fun e t => t.stopPhase e)).each 16 (fun e t => t.commitEngine e)).safeFrames
    let s := ((s.each 6 (fun p t => t.joinStaged p)).each 2 (fun c t => t.joinCan c)).swgEmit.commitLsw.selectAll
    .next (s.registerAll 16)

/-! ## REG_WRITE (R110) -/

/-- Was a set-up write refused by a lock or by its register's owner (R6, R27), since the entry with SEQ `seq`? DEDUCED, log entry 51. -/
def State.refusedSince (s : State) (seq : Nat) : Bool :=
  (s.ledger.takeWhile (fun (x : LedgerEntry) => x.seq.toNat != seq)).any (fun x =>
    x.code == 0x0002 || (x.code == 0x0001 && s.get Reg.DEV_ACCERR_CAUSE == 2))

/-- Pairs from a list of bytes, until one is refused: whether one was, and the pairs applied. DEDUCED, log entry 51. -/
def State.applyPairs (s : State) : Nat → List Byte → Nat → Bool × Nat × State
  | 0, _, n => (false, n, s)
  | f + 1, b, n =>
    if b.length < 8 then (false, n, s)
    else
      let off := leAt b 0 4
      let seq := s.get Reg.PWR_LEDHEAD_SEQ
      let t := if off < 0x10000 then s.accessWrite .host off true (BitVec.ofNat 32 (leAt b 4 4)) else s.accessFault .host (off % 0x10000) 1
      if t.refusedSince seq then (true, n, t)
      else State.applyPairs t f (b.drop 8) (n + 1)

/-- The REG_WRITE descriptor at the head of ring n's work, at the start of Emit of its tick; while no tick runs, at once. DEDUCED, log entry 51. -/
def execRegWrite (n : Fin 64) (s : State) : Host.Outcome State Fault Refusal :=
  match s.ready n 0x21 with
  | none => .next s
  | some d =>
    match d.data with
    | none => .next s
    | some b =>
      if s.running ∧ s.phase ≠ 2 then .next s
      else
        let me := fun (e : Desc) => e.is d.idx d.gen
        let time := BitVec.ofNat 32 (if s.running then s.hearth.emitAt else s.now)
        let p := (s.start n d).applyPairs (b.length / 8) b 0
        let t := p.2.2.modDesc n me (fun e => { e with prog := p.2.1 })
        .next (if p.1 then (t.noteSeq n).finish n me statusFail (some t.led16) (some time) else t.finish n me statusDone none (some time))

end Sys2Proof.Machine
end

