-- ==== Sys2Proof/Machine/Pcie.lean ====
section
/-!
DEFINITION. The PCIe endpoint (05): configuration requests, the Hoard window, the MSI-X tables, poisoned writes; what the host has
asked for during a sleep, and the operating conditions. The layout of the configuration header and of the capability structures
is PCI's (PRESUMED, log entry 50).
-/

namespace Sys2Proof.Machine

/-- One function's configuration state. -/
def State.fn (s : State) (pf1 : Bool) : PciFn := if pf1 then s.pcie.pf1 else s.pcie.pf0
def State.modFn (s : State) (pf1 : Bool) (f : PciFn → PciFn) : State :=
  { s with pcie := if pf1 then { s.pcie with pf1 := f s.pcie.pf1 } else { s.pcie with pf0 := f s.pcie.pf0 } }

/-! ## AER -/

def aerPoisoned : Nat := 12
def aerAbort : Nat := 15

/-- An error is reported through AER; the first one since none was set keeps its bit number and its TLP's header, which no command gives:
four free values. DESIGN CHOICE, log entry 50. -/
def State.aer (s : State) (pf1 : Bool) (n : Nat) : State :=
  let a := s.free
  let b := a.2.free
  let t := if (s.fn pf1).aer.isEmpty then
      b.2.modFn pf1 (fun f => { f with firstErr := n, hdrLog := [a.1.setWidth 32, (a.1 >>> 32).setWidth 32, b.1.setWidth 32, (b.1 >>> 32).setWidth 32] })
    else s
  t.modFn pf1 (fun f => { f with aer := n :: f.aer.filter (fun x => x != n) })

/-- A poisoned write to a BAR (R126). -/
def execPoisonedWrite (pf1 : Bool) (s : State) : Host.Outcome State Fault Refusal := .next (s.aer pf1 aerPoisoned)

/-! ## BAR2 (R19, R129, R130, R263) -/

/-- An access of 1 to 64 bytes at window offset `off`: a read of `n` bytes, or a write of `bs`. -/
def State.bar2Serve (s : State) (off : Nat) (write : Bool) (n : Nat) (bs : List Byte) : State :=
  let o := s.get Reg.DEV_B2WIN_BASE * 0x100000 + off
  if write then (s.hoardWrite 22 o bs).2
  else match s.hoardRead 22 o n with
    | (.ok b, t) => t.send (.reply false .ok b)
    | (.denied b, t) => t.send (.reply false .ok b)
    | (.uncorrectable, t) => t.send (.reply false .ok (List.replicate n 0))

/-- A BAR2 access when the device is awake. -/
def State.bar2Now (s : State) (off : Nat) (write : Bool) (n : Nat) (bs : List Byte) : State :=
  let len := if write then bs.length else n
  if 64 < len then
    let t := s.aer false aerAbort
    if write then t else t.send (.reply false .abort [])
  else if len = 0 then (if write then s else s.send (.reply false .ok []))
  else s.bar2Serve off write n bs

/-- Does a host bus address decode to PF0's BAR2, as the last configuration write left it (R128, R129, R148)? -/
def State.hitsBar2 (s : State) (a : BitVec 64) : Bool :=
  s.fnOpen false && s.on Reg.DEV_STAT_BAR2EN && a >>> 20 == s.pcie.pf0.bar2 >>> 20

/-- A request that does not decode to BAR2 is unsupported. DESIGN CHOICE, log entry 58. -/
def execBar2Access (addr : BitVec 64) (write : Bool) (n : BitVec 12) (bytes : List Byte) (s : State) : Host.Outcome State Fault Refusal :=
  let off := addr.toNat % 0x100000
  .next (if !s.hitsBar2 addr then (if write then s else s.send (.reply false .unsupported []))
    else if s.asleep then s.hostWake (.bar2 off write n.toNat bytes)
    else s.bar2Now off write n.toNat bytes)

/-! ## BAR4 (R128, R738) -/

/-- An entry of the MSI-X table. -/
def PciFn.vector (f : PciFn) (v : Nat) : BitVec 64 × W32 × Bool :=
  ((f.tbl.find? (fun e => e.1 == v)).map (fun e => e.2)).getD (0, 0, true)

/-- Vectors of a function. -/
def vectorsOf (pf1 : Bool) : Nat := if pf1 then 8 else 64

/-- DWORD `i` of BAR4. PRESUMED, log entry 50. -/
def PciFn.bar4Word (f : PciFn) (pf1 : Bool) (i : Nat) : W32 :=
  if i / 4 < vectorsOf pf1 then
    let e := f.vector (i / 4)
    match i % 4 with
    | 0 => e.1.setWidth 32
    | 1 => (e.1 >>> 32).setWidth 32
    | 2 => e.2.1
    | _ => if e.2.2 then 1 else 0
  else if i = 512 then f.pba.setWidth 32
  else if i = 513 then (f.pba >>> 32).setWidth 32
  else 0

/-- A DWORD is written; the PBA keeps its value. PRESUMED, log entry 50. -/
def PciFn.putBar4 (f : PciFn) (pf1 : Bool) (i : Nat) (v : W32) : PciFn :=
  if i / 4 < vectorsOf pf1 then
    let e := f.vector (i / 4)
    let e' : BitVec 64 × W32 × Bool := match i % 4 with
      | 0 => ((e.1 >>> 32).setWidth 32 ++ (v &&& 0xFFFFFFFC), e.2)
      | 1 => (v ++ e.1.setWidth 32, e.2)
      | 2 => (e.1, v, e.2.2)
      | _ => (e.1, e.2.1, v.getLsbD 0)
    { f with tbl := (i / 4, e') :: f.tbl.filter (fun x => x.1 != i / 4) }
  else f

/-- A BAR4 access of `n` bytes when the device is awake: one DWORD or one aligned QWORD, else nothing. -/
def State.bar4Now (s : State) (pf1 : Bool) (off : Nat) (write : Bool) (n : Nat) (v : BitVec 64) : State :=
  let i := off / 4
  let f := s.fn pf1
  if n = 4 ∧ off % 4 = 0 then
    (if write then s.modFn pf1 (fun f => f.putBar4 pf1 i (v.setWidth 32)) else s.send (.reply pf1 .ok (leBytes 4 (f.bar4Word pf1 i).toNat)))
  else if n = 8 ∧ off % 8 = 0 then
    (if write then s.modFn pf1 (fun f => (f.putBar4 pf1 i (v.setWidth 32)).putBar4 pf1 (i + 1) ((v >>> 32).setWidth 32))
     else s.send (.reply pf1 .ok (leBytes 4 (f.bar4Word pf1 i).toNat ++ leBytes 4 (f.bar4Word pf1 (i + 1)).toNat)))
  else if write then s
  else s.send (.reply pf1 .ok (List.replicate n 0))

/-- Does a host bus address decode to a function's BAR4, as the last configuration write left it (R128, R148)? -/
def State.hitsBar4 (s : State) (pf1 : Bool) (a : BitVec 32) : Bool := s.fnOpen pf1 && a >>> 12 == (s.fn pf1).bar4 >>> 12

/-- A request that does not decode to BAR4 is unsupported. DESIGN CHOICE, log entry 58. -/
def execBar4Access (pf1 : Bool) (addr : BitVec 32) (write : Bool) (n : BitVec 12) (v : BitVec 64) (s : State) : Host.Outcome State Fault Refusal :=
  let off := addr.toNat % 0x1000
  .next (if !s.hitsBar4 pf1 addr then (if write then s else s.send (.reply pf1 .unsupported []))
    else if s.asleep then s.hostWake (.bar4 pf1 off write n.toNat v)
    else s.bar4Now pf1 off write n.toNat v)

/-! ## Configuration requests (R124, R127 to R131, R143, R144, R146) -/

/-- The DWORD of the header and capabilities that the model holds; none for one whose contents the spec does not state. PRESUMED, log entry 50. -/
def State.cfgRead (s : State) (pf1 : Bool) (dw : Nat) : Option W32 :=
  let f := s.fn pf1
  let bit := fun (b : Bool) (i : Nat) => if b then 2 ^ i else 0
  match dw with
  | 0 => some 0x73401F0D
  | 1 => some (BitVec.ofNat 32 (0x00100000 + bit f.mse 1 + bit f.bme 2))
  | 2 => some (if pf1 then 0x108000B1 else 0x028000B1)
  | 3 => some 0x00800000
  | 4 => some f.bar0
  | 5 => some 0
  | 6 => some (if s.on Reg.DEV_STAT_BAR2EN && !pf1 then f.bar2.setWidth 32 ||| 0xC else 0)
  | 7 => some (if s.on Reg.DEV_STAT_BAR2EN && !pf1 then (f.bar2 >>> 32).setWidth 32 else 0)
  | 8 => some f.bar4
  | 9 => some 0
  | 11 => some (if pf1 then 0x73411F0D else 0x73401F0D)
  | 13 => some 0x40
  | 15 => some 0
  | 16 => some 0x00035001
  | 17 => some (if f.d3 then 0xB else 0x8)
  | 20 => some (BitVec.ofNat 32 (0x7011 + (vectorsOf pf1 - 1) * 2 ^ 16 + bit f.msixMask 30 + bit f.msixEn 31))
  | 21 => some 4
  | 22 => some 0x804
  | 28 => some 0x00020010
  | 29 => some 0x10008022
  | 30 => some (BitVec.ofNat 32 (f.devCtl + Nat.log2 (f.mps / 128) * 2 ^ 5 + Nat.log2 (f.mrrs / 128) * 2 ^ 12
      + bit (!pf1 && (!s.hif.reads.isEmpty || f.flr)) 21))
  | 31 => some 0x00400844
  | 32 => some (BitVec.ofNat 32 (f.lnkCtl + s.get Reg.DEV_PCISTAT_SPEED * 2 ^ 16 + s.get Reg.DEV_PCISTAT_WIDTH * 2 ^ 20))
  | 37 => some 0x00000013
  | 38 => some (BitVec.ofNat 32 f.cto)
  | 39 => some 0x0000001E
  | 64 => some 0x14820001
  | 65 => some (BitVec.ofNat 32 (f.aer.foldl (fun n b => n + 2 ^ b) 0))
  | 66 => some f.aerCfg.1
  | 67 => some f.aerCfg.2.1
  | 68 => some 0
  | 69 => some f.aerCfg.2.2
  | 70 => some (BitVec.ofNat 32 (f.firstErr + 2 ^ 5 + bit (f.ecrc % 2 == 1) 6 + 2 ^ 7 + bit (f.ecrc / 2 % 2 == 1) 8))
  | 71 => f.hdrLog[0]?
  | 72 => f.hdrLog[1]?
  | 73 => f.hdrLog[2]?
  | 74 => f.hdrLog[3]?
  | 82 => some (if pf1 then 0x00010003 else 0x15810003)
  | 83 => some (s.word Reg.DEV_UID_LO)
  | 84 => some (s.word Reg.DEV_UID_HI)
  | 86 => some (if pf1 then 0 else 0x17810019)
  | 94 => some (if pf1 then 0 else 0x1A010026)
  | 104 => some (if pf1 then 0 else 0x00010027)
  | n => if (10 ≤ n ∧ n ≤ 14) ∨ (18 ≤ n ∧ n < 20) ∨ (23 ≤ n ∧ n < 28) ∨ (43 ≤ n ∧ n < 64) ∨ (75 ≤ n ∧ n < 82) ∨ n = 85 ∨ 112 ≤ n ∨ (pf1 ∧ 86 ≤ n) then some 0
    else none

/-- An FLR of a function is initiated. -/
def State.flrOf (s : State) (pf1 : Bool) : State :=
  match (if pf1 then execFlrPf1 s else execFlrPf0 s) with
  | .next t => t
  | _ => s

/-- A configuration write. PRESUMED, log entry 50. -/
def State.cfgWrite (s : State) (pf1 : Bool) (dw : Nat) (v : W32) : State :=
  match dw with
  | 1 => (s.modFn pf1 (fun f => { f with mse := v.getLsbD 1, bme := v.getLsbD 2 })).drainWait
  | 4 => s.modFn pf1 (fun f => { f with bar0 := v &&& (if pf1 then 0xFFFFC000 else 0xFFFF0000) })
  | 6 => if s.on Reg.DEV_STAT_BAR2EN && !pf1 then s.modFn pf1 (fun f => { f with bar2 := (f.bar2 >>> 32).setWidth 32 ++ (v &&& 0xFFF00000) }) else s
  | 7 => if s.on Reg.DEV_STAT_BAR2EN && !pf1 then s.modFn pf1 (fun f => { f with bar2 := v ++ f.bar2.setWidth 32 }) else s
  | 8 => s.modFn pf1 (fun f => { f with bar4 := v &&& 0xFFFFF000 })
  | 17 => if fieldGet v 0 2 = 3 then s.setD3 pf1 true else if fieldGet v 0 2 = 0 then s.setD3 pf1 false else s
  | 20 => s.modFn pf1 (fun f => { f with msixEn := v.getLsbD 31, msixMask := v.getLsbD 30 })
  | 30 =>
    let m := fieldGet v 12 3
    let p := fieldGet v 5 3
    let s := s.modFn pf1 (fun f => { f with
      mrrs := if m < 6 then 128 * 2 ^ m else f.mrrs, mps := if p < 3 then 128 * 2 ^ p else f.mps, devCtl := v.toNat % 16 + fieldGet v 8 1 * 2 ^ 8 })
    if v.getLsbD 15 then s.flrOf pf1 else s
  | 32 => s.modFn pf1 (fun f => { f with lnkCtl := fieldGet v 1 1 * 2 + fieldGet v 6 2 * 2 ^ 6 })
  | 38 => if [0, 1, 2, 5, 6].contains (fieldGet v 0 4) then s.modFn pf1 (fun f => { f with cto := fieldGet v 0 5 }) else s
  | 65 => s.modFn pf1 (fun f => { f with aer := f.aer.filter (fun n => !v.getLsbD n) })
  | 66 => s.modFn pf1 (fun f => { f with aerCfg := (v, f.aerCfg.2) })
  | 67 => s.modFn pf1 (fun f => { f with aerCfg := (f.aerCfg.1, v, f.aerCfg.2.2) })
  | 69 => s.modFn pf1 (fun f => { f with aerCfg := (f.aerCfg.1, f.aerCfg.2.1, v) })
  | 70 => s.modFn pf1 (fun f => { f with ecrc := fieldGet v 6 1 + 2 * fieldGet v 8 1 })
  | _ => s

/-- CONFIGURATION_REQUEST: a read, or a write of `v`, of DWORD `dw`. Retry is answered while a SOFT reset is held too: DESIGN CHOICE, log entry
76. -/
def execConfigurationRequest (pf1 write : Bool) (dw : BitVec 10) (v : BitVec 32) (s : State) : Host.Outcome State Fault Refusal :=
  .next (if !s.pcie.ready || s.power.reset.isSome then s.send (.reply pf1 .retry [])
    else if write then (s.cfgWrite pf1 dw.toNat v).send (.reply pf1 .ok [])
    else match s.cfgRead pf1 dw.toNat with
      | some x => s.send (.reply pf1 .ok (leBytes 4 x.toNat))
      | none => let f := s.free; f.2.send (.reply pf1 .ok (leBytes 4 (f.1.toNat % 2 ^ 32))))

/-! ## After a wake (R628, R638) -/

/-- A host access that has waited for the wake. -/
def State.perform (s : State) (a : HeldAccess) : State :=
  match a with
  | .read w key => let p := s.setupRead w key; p.2.send (.readValue w key p.1)
  | .write w key v => s.setupWrite w key v
  | .bar2 off write n bs => s.bar2Now off write n bs
  | .bar4 pf1 off write n v => s.bar4Now pf1 off write n v

/-- WAKE_COMPLETE: the device is back in RUN after `slow` whole SLOW periods of sleep. -/
def execWakeComplete (slow : BitVec 40) (s : State) : Host.Outcome State Fault Refusal :=
  if s.power.waking && s.power.entering.isNone && s.get Reg.PWR_STAT_STATE != 0 then
    let t := s.wakeUp slow.toNat
    .next (t.power.held.foldl State.perform (t.modPower (fun p => { p with held := [] })))
  else .next s

/-! ## Operating conditions (R77, R78) -/

/-- The conditions that fail now: bit 0 VSUP, 1 VIO33, 2 VDD18, 3 VCORE, 4 Tj. -/
def execOperatingConditionChange (bad : BitVec 5) (s : State) : Host.Outcome State Fault Refusal :=
  .next (s.modPower (fun p => { p with opBad := bad })).checkVoids

end Sys2Proof.Machine
end

