-- ==== Sys2Proof/Machine/MemOps.lean ====
section
/-!
DEFINITION. An engine's access to the internal address map (01, 06, 08, 12): its own memories, its cache, the Hoard aliases, port
buffers, set-up space, Ingot window, tile windows, the Chain's remote window and host memory; and how a load, a store or a LUTI
goes on with what an access answers.
-/

namespace Sys2Proof.Machine

/-- What an engine's access answers. -/
inductive MemRes where
  | val (b : List Byte)
  /-- BUS_ERROR (R18). -/
  | bus
  /-- DMEM_ECC (R155, R263). -/
  | ecc
  /-- The engine waits for an answer. -/
  | wait (x : Stall)
  /-- The target does not take the access yet; the instruction has not issued. -/
  | retry
deriving DecidableEq, Repr

/-! ## Targets -/

/-- An access handled as in R18 or R19, with this ledger code. DEDUCED, log entry 53. -/
def State.busAt (s : State) (e code a : Nat) (write : Bool) : MemRes × State := (.bus, s.recordAccess code e a write)

/-- The engine memory words that `n` bytes from `a` touch, by key. -/
def engWords (e a n : Nat) : List Nat := (List.range ((a + n - 1) / 4 - a / 4 + 1)).map (fun i => Memory.engine e ((a / 4 + i) * 4))

/-- A data read of the engine's own memory (R155): every word it reads is checked, corrected and counted. -/
def State.engLoad (s : State) (e a n : Nat) : MemRes × State :=
  let ws := engWords e a n
  let bad := ws.filter (fun k => s.eccUnc.contains k)
  let t := (ws.filter (fun k => !bad.contains k)).foldl (fun t k => t.engCorr e k) s
  if !bad.isEmpty then (.ecc, t.count (Reg.ENG_ECC_UNC e) bad.length)
  else (.val (t.rd (Memory.engine e a) n), t)

/-- A store to scratch (R155). -/
def State.engStore (s : State) (e a : Nat) (b : List Byte) : MemRes × State :=
  let ws := engWords e a b.length
  if 4 ≤ b.length then
    (.val [], { s with eccUnc := s.eccUnc.filter (fun k => !ws.contains k), eccOne := s.eccOne.filter (fun k => !ws.contains k) }.wr (Memory.engine e a) b)
  else if ws.any (fun k => s.eccUnc.contains k) then (.ecc, s.count (Reg.ENG_ECC_UNC e) 1)
  else (.val [], (ws.foldl (fun t k => t.engCorr e k) s).wr (Memory.engine e a) b)

/-- What the Hoard answers a direct access. -/
def accessRes (p : Access × State) : MemRes × State :=
  (match p.1 with
    | .ok b => .val b
    | .denied _ => .bus
    | .uncorrectable => .ecc, p.2)

/-- Is bank `b` draining (R253)? -/
def State.drains (s : State) (b : Nat) : Bool := s.get (Reg.HRD_BANK_CUR b) == curDrain

/-- Make a core's copy of a line the most recently used one. -/
def Hoard.touch (h : Hoard) (core : Nat) (x : CacheLine) : Hoard := h.setCache core (x :: (h.cache core).filter (fun c => c.line != x.line))

/-- Replace bytes of a list from place `i` on. -/
def patch (l : List Byte) (i : Nat) (b : List Byte) : List Byte := l.take i ++ b ++ l.drop (i + b.length)

/-- A load from the base Hoard range (R152, R153, R253, R257). -/
def State.cachedLoad (s : State) (e : Nat) (op : MemOp) (o n : Nat) : MemRes × State :=
  match s.hoardDeny e o n with
  | some c => s.busAt e c (Memory.hoard o) false
  | none =>
    let core := s.coreOf e
    let line := lineOf o
    let miss := fun (s : State) =>
      if s.drains (bankOf o) then accessRes (s.hoardRead e o n) else (MemRes.wait (.miss op line false false { o := o, n := n, w := none, got := none }), s)
    match s.hoard.copy core line with
    | none => miss s
    | some x =>
      if x.parity then (if x.own then (.ecc, s) else miss (s.modHoard (fun h => h.dropCopy core line)))
      else (.val ((x.data.drop (o % 64)).take n), s.modHoard (fun h => h.touch core x))

/-- A store to the base Hoard range (R152, R153, R253, R258). -/
def State.cachedStore (s : State) (e : Nat) (op : MemOp) (o : Nat) (b : List Byte) : MemRes × State :=
  match s.hoardDeny e o b.length with
  | some c => s.busAt e c (Memory.hoard o) true
  | none =>
    let core := s.coreOf e
    let line := lineOf o
    let miss := fun (hv : Bool) (s : State) =>
      if s.drains (bankOf o) then accessRes (s.hoardWrite e o b) else (MemRes.wait (.miss op line true hv { o := o, n := b.length, w := some b, got := none }), s)
    match s.hoard.copy core line with
    | none => miss false s
    | some x =>
      if x.parity then (if x.own then (.ecc, s) else miss false (s.modHoard (fun h => h.dropCopy core line)))
      else if x.own then (.val [], s.modHoard (fun h => h.touch core { x with data := patch x.data (o % 64) b }))
      else miss true s

/-- A write through the bit-set (`clear` false) or bit-clear alias (R250, R252, R262, R263). -/
def State.bitStore (s : State) (e o : Nat) (clear : Bool) (b : List Byte) : MemRes × State :=
  let t := s.recallAll o b.length true
  let p := t.hoardCheck e o b.length true
  if p.1 then (.ecc, p.2)
  else
    let old := p.2.rd (Memory.hoard o) b.length
    (.val [], p.2.wr (Memory.hoard o) (List.zipWith (fun x v => if clear then x &&& ~~~ v else x ||| v) old b))

/-- Is `a` in an alias of the Hoard? -/
def inAlias (a : Nat) : Bool := decide (0x11000000 ≤ a ∧ a < 0x14000000)
def inRotate (a : Nat) : Bool := decide (0x13000000 ≤ a ∧ a < 0x14000000)

/-- Is an alias access handled as in R18 as a whole: a quad of the bit aliases, or a reach beyond the last offset (R250, R251)? -/
def aliasBad (a n : Nat) : Bool := (!inRotate a && n == 16) || decide (0x1000000 < a % 0x1000000 + n)

/-- What two operations of one access answer together: the first that fails decides. -/
def MemRes.join (a b : MemRes) : MemRes :=
  match a, b with
  | .val x, .val y => .val (x ++ y)
  | .val _, y => y
  | x, _ => x

/-- An alias access: one operation for each line it touches, the lower address first, each denied by itself (R241, R248, R251, R256, R269).
`f` is what an operation of `n` bytes at offset `o` does when it is not denied. The second is performed also when the first was denied or
uncorrectable, on which the spec is silent: DESIGN CHOICE, log entry 94. -/
def State.aliasOps (s : State) (e a n : Nat) (write : Bool) (f : State → Nat → Nat → MemRes × State) : MemRes × State :=
  if aliasBad a n then s.busAt e codeAddress a write
  else (linePieces a n).foldl (fun p x =>
    let o := x.1 % 0x1000000
    let q := match p.2.hoardDeny e o x.2 with
      | some c => p.2.busAt e c x.1 write
      | none => f p.2 o x.2
    (p.1.join q.1, q.2)) (.val [], s)

/-- The tile of a window that the engine may reach (R742), when `n` bytes at `a` lie in the block RAM (`some (true)`) or in the user
registers. DEDUCED, log entry 53. -/
def State.tileHas (s : State) (e a n : Nat) : Option Bool :=
  let t := (a - 0x50000000) / 0x40000
  let o := (a - 0x50000000) % 0x40000
  if 5 ≤ t ∨ s.engOwner e = 3 ∨ s.bindOwner 2 t ≠ s.engOwner e ∨ n = 16 then none
  else if o < 0x4000 then some true
  else if 0x10000 ≤ o ∧ o < 0x10100 then some false
  else none

/-- The host address of an access at internal address `a`, or the ledger code that refuses it (R131, R132, R150). DEDUCED, log entry 53. -/
def State.xlat (s : State) (a : Nat) (write : Bool) : Nat ⊕ Nat :=
  let i := (a - 0x80000000) / 0x4000000
  let base := (s.get (Reg.DEV_XLAT_HI_BASE i)) * 2 ^ 32 + s.get (Reg.DEV_XLAT_LO_BASE i) * 2 ^ 12
  let x := base + (a - 0x80000000) % 0x4000000
  if !s.pcie.pf0.bme || s.pcie.pf0.d3 then .inr 0x0005
  else if !s.on (Reg.DEV_XLAT_LO_V i) || (write && !s.on (Reg.DEV_XLAT_LO_WE i)) || decide (2 ^ 64 ≤ x) then .inr codeAddress
  else .inl x

/-- The parts of an access of `n` bytes at `a` to the host window: it is split where it crosses from one entry to the next (R133). -/
def hostParts (a n : Nat) : List (Nat × Nat) :=
  let k := 0x4000000 - a % 0x4000000
  if n ≤ k then [(a, n)] else [(a, k), (a + k, n - k)]

/-- May a request to host memory be sent at all now? -/
def State.hostReachable (s : State) : Bool := !s.pcie.pf0.flr && s.on Reg.DEV_PCISTAT_LINKUP

/-- The size code of an RD or WR cell. -/
def sizeCode (n : Nat) : Nat := if n = 1 then 0 else if n = 2 then 1 else if n = 4 then 2 else 3

/-- An access to the Chain remote window (R405, R406, R408, R412): `w` the bytes of a store. DEDUCED, log entry 53. -/
def State.remoteAt (s : State) (e : Nat) (op : MemOp) (a n : Nat) (w : Option (List Byte)) : MemRes × State :=
  let dev := (a - 0x60000000) / 0x1000000
  let pid := s.get (Reg.PRS_ID_PID (s.engOwner e))
  if !s.etOpen then s.busAt e codeAddress a w.isSome
  else if dev = s.chnId then
    let p := s.remoteAccess pid (a % 0x1000000) n w
    (if p.1 = 0 then .val p.2.1 else .bus, p.2.2)
  else if !s.rtValid dev then (.bus, s.count Reg.CHN_DROP_NOROUTE 1)
  else match s.freeTag with
    | none => (.retry, s)
    | some t =>
      let head := leBytes 4 (a % 0x1000000) ++ [BitVec.ofNat 8 (sizeCode n), BitVec.ofNat 8 pid, 0, 0]
      let s := s.modChain (fun c => { c with tags := (t, Fin.ofNat 16 e) :: c.tags, nextTag := (t + 1) % 256 })
      (.wait (.remote op t), s.sendEtT (s.strikeRun e) 0 (if w.isSome then 1 else 0) dev t (head ++ w.getD []))

/-- Does the preempted phase task of engine `e` wait for an access to the Chain window, or to the host window? The event task's access to
the same range waits until it has completed (R152). -/
def State.preWaits (s : State) (e : Nat) (host : Bool) : Bool :=
  (s.engN e).pre.any (fun r => match r.stall with
    | .remote .. => !host
    | .hostRead .. => host
    | _ => false)

/-- A load of `n` bytes at internal address `a`, set-up space apart. DEDUCED, log entry 53. -/
def State.loadAt (s : State) (e : Nat) (op : MemOp) (a n : Nat) : MemRes × State :=
  if a < 0x20000 ∨ (0x40000 ≤ a ∧ a < 0x80000) then s.engLoad e a n
  else if 0x10000000 ≤ a ∧ a < 0x11000000 then s.cachedLoad e op (a - 0x10000000) n
  else if inAlias a then
    s.aliasOps e a n false (fun t o k => accessRes (t.readOp e o k false))
  else if 0x20000000 ≤ a ∧ a < 0x20200000 then (.val (s.rd a n), s)
  else if 0x40000000 ≤ a ∧ a < 0x40800000 then
    let x := a - 0x40000000
    if s.ingReadable (x / 0x10000) then
      let p := s.ingRead x n
      (.val (p.1.getD (List.replicate n 0xFF)), p.2.ingServed)
    else (.retry, s.ingAsk)
  else if 0x50000000 ≤ a ∧ a < 0x50140000 then
    match s.tileHas e a n with
    | some true => (.val (s.rd a n), s)
    | some false => let f := s.free; (.val (leBytes n f.1.toNat), f.2)
    | none => s.busAt e codeAddress a false
  else if 0x60000000 ≤ a ∧ s.preWaits e (decide (0x80000000 ≤ a)) then (.retry, s)
  else if 0x60000000 ≤ a ∧ a < 0x80000000 then s.remoteAt e op a n none
  else if 0x80000000 ≤ a then
    -- a refused part does not stop the other part (R133)
    let refused := (hostParts a n).any (fun p => (s.xlat p.1 false).isRight)
    (if refused then .bus else .wait (.hostRead op false), (hostParts a n).foldl (fun (t : State) p =>
      match s.xlat p.1 false with
      | .inr c => (t.busAt e c p.1 false).2
      | .inl x => if s.hostReachable then t.issue (.hostRead (.xlat (Fin.ofNat 16 e)) (BitVec.ofNat 64 x) p.2 (s.strikeRun e)) else t) s)
  else s.busAt e codeAddress a false

/-- A store of bytes at internal address `a`, set-up space apart. DEDUCED, log entry 53. -/
def State.storeAt (s : State) (e : Nat) (op : MemOp) (a : Nat) (b : List Byte) : MemRes × State :=
  if a < 0x20000 then (.bus, s)
  else if 0x40000 ≤ a ∧ a < 0x80000 then s.engStore e a b
  else if 0x10000000 ≤ a ∧ a < 0x11000000 then s.cachedStore e op (a - 0x10000000) b
  else if inAlias a then
    s.aliasOps e a b.length true (fun t o k =>
      let d := (b.drop (o - a % 0x1000000)).take k
      if inRotate a then accessRes (t.writeOp e o d) else t.bitStore e o (decide (0x12000000 ≤ a)) d)
  else if 0x20000000 ≤ a ∧ a < 0x20200000 then (.val [], s.wr a b)
  else if 0x50000000 ≤ a ∧ a < 0x50140000 then
    match s.tileHas e a b.length with
    | some true => (.val [], s.wr a b)
    | some false => (.val [], s)
    | none => s.busAt e codeAddress a true
  else if 0x60000000 ≤ a ∧ s.preWaits e (decide (0x80000000 ≤ a)) then (.retry, s)
  else if 0x60000000 ≤ a ∧ a < 0x80000000 then s.remoteAt e op a b.length (some b)
  else if 0x80000000 ≤ a then
    let refused := (hostParts a b.length).any (fun p => (s.xlat p.1 true).isRight)
    (if refused then .bus else .val [], (hostParts a b.length).foldl (fun (t : State) p =>
      match s.xlat p.1 true with
      | .inr c => (t.busAt e c p.1 true).2
      | .inl x => if s.hostReachable then t.issue (.hostWrite (BitVec.ofNat 64 x) ((b.drop (p.1 - a)).take p.2)) else t.recordAccess 0x0006 e p.1 true) s)
  else s.busAt e codeAddress a true

/-! ## The run that accesses: the current task, or the phase task that an event task preempts (R175) -/

def State.memCtx (s : State) (e : Nat) (pre : Bool) : Ctx := if pre then (s.engN e).ph else s.ctxOf e

def State.memRun (s : State) (e : Nat) (pre : Bool) : Option Run := if pre then (s.engN e).pre else (s.engN e).cur

def State.modMemRun (s : State) (e : Nat) (pre : Bool) (f : Run → Run) : State :=
  if pre then s.modEng e (fun g => { g with pre := g.pre.map f }) else s.modRun e f

/-- The context of that run becomes `c`. -/
def State.setMemCtx (s : State) (e : Nat) (pre : Bool) (c : Ctx) : State :=
  if pre then s.modEng e (fun g => { g with ph := c })
  else match (s.engN e).cur with
    | some r => s.modCtx e r.kind (fun _ => c)
    | none => s

/-- The instruction completes with context `c`. -/
def State.memDone (s : State) (e : Nat) (pre : Bool) (c : Ctx) : State :=
  let s := (s.setMemCtx e pre c.complete).modMemRun e pre (fun r => { r with first := false, stall := .none, lutGot := [] })
  if pre then s else s.haltWaiting e

/-- The access traps, with context `c`; a preempted task takes the trap when it resumes. -/
def State.memTrap (s : State) (e : Nat) (pre : Bool) (c : Ctx) (cause : Nat) : State :=
  let s := (s.setMemCtx e pre c).modMemRun e pre (fun r => { r with first := false, stall := .none, lutGot := [] })
  if pre then s.modMemRun e pre (fun r => { r with trap := some cause }) else (s.trap e cause).haltWaiting e

/-! ## Loads and stores (R205, R206, R230) -/

def memSize (sz : Fin 4) : Nat := match sz with
  | 0 => 1
  | 1 => 2
  | 2 => 4
  | _ => 16

/-- The destination registers of an LD take the bytes. -/
def Ctx.load (c : Ctx) (d : Nat) (sz : Fin 4) (sx : Bool) (b : List Byte) : Ctx :=
  match sz with
  | 0 => c.setD d (let x := BitVec.ofNat 8 (leNat b); if sx then x.signExtend 32 else x.setWidth 32)
  | 1 => c.setD d (let x := BitVec.ofNat 16 (leNat b); if sx then x.signExtend 32 else x.setWidth 32)
  | 2 => c.setD d (BitVec.ofNat 32 (leNat b))
  | _ => (List.range 4).foldl (fun c i => c.setD (d + i) (BitVec.ofNat 32 (leNat ((b.drop (4 * i)).take 4)))) c

/-- The bytes an ST stores. -/
def Ctx.store (c : Ctx) (d : Nat) (sz : Fin 4) : List Byte :=
  match sz with
  | 0 => leBytes 1 (c.D d).toNat
  | 1 => leBytes 2 (c.D d).toNat
  | 2 => leBytes 4 (c.D d).toNat
  | _ => (List.range 4).flatMap (fun i => leBytes 4 (c.D (d + i)).toNat)

/-- The post-modify of an access with pm = 1. -/
def Ctx.post (c : Ctx) (a : Nat) (pm : Bool) (disp : BitVec 15) : Ctx := if pm then c.bump a disp.toInt else c

/-- Is an access of this size at this address misaligned (R206)? -/
def misaligned (a : Nat) (sz : Fin 4) : Bool := a % memSize sz != 0 && !(sz == 2 && inRotate a)

/-! ## LUTI (R217 to R219) -/

/-- The entries that a LUTI reads. -/
def Ctx.lutNeeds (c : Ctx) (s l : Nat) (f : BitVec 5) : List Nat :=
  let n := (c.D l).toNat
  let i := (c.D s).toNat / 2 ^ f.toNat
  if n = 0 then [] else if n - 1 ≤ i then [n - 1] else [i, i + 1]

def Ctx.lutAddr (c : Ctx) (a : Nat) (half : Bool) (k : Nat) : Nat :=
  ((c.BNK (a / 2)).toNat * 0x10000 + (c.A a).toNat + (if half then 2 else 4) * k) % 2 ^ 32

/-- An entry as a signed number. -/
def lutValue (half : Bool) (v : Nat) : Int := if half then (BitVec.ofNat 16 v).toInt else (BitVec.ofNat 32 v).toInt

/-- The result and the flags, once every entry is read. -/
def Ctx.lutDone (c : Ctx) (d s l : Nat) (f : BitVec 5) (half : Bool) (got : List (Nat × Nat)) : Ctx :=
  let y := fun (k : Nat) => lutValue half (((got.find? (fun p => p.1 == k)).map (fun p => p.2)).getD 0)
  let n := f.toNat
  let r := (c.D s).toNat % 2 ^ n
  let x : W32 × Bool := match c.lutNeeds s l f with
    | [] => (0, true)
    | [k] => (BitVec.ofInt 32 (y k), true)
    | k :: k' :: _ =>
      let p := (y k' - y k) * r
      (BitVec.ofInt 32 (y k + (if n = 0 then 0 else (p + 2 ^ (n - 1)) / 2 ^ n)), false)
  let q := lutF c.flg x.1 x.2
  { c.setD d q.1 with flg := q.2 }

/-! ## How an access goes on -/

/-- Outcomes that no data brings. -/
def State.memStop (s : State) (e : Nat) (pre : Bool) (op : MemOp) (r : MemRes) : State :=
  let c := s.memCtx e pre
  match r with
  | .wait x => s.modMemRun e pre (fun r => { r with first := false, stall := x })
  | .bus => match op with
    | .ld d a sz pm sx disp => s.memTrap e pre ((c.load d sz sx (List.replicate 16 0)).post a pm disp) causeBus
    | .st _ a _ pm disp => s.memTrap e pre (c.post a pm disp) causeBus
    | .luti d _ _ _ _ _ => s.memTrap e pre (c.setD d 0) causeBus
  | .ecc => match op with
    | .ld d _ sz _ sx _ => s.memTrap e pre (c.load d sz sx (List.replicate 16 0)) causeDmemEcc
    | .st .. => s.memTrap e pre c causeDmemEcc
    | .luti d _ _ _ _ _ => s.memTrap e pre (c.setD d 0) causeDmemEcc
  | _ => s

/-- A LUTI has read entry `k`. -/
def State.lutAdd (s : State) (e : Nat) (pre : Bool) (k : Nat) (b : List Byte) : State :=
  s.modMemRun e pre (fun r => { r with first := false, stall := .none, lutGot := (k, leNat b) :: r.lutGot })

/-- The first entry that a LUTI has still to read; none when it has all. -/
def State.lutNext (s : State) (e : Nat) (pre : Bool) (sr l : Nat) (f : BitVec 5) : Option Nat :=
  let got := ((s.memRun e pre).map (fun (r : Run) => r.lutGot)).getD []
  ((s.memCtx e pre).lutNeeds sr l f).find? (fun k => !got.any (fun p => p.1 == k))

/-- A LUTI goes on: it reads what it lacks, at most two entries, and completes. -/
def State.lutGo : Nat → State → Nat → Bool → MemOp → State
  | 0, s, _, _, _ => s
  | n + 1, s, e, pre, op =>
    match op with
    | .luti d a sr l f half =>
      let c := s.memCtx e pre
      match s.lutNext e pre sr l f with
      | none => s.memDone e pre (c.lutDone d sr l f half (((s.memRun e pre).map (fun (r : Run) => r.lutGot)).getD []))
      | some k =>
        let x := c.lutAddr a half k
        let w := if half then 2 else 4
        if 0x30000000 ≤ x ∧ x < 0x30010000 then
          let key := x - 0x30000000
          if half then State.lutGo n ((s.accessFault (.engine (Fin.ofNat 16 e)) key 1).lutAdd e pre k (List.replicate w 0)) e pre op
          else if 0xF000 ≤ key ∧ !s.mbxReach (.engine (Fin.ofNat 16 e)) ((key - 0xF000) / 0x100) then
            (s.recordAccess codeSecure e x false).memStop e pre op .bus
          else
            let p := s.setupRead (.engine (Fin.ofNat 16 e)) key
            State.lutGo n (p.2.lutAdd e pre k (leBytes 4 p.1.toNat)) e pre op
        else
          match s.loadAt e op x w with
          | (.val b, t) => State.lutGo n (t.lutAdd e pre k b) e pre op
          | (r, t) => t.memStop e pre op r
    | _ => s

/-- The access of an LD or ST, or the next one of a LUTI, issues, or issues again once its line has come. -/
def State.memGo (s : State) (e : Nat) (pre : Bool) (op : MemOp) : State :=
  let c := s.memCtx e pre
  match op with
  | .ld d a sz pm sx disp =>
    match s.loadAt e op (c.ea a pm disp).toNat (memSize sz) with
    | (.val b, t) => t.memDone e pre ((c.load d sz sx b).post a pm disp)
    | (r, t) => t.memStop e pre op r
  | .st d a sz pm disp =>
    match s.storeAt e op (c.ea a pm disp).toNat (c.store d sz) with
    | (.val _, t) => t.memDone e pre (c.post a pm disp)
    | (r, t) => t.memStop e pre op r
  | .luti .. => if pre then (State.lutGo 1 s e pre op).modMemRun e pre (fun r => { r with stall := .none }) else State.lutGo 3 s e pre op

/-- What a waiting access was answered. -/
def State.memAnswer (s : State) (e : Nat) (pre : Bool) (op : MemOp) (r : MemRes) : State :=
  let c := s.memCtx e pre
  match r with
  | .val b => match op with
    | .ld d a sz pm sx disp => s.memDone e pre ((c.load d sz sx b).post a pm disp)
    | .st _ a _ pm disp => s.memDone e pre (c.post a pm disp)
    | .luti _ _ sr l f _ =>
      match s.lutNext e pre sr l f with
      | none => s
      | some k => let t := s.lutAdd e pre k b; if pre then t else State.lutGo 2 t e pre op
  | x => s.memStop e pre op x

/-- The internal address that a waiting access names. -/
def State.memAddr (s : State) (e : Nat) (pre : Bool) (op : MemOp) : Nat :=
  let c := s.memCtx e pre
  match op with
  | .ld _ a _ pm _ disp => (c.ea a pm disp).toNat
  | .st _ a _ pm disp => (c.ea a pm disp).toNat
  | .luti _ a sr l f half => c.lutAddr a half ((s.lutNext e pre sr l f).getD 0)

/-- The run of engine `e`, a preempted one first, whose stall a test picks. -/
def State.waiter (s : State) (e : Nat) (p : Stall → Bool) : Option (Bool × Run) :=
  match (s.engN e).pre with
  | some r => if p r.stall then some (true, r) else (s.engN e).cur.bind (fun (r : Run) => if p r.stall then some (false, r) else none)
  | none => (s.engN e).cur.bind (fun (r : Run) => if p r.stall then some (false, r) else none)

end Sys2Proof.Machine
end

