-- ==== Sys2Proof/Machine/GrgMem.lean ====
section
/-!
DEFINITION. The GRG instructions that touch memory, the set-up space, the emit queue or the Chain (07), and what the host and the
Chain answer to them (R135, R408).
-/

namespace Sys2Proof.Machine

/-! ## LD, ST, LUTI (R205 to R207, R217 to R219, R230) -/

/-- Does an access of this task's engine to a set-up offset meet R19? -/
def State.setupDenied (s : State) (e : Fin 16) (key : Nat) : Bool :=
  decide (0xF000 ≤ key) && !s.mbxReach (.engine e) ((key - 0xF000) / 0x100)

/-- A load from the set-up space: only an aligned word is served (R4). DEDUCED, log entry 53. -/
def State.setupLoad (s : State) (e : Fin 16) (op : MemOp) (key : Nat) (word : Bool) (fin : List Byte → State → State) : State :=
  if !word then (fin (List.replicate 4 0) s).accessFault (.engine e) key 1
  else if s.setupDenied e key then (s.recordAccess codeSecure e (0x30000000 + key) false).memStop e false op .bus
  else
    -- the value is the register's as it stands; what the read itself does follows the instruction
    ((fin (leBytes 4 (s.setupRead (.engine e) key).1.toNat) s).setupRead (.engine e) key).2

/-- LD (R205, R206). -/
def iLd (e d : Fin 16) (a : Fin 8) (sz : Fin 4) (pm sx : Bool) (disp : BitVec 15) : Effect := fun st _ c =>
  let x := (c.ea a pm disp).toNat
  let op := MemOp.ld d a sz pm sx disp
  if (sx && decide (2 ≤ sz.val)) || (sz == 3 && d.val % 4 != 0) then st.trap e causeIllegal
  else if misaligned x sz then st.trap e causeAlign
  else if 0x30000000 ≤ x ∧ x < 0x30010000 then
    st.setupLoad e op (x - 0x30000000) (sz == 2) (fun b t => t.memDone e false ((c.load d sz sx b).post a pm disp))
  else st.memGo e false op

/-- LD, issued by engine e. -/
def execLd (e d : Fin 16) (a : Fin 8) (sz : Fin 4) (pm sx : Bool) (disp : BitVec 15) (s : State) : Host.Outcome State Fault Refusal :=
  .next (s.issueG e (iLd e d a sz pm sx disp))

/-- A store to the set-up space: only an aligned word is taken (R4). DEDUCED, log entry 53. -/
def State.setupStore (s : State) (e : Fin 16) (op : MemOp) (key : Nat) (word : Bool) (v : W32) (fin : State → State) : State :=
  if !word then (fin s).accessFault (.engine e) key 1
  else if s.setupDenied e key then (s.recordAccess codeSecure e (0x30000000 + key) true).memStop e false op .bus
  else (fin s).setupWrite (.engine e) key v

/-- ST (R205, R206). -/
def iSt (e d : Fin 16) (a : Fin 8) (sz : Fin 4) (pm : Bool) (disp : BitVec 15) : Effect := fun st _ c =>
  let x := (c.ea a pm disp).toNat
  let op := MemOp.st d a sz pm disp
  if sz == 3 && d.val % 4 != 0 then st.trap e causeIllegal
  else if misaligned x sz then st.trap e causeAlign
  else if 0x30000000 ≤ x ∧ x < 0x30010000 then
    st.setupStore e op (x - 0x30000000) (sz == 2) (c.D d) (fun t => t.memDone e false (c.post a pm disp))
  else st.memGo e false op

/-- ST, issued by engine e. -/
def execSt (e d : Fin 16) (a : Fin 8) (sz : Fin 4) (pm : Bool) (disp : BitVec 15) (s : State) : Host.Outcome State Fault Refusal :=
  .next (s.issueG e (iSt e d a sz pm disp))

/-- LUTI (R217 to R219). -/
def iLuti (e d : Fin 16) (a : Fin 8) (s l : Fin 16) (f : BitVec 5) (half : Bool) : Effect := fun st _ c =>
  if (c.lutNeeds s l f).any (fun k => c.lutAddr a half k % (if half then 2 else 4) != 0) then st.trap e causeAlign
  else st.memGo e false (.luti d a s l f half)

/-- LUTI, issued by engine e. -/
def execLuti (e d : Fin 16) (a : Fin 8) (rs l : Fin 16) (f : BitVec 5) (half : Bool) (s : State) : Host.Outcome State Fault Refusal :=
  .next (s.issueG e (iLuti e d a rs l f half))

/-! ## SEVR (R222) -/

/-- Has the request channel of the output to a device a credit for a cell of this device (R222, R411)? -/
def State.etCredit (s : State) (dev : Nat) : Bool := (s.linkD (s.rtLink dev)).credit (cellOf 1 0 3 dev s.chnId 6 0 (.bytes []))

/-- SEVR: a local event, a SEV cell, or BUS_ERROR. While the output's channel has no credit the engine stalls: the instruction has not
issued. -/
def iSevr (e : Fin 16) (line : Fin 4) (s : Fin 16) : Effect := fun st r c =>
  let v := (c.D s).toNat
  let dev := v / 2 ^ 16 % 32
  let slot := st.engOwner e
  if !st.etOpen then st.trap e causeBus
  else if dev = st.chnId then (st.done e c).sevMask slot line (v % 2 ^ 16)
  else if !st.rtValid dev then st.trap e causeBus
  else if !st.etCredit dev then st
  else (st.done e c).sendSev e r.strike dev (leBytes 2 v ++ [BitVec.ofNat 8 line.val, 0, 0, BitVec.ofNat 8 (st.get (Reg.PRS_ID_PID slot))])

/-- SEVR, issued by engine e. -/
def execSevr (e : Fin 16) (line : Fin 4) (rs : Fin 16) (s : State) : Host.Outcome State Fault Refusal := .next (s.issueG e (iSevr e line rs))

/-! ## EMW and EMT (R59, R226, R227) -/

/-- The emit queue holds 64 entries. -/
def emitSize : Nat := 64

/-- A post: to a full queue it is discarded and the task is stopped as an overrun. -/
def State.post (s : State) (e : Nat) (r : Run) (c : Ctx) (tx : Bool) (a v : W32) : State :=
  if emitSize ≤ (s.engN e).emitq.length then s.overrun e
  else
    let x : EmitEntry := { slot := r.slot, kind := r.kind, live := true, tx := tx, a := a, v := v }
    (s.modEng e (fun g => { g with emitq := g.emitq ++ [x] })).done e c

/-- EMW. -/
def iEmw (e s t : Fin 16) : Effect := fun st r c =>
  let a := c.D s
  if a.toNat % 4 ≠ 0 then st.trap e causeAlign
  else if 0x10000 ≤ a.toNat then st.trap e causeBus
  else st.post e r c false a (c.D t)

/-- EMW, issued by engine e. -/
def execEmw (e rs t : Fin 16) (s : State) : Host.Outcome State Fault Refusal := .next (s.issueG e (iEmw e rs t))

/-- May the engine post this request (R227)? -/
def State.emtOk (s : State) (e : Nat) (a : Nat) (ctl : W32) : Bool :=
  (decide (0x20000000 ≤ a ∧ a < 0x20200000) || decide (0x10000000 ≤ a ∧ a < 0x11000000))
    && s.engOwner e != 3 && s.portOwner (ctlPort ctl) == s.engOwner e && ctlLen ctl != 0
    && !ctl.getLsbD 15 && !ctl.getLsbD 19 && fieldGet ctl 24 8 == 0

/-- EMT. -/
def iEmt (e s t : Fin 16) : Effect := fun st r c =>
  if st.emtOk e (c.D s).toNat (c.D t) then st.post e r c true (c.D s) (c.D t) else st.trap e causeBus

/-- EMT, issued by engine e. -/
def execEmt (e rs t : Fin 16) (s : State) : Host.Outcome State Fault Refusal := .next (s.issueG e (iEmt e rs t))

/-! ## Answers of the Chain (R408) -/

/-- Does a run wait for the response under this tag? -/
def isRemote (tag : Nat) (x : Stall) : Bool :=
  match x with
  | .remote _ t => t == tag
  | _ => false

/-- The wait under a tag ends; without a run that waits for it, what arrives is discarded. -/
def State.endRemote (s : State) (tag : Nat) (r : MemRes) : State :=
  match s.chain.tags.find? (fun x => x.1 == tag) with
  | none => s
  | some (_, e) =>
    let s := s.dropTag tag
    match s.waiter e (isRemote tag) with
    | none => s
    | some (pre, run) =>
      match run.stall with
      | .remote op _ => s.memAnswer e pre op r
      | _ => s

/-- RDR: the 64 payload bytes of a read response. -/
def execRdr (tag : BitVec 8) (b : List Byte) (s : State) : Host.Outcome State Fault Refusal :=
  if b.length ≠ 64 then .fault .illFormed
  else .next (s.endRemote tag.toNat (if byteAt b 0 = 0 then .val ((b.drop 8).take 16) else .bus))

/-- WRA: the 64 payload bytes of a write response. -/
def execWra (tag : BitVec 8) (b : List Byte) (s : State) : Host.Outcome State Fault Refusal :=
  if b.length ≠ 64 then .fault .illFormed
  else .next (s.endRemote tag.toNat (if byteAt b 0 = 0 then .val [] else .bus))

/-- CHAIN_TIMEOUT: no response within CHN_RTMO. The entry names the UID of the device asked, where this one knows it. DESIGN CHOICE, log entry 54. -/
def execChainTimeout (tag : BitVec 8) (s : State) : Host.Outcome State Fault Refusal :=
  match s.chain.tags.find? (fun x => x.1 == tag.toNat) with
  | none => .next s
  | some (_, e) =>
    let dev := match s.waiter e (isRemote tag.toNat) with
      | some (pre, r) => (match r.stall with
        | .remote op _ => some ((s.memAddr e pre op - 0x60000000) / 0x1000000)
        | _ => none)
      | none => none
    let uid := (s.chain.ids.find? (fun x => some x.2 == dev)).map (fun x => x.1)
    let p : BitVec 64 × State := match uid with
      | some u => (u, s)
      | none => s.free
    .next (((p.2.count Reg.CHN_RTOCNT_COUNT 1).record 0x0804 0xFF p.1.toNat).endRemote tag.toNat .bus)

/-! ## Answers of the host (R135, R144) -/

def isHostRead (x : Stall) : Bool :=
  match x with
  | .hostRead _ _ => true
  | _ => false

/-- TRANSLATED_READ_COMPLETE: the read of engine e's current task, or of the preempted one (`pre`), has its data, or has ended in a
timeout, an unsupported request, an abort or poison. What arrives for a read that a reset lost is discarded. -/
def execTranslatedReadComplete (e : Fin 16) (pre ok : Bool) (b : List Byte) (s : State) : Host.Outcome State Fault Refusal :=
  match s.memRun e pre with
  | none => .next s
  | some r =>
    match r.stall with
    | .hostRead op lost =>
      let s := s.landed (.xlat e) false
      if ok then .next (if lost then s else s.memAnswer e pre op (.val b))
      else .next ((s.recordAccess 0x0006 e (s.memAddr e pre op) false).memAnswer e pre op .bus)
    | _ => .next s

/-! ## Resets and halts (R186 to R189, R196, R299) -/

/-- ENGINE_RESET: ENG_n_CTRL.RST is written. DEDUCED, log entry 40. -/
def execEngineReset (w : Who) (n : Fin 16) (s : State) : Host.Outcome State Fault Refusal :=
  .next (s.setupWrite w (0x3100 + 0x40 * n.val) 1)

/-- ENGINE_RESET_DONE: the engine leaves reset while its slot is RUNNING; else it stays in reset until the slot starts it. -/
def execEngineResetDone (e : Fin 16) (s : State) : Host.Outcome State Fault Refusal :=
  .next (if (s.engN e).inReset && s.slotState (s.engOwner e) == slotRunning then
    s.modEng e (fun g => { g with inReset := false, holdOff := true }) else s)

/-- DEBUG_HALT: ENG_n_DBG is written, HALT 1. -/
def execDebugHalt (w : Who) (n : Fin 16) (s : State) : Host.Outcome State Fault Refusal := .next (s.writeEngDbg w n 1)

end Sys2Proof.Machine
end

