-- ==== Sys2Proof/Machine/Directory.lean ====
section
/-!
DEFINITION. The Hoard directory's commands (08, Coherence): requests of the engines for lines, snoops, answers, write-backs.
-/

namespace Sys2Proof.Machine

/-! ## Filling a line (R152) -/

/-- Copies of a core in the set of a line, most recently used first. -/
def Hoard.ways (h : Hoard) (core line : Nat) : List CacheLine := (h.cache core).filter (fun c => c.line / 64 % 64 == line / 64 % 64 && c.line != line)

/-- Room for a line: the least recently used way of a full set goes; a dirty line goes out as a WB on the core's channel. DEDUCED, log entry 55. -/
def Hoard.evict (h : Hoard) (core line : Nat) : Hoard :=
  match (h.ways core line).drop 1 with
  | [] => h
  | x :: _ =>
    let h := h.dropCopy core x.line
    if x.own then h.setChannel core (h.channel core ++ [.wb x.line x.data x.parity]) else h

/-- Is the line that goes a dirty one with a parity error (R153)? -/
def Hoard.evictsBad (h : Hoard) (core line : Nat) : Bool :=
  match (h.ways core line).drop 1 with
  | [] => false
  | x :: _ => x.own && x.parity

/-- A core takes a line. DEDUCED, log entry 55. -/
def Hoard.fill (h : Hoard) (core line : Nat) (own : Bool) (data : List Byte) : Hoard :=
  (h.evict core line).touch core { line := line, own := own, data := data, parity := false }

/-- A core takes a line; a dirty line with a parity error that goes for it makes its owner trap (R153, R261). -/
def State.fillLine (s : State) (core line : Nat) (own : Bool) (data : List Byte) : State :=
  let t := s.modHoard (fun h => h.fill core line own data)
  if s.hoard.evictsBad core line then t.raiseEcc core else t

/-! ## Serving a request (R253, R256 to R258, R741) -/

/-- Is this stall a miss on the line? -/
def isMiss (line : Nat) (x : Stall) : Bool :=
  match x with
  | .miss _ l _ _ _ => l == line
  | _ => false

/-- An access that missed goes on: it issues again, unless it has been performed before a direct access that waited for it (R260). -/
def State.missGo (s : State) (e : Nat) (pre : Bool) (op : MemOp) (got : Option (List Byte)) : State :=
  match got with
  | some b => s.memAnswer e pre op (.val b)
  | none => s.memGo e pre op

/-- The waiting instruction of engine `e` that missed on the line goes on with `f`. -/
def State.onMiss (s : State) (e line : Nat) (f : Bool → MemOp → Option (List Byte) → State → State) : State :=
  match s.waiter e (isMiss line) with
  | none => s
  | some (pre, r) =>
    match r.stall with
    | .miss op _ _ _ a => f pre op a.got s
    | _ => s

/-- The holders of a line apart from one core. -/
def sharers (d : Option DirEntry) : List Nat :=
  match d with
  | some (.shared cs) => cs
  | some (.owned c) => [c]
  | none => []

/-- The request is granted: `own` for an RDX. The line comes from the bank, where its newest data is; an upgrade whose copy still
counts takes none. An uncorrectable granule gives no copy (R741). DEDUCED, log entry 55. -/
def State.grant (s : State) (e line : Nat) (own hv : Bool) (holders : List Nat) : State :=
  let core := s.coreOf e
  let entry := if own then DirEntry.owned core else .shared (core :: holders.filter (fun c => c != core))
  if hv && holders.contains core && (s.hoard.copy core line).isSome then
    (s.modHoard (fun h => (h.modCopy core line (fun x => { x with own := true })).setEntry line (some entry))).onMiss e line
      (fun pre op got t => t.missGo e pre op got)
  else
    let p := s.hoardCheck e line 64 false
    if p.1 then
      let rest := holders.filter (fun c => c != core)
      let s := p.2.modHoard (fun h => (h.dropCopy core line).setEntry line (if own || rest.isEmpty then none else some (.shared rest)))
      s.onMiss e line (fun pre op got t => t.memAnswer e pre op (match got with
        | some b => .val b
        | none => .ecc))
    else if (p.2.engN e).inReset then p.2
    else
      let data := p.2.rd (Memory.hoard line) 64
      ((p.2.fillLine core line own data).modHoard (fun h => h.setEntry line (some entry))).onMiss e line
        (fun pre op got t => t.missGo e pre op got)

/-- The bank of a line has left ON while the request waited: an uncached access, or R256. -/
def State.serveDirect (s : State) (e : Nat) (line : Nat) : State :=
  s.onMiss e line (fun pre op got t => t.missGo e pre op got)

/-- Is no line to be granted: is its bank not ON, or the engine not permitted any more (R253, R256, R269, R270)? -/
def State.noGrant (s : State) (e line : Nat) : Bool := s.get (Reg.HRD_BANK_CUR (bankOf line)) != curOn || (s.hoardDeny e line 1).isSome

/-- The directory serves the request of engine `e` for a line on which no transaction is open. -/
def State.serve (s : State) (e line : Nat) (rdx hv : Bool) : State :=
  let core := s.coreOf e
  if s.noGrant e line then s.serveDirect e line
  else
    let snoop := fun (cs : List Nat) => s.modHoard (fun h => { h with txns := h.txns ++ [({
      line := line, eng := Fin.ofNat 16 e, rdx := rdx, snoops := cs.map (fun c => (c, rdx)), await := cs, data := none } : LineTxn)] })
    match s.hoard.entry line with
    | none => s.grant e line rdx hv []
    | some (.shared cs) =>
      let others := cs.filter (fun c => c != core)
      if rdx && !others.isEmpty then snoop others else s.grant e line rdx hv cs
    | some (.owned o) => snoop [o]

/-- Has engine `e` a request for the line at the directory? -/
def Hoard.asked (h : Hoard) (e line : Nat) : Bool :=
  h.txns.any (fun t => t.line == line && t.eng.val == e) || h.waiting.any (fun p => p.1 == line && p.2.val == e)

/-- A miss of engine `e`, RDX or RD, that has not been requested. -/
def State.newMiss (s : State) (e : Nat) (rdx : Bool) : Option (Nat × Bool) :=
  let p := fun (x : Stall) => match x with
    | .miss _ l r _ _ => r == rdx && !s.hoard.asked e l
    | _ => false
  match s.waiter e p with
  | some (_, r) => (match r.stall with
    | .miss _ l _ hv _ => some (l, hv)
    | _ => none)
  | none => none

/-- A request reaches the directory; behind an open transaction on its line it waits (R260). -/
def State.request (s : State) (e : Nat) (rdx : Bool) : State :=
  match s.newMiss e rdx with
  | none => s
  | some (line, hv) =>
    if (s.hoard.txn line).isSome then s.modHoard (fun h => { h with waiting := h.waiting ++ [(line, Fin.ofNat 16 e)] })
    else s.serve e line rdx hv

/-- RD of engine e (R257). -/
def execRd (e : Fin 16) (s : State) : Host.Outcome State Fault Refusal := .next (s.request e false)

/-- RDX of engine e (R257, R258). -/
def execRdx (e : Fin 16) (s : State) : Host.Outcome State Fault Refusal := .next (s.request e true)

/-! ## Snoops (R257, R261, R275) -/

/-- SNOOP: the snoop that is under way to a core for a line reaches it. A dirty copy with a parity error goes to the bank with its
granules marked, and its owner traps. DEDUCED, log entry 55. -/
def execSnoop (core : Fin 18) (line : Fin 262144) (s : State) : Host.Outcome State Fault Refusal :=
  let l := line.val * 64
  match s.hoard.txn l with
  | none => .next s
  | some t =>
    match t.snoops.find? (fun x => x.1 == core.val) with
    | none => .next s
    | some (_, inv) =>
      let s := s.modHoard (fun h => { h with txns := h.txns.map (fun u => if u.line == l then { u with snoops := u.snoops.filter (fun x => x.1 != core.val) } else u) })
      let say := fun (m : ChanMsg) (s : State) => s.modHoard (fun h => h.setChannel core (h.channel core ++ [m]))
      match s.hoard.copy core l with
      | none => .next (say (.answer l false none) s)
      | some x =>
        let drop := fun (h : Hoard) => if inv then h.dropCopy core l else h.modCopy core l (fun y => { y with own := false, parity := y.parity && !y.own })
        if x.own && x.parity then
          let s := (say (.answer l true none) ((s.wr (Memory.hoard l) x.data).markLine l)).modHoard (fun h => h.dropCopy core l)
          .next (match s.engOf core with
            | some e => s.trap e causeDmemEcc
            | none => s)
        else .next ((say (.answer l true (if x.own then some x.data else none)) s).modHoard drop)

/-- Requests that wait for a line are served in arrival order, until one opens a transaction (R260); `n` is their number. -/
def State.serveWaiting (s : State) (line : Nat) : Nat → State
  | 0 => s
  | n + 1 =>
    if (s.hoard.txn line).isSome then s
    else match s.hoard.waiting.find? (fun p => p.1 == line) with
      | none => s
      | some (l, e) =>
        let s := s.modHoard (fun h => { h with waiting := h.waiting.erase (l, e) })
        State.serveWaiting (match s.waiter e (isMiss l) with
          | some (_, r) => (match r.stall with
            | .miss _ _ rdx hv _ => s.serve e l rdx hv
            | _ => s)
          | none => s) line n

/-- The transaction on a line closes: its data goes to the bank in its operation, its requester is granted, unless the bank has left ON or
the requester is not permitted any more (R253, R270), and the requests that wait for the line are served (R259, R260). DEDUCED, log entry 55. -/
def State.closeTxn (s : State) (t : LineTxn) : State :=
  let s := s.modHoard (fun h => { h with txns := h.txns.filter (fun u => u.line != t.line) })
  let s := match t.data with
    | some d => (s.wr (Memory.hoard t.line) d).cleanEcc (Memory.hoard t.line) 64
    | none => s
  let holders := (sharers (s.hoard.entry t.line)).filter (fun c => (s.hoard.copy c t.line).isSome)
  let s := if s.noGrant t.eng t.line then
      (s.modHoard (fun h => h.setEntry t.line (if holders.isEmpty then none else some (.shared holders)))).serveDirect t.eng t.line
    else s.grant t.eng t.line t.rdx t.rdx holders
  s.serveWaiting t.line s.hoard.waiting.length

/-- SNOOP_ANSWER: the answer at the head of a core's channel reaches the directory. -/
def execSnoopAnswer (core : Fin 18) (s : State) : Host.Outcome State Fault Refusal :=
  match s.hoard.channel core with
  | .answer l _ d :: r =>
    let s := s.modHoard (fun h => h.setChannel core r)
    match s.hoard.txn l with
    | none => .next s
    | some t =>
      let t := { t with await := t.await.filter (fun c => c != core.val), data := match d with
        | some x => some x
        | none => t.data }
      if t.await.isEmpty then .next (s.closeTxn t)
      else .next (s.modHoard (fun h => { h with txns := h.txns.map (fun u => if u.line == l then t else u) }))
  | _ => .next s

/-- WB: the write-back at the head of a core's channel reaches the directory (R257, R259, R274). -/
def execWb (core : Fin 18) (s : State) : Host.Outcome State Fault Refusal :=
  match s.hoard.channel core with
  | .wb l d bad :: r =>
    let s := s.modHoard (fun h => h.setChannel core r)
    match s.hoard.txn l with
    | some _ =>
      if bad then .next (s.putLine l d true)
      else .next (s.modHoard (fun h => { h with txns := h.txns.map (fun u => if u.line == l then { u with data := some d } else u) }))
    | none =>
      if s.hoard.entry l = some (.owned core) then .next ((s.putLine l d bad).modHoard (fun h => h.setEntry l none))
      else .next (s.recordAccess 0x0404 ((s.engOf core).getD 0xFF) (Memory.hoard l) true)
  | _ => .next s

end Sys2Proof.Machine
end

