-- ==== Sys2Proof/Machine/GrgDecode.lean ====
section
/-!
DEFINITION. What a word of instruction memory does (07, Encoding: R198, R740), and the single step of a halted engine (R189).
-/

namespace Sys2Proof.Machine

/-- Bits of an instruction word as a number. -/
def wf (w : W32) (lo n : Nat) : Nat := fieldGet w lo n
def w4 (w : W32) (lo : Nat) : Fin 16 := Fin.ofNat 16 (wf w lo 4)
def w3 (w : W32) (lo : Nat) : Fin 8 := Fin.ofNat 8 (wf w lo 3)
def w2 (w : W32) (lo : Nat) : Fin 4 := Fin.ofNat 4 (wf w lo 2)

/-- An effect when the fields that must be 0 are 0. -/
def zeros (b : Bool) (x : Effect) : Option Effect := if b then some x else none

/-- Format R, op 0x00: data operations. -/
def decodeData (e : Fin 16) (w : W32) : Option Effect :=
  let d := w4 w 22
  let s := w4 w 18
  let t := w4 w 14
  let t0 := wf w 14 4 == 0
  let d0 := wf w 22 4 == 0
  if wf w 6 8 ≠ 0 then none
  else match wf w 0 6 with
    | 0x00 => some (iAdd e d s t)
    | 0x01 => some (iAddc e d s t)
    | 0x02 => some (iSub e d s t)
    | 0x03 => some (iSubc e d s t)
    | 0x04 => some (iAndD e d s t)
    | 0x05 => some (iOrD e d s t)
    | 0x06 => some (iXor e d s t)
    | 0x07 => some (iAndn e d s t)
    | 0x08 => some (iShl e d s t)
    | 0x09 => some (iShr e d s t)
    | 0x0A => some (iSar e d s t)
    | 0x0B => some (iRor e d s t)
    | 0x0C => zeros d0 (iCmp e s t)
    | 0x0D => zeros d0 (iTst e s t)
    | 0x0E => zeros t0 (iMov e d s)
    | 0x0F => some (iMinS e d s t)
    | 0x10 => some (iMaxS e d s t)
    | 0x11 => some (iMinu e d s t)
    | 0x12 => some (iMaxu e d s t)
    | 0x13 => zeros t0 (iClz e d s)
    | 0x14 => some (iMull e d s t)
    | 0x15 => some (iDivu e d s t)
    | 0x16 => some (iDivs e d s t)
    | 0x17 => zeros t0 (iAbs e d s)
    | 0x18 => zeros t0 (iNeg e d s)
    | _ => none

/-- Format R, op 0x01: system. -/
def decodeSystem (e : Fin 16) (w : W32) : Option Effect :=
  if wf w 6 20 ≠ 0 then none
  else match wf w 0 6 with
    | 0 => some (iNop e)
    | 1 => some (iEndTask e)
    | 2 => some (iRet e)
    | 3 => some (iRett e)
    | 4 => some (iLbrk e)
    | _ => none

/-- Format I, ops 0x02 to 0x07, 0x09, 0x0A. -/
def decodeImm (e : Fin 16) (w : W32) : Option Effect :=
  let d := w4 w 22
  let s := w4 w 18
  let imm := BitVec.ofNat 18 (wf w 0 18)
  let amt := BitVec.ofNat 5 (wf w 0 5)
  match wf w 26 6 with
  | 0x02 => some (iAddi e d s imm)
  | 0x03 => some (iAndi e d s imm)
  | 0x04 => some (iOri e d s imm)
  | 0x05 => some (iXori e d s imm)
  | 0x06 => zeros (wf w 22 4 == 0) (iCmpi e s imm)
  | 0x07 =>
    if wf w 7 11 ≠ 0 then none
    else match wf w 5 2 with
      | 0 => some (iShli e d s amt)
      | 1 => some (iShri e d s amt)
      | 2 => some (iSari e d s amt)
      | _ => some (iRori e d s amt)
  | 0x09 => zeros (wf w 11 7 == 0) (iExt e d s amt (BitVec.ofNat 5 (wf w 5 5)) (w.getLsbD 10))
  | 0x0A => zeros (wf w 10 8 == 0) (iIns e d s amt (BitVec.ofNat 5 (wf w 5 5)))
  | _ => none

/-- Format A, op 0x14: address operations. -/
def decodeAddr (e : Fin 16) (w : W32) : Option Effect :=
  let a := w3 w 23
  let b := w3 w 20
  let b0 := wf w 20 3 == 0
  let i0 := wf w 0 16 == 0
  let imm := BitVec.ofNat 16 (wf w 0 16)
  match wf w 16 4 with
  | 0 => zeros b0 (iMova e a imm)
  | 1 => zeros b0 (iAdda e a imm)
  | 2 => zeros i0 (iAddar e a b)
  | 3 => zeros b0 (iCmpa e a imm)
  | 4 => zeros i0 (iCmpar e a b)
  | _ => none

/-- Format Q, op 0x24: accumulator operations (R215). -/
def decodeAcc (e : Fin 16) (w : W32) : Option Effect :=
  let m := w2 w 24
  let r := w4 w 20
  let t := w4 w 16
  let r0 := wf w 20 4 == 0
  let t0 := wf w 16 4 == 0
  let sh0 := wf w 0 6 == 0
  let sh := BitVec.ofNat 6 (wf w 0 6)
  if wf w 6 6 ≠ 0 then none
  else match wf w 12 4 with
    | 0 => zeros sh0 (iMul e m r t)
    | 1 => zeros sh0 (iMulu e m r t)
    | 2 => zeros sh0 (iMac e m r t)
    | 3 => zeros sh0 (iMacu e m r t)
    | 4 => zeros sh0 (iMsu e m r t)
    | 5 => zeros sh0 (iMsuu e m r t)
    | 6 => zeros (t0 && sh0) (iMld e m r)
    | 7 => zeros (r0 && t0 && sh0) (iMclr e m)
    | 8 => zeros (r0 && t0) (iMshl e m sh)
    | 9 => zeros (r0 && t0) (iMshr e m sh)
    | 10 => zeros t0 (iRnd e r m sh)
    | _ => none

/-- Format E, ops 0x2C and 0x2E (R740). -/
def decodeEvent (e : Fin 16) (w : W32) : Option Effect :=
  let d := w4 w 22
  let s := w4 w 18
  let t := w4 w 14
  let line := w2 w 12
  let d0 := wf w 22 4 == 0
  let s0 := wf w 18 4 == 0
  let t0 := wf w 14 4 == 0
  let l0 := wf w 12 2 == 0
  if wf w 6 6 ≠ 0 then none
  else if wf w 26 6 = 0x2C then
    match wf w 0 6 with
    | 0 => zeros (t0 && l0) (iWfe e d s)
    | 1 => zeros (d0 && t0) (iSev e line s)
    | 2 => zeros (d0 && t0) (iSevr e line s)
    | 3 => zeros (d0 && l0) (iWaitt e s t)
    | 4 => zeros (s0 && t0 && l0) (iGett e d)
    | 5 => zeros (s0 && t0 && l0) (iGettk e d)
    | _ => none
  else match wf w 0 6 with
    | 0 => zeros (d0 && l0) (iEmw e s t)
    | 1 => zeros (d0 && l0) (iEmt e s t)
    | _ => none

/-- The effect of an instruction word; none: the word is ILLEGAL by its encoding. -/
def decodeGrg (e : Fin 16) (w : W32) : Option Effect :=
  let d := w4 w 22
  let s := w4 w 18
  match wf w 26 6 with
  | 0x00 => decodeData e w
  | 0x01 => decodeSystem e w
  | 0x08 => zeros (wf w 16 5 == 0) (iMovi e d (w.getLsbD 21) (BitVec.ofNat 16 (wf w 0 16)))
  | 0x10 => some (iLd e d (w3 w 19) (w2 w 17) (w.getLsbD 16) (w.getLsbD 15) (BitVec.ofNat 15 (wf w 0 15)))
  | 0x11 => zeros (!w.getLsbD 15) (iSt e d (w3 w 19) (w2 w 17) (w.getLsbD 16) (BitVec.ofNat 15 (wf w 0 15)))
  | 0x14 => decodeAddr e w
  | 0x18 => some (iB e d (BitVec.ofNat 22 (wf w 0 22)))
  | 0x19 => zeros (wf w 22 2 == 0) (iBa e (w2 w 24) (BitVec.ofNat 22 (wf w 0 22)))
  | 0x1A => some (iCall e (BitVec.ofNat 26 (wf w 0 26)))
  | 0x1B => zeros (wf w 22 4 == 0 && wf w 0 18 == 0) (iCallr e s)
  | 0x1C => zeros (wf w 22 4 == 0 && wf w 0 18 == 0) (iJr e s)
  | 0x1D => some (iLoopi e (BitVec.ofNat 16 (wf w 10 16)) (BitVec.ofNat 10 (wf w 0 10)))
  | 0x1E => zeros (wf w 18 4 == 0) (iLoop e d (BitVec.ofNat 18 (wf w 0 18)))
  | 0x20 => zeros (wf w 0 14 == 0) (iMovx e d (w.getLsbD 21) (w4 w 17) (w3 w 14))
  | 0x24 => decodeAcc e w
  | 0x28 => zeros (wf w 0 5 == 0) (iLuti e d (w3 w 19) (w4 w 15) (w4 w 11) (BitVec.ofNat 5 (wf w 6 5)) (w.getLsbD 5))
  | 0x2C => decodeEvent e w
  | 0x2E => decodeEvent e w
  | _ => decodeImm e w

/-! ## Encoding (R197, R198, R740) -/

def bit (b : Bool) : Nat := if b then 1 else 0

/-- Format R: op, d, s, t and the bits below. Formats B, C, LI, LR, X, T and E put their other fields into the bits below. -/
def encR (op d s t low : Nat) : W32 := BitVec.ofNat 32 (op * 2 ^ 26 + d * 2 ^ 22 + s * 2 ^ 18 + t * 2 ^ 14 + low)

/-- Formats I and K: op, d, s and imm18; format K has H in bit 21. -/
def encI (op d s imm : Nat) : W32 := BitVec.ofNat 32 (op * 2 ^ 26 + d * 2 ^ 22 + s * 2 ^ 18 + imm)

/-- Format M: op, d, a, sz and the bits below. -/
def encM (op d a sz low : Nat) : W32 := BitVec.ofNat 32 (op * 2 ^ 26 + d * 2 ^ 22 + a * 2 ^ 19 + sz * 2 ^ 17 + low)

/-- Format A: a, b, fn and imm16. -/
def encA (a b fn imm : Nat) : W32 := BitVec.ofNat 32 (0x14 * 2 ^ 26 + a * 2 ^ 23 + b * 2 ^ 20 + fn * 2 ^ 16 + imm)

/-- Format Q: m, r, t, fn and sh. -/
def encQ (m r t fn sh : Nat) : W32 := BitVec.ofNat 32 (0x24 * 2 ^ 26 + m * 2 ^ 24 + r * 2 ^ 20 + t * 2 ^ 16 + fn * 2 ^ 12 + sh)

/-- The engine that issues a GRG instruction and the instruction's word; none for every other command. -/
def encodeGrg : Instr → Option (Fin 16 × W32)
  | .add e d s t => some (e, encR 0 d s t 0)
  | .addc e d s t => some (e, encR 0 d s t 1)
  | .sub e d s t => some (e, encR 0 d s t 2)
  | .subc e d s t => some (e, encR 0 d s t 3)
  | .andD e d s t => some (e, encR 0 d s t 4)
  | .orD e d s t => some (e, encR 0 d s t 5)
  | .xor e d s t => some (e, encR 0 d s t 6)
  | .andn e d s t => some (e, encR 0 d s t 7)
  | .shl e d s t => some (e, encR 0 d s t 8)
  | .shr e d s t => some (e, encR 0 d s t 9)
  | .sar e d s t => some (e, encR 0 d s t 10)
  | .ror e d s t => some (e, encR 0 d s t 11)
  | .minS e d s t => some (e, encR 0 d s t 15)
  | .maxS e d s t => some (e, encR 0 d s t 16)
  | .minu e d s t => some (e, encR 0 d s t 17)
  | .maxu e d s t => some (e, encR 0 d s t 18)
  | .mull e d s t => some (e, encR 0 d s t 20)
  | .divu e d s t => some (e, encR 0 d s t 21)
  | .divs e d s t => some (e, encR 0 d s t 22)
  | .cmp e s t => some (e, encR 0 0 s t 12)
  | .tst e s t => some (e, encR 0 0 s t 13)
  | .mov e d s => some (e, encR 0 d s 0 14)
  | .clz e d s => some (e, encR 0 d s 0 19)
  | .abs e d s => some (e, encR 0 d s 0 23)
  | .neg e d s => some (e, encR 0 d s 0 24)
  | .nop e => some (e, encR 1 0 0 0 0)
  | .endTask e => some (e, encR 1 0 0 0 1)
  | .ret e => some (e, encR 1 0 0 0 2)
  | .rett e => some (e, encR 1 0 0 0 3)
  | .lbrk e => some (e, encR 1 0 0 0 4)
  | .addi e d s i => some (e, encI 2 d s i.toNat)
  | .andi e d s i => some (e, encI 3 d s i.toNat)
  | .ori e d s i => some (e, encI 4 d s i.toNat)
  | .xori e d s i => some (e, encI 5 d s i.toNat)
  | .cmpi e s i => some (e, encI 6 0 s i.toNat)
  | .shli e d s a => some (e, encI 7 d s (0 * 2 ^ 5 + a.toNat))
  | .shri e d s a => some (e, encI 7 d s (1 * 2 ^ 5 + a.toNat))
  | .sari e d s a => some (e, encI 7 d s (2 * 2 ^ 5 + a.toNat))
  | .rori e d s a => some (e, encI 7 d s (3 * 2 ^ 5 + a.toNat))
  | .movi e d h i => some (e, encI 8 d 0 (bit h * 2 ^ 21 + i.toNat))
  | .ext e d s p w g => some (e, encI 9 d s (bit g * 2 ^ 10 + w.toNat * 2 ^ 5 + p.toNat))
  | .ins e d s p w => some (e, encI 10 d s (w.toNat * 2 ^ 5 + p.toNat))
  | .ld e d a sz pm sx i => some (e, encM 0x10 d a sz (bit pm * 2 ^ 16 + bit sx * 2 ^ 15 + i.toNat))
  | .st e d a sz pm i => some (e, encM 0x11 d a sz (bit pm * 2 ^ 16 + i.toNat))
  | .mova e a i => some (e, encA a 0 0 i.toNat)
  | .adda e a i => some (e, encA a 0 1 i.toNat)
  | .cmpa e a i => some (e, encA a 0 3 i.toNat)
  | .addar e a b => some (e, encA a b 2 0)
  | .cmpar e a b => some (e, encA a b 4 0)
  | .b e c o => some (e, encR 0x18 c 0 0 o.toNat)
  | .ba e c o => some (e, encR 0x19 (c.val * 4) 0 0 o.toNat)
  | .call e o => some (e, encR 0x1A 0 0 0 o.toNat)
  | .callr e s => some (e, encR 27 0 s 0 0)
  | .jr e s => some (e, encR 28 0 s 0 0)
  | .loopi e c o => some (e, encR 0x1D 0 0 0 (c.toNat * 2 ^ 10 + o.toNat))
  | .loop e s o => some (e, encR 0x1E s 0 0 o.toNat)
  | .movx e d r c i => some (e, encR 0x20 d 0 0 (bit r * 2 ^ 21 + c.val * 2 ^ 17 + i.val * 2 ^ 14))
  | .mul e m s t => some (e, encQ m s t 0 0)
  | .mulu e m s t => some (e, encQ m s t 1 0)
  | .mac e m s t => some (e, encQ m s t 2 0)
  | .macu e m s t => some (e, encQ m s t 3 0)
  | .msu e m s t => some (e, encQ m s t 4 0)
  | .msuu e m s t => some (e, encQ m s t 5 0)
  | .mld e m s => some (e, encQ m s 0 6 0)
  | .mclr e m => some (e, encQ m 0 0 7 0)
  | .mshl e m h => some (e, encQ m 0 0 8 h.toNat)
  | .mshr e m h => some (e, encQ m 0 0 9 h.toNat)
  | .rnd e d m h => some (e, encQ m d 0 10 h.toNat)
  | .luti e d a s l f h => some (e, encR 0x28 d 0 0 (a.val * 2 ^ 19 + s.val * 2 ^ 15 + l.val * 2 ^ 11 + f.toNat * 2 ^ 6 + bit h * 2 ^ 5))
  | .wfe e d s => some (e, encR 0x2C d s 0 0)
  | .sev e n s => some (e, encR 0x2C 0 s 0 (n.val * 2 ^ 12 + 1))
  | .sevr e n s => some (e, encR 0x2C 0 s 0 (n.val * 2 ^ 12 + 2))
  | .waitt e s l => some (e, encR 0x2C 0 s l 3)
  | .gett e d => some (e, encR 0x2C d 0 0 4)
  | .gettk e d => some (e, encR 0x2C d 0 0 5)
  | .emw e s t => some (e, encR 0x2E 0 s t 0)
  | .emt e s t => some (e, encR 0x2E 0 s t 1)
  | _ => none

/-! ## STEP (R189) -/

/-- The word at the current context's PC. -/
def State.fetched (s : State) (e : Nat) : W32 := BitVec.ofNat 32 (leNat (s.rd (Memory.engine e (s.ctxOf e).pc.toNat) 4))

/-- One instruction of a halted engine's current context, while no tick runs. A WAITT or WFE is evaluated again. DEDUCED, log entry 56. -/
def State.debugStep (s : State) (e : Fin 16) : State :=
  if s.running || !(s.engN e).halted then s
  else
    let s := s.modRun e Run.preempt
    match (s.engN e).cur with
    | none => s
    | some r =>
      if r.stall ≠ .none then s
      else s.issueForced e ((decodeGrg e (s.fetched e)).getD (iIllegalInstruction e 0))

/-- ENG_n_DBG is written with STEP 1 beside HALT. DEDUCED, log entry 56. -/
def State.writeStep (s : State) (w : Who) (n : Fin 16) (v : W32) : State :=
  let t := s.writeEngDbg w n v
  if s.mayDebug w n then t.debugStep n else t

/-- DEBUG_STEP: ENG_n_DBG is written with HALT and STEP 1. -/
def execDebugStep (w : Who) (n : Fin 16) (s : State) : Host.Outcome State Fault Refusal := .next (s.writeStep w n 3)

end Sys2Proof.Machine
end

