-- ==== Sys2Proof/Machine/Tap.lean ====
section
/-!
DEFINITION. The TAP (22): its instructions, the hold of functional operation (R726), the debug register (R727).
-/

namespace Sys2Proof.Machine

def State.modTap (s : State) (f : Tap → Tap) : State := { s with tap := f s.tap }

/-- An instruction that holds functional operation becomes current (R726): the switches are off, the FP PHYs down. DESIGN CHOICE, log entry 57. -/
def State.tapHold (s : State) (op : Byte) : State :=
  let s := (s.modTap (fun t => { t with ir := op, hold := true })).refreshLsw
  s.each 4 (fun p t => t.linkFalls p 0)

/-- The boundary scan register is captured and loaded (R725): what the cells hold, the package data card tells. DESIGN CHOICE, log entry 57. -/
def State.scan (s : State) (cells : List Bool) : State :=
  let f := s.free
  (f.2.send (.tdo 64 f.1)).modTap (fun t => { t with bsr := cells })

def execExtest (cells : List Bool) (s : State) : Host.Outcome State Fault Refusal := .next ((s.tapHold 0x00).scan cells)

def execSamplePreload (cells : List Bool) (s : State) : Host.Outcome State Fault Refusal :=
  .next ((s.modTap (fun t => { t with ir := 0x01 })).scan cells)

def execIdcode (s : State) : Host.Outcome State Fault Refusal :=
  .next ((s.modTap (fun t => { t with ir := 0x02 })).send (.tdo 32 0x3734074B))

def execClamp (s : State) : Host.Outcome State Fault Refusal := .next ((s.tapHold 0x03).send (.tdo 1 0))

def execHighz (s : State) : Host.Outcome State Fault Refusal := .next ((s.tapHold 0x04).send (.tdo 1 0))

def execExtestPulse (cells : List Bool) (s : State) : Host.Outcome State Fault Refusal := .next ((s.tapHold 0x05).scan cells)

def execExtestTrain (cells : List Bool) (s : State) : Host.Outcome State Fault Refusal := .next ((s.tapHold 0x06).scan cells)

/-- BYPASS: opcode 0xFF or one that no other instruction has. -/
def execBypass (op : BitVec 8) (s : State) : Host.Outcome State Fault Refusal :=
  .next (if op.toNat ≤ 6 ∨ op = 0x20 then s else (s.modTap (fun t => { t with ir := op })).send (.tdo 1 0))

/-- DEBUG: the 64-bit register is selected and captured; what it had to return is returned once. -/
def execDebug (s : State) : Host.Outcome State Fault Refusal :=
  .next ((s.modTap (fun t => { t with ir := 0x20, dbg := 0 })).send (.tdo 64 s.tap.dbg))

/-- An update of the debug register: code in bits 63:62, offset in 61:46, data in 31:0. DEDUCED, log entry 56. -/
def State.debugUpdate (s : State) (u : BitVec 64) : State :=
  let off := u.toNat / 2 ^ 46 % 2 ^ 16
  let v : W32 := u.setWidth 32
  if s.tap.ir ≠ 0x20 then s
  else
    let s := s.modTap (fun t => { t with dbg := 0 })
    match u.toNat / 2 ^ 62 with
    | 1 =>
      if off % 4 = 0 then let p := s.setupRead .jtag off; p.2.modTap (fun t => { t with dbg := p.1.setWidth 64 })
      else s
    | 2 =>
      let n := Fin.ofNat 16 ((off - 0x3100) / 0x40)
      if 0x3100 ≤ off ∧ off < 0x3500 ∧ off % 0x40 = 0x34 ∧ v.getLsbD 1 then s.writeStep .jtag n v
      else if off % 4 = 0 then s.setupWrite .jtag off v
      else s
    | _ => s

/-- JTAG_DEBUG_READ: an update with code 1 for a set-up offset. -/
def execJtagDebugRead (off : BitVec 16) (s : State) : Host.Outcome State Fault Refusal :=
  .next (s.debugUpdate (BitVec.ofNat 64 (2 ^ 62 + off.toNat * 2 ^ 46)))

/-- JTAG_DEBUG_WRITE: an update with code 2 for a set-up offset. -/
def execJtagDebugWrite (off : BitVec 16) (v : BitVec 32) (s : State) : Host.Outcome State Fault Refusal :=
  .next (s.debugUpdate (BitVec.ofNat 64 (2 ^ 63 + off.toNat * 2 ^ 46 + v.toNat)))

/-- TAP_RESET (R728); a hold of R726 outlasts it. DESIGN CHOICE, log entry 57. -/
def execTapReset (s : State) : Host.Outcome State Fault Refusal :=
  .next (s.modTap (fun t => { Tap.zero with hold := t.hold }))

end Sys2Proof.Machine
end

