-- ==== Sys2Proof/Machine/Dispatch.lean ====
section
/-!
DEFINITION. The meaning of each command: one arm per constructor, each one direct call.
-/

namespace Sys2Proof.Machine

def exec (i : Instr) (s : State) : Host.Outcome State Fault Refusal :=
  match i with
  | .registerWrite w addr word v => Sys2Proof.Machine.execRegisterWrite w addr word v s
  | .tickRunStart w v => Sys2Proof.Machine.execTickRunStart w v s
  | .tickRunStop w v => Sys2Proof.Machine.execTickRunStop w v s
  | .firstTickStart => Sys2Proof.Machine.execFirstTickStart s
  | .firstEdgeTimeout => Sys2Proof.Machine.execFirstEdgeTimeout s
  | .tickStart => Sys2Proof.Machine.execTickStart s
  | .computeStart => Sys2Proof.Machine.execComputeStart s
  | .emitStart => Sys2Proof.Machine.execEmitStart s
  | .settleStart slack tj dirty => Sys2Proof.Machine.execSettleStart slack tj dirty s
  | .syncInEdge => Sys2Proof.Machine.execSyncInEdge s
  | .syncWindowEnd => Sys2Proof.Machine.execSyncWindowEnd s
  | .sourceLoss => Sys2Proof.Machine.execSourceLoss s
  | .syncOutEnd => Sys2Proof.Machine.execSyncOutEnd s
  | .taskBudgetExpiry e => Sys2Proof.Machine.execTaskBudgetExpiry e s
  | .doorbellReadComplete ok block => Sys2Proof.Machine.execDoorbellReadComplete ok block s
  | .descriptorReadComplete n ok b => Sys2Proof.Machine.execDescriptorReadComplete n ok b s
  | .hostDataReadComplete n idx ok b => Sys2Proof.Machine.execHostDataReadComplete n idx ok b s
  | .idleDoorbellPoll => Sys2Proof.Machine.execIdleDoorbellPoll s
  | .devNudge w v => Sys2Proof.Machine.execDevNudge w v s
  | .ringEnable w n => Sys2Proof.Machine.execRingEnable w n s
  | .ringDisable w n => Sys2Proof.Machine.execRingDisable w n s
  | .ringFlush w n => Sys2Proof.Machine.execRingFlush w n s
  | .txFrame n => Sys2Proof.Machine.execTxFrame n s
  | .rxBuf n => Sys2Proof.Machine.execRxBuf n s
  | .cmdNop n => Sys2Proof.Machine.execCmdNop n s
  | .regWrite n => Sys2Proof.Machine.execRegWrite n s
  | .prsLoad n sfdp flash => Sys2Proof.Machine.execPrsLoad n sfdp flash s
  | .prsUnload n => Sys2Proof.Machine.execPrsUnload n s
  | .hoardWrite c => Sys2Proof.Machine.execHoardWrite c s
  | .hoardRead c => Sys2Proof.Machine.execHoardRead c s
  | .ingProgram n => Sys2Proof.Machine.execIngProgram n s
  | .ingErase n => Sys2Proof.Machine.execIngErase n s
  | .ingRead c => Sys2Proof.Machine.execIngRead c s
  | .timeGrant n => Sys2Proof.Machine.execTimeGrant n s
  | .chnMode n => Sys2Proof.Machine.execChnMode n s
  | .quench n => Sys2Proof.Machine.execQuench n s
  | .quenchClear n => Sys2Proof.Machine.execQuenchClear n s
  | .fence n => Sys2Proof.Machine.execFence n s
  | .vidBuf n => Sys2Proof.Machine.execVidBuf n s
  | .poisonedWrite pf1 => Sys2Proof.Machine.execPoisonedWrite pf1 s
  | .bar2Access addr write n bytes => Sys2Proof.Machine.execBar2Access addr write n bytes s
  | .bar4Access pf1 addr write n v => Sys2Proof.Machine.execBar4Access pf1 addr write n v s
  | .configurationRequest pf1 write dw v => Sys2Proof.Machine.execConfigurationRequest pf1 write dw v s
  | .perstN bar2 boot mpri => Sys2Proof.Machine.execPerstN bar2 boot mpri s
  | .hotReset => Sys2Proof.Machine.execHotReset s
  | .flrPf0 => Sys2Proof.Machine.execFlrPf0 s
  | .flrPf1 => Sys2Proof.Machine.execFlrPf1 s
  | .flrComplete pf1 => Sys2Proof.Machine.execFlrComplete pf1 s
  | .d3hotEntry pf1 => Sys2Proof.Machine.execD3hotEntry pf1 s
  | .d3hotExit pf1 => Sys2Proof.Machine.execD3hotExit pf1 s
  | .devLock w v => Sys2Proof.Machine.execDevLock w v s
  | .devResdata w => Sys2Proof.Machine.execDevResdata w s
  | .softReset w => Sys2Proof.Machine.execSoftReset w s
  | .engineReset w n => Sys2Proof.Machine.execEngineReset w n s
  | .engineResetDone e => Sys2Proof.Machine.execEngineResetDone e s
  | .debugHalt w n => Sys2Proof.Machine.execDebugHalt w n s
  | .debugStep w n => Sys2Proof.Machine.execDebugStep w n s
  | .eventInput e m => Sys2Proof.Machine.execEventInput e m s
  | .alignedEntry e => Sys2Proof.Machine.execAlignedEntry e s
  | .waittRelease e => Sys2Proof.Machine.execWaittRelease e s
  | .illegalInstruction e w => Sys2Proof.Machine.execIllegalInstruction e w s
  | .add e d rs t => Sys2Proof.Machine.execAdd e d rs t s
  | .addc e d rs t => Sys2Proof.Machine.execAddc e d rs t s
  | .sub e d rs t => Sys2Proof.Machine.execSub e d rs t s
  | .subc e d rs t => Sys2Proof.Machine.execSubc e d rs t s
  | .andD e d rs t => Sys2Proof.Machine.execAndD e d rs t s
  | .orD e d rs t => Sys2Proof.Machine.execOrD e d rs t s
  | .xor e d rs t => Sys2Proof.Machine.execXor e d rs t s
  | .andn e d rs t => Sys2Proof.Machine.execAndn e d rs t s
  | .shl e d rs t => Sys2Proof.Machine.execShl e d rs t s
  | .shr e d rs t => Sys2Proof.Machine.execShr e d rs t s
  | .sar e d rs t => Sys2Proof.Machine.execSar e d rs t s
  | .ror e d rs t => Sys2Proof.Machine.execRor e d rs t s
  | .cmp e rs t => Sys2Proof.Machine.execCmp e rs t s
  | .tst e rs t => Sys2Proof.Machine.execTst e rs t s
  | .mov e d rs => Sys2Proof.Machine.execMov e d rs s
  | .minS e d rs t => Sys2Proof.Machine.execMinS e d rs t s
  | .maxS e d rs t => Sys2Proof.Machine.execMaxS e d rs t s
  | .minu e d rs t => Sys2Proof.Machine.execMinu e d rs t s
  | .maxu e d rs t => Sys2Proof.Machine.execMaxu e d rs t s
  | .clz e d rs => Sys2Proof.Machine.execClz e d rs s
  | .mull e d rs t => Sys2Proof.Machine.execMull e d rs t s
  | .divu e d rs t => Sys2Proof.Machine.execDivu e d rs t s
  | .divs e d rs t => Sys2Proof.Machine.execDivs e d rs t s
  | .abs e d rs => Sys2Proof.Machine.execAbs e d rs s
  | .neg e d rs => Sys2Proof.Machine.execNeg e d rs s
  | .addi e d rs imm => Sys2Proof.Machine.execAddi e d rs imm s
  | .andi e d rs imm => Sys2Proof.Machine.execAndi e d rs imm s
  | .ori e d rs imm => Sys2Proof.Machine.execOri e d rs imm s
  | .xori e d rs imm => Sys2Proof.Machine.execXori e d rs imm s
  | .cmpi e rs imm => Sys2Proof.Machine.execCmpi e rs imm s
  | .shli e d rs amt => Sys2Proof.Machine.execShli e d rs amt s
  | .shri e d rs amt => Sys2Proof.Machine.execShri e d rs amt s
  | .sari e d rs amt => Sys2Proof.Machine.execSari e d rs amt s
  | .rori e d rs amt => Sys2Proof.Machine.execRori e d rs amt s
  | .movi e d h imm => Sys2Proof.Machine.execMovi e d h imm s
  | .ext e d rs pos w1 sgn => Sys2Proof.Machine.execExt e d rs pos w1 sgn s
  | .ins e d rs pos w1 => Sys2Proof.Machine.execIns e d rs pos w1 s
  | .movx e d dir cls idx => Sys2Proof.Machine.execMovx e d dir cls idx s
  | .ld e d a sz pm sx disp => Sys2Proof.Machine.execLd e d a sz pm sx disp s
  | .st e d a sz pm disp => Sys2Proof.Machine.execSt e d a sz pm disp s
  | .mova e a imm => Sys2Proof.Machine.execMova e a imm s
  | .adda e a imm => Sys2Proof.Machine.execAdda e a imm s
  | .addar e a b => Sys2Proof.Machine.execAddar e a b s
  | .cmpa e a imm => Sys2Proof.Machine.execCmpa e a imm s
  | .cmpar e a b => Sys2Proof.Machine.execCmpar e a b s
  | .b e cond off => Sys2Proof.Machine.execB e cond off s
  | .ba e cond off => Sys2Proof.Machine.execBa e cond off s
  | .call e off => Sys2Proof.Machine.execCall e off s
  | .callr e rs => Sys2Proof.Machine.execCallr e rs s
  | .jr e rs => Sys2Proof.Machine.execJr e rs s
  | .ret e => Sys2Proof.Machine.execRet e s
  | .loopi e count off => Sys2Proof.Machine.execLoopi e count off s
  | .loop e rs off => Sys2Proof.Machine.execLoop e rs off s
  | .lbrk e => Sys2Proof.Machine.execLbrk e s
  | .mul e m rs t => Sys2Proof.Machine.execMul e m rs t s
  | .mulu e m rs t => Sys2Proof.Machine.execMulu e m rs t s
  | .mac e m rs t => Sys2Proof.Machine.execMac e m rs t s
  | .macu e m rs t => Sys2Proof.Machine.execMacu e m rs t s
  | .msu e m rs t => Sys2Proof.Machine.execMsu e m rs t s
  | .msuu e m rs t => Sys2Proof.Machine.execMsuu e m rs t s
  | .mld e m rs => Sys2Proof.Machine.execMld e m rs s
  | .mclr e m => Sys2Proof.Machine.execMclr e m s
  | .mshl e m sh => Sys2Proof.Machine.execMshl e m sh s
  | .mshr e m sh => Sys2Proof.Machine.execMshr e m sh s
  | .rnd e d m sh => Sys2Proof.Machine.execRnd e d m sh s
  | .luti e d a rs l f half => Sys2Proof.Machine.execLuti e d a rs l f half s
  | .wfe e d rs => Sys2Proof.Machine.execWfe e d rs s
  | .sev e line rs => Sys2Proof.Machine.execSev e line rs s
  | .sevr e line rs => Sys2Proof.Machine.execSevr e line rs s
  | .waitt e rs l => Sys2Proof.Machine.execWaitt e rs l s
  | .gett e d => Sys2Proof.Machine.execGett e d s
  | .gettk e d => Sys2Proof.Machine.execGettk e d s
  | .emw e rs t => Sys2Proof.Machine.execEmw e rs t s
  | .emt e rs t => Sys2Proof.Machine.execEmt e rs t s
  | .nop e => Sys2Proof.Machine.execNop e s
  | .endTask e => Sys2Proof.Machine.execEndTask e s
  | .rett e => Sys2Proof.Machine.execRett e s
  | .rd e => Sys2Proof.Machine.execRd e s
  | .rdx e => Sys2Proof.Machine.execRdx e s
  | .wb core => Sys2Proof.Machine.execWb core s
  | .snoop core line => Sys2Proof.Machine.execSnoop core line s
  | .snoopAnswer core => Sys2Proof.Machine.execSnoopAnswer core s
  | .partitionApply w => Sys2Proof.Machine.execPartitionApply w s
  | .bankTargetWrite w b v => Sys2Proof.Machine.execBankTargetWrite w b v s
  | .bankTransitionDone b => Sys2Proof.Machine.execBankTransitionDone b s
  | .fillDone b => Sys2Proof.Machine.execFillDone b s
  | .migrationGo w v => Sys2Proof.Machine.execMigrationGo w v s
  | .migrationThreshold b => Sys2Proof.Machine.execMigrationThreshold b s
  | .migrationCopyDone => Sys2Proof.Machine.execMigrationCopyDone s
  | .frameRecord => Sys2Proof.Machine.execFrameRecord s
  | .tagCheckDone n ok => Sys2Proof.Machine.execTagCheckDone n ok s
  | .sectionApplyDone n => Sys2Proof.Machine.execSectionApplyDone n s
  | .startUpStep n => Sys2Proof.Machine.execStartUpStep n s
  | .doneAccept => Sys2Proof.Machine.execDoneAccept s
  | .doneTimeout n => Sys2Proof.Machine.execDoneTimeout n s
  | .bootAutoload flash images => Sys2Proof.Machine.execBootAutoload flash images s
  | .readbackFrame flips => Sys2Proof.Machine.execReadbackFrame flips s
  | .linkUp p speed fdx => Sys2Proof.Machine.execLinkUp p speed fdx s
  | .linkDown p sent => Sys2Proof.Machine.execLinkDown p sent s
  | .startOfFrame p => Sys2Proof.Machine.execStartOfFrame p s
  | .rxFrame p b cls rt fcs => Sys2Proof.Machine.execRxFrame p b cls rt fcs s
  | .pauseRefresh p => Sys2Proof.Machine.execPauseRefresh p s
  | .pause p quanta => Sys2Proof.Machine.execPause p quanta s
  | .pauseExpiry p => Sys2Proof.Machine.execPauseExpiry p s
  | .transmitDone p => Sys2Proof.Machine.execTransmitDone p s
  | .preemptVerifyTimeout p => Sys2Proof.Machine.execPreemptVerifyTimeout p s
  | .gateEntryStart p => Sys2Proof.Machine.execGateEntryStart p s
  | .gateListCommit w p v => Sys2Proof.Machine.execGateListCommit w p v s
  | .cutThroughStart p b ev => Sys2Proof.Machine.execCutThroughStart p b ev s
  | .cutThroughOverlength p => Sys2Proof.Machine.execCutThroughOverlength p s
  | .videoPacket u dport pt ssrc ts seq mark len payload => Sys2Proof.Machine.execVideoPacket u dport pt ssrc ts seq mark len payload s
  | .canFrameReceived c f tec rec => Sys2Proof.Machine.execCanFrameReceived c f tec rec s
  | .canBusoff c => Sys2Proof.Machine.execCanBusoff c s
  | .canBusoffRecovery c => Sys2Proof.Machine.execCanBusoffRecovery c s
  | .canRecover w c => Sys2Proof.Machine.execCanRecover w c s
  | .timeAddendWrite w v => Sys2Proof.Machine.execTimeAddendWrite w v s
  | .timeSlewWrite w v => Sys2Proof.Machine.execTimeSlewWrite w v s
  | .slewEnd => Sys2Proof.Machine.execSlewEnd s
  | .stepRequest w v => Sys2Proof.Machine.execStepRequest w v s
  | .timeNowRead w => Sys2Proof.Machine.execTimeNowRead w s
  | .chainLinkTrained l => Sys2Proof.Machine.execChainLinkTrained l s
  | .chainTrainTimeout l => Sys2Proof.Machine.execChainTrainTimeout l s
  | .chainTrainRetry l => Sys2Proof.Machine.execChainTrainRetry l s
  | .helloSend l => Sys2Proof.Machine.execHelloSend l s
  | .hello l b => Sys2Proof.Machine.execHello l b s
  | .helloTimeout l => Sys2Proof.Machine.execHelloTimeout l s
  | .chainLinkDown l => Sys2Proof.Machine.execChainLinkDown l s
  | .candidateSettled => Sys2Proof.Machine.execCandidateSettled s
  | .topo hop t => Sys2Proof.Machine.execTopo hop t s
  | .idAssignment => Sys2Proof.Machine.execIdAssignment s
  | .route l uid id t => Sys2Proof.Machine.execRoute l uid id t s
  | .drainq => Sys2Proof.Machine.execDrainq s
  | .drainqTimeout => Sys2Proof.Machine.execDrainqTimeout s
  | .commit l uid => Sys2Proof.Machine.execCommit l uid s
  | .ack l op uid => Sys2Proof.Machine.execAck l op uid s
  | .cellForward l c chk => Sys2Proof.Machine.execCellForward l c chk s
  | .creditReturn l vc h => Sys2Proof.Machine.execCreditReturn l vc h s
  | .etRd src tag b => Sys2Proof.Machine.execEtRd src tag b s
  | .etWr src tag b => Sys2Proof.Machine.execEtWr src tag b s
  | .rdr tag b => Sys2Proof.Machine.execRdr tag b s
  | .wra tag b => Sys2Proof.Machine.execWra tag b s
  | .chainTimeout tag => Sys2Proof.Machine.execChainTimeout tag s
  | .sevCell mask line pid => Sys2Proof.Machine.execSevCell mask line pid s
  | .ttSlineRead idx => Sys2Proof.Machine.execTtSlineRead idx s
  | .ttSlot idx => Sys2Proof.Machine.execTtSlot idx s
  | .ttCell l idx b => Sys2Proof.Machine.execTtCell l idx b s
  | .syncSlot j => Sys2Proof.Machine.execSyncSlot j s
  | .sync l way b => Sys2Proof.Machine.execSync l way b s
  | .delayMeasure l => Sys2Proof.Machine.execDelayMeasure l s
  | .dlyreq l t1 => Sys2Proof.Machine.execDlyreq l t1 s
  | .dlyrsp l t1 t2 t3 => Sys2Proof.Machine.execDlyrsp l t1 t2 t3 s
  | .propose m h pnum => Sys2Proof.Machine.execPropose m h pnum s
  | .vote src pnum why => Sys2Proof.Machine.execVote src pnum why s
  | .mcommit m pnum => Sys2Proof.Machine.execMcommit m pnum s
  | .mabort pnum => Sys2Proof.Machine.execMabort pnum s
  | .run cmd target h ver tp mask => Sys2Proof.Machine.execRun cmd target h ver tp mask s
  | .chainStart w => Sys2Proof.Machine.execChainStart w s
  | .chainStop w => Sys2Proof.Machine.execChainStop w s
  | .modeGo w v => Sys2Proof.Machine.execModeGo w v s
  | .swageSample l => Sys2Proof.Machine.execSwageSample l s
  | .swageOutputApply l => Sys2Proof.Machine.execSwageOutputApply l s
  | .swageEnable w l => Sys2Proof.Machine.execSwageEnable w l s
  | .swageAuto w l b => Sys2Proof.Machine.execSwageAuto w l b s
  | .swagePgo w l => Sys2Proof.Machine.execSwagePgo w l s
  | .swageBandWrite w l v => Sys2Proof.Machine.execSwageBandWrite w l v s
  | .lswOvercurrent c ma => Sys2Proof.Machine.execLswOvercurrent c ma s
  | .lswOvertemp c ma => Sys2Proof.Machine.execLswOvertemp c ma s
  | .lswOpen c ma => Sys2Proof.Machine.execLswOpen c ma s
  | .lswSupply high mv => Sys2Proof.Machine.execLswSupply high mv s
  | .supplyRecovery => Sys2Proof.Machine.execSupplyRecovery s
  | .clearOcl w c => Sys2Proof.Machine.execClearOcl w c s
  | .clearOtl w c hot => Sys2Proof.Machine.execClearOtl w c hot s
  | .halfBridgePair w h v => Sys2Proof.Machine.execHalfBridgePair w h v s
  | .deadTimeEnd h => Sys2Proof.Machine.execDeadTimeEnd h s
  | .pwmPeriod c => Sys2Proof.Machine.execPwmPeriod c s
  | .pwmOnPhaseEnd c => Sys2Proof.Machine.execPwmOnPhaseEnd c s
  | .currentSenseUpdate vsup ch => Sys2Proof.Machine.execCurrentSenseUpdate vsup ch s
  | .adcConversionStart => Sys2Proof.Machine.execAdcConversionStart s
  | .adcConversionDone x => Sys2Proof.Machine.execAdcConversionDone x s
  | .ainOverload a => Sys2Proof.Machine.execAinOverload a s
  | .shuntClose a => Sys2Proof.Machine.execShuntClose a s
  | .tongsRun w t b => Sys2Proof.Machine.execTongsRun w t b s
  | .tongsRestart w t => Sys2Proof.Machine.execTongsRestart w t s
  | .tongsJmp t cond p dest pins => Sys2Proof.Machine.execTongsJmp t cond p dest pins s
  | .tongsWait t level p pins => Sys2Proof.Machine.execTongsWait t level p pins s
  | .tongsDrive t mode mask => Sys2Proof.Machine.execTongsDrive t mode mask s
  | .tongsShin t p pins => Sys2Proof.Machine.execTongsShin t p pins s
  | .tongsShout t p => Sys2Proof.Machine.execTongsShout t p s
  | .tongsPull t block => Sys2Proof.Machine.execTongsPull t block s
  | .tongsPush t block => Sys2Proof.Machine.execTongsPush t block s
  | .tongsLdi t k imm => Sys2Proof.Machine.execTongsLdi t k imm s
  | .tongsMov t dst src pins => Sys2Proof.Machine.execTongsMov t dst src pins s
  | .tongsAlu t d rs op => Sys2Proof.Machine.execTongsAlu t d rs op s
  | .tongsCnt t op => Sys2Proof.Machine.execTongsCnt t op s
  | .tongsEvt t => Sys2Proof.Machine.execTongsEvt t s
  | .tongsDelay t n => Sys2Proof.Machine.execTongsDelay t n s
  | .tongsIllegal t => Sys2Proof.Machine.execTongsIllegal t s
  | .tongsTxfWrite w t v => Sys2Proof.Machine.execTongsTxfWrite w t v s
  | .tongsRxfRead w t => Sys2Proof.Machine.execTongsRxfRead w t s
  | .pendEnable w v => Sys2Proof.Machine.execPendEnable w v s
  | .pendMark mark ns => Sys2Proof.Machine.execPendMark mark ns s
  | .pendCodeEnd => Sys2Proof.Machine.execPendCodeEnd s
  | .pendFlood => Sys2Proof.Machine.execPendFlood s
  | .pendThresholdResume => Sys2Proof.Machine.execPendThresholdResume s
  | .timerRun w n b => Sys2Proof.Machine.execTimerRun w n b s
  | .timerSwcap w n mask => Sys2Proof.Machine.execTimerSwcap w n mask s
  | .timerCapture n c rising => Sys2Proof.Machine.execTimerCapture n c rising s
  | .timerCompareMatch n c => Sys2Proof.Machine.execTimerCompareMatch n c s
  | .timerWrap n => Sys2Proof.Machine.execTimerWrap n s
  | .timerRunningRead w n => Sys2Proof.Machine.execTimerRunningRead w n s
  | .captureRead w n c => Sys2Proof.Machine.execCaptureRead w n c s
  | .ingCmdProgram w idx => Sys2Proof.Machine.execIngCmdProgram w idx s
  | .ingCmdErase w idx => Sys2Proof.Machine.execIngCmdErase w idx s
  | .pageProgramDone ok => Sys2Proof.Machine.execPageProgramDone ok s
  | .sectorEraseDone => Sys2Proof.Machine.execSectorEraseDone s
  | .eraseSuspend w => Sys2Proof.Machine.execEraseSuspend w s
  | .suspendComplete => Sys2Proof.Machine.execSuspendComplete s
  | .eraseResume w => Sys2Proof.Machine.execEraseResume w s
  | .bellowsIdleEvaluation slack tj => Sys2Proof.Machine.execBellowsIdleEvaluation slack tj s
  | .bellowsEmerg => Sys2Proof.Machine.execBellowsEmerg s
  | .thermalQuench => Sys2Proof.Machine.execThermalQuench s
  | .avsTransactionDone ok => Sys2Proof.Machine.execAvsTransactionDone ok s
  | .avsSettled => Sys2Proof.Machine.execAvsSettled s
  | .marginMeasure l eyeh eyew => Sys2Proof.Machine.execMarginMeasure l eyeh eyew s
  | .eqLoad w l v => Sys2Proof.Machine.execEqLoad w l v s
  | .substitutionGo w v => Sys2Proof.Machine.execSubstitutionGo w v s
  | .substitutionAutoTrigger e low => Sys2Proof.Machine.execSubstitutionAutoTrigger e low s
  | .substitutionSwitch => Sys2Proof.Machine.execSubstitutionSwitch s
  | .substitutionFinalTimeout => Sys2Proof.Machine.execSubstitutionFinalTimeout s
  | .oldCoreDrained => Sys2Proof.Machine.execOldCoreDrained s
  | .wakeSource src supply => Sys2Proof.Machine.execWakeSource src supply s
  | .armedWake => Sys2Proof.Machine.execArmedWake s
  | .sleepEntryDone => Sys2Proof.Machine.execSleepEntryDone s
  | .wakeComplete slow => Sys2Proof.Machine.execWakeComplete slow s
  | .por => Sys2Proof.Machine.execPor s
  | .bor src => Sys2Proof.Machine.execBor src s
  | .rstN => Sys2Proof.Machine.execRstN s
  | .wdtKick w key => Sys2Proof.Machine.execWdtKick w key s
  | .wdtWarn => Sys2Proof.Machine.execWdtWarn s
  | .wdt => Sys2Proof.Machine.execWdt s
  | .chrstGo w => Sys2Proof.Machine.execChrstGo w s
  | .chainReset => Sys2Proof.Machine.execChainReset s
  | .resetRelease bar2 boot mpri test banks engines rows unrep burn => Sys2Proof.Machine.execResetRelease bar2 boot mpri test banks engines rows unrep burn s
  | .quenchSet w => Sys2Proof.Machine.execQuenchSet w s
  | .quenchClearWrite w => Sys2Proof.Machine.execQuenchClearWrite w s
  | .quenchPin pin rising => Sys2Proof.Machine.execQuenchPin pin rising s
  | .mailboxCfgWrite w c v => Sys2Proof.Machine.execMailboxCfgWrite w c v s
  | .mailboxDoorbell w idx v => Sys2Proof.Machine.execMailboxDoorbell w idx v s
  | .mailboxTake w idx v => Sys2Proof.Machine.execMailboxTake w idx v s
  | .mailboxCancel w idx v => Sys2Proof.Machine.execMailboxCancel w idx v s
  | .mbxTimeout idx => Sys2Proof.Machine.execMbxTimeout idx s
  | .msg src tag b => Sys2Proof.Machine.execMsg src tag b s
  | .taken src tag b => Sys2Proof.Machine.execTaken src tag b s
  | .cancel src tag b => Sys2Proof.Machine.execCancel src tag b s
  | .mbxa tag status r => Sys2Proof.Machine.execMbxa tag status r s
  | .mbxRemoteTimeout tag => Sys2Proof.Machine.execMbxRemoteTimeout tag s
  | .patchCheck w v => Sys2Proof.Machine.execPatchCheck w v s
  | .patchCheckDone ok => Sys2Proof.Machine.execPatchCheckDone ok s
  | .secureDescriptorWrite w r v => Sys2Proof.Machine.execSecureDescriptorWrite w r v s
  | .arbRead => Sys2Proof.Machine.execArbRead s
  | .arbRaise => Sys2Proof.Machine.execArbRaise s
  | .uidRead => Sys2Proof.Machine.execUidRead s
  | .burnRoot w confirm => Sys2Proof.Machine.execBurnRoot w confirm s
  | .burnSeal w confirm => Sys2Proof.Machine.execBurnSeal w confirm s
  | .raise w idx confirm => Sys2Proof.Machine.execRaise w idx confirm s
  | .keyBurn => Sys2Proof.Machine.execKeyBurn s
  | .debugRequest w scope => Sys2Proof.Machine.execDebugRequest w scope s
  | .debugResponseCheck w v => Sys2Proof.Machine.execDebugResponseCheck w v s
  | .dbgUnlock ok => Sys2Proof.Machine.execDbgUnlock ok s
  | .debugLock w scope => Sys2Proof.Machine.execDebugLock w scope s
  | .extest cells => Sys2Proof.Machine.execExtest cells s
  | .samplePreload cells => Sys2Proof.Machine.execSamplePreload cells s
  | .idcode => Sys2Proof.Machine.execIdcode s
  | .clamp => Sys2Proof.Machine.execClamp s
  | .highz => Sys2Proof.Machine.execHighz s
  | .extestPulse cells => Sys2Proof.Machine.execExtestPulse cells s
  | .extestTrain cells => Sys2Proof.Machine.execExtestTrain cells s
  | .bypass op => Sys2Proof.Machine.execBypass op s
  | .debug => Sys2Proof.Machine.execDebug s
  | .jtagDebugRead off => Sys2Proof.Machine.execJtagDebugRead off s
  | .jtagDebugWrite off v => Sys2Proof.Machine.execJtagDebugWrite off v s
  | .tapReset => Sys2Proof.Machine.execTapReset s
  | .registerRead w addr word => Sys2Proof.Machine.execRegisterRead w addr word s
  | .translatedReadComplete e pre ok b => Sys2Proof.Machine.execTranslatedReadComplete e pre ok b s
  | .pcieLinkUp width speed => Sys2Proof.Machine.execPcieLinkUp width speed s
  | .shaperCreditZero p c => Sys2Proof.Machine.execShaperCreditZero p c s
  | .canFrameTransmitted c tec rec => Sys2Proof.Machine.execCanFrameTransmitted c tec rec s
  | .canBusError c tec rec => Sys2Proof.Machine.execCanBusError c tec rec s
  | .canArbitrationLost c => Sys2Proof.Machine.execCanArbitrationLost c s
  | .timerCountEdge n => Sys2Proof.Machine.execTimerCountEdge n s
  | .doneEdge high => Sys2Proof.Machine.execDoneEdge high s
  | .preemptVerifyResponse p response => Sys2Proof.Machine.execPreemptVerifyResponse p response s
  | .operatingConditionChange bad => Sys2Proof.Machine.execOperatingConditionChange bad s
  | .frequencySwitchDone => Sys2Proof.Machine.execFrequencySwitchDone s

end Sys2Proof.Machine
end

