-- ==== Sys2Proof/Machine/Idle.lean ====
section
/-!
DEFINITION. What happens on a TIME edge whatever is commanded: the step on an empty queue (DESIGN CHOICE, log entry 59).
-/

namespace Sys2Proof.Machine

/-- One TIME edge for the current task of engine e: its budget clock takes one cycle (R48), an aligned entry waits one edge less (R174),
and what registers from here on registers on this edge (R192). DESIGN CHOICE, log entry 59. -/
def State.clockEdge (s : State) (e : Nat) : State :=
  s.modEng e (fun g => { g with
    fresh := 0,
    cur := g.cur.map (fun r => { r with
      clock := r.clock + 1,
      stall := match r.stall with
        | .aligned n => .aligned (n - 1)
        | x => x }) })

/-- Has an aligned entry of the engine reached edge E + DLY (R174)? -/
def Eng.entryDue (g : Eng) : Bool := g.cur.any (fun r => r.stall == .aligned 0)

/-- The state that a command which answers a next state leaves. -/
def State.after (s : State) (f : State → Host.Outcome State Fault Refusal) : State :=
  match f s with
  | .next t => t
  | _ => s

/-- The Settle start that no command has brought: its measured operands are free values. DESIGN CHOICE, log entry 59. -/
def State.settleNow (s : State) : State :=
  let a := s.free
  let b := a.2.free
  let c := b.2.free
  c.2.after (execSettleStart (a.1.setWidth 16) (b.1.setWidth 16) (c.1.setWidth 20))

/-- The tick or phase start that the time base has reached (R38, R736, R737), and the ends of R39, R40 and R43. -/
def State.hearthDue (s : State) : Option State :=
  let h := s.hearth
  if h.armed then
    if s.reached s.firstAt then some (s.after execFirstTickStart)
    else if s.get Reg.HRT_CTRL_SRC = 1 ∧ h.edge.isNone ∧ s.reached (some h.nominal) then some (s.after execFirstEdgeTimeout) else none
  else if !s.running then none
  else if h.syncOut ∧ h.nominal + 1000 ≤ s.now then some (s.after execSyncOutEnd)
  else if s.get Reg.HRT_CTRL_SRC = 1 ∧ !h.free ∧ !h.taken ∧ h.nominal + s.get Reg.HRT_SYNCWIN_WIN < s.now then some (s.after execSyncWindowEnd)
  else if (s.get Reg.HRT_CTRL_SRC = 1 ∨ s.follows) ∧ 17 ≤ h.missed ∧ !h.free then some (s.after execSourceLoss)
  else if s.phase = 3 then (if s.reached (some s.tickAt) then some (s.after execTickStart) else none)
  else if !s.reached (s.boundaryAt (s.phase + 1)) then none
  else match s.phase with
    | 0 => some (s.after execComputeStart)
    | 1 => some (s.after execEmitStart)
    | _ => some s.settleNow

/-- What the time base has brought due at port `p`: the end of a PAUSE (R334), the next entry of the gate list (R329), a PAUSE to be sent again
(R336), a fragment that may end now, or a frame that may start now (R323, R327, R330, R332). -/
def State.portDue (s : State) (p : Nat) : Option State :=
  if s.pauseOver p then some (s.endPause p)
  else if s.gateDue p then some (s.after (execGateEntryStart (Fin.ofNat 6 p)))
  else if s.refreshDue p && s.get (Reg.PORT_PCFG_QUANTA p) != 0 then some (s.after (execPauseRefresh (Fin.ofNat 6 p)))
  else
    let x := s.port p
    if x.q.isEmpty && x.preempted.isNone && !x.wire.any (fun f => s.mustCut p f) then none
    else
      let t := s.select p
      if (t.port p).wire == x.wire then none else some t

/-- Does a cell wait on link `l` that may go now that a reserved departure has passed (R432)? -/
def State.cellDue (s : State) (l : Nat) : Bool := (s.nextCell l).isSome

/-- What the time base has brought due at the Swage loops: an output, a sample; the lowest loop first (R465, R466). -/
def State.swageDue (s : State) : Option State :=
  match (List.finRange 16).find? (fun (l : Fin 16) => s.swgApplyDue l) with
  | some l => some (s.after (execSwageOutputApply l))
  | none => ((List.finRange 16).find? (fun (l : Fin 16) => s.swgDue l)).map (fun l => s.after (execSwageSample l))

/-- What the time base has brought due at the channels and half-bridges: the end of a PWM period, of an on-phase, of a dead time (R500, R512). -/
def State.lswDue (s : State) : Option State :=
  match (List.finRange 12).find? (fun (c : Fin 12) => (s.chan c).now.isPwm && s.pwmOver c) with
  | some c => some (s.after (execPwmPeriod c))
  | none => match (List.finRange 12).find? (fun (c : Fin 12) => s.on (Reg.LSW_CH_STAT_ON c) && s.pwmEnds c) with
    | some c => some (s.after (execPwmOnPhaseEnd c))
    | none => ((List.finRange 6).find? (fun (h : Fin 6) => s.deadOver h)).map (fun h => s.after (execDeadTimeEnd h))

/-- Is a trap raised that the current task may take now: not while its instruction waits for an access (R153, R261)? -/
def Eng.trapDue (g : Eng) : Bool := g.raised.isSome && !g.inAccess

/-- What the time base has brought due and no command has done yet: an expired budget (R49), a raised trap, an aligned entry (R174), an event of a
port, a start of the Hearth; one at a time, in this order. DESIGN CHOICE, log entry 59. -/
def State.due (s : State) : Option State :=
  match (List.finRange 16).find? (fun (e : Fin 16) => s.spent e) with
  | some e => some (s.after (execTaskBudgetExpiry e))
  | none => match (List.finRange 16).find? (fun (e : Fin 16) => (s.engN e).trapDue) with
  | some e => some (s.trap e ((s.engN e).raised.getD causeDmemEcc))
  | none => match (List.finRange 16).find? (fun (e : Fin 16) => (s.engN e).entryDue) with
    | some e => some (s.after (execAlignedEntry e))
    | none => match (List.range 6).findSome? (fun p => s.portDue p) with
      | some t => some t
      | none =>
        if let some l := (List.range 4).find? (fun l => s.cellDue l) then some (s.flow l)
        else if let some t := s.swageDue then some t
        else if let some t := s.lswDue then some t
        else if let some t := s.tngNextDue then some (s.tngStep t)
        else if let some i := (List.finRange 32).find? (fun (i : Fin 32) => s.mbxExpired i) then some (s.after (execMbxTimeout i))
        else if s.rxWritten && s.dueHeld then some s.releaseDue
        else if !s.running ∧ s.hif.idleDue ∧ !s.cmdOpen then some s.idleService
        else if s.power.planDue && s.planReady && (!s.running || s.phase == 3) then some s.planLast
        else if s.armedNow then some (s.after execArmedWake)
        else s.hearthDue

/-- The step on an empty queue. What is due happens, and time stands until it has, so that no tick, phase, budget or aligned entry is
late; otherwise one TIME edge: the time base advances (R361) and takes a step in effect when no tick is in progress (R365), the timers in the TIME
domain count (R544), step edges of the Tongs engines come (R530), the budget clocks run (R48), a WAITT whose time has come ends (R223), the watchdog counts (R640), Compute's busy times grow (R603), and enabled
links that are DOWN start to train. Nothing while the TIME domain stands still. DESIGN CHOICE, log entry 59. -/
def State.timeEdge (s : State) : State :=
  if !s.timeRuns then
    -- the time base runs on while a SOFT reset is held (N4 of R648)
    if s.power.reset = some 9 ∧ s.get Reg.PWR_STAT_STATE < 2 then s.tbEdge else s
  else match s.due with
  | some t => t
  | none =>
    let s := s.tbEdge.pioEdge
    let s := s.when (!s.running) State.applySteps
    let s := s.each 16 (fun e t => t.clockEdge e)
    let s := s.onOneEdge (fun s => s.each 16 (fun n t => t.tmrEdge n))
    let s := s.each 16 (fun e t => t.waittRelease (Fin.ofNat 16 e))
    s.busyEdge.trainLinks.wdtEdge

end Sys2Proof.Machine
end

