-- ==== Sys2Proof/Machine/Step.lean ====
section
/-!
DEFINITION. One step: the command at the front of the queue, or one TIME edge on an empty queue.
-/

namespace Sys2Proof.Machine

/-- Take the command at the front of the queue and run it with the queue's rest; on an empty queue one TIME edge passes (DESIGN CHOICE, log entry 59). DESIGN CHOICE, log entry 1. -/
def step (s : State) : Host.Outcome State Fault Refusal :=
  match s.pending with
  | c :: r => exec c { s with pending := r }
  | [] => .next s.timeEdge

/-- The state with the command that the word spells at the front of its queue; unchanged where the word spells none. DESIGN CHOICE, log entry 59. -/
def State.withFetchWord (s : State) (nbits w : Nat) : State :=
  match Sys2Proof.decodeTableWord nbits w with
  | some c => { s with pending := c :: s.pending }
  | none => s

end Sys2Proof.Machine
end

