-- ==== Sys2Proof/Safety.lean ====
section
/-!
DEFINITION. What a safe state and a safe run are, and the words in which the statements speak: when an engine can issue, what a data
operation leaves, and which rows are instructions of an engine.
-/

namespace Sys2Proof.Machine

/-- The canonical forms of the state: the memories and the set-up registers are sparse tables with rising keys and no entry at its default,
and the fault ledger holds at most 256 entries (R657). -/
def State.Inv (s : State) : Prop :=
  Memory.wf s.mem = true ∧ Sparse.wf RegMap.resetWord s.regs = true ∧ s.ledger.length ≤ 256

/-- A step is safe when it neither faults nor refuses. -/
def State.Safe (s : State) : Prop := ∃ t, step s = .next t

/-- A run of n safe steps from s to t. -/
inductive Run.To : Nat → State → State → Prop where
  | zero (s : State) : Run.To 0 s s
  | succ {n : Nat} {s t u : State} : step s = .next t → Run.To n t u → Run.To (n + 1) s u

/-! ## Engines -/

/-- Engine e can issue an instruction of run r in context c: the run is current, nothing stalls it, the engine is not halted, and the
fetch raises no trap (R155, R197). -/
def State.CanIssue (s : State) (e : Fin 16) (r : Run) (c : Ctx) : Prop :=
  (s.engN e).cur = some r ∧ r.stall = .none ∧ (s.engN e).halted = false ∧ s.ctxOf e = c ∧ s.fetchTrap e = none

/-- No halt waits for an access of engine e to be answered (R188). -/
def State.noHaltDue (s : State) (e : Nat) : Prop := (s.engN e).haltReq = false ∨ s.running = true

/-- The state once the word at PC is fetched: a single-bit error there is corrected and counted (R155). -/
def State.afterFetch (s : State) (e : Nat) : State := s.engCorr e (Memory.engine e (s.ctxOf e).pc.toNat)

/-- The FLG word that a data operation leaves: Z, N, C and V as given, every other bit as it was. -/
def FlgIs (old new : W32) (z n c v : Bool) : Prop :=
  flgZ new = z ∧ flgN new = n ∧ flgC new = c ∧ flgV new = v ∧ ∀ i, 4 ≤ i → new.getLsbD i = old.getLsbD i

/-- The instruction completes at engine e with context c' (loop handling follows). -/
def Completes (i : Instr) (s : State) (e : Fin 16) (c' : Ctx) : Prop := exec i s = .next ((s.afterFetch e).done e c')

/-- A transfer of control: the instruction leaves context c' as it stands. -/
def Transfers (i : Instr) (s : State) (e : Fin 16) (c' : Ctx) : Prop := exec i s = .next ((s.afterFetch e).put e c')

/-- The instruction raises the trap with this cause. -/
def Traps (i : Instr) (s : State) (e : Fin 16) (cause : Nat) : Prop := exec i s = .next ((s.afterFetch e).trap e cause)

/-- A data operation of engine e: Dd takes v, Z and N follow it, C and V are as given, and nothing else of the context changes before the
loop handling. -/
def DataOp (i : Instr) (s : State) (e d : Fin 16) (c : Ctx) (v : W32) (cf vf : Bool) : Prop :=
  ∃ c', Completes i s e c' ∧ c'.D d = v ∧ (∀ j, j < 16 → j ≠ d.val → c'.D j = c.D j) ∧
    FlgIs c.flg c'.flg (decide (v = 0)) (decide (2 ^ 31 ≤ v.toNat)) cf vf ∧ c' = { c with d := c'.d, flg := c'.flg }

/-- A compare of engine e: the flags take what the result v gives, and no register changes. -/
def FlagOp (i : Instr) (s : State) (e : Fin 16) (c : Ctx) (v : W32) (cf vf : Bool) : Prop :=
  ∃ f, Completes i s e { c with flg := f } ∧ FlgIs c.flg f (decide (v = 0)) (decide (2 ^ 31 ≤ v.toNat)) cf vf

/-- Does an integer lie outside the signed 32-bit range? -/
def outside32 (v : Int) : Bool := decide (v < -(2 ^ 31) ∨ 2 ^ 31 ≤ v)

/-- The engine of a row that an engine issues as an instruction (07). -/
def engineOf : Instr → Option (Fin 16)
  | .illegalInstruction e _ => some e
  | i => (encodeGrg i).map (fun p => p.1)

end Sys2Proof.Machine
end

