-- ==== Sys2Proof/WellFormed.lean ====
section
/-!
DEFINITION. Which commands are well formed: those whose byte lists have a length the spec gives them. Every other operand is bounded by
its type.
-/

namespace Sys2Proof

/-- A Chain cell's payload is 64 bytes (12, Cells), a route table 32 (R403), a doorbell block 512 and a descriptor 32 (04), a CAN FD frame
in its buffer layout 8 to 72 (10, CAN FD). -/
def Instr.wf : Instr → Bool
  | .hello _ x => x.length == 64
  | .route _ _ id x => id == 0xFF || x.length == 32
  | .etRd _ _ x => x.length == 64
  | .etWr _ _ x => x.length == 64
  | .ttCell _ _ x => x.length == 64
  | .sync _ _ x => x.length == 64
  | .rdr _ x => x.length == 64
  | .wra _ x => x.length == 64
  | .msg _ _ x => x.length == 64
  | .taken _ _ x => x.length == 64
  | .cancel _ _ x => x.length == 64
  | .canFrameReceived _ x _ _ => decide (8 ≤ x.bytes.length ∧ x.bytes.length ≤ 72)
  | .doorbellReadComplete ok x => !ok || x.length == 512
  | .descriptorReadComplete _ ok x => !ok || x.length == 32
  | _ => true

end Sys2Proof
end

