-- ==== Sys2Proof/Certificates/Slice0/Obligations.lean ====
section
/-!
DEFINITION. The statements for the provers.
-/

open Sys2Proof Sys2Proof.Machine

/-! ## The block -/

/-- The command at the front of the queue runs, and leaves the queue's rest. -/
def Obligations.StepRunsTheFrontCommand : Prop :=
  ∀ (c : Instr) (r : List Instr) (s : State), s.pending = c :: r → step s = exec c { s with pending := r }

/-- On an empty queue one TIME edge passes (the model's choice: DESIGN CHOICE, log entry 59). -/
def Obligations.EmptyQueuePassesATimeEdge : Prop :=
  ∀ s : State, s.pending = [] → step s = .next s.timeEdge

/-- Reset leaves the invariant, every set-up register at its reset value, among them the period, the boundaries, the rate and DEV_ID,
nothing queued, no ledger entry, and no byte listed (02, 05, 11; what unlisted memory reads as is DESIGN CHOICE, log entry 3). -/
def Obligations.ResetMeetsTheInvariant : Prop :=
  State.reset.Inv ∧ (∀ key, State.reset.word key = RegMap.resetWord key) ∧ State.reset.get Reg.HRT_PERIOD_PERIOD = 10000 ∧
  State.reset.get Reg.HRT_B1_B = 64 ∧ State.reset.get Reg.HRT_B2_B = 768 ∧ State.reset.get Reg.HRT_B3_B = 896 ∧
  State.reset.get Reg.TIME_ADDEND_ADD = 0x40000000 ∧ State.reset.word Reg.DEV_ID = 0x73401F0D ∧ State.reset.running = false ∧
  State.reset.pending = [] ∧ State.reset.ledger = [] ∧ (∀ a, Memory.read State.reset.mem a = Memory.dflt a) ∧
  (∀ e, e < 16 → (State.reset.engN e).inReset = true)

/-- Every step keeps the canonical forms of memory and registers and the ledger's limit of 256 entries (R657). -/
def Obligations.StepKeepsTheInvariant : Prop :=
  ∀ s t : State, s.Inv → step s = .next t → t.Inv

/-- Every well-formed command answers a next state, and an ill-formed one faults: nothing is refused. -/
def Obligations.EveryWellFormedCommandAnswers : Prop :=
  ∀ (i : Instr) (s : State),
    (Instr.wf i = true → ∃ t, exec i s = .next t) ∧ (Instr.wf i = false → exec i s = .fault .illFormed)

/-! ## GRG instructions (07) -/

/-- The word that stands for an instruction decodes to it, with every operand at every value (R198): what the decoded word does when
issued is what the command does. -/
def Obligations.GrgWordsDecodeToTheirInstruction : Prop :=
  ∀ (i : Instr) (e : Fin 16) (w : W32), encodeGrg i = some (e, w) →
    ∃ f, decodeGrg e w = some f ∧ ∀ s : State, exec i s = .next (s.issueG e f)

/-- An engine without a current task, with a stalled one, or halted, issues nothing. -/
def Obligations.NothingIssuesWithoutARunningTask : Prop :=
  ∀ (i : Instr) (e : Fin 16) (s : State), engineOf i = some e →
    (match (s.engN e).cur with
      | none => True
      | some r => r.stall ≠ .none ∨ (s.engN e).halted = true) →
    exec i s = .next s

/-- What completing an instruction changes, and what it leaves: the context of the current task becomes the one given after loop
handling, the other context, every other engine, the rest of the device and every byte of memory stay; the only register that may change
counts a corrected error of the fetched word (R155). -/
def Obligations.CompletionFrame : Prop :=
  ∀ (s : State) (e : Fin 16) (r : Run) (c' : Ctx), (s.engN e).cur = some r →
    ∀ (u : State) (c1 : Ctx), (u = (s.afterFetch e).done e c' ∧ c1 = c'.complete) ∨ (u = (s.afterFetch e).put e c' ∧ c1 = c') →
      u.ctxOf e = c1 ∧
      (∀ k, k ≠ r.kind → (u.engN e).ctx k = (s.engN e).ctx k) ∧
      u.engN e = { s.engN e with ph := (u.engN e).ph, ev := (u.engN e).ev, cur := some { r with first := false, stall := .none, lutGot := [] } } ∧
      (∀ n, n ≠ e.val → u.engN n = s.engN n) ∧
      u = { s with eng := u.eng, regs := u.regs, eccOne := u.eccOne } ∧
      (∀ a, Memory.read u.mem a = Memory.read s.mem a) ∧
      (∀ key, key ≠ (Reg.ENG_ECC_CORR e).addr → u.word key = s.word key) ∧
      (Memory.engine e (s.ctxOf e).pc.toNat ∉ s.eccOne → u.regs = s.regs ∧ u.eccOne = s.eccOne)

/-- Additions, subtractions and the compares built on them (R199, R200): the result, Z and N from it, C the carry or the absence of a
borrow, V the signed overflow. -/
def Obligations.AddAndSubtractResults : Prop :=
  ∀ (e d m n : Fin 16) (imm : BitVec 18) (s : State) (r : Run) (c : Ctx), s.CanIssue e r c →
    let k := if flgC c.flg then 1 else 0
    let i := imm.signExtend 32
    let x := c.D m
    let y := c.D n
    DataOp (.add e d m n) s e d c (x + y) (decide (2 ^ 32 ≤ x.toNat + y.toNat)) (outside32 (x.toInt + y.toInt)) ∧
    DataOp (.addc e d m n) s e d c (x + y + BitVec.ofNat 32 k) (decide (2 ^ 32 ≤ x.toNat + y.toNat + k)) (outside32 (x.toInt + y.toInt + k)) ∧
    DataOp (.sub e d m n) s e d c (x - y) (decide (y.toNat ≤ x.toNat)) (outside32 (x.toInt - y.toInt)) ∧
    DataOp (.subc e d m n) s e d c (x - y - BitVec.ofNat 32 (1 - k)) (decide (y.toNat + (1 - k) ≤ x.toNat))
      (outside32 (x.toInt - y.toInt - ((1 - k : Nat) : Int))) ∧
    DataOp (.neg e d m) s e d c (0 - x) (decide (x.toNat ≤ 0)) (outside32 (0 - x.toInt)) ∧
    DataOp (.addi e d m imm) s e d c (x + i) (decide (2 ^ 32 ≤ x.toNat + i.toNat)) (outside32 (x.toInt + i.toInt)) ∧
    FlagOp (.cmp e m n) s e c (x - y) (decide (y.toNat ≤ x.toNat)) (outside32 (x.toInt - y.toInt)) ∧
    FlagOp (.cmpi e m imm) s e c (x - i) (decide (i.toNat ≤ x.toNat)) (outside32 (x.toInt - i.toInt))

/-- Logic, moves, minima and maxima, counts, the low product, field extraction and insertion (R200): Z and N follow the result, C and V
stay; MOV and MOVI set no flag. -/
def Obligations.LogicAndMoveResults : Prop :=
  ∀ (e d m n : Fin 16) (imm : BitVec 18) (h : Bool) (w : BitVec 16) (s : State) (r : Run) (c : Ctx), s.CanIssue e r c →
    let x := c.D m
    let y := c.D n
    let z := imm.setWidth 32
    let cf := flgC c.flg
    let vf := flgV c.flg
    DataOp (.andD e d m n) s e d c (x &&& y) cf vf ∧ DataOp (.orD e d m n) s e d c (x ||| y) cf vf ∧
    DataOp (.xor e d m n) s e d c (x ^^^ y) cf vf ∧ DataOp (.andn e d m n) s e d c (x &&& ~~~ y) cf vf ∧
    DataOp (.andi e d m imm) s e d c (x &&& z) cf vf ∧ DataOp (.ori e d m imm) s e d c (x ||| z) cf vf ∧
    DataOp (.xori e d m imm) s e d c (x ^^^ z) cf vf ∧ FlagOp (.tst e m n) s e c (x &&& y) cf vf ∧
    DataOp (.minS e d m n) s e d c (if y.toInt < x.toInt then y else x) cf vf ∧
    DataOp (.maxS e d m n) s e d c (if x.toInt < y.toInt then y else x) cf vf ∧
    DataOp (.minu e d m n) s e d c (BitVec.ofNat 32 (min x.toNat y.toNat)) cf vf ∧
    DataOp (.maxu e d m n) s e d c (BitVec.ofNat 32 (max x.toNat y.toNat)) cf vf ∧
    DataOp (.mull e d m n) s e d c (BitVec.ofNat 32 (x.toNat * y.toNat % 2 ^ 32)) cf vf ∧
    (∃ q : W32, DataOp (.clz e d m) s e d c q cf vf ∧ q.toNat ≤ 32 ∧ x.toNat < 2 ^ (32 - q.toNat) ∧
      (x ≠ 0 → 2 ^ (31 - q.toNat) ≤ x.toNat) ∧ (x = 0 → q.toNat = 32)) ∧
    Completes (.mov e d m) s e (c.setD d x) ∧
    Completes (.movi e d h w) s e (c.setD d (if h then w ++ (c.D d).setWidth 16 else w.setWidth 32))

/-- EXT and INS take and place the bits pos + w - 1 : pos; with pos + w above 32 they are ILLEGAL (R203). -/
def Obligations.FieldExtractAndInsert : Prop :=
  ∀ (e d m : Fin 16) (pos w1 : BitVec 5) (g : Bool) (s : State) (r : Run) (c : Ctx), s.CanIssue e r c →
    let p := pos.toNat
    let w := w1.toNat + 1
    (32 < p + w → Traps (.ext e d m pos w1 g) s e causeIllegal ∧ Traps (.ins e d m pos w1) s e causeIllegal) ∧
    (p + w ≤ 32 →
      (∃ v : W32, DataOp (.ext e d m pos w1 g) s e d c v (flgC c.flg) (flgV c.flg) ∧
        ∀ i, i < 32 → v.getLsbD i = if i < w then (c.D m).getLsbD (p + i) else (g && (c.D m).getLsbD (p + w - 1))) ∧
      (∃ v : W32, DataOp (.ins e d m pos w1) s e d c v (flgC c.flg) (flgV c.flg) ∧
        ∀ i, i < 32 → v.getLsbD i = if p ≤ i ∧ i < p + w then (c.D m).getLsbD (i - p) else (c.D d).getLsbD i))

/-- Shifts (R201): the bits moved, C the last bit shifted out, and the cases n = 0 and n of 32 or more; V stays. -/
def Obligations.ShiftResults : Prop :=
  ∀ (e d m n : Fin 16) (amt : BitVec 5) (s : State) (r : Run) (c : Ctx), s.CanIssue e r c →
    ∀ (a : Nat) (shl shr sar ror : Instr),
      ((a = (c.D n).toNat % 256 ∧ shl = .shl e d m n ∧ shr = .shr e d m n ∧ sar = .sar e d m n ∧ ror = .ror e d m n) ∨
       (a = amt.toNat ∧ shl = .shli e d m amt ∧ shr = .shri e d m amt ∧ sar = .sari e d m amt ∧ ror = .rori e d m amt)) →
      let x := c.D m
      let v := flgV c.flg
      (a = 0 → DataOp shl s e d c x false v ∧ DataOp shr s e d c x false v ∧ DataOp sar s e d c x false v ∧ DataOp ror s e d c x false v) ∧
      (0 < a → a < 32 →
        DataOp shl s e d c (BitVec.ofNat 32 (x.toNat * 2 ^ a)) (x.getLsbD (32 - a)) v ∧
        DataOp shr s e d c (BitVec.ofNat 32 (x.toNat / 2 ^ a)) (x.getLsbD (a - 1)) v ∧
        DataOp sar s e d c (BitVec.ofInt 32 (x.toInt / 2 ^ a)) (x.getLsbD (a - 1)) v) ∧
      (32 ≤ a →
        DataOp shl s e d c 0 false v ∧ DataOp shr s e d c 0 false v ∧
        DataOp sar s e d c (if x.getLsbD 31 then 0xFFFFFFFF else 0) (x.getLsbD 31) v) ∧
      (0 < a → ∃ q : W32, DataOp ror s e d c q (q.getLsbD 31) v ∧ ∀ i, i < 32 → q.getLsbD i = x.getLsbD ((i + a) % 32))

/-- Division and absolute value with their corners (R202). -/
def Obligations.DivideAndAbsResults : Prop :=
  ∀ (e d m n : Fin 16) (s : State) (r : Run) (c : Ctx), s.CanIssue e r c →
    let x := c.D m
    let y := c.D n
    let corner := x = 0x80000000 ∧ y = 0xFFFFFFFF
    (y = 0 → DataOp (.divu e d m n) s e d c 0xFFFFFFFF false true ∧
      DataOp (.divs e d m n) s e d c (if 0 ≤ x.toInt then 0x7FFFFFFF else 0x80000000) false true) ∧
    (y ≠ 0 → DataOp (.divu e d m n) s e d c (BitVec.ofNat 32 (x.toNat / y.toNat)) false false) ∧
    (corner → DataOp (.divs e d m n) s e d c 0x7FFFFFFF false true) ∧
    (y ≠ 0 → ¬ corner → DataOp (.divs e d m n) s e d c (BitVec.ofInt 32 (Int.tdiv x.toInt y.toInt)) false false) ∧
    (x = 0x80000000 → DataOp (.abs e d m) s e d c 0x7FFFFFFF (flgC c.flg) true) ∧
    (x ≠ 0x80000000 → DataOp (.abs e d m) s e d c (BitVec.ofNat 32 x.toInt.natAbs) (flgC c.flg) false)

/-- MOVX (R204): what each permitted class and index reads, what may be written, and ILLEGAL for the rest; no flag changes, but that a
write to FLG loads its seven flags. Address operations and circular addressing (R162, R208). -/
def Obligations.MovxAndAddressOperations : Prop :=
  (∀ (e d cls : Fin 16) (i : Fin 8) (s : State) (r : Run) (c : Ctx), s.CanIssue e r c →
    let k := cls.val
    let read := fun (v : W32) => Completes (.movx e d false cls i) s e (c.setD d v)
    let write := fun (c' : Ctx) => Completes (.movx e d true cls i) s e c'
    let v := c.D d
    let lo := v.setWidth 16
    (k = 0 → read ((c.A i).setWidth 32) ∧ write { c with a := c.a.setIfInBounds i lo }) ∧
    (k = 1 → i.val < 4 → read ((c.BNK i).setWidth 32) ∧ write { c with bnk := c.bnk.setIfInBounds i lo }) ∧
    (k = 2 → read ((c.LEN i).setWidth 32) ∧ write { c with len := c.len.setIfInBounds i lo }) ∧
    (k = 3 → i = 0 → read c.flg ∧ write { c with flg := v &&& 0x7F }) ∧
    (k = 4 → i = 0 → read c.evs) ∧
    (k = 5 → i = 0 → read c.tcause) ∧ (k = 5 → i = 1 → read c.tpc) ∧
    (k = 6 → i = 4 → read (BitVec.ofNat 32 c.loops.length)) ∧ (k = 7 → i = 0 → read (BitVec.ofNat 32 c.rstk.length)) ∧
    (8 ≤ k ∨ (k = 1 ∧ 4 ≤ i.val) ∨ ((k = 3 ∨ k = 4 ∨ k = 7) ∧ i ≠ 0) ∨ (k = 5 ∧ 2 ≤ i.val) ∨ (k = 6 ∧ 5 ≤ i.val) →
      Traps (.movx e d false cls i) s e causeIllegal) ∧
    (4 ≤ k ∨ (k = 1 ∧ 4 ≤ i.val) ∨ (k = 3 ∧ i ≠ 0) → Traps (.movx e d true cls i) s e causeIllegal)) ∧
  ((∀ (e : Fin 16) (a b : Fin 8) (imm : BitVec 16) (s : State) (r : Run) (c : Ctx), s.CanIssue e r c →
    let flags := fun (i : Instr) (y : BitVec 16) =>
      ∃ f : W32, Completes i s e { c with flg := f } ∧ flgAZ f = decide (c.A a = y) ∧ flgAN f = decide ((c.A a).toNat < y.toNat) ∧
        ∀ j, j ≠ 4 → j ≠ 5 → f.getLsbD j = c.flg.getLsbD j
    Completes (.mova e a imm) s e { c with a := c.a.setIfInBounds a imm } ∧
    Completes (.adda e a imm) s e { c with a := c.a.setIfInBounds a (circular (c.A a) (c.LEN a) imm.toInt) } ∧
    Completes (.addar e a b) s e { c with a := c.a.setIfInBounds a (circular (c.A a) (c.LEN a) (c.A b).toInt) } ∧
    flags (.cmpa e a imm) imm ∧ flags (.cmpar e a b) (c.A b)) ∧
  (∀ (an : BitVec 16) (k : Int), circular an 0 k = BitVec.ofInt 16 ((an.toNat : Int) + k)) ∧
  (∀ (an len : BitVec 16) (k : Int) (p : Nat), len ≠ 0 → len.toNat ≤ 2 ^ p → (∀ q, len.toNat ≤ 2 ^ q → p ≤ q) →
    let b := an.toNat / 2 ^ p * 2 ^ p
    ((circular an len k).toNat : Int) = b + ((an.toNat : Int) - b + k) % len.toNat))

/-- B, BA and JR (R166, R209): where they go, which levels a taken one closes, and when they trap; CALL, CALLR and RET (R167, R168,
R209): the pushed address, the sixteen entries, and the traps. -/
def Obligations.BranchesCallsAndReturns : Prop :=
  ((∀ (e cond rs : Fin 16) (ca : Fin 4) (off : BitVec 22) (s : State) (r : Run) (c : Ctx), s.CanIssue e r c →
    let t := c.pc + BitVec.ofInt 32 (4 * off.toInt)
    let x := c.D rs
    (condB c.flg cond = none → Traps (.b e cond off) s e causeIllegal) ∧
    (condB c.flg cond = some true → Transfers (.b e cond off) s e { c with loops := closeFor t c.loops, pc := t }) ∧
    (condB c.flg cond = some false → Completes (.b e cond off) s e c) ∧
    (condBA c.flg ca = true → Transfers (.ba e ca off) s e { c with loops := closeFor t c.loops, pc := t }) ∧
    (condBA c.flg ca = false → Completes (.ba e ca off) s e c) ∧
    (x.toNat % 4 ≠ 0 → Traps (.jr e rs) s e causeAlign) ∧
    (x.toNat % 4 = 0 → Transfers (.jr e rs) s e { c with loops := closeFor x c.loops, pc := x })) ∧
  (∀ (t : W32) (ls : List LoopLevel), ∃ inner, ls = inner ++ closeFor t ls ∧
    (∀ l ∈ closeFor t ls, l.ls.toNat ≤ t.toNat ∧ t.toNat ≤ l.le.toNat) ∧
    (∀ l, inner.getLast? = some l → ¬ (l.ls.toNat ≤ t.toNat ∧ t.toNat ≤ l.le.toNat)))) ∧
  (∀ (e rs : Fin 16) (off : BitVec 26) (s : State) (r : Run) (c : Ctx), s.CanIssue e r c →
    let t := c.pc + BitVec.ofInt 32 (4 * off.toInt)
    let x := c.D rs
    let back := (c.pc + 4).setWidth 18
    let full := 16 ≤ c.rstk.length ∧ s.on (Reg.ENG_CFG_RSOVF e) = true
    (¬ full → Transfers (.call e off) s e { c with rstk := (back :: c.rstk).take 16, pc := t }) ∧
    (full → Traps (.call e off) s e causeStackOvf) ∧
    (x.toNat % 4 ≠ 0 → Traps (.callr e rs) s e causeAlign) ∧
    (x.toNat % 4 = 0 → ¬ full → Transfers (.callr e rs) s e { c with rstk := (back :: c.rstk).take 16, pc := x }) ∧
    (x.toNat % 4 = 0 → full → Traps (.callr e rs) s e causeStackOvf) ∧
    (c.rstk = [] → Traps (.ret e) s e causeStackUnf) ∧
    (∀ (a : BitVec 18) (rest : List (BitVec 18)), c.rstk = a :: rest → Transfers (.ret e) s e { c with rstk := rest, pc := a.setWidth 32 }))

/-- Loop instructions (R164, R210, R212, R213) and the end of a body (R165, R211). -/
def Obligations.LoopsOpenAndClose : Prop :=
  (∀ (e rs : Fin 16) (n : BitVec 16) (o : BitVec 10) (p : BitVec 18) (s : State) (r : Run) (c : Ctx), s.CanIssue e r c →
    ∀ (i : Instr) (k : BitVec 16) (off : Nat),
      ((i = .loopi e n o ∧ k = n ∧ off = o.toNat) ∨ (i = .loop e rs p ∧ k = (c.D rs).setWidth 16 ∧ off = p.toNat)) →
      let le := c.pc + BitVec.ofNat 32 (4 * off)
      let ends := ∃ l, c.loops.head? = some l ∧ l.le = c.pc
      (off = 0 ∨ ends → Traps i s e causeIllegal) ∧
      (off ≠ 0 → ¬ ends → k = 0 → Transfers i s e { c with pc := le + 4 }) ∧
      (off ≠ 0 → ¬ ends → k ≠ 0 → 4 ≤ c.loops.length → Traps i s e causeLoopOvf) ∧
      (off ≠ 0 → ¬ ends → k ≠ 0 → c.loops.length < 4 →
        Transfers i s e { c with loops := { ls := c.pc + 4, le := le, lc := k } :: c.loops, pc := c.pc + 4 })) ∧
  (∀ (e : Fin 16) (s : State) (r : Run) (c : Ctx), s.CanIssue e r c →
    (c.loops = [] → Traps (.lbrk e) s e causeIllegal) ∧
    (∀ l rest, c.loops = l :: rest → Transfers (.lbrk e) s e { c with loops := rest, pc := l.le + 4 })) ∧
  (∀ (c : Ctx) (gone rest : List LoopLevel), c.loops = gone ++ rest → (∀ l ∈ gone, l.le = c.pc ∧ l.lc.toNat ≤ 1) →
    (rest = [] → c.complete = { c with loops := [], pc := c.pc + 4 }) ∧
    (∀ l more, rest = l :: more → l.le ≠ c.pc → c.complete = { c with loops := rest, pc := c.pc + 4 }) ∧
    (∀ l more, rest = l :: more → l.le = c.pc → 1 < l.lc.toNat →
      c.complete = { c with loops := { l with lc := l.lc - 1 } :: more, pc := l.ls }))

/-- Accumulators (R215): exact signed and unsigned products, sums and differences modulo 2^72, loads and shifts; no flag changes. RND
rounds half up, saturates, and keeps M (R216). -/
def Obligations.AccumulatorResults : Prop :=
  ∀ (e d p q : Fin 16) (m : Fin 4) (sh : BitVec 6) (s : State) (r : Run) (c : Ctx), s.CanIssue e r c →
    let x := c.D p
    let y := c.D q
    let a := c.M m
    let is := fun (i : Instr) (v : BitVec 72) => Completes i s e { c with m := c.m.setIfInBounds m v }
    let ps := x.toInt * y.toInt
    let pu := x.toNat * y.toNat
    is (.mul e m p q) (BitVec.ofInt 72 ps) ∧ is (.mulu e m p q) (BitVec.ofNat 72 pu) ∧
    is (.mac e m p q) (BitVec.ofInt 72 (a.toInt + ps)) ∧ is (.macu e m p q) (BitVec.ofNat 72 (a.toNat + pu)) ∧
    is (.msu e m p q) (BitVec.ofInt 72 (a.toInt - ps)) ∧ is (.msuu e m p q) (BitVec.ofInt 72 ((a.toNat : Int) - pu)) ∧
    is (.mld e m p) (BitVec.ofInt 72 x.toInt) ∧ is (.mclr e m) 0 ∧
    is (.mshl e m sh) (BitVec.ofNat 72 (a.toNat * 2 ^ sh.toNat)) ∧ is (.mshr e m sh) (BitVec.ofInt 72 (a.toInt / 2 ^ sh.toNat)) ∧
    (let v : Int := if sh.toNat = 0 then a.toInt else (a.toInt + 2 ^ (sh.toNat - 1)) / 2 ^ sh.toNat
     let lim : Int := if v < -(2 ^ 31) then -(2 ^ 31) else if 2 ^ 31 ≤ v then 2 ^ 31 - 1 else v
     ∃ c', Completes (.rnd e d m sh) s e c' ∧ c'.D d = BitVec.ofInt 32 lim ∧ (∀ j, j < 16 → j ≠ d.val → c'.D j = c.D j) ∧
       c' = { c with d := c'.d, flg := c'.flg } ∧ flgZ c'.flg = decide (lim = 0) ∧ flgN c'.flg = decide (lim < 0) ∧
       flgC c'.flg = flgC c.flg ∧ flgV c'.flg = outside32 v ∧ c'.flg.getLsbD 6 = (outside32 v || c.flg.getLsbD 6) ∧
       ∀ j, 4 ≤ j → j ≠ 6 → c'.flg.getLsbD j = c.flg.getLsbD j)
/-! ## Loads, stores, posts, events and traps (06, 07) -/

/-- LD from the engine's own memory (R205, R206): what the destination takes for each size, little-endian, and the post-modify; the forms
that are ILLEGAL and the misaligned ones trap. ST to the engine's scratch (R205, R206): the bytes stored, and every other byte of memory
unchanged. -/
def Obligations.LoadsAndStores : Prop :=
  (∀ (e d : Fin 16) (a : Fin 8) (sz : Fin 4) (pm sx : Bool) (disp : BitVec 15) (s : State) (r : Run) (c : Ctx), s.CanIssue e r c →
    let i := Instr.ld e d a sz pm sx disp
    let x := ((c.BNK (a.val / 2)) ++ (if pm then c.A a else c.A a + disp.signExtend 16) : BitVec 32).toNat
    let n := [1, 2, 4, 16].getD sz.val 0
    let byte := fun (k : Nat) => Memory.read s.mem (Memory.engine e (x + k))
    let word := fun (k : Nat) => (byte (k + 3) ++ byte (k + 2) ++ byte (k + 1) ++ byte k : BitVec 32)
    let bad := (sx = true ∧ 2 ≤ sz.val) ∨ (sz.val = 3 ∧ d.val % 4 ≠ 0)
    (bad → Traps i s e causeIllegal) ∧
    (¬ bad → x % n ≠ 0 → x < 0x10000000 → Traps i s e causeAlign) ∧
    (¬ bad → x % n = 0 → (x < 0x20000 ∨ (0x40000 ≤ x ∧ x < 0x80000)) → s.noHaltDue e →
      (∀ k, k < n → Memory.engine e ((x + k) / 4 * 4) ∉ s.eccUnc ∧ Memory.engine e ((x + k) / 4 * 4) ∉ s.eccOne) →
      ∃ c', Completes i s e c' ∧
        (sz.val = 0 → c'.D d = if sx then (byte 0).signExtend 32 else (byte 0).setWidth 32) ∧
        (sz.val = 1 → c'.D d = if sx then (byte 1 ++ byte 0 : BitVec 16).signExtend 32 else (byte 1 ++ byte 0 : BitVec 16).setWidth 32) ∧
        (sz.val = 2 → c'.D d = word 0) ∧
        (sz.val = 3 → ∀ k, k < 4 → c'.D (d + k) = word (4 * k)) ∧
        (∀ j, j < d.val ∨ d.val + (if sz.val = 3 then 4 else 1) ≤ j → c'.D j = c.D j) ∧
        c' = { c with d := c'.d, a := if pm then c.a.setIfInBounds a (circular (c.A a) (c.LEN a) disp.toInt) else c.a })) ∧
  (∀ (e d : Fin 16) (a : Fin 8) (sz : Fin 4) (pm : Bool) (disp : BitVec 15) (s : State) (r : Run) (c : Ctx), s.CanIssue e r c →
    let i := Instr.st e d a sz pm disp
    let x := ((c.BNK (a.val / 2)) ++ (if pm then c.A a else c.A a + disp.signExtend 16) : BitVec 32).toNat
    let n := [1, 2, 4, 16].getD sz.val 0
    let bad := sz.val = 3 ∧ d.val % 4 ≠ 0
    (bad → Traps i s e causeIllegal) ∧
    (¬ bad → x % n ≠ 0 → x < 0x10000000 → Traps i s e causeAlign) ∧
    (¬ bad → x % n = 0 → 0x40000 ≤ x → x < 0x80000 → Memory.wf s.mem = true → s.noHaltDue e →
      (∀ k, k < n → Memory.engine e ((x + k) / 4 * 4) ∉ s.eccUnc ∧ Memory.engine e ((x + k) / 4 * 4) ∉ s.eccOne) →
      ∃ t, exec i s = .next t ∧
        (∀ k, k < n → Memory.read t.mem (Memory.engine e x + k) = BitVec.ofNat 8 ((c.D (d + k / 4)).toNat / 256 ^ (k % 4))) ∧
        (∀ key, key < Memory.engine e x ∨ Memory.engine e x + n ≤ key → Memory.read t.mem key = Memory.read s.mem key) ∧
        t.ctxOf e = (if pm then { c with a := c.a.setIfInBounds a (circular (c.A a) (c.LEN a) disp.toInt) } else c).complete ∧
        (∀ m, m ≠ e.val → t.engN m = s.engN m) ∧ t.ledger = s.ledger ∧ t.hoard = s.hoard ∧
        (∀ key, key ≠ (Reg.ENG_ECC_CORR e).addr → t.word key = s.word key)))

/-- LUTI over a table of words or halfwords in the engine's own memory completes (R217 to R219): past the end with the last entry and C 1,
within it with the rounded interpolation and C 0; V 0, Z and N from the result. -/
def Obligations.LutiInterpolates : Prop :=
  ∀ (e d p q : Fin 16) (a : Fin 8) (f : BitVec 5) (half : Bool) (s : State) (r : Run) (c : Ctx), s.CanIssue e r c → r.lutGot = [] → s.noHaltDue e →
    let i := Instr.luti e d a p q f half
    let w := if half then 2 else 4
    let n := (c.D q).toNat
    let k := (c.D p).toNat / 2 ^ f.toNat
    let rest := (c.D p).toNat % 2 ^ f.toNat
    let at_ := fun (j : Nat) => ((c.BNK (a.val / 2)).toNat * 0x10000 + (c.A a).toNat + w * j) % 2 ^ 32
    let y := fun (j : Nat) => let v := leNat (s.rd (Memory.engine e (at_ j)) w)
      if half then (BitVec.ofNat 16 v).toInt else (BitVec.ofNat 32 v).toInt
    let fits := fun (j : Nat) => at_ j % w = 0 ∧ (at_ j < 0x20000 ∨ (0x40000 ≤ at_ j ∧ at_ j < 0x80000)) ∧
      Memory.engine e (at_ j / 4 * 4) ∉ s.eccUnc ∧ Memory.engine e (at_ j / 4 * 4) ∉ s.eccOne
    let completes := fun (v : W32) (cf : Bool) => ∃ c', exec i s = .next ((s.afterFetch e).done e c') ∧ c'.D d = v ∧
      (∀ j, j < 16 → j ≠ d.val → c'.D j = c.D j) ∧ FlgIs c.flg c'.flg (decide (v = 0)) (decide (2 ^ 31 ≤ v.toNat)) cf false ∧
      c' = { c with d := c'.d, flg := c'.flg }
    (n = 0 → completes 0 true) ∧
    (0 < n → n - 1 ≤ k → fits (n - 1) → completes (BitVec.ofInt 32 (y (n - 1))) true) ∧
    (0 < n → k < n - 1 → fits k → fits (k + 1) →
      completes (BitVec.ofInt 32 (y k + (if f.toNat = 0 then 0 else ((y (k + 1) - y k) * rest + 2 ^ (f.toNat - 1)) / 2 ^ f.toNat))) false)

/-- EMW and EMT (R59, R226, R227): a post joins the engine's emit queue; the traps post nothing; a post to a full queue stops the task as
an overrun. -/
def Obligations.EmitPosts : Prop :=
  ∀ (e p q : Fin 16) (s : State) (r : Run) (c : Ctx), s.CanIssue e r c →
    let a := c.D p
    let v := c.D q
    let u := s.afterFetch e
    let post := fun (tx : Bool) => (u.modEng e (fun g => { g with
      emitq := g.emitq ++ [{ slot := r.slot, kind := r.kind, live := true, tx := tx, a := a, v := v }] })).done e c
    let n := (s.engN e).emitq.length
    (a.toNat % 4 ≠ 0 → Traps (.emw e p q) s e causeAlign) ∧
    (a.toNat % 4 = 0 → 0x10000 ≤ a.toNat → Traps (.emw e p q) s e causeBus) ∧
    (a.toNat % 4 = 0 → a.toNat < 0x10000 → n < 64 → exec (.emw e p q) s = .next (post false)) ∧
    (a.toNat % 4 = 0 → a.toNat < 0x10000 → 64 ≤ n → exec (.emw e p q) s = .next (u.overrun e)) ∧
    (u.emtOk e a.toNat v = false → Traps (.emt e p q) s e causeBus) ∧
    (u.emtOk e a.toNat v = true → n < 64 → exec (.emt e p q) s = .next (post true)) ∧
    (u.emtOk e a.toNat v = true → 64 ≤ n → exec (.emt e p q) s = .next (u.overrun e))

/-- Waits, events and times (R220 to R225): WFE consumes the lowest pending input of its mask or waits; SEV registers its line on the
engines of the mask that the slot owns; WAITT waits, or finds its time reached by this edge, within its limit or past it (R236); GETT and
GETTK. NOP only completes (R229). SEVR (R222): the cases in order; without a credit the engine stalls. -/
def Obligations.EventAndTimeInstructions : Prop :=
  (∀ (e d p l : Fin 16) (line : Fin 4) (s : State) (r : Run) (c : Ctx), s.CanIssue e r c →
    let u := s.afterFetch e
    let mask := (c.D ((p + 1) % 16) ++ c.D p : BitVec 64)
    let free := mask &&& ~~~ (s.engN e).boundMask
    let t := mask.toNat
    Completes (.nop e) s e c ∧
    (free = 0 → Completes (.wfe e d p) s e (c.setD d 0xFFFFFFFF)) ∧
    (∀ i, i < 64 → free.getLsbD i = true → (s.engN e).pend.getLsbD i = true →
      (∀ j, j < i → ¬ (free.getLsbD j = true ∧ (s.engN e).pend.getLsbD j = true)) →
      ∃ v, exec (.wfe e d p) s = .next v ∧ v.ctxOf e = (c.setD d (BitVec.ofNat 32 i)).complete ∧
        (∀ j, j < 64 → (v.engN e).pend.getLsbD j = ((s.engN e).pend.getLsbD j && decide (j ≠ i))) ∧
        (∀ n, n ≠ e.val → v.engN n = s.engN n)) ∧
    (free ≠ 0 → free &&& (s.engN e).pend = 0 →
      exec (.wfe e d p) s = .next (u.modRun e (fun r => { r with first := false, stall := .wfe mask d }))) ∧
    exec (.sev e line p) s = .next ((u.done e c).sevMask (u.engOwner e) line (c.D p).toNat) ∧
    (s.now < t → exec (.waitt e p l) s = .next (u.modRun e (fun r => { r with first := false, stall := .waitt mask }))) ∧
    (t ≤ s.now → s.time.prev < t → Completes (.waitt e p l) s e { c with flg := setC c.flg false }) ∧
    (t ≤ s.now → t ≤ s.time.prev → s.now - t ≤ (c.D l).toNat →
      Completes (.waitt e p l) s e { c with flg := setC c.flg (decide (t < s.now)) }) ∧
    (t ≤ s.now → t ≤ s.time.prev → (c.D l).toNat < s.now - t → Traps (.waitt e p l) s e causeDeadline) ∧
    Completes (.gettk e d) s e (c.setD d (BitVec.ofNat 32 s.tick)) ∧
    (∀ T : BitVec 64, (r.first = true → r.entry = none → T = BitVec.ofNat 64 s.now) → (r.first = false → T = BitVec.ofNat 64 s.now) →
      (r.first = true → ∀ E, r.entry = some E → T = E) →
      Completes (.gett e d) s e ((c.setD d (T.setWidth 32)).setD ((d + 1) % 16) ((T >>> 32).setWidth 32)))) ∧
  (∀ (e p : Fin 16) (line : Fin 4) (s : State) (r : Run) (c : Ctx), s.CanIssue e r c →
    let i := Instr.sevr e line p
    let u := s.afterFetch e
    let v := (c.D p).toNat
    let dev := v / 2 ^ 16 % 32
    (u.etOpen = false → Traps i s e causeBus) ∧
    (u.etOpen = true → dev = u.chnId → exec i s = .next ((u.done e c).sevMask (u.engOwner e) line (v % 2 ^ 16))) ∧
    (u.etOpen = true → dev ≠ u.chnId → u.rtValid dev = false → Traps i s e causeBus) ∧
    (u.etOpen = true → dev ≠ u.chnId → u.rtValid dev = true → u.etCredit dev = false → exec i s = .next u) ∧
    (u.etOpen = true → dev ≠ u.chnId → u.rtValid dev = true → u.etCredit dev = true →
      exec i s = .next ((u.done e c).sendSev e r.strike dev
        [BitVec.ofNat 8 v, BitVec.ofNat 8 (v / 256), BitVec.ofNat 8 line.val, 0, 0, BitVec.ofNat 8 (u.get (Reg.PRS_ID_PID (u.engOwner e)))])))

/-- END and RETT (R183, R229): END clears the loop levels and the return stack and ends the task; RETT goes back behind the trapping
instruction, ends the task, or is ILLEGAL outside a handler; an ILLEGAL word traps (R198). -/
def Obligations.TaskEndsAndReturns : Prop :=
  ∀ (e : Fin 16) (w : BitVec 32) (s : State) (r : Run) (c : Ctx), s.CanIssue e r c →
    let u := s.afterFetch e
    exec (.endTask e) s = .next ((u.put e { c with loops := [], rstk := [], pc := c.pc + 4 }).endTask e) ∧
    (r.handler = none → Traps (.rett e) s e causeIllegal) ∧
    (r.handler = some false → exec (.rett e) s = .next (u.endTask e)) ∧
    (r.handler = some true → ∃ t, exec (.rett e) s = .next t ∧ t.ctxOf e = { c with loops := (loopNext c.tpc c.loops).1, pc := (loopNext c.tpc c.loops).2 } ∧
      (t.engN e).cur = some { r with first := false, stall := .none, lutGot := [], handler := none }) ∧
    Traps (.illegalInstruction e w) s e causeIllegal

/-- A trap outside a handler, where TRAPV.EN is 1 and no Quench follows (R182): the ledger entry, ENG_n_TRAP, TCAUSE and TPC, the address
of the handler, and the posted entries, which go after a non-resumable cause (R183). In the cycle in which the task's budget is used up the
task stops as an overrun instead (R193). -/
def Obligations.TrapEntersItsHandler : Prop :=
  ∀ (e : Fin 16) (k : Nat) (s : State) (r : Run), s.Inv → 1 ≤ k → k ≤ 9 → (s.engN e).cur = some r → r.handler = none →
    (s.spent e = true → s.trap e k = s.overrun e) ∧
    (s.spent e = false → s.on (Reg.ENG_TRAPV_EN e) = true → (r.strike = false ∨ s.on (Reg.ENG_CFG_TRAPQ e) = false ∨ k = 2 ∨ k = 7) →
    let c := s.ctxOf e
    let t := s.trap e k
    (t.ledger.head?.map (fun x => (x.code, x.unit, x.detail))) =
      some (0x0301, BitVec.ofNat 8 e.val, BitVec.ofNat 96 (r.slot + k * 2 ^ 8 + c.pc.toNat * 2 ^ 32)) ∧
    t.get (Reg.ENG_TRAP_CAUSE e) = k ∧ t.get (Reg.ENG_TRAPPC_PC e) = c.pc.toNat % 2 ^ (Reg.ENG_TRAPPC_PC e).w ∧
    t.ctxOf e = { c with tcause := BitVec.ofNat 32 k, tpc := c.pc, pc := BitVec.ofNat 32 (s.get (Reg.ENG_TRAPV_BASE e) * 4 + k * 16) } ∧
    (t.engN e).cur = some { r with handler := some (decide (k = 2 ∨ k = 7)), stall := .none, first := false, lutGot := [], trap := none } ∧
    (t.engN e).emitq = (if k = 2 ∨ k = 7 then (s.engN e).emitq else (s.engN e).emitq.filter (fun x => !(x.slot == r.slot && x.live))) ∧
    (∀ n, n ≠ e.val → t.engN n = s.engN n) ∧ (∀ a, Memory.read t.mem a = Memory.read s.mem a))

/-- The commands on engines beside their instructions: event inputs (R169, R171), the aligned entry's first issue on the edge it waits for
(R174), the end of a WAITT (R223), budget expiry, once the clock has reached the budget (R48, R49), reset (R186, R187), halt, which takes
effect when no access waits for its answer, and step (R188, R189). -/
def Obligations.EngineCommands : Prop :=
  ∀ (e : Fin 16) (w : Who) (m : BitVec 64) (s : State),
    exec (.eventInput e m) s = .next (s.register e m) ∧
    ((s.engN e).inReset = true → s.collect = none → s.register e m = s) ∧
    (∀ r n, (s.engN e).cur = some r → r.stall = .aligned (n + 1) → exec (.alignedEntry e) s = .next s) ∧
    (∀ r, (s.engN e).cur = some r → r.stall = .aligned 0 →
      exec (.alignedEntry e) s = .next (s.modEng e (fun g => { g with cur := some { r with stall := .none, entry := some (BitVec.ofNat 64 s.now) } }))) ∧
    (∀ r T, (s.engN e).cur = some r → r.stall = .waitt T → T.toNat ≤ s.now → s.awake = true →
      exec (.waittRelease e) s = .next (s.done e { s.ctxOf e with flg := setC (s.ctxOf e).flg false })) ∧
    (∀ r T, (s.engN e).cur = some r → r.stall = .waitt T → s.now < T.toNat → exec (.waittRelease e) s = .next s) ∧
    exec (.taskBudgetExpiry e) s = .next (if s.spent e = true then (s.overrunStop e).go e else s) ∧
    (∀ r d, (s.engN e).cur = some r → (s.engN e).task r.slot = some d → (s.spent e = true ↔ (d.w * 10 + 15) / 16 ≤ r.clock)) ∧
    (∀ f, whoEngine w = some f → s.engOwner f = s.engOwner e → s.engOwner e ≠ 3 → exec (.engineReset w e) s = .next (s.resetEng e)) ∧
    (s.resetEng e).engN e = { s.engN e with
      ph := Ctx.zero, ev := Ctx.zero, cur := none, pre := none, todo := [], deferred := 0, pend := 0, fresh := 0,
      resend := (s.engN e).todo ++ (s.engN e).resend.filter (fun n => !(s.engN e).todo.contains n), emitq := [], halted := false, haltReq := false, inReset := true, holdOff := true } ∧
    ((s.engN e).inReset = true → s.slotState (s.engOwner e) = slotRunning →
      exec (.engineResetDone e) s = .next (s.modEng e (fun g => { g with inReset := false, holdOff := true }))) ∧
    (s.mayDebug w e = false → exec (.debugHalt w e) s = .next s) ∧
    (s.mayDebug w e = true → (s.engN e).halted = false → s.running = false →
      ¬ ((s.get Reg.TMP_SUBSTAT_STATE = 2 ∨ s.get Reg.TMP_SUBSTAT_STATE = 3) ∧ s.get Reg.TMP_SUBSTAT_ENGINE = e) →
      ∃ t, exec (.debugHalt w e) s = .next t ∧ (t.engN e).halted = !(s.engN e).inAccess ∧ (t.engN e).haltReq = (s.engN e).inAccess) ∧
    (s.mayDebug w e = true → exec (.debugStep w e) s = .next ((s.writeEngDbg w e 3).debugStep e)) ∧
    (s.running = true → s.debugStep e = s) ∧
    (∀ r, s.running = false → (s.engN e).halted = true → (s.engN e).cur = some r → r.stall = .none →
      let u := s.modRun e Run.preempt
      s.debugStep e = u.issueForced e ((decodeGrg e (u.fetched e)).getD (iIllegalInstruction e 0)))
/-! ## The fault ledger, the time base and the set-up space (05, 11, 20) -/

/-- A fault writes one ledger entry (R656 to R658): SEQ follows the last one and wraps to 1, the entry carries code, unit, detail, the
time and the tick, the 256 newest stay, and nothing else of the device changes but PWR_LEDHEAD. -/
def Obligations.LedgerEntryIsWritten : Prop :=
  ∀ (s : State) (code unit detail : Nat), s.Inv →
    let t := s.record code unit detail
    let q := s.get Reg.PWR_LEDHEAD_SEQ
    let n := if q = 0xFFFFFFFF then 1 else q + 1
    t.get Reg.PWR_LEDHEAD_SEQ = n ∧
    (∃ x, t.ledger = x :: s.ledger.take 255 ∧ x.seq = BitVec.ofNat 32 n ∧ x.code = BitVec.ofNat 16 code ∧ x.unit = BitVec.ofNat 8 unit ∧ x.flags = 0 ∧
      x.time = BitVec.ofNat 64 s.now ∧ x.tick = BitVec.ofNat 32 s.tick ∧ x.detail = BitVec.ofNat 96 detail) ∧
    (∀ key, key ≠ Reg.PWR_LEDHEAD → t.word key = s.word key) ∧ t = { s with ledger := t.ledger, regs := t.regs }

/-- One TIME edge (R361, R362, R364): the time base grows by the rate increment and the slew's contribution, which goes towards a zero
remainder, is at most the share of the rate, keeps the effective increment within 200 ppm of nominal, and is taken off the remainder; the time before the edge is kept (R236). -/
def Obligations.TimeBaseEdge : Prop :=
  ∀ s : State,
    let p := s.slewPart
    let inc : Int := s.get Reg.TIME_ADDEND_ADD
    let share : Int := (s.time.rate * 2 ^ 30 / 1000000 : Nat)
    s.tbEdge.tb = s.tb + BitVec.ofInt 92 (inc + p) ∧ s.tbEdge.time.rem = s.time.rem - p ∧
    s.tbEdge = { s with tb := s.tbEdge.tb, time := { s.time with rem := s.tbEdge.time.rem, prev := s.now } } ∧
    0x3FFCB924 ≤ inc + p ∧ inc + p ≤ 0x400346DC ∧
    (0x3FFCB924 ≤ inc → inc ≤ 0x400346DC →
      (0 ≤ s.time.rem → 0 ≤ p ∧ p ≤ share ∧ p ≤ s.time.rem) ∧ (s.time.rem ≤ 0 → p ≤ 0 ∧ -share ≤ p ∧ s.time.rem ≤ p))

/-- An access of another width or alignment (R4, R137): it reads 0, changes no register but the reports, and is recorded in DEV_ACCERR,
DEV_STAT and the ledger; no byte of memory changes. -/
def Obligations.MisshapenAccessIsReported : Prop :=
  ∀ (w : Who) (a : BitVec 32) (key : Nat) (word : Bool) (v : W32) (s : State), s.Inv → s.decodes w a = some key →
    s.gate w key = none → (word = false ∨ key % 4 ≠ 0) →
    ∃ t, exec (.registerWrite w a word v) s = .next t ∧
      exec (.registerRead w a word) s = .next (t.send (.readValue w key 0)) ∧
      t.get Reg.DEV_ACCERR_OFFSET = key % 0x10000 ∧ t.get Reg.DEV_ACCERR_CAUSE = 1 ∧ t.get Reg.DEV_STAT_ACCF = 1 ∧
      t.get Reg.DEV_ACCERR_COUNT = min (s.get Reg.DEV_ACCERR_COUNT + 1) 4095 ∧
      (t.ledger.head?.map (fun x => x.code)) = some 0x0001 ∧
      (∀ k, k ≠ Reg.DEV_ACCERR → k ≠ Reg.DEV_STAT → k ≠ Reg.PWR_LEDHEAD → t.word k = s.word k) ∧
      t = { s with regs := t.regs, ledger := t.ledger }

/-- Aligned 32-bit accesses of an initiator that no rule holds back: a write goes to the register, a read answers its value (R5, R136),
also through the rows DEV_NUDGE (R99), DEV_LOCK (R138) and DEV_RESDATA (R141). A request of the host or of PF1 reaches the register at its
offset in BAR0 as that was last set (R146, R148); one outside BAR0, or to a closed function, answers Unsupported Request. -/
def Obligations.RegisterRowsReachTheRegister : Prop :=
  (∀ (w : Who) (a : BitVec 32) (key : Nat) (v : W32) (s : State), s.decodes w a = some key → s.gate w key = none → key % 4 = 0 →
    exec (.registerWrite w a true v) s = .next (s.setupWrite w key v) ∧
    exec (.registerRead w a true) s = .next ((s.setupRead w key).2.send (.readValue w key (s.setupRead w key).1))) ∧
  (∀ (w : Who) (a : BitVec 32) (word : Bool) (v : W32) (s : State),
    s.decodes w a = none ∨ (∃ key, s.decodes w a = some key ∧ s.gate w key = some false) →
    exec (.registerWrite w a word v) s = .next s ∧ exec (.registerRead w a word) s = .next (s.send (.reply (w == .pf1) .unsupported []))) ∧
  (∀ (a base : BitVec 32) (off : Nat) (s : State), off < 0x10000 → s.pcie.ready = true → s.power.reset = none → a.toNat = base.toNat + off →
    base.toNat % 0x10000 = 0 → ∃ t, exec (.configurationRequest false true 4 base) s = .next t ∧ t.decodes .host a = some off ∧
      (∀ b : BitVec 32, b.toNat / 0x10000 ≠ base.toNat / 0x10000 → t.decodes .host b = none)) ∧
  (∀ (w : Who) (v : W32) (s : State), w ≠ .pf1 → w ≠ .jtag → s.gate w 0x18 = none → exec (.devNudge w v) s = .next s.doorbellRead) ∧
  (∀ (w : Who) (v : W32) (s : State), s.Inv → w ≠ .pf1 → w ≠ .jtag → s.gate w 0x1C = none →
    ∃ t, exec (.devLock w v) s = .next t ∧ t.word Reg.DEV_LOCK = s.word Reg.DEV_LOCK ||| (v &&& 0xFFFF) ∧
      (∀ key, key ≠ Reg.DEV_LOCK → t.word key = s.word key) ∧ t = { s with regs := t.regs }) ∧
  (∀ (w : Who) (s : State), s.Inv → w ≠ .pf1 → s.gate w 0x34 = none →
    ∃ t : State, exec (.devResdata w) s = .next (t.send (.readValue w Reg.DEV_RESDATA (s.residueWord (s.get Reg.DEV_RESIDX_IDX)))) ∧
      t.get Reg.DEV_RESIDX_IDX = (s.get Reg.DEV_RESIDX_IDX + 1) % 1024)

/-- The servo's registers (R362 to R366, R377): ADD within its limits, a slew, a step request accepted or refused, the end of a slew, a
read of TIME_NOW; another initiator's write is reported (R363). -/
def Obligations.TimeCommands : Prop :=
  ∀ (w : Who) (v : W32) (s : State),
    (s.steers w = false →
      exec (.timeAddendWrite w v) s = .next (s.accessFault w Reg.TIME_ADDEND 2) ∧ exec (.timeSlewWrite w v) s = .next (s.accessFault w Reg.TIME_SLEW 2) ∧
      exec (.stepRequest w v) s = .next (s.accessFault w Reg.TIME_STEP_HI 2)) ∧
    (s.steers w = true → s.Inv →
      (∃ t, exec (.timeAddendWrite w v) s = .next t ∧
        t.get Reg.TIME_ADDEND_ADD = (if v.toNat < 0x3FFCB924 then 0x3FFCB924 else if 0x400346DC < v.toNat then 0x400346DC else v.toNat) ∧
        ((v.toNat < 0x3FFCB924 ∨ 0x400346DC < v.toNat) → t.get Reg.TIME_STAT_CLAMP = 1) ∧
        (0x3FFCB924 ≤ v.toNat → v.toNat ≤ 0x400346DC → t.get Reg.TIME_STAT_CLAMP = s.get Reg.TIME_STAT_CLAMP) ∧ t = { s with regs := t.regs }) ∧
      (∃ t, exec (.timeSlewWrite w v) s = .next t ∧ t.time.rate = min (v.toNat / 2 ^ 24) 200 ∧
        t.time.rem = (if v.toNat / 2 ^ 24 = 0 then 0 else (v.setWidth 24).toInt * 2 ^ 28) ∧ t.tb = s.tb) ∧
      (∃ (t : State) (lo : W32), exec (.stepRequest w v) s = .next (t.stepRequest (v ++ lo)) ∧ lo = (s.heldAt Reg.TIME_STEP_LO).getD (s.word Reg.TIME_STEP_LO) ∧
        t.word Reg.TIME_STEP_HI = v ∧ t.word Reg.TIME_STEP_LO = lo ∧ t.time = s.time)) ∧
    (∀ d : BitVec 64, (s.get Reg.TIME_STAT_VALID = 0 ∨ (s.get Reg.TIME_STAT_HOLD = 0 ∧ d.toInt.natAbs ≤ s.get Reg.TIME_JUMPLIM_LIM) →
        s.stepRequest d = { s with time := { s.time with steps := s.time.steps ++ [(d.toInt, none)] } }) ∧
      (s.Inv → s.get Reg.TIME_STAT_VALID ≠ 0 → (s.get Reg.TIME_STAT_HOLD ≠ 0 ∨ s.get Reg.TIME_JUMPLIM_LIM < d.toInt.natAbs) →
        (s.stepRequest d).get Reg.TIME_STAT_HOLD = 1 ∧ (s.stepRequest d).get Reg.TIME_STAT_REFUSED = 1 ∧
        (s.stepRequest d).get Reg.TIME_REFNUM_NUM = (if s.get Reg.TIME_REFNUM_NUM = 0xFFFFFFFF then 1 else s.get Reg.TIME_REFNUM_NUM + 1) ∧
        (s.stepRequest d).word64 Reg.TIME_PEND_LO Reg.TIME_PEND_HI = d ∧ (s.stepRequest d).time.steps = s.time.steps ∧
        ((s.stepRequest d).ledger.head?.map (fun x => x.code)) = some 0x0701)) ∧
    (s.slewPart = s.time.rem → ∃ t, exec .slewEnd s = .next t ∧ t.tb = s.tb + BitVec.ofInt 92 s.time.rem ∧ t.time = { s.time with rem := 0 }) ∧
    (s.slewPart ≠ s.time.rem → exec .slewEnd s = .next s) ∧
    exec (.timeNowRead w) s = .next (s.readNow.2.send (.readValue w Reg.TIME_NOW_LO s.readNow.1))

/-! ## The Hearth (02) -/

/-- RUN (R35, R36, R62, R63): a failed check returns RUN to 0 and names its code; a start that passes arms the first tick; RUN 0 stops
after the tick in progress; a tick in progress starts nothing. Tick starts (R38 to R43, R737): none before its time; the first one under
each source, each later one from the accepted edge, one period after the last, or where the manager's SYNC puts it (R437), and the stop at the end of Settle, whose work is over
then (R80). A tick start begins Gather: the number, the start time, RUNNING and PHASE. -/
def Obligations.RunsAndTicks : Prop :=
  (∀ (s : State), s.Inv →
    (s.startCode ≠ 0 → let t := s.tickRunStart
      t.get Reg.HRT_CTRL_RUN = 0 ∧ t.get Reg.HRT_STAT_CFGERR = 1 ∧ t.get Reg.HRT_STAT_CFGCODE = s.startCode % 2 ^ Reg.HRT_STAT_CFGCODE.w ∧
        t = { s with regs := t.regs }) ∧
    (s.startCode = 0 → s.tickRunStart.hearth.armed = true ∧ s.tickRunStart.hearth.stopping = false) ∧
    (s.running = true → s.tickRunStop.hearth = { s.hearth with stopping := true } ∧ s.tickRunStop.get Reg.HRT_CTRL_RUN = 0) ∧
    (s.running = false → s.tickRunStop.hearth = { s.hearth with armed := false } ∧ s.tickRunStop.get Reg.HRT_CTRL_RUN = 0) ∧
    (∀ (w : Who) (v : W32),
      exec (.tickRunStart w v) s = .next (s.writeHrtCtrl w (v ||| 1)) ∧ exec (.tickRunStop w v) s = .next (s.writeHrtCtrl w (v &&& 0xFFFFFFFE)) ∧
      (s.writeFields w Reg.HRT_CTRL (v &&& 0xFFFFFFFE) (fun _ => false)).tickRunStop = s.writeHrtCtrl w (v &&& 0xFFFFFFFE) ∧
      (let u := s.writeFields w Reg.HRT_CTRL (v ||| 1) (fun _ => false)
       (u.running = false → u.hearth.armed = false → s.writeHrtCtrl w (v ||| 1) = u.tickRunStart) ∧
       (u.running = true → s.writeHrtCtrl w (v ||| 1) = u.setB Reg.HRT_CTRL_RUN (s.on Reg.HRT_CTRL_RUN))))) ∧
  (∀ s : State, s.timeRuns = true →
    (s.hearth.armed = true → s.get Reg.HRT_CTRL_SRC = 0 →
      (s.now < s.hearth.nominal → exec .firstTickStart s = .next s) ∧
      (s.hearth.nominal ≤ s.now →
        exec .firstTickStart s = .next ((s.modHearth (fun h => { h with grid := s.now })).hearthTick 0 s.now false).gather)) ∧
    (∀ e, s.hearth.armed = true → s.get Reg.HRT_CTRL_SRC = 1 → s.hearth.edge = some e → e + 48 ≤ s.now →
      exec .firstTickStart s = .next (s.hearthTick 0 (e + 48) true).gather) ∧
    (s.hearth.armed = true → s.get Reg.HRT_CTRL_SRC = 2 → s.hearth.nominal ≤ s.now →
      exec .firstTickStart s = .next (s.hearthTick (s.now / s.tp) (s.now / s.tp * s.tp) false).gather) ∧
    (s.hearth.armed = true → s.get Reg.HRT_CTRL_SRC = 1 → s.hearth.edge = none → s.hearth.nominal ≤ s.now →
      exec .firstEdgeTimeout s = .next (((s.set Reg.HRT_STAT_SRCLOSS 1).modHearth (fun h => { h with free := true })).hearthTick 0 s.now true).gather) ∧
    (let u := s.settleEnd
     let n := s.tickAt
     (s.hearth.edge = none → s.follows = false → n = s.hearth.nominal + s.tp + s.hearth.lengthen) ∧
     (∀ m a : Nat, s.hearth.edge = none → s.follows = true → s.on Reg.HRT_STAT_RUNNING = true → s.hearth.regrid = false → s.hearth.lengthen = 0 →
       s.hearth.free = false → s.chain.sync0 = some (m, a) → m ≤ s.tick →
       s.hearth.nominal + s.boundary 3 + s.settleMin ≤ a + (s.tick + 1 - m) * s.tp → n = a + (s.tick + 1 - m) * s.tp) ∧
     (s.running = true → s.phase = 3 →
      (∀ e, s.hearth.edge = some e → s.now < e + 48 → exec .tickStart s = .next s) ∧
      (s.hearth.edge = none → s.now < n → exec .tickStart s = .next s) ∧
      (s.tickAt ≤ s.now → s.hearth.stopping = true → exec .tickStart s = .next u.stopTicks) ∧
      (∀ e, s.hearth.stopping = false → s.hearth.edge = some e → e + 48 ≤ s.now →
        exec .tickStart s = .next (u.hearthTick (s.tick + 1) (e + 48) true).gather) ∧
      (s.hearth.stopping = false → s.hearth.edge = none → n ≤ s.now → exec .tickStart s = .next (u.hearthTick (u.tickNumber n) n false).gather))) ∧
    (∀ (num nominal : Nat) (taken : Bool), s.Inv → num < 2 ^ 64 →
      let t := s.hearthTick num nominal taken
      t.tick = num ∧ t.running = true ∧ t.phase = 0 ∧ t.word64 Reg.HRT_TSTART_LO Reg.HRT_TSTART_HI = BitVec.ofNat 64 s.now ∧
        t.hearth.nominal = nominal ∧ t.hearth.armed = false ∧ t.hearth.edge = none ∧ t.hearth.taken = taken))

/-- SYNC_IN edges, closed windows, a lost source and the end of SYNC_OUT (R39, R40, R43, R64); an edge that finds a tick start due comes
after it. -/
def Obligations.SyncInput : Prop :=
  ∀ s : State,
    (s.get Reg.HRT_CTRL_SRC ≠ 1 → exec .syncInEdge s = .next s) ∧
    (s.get Reg.HRT_CTRL_SRC = 1 → s.timeRuns = true → s.hearth.armed = true →
      exec .syncInEdge s = .next (s.modHearth (fun h => { h with edge := some (h.edge.getD s.now) }))) ∧
    (s.get Reg.HRT_CTRL_SRC = 1 → s.timeRuns = true → s.hearth.armed = false → s.running = true → s.tickDue = true → s.tickAt < s.now →
      exec .syncInEdge s = .next (if s.tickStart.running = true then s.tickStart.edgeIn else s.tickStart)) ∧
    (s.get Reg.HRT_CTRL_SRC = 1 → s.timeRuns = true → s.hearth.armed = false → s.running = true → (s.tickDue = true → s.now ≤ s.tickAt) → s.hearth.free = false →
      exec .syncInEdge s = .next ((s.modHearth (fun h => { h with missed := 0 })).syncEdge s.now)) ∧
    (s.get Reg.HRT_CTRL_SRC = 1 → s.timeRuns = true → s.hearth.armed = false → s.running = true → (s.tickDue = true → s.now ≤ s.tickAt) → s.hearth.free = true →
      s.hearth.regrid = false → s.hearth.lengthen = 0 →
      exec .syncInEdge s = .next { s with hearth := { s.hearth with missed := 0, regrid := true, grid := s.now + 48 } }) ∧
    (s.running = true → s.get Reg.HRT_CTRL_SRC = 1 → s.hearth.free = false → s.hearth.taken = false →
      s.hearth.nominal + s.get Reg.HRT_SYNCWIN_WIN < s.now →
      exec .syncWindowEnd s = .next ((s.count Reg.HRT_SRCCNT_SYNCMISS 1).modHearth (fun h => { h with taken := true }))) ∧
    (s.hearth.taken = true → exec .syncWindowEnd s = .next s) ∧
    (s.running = true → s.get Reg.HRT_CTRL_SRC = 1 → 17 ≤ s.hearth.missed → s.hearth.free = false →
      exec .sourceLoss s = .next ((s.set Reg.HRT_STAT_SRCLOSS 1).modHearth (fun h => { h with free := true }))) ∧
    (s.hearth.nominal + 1000 ≤ s.now → exec .syncOutEnd s = .next (s.modHearth (fun h => { h with syncOut := false })))

/-- The phases of a tick (R38, R46, R56, R630): none starts before its boundary; Compute starts the engines' phase tasks, Emit commits,
Settle does its work in order. -/
def Obligations.PhasesOfATick : Prop :=
  ∀ s : State, s.running = true → s.timeRuns = true →
    let at_ := fun (n : Nat) => s.hearth.nominal + s.boundary n
    (s.phase = 0 → s.now < at_ 1 → exec .computeStart s = .next s) ∧ (s.phase = 1 → s.now < at_ 2 → exec .emitStart s = .next s) ∧
    (∀ (slack tj : BitVec 16) (dirty : BitVec 20), s.phase = 2 → s.now < at_ 3 → exec (.settleStart slack tj dirty) s = .next s) ∧
    (s.phase = 0 → at_ 1 ≤ s.now → exec .computeStart s =
      .next ((((s.deliverRx.set Reg.HRT_STAT_PHASE 1).prsCompute).each 16 (fun e t => t.computeEngine e)).swgTick.registerAll 15)) ∧
    (s.phase = 1 → at_ 2 ≤ s.now →
      let a := ((s.set Reg.HRT_STAT_PHASE 2).modHearth (fun h => { h with emitAt := s.now })).checkVoids
      let b := ((a.each 16 (fun e t => t.stopPhase e)).each 16 (fun e t => t.commitEngine e)).safeFrames
      let d := (b.each 6 (fun p t => t.joinStaged p)).each 2 (fun c t => t.joinCan c)
      exec .emitStart s = .next ((d.swgEmit.commitLsw.selectAll).registerAll 16)) ∧
    (∀ (slack tj : BitVec 16) (dirty : BitVec 20), s.phase = 2 → at_ 3 ≤ s.now →
      let a := s.set Reg.HRT_STAT_PHASE 3
      let b := ((a.applySteps.bellowsEval slack tj).settleBanks.migSwitch.subSettle dirty.toNat).chainSettle
      exec (.settleStart slack tj dirty) s = .next (((State.settleHost a (b.each 3 (fun n u => u.tryUnload true n))).migCopy.scrub.placement.registerAll 17).planLast))
/-! ## Host rings and PCIe (04, 05) -/

/-- Reads of host memory for the rings (R92, R95, R99, R114, R144): a doorbell block is taken entry by entry, a failed one is counted and
reported; a descriptor is consumed, or its failed read stops the ring with ERRCODE 3, unless its ring takes none while no tick runs (R98); data joins its descriptor, a HOARD_WRITE or
ING_PROGRAM keeps what arrived before a failure (R115), and what arrives after a reset of the function is discarded. -/
def Obligations.HostReadsComplete : Prop :=
  (∀ (b : List Byte) (s : State), b.length = 512 → s.hif.dbFlight = true →
    let u := { s with hif := { s.hif with dbFlight := false, idleDue := s.hif.idleDue || !s.running } }.landed .doorbell false
    let take := fun (n : Nat) (t : State) => t.takeEntry n u.readTick (leAt b (8 * n) 2) (byteAt b (8 * n + 4)) (byteAt b (8 * n + 5) % 2 == 1)
    ((u.each 64 take).fetchAll).hif.dbQueued = false →
    exec (.doorbellReadComplete true b) s = .next (u.each 64 take).fetchAll) ∧
  (∀ (b : List Byte) (s : State), s.Inv → s.hif.dbFlight = true → s.hif.dbQueued = false →
    ∃ t, exec (.doorbellReadComplete false b) s = .next t ∧
      t.get Reg.RING_DBFAIL_COUNT = min (s.get Reg.RING_DBFAIL_COUNT + 1) (2 ^ Reg.RING_DBFAIL_COUNT.w - 1) ∧
      (t.ledger.head?.map (fun x => x.code)) = some 0x0204 ∧ t.hif.dbFlight = false ∧ t.hif.rings = s.hif.rings) ∧
  (∀ (n : Fin 64) (b : List Byte) (s : State), b.length = 32 → 0 < (s.ring n).fetching → s.on (Reg.RING_STAT_ERR n) = false →
    (s.ring n).live = true → (s.ring n).frozen = false → (s.ring n).out ≠ 0 → s.on (Reg.RING_CTRL_EN n) = true → (s.ring n).chainAt = none →
    let u := (s.modRing n (fun r => { r with fetching := r.fetching - 1 })).landed (.desc n) true
    let kdb := ((s.ring n).shown.head?.map (fun x => x.2)).getD s.tick
    (u.consumes n = true → exec (.descriptorReadComplete n true b) s =
      .next (u.consumeFirst n ((Desc.parse b (s.ring n).ci (s.ring n).gen kdb).aim s.tick)).checkVoids) ∧
    (u.consumes n = false → exec (.descriptorReadComplete n true b) s = .next u) ∧
    (s.running = true → s.get (Reg.RING_CFG_KIND n) ≠ 3 → u.consumes n = true) ∧
    (s.running = false → s.get (Reg.RING_CFG_KIND n) ≠ 2 → u.consumes n = false)) ∧
  (∀ (n : Fin 64) (b : List Byte) (s : State), 0 < (s.ring n).fetching → s.on (Reg.RING_STAT_ERR n) = false →
    (s.ring n).live = true → (s.ring n).frozen = false → (s.ring n).out ≠ 0 → s.on (Reg.RING_CTRL_EN n) = true →
    ((s.modRing n (fun r => { r with fetching := r.fetching - 1 })).landed (.desc n) true).consumes n = true →
    exec (.descriptorReadComplete n false b) s =
      .next (((s.modRing n (fun r => { r with fetching := r.fetching - 1 })).landed (.desc n) true).ringError n 3)) ∧
  (∀ (n : Fin 64) (idx : BitVec 16) (ok : Bool) (b : List Byte) (s : State), (s.ring n).frozen = true →
    exec (.hostDataReadComplete n idx ok b) s = .next (s.landed (.data n idx.toNat) false)) ∧
  (∀ (n : Fin 64) (idx : BitVec 16) (b : List Byte) (d : Desc) (s : State), (s.ring n).frozen = false →
    (s.ring n).q.find? (fun d => d.idx == idx.toNat && d.reads && d.data.isNone && d.res.isNone) = some d →
    let u := s.landed (.data n idx.toNat) false
    (b.length = d.len →
      exec (.hostDataReadComplete n idx true b) s = .next (u.modDesc n (fun e => e.is d.idx d.gen) (fun e => { e with data := some b }))) ∧
    (d.opcode = 0x24 ∨ d.opcode = 0x26 → exec (.hostDataReadComplete n idx false b) s =
      .next (u.modDesc n (fun e => e.is d.idx d.gen) (fun e => { e with data := some (b.take (d.len - 1)), short := true }))))

/-- Ring control (R88, R116, R120) and the idle service (R98): enabling checks the configuration, starts at START and is refused by
ERRCODE 4; an error stands until START is written anew; disabling and FLUSH cancel; the writes of the idle service follow the work that
its doorbell read found. -/
def Obligations.RingControl : Prop :=
  ∀ (w : Who) (n : Fin 64) (s : State),
    (s.ringActive n = true → exec (.ringEnable w n) s = .next s) ∧
    (s.ringActive n = false → s.ringOk n = false → exec (.ringEnable w n) s = .next (s.ringError n 4)) ∧
    (s.Inv → s.ringActive n = false → s.ringOk n = true → ∃ t, exec (.ringEnable w n) s = .next t ∧
      t.get (Reg.RING_CTRL_EN n) = 1 ∧
      ((s.ring n).restarted = true → t.get (Reg.RING_STAT_ERR n) = 0 ∧ t.get (Reg.RING_STAT_ERRCODE n) = 0) ∧
      ((s.ring n).restarted = false → t.get (Reg.RING_STAT_ERR n) = s.get (Reg.RING_STAT_ERR n)) ∧
      (t.ring n).ci = s.get (Reg.RING_START_IDX n) ∧ (t.ring n).gen = s.get (Reg.RING_START_GEN n) ∧ (t.ring n).q = [] ∧
      (∀ m, m ≠ n.val → t.ring m = s.ring m)) ∧
    (s.on (Reg.RING_CTRL_EN n) = true → exec (.ringDisable w n) s = .next
      ((((((s.set (Reg.RING_CTRL_EN n) 0).modRing n (fun r => { r with
        chainAt := none, chainBad := none, offAt := if s.running = true ∧ s.phase = 0 then some s.tick else none })).cancelRing n true).cutCopies n).cutLoad
          n).ingCut n)) ∧
    (s.on (Reg.RING_CTRL_EN n) = false → exec (.ringDisable w n) s = .next s ∧ exec (.ringFlush w n) s = .next s) ∧
    (s.on (Reg.RING_CTRL_EN n) = true → exec (.ringFlush w n) s = .next (s.cancelRing n false)) ∧
    (s.running = false → s.awake = true → s.on Reg.PWR_STAT_READY = true →
      let u := (if s.hif.idleDue = true then s.idleService else s).activateRings.doorbellRead
      exec .idleDoorbellPoll s = .next (if u.on Reg.RING_GCTRL_DBEN = true then u else u.idleService)) ∧
    s.idleService = (State.settleHost s { s with hif := { s.hif with idleDue := false } }).planLast

/-- Work of the TX, RX and VID rings (R69, R102, R104, R105): a frame waits for its Emit or joins the queue of its MAC or CAN controller;
posted buffers start chain by chain. -/
def Obligations.FrameRingWork : Prop :=
  ∀ (n : Fin 64) (d : Desc) (c : List Desc) (s : State), (s.ring n).chain d = some c →
    let u := s.modDesc n (inChain c) (fun e => { e with started := true })
    (s.ready n 0x10 = some d → exec (.rxBuf n) s = .next u) ∧
    (s.ready n 0x30 = some d → exec (.vidBuf n) s = .next u) ∧
    (∀ b, s.ready n 0x01 = some d → chainData c = some b →
      let f : Frame :=
        { bytes := d.frameBytes b, hasFcs := d.hasFcs, cls := d.cls, src := .ring n d.idx, k := d.tickK, bound := none, start := 0, cut := false,
          ins := if d.opx.toNat / 2 ^ 16 % 2 = 1 then 4 else 0 }
      let early := u.tick < f.k ∨ (u.running = true ∧ u.tick = f.k ∧ u.phase < 2)
      (d.target < 6 → ¬ (d.cls = 7 ∧ u.safeOn d.target = true) → 64 ≤ f.lenFcs → f.lenFcs ≤ 1518 →
        (early → exec (.txFrame n) s = .next (u.modPort d.target (fun x => { x with stage := x.stage ++ [f] }))) ∧
        (¬early → exec (.txFrame n) s = .next ((u.join d.target f false).select d.target))) ∧
      (6 ≤ d.target → canOk b = true →
        let g : Frame := { f with bytes := b, hasFcs := true }
        (early → exec (.txFrame n) s = .next (u.modCan (d.target - 6) (fun x => { x with stage := x.stage ++ [g] }))) ∧
        (¬early → exec (.txFrame n) s = .next ((u.modCan (d.target - 6) (fun x => { x with q := x.q ++ [g] })).canSelect (d.target - 6)))))

/-- CMD work (R102, R109, R116, R122, R368, R668): each opcode at the head of its ring does its own work and completes the descriptor; a
copy goes on where it stood, by some of its 16-byte units or all that are left. -/
def Obligations.CommandRingWork : Prop :=
  ∀ (n : Fin 64) (units : BitVec 20) (d : Desc) (s : State),
    let me := fun (e : Desc) => e.is d.idx d.gen
    let base := d.opx.toNat % 2 ^ 32 - 0x10000000
    let goes := fun (t : State) (failed : Option Bool) (copied all : Nat) =>
      if failed = none ∧ copied < all then (t.start n d).setProg n d copied else t.endCopy n d failed copied
    let ref : RingRef := { ring := n, idx := d.idx, gen := d.gen, tag := d.tag }
    let u := s.start n d
    (s.ready n 0x20 = some d → exec (.cmdNop n) s = .next (s.finish n me statusDone none (some s.time32))) ∧
    (∀ b, s.ready n 0x21 = some d → d.data = some b → s.running = false →
      let p := u.applyPairs (b.length / 8) b 0
      let t := p.2.2.modDesc n me (fun e => { e with prog := p.2.1 })
      exec (.regWrite n) s = .next (if p.1 then (t.noteSeq n).finish n me statusFail (some t.led16) (some (BitVec.ofNat 32 s.now))
        else t.finish n me statusDone none (some (BitVec.ofNat 32 s.now)))) ∧
    (∀ b, s.atWork n 0x24 = some d → d.data = some b → d.short = false →
      let now := (b.drop d.prog).take (unitBytes units.toNat (b.length - d.prog))
      let r := s.copyIn (base) (chunks 16 ((now.length + 15) / 16) now) d.prog
      exec (.hoardWrite ⟨n, units⟩) s = .next (goes r.2.2 r.1 r.2.1 b.length)) ∧
    (s.atWork n 0x25 = some d →
      let now := unitBytes units.toNat (d.len - d.prog)
      let r := s.copyOut (decide (16 < d.len)) (base + d.prog) ((now + 15) / 16) now []
      r.2.1 ≠ [] → exec (.hoardRead ⟨n, units⟩) s =
        .next (goes (r.2.2.issue (.hostWrite (d.addr + BitVec.ofNat 64 d.prog) r.2.1)) r.1 (d.prog + r.2.1.length) d.len)) ∧
    (s.ready n 0x2D = some d → exec (.fence n) s = .next ((s.modDesc n me (fun e => { e with started := true })).flushRing n)) ∧
    (s.ready n 0x2B = some d →
      exec (.quench n) s = .next ((u.quench 0 false).endWithSeq n me statusDone (nextSeq (s.get Reg.PWR_LEDHEAD_SEQ)))) ∧
    (s.ready n 0x2C = some d → u.on Reg.PWR_QSTAT_ACTIVE = false → exec (.quenchClear n) s = .next (u.doneNow n me)) ∧
    (s.ready n 0x2C = some d → u.on Reg.PWR_QSTAT_ACTIVE = true → u.on Reg.PWR_QSTAT_HOLD = false →
      exec (.quenchClear n) s = .next (u.quenchRelease.endWithSeq n me statusDone (nextSeq (s.get Reg.PWR_LEDHEAD_SEQ)))) ∧
    (s.ready n 0x2C = some d → u.on Reg.PWR_QSTAT_ACTIVE = true → u.on Reg.PWR_QSTAT_HOLD = true →
      exec (.quenchClear n) s = .next (u.endNoEntry n me statusFail)) ∧
    (s.ready n 0x29 = some d → d.opx.toNat % 2 ^ 32 = s.get Reg.TIME_REFNUM_NUM → s.on Reg.TIME_STAT_HOLD = true → s.time.granted = false →
      exec (.timeGrant n) s = .next { u with time := { s.time with
        granted := true, refusedSince := false,
        steps := s.time.steps ++ [((s.word64 Reg.TIME_PEND_LO Reg.TIME_PEND_HI).toInt, some (d.opx.toNat % 2 ^ 32, ref))] } }) ∧
    (s.ready n 0x2A = some d → s.chnRunning = true → s.mayPropose = true → exec (.chnMode n) s = .next (u.propose (d.target % 8) (some ref))) ∧
    (s.ready n 0x2A = some d → s.chnRunning = false → exec (.chnMode n) s = .next ((s.record 0x0205 0xFF 0).endWithEntry n me statusFail)) ∧
    (∀ b, s.ready n 0x26 = some d → d.data = some b → d.short = false → b ≠ [] →
      exec (.ingProgram n) s = .next (u.ingQueue { src := .ring ref, erase := false, idx := d.opx.toNat % 2 ^ 32 / 256, data := b, left := 0, cut := false })) ∧
    (s.ready n 0x27 = some d → s.erasing = false →
      exec (.ingErase n) s = .next (u.ingQueue { src := .ring ref, erase := true, idx := d.opx.toNat % 2 ^ 32, data := [], left := d.opx.toNat / 2 ^ 32, cut := false })) ∧
    (s.atWork n 0x28 = some d →
      let x := d.opx.toNat % 2 ^ 32 + d.prog
      let r := s.ingUnits (unitBytes units.toNat (d.len - d.prog) / 16) x []
      s.ingReadable (x / 0x10000) = true → r.2.1 ≠ [] →
      exec (.ingRead ⟨n, units⟩) s = .next ((goes (r.2.2.issue (.hostWrite (d.addr + BitVec.ofNat 64 d.prog) r.2.1))
        (if r.1 = true then none else some true) (d.prog + r.2.1.length) d.len).ingServed)) ∧
    (∀ c b sfdp flash, s.ready n 0x22 = some d → (s.ring n).chain d = some c →
      let go := fun (x : LoadSrc) => (s.modDesc n (inChain c) (fun e => { e with started := true })).requestLoad
        { slot := d.target % 4, src := x, req := some ref }
      (d.opx.toNat % 256 = 0 → chainData c = some b → exec (.prsLoad n sfdp flash) s = .next (go (.chain b))) ∧
      (d.opx.toNat % 256 = 1 → exec (.prsLoad n sfdp flash) s = .next (go (.ingot (d.opx.toNat / 2 ^ 32)))) ∧
      (d.opx.toNat % 256 = 2 → exec (.prsLoad n sfdp flash) s = .next (go (.flash sfdp (d.opx.toNat / 2 ^ 32) flash)))) ∧
    (s.ready n 0x23 = some d → let v := u.modSlot (d.target % 4) (fun x => { x with unload := x.unload ++ [ref] })
      v.slotState (d.target % 4) ≠ slotWaitDone → exec (.prsUnload n) s = .next (v.tryUnload false (d.target % 4)))

/-- Requests to the BARs and configuration space (R126, R128 to R130, R142, R143, R146, R148): a request to BAR2 or BAR4 reaches what lies at
its offset from the base that configuration gave the BAR; another one finds nothing. -/
def Obligations.HostRequests : Prop :=
  ∀ (pf1 write : Bool) (a : BitVec 64) (a4 : BitVec 32) (n : BitVec 12) (bs : List Byte) (v : BitVec 64) (dw : BitVec 10) (x : W32) (s : State),
    (∃ t, exec (.poisonedWrite pf1) s = .next t ∧ (t.fn pf1).aer = aerPoisoned :: (s.fn pf1).aer.filter (fun k => k != aerPoisoned) ∧
      t.fn (!pf1) = s.fn (!pf1) ∧ ((s.fn pf1).aer = [] → (t.fn pf1).firstErr = aerPoisoned) ∧ t = { s with pcie := t.pcie, freeCtr := t.freeCtr }) ∧
    (s.hitsBar2 a = true ↔ s.fnOpen false = true ∧ s.on Reg.DEV_STAT_BAR2EN = true ∧ a.toNat / 0x100000 = s.pcie.pf0.bar2.toNat / 0x100000) ∧
    (s.hitsBar4 pf1 a4 = true ↔ s.fnOpen pf1 = true ∧ a4.toNat / 0x1000 = (s.fn pf1).bar4.toNat / 0x1000) ∧
    (s.hitsBar2 a = false → exec (.bar2Access a true n bs) s = .next s ∧ exec (.bar2Access a false n bs) s = .next (s.send (.reply false .unsupported []))) ∧
    (s.hitsBar2 a = true → s.asleep = false → 0 < bs.length → bs.length ≤ 64 →
      exec (.bar2Access a true n bs) s = .next (s.hoardWrite 22 (s.get Reg.DEV_B2WIN_BASE * 0x100000 + a.toNat % 0x100000) bs).2) ∧
    (∀ b t, s.hitsBar2 a = true → s.asleep = false → 0 < n.toNat → n.toNat ≤ 64 →
      s.hoardRead 22 (s.get Reg.DEV_B2WIN_BASE * 0x100000 + a.toNat % 0x100000) n.toNat = (.ok b, t) →
      exec (.bar2Access a false n bs) s = .next (t.send (.reply false .ok b))) ∧
    (s.hitsBar4 pf1 a4 = false → exec (.bar4Access pf1 a4 true n v) s = .next s ∧
      exec (.bar4Access pf1 a4 false n v) s = .next (s.send (.reply pf1 .unsupported []))) ∧
    (s.hitsBar4 pf1 a4 = true → s.asleep = false → a4.toNat % 4 = 0 →
      let i := a4.toNat % 0x1000 / 4
      exec (.bar4Access pf1 a4 true 4 v) s = .next (s.modFn pf1 (fun f => f.putBar4 pf1 i (v.setWidth 32))) ∧
      exec (.bar4Access pf1 a4 false 4 v) s = .next (s.send (.reply pf1 .ok (leBytes 4 ((s.fn pf1).bar4Word pf1 i).toNat)))) ∧
    (s.pcie.ready = false → exec (.configurationRequest pf1 write dw x) s = .next (s.send (.reply pf1 .retry []))) ∧
    (s.pcie.ready = true → s.power.reset = none →
      exec (.configurationRequest pf1 true dw x) s = .next ((s.cfgWrite pf1 dw.toNat x).send (.reply pf1 .ok [])) ∧
      (∀ y, s.cfgRead pf1 dw.toNat = some y → exec (.configurationRequest pf1 false dw x) s = .next (s.send (.reply pf1 .ok (leBytes 4 y.toNat)))))

/-! ## Resets (05, 19) -/

/-- What a reset of the whole device leaves (R639, R643 to R645, R657): queued commands and Ingot's bytes stay; POR and BOR clear the
ledger and the residue, and set the cause; the Hearth, the engines, the loader and every port are as at reset; the reset holds until its
release. -/
def Obligations.WholeDeviceResets : Prop :=
  ∀ (s : State) (src : BitVec 4), s.Inv → s.power.reset = none →
    exec .por s = .next (s.wholeReset 0) ∧ exec .rstN s = .next (s.wholeReset 2) ∧ (s.wdtRuns = true → exec .wdt s = .next (s.wholeReset 3)) ∧
    (s.wdtRuns = false → exec .wdt s = .next s) ∧
    (∀ w, exec (.softReset w) s = .next (s.wholeReset 9)) ∧
    (∃ t, exec (.bor src) s = .next t ∧ t.ledger = [] ∧ t.get Reg.PWR_RSTCAUSE_KIND = 2 ∧ t.get Reg.PWR_RSTCAUSE_LAST = 1 ∧
      t.get Reg.PWR_RSTCAUSE_BORSRC = src.toNat ∧ t.tb = 0) ∧
    (∀ k, k < 10 → let t := s.wholeReset k
      t.power.reset = some k ∧ t.pending = s.pending ∧ t.eng = Vector.replicate 16 Eng.zero ∧ t.hearth = Hearth.zero ∧ t.prs = Prs.zero ∧
      t.ports = Vector.replicate 6 Port.zero ∧ t.chain = Chain.zero ∧ (k ≤ 1 → t.ledger = []) ∧ (k ≠ 9 → t.tb = 0) ∧
      (∀ a, ¬ (0x40000000 ≤ a ∧ a < 0x40800000) → Memory.read t.mem a = Memory.dflt a) ∧
      (∀ a, 0x40000000 ≤ a → a < 0x40800000 → Memory.read t.mem a = Memory.read s.mem a))

/-- Resets of the host side, FLR and D3hot, and the link's return (R142, R144, R641, R648). -/
def Obligations.HostSideResets : Prop :=
  ∀ (bar2 pf1 : Bool) (boot mpri : Fin 4) (width : Fin 3) (speed : Fin 4) (s : State),
    (s.on Reg.PWR_RSTCFG_PERST = true → s.power.reset = none →
      exec (.perstN bar2 boot mpri) s = .next (((s.hostReset 4).setB Reg.DEV_STAT_BAR2EN bar2).setStraps boot mpri)) ∧
    (s.on Reg.PWR_RSTCFG_PERST = false → exec (.perstN bar2 boot mpri) s = .next (s.wholeReset 4)) ∧
    exec .hotReset s = .next (s.hostReset 5) ∧
    exec .flrPf0 s = .next (((s.noteReset 6).resetPf0 true).cancelHostMsgs) ∧
    (∃ t, exec .flrPf1 s = .next t ∧ t.pcie.pf1 = { PciFn.dflt with flr := true, mps := s.pcie.pf1.mps, lnkCtl := s.pcie.pf1.lnkCtl } ∧ t.hif.vecs1 = 0 ∧
      t.pcie.pf0 = s.pcie.pf0 ∧ t.hif.rings = s.hif.rings ∧ t.eng = s.eng) ∧
    (∃ u, exec (.flrComplete pf1) s = .next (State.drainWait u) ∧ (u.fn pf1).flr = false ∧ u.fn (!pf1) = s.fn (!pf1) ∧ u = { s with pcie := u.pcie }) ∧
    exec (.d3hotEntry pf1) s = .next (s.setD3 pf1 true) ∧ exec (.d3hotExit pf1) s = .next (s.setD3 pf1 false) ∧
    (∃ u, exec (.pcieLinkUp width speed) s = .next (State.drainWait u) ∧ u.power.hostReset = false ∧
      (s.Inv → u.get Reg.DEV_PCISTAT_LINKUP = 1 ∧ u.get Reg.DEV_PCISTAT_WIDTH = 2 ^ width.val ∧ u.get Reg.DEV_PCISTAT_SPEED = speed.val + 1))

/-- The release of a reset (R646): after a reset of the whole device start-up applies straps, repairs and what a cut burn left; SOFT only
reaches READY; the release leads to RUN. The watchdog (R640): a kick goes to its register, the warning sets WDTWARN and records, and both
need the watchdog to run. -/
def Obligations.ReleaseAndWatchdog : Prop :=
  (∀ (bar2 : Bool) (boot mpri : Fin 4) (test : Bool) (banks : List (Fin 32)) (engines : List (Fin 16))
    (rows : List (Fin 8 × BitVec 16 × BitVec 32 × BitVec 32)) (unrep : Bool) (burn : Fin 3) (k : Nat) (s : State), s.power.reset = some k →
    let go := exec (.resetRelease bar2 boot mpri test banks engines rows unrep burn) s
    let a := if k = 9 then s.setEff
      else ((((s.setB Reg.DEV_STAT_BAR2EN bar2).setStraps boot mpri).endCutBurn burn).applyRecord).selfTest banks engines rows unrep
    let b := if k ≤ 1 then a else a.set Reg.PWR_BOOTCNT_COUNT (a.get Reg.PWR_BOOTCNT_COUNT + 1)
    let c := ((b.set Reg.PRS_GSTAT_SEALONLY (b.get Reg.KEY_STAT_SEALONLY)).set Reg.PWR_STAT_READY 1).set Reg.PWR_STAT_STATE 0
    let d := { c with power := { c.power with reset := none }, pcie := { c.pcie with ready := true }, tap := { c.tap with hold := c.tap.holds } }
    (k ≠ 9 → test = true → go = .next s) ∧
    (k ≠ 9 → test = false → go = .next (d.avsSend (d.vstart 0)).queueRecord.ingGo.chainEnables.refreshLsw) ∧
    (k = 9 → go = .next d.queueRecord.ingGo.chainEnables.refreshLsw)) ∧
  (∀ (w : Who) (key : BitVec 16) (s : State),
    exec (.wdtKick w key) s = .next (s.writeWdtkick (key.setWidth 32)) ∧
    (s.wdtRuns = false ∨ s.get Reg.PWR_WDTREM_REMAIN ≤ s.wdtHalf → exec .wdtWarn s = .next s) ∧
    (s.wdtRuns = true → s.wdtHalf < s.get Reg.PWR_WDTREM_REMAIN → s.Inv → ∃ t, exec .wdtWarn s = .next t ∧ t.get Reg.PWR_STAT_WDTWARN = 1 ∧ (t.ledger.head?.map (fun x => x.code)) = some 0x0E01 ∧
      t = { s with regs := t.regs, ledger := t.ledger }) ∧
    exec (.chrstGo w) s = .next (s.writeChrst 1) ∧
    (∀ r ∈ s.chain.run, r.cmd = 3 → r.target ≤ s.tick → exec .chainReset s = .next ((s.noteReset 8).chainReset)) ∧
    ((∀ r ∈ s.chain.run, r.cmd = 3 → s.tick < r.target) → exec .chainReset s = .next s))

/-! ## The Hoard and its directory (08) -/

/-- RD and RDX (R257, R258, R260, R256): a miss that has not been requested reaches the directory; behind an open transaction on its line
it waits; a bank that has left ON serves it directly; the directory grants it, or opens a transaction that snoops the owner, or for an
RDX the other sharers. WB, SNOOP and SNOOP_ANSWER (R257, R259, R261, R274): the write-back of an owner goes to the bank and ends its
entry, that of another core is reported; a snooped copy answers with its data when it is owned, and INV ends it; the last answer closes
the transaction. -/
def Obligations.DirectoryTraffic : Prop :=
  (∀ (e : Fin 16) (rdx hv : Bool) (line : Nat) (s : State), s.newMiss e rdx = some (line, hv) →
    let go := exec (if rdx = true then .rdx e else .rd e) s
    let on := s.get (Reg.HRD_BANK_CUR (bankOf line)) = 0 ∧ s.hoardDeny e line 1 = none
    let opens := fun (cs : List Nat) => ∃ t, go = .next t ∧
      t.hoard.txn line = some { line := line, eng := e, rdx := rdx, snoops := cs.map (fun c => (c, rdx)), await := cs, data := none } ∧
      t.hoard.txns.length = s.hoard.txns.length + 1 ∧ t.mem = s.mem ∧ t.regs = s.regs ∧ t.eng = s.eng
    (s.hoard.txn line ≠ none → ∃ t, go = .next t ∧ t.hoard = { s.hoard with waiting := s.hoard.waiting ++ [(line, e)] } ∧ t.eng = s.eng ∧ t.mem = s.mem) ∧
    (s.hoard.txn line = none → ¬on → go = .next (s.serveDirect e line)) ∧
    (s.hoard.txn line = none → on →
      (s.hoard.entry line = none → go = .next (s.grant e line rdx hv [])) ∧
      (∀ cs, s.hoard.entry line = some (.shared cs) → (rdx = false ∨ ∀ c ∈ cs, c = s.coreOf e) → go = .next (s.grant e line rdx hv cs)) ∧
      (∀ cs, s.hoard.entry line = some (.shared cs) → rdx = true → (∃ c ∈ cs, c ≠ s.coreOf e) → opens (cs.filter (fun c => c != s.coreOf e))) ∧
      (∀ o, s.hoard.entry line = some (.owned o) → opens [o]))) ∧
  ((∀ (core : Fin 18) (l : Nat) (d : List Byte) (bad : Bool) (r : List ChanMsg) (s : State), s.hoard.channel core = .wb l d bad :: r → s.hoard.txn l = none →
    (s.hoard.entry l = some (.owned core) → s.Inv → ∃ t, exec (.wb core) s = .next t ∧ t.hoard.entry l = none ∧ t.hoard.channel core = r ∧
      t.rd (Memory.hoard l) d.length = d ∧ (∀ a, a < Memory.hoard l ∨ Memory.hoard l + d.length ≤ a → Memory.read t.mem a = Memory.read s.mem a) ∧
      t.regs = s.regs ∧ t.eng = s.eng) ∧
    (s.hoard.entry l ≠ some (.owned core) → ∃ t, exec (.wb core) s = .next t ∧ t.mem = s.mem ∧ t.hoard = s.hoard.setChannel core r ∧
      (t.ledger.head?.map (fun x => x.code)) = some 0x0404)) ∧
  (∀ (core : Fin 18) (line : Fin 262144) (tx : LineTxn) (inv : Bool) (x : CacheLine) (s : State),
    s.hoard.txn (line.val * 64) = some tx → tx.snoops.find? (fun y => y.1 == core.val) = some (core.val, inv) →
    s.hoard.copy core (line.val * 64) = some x → ¬(x.own = true ∧ x.parity = true) →
    ∃ t, exec (.snoop core line) s = .next t ∧
      t.hoard.channel core = s.hoard.channel core ++ [.answer (line.val * 64) true (if x.own = true then some x.data else none)] ∧
      (inv = true → t.hoard.copy core (line.val * 64) = none) ∧
      (inv = false → (t.hoard.copy core (line.val * 64)).map (fun y => (y.own, y.data)) = some (false, x.data)) ∧
      t.mem = s.mem ∧ t.regs = s.regs ∧ t.eng = s.eng) ∧
  (∀ (core : Fin 18) (l : Nat) (had : Bool) (d : Option (List Byte)) (r : List ChanMsg) (tx : LineTxn) (s : State),
    s.hoard.channel core = .answer l had d :: r → s.hoard.txn l = some tx →
    let u := s.modHoard (fun h => h.setChannel core r)
    let ty : LineTxn := { tx with await := tx.await.filter (fun c => c != core.val), data := if d = none then tx.data else d }
    (ty.await = [] → exec (.snoopAnswer core) s = .next (u.closeTxn ty)) ∧
    (ty.await ≠ [] → exec (.snoopAnswer core) s = .next (u.modHoard (fun h => { h with txns := h.txns.map (fun v => if v.line == l then ty else v) })))))

/-- Banks, partitions and migrations (R240, R253, R254, R255, R265, R266, R267, R268, R276): APPLY takes the pending layout or reports the
first failed check; a bank drains when its target leaves ON, also one that comes ON with another target; a transition to OFF and a fill leave
zeros, and neither acts outside Settle, nor does a migration's copy (R80, R266), which goes on only while its bank is ON (R268); a migration takes the lowest unused spare. That HOARD_NOSPARE names the bank as its UNIT is the model's reading (DEDUCED, log entry 14). -/
def Obligations.BanksAndPartitions : Prop :=
  ∀ (w : Who) (b : Fin 32) (v : BitVec 2) (m : W32) (s : State), s.Inv →
    (s.ownRefused w Reg.HRD_PCTL = false → ∃ t, exec (.partitionApply w) s = .next t ∧
      t.get Reg.HRD_STAT_PARTCODE = partCode s.pendingParts ∧
      (partCode s.pendingParts = 0 → t.hoard = { s.hoard with parts := s.pendingParts }) ∧
      (partCode s.pendingParts ≠ 0 → t.get Reg.HRD_STAT_PARTERR = 1 ∧ t.hoard = s.hoard) ∧ t.mem = s.mem) ∧
    (s.ownRefused w (Reg.HRD_BANK b) = false → s.bankMapped b = true → ∃ t, exec (.bankTargetWrite w b v) s = .next t ∧
      t.get (Reg.HRD_BANK_TGT b) = v.toNat ∧
      t.bankCur b = (if s.bankCur b = 0 ∧ v ≠ 0 then 4 else if s.bankCur b = 4 ∧ v = 0 then 0 else s.bankCur b)) ∧
    (s.ownRefused w (Reg.HRD_BANK b) = false → s.bankMapped b = false → exec (.bankTargetWrite w b v) s = .next s) ∧
    (s.inSettle = false → exec (.bankTransitionDone b) s = .next s ∧ exec (.fillDone b) s = .next s) ∧
    (s.inSettle = true → s.hoard.transTo.getD b none = some 2 → ∃ t, exec (.bankTransitionDone b) s = .next t ∧ t.bankCur b = 2 ∧
      (∀ a, a < 0x80000 → Memory.read t.mem (Memory.hoard (b.val * 0x80000 + a)) = 0) ∧
      (∀ a, a < Memory.hoard (b.val * 0x80000) ∨ Memory.hoard ((b.val + 1) * 0x80000) ≤ a → Memory.read t.mem a = Memory.read s.mem a)) ∧
    (s.inSettle = true → s.hoard.transTo.getD b none = some 1 → ∃ t, exec (.bankTransitionDone b) s = .next t ∧ t.bankCur b = 1 ∧ t.mem = s.mem) ∧
    (s.inSettle = true → s.hoard.transTo.getD b none = some 0 → s.bankTgt b = 0 →
      ∃ t, exec (.bankTransitionDone b) s = .next t ∧ t.bankCur b = 0 ∧ t.mem = s.mem) ∧
    (s.inSettle = true → s.hoard.transTo.getD b none = some 0 → s.bankTgt b ≠ 0 →
      let u := (s.set (Reg.HRD_BANK_CUR b) 0).modHoard (fun h => { h with transTo := h.transTo.setIfInBounds b none })
      exec (.bankTransitionDone b) s = .next (u.drainBank b)) ∧
    (s.inSettle = true → s.bankCur b = 3 → s.bankTgt b ≠ 0 → exec (.fillDone b) s = .next ((s.zeroBank b).drainBank b)) ∧
    (s.bankLines b = [] → (s.drainBank b).bankCur b = 4) ∧
    (s.inSettle = true → s.bankCur b = 3 → s.bankTgt b = 0 → ∃ t, exec (.fillDone b) s = .next t ∧ t.bankCur b = 0 ∧
      (∀ a, a < 0x80000 → Memory.read t.mem (Memory.hoard (b.val * 0x80000 + a)) = 0)) ∧
    (s.bankCur b ≠ 3 → exec (.fillDone b) s = .next s) ∧
    (s.ownRefused w Reg.HRD_MIG = false →
      let u := s.writeFields w Reg.HRD_MIG m (fun _ => false)
      exec (.migrationGo w m) s = .next (if fieldGet m 8 1 = 1 ∧ u.on Reg.HRD_STAT_MIGBUSY = false then u.startMig (fieldGet m 0 5) else u)) ∧
    ((s.get Reg.HRD_MIG_THR = 0 ∨ s.get (Reg.HRD_BANK_CORR b) < s.get Reg.HRD_MIG_THR ∨ s.bankCur b ≠ 0 → exec (.migrationThreshold b) s = .next s) ∧
      (s.get Reg.HRD_MIG_THR ≠ 0 → s.get Reg.HRD_MIG_THR ≤ s.get (Reg.HRD_BANK_CORR b) → s.bankCur b = 0 → s.on Reg.HRD_STAT_MIGBUSY = false →
        exec (.migrationThreshold b) s = .next (s.startMig b))) ∧
    (s.spareBank = none → s.startMig b = (s.set Reg.HRD_STAT_NOSPARE 1).record 0x0403 b 0) ∧
    (∀ p, s.spareBank = some p → s.bankCur b = 0 → (s.startMig b).hoard.migs = [{ bank := b, spare := p, copied := false, pos := 0 }] ∧
      (s.startMig b).get Reg.HRD_STAT_MIGBUSY = 1 ∧ (p = 32 ∨ p = 33)) ∧
    (s.inSettle = false → exec .migrationCopyDone s = .next s) ∧
    (s.inSettle = true → ∃ t, exec .migrationCopyDone s = .next t ∧ t.mem = s.mem ∧ t.regs = s.regs ∧
      t.hoard.migs = s.hoard.migs.map (fun x => if s.bankCur x.bank = 0 then { x with copied := true, pos := 32768 } else x))

/-! ## The personality loader (09) -/

/-- The work of a load (R287, R288, R289, R290, R291, R292, R294, R298): a record that its source cannot give ends it with code 5, one with a
wrong CRC with code 3; a staged stream whose
trailer is wrong ends it with code 4, a tag that does not verify, or a signed one without a root key, with code 7, a rolled-back version
with code 8, an ill-formed stream with code 4, a failed admission check with its code, and one that passes all of them is claimed, applied
and hashed; an admitted load enters STARTUP at step 0 and takes its steps; a step that waits for DONE waits.
DONE, the boot autoload and the readback (R285, R300, R301, R302, R303): DONE acts when it has been high for its filter time, a time-out
ends the load with code 14, a boot without a source is done at once, and the readback walks the tiles of the loaded slots. -/
def Obligations.LoadsProgress : Prop :=
  (∀ (n : Fin 3) (ended : Unit) (s : State),
    let x := s.slot n
    let got := s.fillRecord n
    let y := got.2.slot n
    let st := x.stream
    let i := s.get (Reg.PRS_STAT_STEP n)
    (x.src = none → got = (true, s)) ∧
    (s.prs.active = some n → got.1 = false → exec .frameRecord s = .next (got.2.loadFails n 5)) ∧
    (s.prs.active = some n → got.1 = true → 260 ≤ y.file.length → (crc32c (y.file.take 256)).toNat ≠ leAt y.file 256 4 →
      exec .frameRecord s = .next (got.2.loadFails n 3)) ∧
    (s.prs.active = some n → got.1 = true → 260 ≤ y.file.length → (crc32c (y.file.take 256)).toNat = leAt y.file 256 4 →
      exec .frameRecord s = .next (((got.2.modSlot n (fun z => { z with file := z.file.drop 260, stream := z.stream ++ y.file.take 256 })).set
        (Reg.PRS_PROG_BYTES n) (got.2.get (Reg.PRS_PROG_BYTES n) + 260)).frameBytes n y.stream.length)) ∧
    (∀ base size b u, s.sec.patch = [] → s.prs.active = some n → s.slotState n = 2 → x.admitted = false →
      s.partition 3 = some (base, size) → s.hoardRead 26 base st.length = (.ok b, u) →
      let go := exec (.tagCheckDone n ended) s
      let body := b.take (slenOf b - 256)
      let trailer := b.drop (slenOf b - 256)
      let key := (trailer.drop 0x30).take 97
      let good := (byteAt b 9 ≠ 1 → hmac256 deviceKey body = (trailer.drop 0x10).take 32) ∧
        (byteAt b 9 = 1 → u.on Reg.KEY_STAT_ROOTSET = true ∧ u.on Reg.KEY_STAT_ROOTBAD = false ∧ sha384 key = u.rootHash ∧
          ecdsaOk key ((trailer.drop 0x98).take 96) body = true)
      let new := byteAt b 16 = 0xFF ∨ u.get (Reg.KEY_ARB_VAL (byteAt b 16)) ≤ leAt b 12 4
      let formed := tableOk b = true ∧ gapsZero b = true ∧ sectionsBound b = true ∧ modesOk b 0 b.length = true
      (trailerOk b = false → go = .next (u.loadFails n 4)) ∧
      (trailerOk b = true → if ¬good then go = .next (u.loadFails n 7) else if ¬new then go = .next (u.loadFails n 8)
        else if ¬formed then go = .next (u.loadFails n 4) else match u.admission n b with
          | some c => go = .next (u.loadFails n c)
          | none => match (u.claim n b).applyRange n b 0 b.length with
            | (none, v) => go = .next (v.setHash n b)
            | (some c, v) => go = .next (v.loadFails n c))) ∧
    (∀ b, (s.setHash n b).word64 (Reg.PRS_HASH_LO n) (Reg.PRS_HASH_HI n) = sha384Head (b.take (b.length - 256))) ∧
    (s.Inv → x.admitted = true → s.prs.active = some n → s.slotState n = 2 → ∃ t, exec (.sectionApplyDone n) s = .next t ∧
      t.slotState n = 3 ∧ t.get (Reg.PRS_STAT_STEP n) = 0 ∧ t.mem = s.mem ∧ t.eng = s.eng) ∧
    (x.admitted = false → exec (.sectionApplyDone n) s = .next s) ∧
    (s.slotState n = 3 → i < 4 → x.after = none →
      let u := (s.doStep n (stepAt (s.stepOrder n) i)).set (Reg.PRS_STAT_STEP n) (i + 1)
      (u.waitAfter n = i + 1 → (u.slot n).passed = false → exec (.startUpStep n) s =
        .next (if u.on Reg.PRS_DONECTL_LEVEL = true then u.passDone n u.afterDone else
          let v := u.setSlotState n 4
          if (v.slot n).unload = [] then v else (v.tryUnload false n).afterLoad)) ∧
      (u.waitAfter n ≠ i + 1 → exec (.startUpStep n) s = .next (if i = 3 then u.loadEnds n else u)))) ∧
  (∀ (n : Fin 3) (high : Bool) (sfdp dir : List Byte) (images : List (List Byte)) (flips : List (Fin 512)) (s : State),
    (s.Inv → ∃ t, exec (.doneEdge high) s = .next t ∧ t.prs.donePin = high ∧ (high = true → t.regs = s.regs) ∧
      (high = false → t.get Reg.PRS_DONECTL_LEVEL = 0 ∧ t.prs.doneRising = false)) ∧
    ((s.prs.donePin && s.prs.doneRising) = false → exec .doneAccept s = .next s) ∧
    (s.prs.donePin = true → s.prs.doneRising = true →
      let u := { s with prs := { s.prs with doneRising := false, doneAt := s.now } }.set Reg.PRS_DONECTL_LEVEL 1
      exec .doneAccept s = .next (u.each 3 (fun m t => if t.slotState m = 4 then t.passDone m t.afterDone else t))) ∧
    (s.running = true → s.hearth.nominal < s.prs.doneAt + 2000 → s.afterDone = some (s.prs.doneAt + 2000)) ∧
    (s.running = false ∨ s.prs.doneAt + 2000 ≤ s.hearth.nominal → s.afterDone = none) ∧
    (s.slotState n = 4 → s.on Reg.PRS_DONECTL_TMO = true → exec (.doneTimeout n) s = .next (s.loadFails n 14)) ∧
    (s.slotState n ≠ 4 ∨ s.on Reg.PRS_DONECTL_TMO = false → exec (.doneTimeout n) s = .next s) ∧
    ((s.on Reg.PRS_GSTAT_BOOTDONE = true ∨ s.prs.booting = true) → exec (.bootAutoload ⟨sfdp, dir⟩ images) s = .next s) ∧
    (s.on Reg.PRS_GSTAT_BOOTDONE = false → s.prs.booting = false →
      let ing := s.readSrc (.ingot 0) 0 64
      let spi := s.spiRead sfdp 0 64 dir
      (s.get Reg.PRS_GSTAT_BOOTSRC = 0 → exec (.bootAutoload ⟨sfdp, dir⟩ images) s = .next (s.set Reg.PRS_GSTAT_BOOTDONE 1)) ∧
      (s.get Reg.PRS_GSTAT_BOOTSRC = 1 → exec (.bootAutoload ⟨sfdp, dir⟩ images) s = .next (ing.2.2.bootLoads ing.2.1 (fun _ off => .ingot off))) ∧
      (s.get Reg.PRS_GSTAT_BOOTSRC = 2 → exec (.bootAutoload ⟨sfdp, dir⟩ images) s =
        .next (spi.2.2.bootLoads spi.2.1 (fun i off => .flash sfdp off (images.getD i []))))) ∧
    (s.on Reg.PRS_FCLK_MHZ = false → exec (.readbackFrame flips) s = .next s) ∧
    (∀ (k : Fin 3), s.on Reg.PRS_FCLK_MHZ = true → s.prs.rbTile < 5 → s.rbSlot s.prs.rbTile = some k.val →
      let f := s.prs.rbFrame
      let u := (flips.foldl (fun t b => t.flip s.prs.rbTile f b.val) s).rbFrameRead k s.prs.rbTile f
      exec (.readbackFrame flips) s =
        .next { u with prs := { u.prs with rbTile := if f = 1023 then (s.prs.rbTile + 1) % 5 else s.prs.rbTile, rbFrame := (f + 1) % 1024 } }))

/-! ## Ports, CAN and video (10) -/

/-- Frames on a port (R314, R315, R316, R318, R319, R320, R321, R333, R337, R338, R340, R373): a link comes up and falls; a start of frame
registers, and in half duplex defers the transmitter; a frame that is too short, too long or wrong is counted and dropped, a PAUSE frame
acts, a packet of a video stream goes to its stream (R344), any other goes into the port's region with its class and times; the end of a
transmission completes its chain; a frame that may cut through starts on its egress once CTSTART of its bytes have come, one that may not is
held for it. -/
def Obligations.PortFrames : Prop :=
  ∀ (p : Fin 6) (q : Fin 4) (speed : Fin 4) (fdx loc toHost : Bool) (sent : BitVec 16) (b : List Byte) (cls : Option (Fin 8)) (fcs : W32) (s : State), s.Inv →
    let all := b ++ leBytes 4 fcs.toNat
    let go := exec (.rxFrame p b cls ⟨loc, toHost⟩ fcs) s
    let live := s.portUp p = true ∧ s.on (Reg.PORT_LCFG_EN p) = true
    (s.on (Reg.PORT_LCFG_EN p) = true → modeAccepts p (s.get (Reg.PORT_LCFG_MODE p)) speed fdx = true → s.portUp p = false → s.phyOff p = false →
      ∃ u : State, exec (.linkUp p speed fdx) s = .next ((u.preUpdate p).select p) ∧ u.get (Reg.PORT_LSTAT_UP p) = 1 ∧
        u.get (Reg.PORT_LSTAT_SPEED p) = speed.val ∧ u.portFdx p = fdx ∧ u.get (Reg.PORT_LSTAT_LCHG p) = 1 ∧ u = { s with regs := u.regs }) ∧
    (s.portUp p = true ∨ s.phyOff p = true ∨ s.on (Reg.PORT_LCFG_EN p) = false → exec (.linkUp p speed fdx) s = .next s) ∧
    (s.portUp p = false → exec (.linkDown p sent) s = .next s) ∧
    (s.portUp p = true → exec (.linkDown p sent) s = .next (s.linkFalls p sent.toNat)) ∧
    (let u := (s.modPort p (fun x => { x with sof := s.now })).registerAll p
     (live → s.portFdx p = true → exec (.startOfFrame p) s = .next u) ∧
     (live → s.portFdx p = false → exec (.startOfFrame p) s = .next ((u.modPort p (fun x => { x with rxBusy := true })).collide p))) ∧
    (¬live → exec (.startOfFrame p) s = .next s ∧ go = .next s) ∧
    (∀ n x, live → s.streamPacket p all = some (n, x) → go = .next (s.streamTakes (p - 4) n all.length x)) ∧
    (live → s.streamPacket p all = none → s.portFdx p = false → go =
      .next (((s.modPort p (fun x => { x with rxBusy := false })).receive p all (cls.map (fun x => x.val)) loc toHost).select p)) ∧
    (live → s.streamPacket p all = none → s.portFdx p = true → (s.port p).ct = none →
      (all.length < 64 ∨ 1522 < all.length → ∃ t, go = .next t ∧
        t.get (Reg.PORT_DROP_LEN p) = min (s.get (Reg.PORT_DROP_LEN p) + 1) 255 ∧ t = { s with regs := t.regs }) ∧
      (64 ≤ all.length → all.length ≤ 1522 →
        (fcs ≠ ~~~ stompCode b → fcs ≠ stompCode b → ∃ t, go = .next t ∧
          t.get (Reg.PORT_DROP_FCS p) = min (s.get (Reg.PORT_DROP_FCS p) + 1) 255 ∧ t = { s with regs := t.regs }) ∧
        (fcs = stompCode b → ∃ t, go = .next t ∧
          t.get (Reg.PORT_STOMP_RX p) = min (s.get (Reg.PORT_STOMP_RX p) + 1) 65535 ∧ t = { s with regs := t.regs }) ∧
        (fcs = ~~~ stompCode b → isPauseFrame all = true → go = .next (s.takePause p (byteAt all 16 * 256 + byteAt all 17))) ∧
        (fcs = ~~~ stompCode b → isPauseFrame all = false → s.egresses p = [] → s.cbOwner p = none →
          (s.occupancy p + all.length ≤ 0x20000 → ∃ t, go = .next t ∧
            (t.port p).rx = (s.port p).rx ++ [
              { bytes := all, cls := s.classify p all (cls.map (fun x => x.val)), t := s.now, sof := (s.port p).sof,
                handed := none, fwd := [], own := true, toHost := toHost, pos := (s.port p).rxAt, time := s.rxTime p }] ∧
            (t.port p).rxAt = ((s.port p).rxAt + all.length) % 0x20000 ∧
            ((s.port p).rxAt + all.length ≤ 0x20000 → t.rd (0x20000000 + p * 0x20000 + (s.port p).rxAt) all.length = all)) ∧
          (0x20000 < s.occupancy p + all.length → ∃ t, go = .next t ∧ (t.port p).rx = (s.port p).rx ∧ t.mem = s.mem ∧
            t.get (Reg.PORT_DROP_RXOVF p) = min (s.get (Reg.PORT_DROP_RXOVF p) + 1) 255)))) ∧
    ((s.port p).wire = none → exec (.transmitDone p) s = .next s) ∧
    (∀ f, (s.port p).wire = some f →
      let a := (s.credits p).modPort p (fun x => { x with wire := none })
      let u := (if f.bad = true then (a.send (.txCut p (some (stompCode f.wireBytes)))).count (Reg.PORT_STOMP_TX p) 1 else a).registerAll (6 + p.val)
      (∀ r i, f.src = .ring r i → exec (.transmitDone p) s =
        .next ((u.endTx r i statusDone f.bytes.length none (if f.cut = true then none else some (u.txTime p f))).select p)) ∧
      (∀ i, f.src = .fwd i → exec (.transmitDone p) s = .next ((u.fwdGone i p f).select p))) ∧
    (∀ c, (s.port q).ct = some c → c.stomped = false → exec (.cutThroughOverlength q) s =
      .next (((s.stompOut q none).modPort q (fun x => { x with ct := some { egress := [], held := [], stomped := true, long := true } })).count
        (Reg.PORT_DROP_LEN q) 1)) ∧
    (∀ c, s.portUp q = true → s.ctStart q ≤ b.length → s.egresses q ≠ [] → (s.port q).ct = none → s.classify q b (cls.map (fun x => x.val)) = c →
      (s.egresses q).filter (fun e => s.cutOk q e c) = [] →
      exec (.cutThroughStart q b (.frame cls false)) s = .next (s.modPort q (fun x => { x with ct := some { egress := [], held := s.egresses q, stomped := false } }))) ∧
    exec (.cutThroughStart q b .abort) s = .next (s.tileAbort q) ∧
    (loc = true ∨ b.length < s.ctStart q ∨ s.portUp q = false ∨ s.egresses q = [] ∨ (s.port q).ct ≠ none →
      exec (.cutThroughStart q b (.frame cls loc)) s = .next s) ∧
    (∀ c (e : Fin 4), s.portUp q = true → s.ctStart q ≤ b.length → s.egresses q = [e.val] → (s.port q).ct = none → s.classify q b (cls.map (fun x => x.val)) = c →
      s.cutOk q e c = true → maybePause b = false → ∃ t, exec (.cutThroughStart q b (.frame cls false)) s = .next t ∧
        (t.port e).wire = some { bytes := b, hasFcs := true, cls := c, src := .fwd q, k := 0, bound := none, start := s.now, cut := false, seg := s.now, cutThrough := true, recv := true } ∧
        (t.port q).ct = some { egress := [e.val], held := [], stomped := false } ∧ t.out = .txStart e b true :: s.out ∧ t.mem = s.mem ∧
        (∀ i, i < 6 → i ≠ e.val → i ≠ q.val → t.port i = s.port i))

/-- PAUSE, preemption, gates and shapers (R325, R328, R329, R332, R334, R336): a received PAUSE holds the port for its quanta, its expiry
releases it; a verify mPacket is answered, three verify time-outs end the verification, a response ends it well; a written gate list waits
for its tick, or acts at once while nothing runs; an entry begins at its time, and none at or after TP. -/
def Obligations.PauseGatesAndPreemption : Prop :=
  ∀ (w : Who) (p : Fin 6) (quanta : BitVec 16) (c : Fin 2) (v : W32) (s : State), s.Inv →
    let takes := s.on (Reg.PORT_PCFG_RXEN p) = true ∧ s.portUp p = true ∧ s.portFdx p = true
    (takes → ∃ t, exec (.pause p quanta) s = .next t ∧ t.get (Reg.PORT_PSTAT_REMAIN p) = quanta.toNat ∧
      t.get (Reg.PORT_PSTAT_PAUSED p) = (if quanta = 0 then 0 else 1) ∧
      (t.port p).pauseEnd = (if quanta = 0 then none else some (s.now + quanta.toNat * 512000 / s.rate p))) ∧
    (¬takes → exec (.pause p quanta) s = .next s) ∧
    (∀ x, (s.port p).pauseEnd = some x →
      (x ≤ s.now → ∃ t, exec (.pauseExpiry p) s = .next t ∧ t.get (Reg.PORT_PSTAT_PAUSED p) = 0 ∧ (t.port p).pauseEnd = none) ∧
      (s.now < x → exec (.pauseExpiry p) s = .next s)) ∧
    ((s.port p).pauseEnd = none → exec (.pauseExpiry p) s = .next s) ∧
    ((s.port p).xoff = true → s.get (Reg.PORT_PTHR_XON p) * 1024 ≤ s.occupancy p →
      s.on (Reg.PORT_PCFG_TXEN p) = true → s.portUp p = true → s.portFdx p = true →
      (s.port p).pauseSent + s.get (Reg.PORT_PCFG_QUANTA p) * 256000 / s.rate p ≤ s.now →
      exec (.pauseRefresh p) s = .next (s.queuePause p (s.get (Reg.PORT_PCFG_QUANTA p)))) ∧
    ((s.port p).xoff = false ∨ s.now < (s.port p).pauseSent + s.get (Reg.PORT_PCFG_QUANTA p) * 256000 / s.rate p →
      exec (.pauseRefresh p) s = .next s) ∧
    (s.get (Reg.PORT_PRE_VSTAT p) = 1 → ∃ t, exec (.preemptVerifyTimeout p) s = .next t ∧ (t.port p).vtries = (s.port p).vtries + 1 ∧
      t.get (Reg.PORT_PRE_VSTAT p) = (if 2 ≤ (s.port p).vtries then 3 else 1) ∧
      t.out = (if 2 ≤ (s.port p).vtries then s.out else .verify p false :: s.out) ∧ t = { s with regs := t.regs, ports := t.ports, out := t.out }) ∧
    (s.get (Reg.PORT_PRE_VSTAT p) ≠ 1 → exec (.preemptVerifyTimeout p) s = .next s ∧ exec (.preemptVerifyResponse p true) s = .next s) ∧
    (s.get (Reg.PORT_PRE_VSTAT p) = 1 → exec (.preemptVerifyResponse p true) s = .next (((s.set (Reg.PORT_PRE_VSTAT p) 2).preUpdate p).select p)) ∧
    (let answers := s.on (Reg.PORT_PRE_EN p) = true ∧ s.portUp p = true ∧ s.portFdx p = true
     (answers → exec (.preemptVerifyResponse p false) s = .next (s.send (.verify p true))) ∧
     (¬answers → exec (.preemptVerifyResponse p false) s = .next s)) ∧
    (s.ownRefused w (Reg.PORT_GCTL p) = false →
      let u := ((s.credits p).set (Reg.PORT_GCTL_EN p) (fieldGet v 0 1)).set (Reg.PORT_GCTL_NENT p) (fieldGet v 8 5)
      (fieldGet v 1 1 = 0 → exec (.gateListCommit w p v) s = .next (u.select p)) ∧
      (fieldGet v 1 1 = 1 → u.running = false → exec (.gateListCommit w p v) s = .next ((u.swapGates p).select p)) ∧
      (fieldGet v 1 1 = 1 → u.running = true → exec (.gateListCommit w p v) s =
        .next (((u.set (Reg.PORT_GCTL_PEND p) 1).modPort p (fun x => { x with commitAt := x.commitAt.or (some u.now) })).select p))) ∧
    (let n := (((s.port p).gates.take ((s.port p).gateIdx + 1)).map (fun g => g.2 * 10)).sum
     let due := s.running = true ∧ (s.port p).gateIdx + 1 < (s.port p).gates.length ∧ n < s.tp ∧
       (s.word64 Reg.HRT_TSTART_LO Reg.HRT_TSTART_HI).toNat + n ≤ s.now
     (due → exec (.gateEntryStart p) s = .next (((s.credits p).modPort p (fun x => { x with gateIdx := x.gateIdx + 1 })).select p)) ∧
     (¬due → exec (.gateEntryStart p) s = .next s)) ∧
    ((s.credits p).shaped p (c.val + 1) = true → ((s.credits p).port p).credit (c.val + 1) < 0 →
      ((s.credits p).port p).q.any (fun f => f.cls == c.val + 1) = true →
      exec (.shaperCreditZero p c) s = .next (((s.credits p).modPort p (fun x => x.setCredit (c.val + 1) 0)).select p))

/-- CAN FD and the video reassembler (R344, R350, R351): a received frame waits for Gather with its times, an error or lost arbitration
puts the frame on the wire back at the head, bus-off empties the controller and records; a packet reaches its stream. -/
def Obligations.CanAndVideo : Prop :=
  (∀ (w : Who) (c : Fin 2) (b : List Byte) (toHost : Bool) (tec rec : BitVec 8) (s : State), s.Inv →
    (8 ≤ b.length → b.length ≤ 72 →
      (s.on (Reg.PORT_CAN_CFG_EN c) = true → s.get (Reg.PORT_CAN_STAT_STATE c) ≠ 2 →
        (byteAt b 4 / 16 % 2 = 1 → s.on (Reg.PORT_CAN_CFG_FDEN c) = true) → ∃ u : State, exec (.canFrameReceived c ⟨b, toHost⟩ tec rec) s =
        .next (u.registerAll (12 + c.val)) ∧
        (u.can c).rx = (s.can c).rx ++ [{ bytes := b, cls := 0, t := s.now, sof := s.now, handed := none, fwd := [], own := true, toHost := toHost, time := BitVec.ofNat 32 s.now }] ∧
        u.get (Reg.PORT_CAN_STAT_TEC c) = tec.toNat ∧ u.get (Reg.PORT_CAN_STAT_REC c) = rec.toNat ∧
        u.get (Reg.PORT_CAN_STAT_STATE c) = (if 128 ≤ tec.toNat ∨ 128 ≤ rec.toNat then 1 else 0)) ∧
      (s.on (Reg.PORT_CAN_CFG_EN c) = false ∨ s.get (Reg.PORT_CAN_STAT_STATE c) = 2 ∨
        (byteAt b 4 / 16 % 2 = 1 ∧ s.on (Reg.PORT_CAN_CFG_FDEN c) = false) → exec (.canFrameReceived c ⟨b, toHost⟩ tec rec) s = .next s)) ∧
    (b.length < 8 ∨ 72 < b.length → exec (.canFrameReceived c ⟨b, toHost⟩ tec rec) s = .fault .illFormed) ∧
    exec (.canBusError c tec rec) s = .next ((s.canErrs c tec.toNat rec.toNat).canRetry c) ∧
    (∀ f, (s.can c).wire = some f →
      exec (.canArbitrationLost c) s = .next ((s.modCan c (fun x => { x with wire := none, q := f :: x.q })).canSelect c) ∧
      exec (.canFrameTransmitted c tec rec) s = .next ((((s.canErrs c tec.toNat rec.toNat).modCan c (fun x => { x with wire := none })).endCan f statusDone
        f.bytes.length none (some (BitVec.ofNat 32 f.start))).canSelect c)) ∧
    ((s.can c).wire = none → exec (.canArbitrationLost c) s = .next s ∧ exec (.canFrameTransmitted c tec rec) s = .next s) ∧
    (s.get (Reg.PORT_CAN_STAT_STATE c) = 2 → exec (.canBusoff c) s = .next s ∧
      (s.ownRefused w (Reg.PORT_CAN_CFG c) = false → ∃ t, exec (.canRecover w c) s = .next t ∧ (t.can c).recovering = true ∧ t.regs = s.regs)) ∧
    (s.get (Reg.PORT_CAN_STAT_STATE c) ≠ 2 → (s.can c).wire = none → (s.can c).q = [] → ∃ t, exec (.canBusoff c) s = .next t ∧
      t.get (Reg.PORT_CAN_STAT_STATE c) = 2 ∧ t.get (Reg.PORT_CAN_STAT_BOFF c) = 1 ∧ (t.ledger.head?.map (fun x => (x.code, x.unit))) =
        some (0x0604, BitVec.ofNat 8 (6 + c.val)) ∧ (t.can c).recovering = s.on (Reg.PORT_CAN_CFG_AUTOREC c)) ∧
    ((s.can c).recovering = true → ∃ u : State, exec (.canBusoffRecovery c) s = .next (u.canSelect c) ∧ u.get (Reg.PORT_CAN_STAT_STATE c) = 0 ∧
      u.get (Reg.PORT_CAN_STAT_TEC c) = 0 ∧ u.get (Reg.PORT_CAN_STAT_REC c) = 0 ∧ (u.can c).recovering = false) ∧
    ((s.can c).recovering = false → exec (.canBusoffRecovery c) s = .next s)) ∧
  (∀ (u : Fin 2) (dport : BitVec 16) (pt : BitVec 7) (ssrc ts : W32) (seq : BitVec 16) (mark : Bool) (len : BitVec 11) (payload : List Byte) (s : State),
    let drain := max s.vidDrain s.now
    let full := 4 * 65536 < drain - s.now + 4 * len.toNat
    (s.streamOf u dport.toNat pt.toNat ssrc.toNat = none → exec (.videoPacket u dport pt ssrc ts seq mark len payload) s = .next s) ∧
    (∀ n, s.streamOf u dport.toNat pt.toNat ssrc.toNat = some n →
      (full → exec (.videoPacket u dport pt ssrc ts seq mark len payload) s = .next (s.count Reg.PORT_VIDOVF_COUNT 1)) ∧
      (¬full → exec (.videoPacket u dport pt ssrc ts seq mark len payload) s =
        .next (({ s with vidDrain := drain + 4 * len.toNat } : State).takePacket n ssrc ts seq.toNat mark payload
          ((s.port (4 + u.val)).sof - (s.latencies (4 + u.val)).1)))))

/-! ## The Chain (12, 13) -/

/-- Links, election and configuration (R386, R387, R393, R396, R401, R403, R415): a trained link says HELLO, a HELLO brings it up, its
loss is counted; the settled candidate that is this device manages with ID 0; routes, commits and acknowledges act here, and those for
another device do nothing here. IDs (R399, R400): own ID 0 comes first; every ID assigned is below 32 and no two devices share one, if those
already held are so, and these stay assigned. -/
def Obligations.ChainFormsWithDistinctIds : Prop :=
  (∀ (own : BitVec 64) (held : List (BitVec 64 × Nat)) (near : List Topo) (far : List (BitVec 64)),
    (held.map (fun x => x.2)).Nodup → (∀ x ∈ held, x.1 ≠ own → 0 < x.2 ∧ x.2 < 32) →
    let ids := (assignIds own held near far).1
    ids.head? = some (own, 0) ∧ (ids.map (fun x => x.2)).Nodup ∧ (∀ x ∈ ids, x.2 < 32) ∧ ∀ x ∈ held, x.1 ≠ own → x ∈ ids) ∧
  (∀ (l : Fin 4) (tree : Bool) (b : List Byte) (topo : Topo) (uid : BitVec 64) (id : BitVec 8) (rt : List (BitVec 8)) (op : BitVec 4) (s : State), s.Inv →
    let up := s.linkState l = 3
    let trains := s.linkState l = 1 ∨ s.linkLeaves l = true
    (trains → let u := s.setLink l 2
      exec (.chainLinkTrained l) s = .next ((u.enqueueQ l (ownCell false none (cellOf 2 0 0 0 u.chnId 64 0 (.bytes (u.helloBytes l))))).pump l) ∧
      u.linkState l = 2 ∧ u.get (Reg.CHN_L_STAT_LCHG l) = 1) ∧
    (trains → ∃ t, exec (.chainTrainTimeout l) s = .next t ∧ t.linkState l = 0 ∧ (t.linkD l).retry = true) ∧
    (¬trains → exec (.chainLinkTrained l) s = .next s ∧ exec (.chainTrainTimeout l) s = .next s) ∧
    (∃ t, exec (.chainTrainRetry l) s = .next t ∧ (t.linkD l).retry = false ∧
      (s.linkState l = 0 → s.on Reg.CHN_CFG_EN = true → s.on (Reg.CHN_L_CFG_EN l) = true → t.linkState l = 1)) ∧
    (up ∨ s.linkState l = 2 → exec (.helloSend l) s = .next (s.sendHello l)) ∧
    (b.length = 64 → s.linkState l = 2 → byteAt b 20 < 32 → ∃ u : State,
      exec (.hello l b) s = .next (((if u.chnState = 1 then u.chnSet 2 else u).recand).topoChanged.flow l) ∧
      u.linkState l = 3 ∧ (u.linkD l).uid = BitVec.ofNat 64 (leAt b 0 8) ∧ (u.linkD l).hello = b ∧ u.get (Reg.CHN_L_STAT_PEERV l) = 1 ∧
      u.get (Reg.CHN_L_STAT_PEERID l) = byteAt b 20 ∧ u.get (Reg.CHN_L_PEERUID_UID l) = leAt b 0 4) ∧
    (b.length = 64 → up → (s.linkD l).uid ≠ BitVec.ofNat 64 (leAt b 0 8) → exec (.hello l b) s = .next (s.linkLoss l)) ∧
    (b.length = 64 → s.linkState l ≠ 3 → s.linkState l ≠ 2 → exec (.hello l b) s = .next s) ∧
    (up → exec (.helloTimeout l) s = .next ((s.count (Reg.CHN_L_ERR_LOCK l) 1).linkLoss l) ∧
      exec (.chainLinkDown l) s = .next ((s.count (Reg.CHN_L_ERR_LOCK l) 1).linkLoss l)) ∧
    (¬up → exec (.helloTimeout l) s = .next s ∧ exec (.chainLinkDown l) s = .next s ∧ exec (.topo ⟨l, tree⟩ topo) s = .next s ∧
      exec (.commit l uid) s = .next s ∧ exec (.ack l op uid) s = .next s) ∧
    (∀ c, s.chain.cand = some c → s.chain.settled = false → s.on Reg.CHN_CFG_EN = true →
      (c.2.1 = s.uid → ∃ t, exec .candidateSettled s = .next t ∧ t.isMgr = true ∧ t.get Reg.CHN_STAT_ID = 0 ∧ t.get Reg.CHN_STAT_IDV = 1 ∧
        t.chnState = 3 ∧ t.word64 Reg.CHN_MGRUID_LO Reg.CHN_MGRUID_HI = c.2.1 ∧ t.chain.settled = true) ∧
      (c.2.1 ≠ s.uid → ∃ u : State, exec .candidateSettled s = .next (u.treeUp 0 1 (.topo u.ownTopo)) ∧ u.chnState = 3 ∧ u.isMgr = s.isMgr)) ∧
    (s.chain.cand = none → exec .candidateSettled s = .next s) ∧
    (up → topo.uid ≠ s.uid → s.isMgr = false → tree = true → exec (.topo ⟨l, tree⟩ topo) s =
      .next { s with chain := { s.chain with topos := (topo, l.val) :: s.chain.topos.filter (fun x => x.1.uid != topo.uid) } }) ∧
    (up → topo.uid ≠ s.uid → s.isMgr = false → tree = false → exec (.topo ⟨l, tree⟩ topo) s = .next s) ∧
    (up → topo.uid ≠ s.uid → s.isMgr = true → tree = true → s.chain.ids.find? (fun x => x.1 == topo.uid) = none →
      exec (.topo ⟨l, tree⟩ topo) s = .next (((s.noteTopo l topo).unconfigured topo.uid).treeDown topo.uid 1 5 (.ack 1 topo.uid))) ∧
    (s.isMgr = false ∨ s.chain.settled = false ∨ s.toposComplete = false → exec .idAssignment s = .next s) ∧
    (s.isMgr = true → s.chain.settled = true → s.toposComplete = true → ∃ u : State, exec .idAssignment s = .next u.sendRoutes.commitIfReady ∧
      ∃ far, u.chain.ids = (assignIds s.uid s.chain.ids s.near far).1) ∧
    (up → uid ≠ s.uid → rt.length = 32 → exec (.route l uid id rt) s = .next s ∧ exec (.commit l uid) s = .next s) ∧
    (up → id ≠ 0xFF → rt.length = 32 → ∃ u : State, exec (.route l s.uid id rt) s = .next (u.toMgr 1 5 (.ack 2 u.uid)) ∧
      u.get Reg.CHN_STAT_ID = id.toNat % 32 ∧ u.get Reg.CHN_STAT_IDV = 1 ∧ u.chain.route = some (rt.map BitVec.toNat)) ∧
    (up → ∃ t, exec (.route l s.uid 0xFF rt) s = .next t ∧ t.chnState = 6 ∧ t.get Reg.CHN_STAT_IDV = 0 ∧ t.chain.route = none) ∧
    (∀ t, up → s.chain.route = some t ∨ (s.chain.route = none ∧ (s.chnState = 4 ∨ s.chnState = 5) ∧ t = (List.range 32).map s.rt) →
      exec (.commit l s.uid) s = .next ((s.switchRoutes t).toMgr 1 5 (.ack 3 (s.switchRoutes t).uid))) ∧
    (up → s.chain.route = none → s.chnState ≠ 4 → s.chnState ≠ 5 → exec (.commit l s.uid) s = .next (s.toMgr 1 5 (.ack 3 s.uid))) ∧
    (up → s.isMgr = false → exec (.ack l op uid) s = .next s) ∧
    (up → s.isMgr = true → exec (.ack l 2 uid) s =
      .next ({ s with chain := { s.chain with routeWait := s.chain.routeWait.filter (fun u => u != uid) } } : State).commitIfReady) ∧
    (∀ d, up → s.isMgr = true → s.chain.ids.find? (fun x => x.1 == uid) = some (uid, d) → exec (.ack l 4 uid) s =
      .next ({ s with chain := { s.chain with drainWait := s.chain.drainWait.filter (fun x => x != d) } } : State).commitIfReady) ∧
    (s.isMgr = false → s.chnState = 4 ∨ s.chnState = 5 →
      exec .drainq s = .next (s.modChain (fun c => { c with draining := true, drained := false })).drainAnswer) ∧
    (s.isMgr = true → exec .drainq s = .next s) ∧
    (s.isMgr = true → s.chain.newRoutes ≠ none → s.chain.drainWait ≠ [] → exec .drainqTimeout s = .next s.managerCommit) ∧
    (s.isMgr = false → exec .drainqTimeout s = .next s))

/-- Cells and remote accesses (R405, R407, R408, R410, R414): a cell on a link that is lost is counted; a cell past its hops or without a route is dropped, another goes on with one hop
more; a remote access is answered with its status; a response ends the wait of its engine; a SEV cell registers on the engines of its
personality. -/
def Obligations.ChainCells : Prop :=
  ∀ (l : Fin 4) (c : Cell) (vc : Fin 2) (h : Fin 8) (src : Fin 32) (tag : BitVec 8) (b : List Byte) (e : Fin 16) (pre : Bool) (mask : BitVec 16)
    (line : Fin 4) (pid : BitVec 8) (s : State),
    let free := fun (t : State) => if c.kind = 1 ∨ (c.kind = 2 ∧ c.op ≠ 0 ∧ c.op ≠ 8) then t.freeSlot l c.vc c.hops else t
    let goes := s.linkState l = 3 ∧ cellOpOk c = true ∧ s.cellPasses c = true ∧ c.tree = false
    let stomped := s.count Reg.CHN_DROP_STOMP 1
    let next : Cell := { c with hops := c.hops + 1 }
    (s.linkState l ≠ 3 → c.kind = 2 → c.op = 0 → exec (.cellForward l c 0) s = .next s) ∧
    (s.linkState l ≠ 3 → ¬(c.kind = 2 ∧ c.op = 0) → exec (.cellForward l c 0) s = .next (s.lost [{ src := 4, strike := false, cell := c, stomp := false }])) ∧
    (s.linkState l = 3 → cellOpOk c = false → exec (.cellForward l c 0) s = .next (free (s.count Reg.CHN_DROP_HDR 1))) ∧
    (s.linkState l = 3 → cellOpOk c = true → s.cellPasses c = false → exec (.cellForward l c 0) s =
      .next (free (if isSev c = true ∧ ¬(s.on Reg.CHN_STAT_IDV = true ∧ c.dst = s.chnId) then s.count Reg.CHN_DROP_EV 1 else s))) ∧
    (goes → 8 ≤ c.hops → exec (.cellForward l c 0) s = .next (free (s.dropCell c Reg.CHN_DROP_TTL true))) ∧
    (goes → c.hops < 8 → s.rtValid c.dst = false → exec (.cellForward l c 0) s = .next (free (s.dropCell c Reg.CHN_DROP_NOROUTE true))) ∧
    (goes → c.hops < 8 → s.rtValid c.dst = true →
      exec (.cellForward l c 0) s = .next (s.enqueueQ (s.rtLink c.dst) { src := l, strike := false, cell := next, stomp := false }) ∧
      exec (.cellForward l c 2) s = .next (stomped.enqueueQ (s.rtLink c.dst) { src := l, strike := false, cell := next, stomp := true })) ∧
    (∀ k, s.linkState l = 3 → cellOpOk c = true → s.cellPasses c = true → c.tree = true → c.kind = 2 → c.hops < 8 → s.treeLink c = some k → (∀ t, c.body ≠ .topo t) →
      exec (.cellForward l c 0) s = .next (s.enqueueQ k { src := l, strike := false, cell := next, stomp := false })) ∧
    (∀ x : QCell, x.src < 4 → s.linkState x.src = 3 → credited x.cell = true → s.freed x = s.send (.credit x.src (x.cell.vc % 2) (min (x.cell.hops - 1) 7))) ∧
    (exec (.creditReturn l vc h) s = .next ((s.modLink l (fun x => { x with
      credits := x.credits.modify (vc.val * 8 + h.val) (fun n => min 2 (n + 1)) })).flow l)) ∧
    (b.length = 64 → s.etOpen = true →
      (let r := s.remoteAccess (byteAt b 5) (leAt b 0 4) (remoteSize (byteAt b 4)) none
       exec (.etRd src tag b) s = .next (r.2.2.sendEt 1 0 src tag.toNat ([BitVec.ofNat 8 r.1, 0, 0, 0, 0, 0, 0, 0] ++ r.2.1))) ∧
      (let r := s.remoteAccess (byteAt b 5) (leAt b 0 4) (remoteSize (byteAt b 4)) (some ((b.drop 8).take (remoteSize (byteAt b 4))))
       exec (.etWr src tag b) s = .next (r.2.2.sendEt 1 1 src tag.toNat [BitVec.ofNat 8 r.1]))) ∧
    (b.length = 64 → s.etOpen = false → exec (.etRd src tag b) s = .next s ∧ exec (.etWr src tag b) s = .next s) ∧
    (b.length = 64 → s.chain.tags.find? (fun x => x.1 == tag.toNat) = none → exec (.rdr tag b) s = .next s ∧ exec (.wra tag b) s = .next s ∧
      exec (.chainTimeout tag) s = .next s) ∧
    (∀ r op, b.length = 64 → s.chain.tags.find? (fun x => x.1 == tag.toNat) = some (tag.toNat, e) →
      let u := s.dropTag tag.toNat
      u.waiter e (isRemote tag.toNat) = some (pre, r) → r.stall = .remote op tag.toNat →
      exec (.rdr tag b) s = .next (u.memAnswer e pre op (if byteAt b 0 = 0 then .val ((b.drop 8).take 16) else .bus)) ∧
      exec (.wra tag b) s = .next (u.memAnswer e pre op (if byteAt b 0 = 0 then .val [] else .bus))) ∧
    (∀ x, s.chain.tags.find? (fun y => y.1 == tag.toNat) = some x → ∃ (u : State) (d : Nat),
      exec (.chainTimeout tag) s = .next (((u.count Reg.CHN_RTOCNT_COUNT 1).record 0x0804 0xFF d).endRemote tag.toNat .bus) ∧ u = { s with freeCtr := u.freeCtr }) ∧
    (∀ r op, s.memRun e pre = some r → r.stall = .hostRead op false →
      let u := s.landed (.xlat e) false
      exec (.translatedReadComplete e pre true b) s = .next (u.memAnswer e pre op (.val b)) ∧
      exec (.translatedReadComplete e pre false b) s = .next ((u.recordAccess 0x0006 e (u.memAddr e pre op) false).memAnswer e pre op .bus)) ∧
    (let hit := (List.range 16).filter (fun n => mask.getLsbD n && decide (s.engOwner n < 3) && s.get (Reg.PRS_ID_PID (s.engOwner n)) == pid.toNat)
     (s.etOpen = false ∨ hit = [] → exec (.sevCell mask line pid) s = .next (s.count Reg.CHN_DROP_EV 1)) ∧
     (s.etOpen = true → hit ≠ [] → exec (.sevCell mask line pid) s = .next (hit.foldl (fun t n => t.register n (bit64 (34 + line.val))) s)))

/-- Slots, SYNC cells and link delay (R430, R431, R434 to R436, R439): the source reads its line and sends its cell when every condition
holds, the destination stores it; a SYNC goes on once with its residence and gives the slot's deviation; the delay is half the round
trip. -/
def Obligations.ChainSlotsAndSync : Prop :=
  ∀ (l : Fin 4) (i : Fin 512) (j : Fin 8) (b : List Byte) (way : SyncHop) (t1 t2 t3 : BitVec 92) (s : State),
    (s.activeSlots[i.val]? = none → exec (.ttSlineRead i) s = .next s ∧ exec (.ttSlot i) s = .next s) ∧
    (b.length = 64 → s.ttAt i.val = none → exec (.ttCell l i b) s = .next s) ∧
    (∀ t, s.activeSlots[i.val]? = some t → s.hearth.nominal + t.offset ≤ s.now ∨ s.chain.prevTick = none →
      s.ttAt i.val = some (t, s.hearth.nominal + t.offset)) ∧
    (∀ t d u, s.activeSlots[i.val]? = some t → t.src = s.chnId → s.on Reg.CHN_STAT_IDV = true → s.hoardRead 25 (t.sline * 64) 64 = (.ok d, u) →
      exec (.ttSlineRead i) s = .next (u.modChain (fun c => { c with ttData := (i.val, d.take t.plen) :: c.ttData.filter (fun x => x.1 != i.val) }))) ∧
    (∀ t d, s.activeSlots[i.val]? = some t → s.chain.ttData.find? (fun x => x.1 == i.val) = some (i.val, d) →
      let u := s.modChain (fun c => { c with ttData := c.ttData.filter (fun x => x.1 != i.val) })
      let ok := t.src = s.chnId ∧ s.pidOwns t.pid (t.sline * 64) = true ∧ (s.integ = true ∨ s.chain.ttTail = true) ∧ s.etOpen = true ∧ s.rtValid t.dst = true
      (ok → exec (.ttSlot i) s = .next (u.enqueueQ (u.rtLink t.dst) (ownCell t.strike none (cellOf 0 0 0 t.dst u.chnId t.plen 0 (.bytes (pad64 d)))))) ∧
      (¬ok → exec (.ttSlot i) s = .next u)) ∧
    (∀ t start, b.length = 64 → s.ttAt i.val = some (t, start) → t.dst = s.chnId → s.etOpen = true → t.deng = 0xFF → t.strike = false →
      (s.pidReaches t.pid (t.dline * 64) = true → exec (.ttCell l i b) s = .next (s.hoardWrite 25 (t.dline * 64) (b.take t.plen)).2) ∧
      (s.pidReaches t.pid (t.dline * 64) = false → exec (.ttCell l i b) s = .next (s.count Reg.CHN_TTSTAT_DROP 1))) ∧
    (∀ w, s.fixs j = some w → s.chnState = 4 ∨ (j = 0 ∧ s.chnState = 5) → s.running = true → (if j = 0 then s.isMgr = true else fieldGet w 23 5 = s.chnId ∧ s.integ = true) →
      exec (.syncSlot j) s = .next (s.each 4 (fun k t => if t.linkState k = 3 then
        t.send (.cell k (cellOf 2 0 8 0 t.chnId 64 0 (.bytes (s.syncBytes j))) false) else t))) ∧
    (s.fixs j = none → exec (.syncSlot j) s = .next s) ∧
    (b.length = 64 → s.linkState l = 3 → s.chain.seen.contains (byteAt b 52, leAt b 8 8) = true → exec (.sync l way b) s = .next s) ∧
    (∀ w, s.Inv → b.length = 64 → s.linkState l = 3 → byteAt b 52 = j.val → s.chain.seen.contains (j.val, leAt b 8 8) = false → s.fixs j = some w →
      s.chnState = 4 ∨ s.chnState = 5 → s.ownSync j w = false →
      let n := leAt b 8 8
      let corr := (BitVec.ofNat 64 (leAt b 32 8)).toInt
      let base : Int := if s.running = true then s.hearth.nominal + ((n : Int) - s.tick) * s.tp else (leAt b 0 8 : Nat)
      let d := ((s.tb.toNat : Int) - (base + fieldGet w 0 23 * 10) * 2 ^ 28 - corr * 2 ^ 12 - s.get (Reg.CHN_L_DLY_DLY l) * 2 ^ 24) / 2 ^ 24
      ∃ u : State, exec (.sync l way b) s = .next (if j = 0 then u.slot0 b n (leAt b 0 8) d else u) ∧
        u.get (Reg.CHN_SDEV_DEV j) = (BitVec.ofInt 24 d).toNat ∧ u.get (Reg.CHN_SDEV_V j) = 1 ∧ (j.val, n) ∈ u.chain.seen) ∧
    (s.linkState l = 3 → exec (.delayMeasure l) s = .next (s.enqueueQ l (ownCell false none (cellOf 2 0 14 0 s.chnId 64 0 (.dly s.tb 0 0)))) ∧
      exec (.dlyreq l t1) s = .next (s.enqueueQ l (ownCell false none (cellOf 2 1 15 0 s.chnId 64 0 (.dly t1 s.tb s.tb))))) ∧
    (∀ c : Cell, c.body = .dly t1 t2 t3 → c.op = 14 → (s.stampDly l c).1 = { c with body := .dly s.tb 0 0 } ∧
      (s.stampDly l c).2 = s.modLink l (fun x => { x with dly := some s.tb.toNat })) ∧
    (∀ c : Cell, c.body = .dly t1 t2 t3 → c.op = 15 → s.stampDly l c = ({ c with body := .dly t1 t2 s.tb }, s)) ∧
    (s.linkState l ≠ 3 → exec (.delayMeasure l) s = .next s ∧ exec (.dlyreq l t1) s = .next s ∧ exec (.dlyrsp l t1 t2 t3) s = .next s) ∧
    (s.Inv → s.linkState l = 3 → (s.linkD l).dly = some t1.toNat → ∃ t, exec (.dlyrsp l t1 t2 t3) s = .next t ∧ (t.linkD l).dly = none ∧
      t.get (Reg.CHN_L_DLY_DLY l) = min 0xFFFF (((s.tb.toNat : Int) - t1.toNat - (t3.toNat - t2.toNat)) / 2 / 2 ^ 24).toNat)

/-- Modes and runs (R425, R450, R451, R453, R455, R458): GO opens a proposal, a device answers a proposal with the first reason against
it, votes are kept for the open proposal, a commit is held for the next tick start, an abort drops it; a RUN cell that disagrees
quarantines, another is held. -/
def Obligations.ModesAreVoted : Prop :=
  ∀ (w : Who) (v : W32) (m : Fin 8) (hash : BitVec 64) (pnum : BitVec 8) (src : Fin 32) (why : Fin 8) (cmd : Fin 3) (target : BitVec 64)
    (ver tp mask : W32) (s : State), s.Inv →
    (s.ownRefused w Reg.CHN_MCTL = false → fieldGet v 3 1 = 1 → s.isMgr = true → s.chain.proposal = none → ∃ t,
      exec (.modeGo w v) s = .next t ∧ t.get Reg.CHN_MSTAT_VOTING = 1 ∧ t.get Reg.CHN_MSTAT_PNUM = (s.get Reg.CHN_MSTAT_PNUM + 1) % 256 ∧
      t.chain.proposal = some { mode := fieldGet v 0 3, k := (if s.running = true ∧ s.phase = 0 then s.tick else s.tick + 1), sent := false, ready := [], no := none, req := none, abort := false }) ∧
    (s.ownRefused w Reg.CHN_MCTL = false → (fieldGet v 3 1 = 0 ∨ s.isMgr = false ∨ s.chain.proposal ≠ none) →
      exec (.modeGo w v) s = .next (s.set Reg.CHN_MCTL_MODE (fieldGet v 0 3))) ∧
    (s.isMgr = false → s.on Reg.CHN_STAT_IDV = true → exec (.propose m hash pnum) s =
      .next ((s.modChain (fun c => { c with voted := if s.voteReason m hash = 0 then some (s.tick + 2) else c.voted })).sendMgmt 1 10 0
        (.vote pnum.toNat (s.voteReason m hash)))) ∧
    (s.isMgr = true → exec (.propose m hash pnum) s = .next s ∧ exec (.mcommit m pnum) s = .next s ∧ exec (.mabort pnum) s = .next s ∧
      exec (.run cmd target hash ver tp mask) s = .next s) ∧
    (s.voteReason m hash = 0 → s.holdsMode m = true ∧ hash = s.modeHash m ∧ s.integ = true ∧ s.on Reg.CHN_SSTAT_QUAR = false ∧
      s.on Reg.PWR_QSTAT_ACTIVE = false) ∧
    (∀ p, s.chain.proposal = some p → s.isMgr = true → p.sent = true → s.get Reg.CHN_MSTAT_PNUM = pnum.toNat →
      (∃ t, exec (.vote src pnum 0) s = .next t ∧ t.chain.proposal = some { p with ready := src.val :: p.ready.filter (fun i => i != src.val) } ∧ t.regs = s.regs) ∧
      (why ≠ 0 → p.no = none → ∃ t, exec (.vote src pnum why) s = .next t ∧ t.chain.proposal = some { p with no := some (src.val, why.val) } ∧ t.regs = s.regs)) ∧
    (s.chain.proposal = none → exec (.vote src pnum why) s = .next s) ∧
    (s.isMgr = false → s.on Reg.CHN_STAT_IDV = true → s.on Reg.PWR_QSTAT_ACTIVE = false → s.phase < 3 → ∃ t, exec (.mcommit m pnum) s = .next t ∧
      t.get Reg.CHN_MSTAT_PEND = m.val ∧ t.get Reg.CHN_MSTAT_PV = 1 ∧ t.get Reg.CHN_MSTAT_PNUM = pnum.toNat ∧ t.chain.commit = some (m.val, s.tick + 1)) ∧
    (s.isMgr = false → ∃ t, exec (.mabort pnum) s = .next t ∧ t.get Reg.CHN_MSTAT_PV = 0 ∧ t.chain.commit = none) ∧
    (s.isMgr = false → s.on Reg.CHN_STAT_IDV = true → hash ≠ s.cfgHash ∨ ver.toNat ≠ s.get Reg.CHN_VER_VER →
      exec (.run cmd target hash ver tp mask) s = .next (s.mgrTpCheck tp.toNat).quarantine) ∧
    (s.isMgr = false → s.on Reg.CHN_STAT_IDV = true → hash = s.cfgHash → ver.toNat = s.get Reg.CHN_VER_VER → cmd ≠ 2 → ∃ t,
      exec (.run cmd target hash ver tp mask) s = .next t ∧ t.chain.run = s.chain.run ++ [{ cmd := cmd.val + 1, target := target.toNat }]) ∧
    (s.ownRefused w Reg.CHN_RUNCTL = false → s.isMgr = true → s.chnState = 4 →
      exec (.chainStart w) s = .next (s.sendRun 1 0) ∧ exec (.chainStop w) s = .next (s.sendRun 2 0)) ∧
    (s.ownRefused w Reg.CHN_RUNCTL = false → s.isMgr = false → exec (.chainStart w) s = .next s ∧ exec (.chainStop w) s = .next s)

/-! ## Swage, load switches, Tongs and timers (14 to 16) -/

/-- Swage loops (R463, R465, R467, R472, R475, R476, R477, R481, R486): the law holds its state inside the band and leaves it beyond;
samples and outputs run while ticks run; an enable is checked; AUTO switches by transfer or by manual hold; a new target waits for the
next sample; a band write sets EH. -/
def Obligations.SwageLoops : Prop :=
  (∀ (st : Nat) (e h d : Int), 0 ≤ h → h ≤ d → st ≤ 2 →
    (lawWant false st e h d = 2 ↔ h < e ∨ (st = 2 ∧ -h ≤ e)) ∧ (lawWant false st e h d = 0 ↔ e < -h ∨ (st = 0 ∧ e ≤ h)) ∧
    (lawWant true st e h d = 2 ↔ d + h < e ∨ (st = 2 ∧ d - h ≤ e)) ∧ (lawWant true st e h d = 0 ↔ e < -(d + h) ∨ (st = 0 ∧ e ≤ -(d - h)))) ∧
  (∀ (w : Who) (l : Fin 16) (b : Bool) (v : W32) (s : State), s.Inv →
    (let n := s.swgNsamp l
     let j := (s.loop l).next
     let due := s.running = true ∧ s.tongsClock = true ∧ s.swgOn l = true ∧ (s.loop l).stopped = false ∧ j < n ∧
       (s.hearth.nominal + j * s.tp / n + 4) / 5 * 5 ≤ s.now
     (due → exec (.swageSample l) s = .next (s.swgSample l)) ∧ (¬due → exec (.swageSample l) s = .next s)) ∧
    (let due := s.running = true ∧ s.tongsClock = true ∧ s.swgOn l = true ∧ s.swgNsamp l ≠ 0 ∧ (s.loop l).uPend ≠ none ∧ (s.loop l).applyAt ≤ s.now
     (due → exec (.swageOutputApply l) s = .next (s.swgApply l)) ∧ (¬due → exec (.swageOutputApply l) s = .next s)) ∧
    (s.swgOn l = true → exec (.swageEnable w l) s = .next s) ∧
    (s.swgOn l = false → (s.set (Reg.SWG_n_CTRL_EN l) 1).swgCheck l ≠ 0 → ∃ t, exec (.swageEnable w l) s = .next t ∧ t.swgOn l = false ∧
      t.get Reg.SWG_STAT_CFGERR = 1 ∧ t.get Reg.SWG_STAT_CFGCODE = (s.set (Reg.SWG_n_CTRL_EN l) 1).swgCheck l ∧ t = { s with regs := t.regs }) ∧
    (s.swgOn l = false → (s.set (Reg.SWG_n_CTRL_EN l) 1).swgCheck l = 0 → ∃ t, exec (.swageEnable w l) s = .next t ∧ t.swgOn l = true ∧
      t.get (Reg.SWG_n_STAT_EH l) = s.get (Reg.SWG_n_BAND_H l) ∧ t.get (Reg.SWG_n_STAT_PDONE l) = 1 ∧
      (t.loop l).p = s.fbVal l (s.fbRaw l) * 65536 ∧ (t.loop l).v = 0 ∧ (t.loop l).a = 0 ∧ (t.loop l).filt = none) ∧
    (s.on (Reg.SWG_n_CTRL_AUTO l) = b → exec (.swageAuto w l b) s = .next s) ∧
    (s.on (Reg.SWG_n_CTRL_AUTO l) = false → ∃ t, exec (.swageAuto w l true) s = .next t ∧ t.get (Reg.SWG_n_CTRL_AUTO l) = 1 ∧ (t.loop l).transfer = true) ∧
    (s.on (Reg.SWG_n_CTRL_AUTO l) = true → ∃ t, exec (.swageAuto w l false) s = .next t ∧ t.get (Reg.SWG_n_CTRL_AUTO l) = 0 ∧
      (t.loop l).manLoad = true ∧ (t.loop l).transfer = false) ∧
    (∃ t, exec (.swagePgo w l) s = .next t ∧ (t.loop l).pgo = true ∧ t = { s with loops := t.loops }) ∧
    (∃ t, exec (.swageBandWrite w l v) s = .next t ∧ t.get (Reg.SWG_n_STAT_EH l) = t.get (Reg.SWG_n_BAND_H l) ∧
      t = { s with regs := t.regs, ledger := t.ledger, loops := t.loops } ∧ ∀ m, m ≠ l.val → t.loop m = s.loop m))

/-- Load switches and analogue inputs (R500, R503, R504, R506, R507, R509, R512, R514, R516, R518): a protection event latches, counts,
reports and the switches follow; a clear returns the channel; a conversion gives its code, its full-scale flag and its window check. -/
def Obligations.LoadSwitchesAndInputs : Prop :=
  ∀ (w : Who) (c : Fin 12) (h : Fin 6) (a : Fin 8) (ma mv : BitVec 16) (cur : Vector (BitVec 16 × Bool) 12) (v : W32) (x : Int) (s : State), s.Inv →
    (500 + 250 * min 14 (s.get (Reg.LSW_CH_CFG_ILIM c)) < ma.toNat →
      exec (.lswOvercurrent c ma) s = .next ((((s.set (Reg.LSW_CH_STAT_OCL c) 1).count (Reg.LSW_CH_CNT_OC c) 1).record 0x0A01 c ma.toNat).refreshLsw)) ∧
    (ma.toNat ≤ 500 + 250 * min 14 (s.get (Reg.LSW_CH_CFG_ILIM c)) → exec (.lswOvercurrent c ma) s = .next s) ∧
    (let u := s.modChan c (fun y => { y with hot := true })
     exec (.lswOvertemp c ma) s = .next ((((u.set (Reg.LSW_CH_STAT_OTL c) 1).count (Reg.LSW_CH_CNT_OT c) 1).record 0x0A02 c ma.toNat).refreshLsw) ∧
     exec (.clearOtl w c true) s = .next u) ∧
    (let fires := ma.toNat < 5 * max 1 (min 40 (s.get (Reg.LSW_CH_CFG_IOL c))) ∧ s.on (Reg.LSW_CH_CFG_OLEN c) = true ∧ (s.chan c).now = .on ∧ s.on (Reg.LSW_CH_STAT_OPEN c) = false
     (fires → ∃ t, exec (.lswOpen c ma) s = .next t ∧ t.get (Reg.LSW_CH_STAT_OPEN c) = 1 ∧ (t.ledger.head?.map (fun y => y.code)) = some 0x0A03 ∧
       t = { s with regs := t.regs, ledger := t.ledger }) ∧ (¬fires → exec (.lswOpen c ma) s = .next s)) ∧
    (mv.toNat < 4200 → ∃ u : State, exec (.lswSupply false mv) s = .next u.refreshLsw ∧ u.lsw.supplyOff = true ∧ u.get Reg.LSW_GSTAT_UV = 1 ∧ u.get Reg.LSW_GSTAT_UVEV = 1) ∧
    (38000 < mv.toNat → ∃ u : State, exec (.lswSupply true mv) s = .next u.refreshLsw ∧ u.lsw.supplyOff = true ∧ u.get Reg.LSW_GSTAT_OV = 1 ∧ u.get Reg.LSW_GSTAT_OVEV = 1) ∧
    (4200 ≤ mv.toNat → exec (.lswSupply false mv) s = .next s) ∧ (mv.toNat ≤ 38000 → exec (.lswSupply true mv) s = .next s) ∧
    exec .supplyRecovery s = .next ((s.set Reg.LSW_GSTAT_UV 0).set Reg.LSW_GSTAT_OV 0).commitIdle ∧
    (s.on (Reg.LSW_CH_STAT_OCL c) = true → exec (.clearOcl w c) s =
      .next ((s.set (Reg.LSW_CH_STAT_OCL c) 0).modChan c (fun y => { y with relWait := true })).commitIdle) ∧
    (s.on (Reg.LSW_CH_STAT_OCL c) = false → exec (.clearOcl w c) s = .next s) ∧
    (let u := s.modChan c (fun y => { y with hot := false })
     (s.on (Reg.LSW_CH_STAT_OTL c) = false → exec (.clearOtl w c false) s = .next u) ∧
     (s.on (Reg.LSW_CH_STAT_OTL c) = true → exec (.clearOtl w c false) s =
      .next ((u.set (Reg.LSW_CH_STAT_OTL c) 0).modChan c (fun y => { y with relWait := true })).commitIdle)) ∧
    exec (.halfBridgePair w h v) s = .next (s.writeHb w h v) ∧
    (let dt := 10 * max 10 (min 200 (s.get (Reg.LSW_HB_CFG_DT h)))
     (s.hb h).dtOld = 0 ∨ (s.tongsClock = true ∧ (s.hb h).offAt ≤ s.now ∧ s.now < (s.hb h).offAt + dt) → exec (.deadTimeEnd h) s = .next s) ∧
    (let dt := 10 * max 10 (min 200 (s.get (Reg.LSW_HB_CFG_DT h)))
     (s.hb h).dtOld ≠ 0 → (s.hb h).offAt + dt ≤ s.now → exec (.deadTimeEnd h) s = .next ((s.set (Reg.LSW_HB_STAT_DTACT h) 0).modHb h (fun y => { y with dtOld := 0 })).refreshLsw) ∧
    (∀ d, (s.chan c).now = .pwm d →
      let p := s.get (Reg.LSW_CH_PWM_PERIOD (if s.on (Reg.LSW_HB_CFG_EN (c % 6)) then c % 6 else c))
      let cycles := max 8000 (min 2000000 p)
      let at_ := (s.chan c).pwmAt
      (at_ + 5 * cycles ≤ s.now → ∃ t, exec (.pwmPeriod c) s = .next t ∧ t.get (Reg.LSW_CH_STAT_ON c) = 1 ∧ t = { s with regs := t.regs, lsw := t.lsw } ∧
        (t.chan c).pwmAt ≤ s.now ∧ s.now < (t.chan c).pwmAt + 5 * cycles) ∧
      (at_ + 5 * (cycles * d / 1024) ≤ s.now → ∃ t, exec (.pwmOnPhaseEnd c) s = .next t ∧ t.get (Reg.LSW_CH_STAT_ON c) = 0 ∧
        t.get (Reg.LSW_CH_CUR_NOW c) = 0 ∧ t = { s with regs := t.regs }) ∧
      (s.tongsClock = true → at_ ≤ s.now → s.now < at_ + 5 * cycles → exec (.pwmPeriod c) s = .next s) ∧
      (s.tongsClock = true → at_ ≤ s.now → s.now < at_ + 5 * (cycles * d / 1024) → exec (.pwmOnPhaseEnd c) s = .next s)) ∧
    ((s.chan c).now.isPwm = false → exec (.pwmPeriod c) s = .next s ∧ exec (.pwmOnPhaseEnd c) s = .next s) ∧
    (∃ t, exec (.currentSenseUpdate mv cur) s = .next t ∧ t.get Reg.LSW_VSUP_MV = mv.toNat ∧
      t.get (Reg.LSW_CH_CUR_NOW c) = (if s.on (Reg.LSW_CH_STAT_ON c) = true then min (cur.getD c (0, false)).1.toNat 8000 else 0) ∧
      (t.chan c).hot = (cur.getD c (0, false)).2 ∧ t = { s with regs := t.regs, lsw := t.lsw }) ∧
    (∀ n, s.lsw.conv = none → s.nextAin = some n → ∃ t, exec .adcConversionStart s = .next t ∧ t.lsw.conv = some n ∧ t.lsw.seq = n + 1 ∧ t.regs = s.regs) ∧
    (s.lsw.conv ≠ none ∨ s.nextAin = none → exec .adcConversionStart s = .next s) ∧
    (s.lsw.conv = none → exec (.adcConversionDone x) s = .next s) ∧
    (s.lsw.conv = some a.val → s.on (Reg.LSW_AIN_STAT_SHUNT a) = false → ∃ u : State,
      exec (.adcConversionDone x) s = .next (u.ainWindow a (ainCode (s.on (Reg.LSW_AIN_CFG_MODE a)) x)) ∧
      u.get (Reg.LSW_AIN_DATA_CODE a) = ainCode (s.on (Reg.LSW_AIN_CFG_MODE a)) x ∧ u.lsw.conv = none ∧
      u.get (Reg.LSW_AIN_STAT_OVR a) = (if ainFull (s.on (Reg.LSW_AIN_CFG_MODE a)) x = true then 1 else s.get (Reg.LSW_AIN_STAT_OVR a))) ∧
    (s.on (Reg.LSW_AIN_CFG_MODE a) = true → s.on (Reg.LSW_AIN_STAT_SHUNT a) = false → ∃ t, exec (.ainOverload a) s = .next t ∧
      t.get (Reg.LSW_AIN_STAT_SHUNT a) = 1 ∧ t.get (Reg.LSW_AIN_STAT_SHUNTEV a) = 1 ∧ (t.ledger.head?.map (fun y => y.code)) = some 0x0A06) ∧
    (∃ t, exec (.shuntClose a) s = .next t ∧ t.get (Reg.LSW_AIN_STAT_SHUNT a) = 0 ∧ t = { s with regs := t.regs })

/-- Tongs programs (R530, R531, R533, R534, R536, R537): on a step edge of a running engine the word at PC is decoded and issued: each
instruction has its effect and goes on to the next, a WAIT, PULL, PUSH or DELAY that must wait stays; an illegal word stops the engine; the
FIFOs take and give words. A row for a step is that step when an edge has come and the word at PC is the row's instruction, else nothing (the
model's choice, log entry 18). A sample is the pin 2 TONGS cycles before the edge (R528). A pin is driven by the unit that FSEL names only while
that unit has the pin's owner (R527), and a driven pin has the driven level (log entry 84). -/
def Obligations.TongsPrograms : Prop :=
  (∀ (w : Who) (t n src : Fin 8) (dest : Fin 64) (k rs o : Fin 4) (block level : Bool) (mask : BitVec 8) (imm : BitVec 10) (cnt : BitVec 12) (pins v : W32)
    (s : State), s.Inv →
    let x := s.tng t
    let e := s.tngEdge t
    let u := s.modTng t (fun q => { q with m := q.m + 1 })
    let up := ({ s with pio := { s.pio with ext := pins } } : State).modTng t (fun q => { q with m := q.m + 1 })
    let lv := ({ s.pio with ext := pins } : Pio).sampled e
    let row := fun (i : Instr) (op : TongsOp) (y : State) =>
      (s.tngDue t = true → s.tngOp t = some op → exec i s = .next (y.pioDrive (e + 5))) ∧ (s.tngDue t = false ∨ s.tngOp t ≠ some op → exec i s = .next s)
    let dir := s.on (Reg.TNG_CFG_SHDIR t)
    let kk := fun (i : Nat) => x.k.getD i 0
    let put := fun (z : State) (i : Nat) (y : W32) => z.modTng t (fun q => { q with k := q.k.setIfInBounds i y })
    (x.t0 + 5 * (if s.get (Reg.TNG_DIV_INT t) = 0 then (x.m + 1) * 65536
      else (x.m + 1) * s.get (Reg.TNG_DIV_INT t) + (x.m + 1) * s.get (Reg.TNG_DIV_FRAC t) / 256) = e) ∧
    (s.tngDue t = true ↔ s.tongsClock = true ∧ s.tngRuns t = true ∧ e ≤ s.pio.t) ∧
    (s.tngOp t = decodeTongs (BitVec.ofNat 16 (let pc := s.get (Reg.TNG_STAT_PC t)
      if pc % 2 = 0 then s.get (Reg.TNG_PROG_I0 t (pc / 2)) else s.get (Reg.TNG_PROG_I1 t (pc / 2))))) ∧
    ((s.tngNext t).get (Reg.TNG_STAT_PC t) = (s.get (Reg.TNG_STAT_PC t) + 1) % 64 ∧ (s.tngNext t).get (Reg.TNG_STAT_WAIT t) = 0 ∧
      (s.tngAt t dest).get (Reg.TNG_STAT_PC t) = dest.val ∧ (s.tngWait t).get (Reg.TNG_STAT_PC t) = s.get (Reg.TNG_STAT_PC t)) ∧
    (s.pioDrive (e + 5) = { s with pio := (s.pioDrive (e + 5)).pio }) ∧
    (let len := if s.get (Reg.TNG_CFG_SHLEN t) = 0 then 32 else s.get (Reg.TNG_CFG_SHLEN t)
     let goes := n = 0 ∨ (n = 1 ∧ kk 0 ≠ 0) ∨ (n = 2 ∧ kk 1 ≠ 0) ∨ (n = 3 ∧ up.pinIn t src lv = true) ∨ (n = 4 ∧ up.pinIn t src lv = false) ∨
       (n = 5 ∧ x.tx ≠ []) ∨ (n = 6 ∧ x.shcnt = len) ∨ (n = 7 ∧ x.z = true)
     (goes → row (.tongsJmp t n src dest pins) (.jmp n src dest) ((if n = 1 then put up 0 (kk 0 - 1) else if n = 2 then put up 1 (kk 1 - 1) else up).tngAt t dest)) ∧
     (¬goes → row (.tongsJmp t n src dest pins) (.jmp n src dest) (up.tngNext t))) ∧
    row (.tongsWait t level n pins) (.wait level n) (if up.pinIn t n lv = level then up.tngNext t else up.tngWait t) ∧
    (let lvl := fun (z : State) (i : Nat) =>
       if o = 0 then some false else if o = 1 then some true else if o = 2 then none else some (!x.drvLvl.getLsbD (z.window t i))
     row (.tongsDrive t o mask) (.drive o mask) (((List.range 8).foldl (fun z i => if mask.getLsbD i then z.drivePin t i (lvl z i) else z) u).tngNext t)) ∧
    row (.tongsShin t n pins) (.shin n) ((up.modTng t (fun q => q.shiftIn dir (up.pinIn t n lv))).tngNext t) ∧
    row (.tongsShout t n) (.shout n)
      (((u.drivePin t n (some (x.sh.getLsbD (if dir = true then 0 else 31)))).modTng t (fun q => q.shiftIn dir false)).tngNext t) ∧
    (∀ y r, x.tx = y :: r → row (.tongsPull t block) (.pull block) ((u.modTng t (fun q => { q with sh := y, shcnt := 0, tx := r, last := y })).tngNext t)) ∧
    (x.tx = [] → row (.tongsPull t true) (.pull true) (u.tngWait t) ∧ row (.tongsPull t false) (.pull false)
      (((u.modTng t (fun q => { q with sh := q.last, shcnt := 0 })).set (Reg.TNG_STAT_STALE t) 1).tngNext t)) ∧
    (8 ≤ x.rx.length → row (.tongsPush t true) (.push true) (u.tngWait t) ∧ row (.tongsPush t false) (.push false)
      (((u.count (Reg.TNG_DROP_COUNT t) 1).modTng t (fun q => { q with sh := 0, shcnt := 0 })).tngNext t)) ∧
    (x.rx.length < 8 → row (.tongsPush t block) (.push block)
      (((u.modTng t (fun q => { q with rx := q.rx ++ [x.sh] })).modTng t (fun q => { q with sh := 0, shcnt := 0 })).tngNext t)) ∧
    row (.tongsLdi t k imm) (.ldi k imm) ((put u k (imm.setWidth 32)).tngNext t) ∧
    (let y : W32 := if src = 4 then x.sh else if src = 5 then BitVec.ofNat 32 (s.get (Reg.TNG_EVCNT_COUNT t))
       else if src = 6 then BitVec.ofNat 32 (up.windowIn t lv) else if src = 7 then BitVec.ofNat 32 x.shcnt else kk src
     (n.val < 4 → row (.tongsMov t n src pins) (.mov n src) ((put up n y).tngNext t)) ∧
     row (.tongsMov t 4 src pins) (.mov 4 src) ((up.modTng t (fun q => { q with sh := y })).tngNext t) ∧
     row (.tongsMov t 5 src pins) (.mov 5 src) ((up.set (Reg.TNG_EVCNT_COUNT t) y.toNat).tngNext t) ∧
     row (.tongsMov t 6 src pins) (.mov 6 src) (((List.range 8).foldl (fun z i => z.drivePin t i (some (y.getLsbD i))) up).tngNext t) ∧
     row (.tongsMov t 7 src pins) (.mov 7 src) (up.tngIllegal t)) ∧
    (let y := if o = 0 then kk k + kk rs else if o = 1 then kk k - kk rs else if o = 2 then kk k &&& kk rs else kk k ^^^ kk rs
     row (.tongsAlu t k rs o) (.alu k rs o) ((u.modTng t (fun q => { q with k := q.k.setIfInBounds k y, z := y == 0 })).tngNext t)) ∧
    (let c := s.get (Reg.TNG_EVCNT_COUNT t)
     row (.tongsCnt t o) (.cnt o) ((u.set (Reg.TNG_EVCNT_COUNT t) (if o = 0 then c + 1 else if o = 1 then c + 65535 else if o = 2 then 0 else (kk 0).toNat)).tngNext t)) ∧
    row (.tongsEvt t) .evt ((u.tngNext t).tngEvent t) ∧
    (x.delay = none → (cnt ≠ 0 → row (.tongsDelay t cnt) (.delay cnt) ((u.modTng t (fun q => { q with delay := some cnt.toNat })).tngWait t)) ∧
      (cnt = 0 → row (.tongsDelay t cnt) (.delay cnt) (u.tngNext t))) ∧
    (∀ m, x.delay = some m → row (.tongsDelay t cnt) (.delay cnt) (if m ≤ 1 then
      (u.modTng t (fun q => { q with delay := none })).tngNext t else u.modTng t (fun q => { q with delay := some (m - 1) }))) ∧
    (s.tngDue t = true → s.tngOp t = none ∨ s.tngOp t = some (.mov 7 src) → exec (.tongsIllegal t) s = .next ((u.tngIllegal t).pioDrive (e + 5))) ∧
    (s.tngDue t = false ∨ (∃ op, s.tngOp t = some op ∧ ∀ i, op ≠ .mov 7 i) → exec (.tongsIllegal t) s = .next s) ∧
    ((s.tngIllegal t).tngRuns t = false ∧ (s.tngIllegal t).get (Reg.TNG_STAT_ILL t) = 1 ∧
      (s.tngIllegal t).get (Reg.TNG_STAT_PC t) = s.get (Reg.TNG_STAT_PC t) ∧ ((s.tngIllegal t).ledger.head?.map (fun z => z.code)) = some 0x0B01) ∧
    (s.ownRefused w (Reg.TNG_CTRL t) = false → s.on Reg.TNG_PEND_CFG_EN = false → ∃ y, exec (.tongsRun w t true) s = .next y ∧ y.tngRuns t = true ∧
      (s.tngRuns t = false → (y.tng t).t0 = s.pio.t ∧ (y.tng t).m = 0)) ∧
    (s.ownRefused w (Reg.TNG_CTRL t) = false → ∃ y, exec (.tongsRun w t false) s = .next y ∧ y.tngRuns t = false ∧ (y.tng t).delay = none) ∧
    (s.ownRefused w (Reg.TNG_CTRL t) = false → s.tngRuns t = true → exec (.tongsRestart w t) s = .next s) ∧
    (s.ownRefused w (Reg.TNG_CTRL t) = false → s.tngRuns t = false → ∃ y, exec (.tongsRestart w t) s = .next y ∧ y.get (Reg.TNG_STAT_PC t) = 0 ∧
      (y.tng t).tx = [] ∧ (y.tng t).rx = [] ∧ (y.tng t).drvEn = x.drvEn ∧ (y.tng t).drvLvl = x.drvLvl) ∧
    (s.tngTile t = false → s.ownRefused w (Reg.TNG_TXF t) = false →
      (x.tx.length < 8 → ∃ y, exec (.tongsTxfWrite w t v) s = .next y ∧ (y.tng t).tx = x.tx ++ [v] ∧ y.regs = s.regs) ∧
      (8 ≤ x.tx.length → ∃ y, exec (.tongsTxfWrite w t v) s = .next y ∧ y.get (Reg.TNG_STAT_TXOVF t) = 1 ∧ y.tongs = s.tongs)) ∧
    (s.tngTile t = false →
      (∀ y r, x.rx = y :: r → exec (.tongsRxfRead w t) s = .next ((s.modTng t (fun q => { q with rx := r })).send (.readValue w (Reg.TNG_RXF t) y))) ∧
      (x.rx = [] → exec (.tongsRxfRead w t) s = .next ((s.set (Reg.TNG_STAT_RXUNF t) 1).send (.readValue w (Reg.TNG_RXF t) 0)))) ∧
    (∀ pin, pin < 32 → (s.unitOwner (s.fsel pin) ≠ s.pinOwner pin → s.pinDrive pin = none) ∧
      s.driven.1.getLsbD pin = (s.pinDrive pin).isSome ∧ (∀ b, s.pinDrive pin = some b → s.driven.2.getLsbD pin = b))) ∧
  (∀ (p : Pio) (a pin time : Nat) (en lvl : W32) (r : List (Nat × W32 × W32)), p.hist = (a, en, lvl) :: r → a ≤ time → pin < 32 →
    (p.levels time).getLsbD pin = (if en.getLsbD pin = true then lvl.getLsbD pin else p.ext.getLsbD pin) ∧ p.sampled (time + 10) = p.levels time) ∧
  (∀ w : BitVec 16, (0xD000 ≤ w.toNat → decodeTongs w = none) ∧
    (∀ op, decodeTongs w = some op → (w.toNat / 0x1000 = 5 → w.toNat % 0x800 = 0) ∧ (w.toNat / 0x1000 = 11 → w.toNat % 0x1000 = 0))) ∧
  (decodeTongs 0x4000 = some (.shout 0) ∧ decodeTongs 0xC000 = some (.delay 0) ∧ decodeTongs 0x5800 = some (.pull true) ∧
    decodeTongs 0x0643 = some (.jmp 3 1 3) ∧ decodeTongs 0x8E40 = some (.mov 7 1) ∧ decodeTongs 0xB000 = some .evt)

/-- The pendant receiver and the timers (R541, R542, R544, R545, R547, R548, R549, R550): a header mark opens a code, spaces give its
bits, its end delivers the word; a flood drops the code and freezes; nothing counts in NAP and HIBERNATE (R552); a timer captures, matches, wraps and starts with its initial output,
and a read of a running counter is all ones. -/
def Obligations.PendantAndTimers : Prop :=
  (∀ (w : Who) (v : W32) (mark : Bool) (ns : BitVec 40) (s : State), s.Inv →
    (s.ownRefused w Reg.TNG_PEND_CFG = false → exec (.pendEnable w v) s = .next (s.writePend w v)) ∧
    (s.on Reg.TNG_PEND_CFG_EN = false → exec (.pendMark mark ns) s = .next s ∧ exec .pendCodeEnd s = .next s ∧ exec .pendFlood s = .next s) ∧
    (s.tongsClock = true → s.on Reg.TNG_PEND_CFG_EN = true → exec (.pendMark mark ns) s = .next (s.pendInterval mark ns.toNat)) ∧
    (s.on Reg.TNG_PEND_STAT_CODE = false → s.pend.saturated = false → s.pend.armed = true → s.get Reg.TNG_PEND_CFG_HDR * 10000 ≤ ns.toNat →
      let t := s.pendInterval true ns.toNat
      t.get Reg.TNG_PEND_STAT_CODE = 1 ∧ t.get Reg.TNG_PEND_STAT_FROZEN = 1 ∧ t.pend.n = 0 ∧ t.pend.bits = 0) ∧
    (s.on Reg.TNG_PEND_STAT_CODE = true → s.get Reg.TNG_PEND_CFG_END * 10000 ≤ ns.toNat → s.pendInterval false ns.toNat = s.pendEnd) ∧
    (s.on Reg.TNG_PEND_STAT_CODE = true → ns.toNat < s.get Reg.TNG_PEND_CFG_END * 10000 → s.pend.markBit = true → s.pend.n < 24 →
      let t := s.pendInterval false ns.toNat
      t.pend.n = s.pend.n + 1 ∧ t.pend.markBit = false ∧ t.regs = s.regs ∧
      t.pend.bits = s.pend.bits ||| ((if s.get Reg.TNG_PEND_CFG_SPLIT * 1000 ≤ ns.toNat then 1 else 0) <<< s.pend.n)) ∧
    (s.tongsClock = true → s.on Reg.TNG_PEND_CFG_EN = true → s.on Reg.TNG_PEND_STAT_CODE = true → s.pend.n ≠ 0 → ∃ u : State,
      exec .pendCodeEnd s = .next s.pendEnd ∧ s.pendEnd = ((u.tngDeliver (s.get Reg.TNG_PEND_CFG_TM) (s.pend.bits ||| BitVec.ofNat 32 (s.pend.n * 2 ^ 24 + 2 ^ 31))).tngEvent
        (s.get Reg.TNG_PEND_CFG_TM)) ∧ u.get Reg.TNG_PEND_STAT_CODE = 0 ∧ u.pend.armed = true ∧ u.tongs = s.tongs) ∧
    (s.tongsClock = true → s.on Reg.TNG_PEND_CFG_EN = true → s.pend.saturated = false → ∃ t, exec .pendFlood s = .next t ∧ t.get Reg.TNG_PEND_STAT_FLOOD = 1 ∧ t.get Reg.TNG_PEND_STAT_FROZEN = 1 ∧
      t.pend.saturated = true ∧ t.pend.froze = true ∧ (t.ledger.head?.map (fun x => x.code)) = some 0x0B02) ∧
    (s.tongsClock = true → s.pend.saturated = false → s.on Reg.TNG_PEND_STAT_CODE = false → ∃ t, exec .pendThresholdResume s = .next t ∧
      t.get Reg.TNG_PEND_STAT_FROZEN = 0 ∧ t = { s with regs := t.regs, pend := { s.pend with froze := false } }) ∧
    (s.pend.froze = true → s.pendDrop.get Reg.TNG_PEND_STAT_FROZEN = 1)) ∧
  (∀ (w : Who) (n : Fin 16) (c : Fin 4) (b : Bool) (mask : BitVec 4) (s : State), s.Inv →
    (s.ownRefused w (Reg.TMR_CTRL n) = false →
      (s.on (Reg.TMR_CTRL_RUN n) = false → ∃ t, exec (.timerRun w n true) s = .next t ∧ t.get (Reg.TMR_CTRL_RUN n) = 1 ∧
        t.get (Reg.TMR_STAT_OUT n) = s.get (Reg.TMR_CFG_OINIT n) ∧ (t.timer n).pre = 0) ∧
      (s.on (Reg.TMR_CTRL_RUN n) = true → ∃ t, exec (.timerRun w n false) s = .next t ∧ t.get (Reg.TMR_CTRL_RUN n) = 0 ∧ (t.timer n).stopping = true) ∧
      exec (.timerSwcap w n mask) s = .next (s.each 4 (fun i t => if mask.toNat / 2 ^ i % 2 = 1 then t.tmrCapture n i else t))) ∧
    (let fires := (s.tongsClock = true ∧ (s.capSrc n c = 3 ∨ (s.capSrc n c = 1 ∧ b = true) ∨ (s.capSrc n c = 2 ∧ b = false)) ∧ s.pinOwner (s.capIdx n c) = s.bindOwner 7 n)
     (fires → exec (.timerCapture n c b) s = .next ((s.bringPin (s.capIdx n c) b).tmrCapture n c)) ∧ (¬fires → exec (.timerCapture n c b) s = .next s)) ∧
    (s.get (Reg.TMR_EVCFG_CAPIEN n) / 2 ^ c.val % 2 = 0 →
      let t := s.tmrCapture n c
      t.get48 (Reg.TMR_CAP_LO_VAL n c) (Reg.TMR_CAP_HI_VAL n c) = s.tmrCnt n ∧ t.get (Reg.TMR_CAP_HI_FRESH n c) = 1 ∧
      t.get (Reg.TMR_CAP_HI_OVERCAP n c) = (if s.on (Reg.TMR_CAP_HI_FRESH n c) = true then 1 else s.get (Reg.TMR_CAP_HI_OVERCAP n c)) ∧
      t.tmrCnt n = s.tmrCnt n) ∧
    (s.tongsClock = true → s.on (Reg.TMR_CTRL_RUN n) = true → s.tmrCnt n ≠ s.tmrCmp n c → s.on (Reg.TMR_CFG_MODE n) = false →
      exec (.timerCompareMatch n c) s = .next ((s.modTimer n (fun x => { x with pre := 0 })).tmrTo n (s.tmrCmp n c))) ∧
    (s.tongsClock = true → s.on (Reg.TMR_CTRL_RUN n) = true → exec (.timerWrap n) s = .next (((s.set (Reg.TMR_STAT_WRAP n) 1).modTimer n (fun x => { x with pre := 0 })).tmrTo n 0)) ∧
    (s.on (Reg.TMR_CTRL_RUN n) = false → (s.timer n).stopping = false → exec (.timerCompareMatch n c) s = .next s ∧ exec (.timerWrap n) s = .next s) ∧
    (s.tongsClock = true → s.on (Reg.TMR_CTRL_RUN n) = false → (s.timer n).stopping = true → s.tmrNext n = s.tmrCmp n c →
      exec (.timerCompareMatch n c) s = .next (s.tmrCount n)) ∧
    (s.tongsClock = false → exec (.timerCompareMatch n c) s = .next s ∧ exec (.timerWrap n) s = .next s ∧ exec (.timerCountEdge n) s = .next s) ∧
    (s.on (Reg.TMR_CTRL_RUN n) = true → ∃ t : State, exec (.timerRunningRead w n) s = .next (t.send (.readValue w (Reg.TMR_CNT_LO n) 0xFFFFFFFF)) ∧
      t.get (Reg.TMR_STAT_RUNRD n) = 1 ∧ t.tmrCnt n = s.tmrCnt n) ∧
    (∃ t : State, exec (.captureRead w n c) s = .next (t.send (.readValue w (Reg.TMR_CAP_LO n c) (s.word (Reg.TMR_CAP_LO n c)))) ∧
      t.get (Reg.TMR_CAP_HI_FRESH n c) = 0 ∧ t.get (Reg.TMR_CAP_HI_OVERCAP n c) = 0) ∧
    (s.tongsClock = true → s.on (Reg.TMR_CFG_CSRC n) = true → s.pinOwner (s.get (Reg.TMR_CFG_CPIN n)) = s.bindOwner 7 n →
      exec (.timerCountEdge n) s = .next ((s.bringPin (s.get (Reg.TMR_CFG_CPIN n)) true).tmrCount n)) ∧
    (s.on (Reg.TMR_CFG_CSRC n) = false → exec (.timerCountEdge n) s = .next s))

/-! ## Ingot and Temper (17, 18) -/

/-- Ingot operations (R563, R565, R567, R568, R573, R574, R575): a command queues its program or erase, or is refused with code 1; the
end of a program leaves the page's bytes and no error there, the end of an erase leaves the sector erased; a suspension takes the erase
off and a resume brings it back. -/
def Obligations.IngotJobs : Prop :=
  (∀ (w : Who) (i : BitVec 15) (s : State), s.ownRefused w Reg.ING_CMD = false →
    let u := fun (op : Nat) => (s.set Reg.ING_CMD_INDEX i.toNat).set Reg.ING_CMD_OP op
    let run := fun (t : State) => (t.set Reg.ING_CMDSTAT_RESULT 1).set Reg.ING_CMDSTAT_CODE 0
    (s.get Reg.ING_CMDSTAT_RESULT = 1 → exec (.ingCmdProgram w i) s = .next (u 1) ∧ exec (.ingCmdErase w i) s = .next (u 2)) ∧
    (s.get Reg.ING_CMDSTAT_RESULT ≠ 1 →
      (exec (.ingCmdProgram w i) s = .next ((run (u 1)).ingQueue { src := .cmd, erase := false, idx := i.toNat, data := (List.range 64).flatMap (fun j => leBytes 4 ((u 1).word (Reg.ING_BUF j)).toNat), left := 1, cut := false })) ∧
      (i.toNat ≤ 127 → exec (.ingCmdErase w i) s = .next ((run (u 2)).ingQueue { src := .cmd, erase := true, idx := i.toNat, data := [], left := 1, cut := false })) ∧
      (127 < i.toNat → exec (.ingCmdErase w i) s = .next (((u 2).set Reg.ING_CMDSTAT_RESULT 3).set Reg.ING_CMDSTAT_CODE 1)))) ∧
  (∀ (j : IngJob) (s : State), s.Inv → s.ing.cur = some j → j.erase = false → j.data.length = 256 → ∃ u : State,
    exec (.pageProgramDone true) s = .next (u.ingUnitDone j { j with idx := j.idx + 1, data := [] } false) ∧
    u.rd (Memory.ingot (j.idx * 256)) 256 = j.data ∧
    (∀ a, a < Memory.ingot (j.idx * 256) ∨ Memory.ingot (j.idx * 256) + 256 ≤ a → Memory.read u.mem a = Memory.read s.mem a) ∧
    (∀ g ∈ u.eccUnc, g < Memory.ingot (j.idx * 256) ∨ Memory.ingot (j.idx * 256) + 256 ≤ g) ∧ u.regs = s.regs) ∧
  (∀ (j : IngJob) (s : State), s.ing.cur = some j → j.erase = false →
    exec (.pageProgramDone false) s = .next (((s.ingFree.record 0x0C02 j.sector (j.idx * 256)).ingFail j 4).ingGo) ∧ exec .sectorEraseDone s = .next s) ∧
  (∀ (j : IngJob) (s : State), s.Inv → s.ing.cur = some j → j.erase = true → j.src = .cmd → j.idx < 128 → j.left ≤ 1 → ∃ u : State,
    exec .sectorEraseDone s = .next (u.ingUnitDone j { j with idx := j.idx + 1, left := j.left - 1 } false) ∧
    (∀ a, a < 0x10000 → Memory.read u.mem (Memory.ingot (j.idx * 0x10000 + a)) = 0xFF) ∧ u.get (sectorFld j.idx) = 0 ∧
    (∀ a, a < Memory.ingot (j.idx * 0x10000) ∨ Memory.ingot (j.idx * 0x10000) + 0x10000 ≤ a → Memory.read u.mem a = Memory.read s.mem a)) ∧
  (∀ (w : Who) (j : IngJob) (b ok : Bool) (s : State),
    (s.ing.cur = none → exec (.pageProgramDone ok) s = .next s ∧ exec .sectorEraseDone s = .next s ∧ exec .suspendComplete s = .next s) ∧
    (s.ownRefused w Reg.ING_CTRL = false → s.ing.cur = some j → j.erase = true → ∃ t, exec (.eraseSuspend w) s = .next t ∧ t.ing.suspReq = some true ∧
      t.regs = s.regs ∧ t.mem = s.mem) ∧
    (s.ownRefused w Reg.ING_CTRL = false → s.ing.cur = some j → j.erase = false → exec (.eraseSuspend w) s = .next s) ∧
    (s.Inv → j.sector < 128 → s.ing.cur = some j → s.ing.suspReq = some b → ∃ u : State, exec .suspendComplete s = .next u.ingGo ∧
      u.ing.susp = some (j, b) ∧ u.ing.cur = none ∧ u.get (sectorFld j.sector) = 2 ∧ u.get Reg.ING_STAT_SUSPD = 1 ∧ u.get Reg.ING_STAT_BUSY = 0) ∧
    (s.ownRefused w Reg.ING_CTRL = false → s.ing.susp = none → exec (.eraseResume w) s = .next s) ∧
    (s.ownRefused w Reg.ING_CTRL = false → s.Inv → j.sector < 128 → s.ing.susp = some (j, b) → s.ing.cur = none → ∃ t,
      exec (.eraseResume w) s = .next t ∧ t.ing.cur = some j ∧ t.ing.susp = none ∧ t.get (sectorFld j.sector) = 1 ∧ t.get Reg.ING_STAT_BUSY = 1 ∧
      t.get Reg.ING_STAT_SUSPD = 0))

/-- Temper (R591, R592, R594, R595, R600, R610, R612, R613): EMERGENCY sends the highest code and rung 0, an evaluation runs while ticks
stand still, transactions settle or are tried again, a switch sets the rung; eyes are measured; a substitution takes a spare core and its
old core drains. -/
def Obligations.TemperSteps : Prop :=
  ∀ (w : Who) (l : Fin 6) (e : Fin 16) (slack tj : BitVec 16) (eyeh : BitVec 10) (eyew : BitVec 6) (low : Bool) (v : W32) (s : State), s.Inv →
    (s.running = true → exec (.bellowsIdleEvaluation slack tj) s = .next s) ∧
    (s.running = false → exec (.bellowsIdleEvaluation slack tj) s = .next (s.bellowsEval slack tj)) ∧
    (s.emergency = true → exec .bellowsEmerg s = .next s) ∧
    (s.emergency = false → ∃ t, exec .bellowsEmerg s = .next t ∧ t.emergency = true ∧ t.get Reg.TMP_BLWSTAT_EMEV = 1 ∧ t.get Reg.TMP_BLWSTAT_VCODE = 50 ∧
      t.temper.target = 0 ∧ (s.temper.fsw = none → t.rung = 0)) ∧
    (∃ u, u = (s.record 0x0D04 0xFF 0).quench 7 true ∧
      exec .thermalQuench s = .next (if u.get Reg.PWR_QSTAT_FIRST = 7 then u.set Reg.PWR_QSTAT_HOLD 1 else u)) ∧
    (s.temper.fly = none → exec (.avsTransactionDone low) s = .next s) ∧
    (∀ c, s.temper.fly = some c → s.temper.queued = none → ∃ t, exec (.avsTransactionDone true) s = .next t ∧ t.temper.fly = none ∧
      t.temper.settling = some c ∧ t.temper.fails = 0 ∧ t.out = s.out ∧ t.regs = s.regs) ∧
    (∀ c, s.temper.fly = some c → s.temper.queued = none → s.temper.fails < 2 → ∃ t, exec (.avsTransactionDone false) s = .next t ∧
      t.temper.fly = some c ∧ t.temper.fails = s.temper.fails + 1 ∧ t.out = .avs c :: s.out) ∧
    (∀ c, s.temper.fly = some c → 2 ≤ s.temper.fails → s.emergency = false → ∃ t, exec (.avsTransactionDone false) s = .next t ∧
      t.get Reg.TMP_BLWSTAT_AVSERR = 1 ∧ t.emergency = true ∧ t.temper.fails = 0) ∧
    (∀ c, s.temper.settling = some c → exec .avsSettled s = .next ((s.modTemper (fun t => { t with settling := none, volt := c })).stepRung)) ∧
    (∀ r, s.temper.fsw = some r → ∃ t, exec .frequencySwitchDone s = .next t ∧ t.temper.fsw = none ∧ t.rung = r % 16) ∧
    (s.temper.settling = none → exec .avsSettled s = .next s) ∧ (s.temper.fsw = none → exec .frequencySwitchDone s = .next s) ∧
    (∃ t, exec (.marginMeasure l eyeh eyew) s = .next t ∧ t.get (Reg.TMP_EQ_EYE_EYEH l) = eyeh.toNat ∧ t.get (Reg.TMP_EQ_EYE_EYEW l) = eyew.toNat ∧
      t.temper.low.getD l 0 = (if eyeh.toNat < s.get (Reg.TMP_EQ_CFG_MARGMIN l) then min 1024 (s.temper.low.getD l 0 + 1) else 0)) ∧
    (s.ownRefused w (Reg.TMP_EQ_CFG l) = false → exec (.eqLoad w l v) s = .next (s.writeEqCfg l v)) ∧
    (s.ownRefused w Reg.TMP_SUBCTL = false → fieldGet v 4 1 = 0 → ∃ t, exec (.substitutionGo w v) s = .next t ∧ t.word Reg.TMP_SUBCTL = v &&& 0xFFFF002F ∧
      t = { s with regs := t.regs }) ∧
    (s.ownRefused w Reg.TMP_SUBCTL = false → fieldGet v 4 1 = 1 → s.get Reg.TMP_SUBSTAT_STATE = 0 → (s.engN (fieldGet v 0 4)).halted = false →
      s.coreOf (fieldGet v 0 4) ≠ 0x1F → ∀ c, s.spareCore = some c → ∃ t, exec (.substitutionGo w v) s = .next t ∧ t.get Reg.TMP_SUBSTAT_STATE = 1 ∧
        t.get Reg.TMP_SUBSTAT_ENGINE = fieldGet v 0 4 ∧ t.get Reg.TMP_SUBSTAT_SPARE = c) ∧
    (s.on Reg.TMP_SUBCTL_AUTO = false → exec (.substitutionAutoTrigger e low) s = .next s) ∧
    (s.on Reg.TMP_SUBCTL_AUTO = true → low = true → s.get Reg.TMP_BLWSTAT_VCODE = 50 → exec (.substitutionAutoTrigger e low) s = .next (s.startSub e true)) ∧
    (s.get Reg.TMP_SUBSTAT_STATE ≠ 2 → s.get Reg.TMP_SUBSTAT_STATE ≠ 3 → exec .substitutionSwitch s = .next s ∧ exec .substitutionFinalTimeout s = .next s) ∧
    (s.get Reg.TMP_SUBSTAT_STATE = 2 ∨ s.get Reg.TMP_SUBSTAT_STATE = 3 → ∃ t, exec .substitutionFinalTimeout s = .next t ∧ t.get Reg.TMP_SUBSTAT_STATE = 1 ∧
      t.get Reg.TMP_SUBSTAT_RETRY = min (s.get Reg.TMP_SUBSTAT_RETRY + 1) 255 ∧ t = { s with regs := t.regs }) ∧
    (s.inSettle = false → exec .substitutionSwitch s = .next s) ∧
    (s.get Reg.TMP_SUBSTAT_STATE = 2 ∨ s.get Reg.TMP_SUBSTAT_STATE = 3 → s.inSettle = true → (s.engN (s.get Reg.TMP_SUBSTAT_ENGINE)).cur = none →
      (s.engN (s.get Reg.TMP_SUBSTAT_ENGINE)).haltReq = false → ∃ u : State,
      exec .substitutionSwitch s = .next (u.addRepair 6 2 (s.coreOf (s.get Reg.TMP_SUBSTAT_ENGINE)) 0 (s.get Reg.TMP_SUBSTAT_SPARE)) ∧
      u.coreOf (s.get Reg.TMP_SUBSTAT_ENGINE) = s.get Reg.TMP_SUBSTAT_SPARE ∧ u.temper.drain = some (s.coreOf (s.get Reg.TMP_SUBSTAT_ENGINE)) ∧
      u.get Reg.TMP_SUBSTAT_STATE = 4) ∧
    (∀ c, s.temper.drain = some c → ∃ u, u = s.flushCore c ∧ exec .oldCoreDrained s = .next (u.modTemper (fun t => { t with drain := none }))) ∧
    (s.temper.drain = none → exec .oldCoreDrained s = .next s)

/-! ## Sleep and Quench (19, 20) -/

/-- Sleep (R622, R637) and Quench (R665, R666, R668): an entry counts and sets the state, an enabled source or the armed wake wakes, the
device returns to RUN; the first source of a Quench sets the status, makes the loads safe and every loop MANUAL, and a clear releases it. -/
def Obligations.SleepAndQuench : Prop :=
  (∀ (src : Fin 8) (supply : Bool) (slow : BitVec 40) (bad : BitVec 5) (s : State), s.Inv →
    (s.power.entering = none → exec .sleepEntryDone s = .next s) ∧
    (s.power.entering = some 1 → ∃ u : State, exec .sleepEntryDone s = .next u.refreshLsw ∧ u.get Reg.PWR_STAT_STATE = 1 ∧ u.power.entering = none ∧
      u.get Reg.PWR_SLPCNT_DOZE = min (s.get Reg.PWR_SLPCNT_DOZE + 1) 65535) ∧
    (s.awake = true → exec (.wakeSource src supply) s = .next s ∧ exec .armedWake s = .next s) ∧
    (s.awake = false → s.get Reg.PWR_WAKEEN_EN / 2 ^ src.val % 2 = 1 → src ≠ 3 → src ≠ 7 → ∃ t, exec (.wakeSource src supply) s = .next t ∧
      t.get Reg.PWR_WAKESRC_SRC = s.get Reg.PWR_WAKESRC_SRC ||| 2 ^ src.val ∧ t.power.waking = true) ∧
    (s.get Reg.PWR_WAKEEN_EN / 2 ^ src.val % 2 = 0 → exec (.wakeSource src supply) s = .next s) ∧
    (∀ at', s.awake = false → s.power.armed = some at' → at' ≤ s.now ∨ 2 ≤ s.get Reg.PWR_STAT_STATE → ∃ t, exec .armedWake s = .next t ∧ t.get Reg.PWR_WAKESRC_ARMED = 1 ∧ t.power.waking = true) ∧
    (s.power.waking = true → s.power.entering = none → s.get Reg.PWR_STAT_STATE ≠ 0 →
      exec (.wakeComplete slow) s = .next ((s.wakeUp slow.toNat).power.held.foldl State.perform ((s.wakeUp slow.toNat).modPower (fun p => { p with held := [] })))) ∧
    (s.power.waking = false → exec (.wakeComplete slow) s = .next s) ∧
    exec (.operatingConditionChange bad) s = .next (s.modPower (fun p => { p with opBad := bad })).checkVoids) ∧
  (∀ (w : Who) (pin : Fin 32) (rising : Bool) (s : State), s.Inv →
    exec (.quenchSet w) s = .next (s.quench 0 false) ∧
    (w = .host → s.on Reg.PWR_QSTAT_ACTIVE = true → s.on Reg.PWR_QSTAT_HOLD = false → exec (.quenchClearWrite w) s = .next s.quenchRelease) ∧
    (w ≠ .host ∨ s.on Reg.PWR_QSTAT_ACTIVE = false ∨ s.on Reg.PWR_QSTAT_HOLD = true → exec (.quenchClearWrite w) s = .next s) ∧
    (s.get Reg.PWR_QPIO_PIN = pin.val → s.get Reg.PWR_QPIO_EDGE = 3 ∨ s.get Reg.PWR_QPIO_EDGE = (if rising = true then 1 else 2) →
      exec (.quenchPin pin rising) s = .next ((s.bringPin pin rising).quench 8 false)) ∧
    (s.get Reg.PWR_QPIO_PIN ≠ pin.val ∨ s.get Reg.PWR_QPIO_EDGE = 0 → exec (.quenchPin pin rising) s = .next (s.bringPin pin rising))) ∧
  (∀ (src : Fin 9) (fault : Bool) (s : State), s.Inv →
    let t := s.quench src fault
    (s.on Reg.PWR_QSTAT_ACTIVE = false → s.prs.active = none →
      t.get Reg.PWR_QSTAT_ACTIVE = 1 ∧ t.get Reg.PWR_QSTAT_FIRST = src.val ∧ t.get Reg.PWR_QSTAT_SRCS = 2 ^ src.val ∧ t.lsw.qSafe = true ∧
      t.chain.withdraw = true ∧ (∀ l, l < 16 → t.on (Reg.SWG_n_CTRL_AUTO l) = false) ∧ t.mem = s.mem) ∧
    (s.on Reg.PWR_QSTAT_ACTIVE = true → t.get Reg.PWR_QSTAT_SRCS = s.get Reg.PWR_QSTAT_SRCS ||| 2 ^ src.val ∧
      t.get Reg.PWR_QSTAT_FIRST = s.get Reg.PWR_QSTAT_FIRST ∧ (t.ledger.head?.map (fun x => x.code)) = some 0x0E03 ∧
      t = { s with regs := t.regs, ledger := t.ledger }))

/-! ## Mailboxes and the secure side (21) -/

/-- Mailboxes (R674 to R676, R678, R680, R681, R682, R685, R686, R687, R688). Each row completes, with these effects: MBX_CFG is written by who
may; a doorbell of the sender rings a free direction of a configured channel with a length that fits, or is refused; TAKE by the receiver and
CANCEL by the sender end a pending message; anyone else only writes a ledger entry; cells from the other device ring, take or cancel and are
answered; answers and time-outs act on the request whose tag they bear (log entry 42). -/
def Obligations.MailboxMessages : Prop :=
  (∀ (w : Who) (c : Fin 16) (i : Fin 32) (v : W32) (strike : Bool) (s : State), s.Inv →
    let len := ⟨mbxCtl i, 0, 7⟩
    let most := if s.receiver i = .remote then 56 else 64
    (s.mbxReach w c = false → exec (.mailboxCfgWrite w c v) s = .next (s.mbxDeny w (Reg.MBX_CFG c) true)) ∧
    (s.mbxReach w c = true → s.mayConfigure w c v = true → exec (.mailboxCfgWrite w c v) s = .next (s.writeFields w (Reg.MBX_CFG c) v (fun _ => false))) ∧
    (s.mbxReach w c = true → s.mayConfigure w c v = false → exec (.mailboxCfgWrite w c v) s = .next (s.record 0x0F03 c 0)) ∧
    (s.mbxReach w (i / 2) = false → exec (.mailboxDoorbell w i v) s = .next (s.mbxDeny w (mbxCtl i) true) ∧
      exec (.mailboxTake w i v) s = .next (s.mbxDeny w (mbxCtl i) true) ∧ exec (.mailboxCancel w i v) s = .next (s.mbxDeny w (mbxCtl i) true)) ∧
    (s.mbxReach w (i / 2) = true → isEnd w (i / 2) (s.sender i) = false → isEnd w (i / 2) (s.receiver i) = false →
      exec (.mailboxDoorbell w i v) s = .next (s.recordMbx 0x0F03 i) ∧ exec (.mailboxTake w i v) s = .next (s.recordMbx 0x0F03 i) ∧
      exec (.mailboxCancel w i v) s = .next (s.recordMbx 0x0F03 i)) ∧
    (s.mbxReach w (i / 2) = true → isEnd w (i / 2) (s.sender i) = true → s.on (mbxDb i) = false →
      let u := (s.set len (v.toNat % 128)).set ⟨mbxCtl i, 12, 20⟩ (v.toNat / 4096)
      (v.toNat / 1024 % 2 = 0 → exec (.mailboxDoorbell w i v) s = .next (u.doorbell (s.whoStrike w) i)) ∧
      (v.toNat / 256 % 8 = 0 → exec (.mailboxCancel w i v) s = .next u)) ∧
    (∀ n, s.mbxReach w (i / 2) = true → isEnd w (i / 2) (s.sender i) = true → s.on (mbxDb i) = false → s.mbxConfigured (i / 2) = true →
      s.receiver i = .engine n → 1 ≤ v.toNat % 128 → v.toNat % 128 ≤ 64 → ∃ u : State, exec (.mailboxDoorbell w i v) s =
        .next (u.register n (bit64 (18 + i.val / 2))) ∧ u.get (mbxDb i) = 1 ∧ u.get (mbxAck i) = 0 ∧ u.get (mbxTimeout i) = 0 ∧ u.get (mbxCancelled i) = 0 ∧
        u.get (mbxRefused i) = 0 ∧ u.dir i = { len := v.toNat % 128, timing := some (s.now + 1000 * max 1 (min 1000000 (v.toNat / 4096))), wait := none }) ∧
    (s.mbxConfigured (i / 2) = false ∨ s.on (mbxDb i) = true ∨ s.get len = 0 ∨ most < s.get len → s.doorbell strike i = s.set (mbxRefused i) 1) ∧
    (s.mbxConfigured (i / 2) = true → s.receiver i = .remote → s.on (mbxDb i) = false → 1 ≤ s.get len → s.get len ≤ 56 → ∃ u : State,
      s.doorbell strike i = u.sendMbx strike (i / 2) 0 (u.message i (s.get len)) ∧ u.get (mbxDb i) = 1 ∧
        u.dir i = { len := s.get len, timing := some (s.mbxUntil i), wait := some 0 } ∧ ∀ j, j < 16 → u.word (mbxBuf i j) = s.word (mbxBuf i j)) ∧
    (∀ n, s.mbxReach w (i / 2) = true → isEnd w (i / 2) (s.sender i) = false → isEnd w (i / 2) (s.receiver i) = true → s.on (mbxDb i) = true →
      s.sender i = .engine n → ∃ u : State, exec (.mailboxTake w i v) s = .next (u.register n (bit64 (18 + i.val / 2))) ∧
        u.get (mbxDb i) = 0 ∧ u.get (mbxAck i) = 1 ∧ u.dir i = { s.dir i with timing := none, wait := none }) ∧
    (s.mbxReach w (i / 2) = true → isEnd w (i / 2) (s.sender i) = false → isEnd w (i / 2) (s.receiver i) = true → v.toNat / 256 % 4 = 0 →
      (s.on (mbxDb i) = true → exec (.mailboxTake w i v) s = .next (s.take (s.whoStrike w) i)) ∧ (s.on (mbxDb i) = false → exec (.mailboxTake w i v) s = .next s)) ∧
    (s.mbxReach w (i / 2) = true → isEnd w (i / 2) (s.sender i) = true → s.on (mbxDb i) = true → s.receiver i ≠ .remote →
      ∃ t, exec (.mailboxCancel w i v) s = .next t ∧ t.get (mbxDb i) = 0 ∧ t.get (mbxCancelled i) = 1 ∧ t.dir i = { s.dir i with timing := none, wait := none }) ∧
    (s.on (mbxDb i) = true → s.receiver i = .remote → (s.dir i).wait ≠ some 2 → ∃ u : State, s.cancelMsg strike i = u.sendMbx strike (i / 2) 2 [] ∧
      (u.dir i).wait = some 2 ∧ u.regs = s.regs) ∧
    ((s.unring i).get (mbxDb i) = 0 ∧ (s.unring i).dir i = { s.dir i with timing := none, wait := none } ∧
      (i.val % 2 = 0 → (s.unring i).chain.mtags.all (fun x => x.2.1 != i.val / 2 || x.2.2 == 1) = true)) ∧
    (∀ at1, s.on (mbxDb i) = true → (s.dir i).timing = some at1 → at1 ≤ s.now → exec (.mbxTimeout i) s =
      .next ((((s.set (mbxTimeout i) 1).modDir i (fun d => { d with timing := none })).notify (i / 2) (s.sender i)).recordMbx 0x0F01 i)) ∧
    (s.on (mbxDb i) = false ∨ (s.dir i).timing = none → exec (.mbxTimeout i) s = .next s) ∧
    (∀ at1, (s.dir i).timing = some at1 → s.now < at1 → exec (.mbxTimeout i) s = .next s)) ∧
  (∀ (src : Fin 32) (tag : BitVec 8) (b : List Byte) (s : State), s.Inv →
    let k := byteAt b 1
    let names := s.namesRemote k src (byteAt b 2) = true
    (b.length = 64 →
      (names → s.mbxConfigured k = true → s.on (mbxDb (2 * k + 1)) = false →
        let n := byteAt b 3 % 128
        let u := (s.putMessage (2 * k + 1) ((b.drop 8).take n)).set ⟨mbxCtl (2 * k + 1), 0, 7⟩ n
        exec (.msg src tag b) s = .next (((u.ring1 (2 * k + 1) n none).notify k (u.receiver (2 * k + 1))).sendMbxa src tag.toNat k 0)) ∧
      (¬names ∨ s.mbxConfigured k = false ∨ s.on (mbxDb (2 * k + 1)) = true → exec (.msg src tag b) s = .next (s.sendMbxa src tag.toNat k 1)) ∧
      (names → s.on (mbxDb (2 * k)) = true → exec (.taken src tag b) s = .next ((s.taken (2 * k)).sendMbxa src tag.toNat k 4)) ∧
      (¬names ∨ s.on (mbxDb (2 * k)) = false → exec (.taken src tag b) s = .next (s.sendMbxa src tag.toNat k 2)) ∧
      (names → s.on (mbxDb (2 * k + 1)) = true → exec (.cancel src tag b) s = .next ((s.unring (2 * k + 1)).sendMbxa src tag.toNat k 3)) ∧
      (¬names ∨ s.on (mbxDb (2 * k + 1)) = false → exec (.cancel src tag b) s = .next (s.sendMbxa src tag.toNat k 2))) ∧
    (b.length ≠ 64 → exec (.msg src tag b) s = .fault .illFormed ∧ exec (.taken src tag b) s = .fault .illFormed ∧ exec (.cancel src tag b) s = .fault .illFormed)) ∧
  (∀ (tag : BitVec 8) (st : Fin 5) (rs : Fin 4) (s : State), s.Inv →
    (s.mbxTag tag.toNat = none → exec (.mbxa tag st rs) s = .next s ∧ exec (.mbxRemoteTimeout tag) s = .next s) ∧
    (∀ c kind, s.mbxTag tag.toNat = some (c, kind) → c < 8 →
      let d := mbxDb (2 * c)
      let v := s.set (mbxRstate (2 * c)) rs
      v.get (mbxRstate (2 * c)) = rs.val ∧
      (kind = 1 ∨ s.on d = false ∨ st = 4 ∨ (st = 2 ∧ kind ≠ 2) → exec (.mbxa tag st rs) s = .next (v.dropTag tag.toNat)) ∧
      (kind ≠ 1 → s.on d = true →
        (st = 0 → exec (.mbxa tag st rs) s = .next ((if (s.dir (2 * c)).wait = some 0 then v.modDir (2 * c) (fun x => { x with wait := none }) else v).dropTag
          tag.toNat)) ∧
        (st = 1 → exec (.mbxa tag st rs) s = .next ((v.remoteRefused c).dropTag tag.toNat)) ∧
        (st = 2 → kind = 2 → exec (.mbxa tag st rs) s = .next ((v.taken (2 * c)).dropTag tag.toNat)) ∧
        (st = 3 → exec (.mbxa tag st rs) s = .next (((v.unring (2 * c)).set (mbxCancelled (2 * c)) 1).dropTag tag.toNat)) ∧
        exec (.mbxRemoteTimeout tag) s = .next ((s.remoteRefused c).dropTag tag.toNat)) ∧
      (kind = 1 ∨ s.on d = false → exec (.mbxRemoteTimeout tag) s = .next (s.dropTag tag.toNat))) ∧
    (∀ c, c < 8 → (s.remoteRefused c).get (mbxDb (2 * c)) = 0 ∧ (s.remoteRefused c).get (mbxRefused (2 * c)) = 1 ∧
      ((s.remoteRefused c).ledger.head?.map (fun x => x.code)) = some 0x0F02 ∧
      (∀ n, s.sender (2 * c) = .engine n → ∃ y : State, s.taken (2 * c) = y.register n (bit64 (18 + c)) ∧ y.get (mbxDb (2 * c)) = 0 ∧ y.get (mbxAck (2 * c)) = 1)))

/-- The Warden and the keys (R690, R694, R696, R697, R698): its registers answer PF1 alone; a patch check ends in PATCH, with the floor
raised, or in PFAIL; counters are read and only raised; a burn needs its confirmation and ends in its fuse; a correct response unlocks the
scope asked for, and four failures refuse. -/
def Obligations.WardenAndKeys : Prop :=
  ∀ (w : Who) (r : Fin 16) (i : BitVec 6) (confirm : BitVec 8) (scope : BitVec 2) (v : W32) (ended : Unit) (s : State), s.Inv →
    (w ≠ .pf1 → exec (.patchCheck w v) s = .next (s.mbxDeny w Reg.WDN_PATCH_LEN true) ∧
      exec (.secureDescriptorWrite w r v) s = .next (s.mbxDeny w (Reg.WDN_SEC_HI r) true) ∧ exec (.burnRoot w confirm) s = .next (s.mbxDeny w Reg.KEY_CTL true) ∧
      exec (.burnSeal w confirm) s = .next (s.mbxDeny w Reg.KEY_CTL true) ∧ exec (.raise w i confirm) s = .next (s.mbxDeny w Reg.KEY_CTL true) ∧
      exec (.debugRequest w scope) s = .next (s.mbxDeny w Reg.DBGU_CTL true) ∧ exec (.debugLock w scope) s = .next (s.mbxDeny w Reg.DBGU_CTL true) ∧
      exec (.debugResponseCheck w v) s = .next (s.mbxDeny w Reg.DBGU_RADDR true)) ∧
    exec (.patchCheck .pf1 v) s = .next (s.writePatchLen .pf1 v) ∧
    (s.sec.patch = [] → exec (.patchCheckDone ended) s = .next s) ∧
    (∀ a n q, s.sec.patch = (a, n) :: q → (s.staged a n = false ∨ n = 0 ∨ 65536 < n) → ∃ u : State, exec (.patchCheckDone ended) s = .next u.wardenGo ∧
      u.get Reg.WDN_STAT_PFAIL = 1 ∧ (u.ledger.head?.map (fun x => x.code)) = some 0x0F04 ∧ u.sec.patch = q) ∧
    (∀ a n q b u, s.sec.patch = (a, n) :: q → s.staged a n = true → 0 < n → n ≤ 65536 →
      (s.modSec (fun x => { x with patch := q })).wardenRead a n = (some b, u) →
      let good := patchOk b = true ∧ u.sec.floor.toNat ≤ leAt b 4 4
      ∃ t : State, exec (.patchCheckDone ended) s = .next t.wardenGo ∧
        if good then t.get Reg.WDN_STAT_PATCH = 1 ∧ t.sec = { u.sec with floor := BitVec.ofNat 32 (leAt b 4 4) } ∧ t = { u with regs := t.regs, sec := t.sec }
        else t.get Reg.WDN_STAT_PFAIL = 1 ∧ (t.ledger.head?.map (fun x => x.code)) = some 0x0F04 ∧ t.sec = u.sec) ∧
    exec (.secureDescriptorWrite .pf1 r v) s = .next (s.writeSecHi r v) ∧
    (s.sec.queue = [] → exec .arbRead s = .next s ∧ exec .arbRaise s = .next s ∧ exec .uidRead s = .next s) ∧
    (∀ c b q, s.sec.queue = (c, b) :: q → s.sec.patch = [] → s.sec.check = none →
      (byteAt b 0 = 1 → 2 ≤ b.length → byteAt b 1 < 64 →
        exec .arbRead s = .next (s.wardenServe c (answerHead 1 0 ++ wordBytes (s.word (Reg.KEY_ARB (byteAt b 1))))).wardenGo) ∧
      (byteAt b 0 = 2 → 8 ≤ b.length → byteAt b 1 < 64 → let p := s.raiseArb (byteAt b 1) (leAt b 4 4)
        exec .arbRaise s = .next (p.2.wardenServe c (answerHead 2 (if p.1 = true then 0 else 2) ++ wordBytes (p.2.word (Reg.KEY_ARB (byteAt b 1))))).wardenGo) ∧
      (byteAt b 0 = 3 → exec .uidRead s = .next (s.wardenServe c (answerHead 3 0 ++ wordBytes (s.word Reg.DEV_UID_LO) ++ wordBytes (s.word Reg.DEV_UID_HI))).wardenGo)) ∧
    (∀ b, let sig := b.drop (b.length - 200)
      let formed := 200 ≤ b.length ∧ sig.head? = some 0x04 ∧ (sig.drop 97).take 7 = List.replicate 7 0
      (patchOk b = true ↔ formed ∧ sha384 (sig.take 97) = patchKeyHash ∧ ecdsaOk (sig.take 97) (sig.drop 104) (b.take (b.length - 200)) = true) ∧
      ∀ q, (s.responseOk q b = true ↔ formed ∧ (s.on Reg.KEY_STAT_ROOTSET = true ∧ s.on Reg.KEY_STAT_ROOTBAD = false ∧ sha384 (sig.take 97) = s.rootHash) ∧
        ecdsaOk (sig.take 97) (sig.drop 104) (q.flatMap (fun x => leBytes 4 x.toNat)) = true)) ∧
    (∀ n, n < 64 → ∀ x, (s.raiseArb n x).2.get (Reg.KEY_ARB_VAL n) = (if (s.raiseArb n x).1 = true then x % 2 ^ 32 else s.get (Reg.KEY_ARB_VAL n)) ∧
      (x < 2 ^ 32 → s.get (Reg.KEY_ARB_VAL n) ≤ (s.raiseArb n x).2.get (Reg.KEY_ARB_VAL n))) ∧
    (confirm ≠ 0xC3 → exec (.burnRoot .pf1 confirm) s = .next (s.set Reg.KEY_STAT_CMDERR 1) ∧ exec (.burnSeal .pf1 confirm) s = .next (s.set Reg.KEY_STAT_CMDERR 1) ∧
      exec (.raise .pf1 i confirm) s = .next (s.set Reg.KEY_STAT_CMDERR 1)) ∧
    (s.on Reg.KEY_STAT_BUSY = false → s.on Reg.KEY_STAT_ROOTSET = false → ∃ t, exec (.burnRoot .pf1 0xC3) s = .next t ∧ t.get Reg.KEY_STAT_BUSY = 1 ∧
      t.sec.burn = some (1, (List.range 12).map (fun j => s.word (Reg.KEY_ROOTH j)))) ∧
    (s.on Reg.KEY_STAT_ROOTSET = true → exec (.burnRoot .pf1 0xC3) s = .next (s.set Reg.KEY_STAT_CMDERR 1)) ∧
    (s.on Reg.KEY_STAT_BUSY = false → ∃ t, exec (.burnSeal .pf1 0xC3) s = .next t ∧ t.get Reg.KEY_STAT_BUSY = 1 ∧ t.sec.burn = some (2, [])) ∧
    exec (.raise .pf1 i 0xC3) s = .next (s.raiseArb i.toNat (s.word Reg.KEY_ARBVAL).toNat).2 ∧
    (s.sec.burn = none → exec .keyBurn s = .next s) ∧
    (∀ ws, s.sec.burn = some (2, ws) → ∃ t, exec .keyBurn s = .next t ∧ t.get Reg.KEY_STAT_SEALONLY = 1 ∧ t.get Reg.PRS_GSTAT_SEALONLY = 1 ∧
      t.get Reg.KEY_STAT_BUSY = 0 ∧ t.sec.burn = none ∧ (t.ledger.head?.map (fun x => x.code)) = some 0x0F05) ∧
    (s.on Reg.DBGU_CTL_REFUSE = false → s.on Reg.KEY_STAT_ROOTSET = false → ∃ t, exec (.debugRequest .pf1 scope) s = .next t ∧
      t.get Reg.DBGU_CTL_UNLOCKED = scope.toNat ∧ t.get Reg.DBGU_CTL_SCOPE = scope.toNat) ∧
    (s.on Reg.DBGU_CTL_REFUSE = false → s.on Reg.KEY_STAT_ROOTSET = true → ∃ t, exec (.debugRequest .pf1 scope) s = .next t ∧
      t.sec.chal = some scope.toNat ∧ t.freeCtr = s.freeCtr + 2 ∧ t.get Reg.DBGU_CTL_UNLOCKED = s.get Reg.DBGU_CTL_UNLOCKED) ∧
    (∃ t, exec (.debugLock .pf1 scope) s = .next t ∧ t.get Reg.DBGU_CTL_UNLOCKED = 0 ∧ t.get Reg.DBGU_CTL_SCOPE = scope.toNat) ∧
    (s.sec.chal = none → exec (.debugResponseCheck .pf1 v) s = .next s) ∧
    (∀ k, s.sec.chal = some k → s.sec.check = none → ∃ t, exec (.debugResponseCheck .pf1 v) s = .next t ∧ t.sec.chal = none ∧ t.get Reg.DBGU_CTL_BUSY = 1 ∧
      t.sec.check = some (v.toNat, k, (List.range 8).map (fun j => s.word (Reg.DBGU_CHAL j)))) ∧
    (s.sec.check = none → exec (.dbgUnlock ended) s = .next s) ∧
    (∀ a k q, s.sec.check = some (a, k, q) → a < 0x10000000 → ∃ u : State, exec (.dbgUnlock ended) s = .next u.wardenGo ∧ u.sec.fails = s.sec.fails + 1 ∧
      u.get Reg.DBGU_CTL_REFUSE = (if 4 ≤ s.sec.fails + 1 then 1 else 0) ∧ u.get Reg.DBGU_CTL_BUSY = 0 ∧ u.get Reg.DBGU_CTL_UNLOCKED = s.get Reg.DBGU_CTL_UNLOCKED) ∧
    (∀ a k q b u, s.sec.check = some (a, k, q) → 0x10000000 ≤ a → a + 200 ≤ 0x11000000 →
      ((s.modSec (fun x => { x with check := none })).set Reg.DBGU_CTL_BUSY 0).wardenRead (a - 0x10000000) 200 = (some b, u) →
      let good := u.responseOk q b = true
      ∃ t : State, exec (.dbgUnlock ended) s = .next t.wardenGo ∧
        if good then t.get Reg.DBGU_CTL_UNLOCKED = k % 4 ∧ (t.ledger.head?.map (fun x => x.code)) = some 0x0F06 ∧ t.sec = u.sec ∧
          t = { u with regs := t.regs, ledger := t.ledger }
        else t.sec.fails = u.sec.fails + 1 ∧ t.get Reg.DBGU_CTL_UNLOCKED = u.get Reg.DBGU_CTL_UNLOCKED ∧ (t.ledger.head?.map (fun x => x.code)) = some 0x0F07)

/-! ## The TAP (22) -/

/-- TAP instructions (R725, R726, R727, R728): IDCODE and BYPASS give their registers, boundary scans take the cells, the holding ones
keep functional operation off, DEBUG returns once what a read left, and an update reads or writes a set-up register while DEBUG is
current. -/
def Obligations.TapInstructions : Prop :=
  ∀ (cells : List Bool) (op : BitVec 8) (off : BitVec 16) (v : W32) (s : State),
    (∃ t, exec .idcode s = .next t ∧ t.tap.ir = 0x02 ∧ t.out = .tdo 32 0x3734074B :: s.out ∧ t = { s with tap := t.tap, out := t.out }) ∧
    (6 < op.toNat → op ≠ 0x20 → ∃ t, exec (.bypass op) s = .next t ∧ t.tap.ir = op ∧ t.out = .tdo 1 0 :: s.out ∧ t = { s with tap := t.tap, out := t.out }) ∧
    (op.toNat ≤ 6 ∨ op = 0x20 → exec (.bypass op) s = .next s) ∧
    (∃ t, exec (.samplePreload cells) s = .next t ∧ t.tap.ir = 0x01 ∧ t.tap.bsr = cells ∧ t.tap.hold = s.tap.hold ∧ t.freeCtr = s.freeCtr + 1 ∧ t.regs = s.regs) ∧
    exec .clamp s = .next ((s.tapHold 0x03).send (.tdo 1 0)) ∧ exec .highz s = .next ((s.tapHold 0x04).send (.tdo 1 0)) ∧
    exec (.extest cells) s = .next ((s.tapHold 0x00).scan cells) ∧ exec (.extestPulse cells) s = .next ((s.tapHold 0x05).scan cells) ∧
    exec (.extestTrain cells) s = .next ((s.tapHold 0x06).scan cells) ∧
    (s.Inv → (∀ p, p < 4 → s.portUp p = false) → ∀ c, c < 12 → s.on (Reg.LSW_HB_CFG_EN (c % 6)) = false →
      (s.tapHold op).tap.hold = true ∧ (s.tapHold op).tap.ir = op ∧ (s.tapHold op).on (Reg.LSW_CH_STAT_ON c) = false) ∧
    (∃ t, exec .debug s = .next t ∧ t.tap.ir = 0x20 ∧ t.tap.dbg = 0 ∧ t.out = .tdo 64 s.tap.dbg :: s.out ∧ t = { s with tap := t.tap, out := t.out }) ∧
    (s.tap.ir ≠ 0x20 → exec (.jtagDebugRead off) s = .next s ∧ exec (.jtagDebugWrite off v) s = .next s) ∧
    (s.tap.ir = 0x20 → off.toNat % 4 = 0 →
      let u := s.modTap (fun t => { t with dbg := 0 })
      exec (.jtagDebugRead off) s =
        .next ((u.setupRead .jtag off.toNat).2.modTap (fun t => { t with dbg := (u.setupRead .jtag off.toNat).1.setWidth 64 })) ∧
      (¬(0x3100 ≤ off.toNat ∧ off.toNat < 0x3500 ∧ off.toNat % 0x40 = 0x34) → exec (.jtagDebugWrite off v) s = .next (u.setupWrite .jtag off.toNat v))) ∧
    (∃ t, exec .tapReset s = .next t ∧ t.tap.ir = 0x02 ∧ t.tap.dbg = 0 ∧ t.tap.hold = s.tap.hold ∧ t = { s with tap := t.tap })
end

