-- ==== Sys2Proof/Laws/Sparse.lean ====
section
/-!
SUPPORT. The laws of the sparse tables and of the memories: a read after a write, and the canonical form.
-/

namespace Sys2Proof.Machine

variable {α : Type} [DecidableEq α] (d : Nat → α)

/-! ## The canonical form, as a proposition -/

theorem Sparse.wf_cons (k : Nat) (v : α) (r : List (Nat × α)) :
    Sparse.wf d ((k, v) :: r) = true ↔ v ≠ d k ∧ (∀ p ∈ r, k < p.1) ∧ Sparse.wf d r = true := by
  induction r generalizing k v with
  | nil => simp [Sparse.wf]
  | cons q r ih =>
    obtain ⟨j, w⟩ := q
    simp only [Sparse.wf, Bool.and_eq_true, decide_eq_true_eq, List.mem_cons, forall_eq_or_imp]
    constructor
    · rintro ⟨⟨h1, h2⟩, h3⟩
      refine ⟨h2, ⟨h1, fun p hp => ?_⟩, h3⟩
      exact Nat.lt_trans h1 (((ih j w).1 h3).2.1 p hp)
    · rintro ⟨h2, ⟨h1, -⟩, h3⟩
      exact ⟨⟨h1, h2⟩, h3⟩

omit [DecidableEq α] in
/-- Below its first key, a table in canonical form holds the default. -/
theorem Sparse.find_of_lt (r : List (Nat × α)) (k : Nat) (h : ∀ p ∈ r, k < p.1) : Sparse.find d r k = d k := by
  induction r with
  | nil => rfl
  | cons q r ih =>
    obtain ⟨j, w⟩ := q
    have hj : k < j := h (j, w) (by simp)
    simp only [Sparse.find, if_neg (Nat.ne_of_gt hj)]
    exact ih (fun p hp => h p (by simp [hp]))

/-! ## A read after a write -/

/-- The keys of a table after a write. -/
theorem Sparse.mem_put (r : List (Nat × α)) (k : Nat) (v : α) (p : Nat × α) (h : p ∈ Sparse.put d r k v) : p = (k, v) ∨ p ∈ r := by
  induction r with
  | nil =>
    simp only [Sparse.put] at h
    split at h <;> simp_all
  | cons q r ih =>
    obtain ⟨j, w⟩ := q
    simp only [Sparse.put] at h
    split at h
    · rcases List.mem_cons.1 h with h | h
      · exact .inr (by simp [h])
      · rcases ih h with h | h
        · exact .inl h
        · exact .inr (by simp [h])
    · split at h
      · split at h
        · exact .inr (by simp [h])
        · rcases List.mem_cons.1 h with h | h
          · exact .inl h
          · exact .inr (by simp [h])
      · split at h
        · exact .inr h
        · rcases List.mem_cons.1 h with h | h
          · exact .inl h
          · exact .inr h

/-- A write keeps the canonical form. -/
theorem Sparse.wf_put (r : List (Nat × α)) (k : Nat) (v : α) (h : Sparse.wf d r = true) : Sparse.wf d (Sparse.put d r k v) = true := by
  induction r with
  | nil =>
    simp only [Sparse.put]
    split
    · rfl
    · simpa [Sparse.wf] using ‹¬v = d k›
  | cons q r ih =>
    obtain ⟨j, w⟩ := q
    obtain ⟨hw, hlt, hr⟩ := (Sparse.wf_cons d j w r).1 h
    simp only [Sparse.put]
    split
    · rename_i hj
      refine (Sparse.wf_cons d _ _ _).2 ⟨hw, fun p hp => ?_, ih hr⟩
      rcases Sparse.mem_put d r k v p hp with h | h
      · simpa [h] using hj
      · exact hlt p h
    · split
      · rename_i hj
        split
        · exact hr
        · exact (Sparse.wf_cons d _ _ _).2 ⟨‹_›, fun p hp => hj ▸ hlt p hp, hr⟩
      · rename_i h1 h2
        split
        · exact h
        · refine (Sparse.wf_cons d _ _ _).2 ⟨‹_›, fun p hp => ?_, h⟩
          have hk : k < j := by omega
          rcases List.mem_cons.1 hp with h | h
          · simpa [h] using hk
          · exact Nat.lt_trans hk (hlt p h)

/-- What was written is read, in a table in canonical form. -/
theorem Sparse.find_put_self (r : List (Nat × α)) (k : Nat) (v : α) (h : Sparse.wf d r = true) :
    Sparse.find d (Sparse.put d r k v) k = v := by
  induction r with
  | nil =>
    simp only [Sparse.put]
    split <;> simp_all [Sparse.find]
  | cons q r ih =>
    obtain ⟨j, w⟩ := q
    obtain ⟨-, hlt, hr⟩ := (Sparse.wf_cons d j w r).1 h
    simp only [Sparse.put]
    split
    · rename_i hj
      simp only [Sparse.find, if_neg (Nat.ne_of_lt hj)]
      exact ih hr
    · split
      · rename_i hj
        split
        · rename_i hv
          subst hj
          rw [Sparse.find_of_lt d r j hlt, hv]
        · simp [Sparse.find]
      · rename_i h1 h2
        split
        · rename_i hv
          have hk : k < j := by omega
          rw [hv]
          refine Sparse.find_of_lt d _ k (fun p hp => ?_)
          rcases List.mem_cons.1 hp with h | h
          · simpa [h] using hk
          · exact Nat.lt_trans hk (hlt p h)
        · simp [Sparse.find]

/-- A write leaves every other key alone. -/
theorem Sparse.find_put_of_ne (r : List (Nat × α)) (k : Nat) (v : α) (a : Nat) (ha : a ≠ k) :
    Sparse.find d (Sparse.put d r k v) a = Sparse.find d r a := by
  induction r with
  | nil =>
    simp only [Sparse.put]
    split
    · rfl
    · simp [Sparse.find, Ne.symm ha]
  | cons q r ih =>
    obtain ⟨j, w⟩ := q
    simp only [Sparse.put]
    split
    · simp only [Sparse.find]
      split
      · rfl
      · exact ih
    · split
      · rename_i hj
        subst hj
        split <;> simp [Sparse.find, Ne.symm ha]
      · split
        · rfl
        · simp [Sparse.find, Ne.symm ha]

/-- Dropping entries keeps the canonical form. -/
theorem Sparse.wf_filter (r : List (Nat × α)) (p : Nat × α → Bool) (h : Sparse.wf d r = true) : Sparse.wf d (r.filter p) = true := by
  induction r with
  | nil => rfl
  | cons q r ih =>
    obtain ⟨j, w⟩ := q
    obtain ⟨hw, hlt, hr⟩ := (Sparse.wf_cons d j w r).1 h
    rw [List.filter_cons]
    split
    · exact (Sparse.wf_cons d _ _ _).2 ⟨hw, fun x hx => hlt x ((List.mem_filter.1 hx).1), ih hr⟩
    · exact ih hr

/-! ## The memories -/

theorem Memory.wf_write (m : List Host.Cell) (k : Nat) (v : Byte) (h : Memory.wf m = true) : Memory.wf (Memory.write m k v) = true :=
  Sparse.wf_put _ m k v h

theorem Memory.wf_writeN (bs : List Byte) (m : List Host.Cell) (k : Nat) (h : Memory.wf m = true) : Memory.wf (Memory.writeN m k bs) = true := by
  induction bs generalizing m k with
  | nil => exact h
  | cons b r ih => exact ih _ _ (Memory.wf_write m k b h)

theorem Memory.wf_clear (m : List Host.Cell) (a b : Nat) (h : Memory.wf m = true) : Memory.wf (Memory.clear m a b) = true :=
  Sparse.wf_filter _ m _ h

theorem Memory.read_write_self (m : List Host.Cell) (k : Nat) (v : Byte) (h : Memory.wf m = true) : Memory.read (Memory.write m k v) k = v :=
  Sparse.find_put_self _ m k v h

theorem Memory.read_write_of_ne (m : List Host.Cell) (k : Nat) (v : Byte) (a : Nat) (ha : a ≠ k) :
    Memory.read (Memory.write m k v) a = Memory.read m a :=
  Sparse.find_put_of_ne _ m k v a ha

/-- A store of several bytes leaves every byte outside them alone. -/
theorem Memory.read_writeN_of_out (bs : List Byte) (m : List Host.Cell) (k a : Nat) (ha : a < k ∨ k + bs.length ≤ a) :
    Memory.read (Memory.writeN m k bs) a = Memory.read m a := by
  induction bs generalizing m k with
  | nil => rfl
  | cons b r ih =>
    have hl : (b :: r).length = r.length + 1 := rfl
    simp only [Memory.writeN]
    rw [ih, Memory.read_write_of_ne]
    · omega
    · omega

/-- A store of several bytes puts each at its address. -/
theorem Memory.read_writeN_in (bs : List Byte) (m : List Host.Cell) (k i : Nat) (h : Memory.wf m = true) (hi : i < bs.length) :
    Memory.read (Memory.writeN m k bs) (k + i) = bs[i] := by
  induction bs generalizing m k i with
  | nil => simp at hi
  | cons b r ih =>
    cases i with
    | zero =>
      simp only [Memory.writeN, Nat.add_zero]
      rw [Memory.read_writeN_of_out _ _ _ _ (by omega), Memory.read_write_self _ _ _ h]
      rfl
    | succ i =>
      have hr : i < r.length := by simpa using hi
      have := ih (Memory.write m k b) (k + 1) i (Memory.wf_write m k b h) hr
      simpa [Memory.writeN, Nat.add_assoc, Nat.add_comm 1 i] using this

end Sys2Proof.Machine
end

