-- ==== Sys2Proof/Laws/State.lean ====
section
/-!
SUPPORT. What each update of the state leaves unchanged: one lemma per field per update, true by definition.
-/

namespace Sys2Proof.Machine

/-! ### setWord -/

@[simp] theorem State.setWord_caps (s : State) (k : Nat) (v : W32) : (s.setWord k v).caps = s.caps := rfl
@[simp] theorem State.setWord_held (s : State) (k : Nat) (v : W32) : (s.setWord k v).held = s.held := rfl
@[simp] theorem State.setWord_mem (s : State) (k : Nat) (v : W32) : (s.setWord k v).mem = s.mem := rfl
@[simp] theorem State.setWord_eccUnc (s : State) (k : Nat) (v : W32) : (s.setWord k v).eccUnc = s.eccUnc := rfl
@[simp] theorem State.setWord_eccOne (s : State) (k : Nat) (v : W32) : (s.setWord k v).eccOne = s.eccOne := rfl
@[simp] theorem State.setWord_tb (s : State) (k : Nat) (v : W32) : (s.setWord k v).tb = s.tb := rfl
@[simp] theorem State.setWord_freeCtr (s : State) (k : Nat) (v : W32) : (s.setWord k v).freeCtr = s.freeCtr := rfl
@[simp] theorem State.setWord_out (s : State) (k : Nat) (v : W32) : (s.setWord k v).out = s.out := rfl
@[simp] theorem State.setWord_outWait (s : State) (k : Nat) (v : W32) : (s.setWord k v).outWait = s.outWait := rfl
@[simp] theorem State.setWord_ledger (s : State) (k : Nat) (v : W32) : (s.setWord k v).ledger = s.ledger := rfl
@[simp] theorem State.setWord_eng (s : State) (k : Nat) (v : W32) : (s.setWord k v).eng = s.eng := rfl
@[simp] theorem State.setWord_hoard (s : State) (k : Nat) (v : W32) : (s.setWord k v).hoard = s.hoard := rfl
@[simp] theorem State.setWord_prs (s : State) (k : Nat) (v : W32) : (s.setWord k v).prs = s.prs := rfl
@[simp] theorem State.setWord_hif (s : State) (k : Nat) (v : W32) : (s.setWord k v).hif = s.hif := rfl
@[simp] theorem State.setWord_pcie (s : State) (k : Nat) (v : W32) : (s.setWord k v).pcie = s.pcie := rfl
@[simp] theorem State.setWord_ports (s : State) (k : Nat) (v : W32) : (s.setWord k v).ports = s.ports := rfl
@[simp] theorem State.setWord_cans (s : State) (k : Nat) (v : W32) : (s.setWord k v).cans = s.cans := rfl
@[simp] theorem State.setWord_video (s : State) (k : Nat) (v : W32) : (s.setWord k v).video = s.video := rfl
@[simp] theorem State.setWord_pio (s : State) (k : Nat) (v : W32) : (s.setWord k v).pio = s.pio := rfl
@[simp] theorem State.setWord_vidDrain (s : State) (k : Nat) (v : W32) : (s.setWord k v).vidDrain = s.vidDrain := rfl
@[simp] theorem State.setWord_hearth (s : State) (k : Nat) (v : W32) : (s.setWord k v).hearth = s.hearth := rfl
@[simp] theorem State.setWord_time (s : State) (k : Nat) (v : W32) : (s.setWord k v).time = s.time := rfl
@[simp] theorem State.setWord_chain (s : State) (k : Nat) (v : W32) : (s.setWord k v).chain = s.chain := rfl
@[simp] theorem State.setWord_loops (s : State) (k : Nat) (v : W32) : (s.setWord k v).loops = s.loops := rfl
@[simp] theorem State.setWord_lsw (s : State) (k : Nat) (v : W32) : (s.setWord k v).lsw = s.lsw := rfl
@[simp] theorem State.setWord_tongs (s : State) (k : Nat) (v : W32) : (s.setWord k v).tongs = s.tongs := rfl
@[simp] theorem State.setWord_tmr (s : State) (k : Nat) (v : W32) : (s.setWord k v).tmr = s.tmr := rfl
@[simp] theorem State.setWord_pend (s : State) (k : Nat) (v : W32) : (s.setWord k v).pend = s.pend := rfl
@[simp] theorem State.setWord_power (s : State) (k : Nat) (v : W32) : (s.setWord k v).power = s.power := rfl
@[simp] theorem State.setWord_ing (s : State) (k : Nat) (v : W32) : (s.setWord k v).ing = s.ing := rfl
@[simp] theorem State.setWord_temper (s : State) (k : Nat) (v : W32) : (s.setWord k v).temper = s.temper := rfl
@[simp] theorem State.setWord_sec (s : State) (k : Nat) (v : W32) : (s.setWord k v).sec = s.sec := rfl
@[simp] theorem State.setWord_tap (s : State) (k : Nat) (v : W32) : (s.setWord k v).tap = s.tap := rfl
@[simp] theorem State.setWord_collect (s : State) (k : Nat) (v : W32) : (s.setWord k v).collect = s.collect := rfl
@[simp] theorem State.setWord_pending (s : State) (k : Nat) (v : W32) : (s.setWord k v).pending = s.pending := rfl

/-! ### set -/

@[simp] theorem State.set_caps (s : State) (f : Fld) (v : Nat) : (s.set f v).caps = s.caps := rfl
@[simp] theorem State.set_held (s : State) (f : Fld) (v : Nat) : (s.set f v).held = s.held := rfl
@[simp] theorem State.set_mem (s : State) (f : Fld) (v : Nat) : (s.set f v).mem = s.mem := rfl
@[simp] theorem State.set_eccUnc (s : State) (f : Fld) (v : Nat) : (s.set f v).eccUnc = s.eccUnc := rfl
@[simp] theorem State.set_eccOne (s : State) (f : Fld) (v : Nat) : (s.set f v).eccOne = s.eccOne := rfl
@[simp] theorem State.set_tb (s : State) (f : Fld) (v : Nat) : (s.set f v).tb = s.tb := rfl
@[simp] theorem State.set_freeCtr (s : State) (f : Fld) (v : Nat) : (s.set f v).freeCtr = s.freeCtr := rfl
@[simp] theorem State.set_out (s : State) (f : Fld) (v : Nat) : (s.set f v).out = s.out := rfl
@[simp] theorem State.set_outWait (s : State) (f : Fld) (v : Nat) : (s.set f v).outWait = s.outWait := rfl
@[simp] theorem State.set_ledger (s : State) (f : Fld) (v : Nat) : (s.set f v).ledger = s.ledger := rfl
@[simp] theorem State.set_eng (s : State) (f : Fld) (v : Nat) : (s.set f v).eng = s.eng := rfl
@[simp] theorem State.set_hoard (s : State) (f : Fld) (v : Nat) : (s.set f v).hoard = s.hoard := rfl
@[simp] theorem State.set_prs (s : State) (f : Fld) (v : Nat) : (s.set f v).prs = s.prs := rfl
@[simp] theorem State.set_hif (s : State) (f : Fld) (v : Nat) : (s.set f v).hif = s.hif := rfl
@[simp] theorem State.set_pcie (s : State) (f : Fld) (v : Nat) : (s.set f v).pcie = s.pcie := rfl
@[simp] theorem State.set_ports (s : State) (f : Fld) (v : Nat) : (s.set f v).ports = s.ports := rfl
@[simp] theorem State.set_cans (s : State) (f : Fld) (v : Nat) : (s.set f v).cans = s.cans := rfl
@[simp] theorem State.set_video (s : State) (f : Fld) (v : Nat) : (s.set f v).video = s.video := rfl
@[simp] theorem State.set_pio (s : State) (f : Fld) (v : Nat) : (s.set f v).pio = s.pio := rfl
@[simp] theorem State.set_vidDrain (s : State) (f : Fld) (v : Nat) : (s.set f v).vidDrain = s.vidDrain := rfl
@[simp] theorem State.set_hearth (s : State) (f : Fld) (v : Nat) : (s.set f v).hearth = s.hearth := rfl
@[simp] theorem State.set_time (s : State) (f : Fld) (v : Nat) : (s.set f v).time = s.time := rfl
@[simp] theorem State.set_chain (s : State) (f : Fld) (v : Nat) : (s.set f v).chain = s.chain := rfl
@[simp] theorem State.set_loops (s : State) (f : Fld) (v : Nat) : (s.set f v).loops = s.loops := rfl
@[simp] theorem State.set_lsw (s : State) (f : Fld) (v : Nat) : (s.set f v).lsw = s.lsw := rfl
@[simp] theorem State.set_tongs (s : State) (f : Fld) (v : Nat) : (s.set f v).tongs = s.tongs := rfl
@[simp] theorem State.set_tmr (s : State) (f : Fld) (v : Nat) : (s.set f v).tmr = s.tmr := rfl
@[simp] theorem State.set_pend (s : State) (f : Fld) (v : Nat) : (s.set f v).pend = s.pend := rfl
@[simp] theorem State.set_power (s : State) (f : Fld) (v : Nat) : (s.set f v).power = s.power := rfl
@[simp] theorem State.set_ing (s : State) (f : Fld) (v : Nat) : (s.set f v).ing = s.ing := rfl
@[simp] theorem State.set_temper (s : State) (f : Fld) (v : Nat) : (s.set f v).temper = s.temper := rfl
@[simp] theorem State.set_sec (s : State) (f : Fld) (v : Nat) : (s.set f v).sec = s.sec := rfl
@[simp] theorem State.set_tap (s : State) (f : Fld) (v : Nat) : (s.set f v).tap = s.tap := rfl
@[simp] theorem State.set_collect (s : State) (f : Fld) (v : Nat) : (s.set f v).collect = s.collect := rfl
@[simp] theorem State.set_pending (s : State) (f : Fld) (v : Nat) : (s.set f v).pending = s.pending := rfl

/-! ### setB -/

@[simp] theorem State.setB_caps (s : State) (f : Fld) (b : Bool) : (s.setB f b).caps = s.caps := rfl
@[simp] theorem State.setB_held (s : State) (f : Fld) (b : Bool) : (s.setB f b).held = s.held := rfl
@[simp] theorem State.setB_mem (s : State) (f : Fld) (b : Bool) : (s.setB f b).mem = s.mem := rfl
@[simp] theorem State.setB_eccUnc (s : State) (f : Fld) (b : Bool) : (s.setB f b).eccUnc = s.eccUnc := rfl
@[simp] theorem State.setB_eccOne (s : State) (f : Fld) (b : Bool) : (s.setB f b).eccOne = s.eccOne := rfl
@[simp] theorem State.setB_tb (s : State) (f : Fld) (b : Bool) : (s.setB f b).tb = s.tb := rfl
@[simp] theorem State.setB_freeCtr (s : State) (f : Fld) (b : Bool) : (s.setB f b).freeCtr = s.freeCtr := rfl
@[simp] theorem State.setB_out (s : State) (f : Fld) (b : Bool) : (s.setB f b).out = s.out := rfl
@[simp] theorem State.setB_outWait (s : State) (f : Fld) (b : Bool) : (s.setB f b).outWait = s.outWait := rfl
@[simp] theorem State.setB_ledger (s : State) (f : Fld) (b : Bool) : (s.setB f b).ledger = s.ledger := rfl
@[simp] theorem State.setB_eng (s : State) (f : Fld) (b : Bool) : (s.setB f b).eng = s.eng := rfl
@[simp] theorem State.setB_hoard (s : State) (f : Fld) (b : Bool) : (s.setB f b).hoard = s.hoard := rfl
@[simp] theorem State.setB_prs (s : State) (f : Fld) (b : Bool) : (s.setB f b).prs = s.prs := rfl
@[simp] theorem State.setB_hif (s : State) (f : Fld) (b : Bool) : (s.setB f b).hif = s.hif := rfl
@[simp] theorem State.setB_pcie (s : State) (f : Fld) (b : Bool) : (s.setB f b).pcie = s.pcie := rfl
@[simp] theorem State.setB_ports (s : State) (f : Fld) (b : Bool) : (s.setB f b).ports = s.ports := rfl
@[simp] theorem State.setB_cans (s : State) (f : Fld) (b : Bool) : (s.setB f b).cans = s.cans := rfl
@[simp] theorem State.setB_video (s : State) (f : Fld) (b : Bool) : (s.setB f b).video = s.video := rfl
@[simp] theorem State.setB_pio (s : State) (f : Fld) (b : Bool) : (s.setB f b).pio = s.pio := rfl
@[simp] theorem State.setB_vidDrain (s : State) (f : Fld) (b : Bool) : (s.setB f b).vidDrain = s.vidDrain := rfl
@[simp] theorem State.setB_hearth (s : State) (f : Fld) (b : Bool) : (s.setB f b).hearth = s.hearth := rfl
@[simp] theorem State.setB_time (s : State) (f : Fld) (b : Bool) : (s.setB f b).time = s.time := rfl
@[simp] theorem State.setB_chain (s : State) (f : Fld) (b : Bool) : (s.setB f b).chain = s.chain := rfl
@[simp] theorem State.setB_loops (s : State) (f : Fld) (b : Bool) : (s.setB f b).loops = s.loops := rfl
@[simp] theorem State.setB_lsw (s : State) (f : Fld) (b : Bool) : (s.setB f b).lsw = s.lsw := rfl
@[simp] theorem State.setB_tongs (s : State) (f : Fld) (b : Bool) : (s.setB f b).tongs = s.tongs := rfl
@[simp] theorem State.setB_tmr (s : State) (f : Fld) (b : Bool) : (s.setB f b).tmr = s.tmr := rfl
@[simp] theorem State.setB_pend (s : State) (f : Fld) (b : Bool) : (s.setB f b).pend = s.pend := rfl
@[simp] theorem State.setB_power (s : State) (f : Fld) (b : Bool) : (s.setB f b).power = s.power := rfl
@[simp] theorem State.setB_ing (s : State) (f : Fld) (b : Bool) : (s.setB f b).ing = s.ing := rfl
@[simp] theorem State.setB_temper (s : State) (f : Fld) (b : Bool) : (s.setB f b).temper = s.temper := rfl
@[simp] theorem State.setB_sec (s : State) (f : Fld) (b : Bool) : (s.setB f b).sec = s.sec := rfl
@[simp] theorem State.setB_tap (s : State) (f : Fld) (b : Bool) : (s.setB f b).tap = s.tap := rfl
@[simp] theorem State.setB_collect (s : State) (f : Fld) (b : Bool) : (s.setB f b).collect = s.collect := rfl
@[simp] theorem State.setB_pending (s : State) (f : Fld) (b : Bool) : (s.setB f b).pending = s.pending := rfl

/-! ### count -/

@[simp] theorem State.count_caps (s : State) (f : Fld) (n : Nat) : (s.count f n).caps = s.caps := rfl
@[simp] theorem State.count_held (s : State) (f : Fld) (n : Nat) : (s.count f n).held = s.held := rfl
@[simp] theorem State.count_mem (s : State) (f : Fld) (n : Nat) : (s.count f n).mem = s.mem := rfl
@[simp] theorem State.count_eccUnc (s : State) (f : Fld) (n : Nat) : (s.count f n).eccUnc = s.eccUnc := rfl
@[simp] theorem State.count_eccOne (s : State) (f : Fld) (n : Nat) : (s.count f n).eccOne = s.eccOne := rfl
@[simp] theorem State.count_tb (s : State) (f : Fld) (n : Nat) : (s.count f n).tb = s.tb := rfl
@[simp] theorem State.count_freeCtr (s : State) (f : Fld) (n : Nat) : (s.count f n).freeCtr = s.freeCtr := rfl
@[simp] theorem State.count_out (s : State) (f : Fld) (n : Nat) : (s.count f n).out = s.out := rfl
@[simp] theorem State.count_outWait (s : State) (f : Fld) (n : Nat) : (s.count f n).outWait = s.outWait := rfl
@[simp] theorem State.count_ledger (s : State) (f : Fld) (n : Nat) : (s.count f n).ledger = s.ledger := rfl
@[simp] theorem State.count_eng (s : State) (f : Fld) (n : Nat) : (s.count f n).eng = s.eng := rfl
@[simp] theorem State.count_hoard (s : State) (f : Fld) (n : Nat) : (s.count f n).hoard = s.hoard := rfl
@[simp] theorem State.count_prs (s : State) (f : Fld) (n : Nat) : (s.count f n).prs = s.prs := rfl
@[simp] theorem State.count_hif (s : State) (f : Fld) (n : Nat) : (s.count f n).hif = s.hif := rfl
@[simp] theorem State.count_pcie (s : State) (f : Fld) (n : Nat) : (s.count f n).pcie = s.pcie := rfl
@[simp] theorem State.count_ports (s : State) (f : Fld) (n : Nat) : (s.count f n).ports = s.ports := rfl
@[simp] theorem State.count_cans (s : State) (f : Fld) (n : Nat) : (s.count f n).cans = s.cans := rfl
@[simp] theorem State.count_video (s : State) (f : Fld) (n : Nat) : (s.count f n).video = s.video := rfl
@[simp] theorem State.count_pio (s : State) (f : Fld) (n : Nat) : (s.count f n).pio = s.pio := rfl
@[simp] theorem State.count_vidDrain (s : State) (f : Fld) (n : Nat) : (s.count f n).vidDrain = s.vidDrain := rfl
@[simp] theorem State.count_hearth (s : State) (f : Fld) (n : Nat) : (s.count f n).hearth = s.hearth := rfl
@[simp] theorem State.count_time (s : State) (f : Fld) (n : Nat) : (s.count f n).time = s.time := rfl
@[simp] theorem State.count_chain (s : State) (f : Fld) (n : Nat) : (s.count f n).chain = s.chain := rfl
@[simp] theorem State.count_loops (s : State) (f : Fld) (n : Nat) : (s.count f n).loops = s.loops := rfl
@[simp] theorem State.count_lsw (s : State) (f : Fld) (n : Nat) : (s.count f n).lsw = s.lsw := rfl
@[simp] theorem State.count_tongs (s : State) (f : Fld) (n : Nat) : (s.count f n).tongs = s.tongs := rfl
@[simp] theorem State.count_tmr (s : State) (f : Fld) (n : Nat) : (s.count f n).tmr = s.tmr := rfl
@[simp] theorem State.count_pend (s : State) (f : Fld) (n : Nat) : (s.count f n).pend = s.pend := rfl
@[simp] theorem State.count_power (s : State) (f : Fld) (n : Nat) : (s.count f n).power = s.power := rfl
@[simp] theorem State.count_ing (s : State) (f : Fld) (n : Nat) : (s.count f n).ing = s.ing := rfl
@[simp] theorem State.count_temper (s : State) (f : Fld) (n : Nat) : (s.count f n).temper = s.temper := rfl
@[simp] theorem State.count_sec (s : State) (f : Fld) (n : Nat) : (s.count f n).sec = s.sec := rfl
@[simp] theorem State.count_tap (s : State) (f : Fld) (n : Nat) : (s.count f n).tap = s.tap := rfl
@[simp] theorem State.count_collect (s : State) (f : Fld) (n : Nat) : (s.count f n).collect = s.collect := rfl
@[simp] theorem State.count_pending (s : State) (f : Fld) (n : Nat) : (s.count f n).pending = s.pending := rfl

/-! ### setWord64 -/

@[simp] theorem State.setWord64_caps (s : State) (lo hi : Nat) (v : BitVec 64) : (s.setWord64 lo hi v).caps = s.caps := rfl
@[simp] theorem State.setWord64_held (s : State) (lo hi : Nat) (v : BitVec 64) : (s.setWord64 lo hi v).held = s.held := rfl
@[simp] theorem State.setWord64_mem (s : State) (lo hi : Nat) (v : BitVec 64) : (s.setWord64 lo hi v).mem = s.mem := rfl
@[simp] theorem State.setWord64_eccUnc (s : State) (lo hi : Nat) (v : BitVec 64) : (s.setWord64 lo hi v).eccUnc = s.eccUnc := rfl
@[simp] theorem State.setWord64_eccOne (s : State) (lo hi : Nat) (v : BitVec 64) : (s.setWord64 lo hi v).eccOne = s.eccOne := rfl
@[simp] theorem State.setWord64_tb (s : State) (lo hi : Nat) (v : BitVec 64) : (s.setWord64 lo hi v).tb = s.tb := rfl
@[simp] theorem State.setWord64_freeCtr (s : State) (lo hi : Nat) (v : BitVec 64) : (s.setWord64 lo hi v).freeCtr = s.freeCtr := rfl
@[simp] theorem State.setWord64_out (s : State) (lo hi : Nat) (v : BitVec 64) : (s.setWord64 lo hi v).out = s.out := rfl
@[simp] theorem State.setWord64_outWait (s : State) (lo hi : Nat) (v : BitVec 64) : (s.setWord64 lo hi v).outWait = s.outWait := rfl
@[simp] theorem State.setWord64_ledger (s : State) (lo hi : Nat) (v : BitVec 64) : (s.setWord64 lo hi v).ledger = s.ledger := rfl
@[simp] theorem State.setWord64_eng (s : State) (lo hi : Nat) (v : BitVec 64) : (s.setWord64 lo hi v).eng = s.eng := rfl
@[simp] theorem State.setWord64_hoard (s : State) (lo hi : Nat) (v : BitVec 64) : (s.setWord64 lo hi v).hoard = s.hoard := rfl
@[simp] theorem State.setWord64_prs (s : State) (lo hi : Nat) (v : BitVec 64) : (s.setWord64 lo hi v).prs = s.prs := rfl
@[simp] theorem State.setWord64_hif (s : State) (lo hi : Nat) (v : BitVec 64) : (s.setWord64 lo hi v).hif = s.hif := rfl
@[simp] theorem State.setWord64_pcie (s : State) (lo hi : Nat) (v : BitVec 64) : (s.setWord64 lo hi v).pcie = s.pcie := rfl
@[simp] theorem State.setWord64_ports (s : State) (lo hi : Nat) (v : BitVec 64) : (s.setWord64 lo hi v).ports = s.ports := rfl
@[simp] theorem State.setWord64_cans (s : State) (lo hi : Nat) (v : BitVec 64) : (s.setWord64 lo hi v).cans = s.cans := rfl
@[simp] theorem State.setWord64_video (s : State) (lo hi : Nat) (v : BitVec 64) : (s.setWord64 lo hi v).video = s.video := rfl
@[simp] theorem State.setWord64_pio (s : State) (lo hi : Nat) (v : BitVec 64) : (s.setWord64 lo hi v).pio = s.pio := rfl
@[simp] theorem State.setWord64_vidDrain (s : State) (lo hi : Nat) (v : BitVec 64) : (s.setWord64 lo hi v).vidDrain = s.vidDrain := rfl
@[simp] theorem State.setWord64_hearth (s : State) (lo hi : Nat) (v : BitVec 64) : (s.setWord64 lo hi v).hearth = s.hearth := rfl
@[simp] theorem State.setWord64_time (s : State) (lo hi : Nat) (v : BitVec 64) : (s.setWord64 lo hi v).time = s.time := rfl
@[simp] theorem State.setWord64_chain (s : State) (lo hi : Nat) (v : BitVec 64) : (s.setWord64 lo hi v).chain = s.chain := rfl
@[simp] theorem State.setWord64_loops (s : State) (lo hi : Nat) (v : BitVec 64) : (s.setWord64 lo hi v).loops = s.loops := rfl
@[simp] theorem State.setWord64_lsw (s : State) (lo hi : Nat) (v : BitVec 64) : (s.setWord64 lo hi v).lsw = s.lsw := rfl
@[simp] theorem State.setWord64_tongs (s : State) (lo hi : Nat) (v : BitVec 64) : (s.setWord64 lo hi v).tongs = s.tongs := rfl
@[simp] theorem State.setWord64_tmr (s : State) (lo hi : Nat) (v : BitVec 64) : (s.setWord64 lo hi v).tmr = s.tmr := rfl
@[simp] theorem State.setWord64_pend (s : State) (lo hi : Nat) (v : BitVec 64) : (s.setWord64 lo hi v).pend = s.pend := rfl
@[simp] theorem State.setWord64_power (s : State) (lo hi : Nat) (v : BitVec 64) : (s.setWord64 lo hi v).power = s.power := rfl
@[simp] theorem State.setWord64_ing (s : State) (lo hi : Nat) (v : BitVec 64) : (s.setWord64 lo hi v).ing = s.ing := rfl
@[simp] theorem State.setWord64_temper (s : State) (lo hi : Nat) (v : BitVec 64) : (s.setWord64 lo hi v).temper = s.temper := rfl
@[simp] theorem State.setWord64_sec (s : State) (lo hi : Nat) (v : BitVec 64) : (s.setWord64 lo hi v).sec = s.sec := rfl
@[simp] theorem State.setWord64_tap (s : State) (lo hi : Nat) (v : BitVec 64) : (s.setWord64 lo hi v).tap = s.tap := rfl
@[simp] theorem State.setWord64_collect (s : State) (lo hi : Nat) (v : BitVec 64) : (s.setWord64 lo hi v).collect = s.collect := rfl
@[simp] theorem State.setWord64_pending (s : State) (lo hi : Nat) (v : BitVec 64) : (s.setWord64 lo hi v).pending = s.pending := rfl

/-! ### send -/

@[simp] theorem State.send_regs (s : State) (o : Output) : (s.send o).regs = s.regs := rfl
@[simp] theorem State.send_caps (s : State) (o : Output) : (s.send o).caps = s.caps := rfl
@[simp] theorem State.send_held (s : State) (o : Output) : (s.send o).held = s.held := rfl
@[simp] theorem State.send_mem (s : State) (o : Output) : (s.send o).mem = s.mem := rfl
@[simp] theorem State.send_eccUnc (s : State) (o : Output) : (s.send o).eccUnc = s.eccUnc := rfl
@[simp] theorem State.send_eccOne (s : State) (o : Output) : (s.send o).eccOne = s.eccOne := rfl
@[simp] theorem State.send_tb (s : State) (o : Output) : (s.send o).tb = s.tb := rfl
@[simp] theorem State.send_freeCtr (s : State) (o : Output) : (s.send o).freeCtr = s.freeCtr := rfl
@[simp] theorem State.send_outWait (s : State) (o : Output) : (s.send o).outWait = s.outWait := rfl
@[simp] theorem State.send_ledger (s : State) (o : Output) : (s.send o).ledger = s.ledger := rfl
@[simp] theorem State.send_eng (s : State) (o : Output) : (s.send o).eng = s.eng := rfl
@[simp] theorem State.send_hoard (s : State) (o : Output) : (s.send o).hoard = s.hoard := rfl
@[simp] theorem State.send_prs (s : State) (o : Output) : (s.send o).prs = s.prs := rfl
@[simp] theorem State.send_hif (s : State) (o : Output) : (s.send o).hif = s.hif := rfl
@[simp] theorem State.send_pcie (s : State) (o : Output) : (s.send o).pcie = s.pcie := rfl
@[simp] theorem State.send_ports (s : State) (o : Output) : (s.send o).ports = s.ports := rfl
@[simp] theorem State.send_cans (s : State) (o : Output) : (s.send o).cans = s.cans := rfl
@[simp] theorem State.send_video (s : State) (o : Output) : (s.send o).video = s.video := rfl
@[simp] theorem State.send_pio (s : State) (o : Output) : (s.send o).pio = s.pio := rfl
@[simp] theorem State.send_vidDrain (s : State) (o : Output) : (s.send o).vidDrain = s.vidDrain := rfl
@[simp] theorem State.send_hearth (s : State) (o : Output) : (s.send o).hearth = s.hearth := rfl
@[simp] theorem State.send_time (s : State) (o : Output) : (s.send o).time = s.time := rfl
@[simp] theorem State.send_chain (s : State) (o : Output) : (s.send o).chain = s.chain := rfl
@[simp] theorem State.send_loops (s : State) (o : Output) : (s.send o).loops = s.loops := rfl
@[simp] theorem State.send_lsw (s : State) (o : Output) : (s.send o).lsw = s.lsw := rfl
@[simp] theorem State.send_tongs (s : State) (o : Output) : (s.send o).tongs = s.tongs := rfl
@[simp] theorem State.send_tmr (s : State) (o : Output) : (s.send o).tmr = s.tmr := rfl
@[simp] theorem State.send_pend (s : State) (o : Output) : (s.send o).pend = s.pend := rfl
@[simp] theorem State.send_power (s : State) (o : Output) : (s.send o).power = s.power := rfl
@[simp] theorem State.send_ing (s : State) (o : Output) : (s.send o).ing = s.ing := rfl
@[simp] theorem State.send_temper (s : State) (o : Output) : (s.send o).temper = s.temper := rfl
@[simp] theorem State.send_sec (s : State) (o : Output) : (s.send o).sec = s.sec := rfl
@[simp] theorem State.send_tap (s : State) (o : Output) : (s.send o).tap = s.tap := rfl
@[simp] theorem State.send_collect (s : State) (o : Output) : (s.send o).collect = s.collect := rfl
@[simp] theorem State.send_pending (s : State) (o : Output) : (s.send o).pending = s.pending := rfl

/-! ### wr -/

@[simp] theorem State.wr_regs (s : State) (k : Nat) (bs : List Byte) : (s.wr k bs).regs = s.regs := rfl
@[simp] theorem State.wr_caps (s : State) (k : Nat) (bs : List Byte) : (s.wr k bs).caps = s.caps := rfl
@[simp] theorem State.wr_held (s : State) (k : Nat) (bs : List Byte) : (s.wr k bs).held = s.held := rfl
@[simp] theorem State.wr_eccUnc (s : State) (k : Nat) (bs : List Byte) : (s.wr k bs).eccUnc = s.eccUnc := rfl
@[simp] theorem State.wr_eccOne (s : State) (k : Nat) (bs : List Byte) : (s.wr k bs).eccOne = s.eccOne := rfl
@[simp] theorem State.wr_tb (s : State) (k : Nat) (bs : List Byte) : (s.wr k bs).tb = s.tb := rfl
@[simp] theorem State.wr_freeCtr (s : State) (k : Nat) (bs : List Byte) : (s.wr k bs).freeCtr = s.freeCtr := rfl
@[simp] theorem State.wr_out (s : State) (k : Nat) (bs : List Byte) : (s.wr k bs).out = s.out := rfl
@[simp] theorem State.wr_outWait (s : State) (k : Nat) (bs : List Byte) : (s.wr k bs).outWait = s.outWait := rfl
@[simp] theorem State.wr_ledger (s : State) (k : Nat) (bs : List Byte) : (s.wr k bs).ledger = s.ledger := rfl
@[simp] theorem State.wr_eng (s : State) (k : Nat) (bs : List Byte) : (s.wr k bs).eng = s.eng := rfl
@[simp] theorem State.wr_hoard (s : State) (k : Nat) (bs : List Byte) : (s.wr k bs).hoard = s.hoard := rfl
@[simp] theorem State.wr_prs (s : State) (k : Nat) (bs : List Byte) : (s.wr k bs).prs = s.prs := rfl
@[simp] theorem State.wr_hif (s : State) (k : Nat) (bs : List Byte) : (s.wr k bs).hif = s.hif := rfl
@[simp] theorem State.wr_pcie (s : State) (k : Nat) (bs : List Byte) : (s.wr k bs).pcie = s.pcie := rfl
@[simp] theorem State.wr_ports (s : State) (k : Nat) (bs : List Byte) : (s.wr k bs).ports = s.ports := rfl
@[simp] theorem State.wr_cans (s : State) (k : Nat) (bs : List Byte) : (s.wr k bs).cans = s.cans := rfl
@[simp] theorem State.wr_video (s : State) (k : Nat) (bs : List Byte) : (s.wr k bs).video = s.video := rfl
@[simp] theorem State.wr_pio (s : State) (k : Nat) (bs : List Byte) : (s.wr k bs).pio = s.pio := rfl
@[simp] theorem State.wr_vidDrain (s : State) (k : Nat) (bs : List Byte) : (s.wr k bs).vidDrain = s.vidDrain := rfl
@[simp] theorem State.wr_hearth (s : State) (k : Nat) (bs : List Byte) : (s.wr k bs).hearth = s.hearth := rfl
@[simp] theorem State.wr_time (s : State) (k : Nat) (bs : List Byte) : (s.wr k bs).time = s.time := rfl
@[simp] theorem State.wr_chain (s : State) (k : Nat) (bs : List Byte) : (s.wr k bs).chain = s.chain := rfl
@[simp] theorem State.wr_loops (s : State) (k : Nat) (bs : List Byte) : (s.wr k bs).loops = s.loops := rfl
@[simp] theorem State.wr_lsw (s : State) (k : Nat) (bs : List Byte) : (s.wr k bs).lsw = s.lsw := rfl
@[simp] theorem State.wr_tongs (s : State) (k : Nat) (bs : List Byte) : (s.wr k bs).tongs = s.tongs := rfl
@[simp] theorem State.wr_tmr (s : State) (k : Nat) (bs : List Byte) : (s.wr k bs).tmr = s.tmr := rfl
@[simp] theorem State.wr_pend (s : State) (k : Nat) (bs : List Byte) : (s.wr k bs).pend = s.pend := rfl
@[simp] theorem State.wr_power (s : State) (k : Nat) (bs : List Byte) : (s.wr k bs).power = s.power := rfl
@[simp] theorem State.wr_ing (s : State) (k : Nat) (bs : List Byte) : (s.wr k bs).ing = s.ing := rfl
@[simp] theorem State.wr_temper (s : State) (k : Nat) (bs : List Byte) : (s.wr k bs).temper = s.temper := rfl
@[simp] theorem State.wr_sec (s : State) (k : Nat) (bs : List Byte) : (s.wr k bs).sec = s.sec := rfl
@[simp] theorem State.wr_tap (s : State) (k : Nat) (bs : List Byte) : (s.wr k bs).tap = s.tap := rfl
@[simp] theorem State.wr_collect (s : State) (k : Nat) (bs : List Byte) : (s.wr k bs).collect = s.collect := rfl
@[simp] theorem State.wr_pending (s : State) (k : Nat) (bs : List Byte) : (s.wr k bs).pending = s.pending := rfl

/-! ### recordF -/

@[simp] theorem State.recordF_caps (s : State) (c u d g : Nat) : (s.recordF c u d g).caps = s.caps := rfl
@[simp] theorem State.recordF_held (s : State) (c u d g : Nat) : (s.recordF c u d g).held = s.held := rfl
@[simp] theorem State.recordF_mem (s : State) (c u d g : Nat) : (s.recordF c u d g).mem = s.mem := rfl
@[simp] theorem State.recordF_eccUnc (s : State) (c u d g : Nat) : (s.recordF c u d g).eccUnc = s.eccUnc := rfl
@[simp] theorem State.recordF_eccOne (s : State) (c u d g : Nat) : (s.recordF c u d g).eccOne = s.eccOne := rfl
@[simp] theorem State.recordF_tb (s : State) (c u d g : Nat) : (s.recordF c u d g).tb = s.tb := rfl
@[simp] theorem State.recordF_freeCtr (s : State) (c u d g : Nat) : (s.recordF c u d g).freeCtr = s.freeCtr := rfl
@[simp] theorem State.recordF_out (s : State) (c u d g : Nat) : (s.recordF c u d g).out = s.out := rfl
@[simp] theorem State.recordF_outWait (s : State) (c u d g : Nat) : (s.recordF c u d g).outWait = s.outWait := rfl
@[simp] theorem State.recordF_eng (s : State) (c u d g : Nat) : (s.recordF c u d g).eng = s.eng := rfl
@[simp] theorem State.recordF_hoard (s : State) (c u d g : Nat) : (s.recordF c u d g).hoard = s.hoard := rfl
@[simp] theorem State.recordF_prs (s : State) (c u d g : Nat) : (s.recordF c u d g).prs = s.prs := rfl
@[simp] theorem State.recordF_hif (s : State) (c u d g : Nat) : (s.recordF c u d g).hif = s.hif := rfl
@[simp] theorem State.recordF_pcie (s : State) (c u d g : Nat) : (s.recordF c u d g).pcie = s.pcie := rfl
@[simp] theorem State.recordF_ports (s : State) (c u d g : Nat) : (s.recordF c u d g).ports = s.ports := rfl
@[simp] theorem State.recordF_cans (s : State) (c u d g : Nat) : (s.recordF c u d g).cans = s.cans := rfl
@[simp] theorem State.recordF_video (s : State) (c u d g : Nat) : (s.recordF c u d g).video = s.video := rfl
@[simp] theorem State.recordF_pio (s : State) (c u d g : Nat) : (s.recordF c u d g).pio = s.pio := rfl
@[simp] theorem State.recordF_vidDrain (s : State) (c u d g : Nat) : (s.recordF c u d g).vidDrain = s.vidDrain := rfl
@[simp] theorem State.recordF_hearth (s : State) (c u d g : Nat) : (s.recordF c u d g).hearth = s.hearth := rfl
@[simp] theorem State.recordF_time (s : State) (c u d g : Nat) : (s.recordF c u d g).time = s.time := rfl
@[simp] theorem State.recordF_chain (s : State) (c u d g : Nat) : (s.recordF c u d g).chain = s.chain := rfl
@[simp] theorem State.recordF_loops (s : State) (c u d g : Nat) : (s.recordF c u d g).loops = s.loops := rfl
@[simp] theorem State.recordF_lsw (s : State) (c u d g : Nat) : (s.recordF c u d g).lsw = s.lsw := rfl
@[simp] theorem State.recordF_tongs (s : State) (c u d g : Nat) : (s.recordF c u d g).tongs = s.tongs := rfl
@[simp] theorem State.recordF_tmr (s : State) (c u d g : Nat) : (s.recordF c u d g).tmr = s.tmr := rfl
@[simp] theorem State.recordF_pend (s : State) (c u d g : Nat) : (s.recordF c u d g).pend = s.pend := rfl
@[simp] theorem State.recordF_power (s : State) (c u d g : Nat) : (s.recordF c u d g).power = s.power := rfl
@[simp] theorem State.recordF_ing (s : State) (c u d g : Nat) : (s.recordF c u d g).ing = s.ing := rfl
@[simp] theorem State.recordF_temper (s : State) (c u d g : Nat) : (s.recordF c u d g).temper = s.temper := rfl
@[simp] theorem State.recordF_sec (s : State) (c u d g : Nat) : (s.recordF c u d g).sec = s.sec := rfl
@[simp] theorem State.recordF_tap (s : State) (c u d g : Nat) : (s.recordF c u d g).tap = s.tap := rfl
@[simp] theorem State.recordF_collect (s : State) (c u d g : Nat) : (s.recordF c u d g).collect = s.collect := rfl
@[simp] theorem State.recordF_pending (s : State) (c u d g : Nat) : (s.recordF c u d g).pending = s.pending := rfl

/-! ### record -/

@[simp] theorem State.record_caps (s : State) (c u d : Nat) : (s.record c u d).caps = s.caps := rfl
@[simp] theorem State.record_held (s : State) (c u d : Nat) : (s.record c u d).held = s.held := rfl
@[simp] theorem State.record_mem (s : State) (c u d : Nat) : (s.record c u d).mem = s.mem := rfl
@[simp] theorem State.record_eccUnc (s : State) (c u d : Nat) : (s.record c u d).eccUnc = s.eccUnc := rfl
@[simp] theorem State.record_eccOne (s : State) (c u d : Nat) : (s.record c u d).eccOne = s.eccOne := rfl
@[simp] theorem State.record_tb (s : State) (c u d : Nat) : (s.record c u d).tb = s.tb := rfl
@[simp] theorem State.record_freeCtr (s : State) (c u d : Nat) : (s.record c u d).freeCtr = s.freeCtr := rfl
@[simp] theorem State.record_out (s : State) (c u d : Nat) : (s.record c u d).out = s.out := rfl
@[simp] theorem State.record_outWait (s : State) (c u d : Nat) : (s.record c u d).outWait = s.outWait := rfl
@[simp] theorem State.record_eng (s : State) (c u d : Nat) : (s.record c u d).eng = s.eng := rfl
@[simp] theorem State.record_hoard (s : State) (c u d : Nat) : (s.record c u d).hoard = s.hoard := rfl
@[simp] theorem State.record_prs (s : State) (c u d : Nat) : (s.record c u d).prs = s.prs := rfl
@[simp] theorem State.record_hif (s : State) (c u d : Nat) : (s.record c u d).hif = s.hif := rfl
@[simp] theorem State.record_pcie (s : State) (c u d : Nat) : (s.record c u d).pcie = s.pcie := rfl
@[simp] theorem State.record_ports (s : State) (c u d : Nat) : (s.record c u d).ports = s.ports := rfl
@[simp] theorem State.record_cans (s : State) (c u d : Nat) : (s.record c u d).cans = s.cans := rfl
@[simp] theorem State.record_video (s : State) (c u d : Nat) : (s.record c u d).video = s.video := rfl
@[simp] theorem State.record_pio (s : State) (c u d : Nat) : (s.record c u d).pio = s.pio := rfl
@[simp] theorem State.record_vidDrain (s : State) (c u d : Nat) : (s.record c u d).vidDrain = s.vidDrain := rfl
@[simp] theorem State.record_hearth (s : State) (c u d : Nat) : (s.record c u d).hearth = s.hearth := rfl
@[simp] theorem State.record_time (s : State) (c u d : Nat) : (s.record c u d).time = s.time := rfl
@[simp] theorem State.record_chain (s : State) (c u d : Nat) : (s.record c u d).chain = s.chain := rfl
@[simp] theorem State.record_loops (s : State) (c u d : Nat) : (s.record c u d).loops = s.loops := rfl
@[simp] theorem State.record_lsw (s : State) (c u d : Nat) : (s.record c u d).lsw = s.lsw := rfl
@[simp] theorem State.record_tongs (s : State) (c u d : Nat) : (s.record c u d).tongs = s.tongs := rfl
@[simp] theorem State.record_tmr (s : State) (c u d : Nat) : (s.record c u d).tmr = s.tmr := rfl
@[simp] theorem State.record_pend (s : State) (c u d : Nat) : (s.record c u d).pend = s.pend := rfl
@[simp] theorem State.record_power (s : State) (c u d : Nat) : (s.record c u d).power = s.power := rfl
@[simp] theorem State.record_ing (s : State) (c u d : Nat) : (s.record c u d).ing = s.ing := rfl
@[simp] theorem State.record_temper (s : State) (c u d : Nat) : (s.record c u d).temper = s.temper := rfl
@[simp] theorem State.record_sec (s : State) (c u d : Nat) : (s.record c u d).sec = s.sec := rfl
@[simp] theorem State.record_tap (s : State) (c u d : Nat) : (s.record c u d).tap = s.tap := rfl
@[simp] theorem State.record_collect (s : State) (c u d : Nat) : (s.record c u d).collect = s.collect := rfl
@[simp] theorem State.record_pending (s : State) (c u d : Nat) : (s.record c u d).pending = s.pending := rfl

/-! ### addTb -/

@[simp] theorem State.addTb_regs (s : State) (x : Int) : (s.addTb x).regs = s.regs := rfl
@[simp] theorem State.addTb_caps (s : State) (x : Int) : (s.addTb x).caps = s.caps := rfl
@[simp] theorem State.addTb_held (s : State) (x : Int) : (s.addTb x).held = s.held := rfl
@[simp] theorem State.addTb_mem (s : State) (x : Int) : (s.addTb x).mem = s.mem := rfl
@[simp] theorem State.addTb_eccUnc (s : State) (x : Int) : (s.addTb x).eccUnc = s.eccUnc := rfl
@[simp] theorem State.addTb_eccOne (s : State) (x : Int) : (s.addTb x).eccOne = s.eccOne := rfl
@[simp] theorem State.addTb_freeCtr (s : State) (x : Int) : (s.addTb x).freeCtr = s.freeCtr := rfl
@[simp] theorem State.addTb_out (s : State) (x : Int) : (s.addTb x).out = s.out := rfl
@[simp] theorem State.addTb_outWait (s : State) (x : Int) : (s.addTb x).outWait = s.outWait := rfl
@[simp] theorem State.addTb_ledger (s : State) (x : Int) : (s.addTb x).ledger = s.ledger := rfl
@[simp] theorem State.addTb_eng (s : State) (x : Int) : (s.addTb x).eng = s.eng := rfl
@[simp] theorem State.addTb_hoard (s : State) (x : Int) : (s.addTb x).hoard = s.hoard := rfl
@[simp] theorem State.addTb_prs (s : State) (x : Int) : (s.addTb x).prs = s.prs := rfl
@[simp] theorem State.addTb_hif (s : State) (x : Int) : (s.addTb x).hif = s.hif := rfl
@[simp] theorem State.addTb_pcie (s : State) (x : Int) : (s.addTb x).pcie = s.pcie := rfl
@[simp] theorem State.addTb_ports (s : State) (x : Int) : (s.addTb x).ports = s.ports := rfl
@[simp] theorem State.addTb_cans (s : State) (x : Int) : (s.addTb x).cans = s.cans := rfl
@[simp] theorem State.addTb_video (s : State) (x : Int) : (s.addTb x).video = s.video := rfl
@[simp] theorem State.addTb_pio (s : State) (x : Int) : (s.addTb x).pio = s.pio := rfl
@[simp] theorem State.addTb_vidDrain (s : State) (x : Int) : (s.addTb x).vidDrain = s.vidDrain := rfl
@[simp] theorem State.addTb_hearth (s : State) (x : Int) : (s.addTb x).hearth = s.hearth := rfl
@[simp] theorem State.addTb_time (s : State) (x : Int) : (s.addTb x).time = s.time := rfl
@[simp] theorem State.addTb_chain (s : State) (x : Int) : (s.addTb x).chain = s.chain := rfl
@[simp] theorem State.addTb_loops (s : State) (x : Int) : (s.addTb x).loops = s.loops := rfl
@[simp] theorem State.addTb_lsw (s : State) (x : Int) : (s.addTb x).lsw = s.lsw := rfl
@[simp] theorem State.addTb_tongs (s : State) (x : Int) : (s.addTb x).tongs = s.tongs := rfl
@[simp] theorem State.addTb_tmr (s : State) (x : Int) : (s.addTb x).tmr = s.tmr := rfl
@[simp] theorem State.addTb_pend (s : State) (x : Int) : (s.addTb x).pend = s.pend := rfl
@[simp] theorem State.addTb_power (s : State) (x : Int) : (s.addTb x).power = s.power := rfl
@[simp] theorem State.addTb_ing (s : State) (x : Int) : (s.addTb x).ing = s.ing := rfl
@[simp] theorem State.addTb_temper (s : State) (x : Int) : (s.addTb x).temper = s.temper := rfl
@[simp] theorem State.addTb_sec (s : State) (x : Int) : (s.addTb x).sec = s.sec := rfl
@[simp] theorem State.addTb_tap (s : State) (x : Int) : (s.addTb x).tap = s.tap := rfl
@[simp] theorem State.addTb_collect (s : State) (x : Int) : (s.addTb x).collect = s.collect := rfl
@[simp] theorem State.addTb_pending (s : State) (x : Int) : (s.addTb x).pending = s.pending := rfl

/-! ### modEng -/

@[simp] theorem State.modEng_regs (s : State) (e : Nat) (f : Eng → Eng) : (s.modEng e f).regs = s.regs := rfl
@[simp] theorem State.modEng_caps (s : State) (e : Nat) (f : Eng → Eng) : (s.modEng e f).caps = s.caps := rfl
@[simp] theorem State.modEng_held (s : State) (e : Nat) (f : Eng → Eng) : (s.modEng e f).held = s.held := rfl
@[simp] theorem State.modEng_mem (s : State) (e : Nat) (f : Eng → Eng) : (s.modEng e f).mem = s.mem := rfl
@[simp] theorem State.modEng_eccUnc (s : State) (e : Nat) (f : Eng → Eng) : (s.modEng e f).eccUnc = s.eccUnc := rfl
@[simp] theorem State.modEng_eccOne (s : State) (e : Nat) (f : Eng → Eng) : (s.modEng e f).eccOne = s.eccOne := rfl
@[simp] theorem State.modEng_tb (s : State) (e : Nat) (f : Eng → Eng) : (s.modEng e f).tb = s.tb := rfl
@[simp] theorem State.modEng_freeCtr (s : State) (e : Nat) (f : Eng → Eng) : (s.modEng e f).freeCtr = s.freeCtr := rfl
@[simp] theorem State.modEng_out (s : State) (e : Nat) (f : Eng → Eng) : (s.modEng e f).out = s.out := rfl
@[simp] theorem State.modEng_outWait (s : State) (e : Nat) (f : Eng → Eng) : (s.modEng e f).outWait = s.outWait := rfl
@[simp] theorem State.modEng_ledger (s : State) (e : Nat) (f : Eng → Eng) : (s.modEng e f).ledger = s.ledger := rfl
@[simp] theorem State.modEng_hoard (s : State) (e : Nat) (f : Eng → Eng) : (s.modEng e f).hoard = s.hoard := rfl
@[simp] theorem State.modEng_prs (s : State) (e : Nat) (f : Eng → Eng) : (s.modEng e f).prs = s.prs := rfl
@[simp] theorem State.modEng_hif (s : State) (e : Nat) (f : Eng → Eng) : (s.modEng e f).hif = s.hif := rfl
@[simp] theorem State.modEng_pcie (s : State) (e : Nat) (f : Eng → Eng) : (s.modEng e f).pcie = s.pcie := rfl
@[simp] theorem State.modEng_ports (s : State) (e : Nat) (f : Eng → Eng) : (s.modEng e f).ports = s.ports := rfl
@[simp] theorem State.modEng_cans (s : State) (e : Nat) (f : Eng → Eng) : (s.modEng e f).cans = s.cans := rfl
@[simp] theorem State.modEng_video (s : State) (e : Nat) (f : Eng → Eng) : (s.modEng e f).video = s.video := rfl
@[simp] theorem State.modEng_pio (s : State) (e : Nat) (f : Eng → Eng) : (s.modEng e f).pio = s.pio := rfl
@[simp] theorem State.modEng_vidDrain (s : State) (e : Nat) (f : Eng → Eng) : (s.modEng e f).vidDrain = s.vidDrain := rfl
@[simp] theorem State.modEng_hearth (s : State) (e : Nat) (f : Eng → Eng) : (s.modEng e f).hearth = s.hearth := rfl
@[simp] theorem State.modEng_time (s : State) (e : Nat) (f : Eng → Eng) : (s.modEng e f).time = s.time := rfl
@[simp] theorem State.modEng_chain (s : State) (e : Nat) (f : Eng → Eng) : (s.modEng e f).chain = s.chain := rfl
@[simp] theorem State.modEng_loops (s : State) (e : Nat) (f : Eng → Eng) : (s.modEng e f).loops = s.loops := rfl
@[simp] theorem State.modEng_lsw (s : State) (e : Nat) (f : Eng → Eng) : (s.modEng e f).lsw = s.lsw := rfl
@[simp] theorem State.modEng_tongs (s : State) (e : Nat) (f : Eng → Eng) : (s.modEng e f).tongs = s.tongs := rfl
@[simp] theorem State.modEng_tmr (s : State) (e : Nat) (f : Eng → Eng) : (s.modEng e f).tmr = s.tmr := rfl
@[simp] theorem State.modEng_pend (s : State) (e : Nat) (f : Eng → Eng) : (s.modEng e f).pend = s.pend := rfl
@[simp] theorem State.modEng_power (s : State) (e : Nat) (f : Eng → Eng) : (s.modEng e f).power = s.power := rfl
@[simp] theorem State.modEng_ing (s : State) (e : Nat) (f : Eng → Eng) : (s.modEng e f).ing = s.ing := rfl
@[simp] theorem State.modEng_temper (s : State) (e : Nat) (f : Eng → Eng) : (s.modEng e f).temper = s.temper := rfl
@[simp] theorem State.modEng_sec (s : State) (e : Nat) (f : Eng → Eng) : (s.modEng e f).sec = s.sec := rfl
@[simp] theorem State.modEng_tap (s : State) (e : Nat) (f : Eng → Eng) : (s.modEng e f).tap = s.tap := rfl
@[simp] theorem State.modEng_collect (s : State) (e : Nat) (f : Eng → Eng) : (s.modEng e f).collect = s.collect := rfl
@[simp] theorem State.modEng_pending (s : State) (e : Nat) (f : Eng → Eng) : (s.modEng e f).pending = s.pending := rfl

/-! ### modRing -/

@[simp] theorem State.modRing_regs (s : State) (n : Nat) (f : Ring → Ring) : (s.modRing n f).regs = s.regs := rfl
@[simp] theorem State.modRing_caps (s : State) (n : Nat) (f : Ring → Ring) : (s.modRing n f).caps = s.caps := rfl
@[simp] theorem State.modRing_held (s : State) (n : Nat) (f : Ring → Ring) : (s.modRing n f).held = s.held := rfl
@[simp] theorem State.modRing_mem (s : State) (n : Nat) (f : Ring → Ring) : (s.modRing n f).mem = s.mem := rfl
@[simp] theorem State.modRing_eccUnc (s : State) (n : Nat) (f : Ring → Ring) : (s.modRing n f).eccUnc = s.eccUnc := rfl
@[simp] theorem State.modRing_eccOne (s : State) (n : Nat) (f : Ring → Ring) : (s.modRing n f).eccOne = s.eccOne := rfl
@[simp] theorem State.modRing_tb (s : State) (n : Nat) (f : Ring → Ring) : (s.modRing n f).tb = s.tb := rfl
@[simp] theorem State.modRing_freeCtr (s : State) (n : Nat) (f : Ring → Ring) : (s.modRing n f).freeCtr = s.freeCtr := rfl
@[simp] theorem State.modRing_out (s : State) (n : Nat) (f : Ring → Ring) : (s.modRing n f).out = s.out := rfl
@[simp] theorem State.modRing_outWait (s : State) (n : Nat) (f : Ring → Ring) : (s.modRing n f).outWait = s.outWait := rfl
@[simp] theorem State.modRing_ledger (s : State) (n : Nat) (f : Ring → Ring) : (s.modRing n f).ledger = s.ledger := rfl
@[simp] theorem State.modRing_eng (s : State) (n : Nat) (f : Ring → Ring) : (s.modRing n f).eng = s.eng := rfl
@[simp] theorem State.modRing_hoard (s : State) (n : Nat) (f : Ring → Ring) : (s.modRing n f).hoard = s.hoard := rfl
@[simp] theorem State.modRing_prs (s : State) (n : Nat) (f : Ring → Ring) : (s.modRing n f).prs = s.prs := rfl
@[simp] theorem State.modRing_pcie (s : State) (n : Nat) (f : Ring → Ring) : (s.modRing n f).pcie = s.pcie := rfl
@[simp] theorem State.modRing_ports (s : State) (n : Nat) (f : Ring → Ring) : (s.modRing n f).ports = s.ports := rfl
@[simp] theorem State.modRing_cans (s : State) (n : Nat) (f : Ring → Ring) : (s.modRing n f).cans = s.cans := rfl
@[simp] theorem State.modRing_video (s : State) (n : Nat) (f : Ring → Ring) : (s.modRing n f).video = s.video := rfl
@[simp] theorem State.modRing_pio (s : State) (n : Nat) (f : Ring → Ring) : (s.modRing n f).pio = s.pio := rfl
@[simp] theorem State.modRing_vidDrain (s : State) (n : Nat) (f : Ring → Ring) : (s.modRing n f).vidDrain = s.vidDrain := rfl
@[simp] theorem State.modRing_hearth (s : State) (n : Nat) (f : Ring → Ring) : (s.modRing n f).hearth = s.hearth := rfl
@[simp] theorem State.modRing_time (s : State) (n : Nat) (f : Ring → Ring) : (s.modRing n f).time = s.time := rfl
@[simp] theorem State.modRing_chain (s : State) (n : Nat) (f : Ring → Ring) : (s.modRing n f).chain = s.chain := rfl
@[simp] theorem State.modRing_loops (s : State) (n : Nat) (f : Ring → Ring) : (s.modRing n f).loops = s.loops := rfl
@[simp] theorem State.modRing_lsw (s : State) (n : Nat) (f : Ring → Ring) : (s.modRing n f).lsw = s.lsw := rfl
@[simp] theorem State.modRing_tongs (s : State) (n : Nat) (f : Ring → Ring) : (s.modRing n f).tongs = s.tongs := rfl
@[simp] theorem State.modRing_tmr (s : State) (n : Nat) (f : Ring → Ring) : (s.modRing n f).tmr = s.tmr := rfl
@[simp] theorem State.modRing_pend (s : State) (n : Nat) (f : Ring → Ring) : (s.modRing n f).pend = s.pend := rfl
@[simp] theorem State.modRing_power (s : State) (n : Nat) (f : Ring → Ring) : (s.modRing n f).power = s.power := rfl
@[simp] theorem State.modRing_ing (s : State) (n : Nat) (f : Ring → Ring) : (s.modRing n f).ing = s.ing := rfl
@[simp] theorem State.modRing_temper (s : State) (n : Nat) (f : Ring → Ring) : (s.modRing n f).temper = s.temper := rfl
@[simp] theorem State.modRing_sec (s : State) (n : Nat) (f : Ring → Ring) : (s.modRing n f).sec = s.sec := rfl
@[simp] theorem State.modRing_tap (s : State) (n : Nat) (f : Ring → Ring) : (s.modRing n f).tap = s.tap := rfl
@[simp] theorem State.modRing_collect (s : State) (n : Nat) (f : Ring → Ring) : (s.modRing n f).collect = s.collect := rfl
@[simp] theorem State.modRing_pending (s : State) (n : Nat) (f : Ring → Ring) : (s.modRing n f).pending = s.pending := rfl

/-! ### modPort -/

@[simp] theorem State.modPort_regs (s : State) (p : Nat) (f : Port → Port) : (s.modPort p f).regs = s.regs := rfl
@[simp] theorem State.modPort_caps (s : State) (p : Nat) (f : Port → Port) : (s.modPort p f).caps = s.caps := rfl
@[simp] theorem State.modPort_held (s : State) (p : Nat) (f : Port → Port) : (s.modPort p f).held = s.held := rfl
@[simp] theorem State.modPort_mem (s : State) (p : Nat) (f : Port → Port) : (s.modPort p f).mem = s.mem := rfl
@[simp] theorem State.modPort_eccUnc (s : State) (p : Nat) (f : Port → Port) : (s.modPort p f).eccUnc = s.eccUnc := rfl
@[simp] theorem State.modPort_eccOne (s : State) (p : Nat) (f : Port → Port) : (s.modPort p f).eccOne = s.eccOne := rfl
@[simp] theorem State.modPort_tb (s : State) (p : Nat) (f : Port → Port) : (s.modPort p f).tb = s.tb := rfl
@[simp] theorem State.modPort_freeCtr (s : State) (p : Nat) (f : Port → Port) : (s.modPort p f).freeCtr = s.freeCtr := rfl
@[simp] theorem State.modPort_out (s : State) (p : Nat) (f : Port → Port) : (s.modPort p f).out = s.out := rfl
@[simp] theorem State.modPort_outWait (s : State) (p : Nat) (f : Port → Port) : (s.modPort p f).outWait = s.outWait := rfl
@[simp] theorem State.modPort_ledger (s : State) (p : Nat) (f : Port → Port) : (s.modPort p f).ledger = s.ledger := rfl
@[simp] theorem State.modPort_eng (s : State) (p : Nat) (f : Port → Port) : (s.modPort p f).eng = s.eng := rfl
@[simp] theorem State.modPort_hoard (s : State) (p : Nat) (f : Port → Port) : (s.modPort p f).hoard = s.hoard := rfl
@[simp] theorem State.modPort_prs (s : State) (p : Nat) (f : Port → Port) : (s.modPort p f).prs = s.prs := rfl
@[simp] theorem State.modPort_hif (s : State) (p : Nat) (f : Port → Port) : (s.modPort p f).hif = s.hif := rfl
@[simp] theorem State.modPort_pcie (s : State) (p : Nat) (f : Port → Port) : (s.modPort p f).pcie = s.pcie := rfl
@[simp] theorem State.modPort_cans (s : State) (p : Nat) (f : Port → Port) : (s.modPort p f).cans = s.cans := rfl
@[simp] theorem State.modPort_video (s : State) (p : Nat) (f : Port → Port) : (s.modPort p f).video = s.video := rfl
@[simp] theorem State.modPort_pio (s : State) (p : Nat) (f : Port → Port) : (s.modPort p f).pio = s.pio := rfl
@[simp] theorem State.modPort_vidDrain (s : State) (p : Nat) (f : Port → Port) : (s.modPort p f).vidDrain = s.vidDrain := rfl
@[simp] theorem State.modPort_hearth (s : State) (p : Nat) (f : Port → Port) : (s.modPort p f).hearth = s.hearth := rfl
@[simp] theorem State.modPort_time (s : State) (p : Nat) (f : Port → Port) : (s.modPort p f).time = s.time := rfl
@[simp] theorem State.modPort_chain (s : State) (p : Nat) (f : Port → Port) : (s.modPort p f).chain = s.chain := rfl
@[simp] theorem State.modPort_loops (s : State) (p : Nat) (f : Port → Port) : (s.modPort p f).loops = s.loops := rfl
@[simp] theorem State.modPort_lsw (s : State) (p : Nat) (f : Port → Port) : (s.modPort p f).lsw = s.lsw := rfl
@[simp] theorem State.modPort_tongs (s : State) (p : Nat) (f : Port → Port) : (s.modPort p f).tongs = s.tongs := rfl
@[simp] theorem State.modPort_tmr (s : State) (p : Nat) (f : Port → Port) : (s.modPort p f).tmr = s.tmr := rfl
@[simp] theorem State.modPort_pend (s : State) (p : Nat) (f : Port → Port) : (s.modPort p f).pend = s.pend := rfl
@[simp] theorem State.modPort_power (s : State) (p : Nat) (f : Port → Port) : (s.modPort p f).power = s.power := rfl
@[simp] theorem State.modPort_ing (s : State) (p : Nat) (f : Port → Port) : (s.modPort p f).ing = s.ing := rfl
@[simp] theorem State.modPort_temper (s : State) (p : Nat) (f : Port → Port) : (s.modPort p f).temper = s.temper := rfl
@[simp] theorem State.modPort_sec (s : State) (p : Nat) (f : Port → Port) : (s.modPort p f).sec = s.sec := rfl
@[simp] theorem State.modPort_tap (s : State) (p : Nat) (f : Port → Port) : (s.modPort p f).tap = s.tap := rfl
@[simp] theorem State.modPort_collect (s : State) (p : Nat) (f : Port → Port) : (s.modPort p f).collect = s.collect := rfl
@[simp] theorem State.modPort_pending (s : State) (p : Nat) (f : Port → Port) : (s.modPort p f).pending = s.pending := rfl

/-! ### modHoard -/

@[simp] theorem State.modHoard_regs (s : State) (f : Hoard → Hoard) : (s.modHoard f).regs = s.regs := rfl
@[simp] theorem State.modHoard_caps (s : State) (f : Hoard → Hoard) : (s.modHoard f).caps = s.caps := rfl
@[simp] theorem State.modHoard_held (s : State) (f : Hoard → Hoard) : (s.modHoard f).held = s.held := rfl
@[simp] theorem State.modHoard_mem (s : State) (f : Hoard → Hoard) : (s.modHoard f).mem = s.mem := rfl
@[simp] theorem State.modHoard_eccUnc (s : State) (f : Hoard → Hoard) : (s.modHoard f).eccUnc = s.eccUnc := rfl
@[simp] theorem State.modHoard_eccOne (s : State) (f : Hoard → Hoard) : (s.modHoard f).eccOne = s.eccOne := rfl
@[simp] theorem State.modHoard_tb (s : State) (f : Hoard → Hoard) : (s.modHoard f).tb = s.tb := rfl
@[simp] theorem State.modHoard_freeCtr (s : State) (f : Hoard → Hoard) : (s.modHoard f).freeCtr = s.freeCtr := rfl
@[simp] theorem State.modHoard_out (s : State) (f : Hoard → Hoard) : (s.modHoard f).out = s.out := rfl
@[simp] theorem State.modHoard_outWait (s : State) (f : Hoard → Hoard) : (s.modHoard f).outWait = s.outWait := rfl
@[simp] theorem State.modHoard_ledger (s : State) (f : Hoard → Hoard) : (s.modHoard f).ledger = s.ledger := rfl
@[simp] theorem State.modHoard_eng (s : State) (f : Hoard → Hoard) : (s.modHoard f).eng = s.eng := rfl
@[simp] theorem State.modHoard_prs (s : State) (f : Hoard → Hoard) : (s.modHoard f).prs = s.prs := rfl
@[simp] theorem State.modHoard_hif (s : State) (f : Hoard → Hoard) : (s.modHoard f).hif = s.hif := rfl
@[simp] theorem State.modHoard_pcie (s : State) (f : Hoard → Hoard) : (s.modHoard f).pcie = s.pcie := rfl
@[simp] theorem State.modHoard_ports (s : State) (f : Hoard → Hoard) : (s.modHoard f).ports = s.ports := rfl
@[simp] theorem State.modHoard_cans (s : State) (f : Hoard → Hoard) : (s.modHoard f).cans = s.cans := rfl
@[simp] theorem State.modHoard_video (s : State) (f : Hoard → Hoard) : (s.modHoard f).video = s.video := rfl
@[simp] theorem State.modHoard_pio (s : State) (f : Hoard → Hoard) : (s.modHoard f).pio = s.pio := rfl
@[simp] theorem State.modHoard_vidDrain (s : State) (f : Hoard → Hoard) : (s.modHoard f).vidDrain = s.vidDrain := rfl
@[simp] theorem State.modHoard_hearth (s : State) (f : Hoard → Hoard) : (s.modHoard f).hearth = s.hearth := rfl
@[simp] theorem State.modHoard_time (s : State) (f : Hoard → Hoard) : (s.modHoard f).time = s.time := rfl
@[simp] theorem State.modHoard_chain (s : State) (f : Hoard → Hoard) : (s.modHoard f).chain = s.chain := rfl
@[simp] theorem State.modHoard_loops (s : State) (f : Hoard → Hoard) : (s.modHoard f).loops = s.loops := rfl
@[simp] theorem State.modHoard_lsw (s : State) (f : Hoard → Hoard) : (s.modHoard f).lsw = s.lsw := rfl
@[simp] theorem State.modHoard_tongs (s : State) (f : Hoard → Hoard) : (s.modHoard f).tongs = s.tongs := rfl
@[simp] theorem State.modHoard_tmr (s : State) (f : Hoard → Hoard) : (s.modHoard f).tmr = s.tmr := rfl
@[simp] theorem State.modHoard_pend (s : State) (f : Hoard → Hoard) : (s.modHoard f).pend = s.pend := rfl
@[simp] theorem State.modHoard_power (s : State) (f : Hoard → Hoard) : (s.modHoard f).power = s.power := rfl
@[simp] theorem State.modHoard_ing (s : State) (f : Hoard → Hoard) : (s.modHoard f).ing = s.ing := rfl
@[simp] theorem State.modHoard_temper (s : State) (f : Hoard → Hoard) : (s.modHoard f).temper = s.temper := rfl
@[simp] theorem State.modHoard_sec (s : State) (f : Hoard → Hoard) : (s.modHoard f).sec = s.sec := rfl
@[simp] theorem State.modHoard_tap (s : State) (f : Hoard → Hoard) : (s.modHoard f).tap = s.tap := rfl
@[simp] theorem State.modHoard_collect (s : State) (f : Hoard → Hoard) : (s.modHoard f).collect = s.collect := rfl
@[simp] theorem State.modHoard_pending (s : State) (f : Hoard → Hoard) : (s.modHoard f).pending = s.pending := rfl

/-! ### modChain -/

@[simp] theorem State.modChain_regs (s : State) (f : Chain → Chain) : (s.modChain f).regs = s.regs := rfl
@[simp] theorem State.modChain_caps (s : State) (f : Chain → Chain) : (s.modChain f).caps = s.caps := rfl
@[simp] theorem State.modChain_held (s : State) (f : Chain → Chain) : (s.modChain f).held = s.held := rfl
@[simp] theorem State.modChain_mem (s : State) (f : Chain → Chain) : (s.modChain f).mem = s.mem := rfl
@[simp] theorem State.modChain_eccUnc (s : State) (f : Chain → Chain) : (s.modChain f).eccUnc = s.eccUnc := rfl
@[simp] theorem State.modChain_eccOne (s : State) (f : Chain → Chain) : (s.modChain f).eccOne = s.eccOne := rfl
@[simp] theorem State.modChain_tb (s : State) (f : Chain → Chain) : (s.modChain f).tb = s.tb := rfl
@[simp] theorem State.modChain_freeCtr (s : State) (f : Chain → Chain) : (s.modChain f).freeCtr = s.freeCtr := rfl
@[simp] theorem State.modChain_out (s : State) (f : Chain → Chain) : (s.modChain f).out = s.out := rfl
@[simp] theorem State.modChain_outWait (s : State) (f : Chain → Chain) : (s.modChain f).outWait = s.outWait := rfl
@[simp] theorem State.modChain_ledger (s : State) (f : Chain → Chain) : (s.modChain f).ledger = s.ledger := rfl
@[simp] theorem State.modChain_eng (s : State) (f : Chain → Chain) : (s.modChain f).eng = s.eng := rfl
@[simp] theorem State.modChain_hoard (s : State) (f : Chain → Chain) : (s.modChain f).hoard = s.hoard := rfl
@[simp] theorem State.modChain_prs (s : State) (f : Chain → Chain) : (s.modChain f).prs = s.prs := rfl
@[simp] theorem State.modChain_hif (s : State) (f : Chain → Chain) : (s.modChain f).hif = s.hif := rfl
@[simp] theorem State.modChain_pcie (s : State) (f : Chain → Chain) : (s.modChain f).pcie = s.pcie := rfl
@[simp] theorem State.modChain_ports (s : State) (f : Chain → Chain) : (s.modChain f).ports = s.ports := rfl
@[simp] theorem State.modChain_cans (s : State) (f : Chain → Chain) : (s.modChain f).cans = s.cans := rfl
@[simp] theorem State.modChain_video (s : State) (f : Chain → Chain) : (s.modChain f).video = s.video := rfl
@[simp] theorem State.modChain_pio (s : State) (f : Chain → Chain) : (s.modChain f).pio = s.pio := rfl
@[simp] theorem State.modChain_vidDrain (s : State) (f : Chain → Chain) : (s.modChain f).vidDrain = s.vidDrain := rfl
@[simp] theorem State.modChain_hearth (s : State) (f : Chain → Chain) : (s.modChain f).hearth = s.hearth := rfl
@[simp] theorem State.modChain_time (s : State) (f : Chain → Chain) : (s.modChain f).time = s.time := rfl
@[simp] theorem State.modChain_loops (s : State) (f : Chain → Chain) : (s.modChain f).loops = s.loops := rfl
@[simp] theorem State.modChain_lsw (s : State) (f : Chain → Chain) : (s.modChain f).lsw = s.lsw := rfl
@[simp] theorem State.modChain_tongs (s : State) (f : Chain → Chain) : (s.modChain f).tongs = s.tongs := rfl
@[simp] theorem State.modChain_tmr (s : State) (f : Chain → Chain) : (s.modChain f).tmr = s.tmr := rfl
@[simp] theorem State.modChain_pend (s : State) (f : Chain → Chain) : (s.modChain f).pend = s.pend := rfl
@[simp] theorem State.modChain_power (s : State) (f : Chain → Chain) : (s.modChain f).power = s.power := rfl
@[simp] theorem State.modChain_ing (s : State) (f : Chain → Chain) : (s.modChain f).ing = s.ing := rfl
@[simp] theorem State.modChain_temper (s : State) (f : Chain → Chain) : (s.modChain f).temper = s.temper := rfl
@[simp] theorem State.modChain_sec (s : State) (f : Chain → Chain) : (s.modChain f).sec = s.sec := rfl
@[simp] theorem State.modChain_tap (s : State) (f : Chain → Chain) : (s.modChain f).tap = s.tap := rfl
@[simp] theorem State.modChain_collect (s : State) (f : Chain → Chain) : (s.modChain f).collect = s.collect := rfl
@[simp] theorem State.modChain_pending (s : State) (f : Chain → Chain) : (s.modChain f).pending = s.pending := rfl

/-! ### modHearth -/

@[simp] theorem State.modHearth_regs (s : State) (f : Hearth → Hearth) : (s.modHearth f).regs = s.regs := rfl
@[simp] theorem State.modHearth_caps (s : State) (f : Hearth → Hearth) : (s.modHearth f).caps = s.caps := rfl
@[simp] theorem State.modHearth_held (s : State) (f : Hearth → Hearth) : (s.modHearth f).held = s.held := rfl
@[simp] theorem State.modHearth_mem (s : State) (f : Hearth → Hearth) : (s.modHearth f).mem = s.mem := rfl
@[simp] theorem State.modHearth_eccUnc (s : State) (f : Hearth → Hearth) : (s.modHearth f).eccUnc = s.eccUnc := rfl
@[simp] theorem State.modHearth_eccOne (s : State) (f : Hearth → Hearth) : (s.modHearth f).eccOne = s.eccOne := rfl
@[simp] theorem State.modHearth_tb (s : State) (f : Hearth → Hearth) : (s.modHearth f).tb = s.tb := rfl
@[simp] theorem State.modHearth_freeCtr (s : State) (f : Hearth → Hearth) : (s.modHearth f).freeCtr = s.freeCtr := rfl
@[simp] theorem State.modHearth_out (s : State) (f : Hearth → Hearth) : (s.modHearth f).out = s.out := rfl
@[simp] theorem State.modHearth_outWait (s : State) (f : Hearth → Hearth) : (s.modHearth f).outWait = s.outWait := rfl
@[simp] theorem State.modHearth_ledger (s : State) (f : Hearth → Hearth) : (s.modHearth f).ledger = s.ledger := rfl
@[simp] theorem State.modHearth_eng (s : State) (f : Hearth → Hearth) : (s.modHearth f).eng = s.eng := rfl
@[simp] theorem State.modHearth_hoard (s : State) (f : Hearth → Hearth) : (s.modHearth f).hoard = s.hoard := rfl
@[simp] theorem State.modHearth_prs (s : State) (f : Hearth → Hearth) : (s.modHearth f).prs = s.prs := rfl
@[simp] theorem State.modHearth_hif (s : State) (f : Hearth → Hearth) : (s.modHearth f).hif = s.hif := rfl
@[simp] theorem State.modHearth_pcie (s : State) (f : Hearth → Hearth) : (s.modHearth f).pcie = s.pcie := rfl
@[simp] theorem State.modHearth_ports (s : State) (f : Hearth → Hearth) : (s.modHearth f).ports = s.ports := rfl
@[simp] theorem State.modHearth_cans (s : State) (f : Hearth → Hearth) : (s.modHearth f).cans = s.cans := rfl
@[simp] theorem State.modHearth_video (s : State) (f : Hearth → Hearth) : (s.modHearth f).video = s.video := rfl
@[simp] theorem State.modHearth_pio (s : State) (f : Hearth → Hearth) : (s.modHearth f).pio = s.pio := rfl
@[simp] theorem State.modHearth_vidDrain (s : State) (f : Hearth → Hearth) : (s.modHearth f).vidDrain = s.vidDrain := rfl
@[simp] theorem State.modHearth_time (s : State) (f : Hearth → Hearth) : (s.modHearth f).time = s.time := rfl
@[simp] theorem State.modHearth_chain (s : State) (f : Hearth → Hearth) : (s.modHearth f).chain = s.chain := rfl
@[simp] theorem State.modHearth_loops (s : State) (f : Hearth → Hearth) : (s.modHearth f).loops = s.loops := rfl
@[simp] theorem State.modHearth_lsw (s : State) (f : Hearth → Hearth) : (s.modHearth f).lsw = s.lsw := rfl
@[simp] theorem State.modHearth_tongs (s : State) (f : Hearth → Hearth) : (s.modHearth f).tongs = s.tongs := rfl
@[simp] theorem State.modHearth_tmr (s : State) (f : Hearth → Hearth) : (s.modHearth f).tmr = s.tmr := rfl
@[simp] theorem State.modHearth_pend (s : State) (f : Hearth → Hearth) : (s.modHearth f).pend = s.pend := rfl
@[simp] theorem State.modHearth_power (s : State) (f : Hearth → Hearth) : (s.modHearth f).power = s.power := rfl
@[simp] theorem State.modHearth_ing (s : State) (f : Hearth → Hearth) : (s.modHearth f).ing = s.ing := rfl
@[simp] theorem State.modHearth_temper (s : State) (f : Hearth → Hearth) : (s.modHearth f).temper = s.temper := rfl
@[simp] theorem State.modHearth_sec (s : State) (f : Hearth → Hearth) : (s.modHearth f).sec = s.sec := rfl
@[simp] theorem State.modHearth_tap (s : State) (f : Hearth → Hearth) : (s.modHearth f).tap = s.tap := rfl
@[simp] theorem State.modHearth_collect (s : State) (f : Hearth → Hearth) : (s.modHearth f).collect = s.collect := rfl
@[simp] theorem State.modHearth_pending (s : State) (f : Hearth → Hearth) : (s.modHearth f).pending = s.pending := rfl

/-! ### modPower -/

@[simp] theorem State.modPower_regs (s : State) (f : Power → Power) : (s.modPower f).regs = s.regs := rfl
@[simp] theorem State.modPower_caps (s : State) (f : Power → Power) : (s.modPower f).caps = s.caps := rfl
@[simp] theorem State.modPower_held (s : State) (f : Power → Power) : (s.modPower f).held = s.held := rfl
@[simp] theorem State.modPower_mem (s : State) (f : Power → Power) : (s.modPower f).mem = s.mem := rfl
@[simp] theorem State.modPower_eccUnc (s : State) (f : Power → Power) : (s.modPower f).eccUnc = s.eccUnc := rfl
@[simp] theorem State.modPower_eccOne (s : State) (f : Power → Power) : (s.modPower f).eccOne = s.eccOne := rfl
@[simp] theorem State.modPower_tb (s : State) (f : Power → Power) : (s.modPower f).tb = s.tb := rfl
@[simp] theorem State.modPower_freeCtr (s : State) (f : Power → Power) : (s.modPower f).freeCtr = s.freeCtr := rfl
@[simp] theorem State.modPower_out (s : State) (f : Power → Power) : (s.modPower f).out = s.out := rfl
@[simp] theorem State.modPower_outWait (s : State) (f : Power → Power) : (s.modPower f).outWait = s.outWait := rfl
@[simp] theorem State.modPower_ledger (s : State) (f : Power → Power) : (s.modPower f).ledger = s.ledger := rfl
@[simp] theorem State.modPower_eng (s : State) (f : Power → Power) : (s.modPower f).eng = s.eng := rfl
@[simp] theorem State.modPower_hoard (s : State) (f : Power → Power) : (s.modPower f).hoard = s.hoard := rfl
@[simp] theorem State.modPower_prs (s : State) (f : Power → Power) : (s.modPower f).prs = s.prs := rfl
@[simp] theorem State.modPower_hif (s : State) (f : Power → Power) : (s.modPower f).hif = s.hif := rfl
@[simp] theorem State.modPower_pcie (s : State) (f : Power → Power) : (s.modPower f).pcie = s.pcie := rfl
@[simp] theorem State.modPower_ports (s : State) (f : Power → Power) : (s.modPower f).ports = s.ports := rfl
@[simp] theorem State.modPower_cans (s : State) (f : Power → Power) : (s.modPower f).cans = s.cans := rfl
@[simp] theorem State.modPower_video (s : State) (f : Power → Power) : (s.modPower f).video = s.video := rfl
@[simp] theorem State.modPower_pio (s : State) (f : Power → Power) : (s.modPower f).pio = s.pio := rfl
@[simp] theorem State.modPower_vidDrain (s : State) (f : Power → Power) : (s.modPower f).vidDrain = s.vidDrain := rfl
@[simp] theorem State.modPower_hearth (s : State) (f : Power → Power) : (s.modPower f).hearth = s.hearth := rfl
@[simp] theorem State.modPower_time (s : State) (f : Power → Power) : (s.modPower f).time = s.time := rfl
@[simp] theorem State.modPower_chain (s : State) (f : Power → Power) : (s.modPower f).chain = s.chain := rfl
@[simp] theorem State.modPower_loops (s : State) (f : Power → Power) : (s.modPower f).loops = s.loops := rfl
@[simp] theorem State.modPower_lsw (s : State) (f : Power → Power) : (s.modPower f).lsw = s.lsw := rfl
@[simp] theorem State.modPower_tongs (s : State) (f : Power → Power) : (s.modPower f).tongs = s.tongs := rfl
@[simp] theorem State.modPower_tmr (s : State) (f : Power → Power) : (s.modPower f).tmr = s.tmr := rfl
@[simp] theorem State.modPower_pend (s : State) (f : Power → Power) : (s.modPower f).pend = s.pend := rfl
@[simp] theorem State.modPower_ing (s : State) (f : Power → Power) : (s.modPower f).ing = s.ing := rfl
@[simp] theorem State.modPower_temper (s : State) (f : Power → Power) : (s.modPower f).temper = s.temper := rfl
@[simp] theorem State.modPower_sec (s : State) (f : Power → Power) : (s.modPower f).sec = s.sec := rfl
@[simp] theorem State.modPower_tap (s : State) (f : Power → Power) : (s.modPower f).tap = s.tap := rfl
@[simp] theorem State.modPower_collect (s : State) (f : Power → Power) : (s.modPower f).collect = s.collect := rfl
@[simp] theorem State.modPower_pending (s : State) (f : Power → Power) : (s.modPower f).pending = s.pending := rfl

/-! ### modIng -/

@[simp] theorem State.modIng_regs (s : State) (f : Ingot → Ingot) : (s.modIng f).regs = s.regs := rfl
@[simp] theorem State.modIng_caps (s : State) (f : Ingot → Ingot) : (s.modIng f).caps = s.caps := rfl
@[simp] theorem State.modIng_held (s : State) (f : Ingot → Ingot) : (s.modIng f).held = s.held := rfl
@[simp] theorem State.modIng_mem (s : State) (f : Ingot → Ingot) : (s.modIng f).mem = s.mem := rfl
@[simp] theorem State.modIng_eccUnc (s : State) (f : Ingot → Ingot) : (s.modIng f).eccUnc = s.eccUnc := rfl
@[simp] theorem State.modIng_eccOne (s : State) (f : Ingot → Ingot) : (s.modIng f).eccOne = s.eccOne := rfl
@[simp] theorem State.modIng_tb (s : State) (f : Ingot → Ingot) : (s.modIng f).tb = s.tb := rfl
@[simp] theorem State.modIng_freeCtr (s : State) (f : Ingot → Ingot) : (s.modIng f).freeCtr = s.freeCtr := rfl
@[simp] theorem State.modIng_out (s : State) (f : Ingot → Ingot) : (s.modIng f).out = s.out := rfl
@[simp] theorem State.modIng_outWait (s : State) (f : Ingot → Ingot) : (s.modIng f).outWait = s.outWait := rfl
@[simp] theorem State.modIng_ledger (s : State) (f : Ingot → Ingot) : (s.modIng f).ledger = s.ledger := rfl
@[simp] theorem State.modIng_eng (s : State) (f : Ingot → Ingot) : (s.modIng f).eng = s.eng := rfl
@[simp] theorem State.modIng_hoard (s : State) (f : Ingot → Ingot) : (s.modIng f).hoard = s.hoard := rfl
@[simp] theorem State.modIng_prs (s : State) (f : Ingot → Ingot) : (s.modIng f).prs = s.prs := rfl
@[simp] theorem State.modIng_hif (s : State) (f : Ingot → Ingot) : (s.modIng f).hif = s.hif := rfl
@[simp] theorem State.modIng_pcie (s : State) (f : Ingot → Ingot) : (s.modIng f).pcie = s.pcie := rfl
@[simp] theorem State.modIng_ports (s : State) (f : Ingot → Ingot) : (s.modIng f).ports = s.ports := rfl
@[simp] theorem State.modIng_cans (s : State) (f : Ingot → Ingot) : (s.modIng f).cans = s.cans := rfl
@[simp] theorem State.modIng_video (s : State) (f : Ingot → Ingot) : (s.modIng f).video = s.video := rfl
@[simp] theorem State.modIng_pio (s : State) (f : Ingot → Ingot) : (s.modIng f).pio = s.pio := rfl
@[simp] theorem State.modIng_vidDrain (s : State) (f : Ingot → Ingot) : (s.modIng f).vidDrain = s.vidDrain := rfl
@[simp] theorem State.modIng_hearth (s : State) (f : Ingot → Ingot) : (s.modIng f).hearth = s.hearth := rfl
@[simp] theorem State.modIng_time (s : State) (f : Ingot → Ingot) : (s.modIng f).time = s.time := rfl
@[simp] theorem State.modIng_chain (s : State) (f : Ingot → Ingot) : (s.modIng f).chain = s.chain := rfl
@[simp] theorem State.modIng_loops (s : State) (f : Ingot → Ingot) : (s.modIng f).loops = s.loops := rfl
@[simp] theorem State.modIng_lsw (s : State) (f : Ingot → Ingot) : (s.modIng f).lsw = s.lsw := rfl
@[simp] theorem State.modIng_tongs (s : State) (f : Ingot → Ingot) : (s.modIng f).tongs = s.tongs := rfl
@[simp] theorem State.modIng_tmr (s : State) (f : Ingot → Ingot) : (s.modIng f).tmr = s.tmr := rfl
@[simp] theorem State.modIng_pend (s : State) (f : Ingot → Ingot) : (s.modIng f).pend = s.pend := rfl
@[simp] theorem State.modIng_power (s : State) (f : Ingot → Ingot) : (s.modIng f).power = s.power := rfl
@[simp] theorem State.modIng_temper (s : State) (f : Ingot → Ingot) : (s.modIng f).temper = s.temper := rfl
@[simp] theorem State.modIng_sec (s : State) (f : Ingot → Ingot) : (s.modIng f).sec = s.sec := rfl
@[simp] theorem State.modIng_tap (s : State) (f : Ingot → Ingot) : (s.modIng f).tap = s.tap := rfl
@[simp] theorem State.modIng_collect (s : State) (f : Ingot → Ingot) : (s.modIng f).collect = s.collect := rfl
@[simp] theorem State.modIng_pending (s : State) (f : Ingot → Ingot) : (s.modIng f).pending = s.pending := rfl

/-! ### modTemper -/

@[simp] theorem State.modTemper_regs (s : State) (f : Temper → Temper) : (s.modTemper f).regs = s.regs := rfl
@[simp] theorem State.modTemper_caps (s : State) (f : Temper → Temper) : (s.modTemper f).caps = s.caps := rfl
@[simp] theorem State.modTemper_held (s : State) (f : Temper → Temper) : (s.modTemper f).held = s.held := rfl
@[simp] theorem State.modTemper_mem (s : State) (f : Temper → Temper) : (s.modTemper f).mem = s.mem := rfl
@[simp] theorem State.modTemper_eccUnc (s : State) (f : Temper → Temper) : (s.modTemper f).eccUnc = s.eccUnc := rfl
@[simp] theorem State.modTemper_eccOne (s : State) (f : Temper → Temper) : (s.modTemper f).eccOne = s.eccOne := rfl
@[simp] theorem State.modTemper_tb (s : State) (f : Temper → Temper) : (s.modTemper f).tb = s.tb := rfl
@[simp] theorem State.modTemper_freeCtr (s : State) (f : Temper → Temper) : (s.modTemper f).freeCtr = s.freeCtr := rfl
@[simp] theorem State.modTemper_out (s : State) (f : Temper → Temper) : (s.modTemper f).out = s.out := rfl
@[simp] theorem State.modTemper_outWait (s : State) (f : Temper → Temper) : (s.modTemper f).outWait = s.outWait := rfl
@[simp] theorem State.modTemper_ledger (s : State) (f : Temper → Temper) : (s.modTemper f).ledger = s.ledger := rfl
@[simp] theorem State.modTemper_eng (s : State) (f : Temper → Temper) : (s.modTemper f).eng = s.eng := rfl
@[simp] theorem State.modTemper_hoard (s : State) (f : Temper → Temper) : (s.modTemper f).hoard = s.hoard := rfl
@[simp] theorem State.modTemper_prs (s : State) (f : Temper → Temper) : (s.modTemper f).prs = s.prs := rfl
@[simp] theorem State.modTemper_hif (s : State) (f : Temper → Temper) : (s.modTemper f).hif = s.hif := rfl
@[simp] theorem State.modTemper_pcie (s : State) (f : Temper → Temper) : (s.modTemper f).pcie = s.pcie := rfl
@[simp] theorem State.modTemper_ports (s : State) (f : Temper → Temper) : (s.modTemper f).ports = s.ports := rfl
@[simp] theorem State.modTemper_cans (s : State) (f : Temper → Temper) : (s.modTemper f).cans = s.cans := rfl
@[simp] theorem State.modTemper_video (s : State) (f : Temper → Temper) : (s.modTemper f).video = s.video := rfl
@[simp] theorem State.modTemper_pio (s : State) (f : Temper → Temper) : (s.modTemper f).pio = s.pio := rfl
@[simp] theorem State.modTemper_vidDrain (s : State) (f : Temper → Temper) : (s.modTemper f).vidDrain = s.vidDrain := rfl
@[simp] theorem State.modTemper_hearth (s : State) (f : Temper → Temper) : (s.modTemper f).hearth = s.hearth := rfl
@[simp] theorem State.modTemper_time (s : State) (f : Temper → Temper) : (s.modTemper f).time = s.time := rfl
@[simp] theorem State.modTemper_chain (s : State) (f : Temper → Temper) : (s.modTemper f).chain = s.chain := rfl
@[simp] theorem State.modTemper_loops (s : State) (f : Temper → Temper) : (s.modTemper f).loops = s.loops := rfl
@[simp] theorem State.modTemper_lsw (s : State) (f : Temper → Temper) : (s.modTemper f).lsw = s.lsw := rfl
@[simp] theorem State.modTemper_tongs (s : State) (f : Temper → Temper) : (s.modTemper f).tongs = s.tongs := rfl
@[simp] theorem State.modTemper_tmr (s : State) (f : Temper → Temper) : (s.modTemper f).tmr = s.tmr := rfl
@[simp] theorem State.modTemper_pend (s : State) (f : Temper → Temper) : (s.modTemper f).pend = s.pend := rfl
@[simp] theorem State.modTemper_power (s : State) (f : Temper → Temper) : (s.modTemper f).power = s.power := rfl
@[simp] theorem State.modTemper_ing (s : State) (f : Temper → Temper) : (s.modTemper f).ing = s.ing := rfl
@[simp] theorem State.modTemper_sec (s : State) (f : Temper → Temper) : (s.modTemper f).sec = s.sec := rfl
@[simp] theorem State.modTemper_tap (s : State) (f : Temper → Temper) : (s.modTemper f).tap = s.tap := rfl
@[simp] theorem State.modTemper_collect (s : State) (f : Temper → Temper) : (s.modTemper f).collect = s.collect := rfl
@[simp] theorem State.modTemper_pending (s : State) (f : Temper → Temper) : (s.modTemper f).pending = s.pending := rfl

/-! ### modSec -/

@[simp] theorem State.modSec_regs (s : State) (f : Secure → Secure) : (s.modSec f).regs = s.regs := rfl
@[simp] theorem State.modSec_caps (s : State) (f : Secure → Secure) : (s.modSec f).caps = s.caps := rfl
@[simp] theorem State.modSec_held (s : State) (f : Secure → Secure) : (s.modSec f).held = s.held := rfl
@[simp] theorem State.modSec_mem (s : State) (f : Secure → Secure) : (s.modSec f).mem = s.mem := rfl
@[simp] theorem State.modSec_eccUnc (s : State) (f : Secure → Secure) : (s.modSec f).eccUnc = s.eccUnc := rfl
@[simp] theorem State.modSec_eccOne (s : State) (f : Secure → Secure) : (s.modSec f).eccOne = s.eccOne := rfl
@[simp] theorem State.modSec_tb (s : State) (f : Secure → Secure) : (s.modSec f).tb = s.tb := rfl
@[simp] theorem State.modSec_freeCtr (s : State) (f : Secure → Secure) : (s.modSec f).freeCtr = s.freeCtr := rfl
@[simp] theorem State.modSec_out (s : State) (f : Secure → Secure) : (s.modSec f).out = s.out := rfl
@[simp] theorem State.modSec_outWait (s : State) (f : Secure → Secure) : (s.modSec f).outWait = s.outWait := rfl
@[simp] theorem State.modSec_ledger (s : State) (f : Secure → Secure) : (s.modSec f).ledger = s.ledger := rfl
@[simp] theorem State.modSec_eng (s : State) (f : Secure → Secure) : (s.modSec f).eng = s.eng := rfl
@[simp] theorem State.modSec_hoard (s : State) (f : Secure → Secure) : (s.modSec f).hoard = s.hoard := rfl
@[simp] theorem State.modSec_prs (s : State) (f : Secure → Secure) : (s.modSec f).prs = s.prs := rfl
@[simp] theorem State.modSec_hif (s : State) (f : Secure → Secure) : (s.modSec f).hif = s.hif := rfl
@[simp] theorem State.modSec_pcie (s : State) (f : Secure → Secure) : (s.modSec f).pcie = s.pcie := rfl
@[simp] theorem State.modSec_ports (s : State) (f : Secure → Secure) : (s.modSec f).ports = s.ports := rfl
@[simp] theorem State.modSec_cans (s : State) (f : Secure → Secure) : (s.modSec f).cans = s.cans := rfl
@[simp] theorem State.modSec_video (s : State) (f : Secure → Secure) : (s.modSec f).video = s.video := rfl
@[simp] theorem State.modSec_pio (s : State) (f : Secure → Secure) : (s.modSec f).pio = s.pio := rfl
@[simp] theorem State.modSec_vidDrain (s : State) (f : Secure → Secure) : (s.modSec f).vidDrain = s.vidDrain := rfl
@[simp] theorem State.modSec_hearth (s : State) (f : Secure → Secure) : (s.modSec f).hearth = s.hearth := rfl
@[simp] theorem State.modSec_time (s : State) (f : Secure → Secure) : (s.modSec f).time = s.time := rfl
@[simp] theorem State.modSec_chain (s : State) (f : Secure → Secure) : (s.modSec f).chain = s.chain := rfl
@[simp] theorem State.modSec_loops (s : State) (f : Secure → Secure) : (s.modSec f).loops = s.loops := rfl
@[simp] theorem State.modSec_lsw (s : State) (f : Secure → Secure) : (s.modSec f).lsw = s.lsw := rfl
@[simp] theorem State.modSec_tongs (s : State) (f : Secure → Secure) : (s.modSec f).tongs = s.tongs := rfl
@[simp] theorem State.modSec_tmr (s : State) (f : Secure → Secure) : (s.modSec f).tmr = s.tmr := rfl
@[simp] theorem State.modSec_pend (s : State) (f : Secure → Secure) : (s.modSec f).pend = s.pend := rfl
@[simp] theorem State.modSec_power (s : State) (f : Secure → Secure) : (s.modSec f).power = s.power := rfl
@[simp] theorem State.modSec_ing (s : State) (f : Secure → Secure) : (s.modSec f).ing = s.ing := rfl
@[simp] theorem State.modSec_temper (s : State) (f : Secure → Secure) : (s.modSec f).temper = s.temper := rfl
@[simp] theorem State.modSec_tap (s : State) (f : Secure → Secure) : (s.modSec f).tap = s.tap := rfl
@[simp] theorem State.modSec_collect (s : State) (f : Secure → Secure) : (s.modSec f).collect = s.collect := rfl
@[simp] theorem State.modSec_pending (s : State) (f : Secure → Secure) : (s.modSec f).pending = s.pending := rfl

/-! ### modTap -/

@[simp] theorem State.modTap_regs (s : State) (f : Tap → Tap) : (s.modTap f).regs = s.regs := rfl
@[simp] theorem State.modTap_caps (s : State) (f : Tap → Tap) : (s.modTap f).caps = s.caps := rfl
@[simp] theorem State.modTap_held (s : State) (f : Tap → Tap) : (s.modTap f).held = s.held := rfl
@[simp] theorem State.modTap_mem (s : State) (f : Tap → Tap) : (s.modTap f).mem = s.mem := rfl
@[simp] theorem State.modTap_eccUnc (s : State) (f : Tap → Tap) : (s.modTap f).eccUnc = s.eccUnc := rfl
@[simp] theorem State.modTap_eccOne (s : State) (f : Tap → Tap) : (s.modTap f).eccOne = s.eccOne := rfl
@[simp] theorem State.modTap_tb (s : State) (f : Tap → Tap) : (s.modTap f).tb = s.tb := rfl
@[simp] theorem State.modTap_freeCtr (s : State) (f : Tap → Tap) : (s.modTap f).freeCtr = s.freeCtr := rfl
@[simp] theorem State.modTap_out (s : State) (f : Tap → Tap) : (s.modTap f).out = s.out := rfl
@[simp] theorem State.modTap_outWait (s : State) (f : Tap → Tap) : (s.modTap f).outWait = s.outWait := rfl
@[simp] theorem State.modTap_ledger (s : State) (f : Tap → Tap) : (s.modTap f).ledger = s.ledger := rfl
@[simp] theorem State.modTap_eng (s : State) (f : Tap → Tap) : (s.modTap f).eng = s.eng := rfl
@[simp] theorem State.modTap_hoard (s : State) (f : Tap → Tap) : (s.modTap f).hoard = s.hoard := rfl
@[simp] theorem State.modTap_prs (s : State) (f : Tap → Tap) : (s.modTap f).prs = s.prs := rfl
@[simp] theorem State.modTap_hif (s : State) (f : Tap → Tap) : (s.modTap f).hif = s.hif := rfl
@[simp] theorem State.modTap_pcie (s : State) (f : Tap → Tap) : (s.modTap f).pcie = s.pcie := rfl
@[simp] theorem State.modTap_ports (s : State) (f : Tap → Tap) : (s.modTap f).ports = s.ports := rfl
@[simp] theorem State.modTap_cans (s : State) (f : Tap → Tap) : (s.modTap f).cans = s.cans := rfl
@[simp] theorem State.modTap_video (s : State) (f : Tap → Tap) : (s.modTap f).video = s.video := rfl
@[simp] theorem State.modTap_pio (s : State) (f : Tap → Tap) : (s.modTap f).pio = s.pio := rfl
@[simp] theorem State.modTap_vidDrain (s : State) (f : Tap → Tap) : (s.modTap f).vidDrain = s.vidDrain := rfl
@[simp] theorem State.modTap_hearth (s : State) (f : Tap → Tap) : (s.modTap f).hearth = s.hearth := rfl
@[simp] theorem State.modTap_time (s : State) (f : Tap → Tap) : (s.modTap f).time = s.time := rfl
@[simp] theorem State.modTap_chain (s : State) (f : Tap → Tap) : (s.modTap f).chain = s.chain := rfl
@[simp] theorem State.modTap_loops (s : State) (f : Tap → Tap) : (s.modTap f).loops = s.loops := rfl
@[simp] theorem State.modTap_lsw (s : State) (f : Tap → Tap) : (s.modTap f).lsw = s.lsw := rfl
@[simp] theorem State.modTap_tongs (s : State) (f : Tap → Tap) : (s.modTap f).tongs = s.tongs := rfl
@[simp] theorem State.modTap_tmr (s : State) (f : Tap → Tap) : (s.modTap f).tmr = s.tmr := rfl
@[simp] theorem State.modTap_pend (s : State) (f : Tap → Tap) : (s.modTap f).pend = s.pend := rfl
@[simp] theorem State.modTap_power (s : State) (f : Tap → Tap) : (s.modTap f).power = s.power := rfl
@[simp] theorem State.modTap_ing (s : State) (f : Tap → Tap) : (s.modTap f).ing = s.ing := rfl
@[simp] theorem State.modTap_temper (s : State) (f : Tap → Tap) : (s.modTap f).temper = s.temper := rfl
@[simp] theorem State.modTap_sec (s : State) (f : Tap → Tap) : (s.modTap f).sec = s.sec := rfl
@[simp] theorem State.modTap_collect (s : State) (f : Tap → Tap) : (s.modTap f).collect = s.collect := rfl
@[simp] theorem State.modTap_pending (s : State) (f : Tap → Tap) : (s.modTap f).pending = s.pending := rfl

/-! ### modTng -/

@[simp] theorem State.modTng_regs (s : State) (n : Nat) (f : Tongs → Tongs) : (s.modTng n f).regs = s.regs := rfl
@[simp] theorem State.modTng_caps (s : State) (n : Nat) (f : Tongs → Tongs) : (s.modTng n f).caps = s.caps := rfl
@[simp] theorem State.modTng_held (s : State) (n : Nat) (f : Tongs → Tongs) : (s.modTng n f).held = s.held := rfl
@[simp] theorem State.modTng_mem (s : State) (n : Nat) (f : Tongs → Tongs) : (s.modTng n f).mem = s.mem := rfl
@[simp] theorem State.modTng_eccUnc (s : State) (n : Nat) (f : Tongs → Tongs) : (s.modTng n f).eccUnc = s.eccUnc := rfl
@[simp] theorem State.modTng_eccOne (s : State) (n : Nat) (f : Tongs → Tongs) : (s.modTng n f).eccOne = s.eccOne := rfl
@[simp] theorem State.modTng_tb (s : State) (n : Nat) (f : Tongs → Tongs) : (s.modTng n f).tb = s.tb := rfl
@[simp] theorem State.modTng_freeCtr (s : State) (n : Nat) (f : Tongs → Tongs) : (s.modTng n f).freeCtr = s.freeCtr := rfl
@[simp] theorem State.modTng_out (s : State) (n : Nat) (f : Tongs → Tongs) : (s.modTng n f).out = s.out := rfl
@[simp] theorem State.modTng_outWait (s : State) (n : Nat) (f : Tongs → Tongs) : (s.modTng n f).outWait = s.outWait := rfl
@[simp] theorem State.modTng_ledger (s : State) (n : Nat) (f : Tongs → Tongs) : (s.modTng n f).ledger = s.ledger := rfl
@[simp] theorem State.modTng_eng (s : State) (n : Nat) (f : Tongs → Tongs) : (s.modTng n f).eng = s.eng := rfl
@[simp] theorem State.modTng_hoard (s : State) (n : Nat) (f : Tongs → Tongs) : (s.modTng n f).hoard = s.hoard := rfl
@[simp] theorem State.modTng_prs (s : State) (n : Nat) (f : Tongs → Tongs) : (s.modTng n f).prs = s.prs := rfl
@[simp] theorem State.modTng_hif (s : State) (n : Nat) (f : Tongs → Tongs) : (s.modTng n f).hif = s.hif := rfl
@[simp] theorem State.modTng_pcie (s : State) (n : Nat) (f : Tongs → Tongs) : (s.modTng n f).pcie = s.pcie := rfl
@[simp] theorem State.modTng_ports (s : State) (n : Nat) (f : Tongs → Tongs) : (s.modTng n f).ports = s.ports := rfl
@[simp] theorem State.modTng_cans (s : State) (n : Nat) (f : Tongs → Tongs) : (s.modTng n f).cans = s.cans := rfl
@[simp] theorem State.modTng_video (s : State) (n : Nat) (f : Tongs → Tongs) : (s.modTng n f).video = s.video := rfl
@[simp] theorem State.modTng_pio (s : State) (n : Nat) (f : Tongs → Tongs) : (s.modTng n f).pio = s.pio := rfl
@[simp] theorem State.modTng_vidDrain (s : State) (n : Nat) (f : Tongs → Tongs) : (s.modTng n f).vidDrain = s.vidDrain := rfl
@[simp] theorem State.modTng_hearth (s : State) (n : Nat) (f : Tongs → Tongs) : (s.modTng n f).hearth = s.hearth := rfl
@[simp] theorem State.modTng_time (s : State) (n : Nat) (f : Tongs → Tongs) : (s.modTng n f).time = s.time := rfl
@[simp] theorem State.modTng_chain (s : State) (n : Nat) (f : Tongs → Tongs) : (s.modTng n f).chain = s.chain := rfl
@[simp] theorem State.modTng_loops (s : State) (n : Nat) (f : Tongs → Tongs) : (s.modTng n f).loops = s.loops := rfl
@[simp] theorem State.modTng_lsw (s : State) (n : Nat) (f : Tongs → Tongs) : (s.modTng n f).lsw = s.lsw := rfl
@[simp] theorem State.modTng_tmr (s : State) (n : Nat) (f : Tongs → Tongs) : (s.modTng n f).tmr = s.tmr := rfl
@[simp] theorem State.modTng_pend (s : State) (n : Nat) (f : Tongs → Tongs) : (s.modTng n f).pend = s.pend := rfl
@[simp] theorem State.modTng_power (s : State) (n : Nat) (f : Tongs → Tongs) : (s.modTng n f).power = s.power := rfl
@[simp] theorem State.modTng_ing (s : State) (n : Nat) (f : Tongs → Tongs) : (s.modTng n f).ing = s.ing := rfl
@[simp] theorem State.modTng_temper (s : State) (n : Nat) (f : Tongs → Tongs) : (s.modTng n f).temper = s.temper := rfl
@[simp] theorem State.modTng_sec (s : State) (n : Nat) (f : Tongs → Tongs) : (s.modTng n f).sec = s.sec := rfl
@[simp] theorem State.modTng_tap (s : State) (n : Nat) (f : Tongs → Tongs) : (s.modTng n f).tap = s.tap := rfl
@[simp] theorem State.modTng_collect (s : State) (n : Nat) (f : Tongs → Tongs) : (s.modTng n f).collect = s.collect := rfl
@[simp] theorem State.modTng_pending (s : State) (n : Nat) (f : Tongs → Tongs) : (s.modTng n f).pending = s.pending := rfl

/-! ### modTimer -/

@[simp] theorem State.modTimer_regs (s : State) (n : Nat) (f : Timer → Timer) : (s.modTimer n f).regs = s.regs := rfl
@[simp] theorem State.modTimer_caps (s : State) (n : Nat) (f : Timer → Timer) : (s.modTimer n f).caps = s.caps := rfl
@[simp] theorem State.modTimer_held (s : State) (n : Nat) (f : Timer → Timer) : (s.modTimer n f).held = s.held := rfl
@[simp] theorem State.modTimer_mem (s : State) (n : Nat) (f : Timer → Timer) : (s.modTimer n f).mem = s.mem := rfl
@[simp] theorem State.modTimer_eccUnc (s : State) (n : Nat) (f : Timer → Timer) : (s.modTimer n f).eccUnc = s.eccUnc := rfl
@[simp] theorem State.modTimer_eccOne (s : State) (n : Nat) (f : Timer → Timer) : (s.modTimer n f).eccOne = s.eccOne := rfl
@[simp] theorem State.modTimer_tb (s : State) (n : Nat) (f : Timer → Timer) : (s.modTimer n f).tb = s.tb := rfl
@[simp] theorem State.modTimer_freeCtr (s : State) (n : Nat) (f : Timer → Timer) : (s.modTimer n f).freeCtr = s.freeCtr := rfl
@[simp] theorem State.modTimer_out (s : State) (n : Nat) (f : Timer → Timer) : (s.modTimer n f).out = s.out := rfl
@[simp] theorem State.modTimer_outWait (s : State) (n : Nat) (f : Timer → Timer) : (s.modTimer n f).outWait = s.outWait := rfl
@[simp] theorem State.modTimer_ledger (s : State) (n : Nat) (f : Timer → Timer) : (s.modTimer n f).ledger = s.ledger := rfl
@[simp] theorem State.modTimer_eng (s : State) (n : Nat) (f : Timer → Timer) : (s.modTimer n f).eng = s.eng := rfl
@[simp] theorem State.modTimer_hoard (s : State) (n : Nat) (f : Timer → Timer) : (s.modTimer n f).hoard = s.hoard := rfl
@[simp] theorem State.modTimer_prs (s : State) (n : Nat) (f : Timer → Timer) : (s.modTimer n f).prs = s.prs := rfl
@[simp] theorem State.modTimer_hif (s : State) (n : Nat) (f : Timer → Timer) : (s.modTimer n f).hif = s.hif := rfl
@[simp] theorem State.modTimer_pcie (s : State) (n : Nat) (f : Timer → Timer) : (s.modTimer n f).pcie = s.pcie := rfl
@[simp] theorem State.modTimer_ports (s : State) (n : Nat) (f : Timer → Timer) : (s.modTimer n f).ports = s.ports := rfl
@[simp] theorem State.modTimer_cans (s : State) (n : Nat) (f : Timer → Timer) : (s.modTimer n f).cans = s.cans := rfl
@[simp] theorem State.modTimer_video (s : State) (n : Nat) (f : Timer → Timer) : (s.modTimer n f).video = s.video := rfl
@[simp] theorem State.modTimer_pio (s : State) (n : Nat) (f : Timer → Timer) : (s.modTimer n f).pio = s.pio := rfl
@[simp] theorem State.modTimer_vidDrain (s : State) (n : Nat) (f : Timer → Timer) : (s.modTimer n f).vidDrain = s.vidDrain := rfl
@[simp] theorem State.modTimer_hearth (s : State) (n : Nat) (f : Timer → Timer) : (s.modTimer n f).hearth = s.hearth := rfl
@[simp] theorem State.modTimer_time (s : State) (n : Nat) (f : Timer → Timer) : (s.modTimer n f).time = s.time := rfl
@[simp] theorem State.modTimer_chain (s : State) (n : Nat) (f : Timer → Timer) : (s.modTimer n f).chain = s.chain := rfl
@[simp] theorem State.modTimer_loops (s : State) (n : Nat) (f : Timer → Timer) : (s.modTimer n f).loops = s.loops := rfl
@[simp] theorem State.modTimer_lsw (s : State) (n : Nat) (f : Timer → Timer) : (s.modTimer n f).lsw = s.lsw := rfl
@[simp] theorem State.modTimer_tongs (s : State) (n : Nat) (f : Timer → Timer) : (s.modTimer n f).tongs = s.tongs := rfl
@[simp] theorem State.modTimer_pend (s : State) (n : Nat) (f : Timer → Timer) : (s.modTimer n f).pend = s.pend := rfl
@[simp] theorem State.modTimer_power (s : State) (n : Nat) (f : Timer → Timer) : (s.modTimer n f).power = s.power := rfl
@[simp] theorem State.modTimer_ing (s : State) (n : Nat) (f : Timer → Timer) : (s.modTimer n f).ing = s.ing := rfl
@[simp] theorem State.modTimer_temper (s : State) (n : Nat) (f : Timer → Timer) : (s.modTimer n f).temper = s.temper := rfl
@[simp] theorem State.modTimer_sec (s : State) (n : Nat) (f : Timer → Timer) : (s.modTimer n f).sec = s.sec := rfl
@[simp] theorem State.modTimer_tap (s : State) (n : Nat) (f : Timer → Timer) : (s.modTimer n f).tap = s.tap := rfl
@[simp] theorem State.modTimer_collect (s : State) (n : Nat) (f : Timer → Timer) : (s.modTimer n f).collect = s.collect := rfl
@[simp] theorem State.modTimer_pending (s : State) (n : Nat) (f : Timer → Timer) : (s.modTimer n f).pending = s.pending := rfl

/-! ### modLoop -/

@[simp] theorem State.modLoop_regs (s : State) (n : Nat) (f : Loop → Loop) : (s.modLoop n f).regs = s.regs := rfl
@[simp] theorem State.modLoop_caps (s : State) (n : Nat) (f : Loop → Loop) : (s.modLoop n f).caps = s.caps := rfl
@[simp] theorem State.modLoop_held (s : State) (n : Nat) (f : Loop → Loop) : (s.modLoop n f).held = s.held := rfl
@[simp] theorem State.modLoop_mem (s : State) (n : Nat) (f : Loop → Loop) : (s.modLoop n f).mem = s.mem := rfl
@[simp] theorem State.modLoop_eccUnc (s : State) (n : Nat) (f : Loop → Loop) : (s.modLoop n f).eccUnc = s.eccUnc := rfl
@[simp] theorem State.modLoop_eccOne (s : State) (n : Nat) (f : Loop → Loop) : (s.modLoop n f).eccOne = s.eccOne := rfl
@[simp] theorem State.modLoop_tb (s : State) (n : Nat) (f : Loop → Loop) : (s.modLoop n f).tb = s.tb := rfl
@[simp] theorem State.modLoop_freeCtr (s : State) (n : Nat) (f : Loop → Loop) : (s.modLoop n f).freeCtr = s.freeCtr := rfl
@[simp] theorem State.modLoop_out (s : State) (n : Nat) (f : Loop → Loop) : (s.modLoop n f).out = s.out := rfl
@[simp] theorem State.modLoop_outWait (s : State) (n : Nat) (f : Loop → Loop) : (s.modLoop n f).outWait = s.outWait := rfl
@[simp] theorem State.modLoop_ledger (s : State) (n : Nat) (f : Loop → Loop) : (s.modLoop n f).ledger = s.ledger := rfl
@[simp] theorem State.modLoop_eng (s : State) (n : Nat) (f : Loop → Loop) : (s.modLoop n f).eng = s.eng := rfl
@[simp] theorem State.modLoop_hoard (s : State) (n : Nat) (f : Loop → Loop) : (s.modLoop n f).hoard = s.hoard := rfl
@[simp] theorem State.modLoop_prs (s : State) (n : Nat) (f : Loop → Loop) : (s.modLoop n f).prs = s.prs := rfl
@[simp] theorem State.modLoop_hif (s : State) (n : Nat) (f : Loop → Loop) : (s.modLoop n f).hif = s.hif := rfl
@[simp] theorem State.modLoop_pcie (s : State) (n : Nat) (f : Loop → Loop) : (s.modLoop n f).pcie = s.pcie := rfl
@[simp] theorem State.modLoop_ports (s : State) (n : Nat) (f : Loop → Loop) : (s.modLoop n f).ports = s.ports := rfl
@[simp] theorem State.modLoop_cans (s : State) (n : Nat) (f : Loop → Loop) : (s.modLoop n f).cans = s.cans := rfl
@[simp] theorem State.modLoop_video (s : State) (n : Nat) (f : Loop → Loop) : (s.modLoop n f).video = s.video := rfl
@[simp] theorem State.modLoop_pio (s : State) (n : Nat) (f : Loop → Loop) : (s.modLoop n f).pio = s.pio := rfl
@[simp] theorem State.modLoop_vidDrain (s : State) (n : Nat) (f : Loop → Loop) : (s.modLoop n f).vidDrain = s.vidDrain := rfl
@[simp] theorem State.modLoop_hearth (s : State) (n : Nat) (f : Loop → Loop) : (s.modLoop n f).hearth = s.hearth := rfl
@[simp] theorem State.modLoop_time (s : State) (n : Nat) (f : Loop → Loop) : (s.modLoop n f).time = s.time := rfl
@[simp] theorem State.modLoop_chain (s : State) (n : Nat) (f : Loop → Loop) : (s.modLoop n f).chain = s.chain := rfl
@[simp] theorem State.modLoop_lsw (s : State) (n : Nat) (f : Loop → Loop) : (s.modLoop n f).lsw = s.lsw := rfl
@[simp] theorem State.modLoop_tongs (s : State) (n : Nat) (f : Loop → Loop) : (s.modLoop n f).tongs = s.tongs := rfl
@[simp] theorem State.modLoop_tmr (s : State) (n : Nat) (f : Loop → Loop) : (s.modLoop n f).tmr = s.tmr := rfl
@[simp] theorem State.modLoop_pend (s : State) (n : Nat) (f : Loop → Loop) : (s.modLoop n f).pend = s.pend := rfl
@[simp] theorem State.modLoop_power (s : State) (n : Nat) (f : Loop → Loop) : (s.modLoop n f).power = s.power := rfl
@[simp] theorem State.modLoop_ing (s : State) (n : Nat) (f : Loop → Loop) : (s.modLoop n f).ing = s.ing := rfl
@[simp] theorem State.modLoop_temper (s : State) (n : Nat) (f : Loop → Loop) : (s.modLoop n f).temper = s.temper := rfl
@[simp] theorem State.modLoop_sec (s : State) (n : Nat) (f : Loop → Loop) : (s.modLoop n f).sec = s.sec := rfl
@[simp] theorem State.modLoop_tap (s : State) (n : Nat) (f : Loop → Loop) : (s.modLoop n f).tap = s.tap := rfl
@[simp] theorem State.modLoop_collect (s : State) (n : Nat) (f : Loop → Loop) : (s.modLoop n f).collect = s.collect := rfl
@[simp] theorem State.modLoop_pending (s : State) (n : Nat) (f : Loop → Loop) : (s.modLoop n f).pending = s.pending := rfl

/-! ### modCan -/

@[simp] theorem State.modCan_regs (s : State) (n : Nat) (f : Can → Can) : (s.modCan n f).regs = s.regs := rfl
@[simp] theorem State.modCan_caps (s : State) (n : Nat) (f : Can → Can) : (s.modCan n f).caps = s.caps := rfl
@[simp] theorem State.modCan_held (s : State) (n : Nat) (f : Can → Can) : (s.modCan n f).held = s.held := rfl
@[simp] theorem State.modCan_mem (s : State) (n : Nat) (f : Can → Can) : (s.modCan n f).mem = s.mem := rfl
@[simp] theorem State.modCan_eccUnc (s : State) (n : Nat) (f : Can → Can) : (s.modCan n f).eccUnc = s.eccUnc := rfl
@[simp] theorem State.modCan_eccOne (s : State) (n : Nat) (f : Can → Can) : (s.modCan n f).eccOne = s.eccOne := rfl
@[simp] theorem State.modCan_tb (s : State) (n : Nat) (f : Can → Can) : (s.modCan n f).tb = s.tb := rfl
@[simp] theorem State.modCan_freeCtr (s : State) (n : Nat) (f : Can → Can) : (s.modCan n f).freeCtr = s.freeCtr := rfl
@[simp] theorem State.modCan_out (s : State) (n : Nat) (f : Can → Can) : (s.modCan n f).out = s.out := rfl
@[simp] theorem State.modCan_outWait (s : State) (n : Nat) (f : Can → Can) : (s.modCan n f).outWait = s.outWait := rfl
@[simp] theorem State.modCan_ledger (s : State) (n : Nat) (f : Can → Can) : (s.modCan n f).ledger = s.ledger := rfl
@[simp] theorem State.modCan_eng (s : State) (n : Nat) (f : Can → Can) : (s.modCan n f).eng = s.eng := rfl
@[simp] theorem State.modCan_hoard (s : State) (n : Nat) (f : Can → Can) : (s.modCan n f).hoard = s.hoard := rfl
@[simp] theorem State.modCan_prs (s : State) (n : Nat) (f : Can → Can) : (s.modCan n f).prs = s.prs := rfl
@[simp] theorem State.modCan_hif (s : State) (n : Nat) (f : Can → Can) : (s.modCan n f).hif = s.hif := rfl
@[simp] theorem State.modCan_pcie (s : State) (n : Nat) (f : Can → Can) : (s.modCan n f).pcie = s.pcie := rfl
@[simp] theorem State.modCan_ports (s : State) (n : Nat) (f : Can → Can) : (s.modCan n f).ports = s.ports := rfl
@[simp] theorem State.modCan_video (s : State) (n : Nat) (f : Can → Can) : (s.modCan n f).video = s.video := rfl
@[simp] theorem State.modCan_pio (s : State) (n : Nat) (f : Can → Can) : (s.modCan n f).pio = s.pio := rfl
@[simp] theorem State.modCan_vidDrain (s : State) (n : Nat) (f : Can → Can) : (s.modCan n f).vidDrain = s.vidDrain := rfl
@[simp] theorem State.modCan_hearth (s : State) (n : Nat) (f : Can → Can) : (s.modCan n f).hearth = s.hearth := rfl
@[simp] theorem State.modCan_time (s : State) (n : Nat) (f : Can → Can) : (s.modCan n f).time = s.time := rfl
@[simp] theorem State.modCan_chain (s : State) (n : Nat) (f : Can → Can) : (s.modCan n f).chain = s.chain := rfl
@[simp] theorem State.modCan_loops (s : State) (n : Nat) (f : Can → Can) : (s.modCan n f).loops = s.loops := rfl
@[simp] theorem State.modCan_lsw (s : State) (n : Nat) (f : Can → Can) : (s.modCan n f).lsw = s.lsw := rfl
@[simp] theorem State.modCan_tongs (s : State) (n : Nat) (f : Can → Can) : (s.modCan n f).tongs = s.tongs := rfl
@[simp] theorem State.modCan_tmr (s : State) (n : Nat) (f : Can → Can) : (s.modCan n f).tmr = s.tmr := rfl
@[simp] theorem State.modCan_pend (s : State) (n : Nat) (f : Can → Can) : (s.modCan n f).pend = s.pend := rfl
@[simp] theorem State.modCan_power (s : State) (n : Nat) (f : Can → Can) : (s.modCan n f).power = s.power := rfl
@[simp] theorem State.modCan_ing (s : State) (n : Nat) (f : Can → Can) : (s.modCan n f).ing = s.ing := rfl
@[simp] theorem State.modCan_temper (s : State) (n : Nat) (f : Can → Can) : (s.modCan n f).temper = s.temper := rfl
@[simp] theorem State.modCan_sec (s : State) (n : Nat) (f : Can → Can) : (s.modCan n f).sec = s.sec := rfl
@[simp] theorem State.modCan_tap (s : State) (n : Nat) (f : Can → Can) : (s.modCan n f).tap = s.tap := rfl
@[simp] theorem State.modCan_collect (s : State) (n : Nat) (f : Can → Can) : (s.modCan n f).collect = s.collect := rfl
@[simp] theorem State.modCan_pending (s : State) (n : Nat) (f : Can → Can) : (s.modCan n f).pending = s.pending := rfl

/-! ### modChan -/

@[simp] theorem State.modChan_regs (s : State) (n : Nat) (f : Chan → Chan) : (s.modChan n f).regs = s.regs := rfl
@[simp] theorem State.modChan_caps (s : State) (n : Nat) (f : Chan → Chan) : (s.modChan n f).caps = s.caps := rfl
@[simp] theorem State.modChan_held (s : State) (n : Nat) (f : Chan → Chan) : (s.modChan n f).held = s.held := rfl
@[simp] theorem State.modChan_mem (s : State) (n : Nat) (f : Chan → Chan) : (s.modChan n f).mem = s.mem := rfl
@[simp] theorem State.modChan_eccUnc (s : State) (n : Nat) (f : Chan → Chan) : (s.modChan n f).eccUnc = s.eccUnc := rfl
@[simp] theorem State.modChan_eccOne (s : State) (n : Nat) (f : Chan → Chan) : (s.modChan n f).eccOne = s.eccOne := rfl
@[simp] theorem State.modChan_tb (s : State) (n : Nat) (f : Chan → Chan) : (s.modChan n f).tb = s.tb := rfl
@[simp] theorem State.modChan_freeCtr (s : State) (n : Nat) (f : Chan → Chan) : (s.modChan n f).freeCtr = s.freeCtr := rfl
@[simp] theorem State.modChan_out (s : State) (n : Nat) (f : Chan → Chan) : (s.modChan n f).out = s.out := rfl
@[simp] theorem State.modChan_outWait (s : State) (n : Nat) (f : Chan → Chan) : (s.modChan n f).outWait = s.outWait := rfl
@[simp] theorem State.modChan_ledger (s : State) (n : Nat) (f : Chan → Chan) : (s.modChan n f).ledger = s.ledger := rfl
@[simp] theorem State.modChan_eng (s : State) (n : Nat) (f : Chan → Chan) : (s.modChan n f).eng = s.eng := rfl
@[simp] theorem State.modChan_hoard (s : State) (n : Nat) (f : Chan → Chan) : (s.modChan n f).hoard = s.hoard := rfl
@[simp] theorem State.modChan_prs (s : State) (n : Nat) (f : Chan → Chan) : (s.modChan n f).prs = s.prs := rfl
@[simp] theorem State.modChan_hif (s : State) (n : Nat) (f : Chan → Chan) : (s.modChan n f).hif = s.hif := rfl
@[simp] theorem State.modChan_pcie (s : State) (n : Nat) (f : Chan → Chan) : (s.modChan n f).pcie = s.pcie := rfl
@[simp] theorem State.modChan_ports (s : State) (n : Nat) (f : Chan → Chan) : (s.modChan n f).ports = s.ports := rfl
@[simp] theorem State.modChan_cans (s : State) (n : Nat) (f : Chan → Chan) : (s.modChan n f).cans = s.cans := rfl
@[simp] theorem State.modChan_video (s : State) (n : Nat) (f : Chan → Chan) : (s.modChan n f).video = s.video := rfl
@[simp] theorem State.modChan_pio (s : State) (n : Nat) (f : Chan → Chan) : (s.modChan n f).pio = s.pio := rfl
@[simp] theorem State.modChan_vidDrain (s : State) (n : Nat) (f : Chan → Chan) : (s.modChan n f).vidDrain = s.vidDrain := rfl
@[simp] theorem State.modChan_hearth (s : State) (n : Nat) (f : Chan → Chan) : (s.modChan n f).hearth = s.hearth := rfl
@[simp] theorem State.modChan_time (s : State) (n : Nat) (f : Chan → Chan) : (s.modChan n f).time = s.time := rfl
@[simp] theorem State.modChan_chain (s : State) (n : Nat) (f : Chan → Chan) : (s.modChan n f).chain = s.chain := rfl
@[simp] theorem State.modChan_loops (s : State) (n : Nat) (f : Chan → Chan) : (s.modChan n f).loops = s.loops := rfl
@[simp] theorem State.modChan_tongs (s : State) (n : Nat) (f : Chan → Chan) : (s.modChan n f).tongs = s.tongs := rfl
@[simp] theorem State.modChan_tmr (s : State) (n : Nat) (f : Chan → Chan) : (s.modChan n f).tmr = s.tmr := rfl
@[simp] theorem State.modChan_pend (s : State) (n : Nat) (f : Chan → Chan) : (s.modChan n f).pend = s.pend := rfl
@[simp] theorem State.modChan_power (s : State) (n : Nat) (f : Chan → Chan) : (s.modChan n f).power = s.power := rfl
@[simp] theorem State.modChan_ing (s : State) (n : Nat) (f : Chan → Chan) : (s.modChan n f).ing = s.ing := rfl
@[simp] theorem State.modChan_temper (s : State) (n : Nat) (f : Chan → Chan) : (s.modChan n f).temper = s.temper := rfl
@[simp] theorem State.modChan_sec (s : State) (n : Nat) (f : Chan → Chan) : (s.modChan n f).sec = s.sec := rfl
@[simp] theorem State.modChan_tap (s : State) (n : Nat) (f : Chan → Chan) : (s.modChan n f).tap = s.tap := rfl
@[simp] theorem State.modChan_collect (s : State) (n : Nat) (f : Chan → Chan) : (s.modChan n f).collect = s.collect := rfl
@[simp] theorem State.modChan_pending (s : State) (n : Nat) (f : Chan → Chan) : (s.modChan n f).pending = s.pending := rfl

/-! ### modSlot -/

@[simp] theorem State.modSlot_regs (s : State) (n : Nat) (f : Slot → Slot) : (s.modSlot n f).regs = s.regs := rfl
@[simp] theorem State.modSlot_caps (s : State) (n : Nat) (f : Slot → Slot) : (s.modSlot n f).caps = s.caps := rfl
@[simp] theorem State.modSlot_held (s : State) (n : Nat) (f : Slot → Slot) : (s.modSlot n f).held = s.held := rfl
@[simp] theorem State.modSlot_mem (s : State) (n : Nat) (f : Slot → Slot) : (s.modSlot n f).mem = s.mem := rfl
@[simp] theorem State.modSlot_eccUnc (s : State) (n : Nat) (f : Slot → Slot) : (s.modSlot n f).eccUnc = s.eccUnc := rfl
@[simp] theorem State.modSlot_eccOne (s : State) (n : Nat) (f : Slot → Slot) : (s.modSlot n f).eccOne = s.eccOne := rfl
@[simp] theorem State.modSlot_tb (s : State) (n : Nat) (f : Slot → Slot) : (s.modSlot n f).tb = s.tb := rfl
@[simp] theorem State.modSlot_freeCtr (s : State) (n : Nat) (f : Slot → Slot) : (s.modSlot n f).freeCtr = s.freeCtr := rfl
@[simp] theorem State.modSlot_out (s : State) (n : Nat) (f : Slot → Slot) : (s.modSlot n f).out = s.out := rfl
@[simp] theorem State.modSlot_outWait (s : State) (n : Nat) (f : Slot → Slot) : (s.modSlot n f).outWait = s.outWait := rfl
@[simp] theorem State.modSlot_ledger (s : State) (n : Nat) (f : Slot → Slot) : (s.modSlot n f).ledger = s.ledger := rfl
@[simp] theorem State.modSlot_eng (s : State) (n : Nat) (f : Slot → Slot) : (s.modSlot n f).eng = s.eng := rfl
@[simp] theorem State.modSlot_hoard (s : State) (n : Nat) (f : Slot → Slot) : (s.modSlot n f).hoard = s.hoard := rfl
@[simp] theorem State.modSlot_hif (s : State) (n : Nat) (f : Slot → Slot) : (s.modSlot n f).hif = s.hif := rfl
@[simp] theorem State.modSlot_pcie (s : State) (n : Nat) (f : Slot → Slot) : (s.modSlot n f).pcie = s.pcie := rfl
@[simp] theorem State.modSlot_ports (s : State) (n : Nat) (f : Slot → Slot) : (s.modSlot n f).ports = s.ports := rfl
@[simp] theorem State.modSlot_cans (s : State) (n : Nat) (f : Slot → Slot) : (s.modSlot n f).cans = s.cans := rfl
@[simp] theorem State.modSlot_video (s : State) (n : Nat) (f : Slot → Slot) : (s.modSlot n f).video = s.video := rfl
@[simp] theorem State.modSlot_pio (s : State) (n : Nat) (f : Slot → Slot) : (s.modSlot n f).pio = s.pio := rfl
@[simp] theorem State.modSlot_vidDrain (s : State) (n : Nat) (f : Slot → Slot) : (s.modSlot n f).vidDrain = s.vidDrain := rfl
@[simp] theorem State.modSlot_hearth (s : State) (n : Nat) (f : Slot → Slot) : (s.modSlot n f).hearth = s.hearth := rfl
@[simp] theorem State.modSlot_time (s : State) (n : Nat) (f : Slot → Slot) : (s.modSlot n f).time = s.time := rfl
@[simp] theorem State.modSlot_chain (s : State) (n : Nat) (f : Slot → Slot) : (s.modSlot n f).chain = s.chain := rfl
@[simp] theorem State.modSlot_loops (s : State) (n : Nat) (f : Slot → Slot) : (s.modSlot n f).loops = s.loops := rfl
@[simp] theorem State.modSlot_lsw (s : State) (n : Nat) (f : Slot → Slot) : (s.modSlot n f).lsw = s.lsw := rfl
@[simp] theorem State.modSlot_tongs (s : State) (n : Nat) (f : Slot → Slot) : (s.modSlot n f).tongs = s.tongs := rfl
@[simp] theorem State.modSlot_tmr (s : State) (n : Nat) (f : Slot → Slot) : (s.modSlot n f).tmr = s.tmr := rfl
@[simp] theorem State.modSlot_pend (s : State) (n : Nat) (f : Slot → Slot) : (s.modSlot n f).pend = s.pend := rfl
@[simp] theorem State.modSlot_power (s : State) (n : Nat) (f : Slot → Slot) : (s.modSlot n f).power = s.power := rfl
@[simp] theorem State.modSlot_ing (s : State) (n : Nat) (f : Slot → Slot) : (s.modSlot n f).ing = s.ing := rfl
@[simp] theorem State.modSlot_temper (s : State) (n : Nat) (f : Slot → Slot) : (s.modSlot n f).temper = s.temper := rfl
@[simp] theorem State.modSlot_sec (s : State) (n : Nat) (f : Slot → Slot) : (s.modSlot n f).sec = s.sec := rfl
@[simp] theorem State.modSlot_tap (s : State) (n : Nat) (f : Slot → Slot) : (s.modSlot n f).tap = s.tap := rfl
@[simp] theorem State.modSlot_collect (s : State) (n : Nat) (f : Slot → Slot) : (s.modSlot n f).collect = s.collect := rfl
@[simp] theorem State.modSlot_pending (s : State) (n : Nat) (f : Slot → Slot) : (s.modSlot n f).pending = s.pending := rfl

/-! ### modFn -/

@[simp] theorem State.modFn_regs (s : State) (pf1 : Bool) (f : PciFn → PciFn) : (s.modFn pf1 f).regs = s.regs := rfl
@[simp] theorem State.modFn_caps (s : State) (pf1 : Bool) (f : PciFn → PciFn) : (s.modFn pf1 f).caps = s.caps := rfl
@[simp] theorem State.modFn_held (s : State) (pf1 : Bool) (f : PciFn → PciFn) : (s.modFn pf1 f).held = s.held := rfl
@[simp] theorem State.modFn_mem (s : State) (pf1 : Bool) (f : PciFn → PciFn) : (s.modFn pf1 f).mem = s.mem := rfl
@[simp] theorem State.modFn_eccUnc (s : State) (pf1 : Bool) (f : PciFn → PciFn) : (s.modFn pf1 f).eccUnc = s.eccUnc := rfl
@[simp] theorem State.modFn_eccOne (s : State) (pf1 : Bool) (f : PciFn → PciFn) : (s.modFn pf1 f).eccOne = s.eccOne := rfl
@[simp] theorem State.modFn_tb (s : State) (pf1 : Bool) (f : PciFn → PciFn) : (s.modFn pf1 f).tb = s.tb := rfl
@[simp] theorem State.modFn_freeCtr (s : State) (pf1 : Bool) (f : PciFn → PciFn) : (s.modFn pf1 f).freeCtr = s.freeCtr := rfl
@[simp] theorem State.modFn_out (s : State) (pf1 : Bool) (f : PciFn → PciFn) : (s.modFn pf1 f).out = s.out := rfl
@[simp] theorem State.modFn_outWait (s : State) (pf1 : Bool) (f : PciFn → PciFn) : (s.modFn pf1 f).outWait = s.outWait := rfl
@[simp] theorem State.modFn_ledger (s : State) (pf1 : Bool) (f : PciFn → PciFn) : (s.modFn pf1 f).ledger = s.ledger := rfl
@[simp] theorem State.modFn_eng (s : State) (pf1 : Bool) (f : PciFn → PciFn) : (s.modFn pf1 f).eng = s.eng := rfl
@[simp] theorem State.modFn_hoard (s : State) (pf1 : Bool) (f : PciFn → PciFn) : (s.modFn pf1 f).hoard = s.hoard := rfl
@[simp] theorem State.modFn_prs (s : State) (pf1 : Bool) (f : PciFn → PciFn) : (s.modFn pf1 f).prs = s.prs := rfl
@[simp] theorem State.modFn_hif (s : State) (pf1 : Bool) (f : PciFn → PciFn) : (s.modFn pf1 f).hif = s.hif := rfl
@[simp] theorem State.modFn_ports (s : State) (pf1 : Bool) (f : PciFn → PciFn) : (s.modFn pf1 f).ports = s.ports := rfl
@[simp] theorem State.modFn_cans (s : State) (pf1 : Bool) (f : PciFn → PciFn) : (s.modFn pf1 f).cans = s.cans := rfl
@[simp] theorem State.modFn_video (s : State) (pf1 : Bool) (f : PciFn → PciFn) : (s.modFn pf1 f).video = s.video := rfl
@[simp] theorem State.modFn_pio (s : State) (pf1 : Bool) (f : PciFn → PciFn) : (s.modFn pf1 f).pio = s.pio := rfl
@[simp] theorem State.modFn_vidDrain (s : State) (pf1 : Bool) (f : PciFn → PciFn) : (s.modFn pf1 f).vidDrain = s.vidDrain := rfl
@[simp] theorem State.modFn_hearth (s : State) (pf1 : Bool) (f : PciFn → PciFn) : (s.modFn pf1 f).hearth = s.hearth := rfl
@[simp] theorem State.modFn_time (s : State) (pf1 : Bool) (f : PciFn → PciFn) : (s.modFn pf1 f).time = s.time := rfl
@[simp] theorem State.modFn_chain (s : State) (pf1 : Bool) (f : PciFn → PciFn) : (s.modFn pf1 f).chain = s.chain := rfl
@[simp] theorem State.modFn_loops (s : State) (pf1 : Bool) (f : PciFn → PciFn) : (s.modFn pf1 f).loops = s.loops := rfl
@[simp] theorem State.modFn_lsw (s : State) (pf1 : Bool) (f : PciFn → PciFn) : (s.modFn pf1 f).lsw = s.lsw := rfl
@[simp] theorem State.modFn_tongs (s : State) (pf1 : Bool) (f : PciFn → PciFn) : (s.modFn pf1 f).tongs = s.tongs := rfl
@[simp] theorem State.modFn_tmr (s : State) (pf1 : Bool) (f : PciFn → PciFn) : (s.modFn pf1 f).tmr = s.tmr := rfl
@[simp] theorem State.modFn_pend (s : State) (pf1 : Bool) (f : PciFn → PciFn) : (s.modFn pf1 f).pend = s.pend := rfl
@[simp] theorem State.modFn_power (s : State) (pf1 : Bool) (f : PciFn → PciFn) : (s.modFn pf1 f).power = s.power := rfl
@[simp] theorem State.modFn_ing (s : State) (pf1 : Bool) (f : PciFn → PciFn) : (s.modFn pf1 f).ing = s.ing := rfl
@[simp] theorem State.modFn_temper (s : State) (pf1 : Bool) (f : PciFn → PciFn) : (s.modFn pf1 f).temper = s.temper := rfl
@[simp] theorem State.modFn_sec (s : State) (pf1 : Bool) (f : PciFn → PciFn) : (s.modFn pf1 f).sec = s.sec := rfl
@[simp] theorem State.modFn_tap (s : State) (pf1 : Bool) (f : PciFn → PciFn) : (s.modFn pf1 f).tap = s.tap := rfl
@[simp] theorem State.modFn_collect (s : State) (pf1 : Bool) (f : PciFn → PciFn) : (s.modFn pf1 f).collect = s.collect := rfl
@[simp] theorem State.modFn_pending (s : State) (pf1 : Bool) (f : PciFn → PciFn) : (s.modFn pf1 f).pending = s.pending := rfl

/-! ### modLink -/

@[simp] theorem State.modLink_regs (s : State) (l : Nat) (f : Link → Link) : (s.modLink l f).regs = s.regs := rfl
@[simp] theorem State.modLink_caps (s : State) (l : Nat) (f : Link → Link) : (s.modLink l f).caps = s.caps := rfl
@[simp] theorem State.modLink_held (s : State) (l : Nat) (f : Link → Link) : (s.modLink l f).held = s.held := rfl
@[simp] theorem State.modLink_mem (s : State) (l : Nat) (f : Link → Link) : (s.modLink l f).mem = s.mem := rfl
@[simp] theorem State.modLink_eccUnc (s : State) (l : Nat) (f : Link → Link) : (s.modLink l f).eccUnc = s.eccUnc := rfl
@[simp] theorem State.modLink_eccOne (s : State) (l : Nat) (f : Link → Link) : (s.modLink l f).eccOne = s.eccOne := rfl
@[simp] theorem State.modLink_tb (s : State) (l : Nat) (f : Link → Link) : (s.modLink l f).tb = s.tb := rfl
@[simp] theorem State.modLink_freeCtr (s : State) (l : Nat) (f : Link → Link) : (s.modLink l f).freeCtr = s.freeCtr := rfl
@[simp] theorem State.modLink_out (s : State) (l : Nat) (f : Link → Link) : (s.modLink l f).out = s.out := rfl
@[simp] theorem State.modLink_outWait (s : State) (l : Nat) (f : Link → Link) : (s.modLink l f).outWait = s.outWait := rfl
@[simp] theorem State.modLink_ledger (s : State) (l : Nat) (f : Link → Link) : (s.modLink l f).ledger = s.ledger := rfl
@[simp] theorem State.modLink_eng (s : State) (l : Nat) (f : Link → Link) : (s.modLink l f).eng = s.eng := rfl
@[simp] theorem State.modLink_hoard (s : State) (l : Nat) (f : Link → Link) : (s.modLink l f).hoard = s.hoard := rfl
@[simp] theorem State.modLink_prs (s : State) (l : Nat) (f : Link → Link) : (s.modLink l f).prs = s.prs := rfl
@[simp] theorem State.modLink_hif (s : State) (l : Nat) (f : Link → Link) : (s.modLink l f).hif = s.hif := rfl
@[simp] theorem State.modLink_pcie (s : State) (l : Nat) (f : Link → Link) : (s.modLink l f).pcie = s.pcie := rfl
@[simp] theorem State.modLink_ports (s : State) (l : Nat) (f : Link → Link) : (s.modLink l f).ports = s.ports := rfl
@[simp] theorem State.modLink_cans (s : State) (l : Nat) (f : Link → Link) : (s.modLink l f).cans = s.cans := rfl
@[simp] theorem State.modLink_video (s : State) (l : Nat) (f : Link → Link) : (s.modLink l f).video = s.video := rfl
@[simp] theorem State.modLink_pio (s : State) (l : Nat) (f : Link → Link) : (s.modLink l f).pio = s.pio := rfl
@[simp] theorem State.modLink_vidDrain (s : State) (l : Nat) (f : Link → Link) : (s.modLink l f).vidDrain = s.vidDrain := rfl
@[simp] theorem State.modLink_hearth (s : State) (l : Nat) (f : Link → Link) : (s.modLink l f).hearth = s.hearth := rfl
@[simp] theorem State.modLink_time (s : State) (l : Nat) (f : Link → Link) : (s.modLink l f).time = s.time := rfl
@[simp] theorem State.modLink_loops (s : State) (l : Nat) (f : Link → Link) : (s.modLink l f).loops = s.loops := rfl
@[simp] theorem State.modLink_lsw (s : State) (l : Nat) (f : Link → Link) : (s.modLink l f).lsw = s.lsw := rfl
@[simp] theorem State.modLink_tongs (s : State) (l : Nat) (f : Link → Link) : (s.modLink l f).tongs = s.tongs := rfl
@[simp] theorem State.modLink_tmr (s : State) (l : Nat) (f : Link → Link) : (s.modLink l f).tmr = s.tmr := rfl
@[simp] theorem State.modLink_pend (s : State) (l : Nat) (f : Link → Link) : (s.modLink l f).pend = s.pend := rfl
@[simp] theorem State.modLink_power (s : State) (l : Nat) (f : Link → Link) : (s.modLink l f).power = s.power := rfl
@[simp] theorem State.modLink_ing (s : State) (l : Nat) (f : Link → Link) : (s.modLink l f).ing = s.ing := rfl
@[simp] theorem State.modLink_temper (s : State) (l : Nat) (f : Link → Link) : (s.modLink l f).temper = s.temper := rfl
@[simp] theorem State.modLink_sec (s : State) (l : Nat) (f : Link → Link) : (s.modLink l f).sec = s.sec := rfl
@[simp] theorem State.modLink_tap (s : State) (l : Nat) (f : Link → Link) : (s.modLink l f).tap = s.tap := rfl
@[simp] theorem State.modLink_collect (s : State) (l : Nat) (f : Link → Link) : (s.modLink l f).collect = s.collect := rfl
@[simp] theorem State.modLink_pending (s : State) (l : Nat) (f : Link → Link) : (s.modLink l f).pending = s.pending := rfl

/-! ### modVid -/

@[simp] theorem State.modVid_regs (s : State) (n : Nat) (f : Video → Video) : (s.modVid n f).regs = s.regs := rfl
@[simp] theorem State.modVid_caps (s : State) (n : Nat) (f : Video → Video) : (s.modVid n f).caps = s.caps := rfl
@[simp] theorem State.modVid_held (s : State) (n : Nat) (f : Video → Video) : (s.modVid n f).held = s.held := rfl
@[simp] theorem State.modVid_mem (s : State) (n : Nat) (f : Video → Video) : (s.modVid n f).mem = s.mem := rfl
@[simp] theorem State.modVid_eccUnc (s : State) (n : Nat) (f : Video → Video) : (s.modVid n f).eccUnc = s.eccUnc := rfl
@[simp] theorem State.modVid_eccOne (s : State) (n : Nat) (f : Video → Video) : (s.modVid n f).eccOne = s.eccOne := rfl
@[simp] theorem State.modVid_tb (s : State) (n : Nat) (f : Video → Video) : (s.modVid n f).tb = s.tb := rfl
@[simp] theorem State.modVid_freeCtr (s : State) (n : Nat) (f : Video → Video) : (s.modVid n f).freeCtr = s.freeCtr := rfl
@[simp] theorem State.modVid_out (s : State) (n : Nat) (f : Video → Video) : (s.modVid n f).out = s.out := rfl
@[simp] theorem State.modVid_outWait (s : State) (n : Nat) (f : Video → Video) : (s.modVid n f).outWait = s.outWait := rfl
@[simp] theorem State.modVid_ledger (s : State) (n : Nat) (f : Video → Video) : (s.modVid n f).ledger = s.ledger := rfl
@[simp] theorem State.modVid_eng (s : State) (n : Nat) (f : Video → Video) : (s.modVid n f).eng = s.eng := rfl
@[simp] theorem State.modVid_hoard (s : State) (n : Nat) (f : Video → Video) : (s.modVid n f).hoard = s.hoard := rfl
@[simp] theorem State.modVid_prs (s : State) (n : Nat) (f : Video → Video) : (s.modVid n f).prs = s.prs := rfl
@[simp] theorem State.modVid_hif (s : State) (n : Nat) (f : Video → Video) : (s.modVid n f).hif = s.hif := rfl
@[simp] theorem State.modVid_pcie (s : State) (n : Nat) (f : Video → Video) : (s.modVid n f).pcie = s.pcie := rfl
@[simp] theorem State.modVid_ports (s : State) (n : Nat) (f : Video → Video) : (s.modVid n f).ports = s.ports := rfl
@[simp] theorem State.modVid_cans (s : State) (n : Nat) (f : Video → Video) : (s.modVid n f).cans = s.cans := rfl
@[simp] theorem State.modVid_hearth (s : State) (n : Nat) (f : Video → Video) : (s.modVid n f).hearth = s.hearth := rfl
@[simp] theorem State.modVid_time (s : State) (n : Nat) (f : Video → Video) : (s.modVid n f).time = s.time := rfl
@[simp] theorem State.modVid_chain (s : State) (n : Nat) (f : Video → Video) : (s.modVid n f).chain = s.chain := rfl
@[simp] theorem State.modVid_loops (s : State) (n : Nat) (f : Video → Video) : (s.modVid n f).loops = s.loops := rfl
@[simp] theorem State.modVid_lsw (s : State) (n : Nat) (f : Video → Video) : (s.modVid n f).lsw = s.lsw := rfl
@[simp] theorem State.modVid_tongs (s : State) (n : Nat) (f : Video → Video) : (s.modVid n f).tongs = s.tongs := rfl
@[simp] theorem State.modVid_tmr (s : State) (n : Nat) (f : Video → Video) : (s.modVid n f).tmr = s.tmr := rfl
@[simp] theorem State.modVid_pend (s : State) (n : Nat) (f : Video → Video) : (s.modVid n f).pend = s.pend := rfl
@[simp] theorem State.modVid_power (s : State) (n : Nat) (f : Video → Video) : (s.modVid n f).power = s.power := rfl
@[simp] theorem State.modVid_ing (s : State) (n : Nat) (f : Video → Video) : (s.modVid n f).ing = s.ing := rfl
@[simp] theorem State.modVid_temper (s : State) (n : Nat) (f : Video → Video) : (s.modVid n f).temper = s.temper := rfl
@[simp] theorem State.modVid_sec (s : State) (n : Nat) (f : Video → Video) : (s.modVid n f).sec = s.sec := rfl
@[simp] theorem State.modVid_tap (s : State) (n : Nat) (f : Video → Video) : (s.modVid n f).tap = s.tap := rfl
@[simp] theorem State.modVid_collect (s : State) (n : Nat) (f : Video → Video) : (s.modVid n f).collect = s.collect := rfl
@[simp] theorem State.modVid_pending (s : State) (n : Nat) (f : Video → Video) : (s.modVid n f).pending = s.pending := rfl

/-! ### modHb -/

@[simp] theorem State.modHb_regs (s : State) (h : Nat) (f : HalfBridge → HalfBridge) : (s.modHb h f).regs = s.regs := rfl
@[simp] theorem State.modHb_caps (s : State) (h : Nat) (f : HalfBridge → HalfBridge) : (s.modHb h f).caps = s.caps := rfl
@[simp] theorem State.modHb_held (s : State) (h : Nat) (f : HalfBridge → HalfBridge) : (s.modHb h f).held = s.held := rfl
@[simp] theorem State.modHb_mem (s : State) (h : Nat) (f : HalfBridge → HalfBridge) : (s.modHb h f).mem = s.mem := rfl
@[simp] theorem State.modHb_eccUnc (s : State) (h : Nat) (f : HalfBridge → HalfBridge) : (s.modHb h f).eccUnc = s.eccUnc := rfl
@[simp] theorem State.modHb_eccOne (s : State) (h : Nat) (f : HalfBridge → HalfBridge) : (s.modHb h f).eccOne = s.eccOne := rfl
@[simp] theorem State.modHb_tb (s : State) (h : Nat) (f : HalfBridge → HalfBridge) : (s.modHb h f).tb = s.tb := rfl
@[simp] theorem State.modHb_freeCtr (s : State) (h : Nat) (f : HalfBridge → HalfBridge) : (s.modHb h f).freeCtr = s.freeCtr := rfl
@[simp] theorem State.modHb_out (s : State) (h : Nat) (f : HalfBridge → HalfBridge) : (s.modHb h f).out = s.out := rfl
@[simp] theorem State.modHb_outWait (s : State) (h : Nat) (f : HalfBridge → HalfBridge) : (s.modHb h f).outWait = s.outWait := rfl
@[simp] theorem State.modHb_ledger (s : State) (h : Nat) (f : HalfBridge → HalfBridge) : (s.modHb h f).ledger = s.ledger := rfl
@[simp] theorem State.modHb_eng (s : State) (h : Nat) (f : HalfBridge → HalfBridge) : (s.modHb h f).eng = s.eng := rfl
@[simp] theorem State.modHb_hoard (s : State) (h : Nat) (f : HalfBridge → HalfBridge) : (s.modHb h f).hoard = s.hoard := rfl
@[simp] theorem State.modHb_prs (s : State) (h : Nat) (f : HalfBridge → HalfBridge) : (s.modHb h f).prs = s.prs := rfl
@[simp] theorem State.modHb_hif (s : State) (h : Nat) (f : HalfBridge → HalfBridge) : (s.modHb h f).hif = s.hif := rfl
@[simp] theorem State.modHb_pcie (s : State) (h : Nat) (f : HalfBridge → HalfBridge) : (s.modHb h f).pcie = s.pcie := rfl
@[simp] theorem State.modHb_ports (s : State) (h : Nat) (f : HalfBridge → HalfBridge) : (s.modHb h f).ports = s.ports := rfl
@[simp] theorem State.modHb_cans (s : State) (h : Nat) (f : HalfBridge → HalfBridge) : (s.modHb h f).cans = s.cans := rfl
@[simp] theorem State.modHb_video (s : State) (h : Nat) (f : HalfBridge → HalfBridge) : (s.modHb h f).video = s.video := rfl
@[simp] theorem State.modHb_pio (s : State) (h : Nat) (f : HalfBridge → HalfBridge) : (s.modHb h f).pio = s.pio := rfl
@[simp] theorem State.modHb_vidDrain (s : State) (h : Nat) (f : HalfBridge → HalfBridge) : (s.modHb h f).vidDrain = s.vidDrain := rfl
@[simp] theorem State.modHb_hearth (s : State) (h : Nat) (f : HalfBridge → HalfBridge) : (s.modHb h f).hearth = s.hearth := rfl
@[simp] theorem State.modHb_time (s : State) (h : Nat) (f : HalfBridge → HalfBridge) : (s.modHb h f).time = s.time := rfl
@[simp] theorem State.modHb_chain (s : State) (h : Nat) (f : HalfBridge → HalfBridge) : (s.modHb h f).chain = s.chain := rfl
@[simp] theorem State.modHb_loops (s : State) (h : Nat) (f : HalfBridge → HalfBridge) : (s.modHb h f).loops = s.loops := rfl
@[simp] theorem State.modHb_tongs (s : State) (h : Nat) (f : HalfBridge → HalfBridge) : (s.modHb h f).tongs = s.tongs := rfl
@[simp] theorem State.modHb_tmr (s : State) (h : Nat) (f : HalfBridge → HalfBridge) : (s.modHb h f).tmr = s.tmr := rfl
@[simp] theorem State.modHb_pend (s : State) (h : Nat) (f : HalfBridge → HalfBridge) : (s.modHb h f).pend = s.pend := rfl
@[simp] theorem State.modHb_power (s : State) (h : Nat) (f : HalfBridge → HalfBridge) : (s.modHb h f).power = s.power := rfl
@[simp] theorem State.modHb_ing (s : State) (h : Nat) (f : HalfBridge → HalfBridge) : (s.modHb h f).ing = s.ing := rfl
@[simp] theorem State.modHb_temper (s : State) (h : Nat) (f : HalfBridge → HalfBridge) : (s.modHb h f).temper = s.temper := rfl
@[simp] theorem State.modHb_sec (s : State) (h : Nat) (f : HalfBridge → HalfBridge) : (s.modHb h f).sec = s.sec := rfl
@[simp] theorem State.modHb_tap (s : State) (h : Nat) (f : HalfBridge → HalfBridge) : (s.modHb h f).tap = s.tap := rfl
@[simp] theorem State.modHb_collect (s : State) (h : Nat) (f : HalfBridge → HalfBridge) : (s.modHb h f).collect = s.collect := rfl
@[simp] theorem State.modHb_pending (s : State) (h : Nat) (f : HalfBridge → HalfBridge) : (s.modHb h f).pending = s.pending := rfl

/-! ### modDir -/

@[simp] theorem State.modDir_regs (s : State) (i : Nat) (f : MbxDir → MbxDir) : (s.modDir i f).regs = s.regs := rfl
@[simp] theorem State.modDir_caps (s : State) (i : Nat) (f : MbxDir → MbxDir) : (s.modDir i f).caps = s.caps := rfl
@[simp] theorem State.modDir_held (s : State) (i : Nat) (f : MbxDir → MbxDir) : (s.modDir i f).held = s.held := rfl
@[simp] theorem State.modDir_mem (s : State) (i : Nat) (f : MbxDir → MbxDir) : (s.modDir i f).mem = s.mem := rfl
@[simp] theorem State.modDir_eccUnc (s : State) (i : Nat) (f : MbxDir → MbxDir) : (s.modDir i f).eccUnc = s.eccUnc := rfl
@[simp] theorem State.modDir_eccOne (s : State) (i : Nat) (f : MbxDir → MbxDir) : (s.modDir i f).eccOne = s.eccOne := rfl
@[simp] theorem State.modDir_tb (s : State) (i : Nat) (f : MbxDir → MbxDir) : (s.modDir i f).tb = s.tb := rfl
@[simp] theorem State.modDir_freeCtr (s : State) (i : Nat) (f : MbxDir → MbxDir) : (s.modDir i f).freeCtr = s.freeCtr := rfl
@[simp] theorem State.modDir_out (s : State) (i : Nat) (f : MbxDir → MbxDir) : (s.modDir i f).out = s.out := rfl
@[simp] theorem State.modDir_outWait (s : State) (i : Nat) (f : MbxDir → MbxDir) : (s.modDir i f).outWait = s.outWait := rfl
@[simp] theorem State.modDir_ledger (s : State) (i : Nat) (f : MbxDir → MbxDir) : (s.modDir i f).ledger = s.ledger := rfl
@[simp] theorem State.modDir_eng (s : State) (i : Nat) (f : MbxDir → MbxDir) : (s.modDir i f).eng = s.eng := rfl
@[simp] theorem State.modDir_hoard (s : State) (i : Nat) (f : MbxDir → MbxDir) : (s.modDir i f).hoard = s.hoard := rfl
@[simp] theorem State.modDir_prs (s : State) (i : Nat) (f : MbxDir → MbxDir) : (s.modDir i f).prs = s.prs := rfl
@[simp] theorem State.modDir_hif (s : State) (i : Nat) (f : MbxDir → MbxDir) : (s.modDir i f).hif = s.hif := rfl
@[simp] theorem State.modDir_pcie (s : State) (i : Nat) (f : MbxDir → MbxDir) : (s.modDir i f).pcie = s.pcie := rfl
@[simp] theorem State.modDir_ports (s : State) (i : Nat) (f : MbxDir → MbxDir) : (s.modDir i f).ports = s.ports := rfl
@[simp] theorem State.modDir_cans (s : State) (i : Nat) (f : MbxDir → MbxDir) : (s.modDir i f).cans = s.cans := rfl
@[simp] theorem State.modDir_video (s : State) (i : Nat) (f : MbxDir → MbxDir) : (s.modDir i f).video = s.video := rfl
@[simp] theorem State.modDir_pio (s : State) (i : Nat) (f : MbxDir → MbxDir) : (s.modDir i f).pio = s.pio := rfl
@[simp] theorem State.modDir_vidDrain (s : State) (i : Nat) (f : MbxDir → MbxDir) : (s.modDir i f).vidDrain = s.vidDrain := rfl
@[simp] theorem State.modDir_hearth (s : State) (i : Nat) (f : MbxDir → MbxDir) : (s.modDir i f).hearth = s.hearth := rfl
@[simp] theorem State.modDir_time (s : State) (i : Nat) (f : MbxDir → MbxDir) : (s.modDir i f).time = s.time := rfl
@[simp] theorem State.modDir_chain (s : State) (i : Nat) (f : MbxDir → MbxDir) : (s.modDir i f).chain = s.chain := rfl
@[simp] theorem State.modDir_loops (s : State) (i : Nat) (f : MbxDir → MbxDir) : (s.modDir i f).loops = s.loops := rfl
@[simp] theorem State.modDir_lsw (s : State) (i : Nat) (f : MbxDir → MbxDir) : (s.modDir i f).lsw = s.lsw := rfl
@[simp] theorem State.modDir_tongs (s : State) (i : Nat) (f : MbxDir → MbxDir) : (s.modDir i f).tongs = s.tongs := rfl
@[simp] theorem State.modDir_tmr (s : State) (i : Nat) (f : MbxDir → MbxDir) : (s.modDir i f).tmr = s.tmr := rfl
@[simp] theorem State.modDir_pend (s : State) (i : Nat) (f : MbxDir → MbxDir) : (s.modDir i f).pend = s.pend := rfl
@[simp] theorem State.modDir_power (s : State) (i : Nat) (f : MbxDir → MbxDir) : (s.modDir i f).power = s.power := rfl
@[simp] theorem State.modDir_ing (s : State) (i : Nat) (f : MbxDir → MbxDir) : (s.modDir i f).ing = s.ing := rfl
@[simp] theorem State.modDir_temper (s : State) (i : Nat) (f : MbxDir → MbxDir) : (s.modDir i f).temper = s.temper := rfl
@[simp] theorem State.modDir_tap (s : State) (i : Nat) (f : MbxDir → MbxDir) : (s.modDir i f).tap = s.tap := rfl
@[simp] theorem State.modDir_collect (s : State) (i : Nat) (f : MbxDir → MbxDir) : (s.modDir i f).collect = s.collect := rfl
@[simp] theorem State.modDir_pending (s : State) (i : Nat) (f : MbxDir → MbxDir) : (s.modDir i f).pending = s.pending := rfl

/-! ### modDesc -/

@[simp] theorem State.modDesc_regs (s : State) (n : Nat) (p : Desc → Bool) (f : Desc → Desc) : (s.modDesc n p f).regs = s.regs := rfl
@[simp] theorem State.modDesc_caps (s : State) (n : Nat) (p : Desc → Bool) (f : Desc → Desc) : (s.modDesc n p f).caps = s.caps := rfl
@[simp] theorem State.modDesc_held (s : State) (n : Nat) (p : Desc → Bool) (f : Desc → Desc) : (s.modDesc n p f).held = s.held := rfl
@[simp] theorem State.modDesc_mem (s : State) (n : Nat) (p : Desc → Bool) (f : Desc → Desc) : (s.modDesc n p f).mem = s.mem := rfl
@[simp] theorem State.modDesc_eccUnc (s : State) (n : Nat) (p : Desc → Bool) (f : Desc → Desc) : (s.modDesc n p f).eccUnc = s.eccUnc := rfl
@[simp] theorem State.modDesc_eccOne (s : State) (n : Nat) (p : Desc → Bool) (f : Desc → Desc) : (s.modDesc n p f).eccOne = s.eccOne := rfl
@[simp] theorem State.modDesc_tb (s : State) (n : Nat) (p : Desc → Bool) (f : Desc → Desc) : (s.modDesc n p f).tb = s.tb := rfl
@[simp] theorem State.modDesc_freeCtr (s : State) (n : Nat) (p : Desc → Bool) (f : Desc → Desc) : (s.modDesc n p f).freeCtr = s.freeCtr := rfl
@[simp] theorem State.modDesc_out (s : State) (n : Nat) (p : Desc → Bool) (f : Desc → Desc) : (s.modDesc n p f).out = s.out := rfl
@[simp] theorem State.modDesc_outWait (s : State) (n : Nat) (p : Desc → Bool) (f : Desc → Desc) : (s.modDesc n p f).outWait = s.outWait := rfl
@[simp] theorem State.modDesc_ledger (s : State) (n : Nat) (p : Desc → Bool) (f : Desc → Desc) : (s.modDesc n p f).ledger = s.ledger := rfl
@[simp] theorem State.modDesc_eng (s : State) (n : Nat) (p : Desc → Bool) (f : Desc → Desc) : (s.modDesc n p f).eng = s.eng := rfl
@[simp] theorem State.modDesc_hoard (s : State) (n : Nat) (p : Desc → Bool) (f : Desc → Desc) : (s.modDesc n p f).hoard = s.hoard := rfl
@[simp] theorem State.modDesc_prs (s : State) (n : Nat) (p : Desc → Bool) (f : Desc → Desc) : (s.modDesc n p f).prs = s.prs := rfl
@[simp] theorem State.modDesc_pcie (s : State) (n : Nat) (p : Desc → Bool) (f : Desc → Desc) : (s.modDesc n p f).pcie = s.pcie := rfl
@[simp] theorem State.modDesc_ports (s : State) (n : Nat) (p : Desc → Bool) (f : Desc → Desc) : (s.modDesc n p f).ports = s.ports := rfl
@[simp] theorem State.modDesc_cans (s : State) (n : Nat) (p : Desc → Bool) (f : Desc → Desc) : (s.modDesc n p f).cans = s.cans := rfl
@[simp] theorem State.modDesc_video (s : State) (n : Nat) (p : Desc → Bool) (f : Desc → Desc) : (s.modDesc n p f).video = s.video := rfl
@[simp] theorem State.modDesc_pio (s : State) (n : Nat) (p : Desc → Bool) (f : Desc → Desc) : (s.modDesc n p f).pio = s.pio := rfl
@[simp] theorem State.modDesc_vidDrain (s : State) (n : Nat) (p : Desc → Bool) (f : Desc → Desc) : (s.modDesc n p f).vidDrain = s.vidDrain := rfl
@[simp] theorem State.modDesc_hearth (s : State) (n : Nat) (p : Desc → Bool) (f : Desc → Desc) : (s.modDesc n p f).hearth = s.hearth := rfl
@[simp] theorem State.modDesc_time (s : State) (n : Nat) (p : Desc → Bool) (f : Desc → Desc) : (s.modDesc n p f).time = s.time := rfl
@[simp] theorem State.modDesc_chain (s : State) (n : Nat) (p : Desc → Bool) (f : Desc → Desc) : (s.modDesc n p f).chain = s.chain := rfl
@[simp] theorem State.modDesc_loops (s : State) (n : Nat) (p : Desc → Bool) (f : Desc → Desc) : (s.modDesc n p f).loops = s.loops := rfl
@[simp] theorem State.modDesc_lsw (s : State) (n : Nat) (p : Desc → Bool) (f : Desc → Desc) : (s.modDesc n p f).lsw = s.lsw := rfl
@[simp] theorem State.modDesc_tongs (s : State) (n : Nat) (p : Desc → Bool) (f : Desc → Desc) : (s.modDesc n p f).tongs = s.tongs := rfl
@[simp] theorem State.modDesc_tmr (s : State) (n : Nat) (p : Desc → Bool) (f : Desc → Desc) : (s.modDesc n p f).tmr = s.tmr := rfl
@[simp] theorem State.modDesc_pend (s : State) (n : Nat) (p : Desc → Bool) (f : Desc → Desc) : (s.modDesc n p f).pend = s.pend := rfl
@[simp] theorem State.modDesc_power (s : State) (n : Nat) (p : Desc → Bool) (f : Desc → Desc) : (s.modDesc n p f).power = s.power := rfl
@[simp] theorem State.modDesc_ing (s : State) (n : Nat) (p : Desc → Bool) (f : Desc → Desc) : (s.modDesc n p f).ing = s.ing := rfl
@[simp] theorem State.modDesc_temper (s : State) (n : Nat) (p : Desc → Bool) (f : Desc → Desc) : (s.modDesc n p f).temper = s.temper := rfl
@[simp] theorem State.modDesc_sec (s : State) (n : Nat) (p : Desc → Bool) (f : Desc → Desc) : (s.modDesc n p f).sec = s.sec := rfl
@[simp] theorem State.modDesc_tap (s : State) (n : Nat) (p : Desc → Bool) (f : Desc → Desc) : (s.modDesc n p f).tap = s.tap := rfl
@[simp] theorem State.modDesc_collect (s : State) (n : Nat) (p : Desc → Bool) (f : Desc → Desc) : (s.modDesc n p f).collect = s.collect := rfl
@[simp] theorem State.modDesc_pending (s : State) (n : Nat) (p : Desc → Bool) (f : Desc → Desc) : (s.modDesc n p f).pending = s.pending := rfl

/-! ### modCtx -/

@[simp] theorem State.modCtx_regs (s : State) (e : Nat) (k : TaskKind) (f : Ctx → Ctx) : (s.modCtx e k f).regs = s.regs := rfl
@[simp] theorem State.modCtx_caps (s : State) (e : Nat) (k : TaskKind) (f : Ctx → Ctx) : (s.modCtx e k f).caps = s.caps := rfl
@[simp] theorem State.modCtx_held (s : State) (e : Nat) (k : TaskKind) (f : Ctx → Ctx) : (s.modCtx e k f).held = s.held := rfl
@[simp] theorem State.modCtx_mem (s : State) (e : Nat) (k : TaskKind) (f : Ctx → Ctx) : (s.modCtx e k f).mem = s.mem := rfl
@[simp] theorem State.modCtx_eccUnc (s : State) (e : Nat) (k : TaskKind) (f : Ctx → Ctx) : (s.modCtx e k f).eccUnc = s.eccUnc := rfl
@[simp] theorem State.modCtx_eccOne (s : State) (e : Nat) (k : TaskKind) (f : Ctx → Ctx) : (s.modCtx e k f).eccOne = s.eccOne := rfl
@[simp] theorem State.modCtx_tb (s : State) (e : Nat) (k : TaskKind) (f : Ctx → Ctx) : (s.modCtx e k f).tb = s.tb := rfl
@[simp] theorem State.modCtx_freeCtr (s : State) (e : Nat) (k : TaskKind) (f : Ctx → Ctx) : (s.modCtx e k f).freeCtr = s.freeCtr := rfl
@[simp] theorem State.modCtx_out (s : State) (e : Nat) (k : TaskKind) (f : Ctx → Ctx) : (s.modCtx e k f).out = s.out := rfl
@[simp] theorem State.modCtx_outWait (s : State) (e : Nat) (k : TaskKind) (f : Ctx → Ctx) : (s.modCtx e k f).outWait = s.outWait := rfl
@[simp] theorem State.modCtx_ledger (s : State) (e : Nat) (k : TaskKind) (f : Ctx → Ctx) : (s.modCtx e k f).ledger = s.ledger := rfl
@[simp] theorem State.modCtx_hoard (s : State) (e : Nat) (k : TaskKind) (f : Ctx → Ctx) : (s.modCtx e k f).hoard = s.hoard := rfl
@[simp] theorem State.modCtx_prs (s : State) (e : Nat) (k : TaskKind) (f : Ctx → Ctx) : (s.modCtx e k f).prs = s.prs := rfl
@[simp] theorem State.modCtx_hif (s : State) (e : Nat) (k : TaskKind) (f : Ctx → Ctx) : (s.modCtx e k f).hif = s.hif := rfl
@[simp] theorem State.modCtx_pcie (s : State) (e : Nat) (k : TaskKind) (f : Ctx → Ctx) : (s.modCtx e k f).pcie = s.pcie := rfl
@[simp] theorem State.modCtx_ports (s : State) (e : Nat) (k : TaskKind) (f : Ctx → Ctx) : (s.modCtx e k f).ports = s.ports := rfl
@[simp] theorem State.modCtx_cans (s : State) (e : Nat) (k : TaskKind) (f : Ctx → Ctx) : (s.modCtx e k f).cans = s.cans := rfl
@[simp] theorem State.modCtx_video (s : State) (e : Nat) (k : TaskKind) (f : Ctx → Ctx) : (s.modCtx e k f).video = s.video := rfl
@[simp] theorem State.modCtx_pio (s : State) (e : Nat) (k : TaskKind) (f : Ctx → Ctx) : (s.modCtx e k f).pio = s.pio := rfl
@[simp] theorem State.modCtx_vidDrain (s : State) (e : Nat) (k : TaskKind) (f : Ctx → Ctx) : (s.modCtx e k f).vidDrain = s.vidDrain := rfl
@[simp] theorem State.modCtx_hearth (s : State) (e : Nat) (k : TaskKind) (f : Ctx → Ctx) : (s.modCtx e k f).hearth = s.hearth := rfl
@[simp] theorem State.modCtx_time (s : State) (e : Nat) (k : TaskKind) (f : Ctx → Ctx) : (s.modCtx e k f).time = s.time := rfl
@[simp] theorem State.modCtx_chain (s : State) (e : Nat) (k : TaskKind) (f : Ctx → Ctx) : (s.modCtx e k f).chain = s.chain := rfl
@[simp] theorem State.modCtx_loops (s : State) (e : Nat) (k : TaskKind) (f : Ctx → Ctx) : (s.modCtx e k f).loops = s.loops := rfl
@[simp] theorem State.modCtx_lsw (s : State) (e : Nat) (k : TaskKind) (f : Ctx → Ctx) : (s.modCtx e k f).lsw = s.lsw := rfl
@[simp] theorem State.modCtx_tongs (s : State) (e : Nat) (k : TaskKind) (f : Ctx → Ctx) : (s.modCtx e k f).tongs = s.tongs := rfl
@[simp] theorem State.modCtx_tmr (s : State) (e : Nat) (k : TaskKind) (f : Ctx → Ctx) : (s.modCtx e k f).tmr = s.tmr := rfl
@[simp] theorem State.modCtx_pend (s : State) (e : Nat) (k : TaskKind) (f : Ctx → Ctx) : (s.modCtx e k f).pend = s.pend := rfl
@[simp] theorem State.modCtx_power (s : State) (e : Nat) (k : TaskKind) (f : Ctx → Ctx) : (s.modCtx e k f).power = s.power := rfl
@[simp] theorem State.modCtx_ing (s : State) (e : Nat) (k : TaskKind) (f : Ctx → Ctx) : (s.modCtx e k f).ing = s.ing := rfl
@[simp] theorem State.modCtx_temper (s : State) (e : Nat) (k : TaskKind) (f : Ctx → Ctx) : (s.modCtx e k f).temper = s.temper := rfl
@[simp] theorem State.modCtx_sec (s : State) (e : Nat) (k : TaskKind) (f : Ctx → Ctx) : (s.modCtx e k f).sec = s.sec := rfl
@[simp] theorem State.modCtx_tap (s : State) (e : Nat) (k : TaskKind) (f : Ctx → Ctx) : (s.modCtx e k f).tap = s.tap := rfl
@[simp] theorem State.modCtx_collect (s : State) (e : Nat) (k : TaskKind) (f : Ctx → Ctx) : (s.modCtx e k f).collect = s.collect := rfl
@[simp] theorem State.modCtx_pending (s : State) (e : Nat) (k : TaskKind) (f : Ctx → Ctx) : (s.modCtx e k f).pending = s.pending := rfl

/-! ### modRun -/

@[simp] theorem State.modRun_regs (s : State) (e : Nat) (f : Run → Run) : (s.modRun e f).regs = s.regs := rfl
@[simp] theorem State.modRun_caps (s : State) (e : Nat) (f : Run → Run) : (s.modRun e f).caps = s.caps := rfl
@[simp] theorem State.modRun_held (s : State) (e : Nat) (f : Run → Run) : (s.modRun e f).held = s.held := rfl
@[simp] theorem State.modRun_mem (s : State) (e : Nat) (f : Run → Run) : (s.modRun e f).mem = s.mem := rfl
@[simp] theorem State.modRun_eccUnc (s : State) (e : Nat) (f : Run → Run) : (s.modRun e f).eccUnc = s.eccUnc := rfl
@[simp] theorem State.modRun_eccOne (s : State) (e : Nat) (f : Run → Run) : (s.modRun e f).eccOne = s.eccOne := rfl
@[simp] theorem State.modRun_tb (s : State) (e : Nat) (f : Run → Run) : (s.modRun e f).tb = s.tb := rfl
@[simp] theorem State.modRun_freeCtr (s : State) (e : Nat) (f : Run → Run) : (s.modRun e f).freeCtr = s.freeCtr := rfl
@[simp] theorem State.modRun_out (s : State) (e : Nat) (f : Run → Run) : (s.modRun e f).out = s.out := rfl
@[simp] theorem State.modRun_outWait (s : State) (e : Nat) (f : Run → Run) : (s.modRun e f).outWait = s.outWait := rfl
@[simp] theorem State.modRun_ledger (s : State) (e : Nat) (f : Run → Run) : (s.modRun e f).ledger = s.ledger := rfl
@[simp] theorem State.modRun_hoard (s : State) (e : Nat) (f : Run → Run) : (s.modRun e f).hoard = s.hoard := rfl
@[simp] theorem State.modRun_prs (s : State) (e : Nat) (f : Run → Run) : (s.modRun e f).prs = s.prs := rfl
@[simp] theorem State.modRun_hif (s : State) (e : Nat) (f : Run → Run) : (s.modRun e f).hif = s.hif := rfl
@[simp] theorem State.modRun_pcie (s : State) (e : Nat) (f : Run → Run) : (s.modRun e f).pcie = s.pcie := rfl
@[simp] theorem State.modRun_ports (s : State) (e : Nat) (f : Run → Run) : (s.modRun e f).ports = s.ports := rfl
@[simp] theorem State.modRun_cans (s : State) (e : Nat) (f : Run → Run) : (s.modRun e f).cans = s.cans := rfl
@[simp] theorem State.modRun_video (s : State) (e : Nat) (f : Run → Run) : (s.modRun e f).video = s.video := rfl
@[simp] theorem State.modRun_pio (s : State) (e : Nat) (f : Run → Run) : (s.modRun e f).pio = s.pio := rfl
@[simp] theorem State.modRun_vidDrain (s : State) (e : Nat) (f : Run → Run) : (s.modRun e f).vidDrain = s.vidDrain := rfl
@[simp] theorem State.modRun_hearth (s : State) (e : Nat) (f : Run → Run) : (s.modRun e f).hearth = s.hearth := rfl
@[simp] theorem State.modRun_time (s : State) (e : Nat) (f : Run → Run) : (s.modRun e f).time = s.time := rfl
@[simp] theorem State.modRun_chain (s : State) (e : Nat) (f : Run → Run) : (s.modRun e f).chain = s.chain := rfl
@[simp] theorem State.modRun_loops (s : State) (e : Nat) (f : Run → Run) : (s.modRun e f).loops = s.loops := rfl
@[simp] theorem State.modRun_lsw (s : State) (e : Nat) (f : Run → Run) : (s.modRun e f).lsw = s.lsw := rfl
@[simp] theorem State.modRun_tongs (s : State) (e : Nat) (f : Run → Run) : (s.modRun e f).tongs = s.tongs := rfl
@[simp] theorem State.modRun_tmr (s : State) (e : Nat) (f : Run → Run) : (s.modRun e f).tmr = s.tmr := rfl
@[simp] theorem State.modRun_pend (s : State) (e : Nat) (f : Run → Run) : (s.modRun e f).pend = s.pend := rfl
@[simp] theorem State.modRun_power (s : State) (e : Nat) (f : Run → Run) : (s.modRun e f).power = s.power := rfl
@[simp] theorem State.modRun_ing (s : State) (e : Nat) (f : Run → Run) : (s.modRun e f).ing = s.ing := rfl
@[simp] theorem State.modRun_temper (s : State) (e : Nat) (f : Run → Run) : (s.modRun e f).temper = s.temper := rfl
@[simp] theorem State.modRun_sec (s : State) (e : Nat) (f : Run → Run) : (s.modRun e f).sec = s.sec := rfl
@[simp] theorem State.modRun_tap (s : State) (e : Nat) (f : Run → Run) : (s.modRun e f).tap = s.tap := rfl
@[simp] theorem State.modRun_collect (s : State) (e : Nat) (f : Run → Run) : (s.modRun e f).collect = s.collect := rfl
@[simp] theorem State.modRun_pending (s : State) (e : Nat) (f : Run → Run) : (s.modRun e f).pending = s.pending := rfl

end Sys2Proof.Machine
end

