-- ==== Sys2Proof/Laws/Fields.lean ====
section
/-!
SUPPORT. The laws of set-up registers and their fields: what a write of one field leaves in that field and in the others, and what
the operations built on it do.
-/

namespace Sys2Proof.Machine

/-! ## Fields of a word, bit by bit -/

theorem fieldGet_eq (x : W32) (lo w : Nat) : fieldGet x lo w = (x.toNat >>> lo) % 2 ^ w := by
  simp [fieldGet, Nat.shiftRight_eq_div_pow]

theorem testBit_fieldGet (x : W32) (lo w i : Nat) : (fieldGet x lo w).testBit i = (decide (i < w) && x.getLsbD (lo + i)) := by
  rw [fieldGet_eq, Nat.testBit_mod_two_pow, Nat.testBit_shiftRight, ← BitVec.testBit_toNat]

theorem getLsbD_fieldMask (lo w i : Nat) (h : lo + w ≤ 32) : (fieldMask lo w).getLsbD i = decide (lo ≤ i ∧ i < lo + w) := by
  unfold fieldMask
  rw [← BitVec.testBit_toNat, BitVec.toNat_ofNat, Nat.testBit_mod_two_pow, Nat.testBit_mul_two_pow, Nat.testBit_two_pow_sub_one]
  by_cases h1 : lo ≤ i <;> by_cases h2 : i < lo + w <;> simp [h1, h2] <;> omega

theorem getLsbD_fieldSet (x : W32) (lo w v i : Nat) (h : lo + w ≤ 32) :
    (fieldSet x lo w v).getLsbD i = if lo ≤ i ∧ i < lo + w then v.testBit (i - lo) else x.getLsbD i := by
  unfold fieldSet
  rw [BitVec.getLsbD_or, BitVec.getLsbD_and, BitVec.getLsbD_not, getLsbD_fieldMask lo w i h]
  rw [← BitVec.testBit_toNat (BitVec.ofNat 32 (v % 2 ^ w * 2 ^ lo)), BitVec.toNat_ofNat, Nat.testBit_mod_two_pow, Nat.testBit_mul_two_pow,
    Nat.testBit_mod_two_pow]
  by_cases h1 : lo ≤ i
  · by_cases h2 : i < lo + w
    · have h3 : i < 32 := by omega
      have h4 : i - lo < w := by omega
      simp [h1, h2, h3, h4]
    · have h4 : ¬ i - lo < w := by omega
      by_cases h3 : i < 32
      · simp [h1, h2, h3, h4]
      · have : x.getLsbD i = false := BitVec.getLsbD_of_ge x i (by omega)
        simp [h1, h2, h3, this]
  · by_cases h3 : i < 32
    · simp [h1, h3]
    · omega

/-- A field holds the low bits of what was written to it. -/
theorem fieldGet_fieldSet (x : W32) (lo w v : Nat) (h : lo + w ≤ 32) : fieldGet (fieldSet x lo w v) lo w = v % 2 ^ w := by
  apply Nat.eq_of_testBit_eq
  intro i
  rw [testBit_fieldGet, getLsbD_fieldSet x lo w v _ h, Nat.testBit_mod_two_pow]
  by_cases hi : i < w <;> simp [hi]

/-- A field keeps its value when a field beside it is written. -/
theorem fieldGet_fieldSet_of_disjoint (x : W32) (lo w lo' w' v : Nat) (h : lo' + w' ≤ 32) (hd : lo + w ≤ lo' ∨ lo' + w' ≤ lo) :
    fieldGet (fieldSet x lo' w' v) lo w = fieldGet x lo w := by
  apply Nat.eq_of_testBit_eq
  intro i
  rw [testBit_fieldGet, testBit_fieldGet, getLsbD_fieldSet x lo' w' v _ h]
  by_cases hi : i < w
  · rw [if_neg (by omega)]
  · simp [hi]

/-! ## Set-up registers -/

/-- Is the table of set-up registers in canonical form? -/
def State.regsWf (s : State) : Bool := Sparse.wf RegMap.resetWord s.regs

theorem State.word_setWord_self (s : State) (k : Nat) (v : W32) (h : s.regsWf = true) : (s.setWord k v).word k = v :=
  Sparse.find_put_self _ s.regs k v h

theorem State.word_setWord_of_ne (s : State) (k : Nat) (v : W32) (a : Nat) (ha : a ≠ k) : (s.setWord k v).word a = s.word a :=
  Sparse.find_put_of_ne _ s.regs k v a ha

@[simp] theorem State.regsWf_setWord (s : State) (k : Nat) (v : W32) (h : s.regsWf = true) : (s.setWord k v).regsWf = true :=
  Sparse.wf_put _ s.regs k v h

@[simp] theorem State.regsWf_set (s : State) (f : Fld) (v : Nat) (h : s.regsWf = true) : (s.set f v).regsWf = true :=
  s.regsWf_setWord _ _ h

@[simp] theorem State.regsWf_setB (s : State) (f : Fld) (b : Bool) (h : s.regsWf = true) : (s.setB f b).regsWf = true :=
  s.regsWf_set _ _ h

@[simp] theorem State.regsWf_count (s : State) (f : Fld) (n : Nat) (h : s.regsWf = true) : (s.count f n).regsWf = true :=
  s.regsWf_set _ _ h

/-- A field lies in a word. -/
def Fld.ok (f : Fld) : Bool := decide (f.lo + f.w ≤ 32)

/-- Two fields have no bit in common. -/
def Fld.apart (f g : Fld) : Bool := decide (f.addr ≠ g.addr) || decide (f.lo + f.w ≤ g.lo) || decide (g.lo + g.w ≤ f.lo)

theorem State.get_set_self (s : State) (f : Fld) (v : Nat) (h : s.regsWf = true) (hf : f.ok = true) : (s.set f v).get f = v % 2 ^ f.w := by
  unfold State.get State.set
  rw [State.word_setWord_self _ _ _ h]
  exact fieldGet_fieldSet _ _ _ _ (by simpa [Fld.ok] using hf)

theorem State.get_set_of_apart (s : State) (f g : Fld) (v : Nat) (hw : s.regsWf = true) (hf : f.ok = true) (h : g.apart f = true) :
    (s.set f v).get g = s.get g := by
  unfold State.get State.set
  by_cases ha : g.addr = f.addr
  · rw [ha, State.word_setWord_self _ _ _ hw]
    refine fieldGet_fieldSet_of_disjoint _ _ _ _ _ _ (by simpa [Fld.ok] using hf) ?_
    simp only [Fld.apart, ha, ne_eq, not_true_eq_false, decide_false, Bool.false_or, Bool.or_eq_true, decide_eq_true_eq] at h
    exact h
  · rw [State.word_setWord_of_ne _ _ _ _ ha]

theorem State.word_set_of_ne (s : State) (f : Fld) (v : Nat) (a : Nat) (ha : a ≠ f.addr) : (s.set f v).word a = s.word a :=
  State.word_setWord_of_ne _ _ _ _ ha

theorem State.get_set_of_ne (s : State) (f g : Fld) (v : Nat) (h : g.addr ≠ f.addr) : (s.set f v).get g = s.get g := by
  unfold State.get
  rw [State.word_set_of_ne _ _ _ _ h]

/-! ## The ledger -/

/-- A record leaves every register but PWR_LEDHEAD alone. -/
theorem State.word_recordF_of_ne (s : State) (c u d g a : Nat) (ha : a ≠ Reg.PWR_LEDHEAD_SEQ.addr) : (s.recordF c u d g).word a = s.word a := by
  unfold State.recordF
  rw [State.word_set_of_ne _ _ _ _ ha]
  rfl

theorem State.get_record_of_ne (s : State) (c u d : Nat) (f : Fld) (h : f.addr ≠ Reg.PWR_LEDHEAD_SEQ.addr) : (s.record c u d).get f = s.get f := by
  unfold State.get State.record
  rw [State.word_recordF_of_ne _ _ _ _ _ _ h]

/-- The ledger never grows beyond 256 entries (R657). -/
theorem State.ledger_recordF_length (s : State) (c u d g : Nat) : (s.recordF c u d g).ledger.length ≤ 256 := by
  show (List.take 256 _).length ≤ 256
  rw [List.length_take]
  exact Nat.min_le_left _ _

/-! ## Parts by number -/

theorem getD_set_self {α : Type} {n : Nat} (v : Vector α n) (i : Nat) (x d : α) (h : i < n) : (v.setIfInBounds i x).getD i d = x := by
  simp [Vector.getD, Array.getD_eq_getD_getElem?, h]

theorem getD_set_of_ne {α : Type} {n : Nat} (v : Vector α n) (i j : Nat) (x d : α) (h : j ≠ i) : (v.setIfInBounds i x).getD j d = v.getD j d := by
  simp [Vector.getD, Array.getD_eq_getD_getElem?, Ne.symm h]

@[simp] theorem State.engN_modEng_self (s : State) (e : Nat) (f : Eng → Eng) (h : e < 16) : (s.modEng e f).engN e = f (s.engN e) :=
  getD_set_self _ _ _ _ h

theorem State.engN_modEng_of_ne (s : State) (e n : Nat) (f : Eng → Eng) (h : n ≠ e) : (s.modEng e f).engN n = s.engN n :=
  getD_set_of_ne _ _ _ _ _ h

theorem State.ring_modRing_self (s : State) (n : Nat) (f : Ring → Ring) (h : n < 64) : (s.modRing n f).ring n = f (s.ring n) :=
  getD_set_self _ _ _ _ h

theorem State.ring_modRing_of_ne (s : State) (m n : Nat) (f : Ring → Ring) (h : n ≠ m) : (s.modRing m f).ring n = s.ring n :=
  getD_set_of_ne _ _ _ _ _ h

theorem State.port_modPort_self (s : State) (p : Nat) (f : Port → Port) (h : p < 6) : (s.modPort p f).port p = f (s.port p) :=
  getD_set_self _ _ _ _ h

theorem State.timer_modTimer_self (s : State) (n : Nat) (f : Timer → Timer) (h : n < 16) : (s.modTimer n f).timer n = f (s.timer n) :=
  getD_set_self _ _ _ _ h

theorem State.tng_modTng_self (s : State) (t : Nat) (f : Tongs → Tongs) (h : t < 8) : (s.modTng t f).tng t = f (s.tng t) :=
  getD_set_self _ _ _ _ h

end Sys2Proof.Machine
end

