-- ==== Sys2Proof/Tests/Slice0.lean ====
section
/-!
SUPPORT. The model's own tests: ill-formed commands, words written out from the spec's encodings, steps of the spec's worked cases, and for
each statement a state and operands that meet its hypotheses (wit_<name of the statement>).
-/

namespace Sys2Proof.Tests

open Sys2Proof Sys2Proof.Machine

set_option maxRecDepth 20000

/-! ## Helpers -/

/-- The state after reset with some fields of registers set. -/
def cfg (l : List (Fld × Nat)) : State := l.foldl (fun s x => s.set x.1 x.2) State.reset

/-- The same with the reset over. -/
def live (l : List (Fld × Nat)) : State :=
  let s := cfg l
  { s with power := { s.power with reset := none }, pcie := { s.pcie with ready := true } }

/-- A Bool that says that the invariant holds. -/
def invB (s : State) : Bool := Memory.wf s.mem && Sparse.wf RegMap.resetWord s.regs && decide (s.ledger.length ≤ 256)

theorem inv_of {s : State} (h : invB s = true) : s.Inv := by
  simp only [invB, Bool.and_eq_true, decide_eq_true_eq] at h
  exact ⟨h.1.1, h.1.2, h.2⟩

/-- The same with the time base at ns. -/
def atNs (s : State) (ns : Nat) : State := { s with tb := BitVec.ofNat 92 (ns * 2 ^ 28) }

/-- A phase task of slot 0 that has issued nothing. -/
def run0 : Run :=
  { slot := 0, kind := .phase, strike := false, clock := 0, stall := .none, first := true, entry := none, handler := none, lutGot := [], trap := none }

/-- Engine 0 runs that task in context c. -/
def task (s : State) (r : Run) (c : Ctx) : State := s.modEng 0 (fun g => { g with cur := some r, ph := c, inReset := false, holdOff := false })

/-- A context with some data registers set. -/
def ctxD (l : List (Nat × W32)) : Ctx := l.foldl (fun c x => c.setD x.1 x.2) Ctx.zero

/-- The word, field or part that a next state answers; none for a fault. -/
def after {α : Type} (o : Host.Outcome State Fault Refusal) (f : State → α) : Option α :=
  match o with
  | .next t => some (f t)
  | _ => none

/-- Slot 0 is admitted and holds these bindings (type, index). -/
def bound (s : State) (l : List (Nat × Nat)) : State :=
  s.modSlot 0 (fun x => { x with admitted := true, binds := l.map (fun b => (b.1, b.2, List.replicate 6 0)) })

/-- The same after reset. -/
def at0 (c : Ctx) : State := task (live []) run0 c

/-- Engine 0 can issue there. -/
theorem can_issue (c : Ctx) (h : c.pc.toNat < 0x20000) : (at0 c).CanIssue 0 run0 c := by
  refine ⟨rfl, rfl, rfl, rfl, ?_⟩
  show (if 0x20000 ≤ c.pc.toNat then some causeIllegal else none) = none
  rw [if_neg (by omega)]


/-! ## Ill-formed commands -/

theorem test_wf_hello : Instr.wf (.hello 0 []) = false := by decide
theorem test_wf_route : Instr.wf (.route 0 0 0 []) = false := by decide
theorem test_wf_etRd : Instr.wf (.etRd 0 0 [0]) = false := by decide
theorem test_wf_etWr : Instr.wf (.etWr 0 0 [0]) = false := by decide
theorem test_wf_ttCell : Instr.wf (.ttCell 0 0 []) = false := by decide
/-- The check value of the CRC of R389, that of CRC-16/CCITT-FALSE over the ASCII digits 1 to 9. -/
theorem test_crc16 : crc16 [0x31, 0x32, 0x33, 0x34, 0x35, 0x36, 0x37, 0x38, 0x39] = 0x29B1 := by decide

theorem test_wf_sync : Instr.wf (.sync 0 { res := 0, src := 0, hops := 0 } []) = false := by decide
theorem test_wf_rdr : Instr.wf (.rdr 0 []) = false := by decide
theorem test_wf_wra : Instr.wf (.wra 0 []) = false := by decide
theorem test_wf_msg : Instr.wf (.msg 0 0 []) = false := by decide
theorem test_wf_taken : Instr.wf (.taken 0 0 []) = false := by decide
theorem test_wf_cancel : Instr.wf (.cancel 0 0 []) = false := by decide
theorem test_wf_canFrameReceived : Instr.wf (.canFrameReceived 0 ⟨List.replicate 7 0, false⟩ 0 0) = false ∧
    Instr.wf (.canFrameReceived 0 ⟨List.replicate 73 0, false⟩ 0 0) = false := by decide
theorem test_wf_doorbellReadComplete : Instr.wf (.doorbellReadComplete true []) = false := by decide
theorem test_wf_descriptorReadComplete : Instr.wf (.descriptorReadComplete 0 true []) = false := by decide
theorem test_wf_fault : exec (.hello 0 []) State.reset = .fault .illFormed ∧ exec (.msg 0 0 []) State.reset = .fault .illFormed := ⟨rfl, rfl⟩

/-! ## Words of the worked case of 07 -/

/-- The words of the timestamped handler and of the calibration. -/
theorem test_words : encodeGrg (.gett 0 3) = some (0, 0xB0C00004) ∧ encodeGrg (.addi 0 3 3 (BitVec.ofInt 18 (-64))) = some (0, 0x08CFFFC0) ∧
    encodeGrg (.subc 0 4 4 15) = some (0, 0x0113C003) ∧ encodeGrg (.st 0 3 0 2 true 4) = some (0, 0x44C50004) ∧
    encodeGrg (.movi 0 5 false 4) = some (0, 0x21400004) ∧ encodeGrg (.sev 0 0 5) = some (0, 0xB0140001) ∧
    encodeGrg (.endTask 0) = some (0, 0x04000001) ∧ encodeGrg (.luti 0 2 2 1 6 8 false) = some (0, 0xA090B200) ∧
    encodeGrg (.mul 0 0 2 7) = some (0, 0x90270000) ∧ encodeGrg (.rnd 0 8 0 30) = some (0, 0x9080A01E) := by decide

/-- Each of them is a word the decoder takes. -/
theorem test_words_decode : (([0xB0C00004, 0x08CFFFC0, 0x0113C003, 0x44C50004, 0x21400004, 0xB0140001, 0x04000001, 0xA090B200, 0x90270000, 0x9080A01E] : List W32).all
    (fun w => (decodeGrg 0 w).isSome)) = true := by decide

/-- A word with an opcode that no instruction has. -/
theorem test_word_illegal : (decodeGrg 0 0xFFFFFFFF).isNone = true := by decide

/-- ADDI D3, D3, #-64 of the handler: C is set, for there is no borrow. -/
theorem test_addi : after (exec (.addi 0 3 3 (BitVec.ofInt 18 (-64))) (at0 (ctxD [(3, 0x2A05F268)]))) (fun t => ((t.ctxOf 0).D 3, flgC (t.ctxOf 0).flg, (t.ctxOf 0).pc)) =
    some (0x2A05F228, true, 4) := by decide

/-- SUBC D4, D4, D15 with C set: 1 - 0 - 1 + 1. -/
theorem test_subc : after (exec (.subc 0 4 4 15) (at0 { ctxD [(4, 1)] with flg := setC 0 true })) (fun t => (t.ctxOf 0).D 4) = some 1 := by decide

/-- ST.W D3, [A0]+4 in a ring of 64 bytes: the last stamp's high word wraps A0. -/
theorem test_st : after (exec (.st 0 3 0 2 true 4) (at0 { ctxD [(3, 0x2A05F228)] with
    a := Ctx.zero.a.setIfInBounds 0 60, bnk := Ctx.zero.bnk.setIfInBounds 0 4, len := Ctx.zero.len.setIfInBounds 0 64 }))
    (fun t => ((t.ctxOf 0).A 0, t.rd (Memory.engine 0 0x4003C) 4)) = some (0, [0x28, 0xF2, 0x05, 0x2A]) := by decide

/-- LUTI of the calibration: y[5] = 41,250, y[6] = 36,980, D1 = 1,447 of 17 entries. -/
theorem test_luti : after (exec (.luti 0 2 2 1 6 8 false) ((at0 { ctxD [(1, 1447), (6, 17)] with
    a := Ctx.zero.a.setIfInBounds 2 0x2000, bnk := Ctx.zero.bnk.setIfInBounds 1 4 }).wr (Memory.engine 0 0x42014) (leBytes 4 41250 ++ leBytes 4 36980)))
    (fun t => ((t.ctxOf 0).D 2, flgC (t.ctxOf 0).flg)) = some (38464, false) := by decide

/-- MUL M0, D2, D7. -/
theorem test_mul : after (exec (.mul 0 0 2 7) (at0 (ctxD [(2, 38464), (7, 0x41000000)]))) (fun t => (t.ctxOf 0).M 0) = some 41945724354560 := by decide

/-- RND D8, M0, #30. -/
theorem test_rnd : after (exec (.rnd 0 8 0 30) (at0 { Ctx.zero with m := Ctx.zero.m.setIfInBounds 0 41945724354560 }))
    (fun t => ((t.ctxOf 0).D 8, flgV (t.ctxOf 0).flg)) = some (39065, false) := by decide

/-! ## Witnesses: the block and the engines -/

/-- Engine 0 can issue in context c. -/
def Issues (c : Ctx) : Prop := (at0 c).CanIssue 0 run0 c

theorem issues (c : Ctx) (h : c.pc.toNat < 0x20000) : Issues c := can_issue c h

/-- A context with pointers set: (n, An, LENn), and bank 0 and 1. -/
def ctxA (a : List (Nat × BitVec 16 × BitVec 16)) (b0 b1 : BitVec 16) : Ctx :=
  a.foldl (fun c x => { c with a := c.a.setIfInBounds x.1 x.2.1, len := c.len.setIfInBounds x.1 x.2.2 })
    { Ctx.zero with bnk := (Ctx.zero.bnk.setIfInBounds 0 b0).setIfInBounds 1 b1 }

theorem wit_StepRunsTheFrontCommand : { State.reset with pending := [Instr.por, .wdt] }.pending = .por :: [.wdt] := rfl

theorem wit_EmptyQueuePassesATimeEdge : State.reset.pending = [] := rfl

theorem wit_StepKeepsTheInvariant : State.reset.Inv ∧ step State.reset = .next State.reset.timeEdge := ⟨inv_of (by decide), rfl⟩

theorem wit_EveryWellFormedCommandAnswers : Instr.wf .por = true ∧ Instr.wf (.hello 0 []) = false := by decide

theorem wit_GrgWordsDecodeToTheirInstruction : encodeGrg (.addi 0 3 3 (BitVec.ofInt 18 (-64))) = some (0, 0x08CFFFC0) := by decide

theorem wit_NothingIssuesWithoutARunningTask : engineOf (.nop 0) = some 0 ∧ (State.reset.engN 0).cur = none ∧
    (((at0 Ctx.zero).modRun 0 (fun r => { r with stall := .aligned 0 })).engN 0).cur = some { run0 with stall := .aligned 0 } ∧
    (((at0 Ctx.zero).modEng 0 (fun g => { g with halted := true })).engN 0).cur = some run0 ∧
    (((at0 Ctx.zero).modEng 0 (fun g => { g with halted := true })).engN 0).halted = true := by decide

theorem wit_CompletionFrame : ((at0 Ctx.zero).engN 0).cur = some run0 ∧ TaskKind.event ≠ run0.kind ∧ 1 ≠ (0 : Fin 16).val ∧
    Memory.engine (0 : Fin 16) ((at0 Ctx.zero).ctxOf (0 : Fin 16)).pc.toNat ∉ (at0 Ctx.zero).eccOne := by decide

theorem wit_AddAndSubtractResults : Issues (ctxD [(0, 0xFFFFFFFF), (1, 0x80000000)]) := issues _ (by decide)

theorem wit_LogicAndMoveResults : Issues (ctxD [(0, 1)]) ∧ (ctxD [(0, 1)]).D 0 ≠ 0 ∧ (ctxD [(0, 1)]).D 1 = 0 := ⟨issues _ (by decide), by decide⟩

/-- pos + w of 33 (the trap) and of 32. -/
theorem wit_FieldExtractAndInsert : Issues Ctx.zero ∧ 32 < (31 : BitVec 5).toNat + ((1 : BitVec 5).toNat + 1) ∧ (31 : BitVec 5).toNat + ((0 : BitVec 5).toNat + 1) ≤ 32 ∧
    (0 : BitVec 5).toNat + ((31 : BitVec 5).toNat + 1) ≤ 32 := ⟨issues _ (by decide), by decide⟩

/-- Amounts 0, 1, 31, 32 and 255, by register and as immediates. -/
theorem wit_ShiftResults : Issues (ctxD [(1, 0x100), (2, 1), (3, 31), (4, 32), (5, 255)]) ∧
    (let c := ctxD [(1, 0x100), (2, 1), (3, 31), (4, 32), (5, 255)]
     (c.D 1).toNat % 256 = 0 ∧ (c.D 2).toNat % 256 = 1 ∧ (c.D 3).toNat % 256 = 31 ∧ (c.D 4).toNat % 256 = 32 ∧ (c.D 5).toNat % 256 = 255) ∧
    (0 : BitVec 5).toNat = 0 ∧ (1 : BitVec 5).toNat = 1 ∧ (31 : BitVec 5).toNat = 31 := ⟨issues _ (by decide), by decide⟩

theorem wit_DivideAndAbsResults : Issues (ctxD [(0, 0x80000000), (1, 0xFFFFFFFF), (2, 7)]) ∧
    (let c := ctxD [(0, 0x80000000), (1, 0xFFFFFFFF), (2, 7)]
     c.D 3 = 0 ∧ c.D 2 ≠ 0 ∧ (c.D 0 = 0x80000000 ∧ c.D 1 = 0xFFFFFFFF) ∧ ¬ (c.D 0 = 0x80000000 ∧ c.D 2 = 0xFFFFFFFF) ∧ c.D 2 ≠ 0x80000000) :=
  ⟨issues _ (by decide), by decide⟩

/-- Each class at its last index and just past it, each pointer form, and a circular buffer of 48 bytes (p is 6). -/
theorem wit_MovxAndAddressOperations : Issues (ctxA [(4, 0x260, 48)] 0 0) ∧
    ((0 : Fin 16).val = 0 ∧ (1 : Fin 16).val = 1 ∧ (3 : Fin 8).val < 4 ∧ 4 ≤ (4 : Fin 8).val ∧ (0 : Fin 8) = 0 ∧ (1 : Fin 8) ≠ 0 ∧
      2 ≤ (2 : Fin 8).val ∧ 5 ≤ (5 : Fin 8).val ∧ 8 ≤ (8 : Fin 16).val ∧ 4 ≤ (4 : Fin 16).val) ∧
    ((48 : BitVec 16) ≠ 0 ∧ (48 : BitVec 16).toNat ≤ 2 ^ 6 ∧ ∀ q, (48 : BitVec 16).toNat ≤ 2 ^ q → 6 ≤ q) := by
  refine ⟨issues _ (by decide), by decide, by decide, by decide, ?_⟩
  intro q h
  refine Nat.le_of_not_lt (fun hq => ?_)
  have h2 : 2 ^ q ≤ 2 ^ 5 := Nat.pow_le_pow_right (by decide) (by omega)
  have h3 : (48 : BitVec 16).toNat = 48 := rfl
  omega

/-- A taken, an untaken and a bad condition; JR and CALLR to an aligned and a misaligned address; an empty, a partly filled and a full stack. -/
theorem wit_BranchesCallsAndReturns :
    (Issues (ctxD [(1, 0x400), (2, 0x402)]) ∧
      (let c := ctxD [(1, 0x400), (2, 0x402)]
       condB c.flg 15 = none ∧ condB c.flg 14 = some true ∧ condB c.flg 0 = some false ∧ condBA c.flg 1 = true ∧ condBA c.flg 0 = false ∧
       (c.D 2).toNat % 4 ≠ 0 ∧ (c.D 1).toNat % 4 = 0 ∧ c.rstk = [] ∧
       ¬ (16 ≤ c.rstk.length ∧ (at0 c).on (Reg.ENG_CFG_RSOVF 0) = true))) ∧
    (Issues { Ctx.zero with rstk := [4] } ∧ { Ctx.zero with rstk := [4] }.rstk = 4 :: []) ∧
    (let c := { ctxD [(1, 0x400)] with rstk := List.replicate 16 4 }
     let s := task (live [(Reg.ENG_CFG_RSOVF 0, 1)]) run0 c
     s.CanIssue 0 run0 c ∧ 16 ≤ c.rstk.length ∧ s.on (Reg.ENG_CFG_RSOVF 0) = true ∧ (c.D 1).toNat % 4 = 0) :=
  ⟨⟨issues _ (by decide), by decide⟩, ⟨issues _ (by decide), by decide⟩, ⟨rfl, rfl, rfl, rfl, rfl⟩, by decide⟩

/-- A loop of no body, one that would close with an open level, a count of 0, four open levels, and a level that ends here with counts 1 and 2. -/
theorem wit_LoopsOpenAndClose :
    (let l : LoopLevel := { ls := 0, le := 8, lc := 1 }
     let m : LoopLevel := { ls := 0, le := 0, lc := 2 }
     Issues Ctx.zero ∧ (0 : BitVec 10).toNat = 0 ∧ (1 : BitVec 10).toNat ≠ 0 ∧
     (Issues { Ctx.zero with loops := [m] } ∧ { Ctx.zero with loops := [m] }.loops.head? = some m ∧ m.le = Ctx.zero.pc) ∧
     (Issues { Ctx.zero with loops := [l, l, l, l] } ∧ 4 ≤ [l, l, l, l].length ∧ ¬ (∃ x, [l, l, l, l].head? = some x ∧ x.le = Ctx.zero.pc)) ∧
     (Issues { Ctx.zero with loops := [l, l, l] } ∧ [l, l, l].length < 4 ∧ (1 : BitVec 16) ≠ 0 ∧ ¬ (∃ x, [l, l, l].head? = some x ∧ x.le = Ctx.zero.pc))) ∧
    (let gone : LoopLevel := { ls := 0, le := 0, lc := 1 }
     let last : LoopLevel := { ls := 0, le := 0, lc := 2 }
     let other : LoopLevel := { ls := 0, le := 8, lc := 2 }
     (∀ l ∈ [gone], l.le = Ctx.zero.pc ∧ l.lc.toNat ≤ 1) ∧ last.le = Ctx.zero.pc ∧ 1 < last.lc.toNat ∧ other.le ≠ Ctx.zero.pc) := by
  refine ⟨⟨issues _ (by decide), by decide, by decide, ⟨issues _ (by decide), by decide⟩, ⟨issues _ (by decide), by decide, ?_⟩,
    ⟨issues _ (by decide), by decide, by decide, ?_⟩⟩, by decide⟩ <;> rintro ⟨x, hx, hy⟩ <;> cases hx <;> exact absurd hy (by decide)

theorem wit_AccumulatorResults : Issues (ctxD [(0, 0x80000000)]) ∧ (0 : BitVec 6).toNat = 0 ∧ (63 : BitVec 6).toNat ≠ 0 :=
  ⟨issues _ (by decide), by decide⟩

/-- Own scratch at its first byte and last quad, instruction memory at its last word, a misaligned word, sign extension of a word. -/
theorem wit_LoadsAndStores :
    (Issues (ctxA [(0, 0, 0), (1, 2, 0)] 4 0) ∧
      (let c := ctxA [(0, 0, 0), (1, 2, 0)] 4 0
       let x := fun (a : Fin 8) => ((c.BNK (a.val / 2)) ++ c.A a : BitVec 32).toNat
       x 0 % 16 = 0 ∧ 0x40000 ≤ x 0 ∧ x 0 < 0x80000 ∧ x 1 % 4 ≠ 0 ∧ x 1 < 0x10000000 ∧ Memory.wf (at0 c).mem = true ∧
       (∀ k, k < 16 → Memory.engine (0 : Fin 16) ((x 0 + k) / 4 * 4) ∉ (at0 c).eccUnc ∧ Memory.engine (0 : Fin 16) ((x 0 + k) / 4 * 4) ∉ (at0 c).eccOne))) ∧
    (Issues (ctxA [(0, 0xFFF0, 0)] 7 0) ∧ ((ctxA [(0, 0xFFF0, 0)] 7 0).BNK 0 ++ (ctxA [(0, 0xFFF0, 0)] 7 0).A 0 : BitVec 32).toNat + 16 = 0x80000) ∧
    (Issues (ctxA [(0, 0xFFFC, 0)] 1 0) ∧ ((ctxA [(0, 0xFFFC, 0)] 1 0).BNK 0 ++ (ctxA [(0, 0xFFFC, 0)] 1 0).A 0 : BitVec 32).toNat + 4 = 0x20000) ∧
    (2 ≤ (2 : Fin 4).val ∧ (3 : Fin 4).val = 3 ∧ (1 : Fin 16).val % 4 ≠ 0 ∧ (4 : Fin 16).val % 4 = 0) ∧ (∀ c, (at0 c).noHaltDue 0) := by
  refine ⟨⟨issues _ (by decide), by decide, by decide, by decide, by decide, by decide, by decide, ?_⟩, ⟨issues _ (by decide), by decide⟩,
    ⟨issues _ (by decide), by decide⟩, by decide, fun _ => Or.inl rfl⟩
  intro k _
  exact ⟨List.not_mem_nil, List.not_mem_nil⟩

/-- The calibration of 07 in words and in halfwords, its table with no entry and with an index past its end. -/
theorem wit_LutiInterpolates :
    (let c := { ctxA [(2, 0x2000, 0)] 0 4 with d := (ctxD [(1, 1447), (6, 17), (7, 4352)]).d }
     Issues c ∧ run0.lutGot = [] ∧ (at0 c).noHaltDue 0 ∧ (c.D 0).toNat = 0 ∧ 0 < (c.D 6).toNat ∧ (c.D 6).toNat - 1 ≤ (c.D 7).toNat / 2 ^ 8 ∧
     (c.D 1).toNat / 2 ^ 8 < (c.D 6).toNat - 1 ∧
     (∀ w, w = 2 ∨ w = 4 → ∀ j, j = 5 ∨ j = 6 ∨ j = 16 →
       let x := ((c.BNK 1).toNat * 0x10000 + (c.A 2).toNat + w * j) % 2 ^ 32
       x % w = 0 ∧ (x < 0x20000 ∨ (0x40000 ≤ x ∧ x < 0x80000)) ∧ Memory.engine (0 : Fin 16) (x / 4 * 4) ∉ (at0 c).eccUnc ∧
       Memory.engine (0 : Fin 16) (x / 4 * 4) ∉ (at0 c).eccOne)) := by
  refine ⟨issues _ (by decide), rfl, Or.inl rfl, by decide, by decide, by decide, by decide, ?_⟩
  intro w hw j h
  rcases hw with rfl | rfl <;> rcases h with rfl | rfl | rfl <;> exact ⟨by decide, by decide, List.not_mem_nil, List.not_mem_nil⟩

/-- LUTI of the calibration over the same entries as halfwords: y[5] = -6, y[6] = -10, 167 / 256 of the way. -/
theorem test_luti_half : after (exec (.luti 0 2 2 1 6 8 true) ((at0 { ctxD [(1, 1447), (6, 17)] with
    a := Ctx.zero.a.setIfInBounds 2 0x2000, bnk := Ctx.zero.bnk.setIfInBounds 1 4 }).wr (Memory.engine 0 0x4200A) [0xFA, 0xFF, 0xF6, 0xFF]))
    (fun t => ((t.ctxOf 0).D 2, flgC (t.ctxOf 0).flg, flgN (t.ctxOf 0).flg)) = some (0xFFFFFFF7, false, true) := by decide

/-- Offsets 0xFFFC, 0xFFFE and 0x10000, queues of 63 and 64 entries, and a transmit request that is and one that is not in order. -/
theorem wit_EmitPosts :
    (let c := ctxD [(0, 0xFFFC), (1, 0xFFFE), (2, 0x10000), (3, 0x20000000), (4, 0x40)]
     let e : EmitEntry := { slot := 0, kind := .phase, live := true, tx := false, a := 0, v := 0 }
     let s := fun (n : Nat) => (task (bound (live [(Reg.ENG_STAT_OWNER 0, 0)]) [(3, 0)]) run0 c).modEng 0 (fun g => { g with emitq := List.replicate n e })
     ((s 63).CanIssue 0 run0 c ∧ (s 64).CanIssue 0 run0 c) ∧
     (c.D 0).toNat % 4 = 0 ∧ (c.D 0).toNat < 0x10000 ∧ (c.D 1).toNat % 4 ≠ 0 ∧ 0x10000 ≤ (c.D 2).toNat ∧ ((s 63).engN 0).emitq.length < 64 ∧ 64 ≤ ((s 64).engN 0).emitq.length ∧
     ((s 63).afterFetch 0).emtOk 0 (c.D 3).toNat 0x40 = true ∧ ((s 64).afterFetch 0).emtOk 0 (c.D 3).toNat 0x40 = true ∧ ((s 63).afterFetch 0).emtOk 0 (c.D 3).toNat 0 = false) :=
  ⟨⟨⟨rfl, rfl, rfl, rfl, rfl⟩, ⟨rfl, rfl, rfl, rfl, rfl⟩⟩, by decide⟩

/-- The same after reset, with fields set and the time base at ns. -/
def atT (l : List (Fld × Nat)) (ns : Nat) (c : Ctx) : State := task { live l with tb := BitVec.ofNat 92 (ns * 2 ^ 28) } run0 c

/-- WFE with no free input, with a pending one, and with none pending; WAITT before its time, reached by this edge, within and past its limit; GETT first
and later, with and without an entry time; SEVR with the Chain closed, to this device, to an unknown and to a known one, with a credit and without. -/
theorem wit_EventAndTimeInstructions :
    (let c := ctxD [(2, 5), (4, 100), (5, 1000), (6, 0x00010001), (7, 0x00020001)]
     let s := (atT [] 1000 c).modEng 0 (fun g => { g with pend := 6 })
     s.CanIssue 0 run0 c ∧ (let mask := (c.D 1 ++ c.D 0 : BitVec 64); mask &&& ~~~ (s.engN 0).boundMask = 0) ∧
     (let mask := (c.D 3 ++ c.D 2 : BitVec 64); let free := mask &&& ~~~ (s.engN 0).boundMask
      free.getLsbD 2 = true ∧ (s.engN 0).pend.getLsbD 2 = true ∧ (∀ j, j < 2 → ¬ (free.getLsbD j = true ∧ (s.engN 0).pend.getLsbD j = true))) ∧
     ((atT [] 1000 c).CanIssue 0 run0 c ∧ (let mask := (c.D 3 ++ c.D 2 : BitVec 64); mask ≠ 0 ∧ mask &&& ~~~ ((atT [] 1000 c).engN 0).boundMask &&& ((atT [] 1000 c).engN 0).pend = 0)) ∧
     (let t := (c.D 6 ++ c.D 5 : BitVec 64).toNat; s.now < t) ∧ s.now = 1000 ∧ (c.D 4).toNat = 100 ∧
     (let late := fun (ns prev : Nat) => { atT [] ns (ctxD [(4, 100), (8, 1000)]) with time := { (live []).time with prev := prev } }
      1000 ≤ (late 1000 999).now ∧ (late 1000 999).time.prev < 1000 ∧ 1000 ≤ (late 1100 1000).time.prev ∧ (late 1100 1000).now - 1000 ≤ 100 ∧
      100 < (late 1101 1000).now - 1000)) ∧
    (run0.first = true ∧ run0.entry = none ∧ { run0 with first := false }.first = false ∧ { run0 with entry := some 5 }.entry = some 5 ∧
      (task (live []) { run0 with entry := some 5 } Ctx.zero).CanIssue 0 { run0 with entry := some 5 } Ctx.zero ∧
      (task (live []) { run0 with first := false } Ctx.zero).CanIssue 0 { run0 with first := false } Ctx.zero) ∧
    (let c := ctxD [(6, 0x00010001), (7, 0x00020001)]
     let l := [(Reg.CHN_STAT_STATE, 4), (Reg.CHN_RUNCTL_RUN, 1), (Reg.CHN_STAT_ID, 1), (Reg.CHN_RT_ENTRY2 0, 4)]
     (at0 c).etOpen = false ∧ ((task (live l) run0 c).CanIssue 0 run0 c) ∧ (task (live l) run0 c).etOpen = true ∧
     (c.D 6).toNat / 2 ^ 16 % 32 = (task (live l) run0 c).chnId ∧ (c.D 7).toNat / 2 ^ 16 % 32 ≠ (task (live l) run0 c).chnId ∧
     (task (live l) run0 c).rtValid 2 = true ∧ (task (live (l.take 3)) run0 c).rtValid 2 = false ∧ (task (live l) run0 c).etCredit 2 = true ∧
     ((task (live l) run0 c).modLink ((task (live l) run0 c).rtLink 2) (fun x => { x with credits := List.replicate 16 0 })).etCredit 2 = false) := by
  refine ⟨⟨⟨rfl, rfl, rfl, rfl, rfl⟩, by decide, by decide, ⟨⟨rfl, rfl, rfl, rfl, rfl⟩, by decide⟩, by decide, by decide, by decide, by decide⟩,
    ⟨rfl, rfl, rfl, rfl, ⟨rfl, rfl, rfl, rfl, rfl⟩, ⟨rfl, rfl, rfl, rfl, rfl⟩⟩, ⟨by decide, ⟨rfl, rfl, rfl, rfl, rfl⟩, by decide⟩⟩

/-- Outside a handler, and in one after either kind of cause. -/
theorem wit_TaskEndsAndReturns : Issues Ctx.zero ∧ run0.handler = none ∧
    (task (live []) { run0 with handler := some false } Ctx.zero).CanIssue 0 { run0 with handler := some false } Ctx.zero ∧
    (task (live []) { run0 with handler := some true } Ctx.zero).CanIssue 0 { run0 with handler := some true } Ctx.zero :=
  ⟨issues _ (by decide), rfl, ⟨rfl, rfl, rfl, rfl, rfl⟩, ⟨rfl, rfl, rfl, rfl, rfl⟩⟩

/-- The task of slot 0 may take 25 cycles, which are 16 TIME cycles (R48), and has taken n. -/
def budgeted (n : Nat) : State :=
  (task (live []) { run0 with clock := n } Ctx.zero).modEng 0 (fun g => { g with tasks := [{ slot := 0, kind := .phase, strike := false, aligned := false, input := 0, w := 25, act := 1, entry := 0 }] })

/-- A task whose budget is spent; causes 1 and 9, a resumable one (2), a Strike task with TRAPQ 0, and an ordinary task. -/
theorem wit_TrapEntersItsHandler :
    (let s := task (live [(Reg.ENG_TRAPV_EN 0, 1)]) run0 Ctx.zero
     s.Inv ∧ (s.engN 0).cur = some run0 ∧ run0.handler = none ∧ s.spent 0 = false ∧ s.on (Reg.ENG_TRAPV_EN 0) = true ∧ run0.strike = false) ∧
    ((budgeted 16).spent 0 = true ∧ ((budgeted 16).engN 0).cur = some { run0 with clock := 16 } ∧ (budgeted 15).spent 0 = false) ∧
    (let r := { run0 with strike := true }
     let s := task (live [(Reg.ENG_TRAPV_EN 0, 1), (Reg.ENG_CFG_TRAPQ 0, 0)]) r Ctx.zero
     s.Inv ∧ (s.engN 0).cur = some r ∧ r.handler = none ∧ s.on (Reg.ENG_TRAPV_EN 0) = true ∧ s.on (Reg.ENG_CFG_TRAPQ 0) = false) :=
  ⟨⟨inv_of (by decide), by decide⟩, by decide, ⟨inv_of (by decide), by decide⟩⟩

theorem wit_EngineCommands :
    ((State.reset.engN 0).inReset = true ∧ State.reset.awake = true ∧ State.reset.running = false ∧ (live [(Reg.HRT_STAT_RUNNING, 1)]).running = true) ∧
    (∀ n, n = 0 ∨ n = 1 → let r := { run0 with stall := .aligned n }
     ((task (live []) r Ctx.zero).engN 0).cur = some r ∧ r.stall = .aligned n) ∧
    (((budgeted 16).engN 0).cur = some { run0 with clock := 16 } ∧ ((budgeted 16).engN 0).task 0 = (((budgeted 16).engN 0).tasks)[0]?) ∧
    (let r := { run0 with stall := .waitt 1000 }
     let s := fun (n : Nat) => task { live [] with tb := BitVec.ofNat 92 (n * 2 ^ 28) } r Ctx.zero
     ((s 1000).engN 0).cur = some r ∧ r.stall = .waitt 1000 ∧ (1000 : BitVec 64).toNat ≤ (s 1000).now ∧ (s 1000).awake = true ∧
     ((s 999).engN 0).cur = some r ∧ (s 999).now < (1000 : BitVec 64).toNat) ∧
    (let s := live [(Reg.ENG_STAT_OWNER 0, 0), (Reg.ENG_STAT_OWNER 1, 0), (Reg.PRS_STAT_STATE 0, slotRunning)]
     whoEngine (.engine 1) = some 1 ∧ s.engOwner 1 = s.engOwner 0 ∧ s.engOwner 0 ≠ 3 ∧ (s.engN 0).inReset = true ∧ s.slotState (s.engOwner 0) = slotRunning) ∧
    ((live []).mayDebug .host 0 = false ∧ (live []).mayDebug .jtag 0 = true ∧ ((live []).engN 0).halted = false ∧
      ¬ (((live []).get Reg.TMP_SUBSTAT_STATE = 2 ∨ (live []).get Reg.TMP_SUBSTAT_STATE = 3) ∧ (live []).get Reg.TMP_SUBSTAT_ENGINE = 0)) ∧
    (let s := (at0 Ctx.zero).modEng 0 (fun g => { g with halted := true })
     s.running = false ∧ (s.engN 0).halted = true ∧ (s.engN 0).cur = some run0 ∧ run0.stall = .none) := by
  refine ⟨by decide, ?_, by decide⟩
  rintro n (rfl | rfl) <;> decide

/-! ## Witnesses: ledger, time, set-up space -/

theorem wit_LedgerEntryIsWritten : (live [(Reg.PWR_LEDHEAD_SEQ, 0xFFFFFFFF)]).Inv ∧ (live [(Reg.PWR_LEDHEAD_SEQ, 0xFFFFFFFF)]).get Reg.PWR_LEDHEAD_SEQ = 0xFFFFFFFF ∧
    State.reset.Inv := ⟨inv_of (by decide), by decide, inv_of (by decide)⟩

/-- Rates at both limits, remainders of either sign. -/
theorem wit_TimeBaseEdge : 0x3FFCB924 ≤ (State.reset.get Reg.TIME_ADDEND_ADD : Int) ∧ (State.reset.get Reg.TIME_ADDEND_ADD : Int) ≤ 0x400346DC ∧
    0x3FFCB924 ≤ ((live [(Reg.TIME_ADDEND_ADD, 0x3FFCB924)]).get Reg.TIME_ADDEND_ADD : Int) ∧
    0 ≤ State.reset.time.rem ∧ State.reset.time.rem ≤ 0 := by decide

/-- A misaligned access, and an aligned one of another width, that no rule holds back. -/
theorem wit_MisshapenAccessIsReported : (live []).Inv ∧ (live []).decodes .jtag 0x1002 = some 0x1002 ∧ (live []).gate .jtag 0x1002 = none ∧ 0x1002 % 4 ≠ 0 ∧
    (live []).decodes (.engine 0) 0xFFFC = some 0xFFFC ∧ (live []).gate (.engine 0) 0xFFFC = none := ⟨inv_of (by decide), by decide⟩

/-- The host with its function open and BAR0 at 0x12340000, both initiators without one, a host function that is closed, and a new base. -/
theorem wit_RegisterRowsReachTheRegister :
    (let s := { live [(Reg.DEV_PCISTAT_LINKUP, 1)] with pcie := { (live []).pcie with pf0 := { (live []).pcie.pf0 with mse := true, bar0 := 0x12340000 } } }
     s.Inv ∧ s.decodes .host 0x1234FFFC = some 0xFFFC ∧ s.gate .host 0xFFFC = none ∧ s.decodes .host 0x12350000 = none ∧ s.gate .host 0x18 = none ∧
     s.gate .host 0x1C = none ∧ s.gate .host 0x34 = none ∧ Who.host ≠ .pf1 ∧ Who.host ≠ .jtag) ∧
    ((live []).decodes .host 0 = some 0 ∧ (live []).gate .host 0 = some false ∧ (live []).pcie.ready = true ∧ (live []).power.reset = none ∧
      (0x5678FFFC : BitVec 32).toNat = (0x56780000 : BitVec 32).toNat + 0xFFFC ∧ (0x56780000 : BitVec 32).toNat % 0x10000 = 0 ∧ (live []).gate (.engine 3) 0x18 = none ∧ (live []).gate .jtag 0x34 = none ∧ Who.jtag ≠ .pf1) :=
  ⟨⟨inv_of (by decide), by decide⟩, by decide⟩

/-- The host steers, an engine does not; values at and past both limits; a step within and past the limit of a jump, and one while held. -/
theorem wit_TimeCommands :
    ((live []).slewPart = (live []).time.rem ∧ (let s := (live []).startSlew 5 1; s.slewPart ≠ s.time.rem)) ∧
    ((live [(Reg.TIME_CTRL_OWNER, 3)]).steers (.engine 0) = false ∧ (live [(Reg.TIME_CTRL_OWNER, 3)]).steers .host = true ∧ (live [(Reg.TIME_CTRL_OWNER, 3)]).Inv) ∧
    ((0x3FFCB923 : W32).toNat < 0x3FFCB924 ∧ 0x400346DC < (0x400346DD : W32).toNat ∧ 0x3FFCB924 ≤ (0x3FFCB924 : W32).toNat ∧ (0x400346DC : W32).toNat ≤ 0x400346DC) ∧
    ((0x00FFFFFF : W32).toNat / 2 ^ 24 = 0 ∧ (0x01000000 : W32).toNat / 2 ^ 24 ≠ 0) ∧
    (let s := live [(Reg.TIME_STAT_VALID, 1), (Reg.TIME_JUMPLIM_LIM, 1000)]
     (live []).get Reg.TIME_STAT_VALID = 0 ∧ s.Inv ∧ s.get Reg.TIME_STAT_VALID ≠ 0 ∧ s.get Reg.TIME_STAT_HOLD = 0 ∧
     (1000 : BitVec 64).toInt.natAbs ≤ s.get Reg.TIME_JUMPLIM_LIM ∧ s.get Reg.TIME_JUMPLIM_LIM < (BitVec.ofInt 64 (-1001)).toInt.natAbs ∧
     (s.set Reg.TIME_STAT_HOLD 1).get Reg.TIME_STAT_HOLD ≠ 0 ∧ (s.set Reg.TIME_STAT_HOLD 1).get Reg.TIME_STAT_VALID ≠ 0) :=
  ⟨by decide, ⟨by decide, by decide, inv_of (by decide)⟩, by decide, by decide, ⟨by decide, inv_of (by decide), by decide⟩⟩

/-! ## Witnesses: the Hearth -/

theorem wit_RunsAndTicks :
    ((live []).Inv ∧ (live []).startCode = 0 ∧ (live [(Reg.HRT_B1_B, 0)]).Inv ∧ (live [(Reg.HRT_B1_B, 0)]).startCode ≠ 0 ∧ (live []).running = false ∧
      (live [(Reg.HRT_STAT_RUNNING, 1)]).running = true ∧ (live [(Reg.HRT_STAT_RUNNING, 1)]).Inv ∧ (live []).hearth.armed = false) ∧
    (let s := fun (src : Nat) (e : Option Nat) => (live [(Reg.HRT_CTRL_SRC, src)]).modHearth (fun h => { h with armed := true, edge := e })
     (s 0 none).timeRuns = true ∧ (s 0 none).hearth.armed = true ∧ (s 0 none).get Reg.HRT_CTRL_SRC = 0 ∧ (s 1 (some 7)).hearth.edge = some 7 ∧
     (s 1 (some 7)).timeRuns = true ∧ (s 1 none).get Reg.HRT_CTRL_SRC = 1 ∧ (s 1 none).hearth.edge = none ∧ (s 2 none).get Reg.HRT_CTRL_SRC = 2 ∧ (s 2 none).timeRuns = true ∧
     (s 0 none).hearth.nominal ≤ (s 0 none).now ∧ 7 + 48 ≤ (atNs (s 1 (some 7)) 55).now ∧ (s 1 none).hearth.nominal ≤ (s 1 none).now ∧ (s 2 none).hearth.nominal ≤ (s 2 none).now ∧
     (let t := (s 0 none).modHearth (fun h => { h with nominal := 5 }); t.hearth.armed = true ∧ t.now < t.hearth.nominal)) ∧
    (let s := fun (b : Bool) (e : Option Nat) => (live [(Reg.HRT_STAT_RUNNING, 1), (Reg.HRT_STAT_PHASE, 3)]).modHearth (fun h => { h with stopping := b, edge := e })
     (s true none).timeRuns = true ∧ (s true none).running = true ∧ (s true none).phase = 3 ∧ (s true none).hearth.stopping = true ∧
     (s false (some 7)).running = true ∧ (s false (some 7)).phase = 3 ∧ (s false (some 7)).hearth.stopping = false ∧ (s false (some 7)).hearth.edge = some 7 ∧
     (s false none).hearth.edge = none ∧ (s false none).follows = false ∧ (s false (some 7)).now < 7 + 48 ∧
     (let f := (live [(Reg.HRT_STAT_RUNNING, 1), (Reg.HRT_CTRL_SRC, 3)]).modChain (fun c => { c with sync0 := some (0, 100) })
      f.hearth.edge = none ∧ f.follows = true ∧ f.on Reg.HRT_STAT_RUNNING = true ∧ f.hearth.regrid = false ∧ f.hearth.lengthen = 0 ∧ f.hearth.free = false ∧
      f.chain.sync0 = some (0, 100) ∧ 0 ≤ f.tick ∧ f.hearth.nominal + f.boundary 3 + f.settleMin ≤ 100 + (f.tick + 1 - 0) * f.tp) ∧ 7 + 48 ≤ (atNs (s false (some 7)) 55).now ∧ 0 < (s true none).tickAt ∧
     (let n := (s false none).hearth.nominal + (s false none).tp + (s false none).hearth.lengthen
      (s false none).now < n ∧ n ≤ (atNs (s false none) n).now ∧ (atNs (s true none) n).tickAt ≤ (atNs (s true none) n).now)) := ⟨⟨inv_of (by decide), by decide, inv_of (by decide), by decide, by decide, by decide, inv_of (by decide), by decide⟩, by decide, by decide⟩

theorem wit_SyncInput :
    (let s := fun (run : Nat) (f : Hearth → Hearth) => (live [(Reg.HRT_CTRL_SRC, 1), (Reg.HRT_STAT_RUNNING, run)]).modHearth f
     (live []).get Reg.HRT_CTRL_SRC ≠ 1 ∧
     (let t := s 0 (fun h => { h with armed := true }); t.get Reg.HRT_CTRL_SRC = 1 ∧ t.timeRuns = true ∧ t.hearth.armed = true) ∧
     (let t := s 1 id; t.get Reg.HRT_CTRL_SRC = 1 ∧ t.timeRuns = true ∧ t.hearth.armed = false ∧ t.running = true ∧ t.hearth.free = false ∧ t.hearth.taken = false) ∧
     (let t := s 1 (fun h => { h with free := true }); t.timeRuns = true ∧ t.running = true ∧ t.hearth.armed = false ∧ t.hearth.free = true ∧ t.hearth.regrid = false ∧ t.hearth.lengthen = 0) ∧
     (let t := s 1 id; t.tickDue = true → t.now ≤ t.tickAt) ∧
     (let t := atNs ((s 1 id).set Reg.HRT_STAT_PHASE 3) ((s 1 id).tp + 5); t.timeRuns = true ∧ t.hearth.armed = false ∧ t.running = true ∧ t.tickDue = true ∧ t.tickAt < t.now) ∧
     (s 1 (fun h => { h with taken := true })).hearth.taken = true ∧
     (let t := s 1 (fun h => { h with missed := 17 }); t.running = true ∧ t.get Reg.HRT_CTRL_SRC = 1 ∧ 17 ≤ t.hearth.missed ∧ t.hearth.free = false) ∧
     (let t := atNs (s 1 id) 100000; t.hearth.nominal + t.get Reg.HRT_SYNCWIN_WIN < t.now ∧ t.hearth.nominal + 1000 ≤ t.now)) := by decide

/-- In each phase, at the next boundary and before it. -/
theorem wit_PhasesOfATick : ∀ p, p < 3 → let s := live [(Reg.HRT_STAT_RUNNING, 1), (Reg.HRT_STAT_PHASE, p)]
    s.running = true ∧ s.timeRuns = true ∧ s.phase = p ∧ s.now < s.hearth.nominal + s.boundary (p + 1) ∧
    (let n := s.hearth.nominal + s.boundary (p + 1); (atNs s n).hearth.nominal + (atNs s n).boundary (p + 1) ≤ (atNs s n).now) := by decide

/-! ## Witnesses: rings and PCIe -/

/-- A descriptor that is a whole chain, consumed at index 0, with this opcode, length, OPX and data. -/
def desc (op len : Nat) (opx : BitVec 64) (b : Option (List Byte)) : Desc :=
  { idx := 0, gen := 0, addr := 0x1000, len := len, first := true, last := true, irq := false, hasFcs := false, opcode := op, cls := 0, target := 0, ttick := 0, tag := 0,
    opx := opx, data := b, k := 0, late := false, kdb := 0, started := false, prog := 0, demoted := false, res := none, written := false, wait := [] }

/-- Ring 5 holds one consumed descriptor. -/
def ring5 (l : List (Fld × Nat)) (d : Desc) : State :=
  (live ((Reg.RING_CTRL_EN 5, 1) :: (Reg.RING_CFG_KIND 5, 2) :: l)).modRing 5 (fun r => { r with q := [d], live := true, out := 2, fetching := 1 })

/-- A ring with a reset behind it; a doorbell block that announces nothing, with one read in flight; a descriptor in flight on ring 5; a descriptor that waits for its data. -/
theorem wit_HostReadsComplete :
    (let s := { live [] with hif := { (live []).hif with dbFlight := true } }
     s.Inv ∧ s.hif.dbFlight = true ∧ s.hif.dbQueued = false ∧ (List.replicate 512 (0 : Byte)).length = 512 ∧
     (let u := { s with hif := { s.hif with dbFlight := false } }
      ((u.each 64 (fun n t => t.takeEntry n u.readTick (leAt (List.replicate 512 0) (8 * n) 2) (byteAt (List.replicate 512 0) (8 * n + 4))
        (byteAt (List.replicate 512 0) (8 * n + 5) % 2 == 1))).fetchAll).hif.dbQueued = false)) ∧
    (let s := ring5 [] (desc 0x20 0 0 none)
     (List.replicate 32 (0 : Byte)).length = 32 ∧ 0 < (s.ring 5).fetching ∧ s.on (Reg.RING_STAT_ERR 5) = false ∧ (s.ring 5).live = true ∧ (s.ring 5).frozen = false ∧
     (s.ring 5).out ≠ 0 ∧ s.on (Reg.RING_CTRL_EN 5) = true ∧ (s.ring 5).chainAt = none ∧
     (let u := fun (t : State) => (t.modRing 5 (fun r => { r with fetching := r.fetching - 1 })).landed (.desc (5 : Fin 64)) true
      (u s).consumes 5 = true ∧ (u (s.set (Reg.RING_CFG_KIND 5) 0)).consumes 5 = false ∧ (s.set (Reg.RING_CFG_KIND 5) 0).get (Reg.RING_CFG_KIND 5) ≠ 2 ∧ s.running = false ∧
      (s.set Reg.HRT_STAT_RUNNING 1).running = true ∧ s.get (Reg.RING_CFG_KIND 5) ≠ 3)) ∧
    (let d := desc 0x24 16 0x10000000 none
     ((ring5 [] d).ring 5).q.find? (fun d => d.idx == (0 : BitVec 16).toNat && d.reads && d.data.isNone && d.res.isNone) = some d ∧ (List.replicate 16 (0 : Byte)).length = d.len ∧
     ((ring5 [] d).ring 5).frozen = false ∧ d.opcode = 0x24 ∧ (((ring5 [] d).modRing 5 (fun r => { r with frozen := true })).ring 5).frozen = true) :=
  ⟨⟨inv_of (by decide), by decide⟩, by decide, by decide⟩

theorem wit_RingControl :
    (let s := ring5 [] (desc 0x20 0 0 none); s.ringActive 5 = true ∧ s.on (Reg.RING_CTRL_EN 5) = true) ∧
    ((live []).Inv ∧ (live []).ringActive 5 = false ∧ (live []).ringOk 5 = true ∧ (live []).on (Reg.RING_CTRL_EN 5) = false) ∧
    (∀ b, let s := (live []).modRing 5 (fun r => { r with restarted := b }); s.ringActive 5 = false ∧ s.ringOk 5 = true ∧ (s.ring 5).restarted = b) ∧
    ((live [(Reg.RING_CFG_SIZE 5, 13)]).ringActive 5 = false ∧ (live [(Reg.RING_CFG_SIZE 5, 13)]).ringOk 5 = false) ∧
    (let s := live [(Reg.PWR_STAT_READY, 1)]; s.running = false ∧ s.awake = true ∧ s.on Reg.PWR_STAT_READY = true) := ⟨by decide, ⟨inv_of (by decide), by decide⟩, by decide, by decide, by decide⟩

/-- Frames of 64 and 1518 bytes, before and after their Emit; a CAN frame; posted buffers. -/
theorem wit_FrameRingWork :
    (∀ op, op = 0x01 ∨ op = 0x10 ∨ op = 0x30 → let d := desc op 60 0 (some (List.replicate 60 0))
      (ring5 [] d).ready 5 op = some d ∧ ((ring5 [] d).ring 5).chain d = some [d] ∧ chainData [d] = some (List.replicate 60 0)) ∧
    (let f := fun (n : Nat) (h : Bool) => ({ bytes := List.replicate n 0, hasFcs := h, cls := 0, src := .ring 5 0, k := 0, bound := none, start := 0, cut := false } : Frame)
     (f 60 false).lenFcs = 64 ∧ (f 1518 true).lenFcs = 1518 ∧ (0 < 6 ∧ ¬ (0 = 7 ∧ (live []).safeOn 0 = true))) ∧
    (let s := fun (p : Nat) => live [(Reg.HRT_STAT_RUNNING, 1), (Reg.HRT_STAT_PHASE, p)]
     ((s 1).running = true ∧ (s 1).tick = 0 ∧ (s 1).phase < 2) ∧ ¬ ((s 2).tick < 0 ∨ ((s 2).running = true ∧ (s 2).tick = 0 ∧ (s 2).phase < 2))) ∧
    (canOk (List.replicate 8 0) = true ∧ (live []).get (Reg.PORT_CAN_STAT_STATE (6 - 6)) ≠ 2 ∧ 6 ≤ 6) := by
  refine ⟨?_, by decide, by decide, by decide⟩
  rintro op (rfl | rfl | rfl) <;> decide

/-- Each opcode at the head of its ring's work, in the states that its clauses name. -/
theorem wit_CommandRingWork :
    (∀ op ∈ [0x20, 0x21, 0x23, 0x24, 0x25, 0x26, 0x27, 0x28, 0x29, 0x2A, 0x2B, 0x2C, 0x2D],
      (ring5 [] (desc op 16 0x10000000 (some (List.replicate 16 0)))).ready 5 op = some (desc op 16 0x10000000 (some (List.replicate 16 0))) ∧
      (ring5 [] (desc op 16 0x10000000 (some (List.replicate 16 0)))).atWork 5 op = some (desc op 16 0x10000000 (some (List.replicate 16 0)))) ∧
    (∀ src, src = 0 ∨ src = 1 ∨ src = 2 → let d := desc 0x22 16 (BitVec.ofNat 64 src) (some (List.replicate 16 0))
      (ring5 [] d).ready 5 0x22 = some d ∧ ((ring5 [] d).ring 5).chain d = some [d] ∧ d.opx.toNat % 256 = src ∧ chainData [d] = some (List.replicate 16 0)) ∧
    (desc 0x24 16 0 none).short = false ∧ (List.replicate 256 (0 : Byte)) ≠ [] ∧
    (let s := ring5 [] (desc 0x25 16 0x10000000 none); s.running = false ∧ (s.copyOut false 0 1 16 []).2.1 ≠ [] ∧ s.erasing = false ∧ s.chnRunning = false ∧
      s.ingReadable 0 = true ∧ (s.ingUnits 1 0 []).2.1 ≠ []) ∧
    (∀ a h, (a = 0 ∧ h = 0) ∨ (a = 1 ∧ (h = 0 ∨ h = 1)) → let d := desc 0x2C 0 0 none; let s := ring5 [(Reg.PWR_QSTAT_ACTIVE, a), (Reg.PWR_QSTAT_HOLD, h)] d
      s.ready 5 0x2C = some d ∧ (s.start 5 d).get Reg.PWR_QSTAT_ACTIVE = a ∧ (s.start 5 d).get Reg.PWR_QSTAT_HOLD = h) ∧
    (let d := desc 0x29 0 3 none; let s := ring5 [(Reg.TIME_REFNUM_NUM, 3), (Reg.TIME_STAT_HOLD, 1)] d
     s.ready 5 0x29 = some d ∧ d.opx.toNat % 2 ^ 32 = s.get Reg.TIME_REFNUM_NUM ∧ s.on Reg.TIME_STAT_HOLD = true ∧ s.time.granted = false) ∧
    (let d := desc 0x2A 0 0 none; let s := ring5 [(Reg.CHN_STAT_MGR, 1), (Reg.CHN_RUNCTL_RUN, 1)] d
     s.ready 5 0x2A = some d ∧ s.chnRunning = true ∧ s.mayPropose = true) ∧
    (let d := desc 0x23 0 0 none; (((ring5 [] d).start 5 d).modSlot 0 (fun x => { x with unload := [{ ring := 5, idx := 0, gen := 0, tag := 0 }] })).slotState 0 ≠ slotWaitDone) := by
  refine ⟨by decide, ?_, by decide, by decide, by decide, ?_, by decide, by decide, by decide⟩
  · rintro src (rfl | rfl | rfl) <;> decide
  · rintro a h (⟨rfl, rfl⟩ | ⟨rfl, rfl | rfl⟩) <;> decide

/-- PF0 open with BAR2 on, PF0 closed, not ready, and ready. -/
def openPf0 : State :=
  let s := live [(Reg.DEV_PCISTAT_LINKUP, 1), (Reg.DEV_STAT_BAR2EN, 1)]
  { s with pcie := { s.pcie with pf0 := { s.pcie.pf0 with mse := true, bar2 := 0x500000, bar4 := 0x7000 } } }

theorem wit_HostRequests :
    (openPf0.fnOpen false = true ∧ openPf0.hitsBar2 0x5FFFC0 = true ∧ openPf0.hitsBar2 0x600000 = false ∧ openPf0.hitsBar4 false 0x7FFC = true ∧
      openPf0.hitsBar4 false 0x8000 = false ∧ (0x7FFC : BitVec 32).toNat % 4 = 0 ∧ openPf0.on Reg.DEV_STAT_BAR2EN = true ∧ openPf0.asleep = false ∧ (openPf0.hoardRead 22 0 1).1 = .ok [0] ∧ 0 < (1 : BitVec 12).toNat ∧
      (64 : BitVec 12).toNat ≤ 64 ∧ 0 < (List.replicate 64 (0 : Byte)).length ∧ (List.replicate 64 (0 : Byte)).length ≤ 64) ∧
    (live []).fnOpen false = false ∧ ((live []).fn false).aer = [] ∧ (0xFFC : BitVec 12).toNat % 4 = 0 ∧ State.reset.pcie.ready = false ∧ (live []).pcie.ready = true ∧ (live []).power.reset = none ∧
    ((live []).cfgRead false 0).isSome = true := by decide

/-! ## Witnesses: resets -/

theorem wit_WholeDeviceResets : (live []).Inv ∧ (live []).power.reset = none ∧ (live [(Reg.PWR_WDTCFG_EN, 1)]).Inv ∧ (live [(Reg.PWR_WDTCFG_EN, 1)]).wdtRuns = true ∧
    (live []).wdtRuns = false := ⟨inv_of (by decide), by decide, inv_of (by decide), by decide⟩

theorem wit_HostSideResets : (live [(Reg.PWR_RSTCFG_PERST, 1)]).on Reg.PWR_RSTCFG_PERST = true ∧ (live [(Reg.PWR_RSTCFG_PERST, 1)]).power.reset = none ∧
    (live [(Reg.PWR_RSTCFG_PERST, 0)]).on Reg.PWR_RSTCFG_PERST = false ∧ (live []).Inv := ⟨by decide, by decide, by decide, inv_of (by decide)⟩

/-- Resets of kind 0 (POR), 2 and 9 (SOFT) to be released; the watchdog running and not; a Chain reset that is due, and none. -/
theorem wit_ReleaseAndWatchdog : State.reset.power.reset = some 0 ∧ ((live []).wholeReset 2).power.reset = some 2 ∧ ((live []).wholeReset 9).power.reset = some 9 ∧
    (live []).wdtRuns = false ∧ (let s := live [(Reg.PWR_WDTCFG_EN, 1), (Reg.PWR_WDTREM_REMAIN, 0x400)]; s.wdtRuns = true ∧ s.wdtHalf < s.get Reg.PWR_WDTREM_REMAIN ∧ s.Inv) ∧
    (let s := fun (n : Nat) => (live []).modChain (fun c => { c with run := [{ cmd := 3, target := n }] })
     (∀ n, n < 2 → ({ cmd := 3, target := n } : RunCmd) ∈ (s n).chain.run) ∧ 0 ≤ (s 0).tick ∧ ∀ r ∈ (s 1).chain.run, r.cmd = 3 → (s 1).tick < r.target) ∧
    (live []).chain.run = [] := ⟨by decide, by decide, by decide, by decide, ⟨by decide, by decide, inv_of (by decide)⟩, by decide, by decide⟩

/-! ## Witnesses: the Hoard and the loader -/

/-- Engine 0 waits for line 0 with a request of this kind; the directory and the transactions are as given. -/
def missing (rdx : Bool) (dir : List (Nat × DirEntry)) (txns : List LineTxn) : State :=
  (task (live []) { run0 with stall := .miss (.ld 0 0 2 false false 0) 0 rdx false { o := 0, n := 4, w := none, got := none } } Ctx.zero).modHoard (fun h => { h with dir := dir, txns := txns })

/-- A line with the data 1 to 64. -/
def line1 : List Byte := (List.range 64).map (fun i => BitVec.ofNat 8 (i + 1))

/-- A request on a line that no core holds, that others share, that another owns, behind a transaction, and in a bank that is not ON; a write-back
of the owner and of another core; a snooped copy, owned and shared; the last answer and one that is not. -/
theorem wit_DirectoryTraffic :
    (let tx : LineTxn := { line := 0, eng := 1, rdx := true, snoops := [(2, true)], await := [2, 3], data := none }
     (∀ rdx, (missing rdx [] []).newMiss 0 rdx = some (0, false) ∧ (missing rdx [] []).hoard.txn 0 = none ∧ (missing rdx [] []).hoard.entry 0 = none) ∧
     ((missing true [] [tx]).hoard.txn 0 ≠ none ∧ (missing true [] [tx]).newMiss 0 true = some (0, false)) ∧
     (let s := missing true [] []; s.get (Reg.HRD_BANK_CUR (bankOf 0)) = 0 ∧ s.hoardDeny 0 0 1 = none) ∧
     (let s := (missing true [] []).set (Reg.HRD_BANK_CUR 0) 4; s.newMiss 0 true = some (0, false) ∧ ¬ (s.get (Reg.HRD_BANK_CUR (bankOf 0)) = 0 ∧ s.hoardDeny 0 0 1 = none)) ∧
     (let s := missing true [(0, .shared [0])] []; s.hoard.entry 0 = some (.shared [0]) ∧ ∀ c ∈ [0], c = s.coreOf 0) ∧
     (let s := missing true [(0, .shared [0, 5])] []; s.hoard.entry 0 = some (.shared [0, 5]) ∧ ∃ c ∈ [0, 5], c ≠ s.coreOf 0) ∧
     (missing false [(0, .owned 5)] []).hoard.entry 0 = some (.owned 5)) ∧
    (let s := fun (d : List (Nat × DirEntry)) => (live []).modHoard (fun h => ({ h with dir := d }).setChannel 2 [.wb 0x40 line1 false])
     (s [(0x40, .owned 2)]).hoard.channel (2 : Fin 18) = .wb 0x40 line1 false :: [] ∧ (s [(0x40, .owned 2)]).hoard.txn 0x40 = none ∧
     (s [(0x40, .owned 2)]).hoard.entry 0x40 = some (.owned 2) ∧ (s [(0x40, .owned 2)]).Inv ∧ (s []).hoard.entry 0x40 ≠ some (.owned 2)) ∧
    (let tx : LineTxn := { line := 0x40, eng := 1, rdx := true, snoops := [(2, true), (3, false)], await := [2, 3], data := none }
     let x : CacheLine := { line := 0x40, own := true, data := line1, parity := false }
     let s := (live []).modHoard (fun h => { h with txns := [tx], caches := (h.caches.setIfInBounds 2 [x]).setIfInBounds 3 [{ x with own := false }] })
     s.hoard.txn ((1 : Fin 262144).val * 64) = some tx ∧ tx.snoops.find? (fun y => y.1 == (2 : Fin 18).val) = some (2, true) ∧ tx.snoops.find? (fun y => y.1 == (3 : Fin 18).val) = some (3, false) ∧
     s.hoard.copy (2 : Fin 18) ((1 : Fin 262144).val * 64) = some x ∧ ¬ (x.own = true ∧ x.parity = true) ∧ s.hoard.copy (3 : Fin 18) 0x40 = some { x with own := false }) ∧
    (let tx : LineTxn := { line := 0x40, eng := 1, rdx := true, snoops := [], await := [2], data := none }
     let s := (live []).modHoard (fun h => ({ h with txns := [tx] }).setChannel 2 [.answer 0x40 true none])
     s.hoard.channel (2 : Fin 18) = .answer 0x40 true none :: [] ∧ s.hoard.txn 0x40 = some tx ∧ tx.await.filter (fun c => c != (2 : Fin 18).val) = [] ∧
     ([2, 3] : List Nat).filter (fun c => c != (2 : Fin 18).val) ≠ []) := by
  refine ⟨⟨by decide, by decide, by decide, by decide, by decide, ⟨by decide, 5, by decide⟩, by decide⟩, ⟨by decide, by decide, by decide, inv_of (by decide), by decide⟩, by decide, by decide⟩

/-- Pending layouts without and with an overlap; banks ON, draining, filling, mapped and not; transitions to each state; spares free and used. -/
theorem wit_BanksAndPartitions :
    ((live []).Inv ∧ (live []).ownRefused .host Reg.HRD_PCTL = false ∧ partCode (live []).pendingParts = 0) ∧
    (let s := live [(Reg.HRD_PART_BASE 0, 0), (Reg.HRD_PART_SIZE 0, 2), (Reg.HRD_PART_KIND 0, 7), (Reg.HRD_PART_BASE 1, 1), (Reg.HRD_PART_SIZE 1, 1), (Reg.HRD_PART_KIND 1, 1)]
     s.Inv ∧ partCode s.pendingParts ≠ 0) ∧
    ((live []).ownRefused .host (Reg.HRD_BANK 31) = false ∧ (live []).bankMapped 31 = true ∧ (live [(mapFld 31, 0x3F)]).Inv ∧ (live [(mapFld 31, 0x3F)]).bankMapped 31 = false) ∧
    (∀ v, v < 3 → let s := (live []).modHoard (fun h => { h with transTo := h.transTo.setIfInBounds 31 (some v) })
      s.inSettle = true ∧ s.hoard.transTo.getD 31 none = some v ∧ s.bankTgt 31 = 0 ∧ (s.set (Reg.HRD_BANK_TGT 31) 1).bankTgt 31 ≠ 0 ∧
      (s.set (Reg.HRD_BANK_TGT 31) 1).hoard.transTo.getD 31 none = some v) ∧
    ((live [(Reg.HRD_BANK_CUR 31, 3), (Reg.HRD_BANK_TGT 31, 2)]).inSettle = true ∧ (live [(Reg.HRD_BANK_CUR 31, 3), (Reg.HRD_BANK_TGT 31, 2)]).bankCur 31 = 3 ∧
      (live [(Reg.HRD_BANK_CUR 31, 3), (Reg.HRD_BANK_TGT 31, 2)]).bankTgt 31 ≠ 0 ∧ (live [(Reg.HRD_BANK_CUR 31, 3)]).bankTgt 31 = 0 ∧ (live []).bankLines 31 = []) ∧
    ((live []).inSettle = true ∧ (live [(Reg.HRT_STAT_RUNNING, 1)]).inSettle = false ∧ (live [(Reg.HRD_BANK_CUR 31, 3)]).inSettle = true) ∧
    ((live [(Reg.HRD_BANK_CUR 31, 3)]).Inv ∧ (live [(Reg.HRD_BANK_CUR 31, 3)]).bankCur 31 = 3 ∧ (live []).bankCur 31 ≠ 3 ∧ (live []).get Reg.HRD_MIG_THR = 0) ∧
    (let s := live [(Reg.HRD_MIG_THR, 3), (Reg.HRD_BANK_CORR 31, 3)]
     s.get Reg.HRD_MIG_THR ≠ 0 ∧ s.get Reg.HRD_MIG_THR ≤ s.get (Reg.HRD_BANK_CORR 31) ∧ s.bankCur 31 = 0 ∧ s.on Reg.HRD_STAT_MIGBUSY = false) ∧
    ((live []).spareBank = some 32 ∧ (live []).bankCur 31 = 0 ∧ (live [(Reg.TMP_SPARES_BANK32, 0)]).spareBank = some 33 ∧
      (live [(Reg.TMP_SPARES_BANK32, 0), (Reg.TMP_SPARES_BANK33, 1)]).spareBank = none) :=
  ⟨⟨inv_of (by decide), by decide⟩, ⟨inv_of (by decide), by decide⟩, ⟨by decide, by decide, inv_of (by decide), by decide⟩, by decide,
    by decide, by decide, ⟨inv_of (by decide), by decide⟩, by decide, by decide⟩

/-- n zero bytes with some stretches replaced. -/
def patch (n : Nat) (l : List (Nat × List Byte)) : List Byte := l.foldl (fun b x => b.take x.1 ++ x.2 ++ b.drop (x.1 + x.2.length)) (List.replicate n 0)

/-- A stream of 512 bytes: n sections, a BIND of engine 0 at 96 and a BUDGET of one phase task with this ACT at 104, the trailer at 256. -/
def stream1 (arb vmode n act : Byte) : List Byte :=
  patch 512 [(9, [vmode]), (16, [arb, n, 16]), (24, leBytes 4 512), (64, [5, 0, 0, 0, 96, 0, 0, 0, 8, 0, 0, 0]), (80, [4, 0, 0, 0, 104, 0, 0, 0, 12, 0, 0, 0]),
    (96, [1, 0]), (104, [0, 0, 0, 0, 1, 0, 0, 0, act]), (256, leBytes 4 0x54534941 ++ [vmode]), (264, leBytes 4 256)]

/-- That stream is staged whole for slot 0, in the first bytes of the Hoard. -/
def stagedIn (st : List Byte) : State :=
  let s := (live [(Reg.PRS_STAT_STATE 0, 2)]).modSlot 0 (fun x => { x with stream := st })
  let s := (s.modHoard (fun h => { h with parts := [{ base := 0, size := 1, kind := 3 }] })).wr (Memory.hoard 0) st
  { s with prs := { s.prs with active := some 0 } }

/-- What the loader reads back. -/
def readBack (st : List Byte) : Access × State := (stagedIn st).hoardRead 26 0 ((stagedIn st).slot 0).stream.length

/-- A staged stream without a trailer, one signed while no root key is set, one rolled back, one of no sections, one with a bad BUDGET, and one that passes
every check and is applied. -/
theorem wit_LoadsProgress_staged :
    (∀ st ∈ [stream1 0xFF 2 2 0, stream1 0xFF 1 2 0, stream1 63 2 2 0], let s := stagedIn st; s.sec.patch = [] ∧ s.prs.active = some 0 ∧ s.slotState 0 = 2 ∧ (s.slot 0).admitted = false ∧ s.partition 3 = some (0, 0x10000)) ∧
    ((readBack (stream1 0xFF 2 2 0)).1 = .ok (stream1 0xFF 2 2 0) ∧ (readBack (stream1 0xFF 1 2 0)).1 = .ok (stream1 0xFF 1 2 0)) ∧
    (trailerOk (List.replicate 512 0) = false ∧ trailerOk (stream1 0xFF 1 2 0) = true ∧ byteAt (stream1 0xFF 1 2 0) 9 = 1 ∧
      (readBack (stream1 0xFF 1 2 0)).2.on Reg.KEY_STAT_ROOTSET = false) ∧
    (let b := stream1 63 2 2 0
     trailerOk b = true ∧ byteAt b 9 ≠ 1 ∧ byteAt b 16 ≠ 0xFF ∧ leAt b 12 4 < (live [(Reg.KEY_ARB_VAL 63, 1)]).get (Reg.KEY_ARB_VAL (byteAt b 16)) ∧
     (live []).get (Reg.KEY_ARB_VAL (byteAt b 16)) ≤ leAt b 12 4) ∧
    tableOk (stream1 0xFF 2 0 0) = false ∧
    (let b := stream1 0xFF 2 2 1
     tableOk b = true ∧ gapsZero b = true ∧ sectionsBound b = true ∧ modesOk b 0 b.length = true ∧ (readBack b).2.admission 0 b = some 15) ∧
    (let b := stream1 0xFF 2 2 0
     trailerOk b = true ∧ tableOk b = true ∧ gapsZero b = true ∧ sectionsBound b = true ∧ modesOk b 0 b.length = true ∧ (readBack b).2.admission 0 b = none ∧
     (((readBack b).2.claim 0 b).applyRange 0 b 0 b.length).1 = none) := by
  refine ⟨by decide +kernel, by decide +kernel, by decide +kernel, by decide +kernel, by decide +kernel, by decide +kernel, by decide +kernel⟩

/-- FIPS 180-4: the SHA-384 of "abc" begins CB 00 75 3F 45 A3 5E 8B. -/
theorem test_sha : sha384Head [0x61, 0x62, 0x63] = 0x8B5EA3453F7500CB := by decide +kernel

/-- Slot 0 loads: its state, bytes and admission as given. -/
def loading (l : List (Fld × Nat)) (f : Slot → Slot) : State :=
  let s := (live l).modSlot 0 f
  { s with prs := { s.prs with active := some 0 } }

/-- Frames with a good and a bad CRC, a source that is not read any more and one that fails; an admitted load; steps 0 and 3, with
and without a wait for DONE. DONE rising, high and low; the boot sources; tile 4's readback. -/
theorem wit_LoadsProgress :
    (let good := List.replicate 256 (0 : Byte) ++ leBytes 4 (crc32c (List.replicate 256 0)).toNat
     let s := loading [] (fun x => { x with file := good })
     s.prs.active = some 0 ∧ (s.slot 0).src = none ∧ (s.fillRecord 0).1 = true ∧ 260 ≤ (s.slot 0).file.length ∧
     (crc32c ((s.slot 0).file.take 256)).toNat = leAt (s.slot 0).file 256 4 ∧
     (let t := loading [] (fun x => { x with src := some (.ingot 0x7FFFF0, 260) }); t.prs.active = some 0 ∧ (t.fillRecord 0).1 = false) ∧
     (let t := loading [] (fun x => { x with file := List.replicate 260 0 }); 260 ≤ (t.slot 0).file.length ∧ (crc32c ((t.slot 0).file.take 256)).toNat ≠ leAt (t.slot 0).file 256 4)) ∧
    (let s := loading [(Reg.PRS_STAT_STATE 0, 2)] (fun x => { x with admitted := true }); s.Inv ∧ (s.slot 0).admitted = true ∧ s.prs.active = some 0 ∧ s.slotState 0 = 2) ∧
    (∀ i, i = 0 ∨ i = 3 → ∀ w, w = 0 ∨ w = i + 1 →
      let s := loading [(Reg.PRS_STAT_STATE 0, 3), (Reg.PRS_STAT_STEP 0, i), (Reg.PRS_ID_ORDER 0, 4 * w)] id
      let u := (s.doStep 0 (stepAt (s.stepOrder 0) i)).set (Reg.PRS_STAT_STEP 0) (i + 1)
      s.slotState 0 = 3 ∧ s.get (Reg.PRS_STAT_STEP 0) = i ∧ i < 4 ∧ (s.slot 0).after = none ∧ u.waitAfter 0 = w ∧ (u.slot 0).passed = false) ∧
    (let s := { live [(Reg.PRS_STAT_STATE 0, 4), (Reg.PRS_DONECTL_TMO, 1)] with prs := { (live []).prs with donePin := true, doneRising := true } }
     (let t := { live [(Reg.HRT_STAT_RUNNING, 1)] with prs := { (live []).prs with doneAt := 5 } }
      t.running = true ∧ t.hearth.nominal < t.prs.doneAt + 2000 ∧ (live []).running = false) ∧
     s.prs.donePin = true ∧ s.prs.doneRising = true ∧ s.slotState 0 = 4 ∧ s.on Reg.PRS_DONECTL_TMO = true ∧ ((live []).prs.donePin && (live []).prs.doneRising) = false ∧
     (live []).slotState 0 ≠ 4) ∧
    ((live [(Reg.PRS_GSTAT_BOOTDONE, 1)]).on Reg.PRS_GSTAT_BOOTDONE = true ∧ (live []).on Reg.PRS_GSTAT_BOOTDONE = false ∧ (live []).prs.booting = false ∧
      (live [(Reg.PRS_GSTAT_BOOTSRC, 0)]).get Reg.PRS_GSTAT_BOOTSRC = 0 ∧ (live [(Reg.PRS_GSTAT_BOOTSRC, 2)]).get Reg.PRS_GSTAT_BOOTSRC = 2 ∧ (live []).on Reg.PRS_FCLK_MHZ = false) ∧
    (let s := bound (live [(Reg.PRS_FCLK_MHZ, 100), (Reg.PRS_STAT_STATE 0, slotRunning), (Reg.PRS_ID_UPMODE 0, 1)]) [(2, 4)]
     let t := { s with prs := { s.prs with rbTile := 4 } }
     t.on Reg.PRS_FCLK_MHZ = true ∧ t.prs.rbTile < 5 ∧ t.rbSlot t.prs.rbTile = some 0) := by
  refine ⟨by decide +kernel, ⟨inv_of (by decide), by decide⟩, ?_, by decide, by decide, by decide⟩
  rintro i (rfl | rfl) w (rfl | rfl) <;> decide

/-! ## Witnesses: ports, CAN and video -/

/-- Port 0 up and enabled, full duplex, at 100 Mbit/s, with more fields. -/
def port0 (l : List (Fld × Nat)) : State :=
  live ([(Reg.PORT_LCFG_EN 0, 1), (Reg.PORT_LSTAT_UP 0, 1), (Reg.PORT_LSTAT_SPEED 0, 1), (Reg.PORT_LSTAT_FDX 0, 1)] ++ l)

/-- A PAUSE frame of 64 bytes. -/
def pauseFrame : List Byte := patch 64 [(0, [0x01, 0x80, 0xC2, 0x00, 0x00, 0x01]), (12, [0x88, 0x08, 0x00, 0x01])]

/-- An Ethernet frame without its FCS: IPv4, UDP to port 5004, RTP of payload type 96, sequence 5, timestamp 9, SSRC 7, marked, six bytes of payload. -/
def rtpFrame : List Byte := patch 60 [(12, [0x08, 0x00, 0x45]), (23, [17]), (36, [0x13, 0x8C, 0, 26]), (42, [0x80, 0xE0, 0, 5, 0, 0, 0, 9, 0, 0, 0, 7])]

def frame0 : Frame := { bytes := List.replicate 60 0, hasFcs := false, cls := 1, src := .ring 5 0, k := 0, bound := none, start := 0, cut := false }

/-- A link that can come up, one that is up, frames of 64 and 1522 bytes, a PAUSE, a full and an empty region, a frame on the wire from either
source, a frame in cut-through, one that is held and one that may start on its egress. -/
theorem wit_PortFrames :
    (let s := live [(Reg.PORT_LCFG_EN 4, 1), (Reg.PORT_LSTAT_UP 4, 1), (Reg.PORT_VID_CFG_EN 3, 1), (Reg.PORT_VID_CFG_PT 3, 96), (Reg.PORT_VID_DPORT_DPORT 3, 5004)]
     let b := rtpFrame ++ leBytes 4 (~~~ stompCode rtpFrame).toNat
     s.Inv ∧ s.portUp 4 = true ∧ s.on (Reg.PORT_LCFG_EN 4) = true ∧
     s.streamPacket 4 b = some (3, { dport := 5004, pt := 96, ssrc := 7, ts := 9, seq := 5, mark := true, payload := List.replicate 6 0 })) ∧
    (let f := { frame0 with bad := true }; f.bad = true ∧ frame0.bad = false ∧ (((port0 []).modPort 0 (fun x => { x with wire := some f })).port 0).wire = some f) ∧
    ((port0 []).ctStart 0 = 14 ∧ (port0 [(Reg.PORT_FWD_CTSTART 0, 127)]).ctStart 0 = 64 ∧ (port0 []).ctStart 0 ≤ (List.replicate 64 (0 : Byte)).length ∧ (List.replicate 13 (0 : Byte)).length < (port0 []).ctStart 0) ∧
    ((live [(Reg.PORT_LCFG_EN 0, 1)]).Inv ∧ (live [(Reg.PORT_LCFG_EN 0, 1)]).on (Reg.PORT_LCFG_EN 0) = true ∧ modeAccepts 0 ((live []).get (Reg.PORT_LCFG_MODE 0)) 1 true = true ∧
      (live [(Reg.PORT_LCFG_EN 0, 1)]).portUp 0 = false ∧ (live [(Reg.PORT_LCFG_EN 0, 1)]).phyOff 0 = false) ∧
    ((port0 []).Inv ∧ (port0 []).portUp 0 = true ∧ (port0 []).on (Reg.PORT_LCFG_EN 0) = true ∧ ((port0 []).port 0).ct = none ∧ (port0 []).egresses 0 = [] ∧
      isPauseFrame pauseFrame = true ∧ pauseFrame.length = 64 ∧ (port0 []).portFdx 0 = true ∧ (isPauseFrame (List.replicate 64 0) && (port0 []).portFdx 0) = false ∧
      (port0 []).occupancy 0 + 1522 ≤ 0x20000 ∧ (port0 []).cbOwner 0 = none ∧ ((port0 []).port 0).rxAt + 1522 ≤ 0x20000 ∧ ((port0 []).port 0).wire = none ∧
      (port0 [(Reg.PORT_LSTAT_FDX 0, 0)]).portFdx 0 = false ∧ (port0 [(Reg.PORT_LSTAT_FDX 0, 0)]).portUp 0 = true) ∧
    (let r : RxFrame := { bytes := List.replicate 1522 0, cls := 0, t := 0, sof := 0, handed := none, fwd := [], own := true }
     0x20000 < ((port0 []).modPort 0 (fun x => { x with rx := List.replicate 87 r })).occupancy 0 + 64) ∧
    (((port0 []).modPort 0 (fun x => { x with wire := some frame0 })).port 0).wire = some frame0 ∧
    ((((port0 []).modPort 0 (fun x => { x with wire := some { frame0 with src := .fwd 1 } })).port 0).wire).map (fun f => f.src) = some (.fwd 1) ∧
    (let c : CutThrough := { egress := [1], held := [], stomped := false }
     (((port0 []).modPort 0 (fun x => { x with ct := some c })).port 0).ct = some c ∧ c.stomped = false) ∧
    (let s := port0 [(Reg.PORT_FWD_CTEN 0, 1), (Reg.PORT_FWD_EGR 0, 2)]
     s.portUp 0 = true ∧ s.egresses 0 ≠ [] ∧ (s.port 0).ct = none ∧ (s.egresses 0).filter (fun e => s.cutOk 0 e (s.classify 0 (List.replicate 64 0) none)) = []) ∧
    (let s := port0 [(Reg.PORT_FWD_CTEN 0, 1), (Reg.PORT_FWD_EGR 0, 2), (Reg.PORT_LCFG_EN 1, 1), (Reg.PORT_LSTAT_UP 1, 1), (Reg.PORT_LSTAT_SPEED 1, 1), (Reg.PORT_LSTAT_FDX 1, 1)]
     s.Inv ∧ s.portUp 0 = true ∧ s.egresses 0 = [(1 : Fin 4).val] ∧ (s.port 0).ct = none ∧ s.cutOk 0 1 (s.classify 0 (List.replicate 64 0) none) = true ∧ maybePause (List.replicate 64 0) = false) :=
  ⟨⟨inv_of (by decide), by decide⟩, by decide, by decide, ⟨inv_of (by decide), by decide⟩, ⟨inv_of (by decide), by decide⟩, by decide, by decide, by decide, by decide, by decide,
    ⟨inv_of (by decide), by decide⟩⟩

theorem wit_PauseGatesAndPreemption :
    (let s := port0 [(Reg.PORT_PCFG_RXEN 0, 1)]
     s.Inv ∧ s.on (Reg.PORT_PCFG_RXEN 0) = true ∧ s.portUp 0 = true ∧ s.portFdx 0 = true ∧ ¬ ((live []).on (Reg.PORT_PCFG_RXEN 0) = true ∧ (live []).portUp 0 = true ∧ (live []).portFdx 0 = true) ∧
     (∀ ns, ns < 8 → ((atNs (s.modPort 0 (fun x => { x with pauseEnd := some 7 })) ns).port 0).pauseEnd = some 7) ∧ (atNs s 6).now < 7 ∧ 7 ≤ (atNs s 7).now ∧ (s.port 0).pauseEnd = none ∧ (s.port 0).xoff = false) ∧
    (let s := (port0 [(Reg.PORT_PTHR_XON 0, 0), (Reg.PORT_PCFG_TXEN 0, 1), (Reg.PORT_PCFG_QUANTA 0, 0)]).modPort 0 (fun x => { x with xoff := true })
     s.Inv ∧ (s.port 0).xoff = true ∧ s.on (Reg.PORT_PCFG_TXEN 0) = true ∧ s.portUp 0 = true ∧ s.portFdx 0 = true ∧ s.get (Reg.PORT_PTHR_XON 0) * 1024 ≤ s.occupancy 0 ∧
     (s.port 0).pauseSent + s.get (Reg.PORT_PCFG_QUANTA 0) * 256000 / s.rate 0 ≤ s.now ∧ s.now < (s.port 0).pauseSent + 1 * 256000 / s.rate 0) ∧
    ((port0 [(Reg.PORT_PRE_VSTAT 0, 1)]).get (Reg.PORT_PRE_VSTAT 0) = 1 ∧ (port0 []).get (Reg.PORT_PRE_VSTAT 0) ≠ 1 ∧
      2 ≤ (((port0 []).modPort 0 (fun x => { x with vtries := 2 })).port 0).vtries) ∧
    ((live []).ownRefused .host (Reg.PORT_GCTL 0) = false ∧ fieldGet 0 1 1 = 0 ∧ fieldGet 2 1 1 = 1 ∧
      (let s := fun (r : Nat) => live [(Reg.HRT_STAT_RUNNING, r)]
       let u := fun (r : Nat) => (((s r).credits 0).set (Reg.PORT_GCTL_EN 0) (fieldGet 2 0 1)).set (Reg.PORT_GCTL_NENT 0) (fieldGet 2 8 5)
       (u 0).running = false ∧ (u 1).running = true)) ∧
    (let s := (live [(Reg.HRT_STAT_RUNNING, 1)]).modPort 0 (fun x => { x with gates := [(255, 10), (1, 10)] })
     s.running = true ∧ (s.port 0).gateIdx + 1 < (s.port 0).gates.length ∧
     (let n := (((s.port 0).gates.take ((s.port 0).gateIdx + 1)).map (fun g => g.2 * 10)).sum
      n < s.tp ∧ (s.word64 Reg.HRT_TSTART_LO Reg.HRT_TSTART_HI).toNat + n ≤ (atNs s n).now ∧ s.now < n)) ∧
    (let s := port0 [(Reg.PORT_PRE_EN 0, 1)]
     (s.on (Reg.PORT_PRE_EN 0) = true ∧ s.portUp 0 = true ∧ s.portFdx 0 = true) ∧ ¬ ((live []).on (Reg.PORT_PRE_EN 0) = true ∧ (live []).portUp 0 = true)) ∧
    (let s := (port0 [(Reg.PORT_CBS1_IDLE 0, 10)]).modPort 0 (fun x => { x with credit1 := -5, q := [frame0] })
     (s.credits 0).shaped 0 ((0 : Fin 2).val + 1) = true ∧ ((s.credits 0).port 0).credit ((0 : Fin 2).val + 1) < 0 ∧
     ((s.credits 0).port 0).q.any (fun f => f.cls == (0 : Fin 2).val + 1) = true) :=
  ⟨⟨inv_of (by decide), by decide⟩, ⟨inv_of (by decide), by decide⟩, by decide, by decide, by decide, by decide, by decide⟩

/-- Frames of 8 and 72 bytes, and of 7 and 73; controllers off, on and in bus-off; a frame on the wire; a stream that takes the packet. -/
theorem wit_CanAndVideo :
    (let s := live [(Reg.PORT_CAN_CFG_EN 1, 1)]
     s.Inv ∧ s.on (Reg.PORT_CAN_CFG_EN 1) = true ∧ s.get (Reg.PORT_CAN_STAT_STATE 1) ≠ 2 ∧ (live []).on (Reg.PORT_CAN_CFG_EN 1) = false ∧ (s.can 1).wire = none ∧ (s.can 1).q = [] ∧
     (s.can 1).recovering = false ∧ ((s.modCan 1 (fun x => { x with recovering := true })).can 1).recovering = true ∧
     ((s.modCan 1 (fun x => { x with wire := some frame0 })).can 1).wire = some frame0) ∧
    ((live [(Reg.PORT_CAN_CFG_EN 1, 1), (Reg.PORT_CAN_CFG_FDEN 1, 1)]).on (Reg.PORT_CAN_CFG_FDEN 1) = true ∧
      (live []).on (Reg.PORT_CAN_CFG_FDEN 1) = false ∧ byteAt [0, 0, 0, 0, 16, 0, 0, 0] 4 / 16 % 2 = 1) ∧
    ((live [(Reg.PORT_CAN_STAT_STATE 1, 2)]).Inv ∧ (live [(Reg.PORT_CAN_STAT_STATE 1, 2)]).get (Reg.PORT_CAN_STAT_STATE 1) = 2 ∧ (live []).ownRefused .host (Reg.PORT_CAN_CFG 1) = false) ∧
    (8 ≤ (List.replicate 8 (0 : Byte)).length ∧ (List.replicate 72 (0 : Byte)).length ≤ 72 ∧ (List.replicate 7 (0 : Byte)).length < 8 ∧ 72 < (List.replicate 73 (0 : Byte)).length) ∧
    (max (live []).vidDrain (live []).now - (live []).now + 4 * (2047 : BitVec 11).toNat ≤ 4 * 65536 ∧
      (let s := { live [] with vidDrain := 262144 }; 4 * 65536 < max s.vidDrain s.now - s.now + 4 * (1 : BitVec 11).toNat)) ∧
    ((live []).streamOf 0 5004 96 1 = none ∧ (live [(Reg.PORT_VID_CFG_EN 3, 1), (Reg.PORT_VID_CFG_PT 3, 96), (Reg.PORT_VID_DPORT_DPORT 3, 5004)]).streamOf 0 5004 96 1 = some 3) :=
  ⟨⟨inv_of (by decide), by decide⟩, by decide, ⟨inv_of (by decide), by decide⟩, by decide, by decide, by decide⟩

/-! ## Witnesses: the Chain -/

/-- A UID that is no device's own. -/
def uid7 : BitVec 64 := 7

/-- Link 0 in this state, the device configured with ID 1 and ticks allowed, with more fields. -/
def chain1 (st : Nat) (l : List (Fld × Nat)) : State :=
  live ([(Reg.CHN_CFG_EN, 1), (Reg.CHN_L_CFG_EN 0, 1), (Reg.CHN_L_STAT_STATE 0, st), (Reg.CHN_STAT_STATE, 4), (Reg.CHN_STAT_ID, 1), (Reg.CHN_STAT_IDV, 1),
    (Reg.CHN_RUNCTL_RUN, 1), (Reg.CHN_SSTAT_INTEG, 1)] ++ l)

/-- A HELLO of 64 bytes with UID n. -/
def helloOf (n : Nat) : List Byte := patch 64 [(0, leBytes 8 n)]

/-- A link that trains, waits, is up, and is down; the candidate that is this device and one that is not; the manager with its reports complete; a
drain under way; two devices with IDs. -/
theorem wit_ChainFormsWithDistinctIds :
    (let own : BitVec 64 := 1
     let held : List (BitVec 64 × Nat) := [(1, 0), (2, 31)]
     (held.map (fun x => x.2)).Nodup ∧ ∀ x ∈ held, x.1 ≠ own → 0 < x.2 ∧ x.2 < 32) ∧
    (live []).Inv ∧ (chain1 1 []).linkState 0 = 1 ∧ (chain1 0 []).linkLeaves 0 = true ∧ ¬ ((chain1 3 []).linkState 0 = 1 ∨ (chain1 3 []).linkLeaves 0 = true) ∧
    (chain1 2 []).linkState 0 = 2 ∧ (chain1 3 []).linkState 0 = 3 ∧ (chain1 0 []).linkState 0 = 0 ∧ (chain1 3 []).Inv ∧
    (helloOf 7).length = 64 ∧ byteAt (helloOf 7) 20 < 32 ∧ ((chain1 3 []).linkD 0).uid ≠ BitVec.ofNat 64 (leAt (helloOf 7) 0 8) ∧
    (let s := (chain1 0 []).modChain (fun c => { c with cand := some (1, (live []).uid, 0, none) }); s.chain.cand = some (1, s.uid, 0, none) ∧ s.chain.settled = false ∧
      s.on Reg.CHN_CFG_EN = true) ∧
    (let s := (chain1 0 []).modChain (fun c => { c with cand := some (1, uid7, 1, some 0) }); s.chain.cand = some (1, uid7, 1, some 0) ∧ uid7 ≠ s.uid) ∧
    (live []).chain.cand = none ∧ uid7 ≠ (chain1 3 []).uid ∧ (chain1 3 []).isMgr = false ∧ (List.replicate 32 (0 : BitVec 8)).length = 32 ∧ (1 : BitVec 8) ≠ 0xFF ∧ (0 : BitVec 4) ≠ 1 ∧
    (let s := (chain1 0 [(Reg.CHN_STAT_MGR, 1)]).modChain (fun c => { c with settled := true }); s.isMgr = true ∧ s.chain.settled = true ∧ s.toposComplete = true) ∧
    (let s := (chain1 3 []).modChain (fun c => { c with route := some [] }); s.linkState 0 = 3 ∧ s.chain.route = some []) ∧
    (chain1 3 []).chnState = 4 ∧
    (let s := (chain1 3 [(Reg.CHN_STAT_MGR, 1)]).modChain (fun c => { c with newRoutes := some [], drainWait := [2] })
     s.isMgr = true ∧ s.chain.newRoutes ≠ none ∧ s.chain.drainWait ≠ []) :=
  ⟨by decide, inv_of (by decide), by decide, by decide, by decide, by decide, by decide, by decide, inv_of (by decide), by decide, by decide, by decide, by decide, by decide,
    by decide, by decide, by decide, by decide, by decide, by decide, by decide, by decide, by decide, by decide⟩

/-- Cells for this device, with a bad operation, past their hops (8) and at the last one (7), with and without a route, of either kind; an engine that waits
for a response, a time-out, a host read; SEV cells with and without an engine to reach. -/
theorem wit_ChainCells :
    (let c := cellOf 1 0 0 2 3 16 0 (.bytes (List.replicate 64 0))
     let s := chain1 3 [(Reg.CHN_RT_ENTRY2 0, 4)]
     let down : Cell := { (cellOf 2 0 3 0 0 64 0 (.commit uid7)) with tree := true }
     let u := s.modChain (fun c => { c with topos := [({ uid := uid7, prev := 0xFF, nbrs := [] }, 2)] })
     (chain1 2 []).linkState 0 ≠ 3 ∧ s.linkState 0 = 3 ∧ s.cellPasses { c with dst := 1 } = false ∧ s.cellPasses c = true ∧ cellOpOk { c with op := 4 } = false ∧ cellOpOk c = true ∧ c.kind ≠ 0 ∧
     c.tree = false ∧ 8 ≤ { c with hops := 8 }.hops ∧ { c with hops := 7 }.hops < 8 ∧ s.rtValid 2 = true ∧ s.rtValid 4 = false ∧ s.cellPasses { c with kind := 0 } = true ∧ cellOpOk { c with kind := 0 } = true ∧
     (chain1 2 []).linkState 0 ≠ 3 ∧ { c with kind := 2, op := 0 }.kind = 2 ∧ credited { c with kind := 1 } = true ∧ (0 : Nat) < 4 ∧
     (let sev := { c with op := 3 }; let o := chain1 3 [(Reg.CHN_RUNCTL_RUN, 0)]; isSev sev = true ∧ o.linkState 0 = 3 ∧ sev.dst ≠ o.chnId ∧ cellOpOk sev = true ∧ o.cellPasses sev = false) ∧
     u.linkState 0 = 3 ∧ cellOpOk down = true ∧ u.cellPasses down = true ∧ down.tree = true ∧ down.kind = 2 ∧ down.hops < 8 ∧ u.treeLink down = some 2 ∧ down.body = .commit uid7) ∧
    ((live []).etOpen = false ∧ (List.replicate 64 (0 : Byte)).length = 64 ∧ (live []).chain.tags.find? (fun x => x.1 == (5 : BitVec 8).toNat) = none) ∧
    (let op : MemOp := .ld 0 0 2 false false 0
     let r := { run0 with stall := .remote op 5 }
     let s := (task (live []) r Ctx.zero).modChain (fun c => { c with tags := [(5, 0)] })
     let u := s.modChain (fun c => { c with tags := c.tags.filter (fun x => x.1 != 5) })
     s.chain.tags.find? (fun x => x.1 == (5 : BitVec 8).toNat) = some ((5 : BitVec 8).toNat, 0) ∧ u.waiter (0 : Fin 16) (isRemote 5) = some (false, r) ∧ r.stall = .remote op (5 : BitVec 8).toNat) ∧
    (let op : MemOp := .ld 0 0 2 false false 0
     let r := { run0 with stall := .hostRead op false }
     (task (live []) r Ctx.zero).memRun (0 : Fin 16) false = some r ∧ r.stall = .hostRead op false) ∧
    (let s := chain1 3 [(Reg.ENG_STAT_OWNER 0, 0), (Reg.PRS_ID_PID 0, 5)]
     let hit := fun (m : BitVec 16) => (List.range 16).filter (fun n => m.getLsbD n && decide (s.engOwner n < 3) && s.get (Reg.PRS_ID_PID (s.engOwner n)) == (5 : BitVec 8).toNat)
     s.etOpen = true ∧ hit 1 ≠ [] ∧ hit 2 = []) := by decide

/-- A mode table of one TT slot: from src to dst, personality 5, line 0 to line 1, 64 bytes, no engine. -/
def oneSlot (src dst : Byte) : List Byte := patch 32 [(0, [1, 0]), (16, [0, 0, 0, 0, src, dst, 0, 5, 0, 0, 0, 64, 1, 0, 0, 0xFF])]

/-- That table is the active mode's, and slot 0 runs personality 5 in the partition of kind k. -/
def slotState1 (k : Nat) (src dst : Byte) (l : List (Fld × Nat)) : State :=
  ((chain1 3 ([(Reg.PRS_STAT_STATE 0, slotRunning), (Reg.PRS_ID_PID 0, 5), (Reg.CHN_MSTAT_ACTIVE, 1)] ++ l)).modChain (fun c => { c with tables := [(1, 0, oneSlot src dst)], vis := some (oneSlot src dst) })).modHoard
    (fun h => { h with parts := [{ base := 0, size := 256, kind := k }] })

/-- A SYNC payload for slot j of tick n. -/
def syncOf (j n : Nat) : List Byte := patch 64 [(8, leBytes 8 n), (52, [BitVec.ofNat 8 j])]

theorem wit_ChainSlotsAndSync :
    ((live []).activeSlots[0]? = none ∧ (live []).ttAt 0 = none ∧ (List.replicate 64 (0 : Byte)).length = 64) ∧
    (let t : TtSlot := { offset := 0, src := 1, dst := 2, strike := false, pid := 5, sline := 0, plen := 64, dline := 1, deng := 0xFF }
     let s := slotState1 4 1 2 [(Reg.CHN_RT_ENTRY2 0, 4)]
     let u := s.modChain (fun c => { c with ttData := [(0, List.replicate 64 0)] })
     s.activeSlots[0]? = some t ∧ t.src = s.chnId ∧ s.on Reg.CHN_STAT_IDV = true ∧ (s.hoardRead 25 (t.sline * 64) 64).1 = .ok (List.replicate 64 0) ∧
     u.activeSlots[0]? = some t ∧ u.chain.ttData.find? (fun x => x.1 == 0) = some (0, List.replicate 64 0) ∧
     (t.src = u.chnId ∧ u.pidOwns t.pid (t.sline * 64) = true ∧ (u.integ = true ∨ u.chain.ttTail = true) ∧ u.etOpen = true ∧ u.rtValid t.dst = true) ∧ (slotState1 4 1 2 []).rtValid 2 = false) ∧
    (let t : TtSlot := { offset := 0, src := 2, dst := 1, strike := false, pid := 5, sline := 0, plen := 64, dline := 1, deng := 0xFF }
     let s := slotState1 4 2 1 []
     s.activeSlots[0]? = some t ∧ s.hearth.nominal + t.offset ≤ s.now ∧ s.chain.prevTick = none ∧ s.ttAt 0 = some (t, 0) ∧ t.dst = s.chnId ∧ s.etOpen = true ∧ t.deng = 0xFF ∧ t.strike = false ∧ s.pidReaches t.pid (t.dline * 64) = true ∧
     (slotState1 1 2 1 []).pidReaches t.pid (t.dline * 64) = false ∧ (slotState1 1 2 1 []).activeSlots[0]? = some t) ∧
    (let s := (chain1 3 [(Reg.HRT_STAT_RUNNING, 1)]).modChain (fun c => { c with fixs := [0x80000000, 0x80800000, 0, 0, 0, 0, 0, 0] })
     s.fixs 1 = some 0x80800000 ∧ s.chnState = 4 ∧ s.running = true ∧ fieldGet 0x80800000 23 5 = s.chnId ∧ s.integ = true ∧ s.fixs 7 = none ∧
     s.Inv ∧ s.linkState 0 = 3 ∧ (syncOf 1 9).length = 64 ∧ byteAt (syncOf 0 9) 52 = (0 : Fin 8).val ∧ s.chain.seen.contains (0, leAt (syncOf 0 9) 8 8) = false ∧ s.ownSync 0 0x80000000 = false ∧
     (s.modChain (fun c => { c with seen := [(1, 9)] })).chain.seen.contains (byteAt (syncOf 1 9) 52, leAt (syncOf 1 9) 8 8) = true ∧
     s.fixs 0 = some 0x80000000 ∧ (chain1 3 [(Reg.CHN_STAT_MGR, 1)]).isMgr = true ∧ s.isMgr = false ∧ s.fixs (0 : Fin 8) = some 0x80000000) ∧
    ((chain1 2 []).linkState 0 ≠ 3 ∧ (let s := (chain1 3 []).modLink 0 (fun x => { x with dly := some (100 : BitVec 92).toNat }); s.Inv ∧ s.linkState 0 = 3 ∧ (s.linkD 0).dly = some (100 : BitVec 92).toNat)) :=
  ⟨by decide, by decide, by decide, ⟨by decide, by decide, by decide, by decide, by decide, by decide, inv_of (by decide), by decide⟩,
    by decide, inv_of (by decide), by decide, by decide⟩

/-- The manager free to propose, with a proposal, and another device; a proposal and a mode that the device answers READY; RUN cells that agree and that do not. -/
theorem wit_ModesAreVoted :
    (let p : Proposal := { mode := 1, k := 1, sent := true, ready := [], no := none, req := none, abort := false }
     let s := chain1 3 [(Reg.CHN_STAT_MGR, 1), (Reg.CHN_MSTAT_PNUM, 9)]
     let u := s.modChain (fun c => { c with proposal := some p })
     s.Inv ∧ s.ownRefused .host Reg.CHN_MCTL = false ∧ fieldGet 8 3 1 = 1 ∧ fieldGet 7 3 1 = 0 ∧ s.isMgr = true ∧ s.chain.proposal = none ∧ s.chnRunning = true ∧ s.chnState = 4 ∧
     s.ownRefused .host Reg.CHN_RUNCTL = false ∧
     u.chain.proposal = some p ∧ p.sent = true ∧ u.get Reg.CHN_MSTAT_PNUM = (9 : BitVec 8).toNat ∧ p.no = none ∧ (5 : Fin 8) ≠ 0) ∧
    (let s := chain1 3 []
     s.Inv ∧ s.isMgr = false ∧ s.on Reg.CHN_STAT_IDV = true ∧ s.voteReason 0 0 = 0 ∧ s.etOpen = true ∧ s.on Reg.PWR_QSTAT_ACTIVE = false ∧ s.phase < 3 ∧ s.chain.proposal = none ∧
     (5 : W32).toNat ≠ s.get Reg.CHN_VER_VER ∧ (∃ h, h = s.cfgHash) ∧ (s.word Reg.CHN_VER).toNat = s.get Reg.CHN_VER_VER ∧ (1 : Fin 3) ≠ 2) :=
  ⟨⟨inv_of (by decide), by decide⟩, ⟨inv_of (by decide), by decide, by decide, by decide, by decide, by decide, by decide, by decide, by decide, ⟨_, rfl⟩, by decide, by decide⟩⟩

/-! ## Witnesses: Swage, load switches, Tongs, timers -/

/-- A dead band of 0 and of equal bounds; a loop on and off while ticks run and stand still; an enable that passes and one that fails; AUTO both ways. -/
theorem wit_SwageLoops :
    ((0 : Int) ≤ 0 ∧ (0 : Int) ≤ 0 ∧ (2 : Nat) ≤ 2) ∧
    (let s := live [(Reg.HRT_STAT_RUNNING, 1), (Reg.SWG_n_CTRL_EN 3, 1), (Reg.SWG_n_CFG_NSAMP 3, 2)]; let u := s.modLoop 3 (fun x => { x with uPend := some 5 })
     s.Inv ∧ s.swgDue 3 = true ∧ (s.modLoop 3 (fun x => { x with next := 2 })).swgDue 3 = false ∧ u.swgApplyDue 3 = true ∧ s.swgApplyDue 3 = false ∧
     (s.running = true ∧ s.tongsClock = true ∧ s.swgOn 3 = true ∧ (s.loop 3).stopped = false ∧ (s.loop 3).next < s.swgNsamp 3 ∧ (s.hearth.nominal + (s.loop 3).next * s.tp / s.swgNsamp 3 + 4) / 5 * 5 ≤ s.now) ∧
     (u.running = true ∧ u.tongsClock = true ∧ u.swgOn 3 = true ∧ u.swgNsamp 3 ≠ 0 ∧ (u.loop 3).uPend ≠ none ∧ (u.loop 3).applyAt ≤ u.now)) ∧
    ((live []).Inv ∧ (live []).running = false ∧ (live []).swgOn 3 = false ∧ ((live []).set (Reg.SWG_n_CTRL_EN 3) 1).swgCheck 3 = 0) ∧
    (let s := live [(Reg.SWG_n_CTRL_EN 1, 1), (Reg.SWG_n_CFG_OUT 1, 4), (Reg.SWG_n_CFG_OUT 3, 4)]
     s.Inv ∧ s.swgOn 3 = false ∧ (s.set (Reg.SWG_n_CTRL_EN 3) 1).swgCheck 3 ≠ 0) ∧
    ((live []).on (Reg.SWG_n_CTRL_AUTO 3) = false ∧ (live [(Reg.SWG_n_CTRL_AUTO 3, 1)]).on (Reg.SWG_n_CTRL_AUTO 3) = true ∧ (live [(Reg.SWG_n_CTRL_AUTO 3, 1)]).Inv) :=
  ⟨by decide, ⟨inv_of (by decide), by decide⟩, ⟨inv_of (by decide), by decide⟩, ⟨inv_of (by decide), by decide⟩, by decide, by decide, inv_of (by decide)⟩

theorem wit_LoadSwitchesAndInputs :
    (let s := (live [(Reg.LSW_CH_CFG_OLEN 11, 1), (Reg.LSW_CH_STAT_OCL 11, 1), (Reg.LSW_CH_STAT_OTL 11, 1)]).modChan 11 (fun y => { y with now := .on })
     s.Inv ∧ s.on (Reg.LSW_CH_CFG_OLEN 11) = true ∧ (s.chan 11).now = .on ∧ s.on (Reg.LSW_CH_STAT_OPEN 11) = false ∧ s.on (Reg.LSW_CH_STAT_OCL 11) = true ∧
     500 + 250 * min 14 (s.get (Reg.LSW_CH_CFG_ILIM 11)) < (2001 : BitVec 16).toNat ∧ (2000 : BitVec 16).toNat ≤ 500 + 250 * min 14 (s.get (Reg.LSW_CH_CFG_ILIM 11)) ∧
     (19 : BitVec 16).toNat < 5 * max 1 (min 40 (s.get (Reg.LSW_CH_CFG_IOL 11))) ∧ (4199 : BitVec 16).toNat < 4200 ∧ 38000 < (38001 : BitVec 16).toNat ∧
     s.on (Reg.LSW_CH_STAT_OTL 11) = true ∧ (live []).on (Reg.LSW_CH_STAT_OTL 11) = false ∧ (live []).on (Reg.LSW_CH_STAT_OCL 11) = false ∧ ¬ ((live []).on (Reg.LSW_CH_CFG_OLEN 11) = true ∧ ((live []).chan 11).now = .on)) ∧
    ((live []).Inv ∧ ((live []).hb 5).dtOld = 0 ∧ (let s := (atNs (live []) 1000).modHb 5 (fun y => { y with dtOld := 1, offAt := 900 }); (s.hb 5).dtOld ≠ 0 ∧ (s.hb 5).offAt + 10 * max 10 (min 200 (s.get (Reg.LSW_HB_CFG_DT 5))) ≤ s.now)) ∧
    (let s := (live []).modChan 11 (fun y => { y with now := .pwm 500 }); (s.chan 11).now = .pwm 500 ∧
     (let t := atNs s 1000000; (t.chan 11).pwmAt + 5 * max 8000 (min 2000000 (t.get (Reg.LSW_CH_PWM_PERIOD 11))) ≤ t.now) ∧ (s.chan 11).pwmAt ≤ s.now ∧ s.now < (s.chan 11).pwmAt + 5 * (max 8000 (min 2000000 (s.get (Reg.LSW_CH_PWM_PERIOD 11))) * 500 / 1024) ∧ ((live []).chan 11).now.isPwm = false) ∧
    (let s := live [(Reg.LSW_ADCCTL_EN, 0x80)]; s.lsw.conv = none ∧ s.nextAin = some 7 ∧ (live [(Reg.LSW_ADCCTL_EN, 0)]).nextAin = none) ∧
    (let s := live [(Reg.LSW_AIN_CFG_MODE 7, 1)]; let t := { s with lsw := { s.lsw with conv := some 7 } }
     t.lsw.conv = some (7 : Fin 8).val ∧ t.on (Reg.LSW_AIN_STAT_SHUNT 7) = false ∧ t.on (Reg.LSW_AIN_CFG_MODE 7) = true ∧ t.lsw.conv ≠ none) :=
  ⟨⟨inv_of (by decide), by decide⟩, ⟨inv_of (by decide), by decide⟩, by decide, by decide, by decide⟩

/-- Engine 7 runs, its step edge 1 has come (DIV is 1), and the word at PC 1 is w. -/
def tngAt1 (w : Nat) : State :=
  let s := live [(Reg.TNG_CTRL_RUN 7, 1), (Reg.TNG_DIV_INT 7, 1), (Reg.TNG_STAT_PC 7, 1), (Reg.TNG_PROG_I1 7 0, w)]
  { s with pio := { s.pio with t := 8 } }

/-- Each instruction's word, from the encodings of R533; an illegal one. -/
def tngWords : List (Nat × TongsOp) :=
  [(0x0643, .jmp 3 1 3), (0x1900, .wait true 1), (0x2C81, .drive 3 0x81), (0x3700, .shin 7), (0x4700, .shout 7), (0x5800, .pull true), (0x5000, .pull false),
    (0x6800, .push true), (0x6000, .push false), (0x7FFF, .ldi 3 0x3FF), (0x8140, .mov 0 5), (0x8E40, .mov 7 1), (0x9D80, .alu 3 1 2), (0xAC00, .cnt 3),
    (0xB000, .evt), (0xCFFF, .delay 0xFFF), (0xC000, .delay 0)]

/-- A step of each instruction that is due, and one that is not; the FIFOs empty, with one word, with 7 and full; counters at 0 and 5; a DELAY in
progress; FSEL naming a unit of another owner; a level driven since 5. -/
theorem wit_TongsPrograms :
    ((tngAt1 0).Inv ∧ (∀ x ∈ tngWords, (tngAt1 x.1).tngDue 7 = true ∧ (tngAt1 x.1).tngOp 7 = some x.2) ∧ (tngAt1 0xD000).tngDue 7 = true ∧ (tngAt1 0xD000).tngOp 7 = none ∧
     (live []).tngDue 7 = false ∧ (∃ op, (tngAt1 0xB000).tngOp 7 = some op ∧ ∀ i, op ≠ .mov 7 i)) ∧
    (let s := tngAt1 0
     (s.tng 7).tx = [] ∧ (s.tng 7).rx = [] ∧ (s.tng 7).k.getD 0 0 = 0 ∧ (s.tng 7).delay = none ∧
     ((s.modTng 7 (fun q => { q with k := q.k.setIfInBounds 0 5, tx := [1], rx := List.replicate 8 2 })).tng 7).k.getD 0 0 ≠ 0 ∧
     8 ≤ ((s.modTng 7 (fun q => { q with rx := List.replicate 8 2 })).tng 7).rx.length ∧ ((s.modTng 7 (fun q => { q with rx := List.replicate 7 2 })).tng 7).rx.length < 8 ∧
     ((s.modTng 7 (fun q => { q with tx := [1] })).tng 7).tx = 1 :: [] ∧ ((s.modTng 7 (fun q => { q with delay := some 1 })).tng 7).delay = some 1 ∧
     (4095 : BitVec 12) ≠ 0 ∧ s.ownRefused .host (Reg.TNG_CTRL 7) = false ∧ s.on Reg.TNG_PEND_CFG_EN = false ∧ s.tngRuns 7 = true) ∧
    ((live []).tngRuns 7 = false ∧ (live []).tngTile 7 = false ∧ (live []).ownRefused .host (Reg.TNG_TXF 7) = false ∧ ((live []).tng 7).tx.length < 8 ∧
      8 ≤ (((live []).modTng 7 (fun q => { q with tx := List.replicate 8 2 })).tng 7).tx.length) ∧
    (let s := bound (live [(⟨Reg.TNG_PIO_FSEL 0, 0, 5⟩, 16)]) [(7, 0)]; s.fsel 0 = 16 ∧ s.unitOwner (s.fsel 0) ≠ s.pinOwner 0) ∧
    (let s := live [(⟨Reg.TNG_PIO_FSEL 0, 0, 5⟩, 16)]; s.pinDrive 0 = some false) ∧
    ({ t := 8, ext := 0, hist := [(5, 1, 1)] } : Pio).hist = (5, 1, 1) :: [] :=
  ⟨⟨inv_of (by decide), by decide, by decide, by decide, by decide, ⟨.evt, by decide, by intro i h; cases h⟩⟩, by decide, by decide, by decide, by decide, rfl⟩

/-- 16, worked case 1: the step edges of a bit clock with INT 16 and FRAC 171. -/
theorem test_tongs_edges : (let s := live [(Reg.TNG_DIV_INT 0, 16), (Reg.TNG_DIV_FRAC 0, 171)]; (List.range 4).map (fun m => s.tngCycle 0 (m + 1))) = [16, 33, 50, 66] := by decide

theorem wit_PendantAndTimers :
    (let s := live [(Reg.TNG_PEND_CFG_EN, 1), (Reg.TNG_PEND_CFG_HDR, 200)]
     s.Inv ∧ s.tongsClock = true ∧ (live [(Reg.PWR_STAT_STATE, 2)]).tongsClock = false ∧ s.ownRefused .host Reg.TNG_PEND_CFG = false ∧ (live []).on Reg.TNG_PEND_CFG_EN = false ∧ s.on Reg.TNG_PEND_CFG_EN = true ∧ s.on Reg.TNG_PEND_STAT_CODE = false ∧
     s.pend.saturated = false ∧ ({ s with pend := { s.pend with armed := true } } : State).pend.armed = true ∧ s.get Reg.TNG_PEND_CFG_HDR * 10000 ≤ (2000000 : BitVec 40).toNat) ∧
    (let s := live [(Reg.TNG_PEND_CFG_EN, 1), (Reg.TNG_PEND_STAT_CODE, 1)]
     let t := { s with pend := { s.pend with markBit := true, n := 23 } }
     t.Inv ∧ t.tongsClock = true ∧ t.on Reg.TNG_PEND_STAT_CODE = true ∧ t.pend.markBit = true ∧ t.pend.n < 24 ∧ t.pend.n ≠ 0 ∧ t.on Reg.TNG_PEND_CFG_EN = true ∧
     (0 : BitVec 40).toNat < (live [(Reg.TNG_PEND_CFG_EN, 1), (Reg.TNG_PEND_STAT_CODE, 1), (Reg.TNG_PEND_CFG_END, 50)]).get Reg.TNG_PEND_CFG_END * 10000 ∧
     t.get Reg.TNG_PEND_CFG_END * 10000 ≤ (3000000 : BitVec 40).toNat ∧ ({ t with pend := { t.pend with froze := true } } : State).pend.froze = true) ∧
    (let g := (live [(Reg.TMR_CMP_LO_VAL 15 3, 1)]).modTimer 15 (fun x => { x with stopping := true })
     g.Inv ∧ g.tongsClock = true ∧ g.on (Reg.TMR_CTRL_RUN 15) = false ∧ (g.timer 15).stopping = true ∧ g.tmrNext 15 = g.tmrCmp 15 3 ∧
     ((live []).timer 15).stopping = false) ∧
    (let s := live [(Reg.TMR_CTRL_RUN 15, 1), (Reg.TMR_CAPCFG_SRC3 15, 1), (Reg.TMR_CMP_LO_VAL 15 3, 100)]
     s.Inv ∧ s.tongsClock = true ∧ (live [(Reg.TMR_CFG_CSRC 15, 1)]).tongsClock = true ∧ s.ownRefused .host (Reg.TMR_CTRL 15) = false ∧ (live []).on (Reg.TMR_CTRL_RUN 15) = false ∧ s.on (Reg.TMR_CTRL_RUN 15) = true ∧
     ((s.capSrc 15 3 = 3 ∨ (s.capSrc 15 3 = 1 ∧ true = true) ∨ (s.capSrc 15 3 = 2 ∧ true = false)) ∧ s.pinOwner (s.capIdx 15 3) = s.bindOwner 7 15) ∧
     ¬ ((s.capSrc 15 2 = 3 ∨ (s.capSrc 15 2 = 1 ∧ true = true) ∨ (s.capSrc 15 2 = 2 ∧ true = false)) ∧ s.pinOwner (s.capIdx 15 2) = s.bindOwner 7 15) ∧
     s.get (Reg.TMR_EVCFG_CAPIEN 15) / 2 ^ 3 % 2 = 0 ∧ s.tmrCnt 15 ≠ s.tmrCmp 15 3 ∧ s.on (Reg.TMR_CFG_MODE 15) = false ∧
     (live [(Reg.TMR_CFG_CSRC 15, 1)]).on (Reg.TMR_CFG_CSRC 15) = true ∧
     (live [(Reg.TMR_CFG_CSRC 15, 1)]).pinOwner ((live [(Reg.TMR_CFG_CSRC 15, 1)]).get (Reg.TMR_CFG_CPIN 15)) = (live [(Reg.TMR_CFG_CSRC 15, 1)]).bindOwner 7 15 ∧ s.on (Reg.TMR_CFG_CSRC 15) = false) :=
  ⟨⟨inv_of (by decide), by decide⟩, ⟨inv_of (by decide), by decide⟩, ⟨inv_of (by decide), by decide⟩, ⟨inv_of (by decide), by decide⟩⟩

/-! ## Witnesses: Ingot, Temper, power, mailboxes, keys, TAP -/

/-- A program of one page and an erase of one sector, by the command registers. -/
def pageJob : IngJob := { src := .cmd, erase := false, idx := 0x7FFF, data := List.replicate 256 5, left := 1, cut := false }
def eraseJob : IngJob := { src := .cmd, erase := true, idx := 127, data := [], left := 1, cut := false }

theorem wit_IngotJobs :
    ((live []).ownRefused .host Reg.ING_CMD = false ∧ (live []).get Reg.ING_CMDSTAT_RESULT ≠ 1 ∧ (live [(Reg.ING_CMDSTAT_RESULT, 1)]).get Reg.ING_CMDSTAT_RESULT = 1 ∧
      (127 : BitVec 15).toNat ≤ 127 ∧ 127 < (128 : BitVec 15).toNat) ∧
    (let s := (live []).modIng (fun g => { g with cur := some pageJob }); s.Inv ∧ s.ing.cur = some pageJob ∧ pageJob.erase = false ∧ pageJob.data.length = 256) ∧
    (let s := (live []).modIng (fun g => { g with cur := some eraseJob, suspReq := some true })
     s.Inv ∧ s.ing.cur = some eraseJob ∧ eraseJob.erase = true ∧ eraseJob.src = .cmd ∧ eraseJob.idx < 128 ∧ eraseJob.left ≤ 1 ∧ eraseJob.sector < 128 ∧ s.ing.suspReq = some true) ∧
    ((live []).Inv ∧ (live []).ing.cur = none ∧ (live []).ownRefused .host Reg.ING_CTRL = false ∧ (live []).ing.susp = none) ∧
    (let s := (live []).modIng (fun g => { g with susp := some (eraseJob, true) }); s.Inv ∧ s.ing.susp = some (eraseJob, true) ∧ s.ing.cur = none) :=
  ⟨by decide, ⟨inv_of (by decide), by decide⟩, ⟨inv_of (by decide), by decide⟩, ⟨inv_of (by decide), by decide⟩, ⟨inv_of (by decide), by decide⟩⟩

theorem wit_TemperSteps :
    ((live []).Inv ∧ (live []).running = false ∧ (live [(Reg.HRT_STAT_RUNNING, 1)]).Inv ∧ (live [(Reg.HRT_STAT_RUNNING, 1)]).running = true) ∧
    ((live [(Reg.TMP_BLWSTAT_STATE, 2)]).emergency = true ∧ (live [(Reg.TMP_BLWSTAT_STATE, 2)]).Inv ∧ (live [(Reg.TMP_BLWSTAT_STATE, 0)]).emergency = false ∧
      (live []).temper.fsw = none ∧ (live []).temper.fly = none ∧ (live []).temper.settling = none ∧ (live []).temper.drain = none) ∧
    (let s := fun (n : Nat) => (live [(Reg.TMP_BLWSTAT_STATE, 0)]).modTemper (fun t => { t with fly := some 20, queued := none, fails := n })
     (s 1).Inv ∧ (s 1).temper.fly = some 20 ∧ (s 1).temper.queued = none ∧ (s 1).temper.fails < 2 ∧ 2 ≤ (s 2).temper.fails ∧ (s 2).temper.fly = some 20 ∧ (s 2).emergency = false) ∧
    (let s := (live []).modTemper (fun t => { t with settling := some 20, fsw := some 3, drain := some 1 }); s.temper.settling = some 20 ∧ s.temper.fsw = some 3 ∧ s.temper.drain = some 1) ∧
    ((live []).ownRefused .host (Reg.TMP_EQ_CFG 5) = false ∧ (live []).ownRefused .host Reg.TMP_SUBCTL = false ∧ fieldGet 0x20 4 1 = 0 ∧ fieldGet 0x1F 4 1 = 1 ∧
      (live []).get Reg.TMP_SUBSTAT_STATE = 0 ∧ ((live []).engN (fieldGet 0x1F 0 4)).halted = false ∧ (live []).coreOf (fieldGet 0x1F 0 4) ≠ 0x1F ∧ (live []).spareCore = some 16) ∧
    ((live [(Reg.TMP_SUBCTL_AUTO, 0)]).on Reg.TMP_SUBCTL_AUTO = false ∧ (live [(Reg.TMP_SUBCTL_AUTO, 1), (Reg.TMP_BLWSTAT_VCODE, 50)]).on Reg.TMP_SUBCTL_AUTO = true ∧
      (live [(Reg.TMP_SUBCTL_AUTO, 1), (Reg.TMP_BLWSTAT_VCODE, 50)]).get Reg.TMP_BLWSTAT_VCODE = 50) ∧
    ((live []).get Reg.TMP_SUBSTAT_STATE ≠ 2 ∧ (live []).get Reg.TMP_SUBSTAT_STATE ≠ 3 ∧
      (∀ v, v = 2 ∨ v = 3 → (live [(Reg.TMP_SUBSTAT_STATE, v)]).get Reg.TMP_SUBSTAT_STATE = v) ∧
      (live [(Reg.HRT_STAT_RUNNING, 1)]).inSettle = false ∧
      (let s := live [(Reg.TMP_SUBSTAT_STATE, 3)]; s.Inv ∧ s.inSettle = true ∧ (s.engN (s.get Reg.TMP_SUBSTAT_ENGINE)).cur = none ∧ (s.engN (s.get Reg.TMP_SUBSTAT_ENGINE)).haltReq = false)) := by
  refine ⟨⟨inv_of (by decide), by decide, inv_of (by decide), by decide⟩, ⟨by decide, inv_of (by decide), by decide⟩, ⟨inv_of (by decide), by decide⟩, by decide, by decide, by decide,
    by decide, by decide, ?_, by decide, inv_of (by decide), by decide⟩
  rintro v (rfl | rfl) <;> decide

theorem wit_SleepAndQuench :
    ((live []).Inv ∧ (live []).power.entering = none ∧ (live []).awake = true ∧ (live []).power.waking = false ∧ (live [(Reg.PWR_WAKEEN_EN, 0)]).get Reg.PWR_WAKEEN_EN / 2 ^ 0 % 2 = 0) ∧
    (let s := (live []).modPower (fun p => { p with entering := some 1 }); s.Inv ∧ s.power.entering = some 1) ∧
    (let s := (live [(Reg.PWR_STAT_STATE, 1), (Reg.PWR_WAKEEN_EN, 0x40)]).modPower (fun p => { p with armed := some 5, waking := true })
     s.Inv ∧ s.awake = false ∧ s.get Reg.PWR_WAKEEN_EN / 2 ^ (6 : Fin 8).val % 2 = 1 ∧ (6 : Fin 8) ≠ 3 ∧ (6 : Fin 8) ≠ 7 ∧ s.power.armed = some 5 ∧ (5 ≤ (atNs s 5).now) ∧ (atNs s 5).power.armed = some 5 ∧ s.power.waking = true ∧ s.power.entering = none ∧
     s.get Reg.PWR_STAT_STATE ≠ 0) ∧
    (let s := live [(Reg.PWR_QSTAT_ACTIVE, 1)]; s.Inv ∧ s.on Reg.PWR_QSTAT_ACTIVE = true ∧ s.on Reg.PWR_QSTAT_HOLD = false ∧
      (live [(Reg.PWR_QSTAT_HOLD, 1)]).on Reg.PWR_QSTAT_HOLD = true ∧ (live []).on Reg.PWR_QSTAT_ACTIVE = false ∧ (live []).prs.active = none) ∧
    (∀ e, e = 1 ∨ e = 2 ∨ e = 3 → (live [(Reg.PWR_QPIO_PIN, 31), (Reg.PWR_QPIO_EDGE, e)]).get Reg.PWR_QPIO_PIN = (31 : Fin 32).val ∧
      (live [(Reg.PWR_QPIO_PIN, 31), (Reg.PWR_QPIO_EDGE, e)]).get Reg.PWR_QPIO_EDGE = e) ∧
    ((live []).get Reg.PWR_QPIO_PIN ≠ (31 : Fin 32).val ∧ (live []).get Reg.PWR_QPIO_EDGE = 0) := by
  refine ⟨⟨inv_of (by decide), by decide⟩, ⟨inv_of (by decide), by decide⟩, ⟨inv_of (by decide), by decide⟩, ⟨inv_of (by decide), by decide⟩, ?_, by decide⟩
  rintro e (rfl | rfl | rfl) <;> decide

/-- Channel 7 from the host (A) to engine 0 (B), with more fields; the bytes of a message for it. -/
def chan7 (l : List (Fld × Nat)) : State := live ([(Reg.MBX_CFG_AT 7, 1), (Reg.MBX_CFG_BT 7, 2)] ++ l)

/-- Channel 7 from engine 0 to channel 3 of device 2. -/
def chan7r (l : List (Fld × Nat)) : State := live ([(Reg.MBX_CFG_AT 7, 2), (Reg.MBX_CFG_BT 7, 3), (Reg.MBX_CFG_RDEV 7, 2), (Reg.MBX_CFG_RCH 7, 3)] ++ l)

/-- The host rings, takes and cancels at both of its ends; lengths 1, 64, 0 and 65, 56 and 57 to a remote end; who reaches a channel and who does not; a
doorbell rung and waiting; cells that name the remote end and that do not; an answer to each kind of request. -/
theorem wit_MailboxMessages :
    (let s := chan7 []
     s.Inv ∧ s.mbxReach .jtag 8 = false ∧ s.mbxReach .host 7 = true ∧ s.mayConfigure .jtag 7 0 = false ∧ s.mayConfigure .host 7 0 = true ∧ s.mbxConfigured (14 / 2) = true ∧
     s.on (mbxDb 14) = false ∧ s.receiver 14 = .engine 0 ∧ isEnd .host 7 (s.sender 14) = true ∧ isEnd .jtag 7 (s.sender 14) = false ∧ isEnd .jtag 7 (s.receiver 14) = false ∧
     1 ≤ (64 : W32).toNat % 128 ∧ (64 : W32).toNat % 128 ≤ 64 ∧ 1 ≤ (1 : W32).toNat % 128 ∧ (64 : W32).toNat / 1024 % 2 = 0 ∧ (64 : W32).toNat / 256 % 8 = 0 ∧
     (live []).mbxConfigured 7 = false ∧ (live []).get ⟨mbxCtl 14, 0, 7⟩ = 0 ∧ 64 < (chan7 [(⟨mbxCtl 14, 0, 7⟩, 65)]).get ⟨mbxCtl 14, 0, 7⟩ ∧ s.receiver 14 ≠ .remote) ∧
    (let s := chan7 [(mbxDb 15, 1), (mbxDb 14, 1)]
     s.mbxReach .host 7 = true ∧ isEnd .host 7 (s.sender 15) = false ∧ isEnd .host 7 (s.receiver 15) = true ∧ s.on (mbxDb 15) = true ∧ s.sender 15 = .engine 0 ∧
     isEnd .host 7 (s.sender 14) = true ∧ s.on (mbxDb 14) = true ∧ s.receiver 14 ≠ .remote ∧ (chan7 []).on (mbxDb 15) = false ∧ (0 : W32).toNat / 256 % 4 = 0) ∧
    (let s := fun (n d : Nat) => chan7r [(⟨mbxCtl 14, 0, 7⟩, n), (mbxDb 14, d)]
     (s 56 0).mbxConfigured 7 = true ∧ (s 56 0).receiver 14 = .remote ∧ (s 56 0).on (mbxDb 14) = false ∧ 1 ≤ (s 56 0).get ⟨mbxCtl 14, 0, 7⟩ ∧ (s 56 0).get ⟨mbxCtl 14, 0, 7⟩ ≤ 56 ∧
     56 < (s 57 0).get ⟨mbxCtl 14, 0, 7⟩ ∧ (s 56 1).on (mbxDb 14) = true ∧ ((s 56 1).dir 14).wait ≠ some 2) ∧
    (let s := (live [(mbxDb 14, 1)]).modDir 14 (fun d => { d with timing := some 0, wait := some 5 })
     s.Inv ∧ s.on (mbxDb 14) = true ∧ (s.dir 14).timing = some 0 ∧ 0 ≤ s.now ∧ s.now < 1 ∧ ((s.modDir 14 (fun d => { d with timing := some 1 })).dir 14).timing = some 1 ∧ (s.dir (2 * (7 : Fin 8).val)).wait ≠ none ∧ ((live []).dir 14).timing = none ∧ ((live []).dir 14).wait = none) ∧
    (let s := live [(Reg.MBX_CFG_AT 7, 1), (Reg.MBX_CFG_BT 7, 3), (Reg.MBX_CFG_RDEV 7, 2), (Reg.MBX_CFG_RCH 7, 3)]
     let b := patch 64 [(1, [7, 3, 64])]
     s.Inv ∧ b.length = 64 ∧ s.namesRemote (byteAt b 1) 2 (byteAt b 2) = true ∧ s.mbxConfigured (byteAt b 1) = true ∧ s.on (mbxDb (2 * byteAt b 1 + 1)) = false ∧
     (live []).namesRemote (byteAt b 1) 2 (byteAt b 2) = false ∧ (s.set (mbxDb 14) 1).on (mbxDb (2 * byteAt b 1)) = true ∧ (s.set (mbxDb 15) 1).on (mbxDb (2 * byteAt b 1 + 1)) = true ∧
     ([] : List Byte).length ≠ 64) ∧
    (∀ kind, kind < 3 → let s := (chan7r [(mbxDb 14, 1)]).modChain (fun c => { c with mtags := [(63, 7, kind)] })
      s.mbxTag (63 : BitVec 8).toNat = some (7, kind) ∧ s.on (mbxDb (2 * 7)) = true ∧
      ((s.modDir 14 (fun d => { d with wait := some 0 })).dir (2 * 7)).wait = some 0) ∧
    (chan7r []).mbxTag 63 = none ∧ (chan7r []).sender (2 * 7) = .engine 0 ∧ (chan7r []).on (mbxDb (2 * 7)) = false :=
  ⟨⟨inv_of (by decide), by decide⟩, by decide, by decide, ⟨inv_of (by decide), by decide⟩, ⟨inv_of (by decide), by decide⟩, by decide, by decide, by decide, by decide⟩

/-- 240 bytes whose last 200 have the form of a signature. -/
def signed240 : List Byte := patch 240 [(4, [9]), (40, [0x04])]

/-- Those bytes stand in the staging partition, with these patches and this response to check. -/
def wardenState (patches : List (Nat × Nat)) (check : Option (Nat × Nat × List W32)) : State :=
  let s := (live []).modSec (fun x => { x with patch := patches, check := check })
  (s.modHoard (fun h => { h with parts := [{ base := 0, size := 1, kind := 3 }] })).wr (Memory.hoard 0) signed240

theorem wit_WardenAndKeys :
    ((live []).Inv ∧ Who.host ≠ .pf1 ∧ (live []).sec.patch = [] ∧ (live []).sec.queue = [] ∧ (live []).sec.burn = none ∧ (live []).sec.chal = none ∧ (live []).sec.check = none ∧
      (0xC2 : BitVec 8) ≠ 0xC3 ∧ (live []).on Reg.KEY_STAT_BUSY = false ∧ (live []).on Reg.KEY_STAT_ROOTSET = false ∧ (live [(Reg.KEY_STAT_ROOTSET, 1)]).on Reg.KEY_STAT_ROOTSET = true ∧
      (live []).on Reg.DBGU_CTL_REFUSE = false) ∧
    (let s := (live []).modSec (fun x => { x with patch := [(0, 65537)] }); s.sec.patch = (0, 65537) :: [] ∧ (s.staged 0 65537 = false ∨ 65537 = 0 ∨ 65536 < 65537)) ∧
    (let s := (wardenState [(0, 240)] none); s.Inv ∧ s.sec.patch = (0, 240) :: [] ∧ s.staged 0 240 = true ∧
      (let r := (s.modSec (fun x => { x with patch := [] })).wardenRead 0 240
       r.1 = some signed240)) ∧
    (let s := (wardenState [] (some (0x10000028, 2, []))); s.Inv ∧ s.sec.check = some (0x10000028, 2, []) ∧
      (let r := ((s.modSec (fun x => { x with check := none })).set Reg.DBGU_CTL_BUSY 0).wardenRead (0x10000028 - 0x10000000) 200
       r.1 = some (signed240.drop 40))) ∧
    (∀ op ∈ ([1, 2, 3] : List Byte), let b : List Byte := [op, 63, 0, 0, 9, 0, 0, 0]
      let s := (live []).modSec (fun x => { x with queue := [(0, b)] })
      s.Inv ∧ s.sec.queue = (0, b) :: [] ∧ s.sec.patch = [] ∧ s.sec.check = none ∧ byteAt b 0 = op.toNat ∧ 8 ≤ b.length ∧ byteAt b 1 < 64) ∧
    (let s := (live []).modSec (fun x => { x with burn := some (2, []), chal := some 1 }); s.sec.burn = some (2, []) ∧ s.sec.chal = some 1 ∧ s.sec.check = none) ∧
    (let s := (live []).modSec (fun x => { x with check := some (0, 1, []), fails := 3 }); s.sec.check = some (0, 1, []) ∧ 0 < 0x10000000 ∧ 4 ≤ s.sec.fails + 1) := by
  refine ⟨⟨inv_of (by decide), by decide⟩, by decide, ⟨inv_of (by decide), by decide⟩, ⟨inv_of (by decide), by decide⟩, ?_, by decide, by decide⟩
  intro op hop
  simp only [List.mem_cons, List.not_mem_nil, or_false] at hop
  rcases hop with rfl | rfl | rfl <;> exact ⟨inv_of (by decide), by decide⟩

theorem wit_TapInstructions :
    (6 < (7 : BitVec 8).toNat ∧ (7 : BitVec 8) ≠ 0x20 ∧ (6 : BitVec 8).toNat ≤ 6) ∧
    ((live []).Inv ∧ (∀ p, p < 4 → (live []).portUp p = false) ∧ (live []).on (Reg.LSW_HB_CFG_EN (11 % 6)) = false) ∧ (live []).tap.ir ≠ 0x20 ∧
    (((live []).modTap (fun t => { t with ir := 0x20 })).tap.ir = 0x20 ∧ (0xFFFC : BitVec 16).toNat % 4 = 0 ∧
      ¬ (0x3100 ≤ (0xFFFC : BitVec 16).toNat ∧ (0xFFFC : BitVec 16).toNat < 0x3500 ∧ (0xFFFC : BitVec 16).toNat % 0x40 = 0x34)) :=
  ⟨by decide, ⟨inv_of (by decide), by decide⟩, by decide, by decide⟩

/-! ## Worked cases of other chapters -/

/-- 02, worked case 1: the offsets of the boundaries and the admission limit of the 125 us tick. -/
theorem test_boundaries : (let s := live [(Reg.HRT_PERIOD_PERIOD, 12500), (Reg.HRT_B1_B, 64), (Reg.HRT_B2_B, 768), (Reg.HRT_B3_B, 832)]
    (s.boundary 1, s.boundary 2, s.boundary 3, s.admitLimit, s.limitCode)) = (7812, 93750, 101562, 30937, 0) := by decide

/-- 06, worked case 2: three quad loads through A4 with LEN4 = 48. -/
theorem test_circular : circular 0x0260 48 16 = 0x0240 ∧ circular 0x0240 48 16 = 0x0250 ∧ circular 0x0250 48 16 = 0x0260 := by decide

/-- 10, worked case 1: a PAUSE of 100 quanta at 100 Mbit/s, received at 20,000 ns, holds until 532,000 ns. -/
theorem test_pause : (let s := { live [(Reg.PORT_LSTAT_UP 2, 1), (Reg.PORT_LSTAT_SPEED 2, 1), (Reg.PORT_LSTAT_FDX 2, 1), (Reg.PORT_PCFG_RXEN 2, 1)] with tb := BitVec.ofNat 92 (20000 * 2 ^ 28) }
    after (exec (.pause 2 100) s) (fun t => (t.port 2).pauseEnd)) = some (some 532000) := by decide

/-- 11, worked case 2: a step past the limit is refused as number 7 and holds. -/
theorem test_step_refused : (let s := live [(Reg.TIME_CTRL_OWNER, 3), (Reg.TIME_STAT_VALID, 1), (Reg.TIME_JUMPLIM_LIM, 1000), (Reg.TIME_REFNUM_NUM, 6), (Reg.TIME_STEP_LO_DELTA, 250000)]
    after (exec (.stepRequest .host 0) s) (fun t => (t.get Reg.TIME_REFNUM_NUM, t.get Reg.TIME_STAT_HOLD, t.time.steps.length))) = some (7, 1, 0) := by decide

/-- 14, worked case: at 300 us e0 = 8 holds HIGH, at 400 us e0 = -9 wants LOW, at 500 us e0 = 10 wants HIGH. -/
theorem test_law : lawWant false 2 8 8 0 = 2 ∧ lawWant false 2 (-9) 8 0 = 0 ∧ lawWant false 0 10 8 0 = 2 := by decide

/-- 15, worked case 2: 12.0 mA converts to 2,457. -/
theorem test_ain : ainCode true 12000000 = 2457 := by decide

/-- 16, R553 and R554: a capture over a fresh one sets OVERCAP. -/
theorem test_overcap : (let s := live [(Reg.TMR_CAP_HI_FRESH 4 0, 1), (Reg.TMR_CNT_LO_CNT 4, 2811)]
    (((s.tmrCapture 4 0).get48 (Reg.TMR_CAP_LO_VAL 4 0) (Reg.TMR_CAP_HI_VAL 4 0)), (s.tmrCapture 4 0).get (Reg.TMR_CAP_HI_FRESH 4 0), (s.tmrCapture 4 0).get (Reg.TMR_CAP_HI_OVERCAP 4 0))) =
    (2811, 1, 1) := by decide

/-- 20, R657: the number after 0xFFFF_FFFF is 1. -/
theorem test_seq_wraps : ((live [(Reg.PWR_LEDHEAD_SEQ, 0xFFFFFFFF)]).record 1 0 0).get Reg.PWR_LEDHEAD_SEQ = 1 := by decide

/-- 22, R721: IDCODE. -/
theorem test_idcode : after (exec .idcode (live [])) (fun t => t.out.head?) = some (some (.tdo 32 0x3734074B)) := by decide

/-- A step takes the front command and leaves the rest. -/
theorem test_step : (match step { live [] with pending := [.idcode, .clamp] } with
    | .next t => decide (t.pending = [.clamp] ∧ t.tap.ir = 0x02)
    | _ => false) = true := by decide

end Sys2Proof.Tests
end

section
/-!
SUPPORT. The laws of an access to the set-up space: the reports of a set-up access fault (R137), and where a read or a write goes once its
address decodes and no rule holds it back.
-/

namespace Sys2Proof.Machine

/-! ## Fields that count, and the newest ledger entry -/

theorem State.Inv.regsWf {s : State} (h : s.Inv) : s.regsWf = true := h.2.1

theorem State.get_count_self (s : State) (f : Fld) (n : Nat) (h : s.regsWf = true) (hf : f.ok = true) :
    (s.count f n).get f = min (s.get f + n) (2 ^ f.w - 1) := by
  have hlt : min (s.get f + n) (2 ^ f.w - 1) < 2 ^ f.w := by have := Nat.two_pow_pos f.w; omega
  exact (s.get_set_self f _ h hf).trans (Nat.mod_eq_of_lt hlt)

theorem State.get_count_of_apart (s : State) (f g : Fld) (n : Nat) (h : s.regsWf = true) (hf : f.ok = true) (hg : g.apart f = true) :
    (s.count f n).get g = s.get g :=
  s.get_set_of_apart f g _ h hf hg

theorem State.head_ledger_record (s : State) (code unit detail : Nat) :
    (s.record code unit detail).ledger.head?.map (fun x => x.code) = some (BitVec.ofNat 16 code) := rfl

/-! ## A set-up access fault (R137) -/

section AccessFault

variable (s : State) (w : Who) (key cause : Nat)

/-- What a fault of this cause leaves in DEV_ACCERR and DEV_STAT: each field holds what was written to it, past the writes of the others. -/
theorem State.get_accessFault (h : s.regsWf = true) (hc : cause < 4) :
    (s.accessFault w key cause).get Reg.DEV_ACCERR_OFFSET = key % 0x10000 ∧ (s.accessFault w key cause).get Reg.DEV_ACCERR_CAUSE = cause ∧
    (s.accessFault w key cause).get Reg.DEV_STAT_ACCF = 1 ∧
    (s.accessFault w key cause).get Reg.DEV_ACCERR_COUNT = min (s.get Reg.DEV_ACCERR_COUNT + 1) 4095 := by
  have h1 := s.regsWf_set Reg.DEV_ACCERR_OFFSET (key % 0x10000) h
  have h2 := State.regsWf_set _ Reg.DEV_ACCERR_CAUSE cause h1
  have h3 := State.regsWf_set _ Reg.DEV_ACCERR_SRC (whoSrc w) h2
  have h4 := State.regsWf_count _ Reg.DEV_ACCERR_COUNT 1 h3
  unfold State.accessFault
  simp (disch := simp +decide only [h, h1, h2, h3, h4]) only [State.get_record_of_ne, State.get_set_of_apart, State.get_count_of_apart,
    State.get_set_self, State.get_count_self]
  exact ⟨Nat.mod_mod _ _, Nat.mod_eq_of_lt hc, rfl, rfl⟩

theorem State.word_accessFault_of_ne (k : Nat) (ha : k ≠ Reg.DEV_ACCERR) (hs : k ≠ Reg.DEV_STAT) (hl : k ≠ Reg.PWR_LEDHEAD) :
    (s.accessFault w key cause).word k = s.word k := by
  unfold State.accessFault State.record State.count
  rw [State.word_recordF_of_ne _ _ _ _ _ _ hl, State.word_set_of_ne _ _ _ _ hs, State.word_set_of_ne _ _ _ _ ha, State.word_set_of_ne _ _ _ _ ha,
    State.word_set_of_ne _ _ _ _ ha, State.word_set_of_ne _ _ _ _ ha]

theorem State.head_ledger_accessFault : (s.accessFault w key cause).ledger.head?.map (fun x => x.code) = some 0x0001 :=
  State.head_ledger_record _ _ _ _

theorem State.accessFault_frame : s.accessFault w key cause =
    { s with regs := (s.accessFault w key cause).regs, ledger := (s.accessFault w key cause).ledger } := rfl

end AccessFault

/-! ## Accesses of any shape (R4) -/

section Access

variable (s : State) (w : Who) (key : Nat)

theorem aligned_iff (word : Bool) : (word && key % 4 == 0) = true ↔ word = true ∧ key % 4 = 0 := by simp

theorem misshapen_iff (word : Bool) : ¬ (word && key % 4 == 0) = true ↔ word = false ∨ key % 4 ≠ 0 := by
  rw [aligned_iff, Decidable.not_and_iff_or_not, Bool.not_eq_true]

theorem State.accessWrite_aligned (v : W32) (h : key % 4 = 0) : s.accessWrite w key true v = s.setupWrite w key v :=
  if_pos ((aligned_iff key true).mpr ⟨rfl, h⟩)

theorem State.accessRead_aligned (h : key % 4 = 0) : s.accessRead w key true = s.setupRead w key :=
  if_pos ((aligned_iff key true).mpr ⟨rfl, h⟩)

theorem State.accessWrite_misshapen (word : Bool) (v : W32) (h : word = false ∨ key % 4 ≠ 0) :
    s.accessWrite w key word v = s.accessFault w key 1 :=
  if_neg ((misshapen_iff key word).mpr h)

theorem State.accessRead_misshapen (word : Bool) (h : word = false ∨ key % 4 ≠ 0) :
    s.accessRead w key word = (0, s.accessFault w key 1) :=
  if_neg ((misshapen_iff key word).mpr h)

/-! ## Accesses that no rule holds back, and those of a closed function -/

theorem State.regWrite_open (word : Bool) (v : W32) (h : s.gate w key = none) : s.regWrite w key word v = s.accessWrite w key word v := by
  simp only [State.regWrite, h]

theorem State.regRead_open (word : Bool) (h : s.gate w key = none) :
    s.regRead w key word = (s.accessRead w key word).2.send (.readValue w key (s.accessRead w key word).1) := by
  simp only [State.regRead, h]

theorem State.regWrite_closed (word : Bool) (v : W32) (h : s.gate w key = some false) : s.regWrite w key word v = s := by
  simp only [State.regWrite, h]

theorem State.regRead_closed (word : Bool) (h : s.gate w key = some false) :
    s.regRead w key word = s.send (.reply (w == .pf1) .unsupported []) := by
  simp only [State.regRead, h]

end Access

/-! ## The rows of an access -/

theorem exec_registerWrite_decoded {s : State} {w : Who} {a : BitVec 32} {key : Nat} (word : Bool) (v : W32) (h : s.decodes w a = some key) :
    exec (.registerWrite w a word v) s = .next (s.regWrite w key word v) := by
  show execRegisterWrite w a word v s = _
  simp only [execRegisterWrite, h]

theorem exec_registerRead_decoded {s : State} {w : Who} {a : BitVec 32} {key : Nat} (word : Bool) (h : s.decodes w a = some key) :
    exec (.registerRead w a word) s = .next (s.regRead w key word) := by
  show execRegisterRead w a word s = _
  simp only [execRegisterRead, h]

theorem exec_registerWrite_undecoded {s : State} {w : Who} {a : BitVec 32} (word : Bool) (v : W32) (h : s.decodes w a = none) :
    exec (.registerWrite w a word v) s = .next s := by
  show execRegisterWrite w a word v s = _
  simp only [execRegisterWrite, h]

theorem exec_registerRead_undecoded {s : State} {w : Who} {a : BitVec 32} (word : Bool) (h : s.decodes w a = none) :
    exec (.registerRead w a word) s = .next (s.send (.reply (w == .pf1) .unsupported [])) := by
  show execRegisterRead w a word s = _
  simp only [execRegisterRead, h]

end Sys2Proof.Machine
end

section
/-!
SUPPORT. An access of another width or alignment (R4, R137).
-/

open Sys2Proof Sys2Proof.Machine

/-- Settles O27: a write of another shape is the fault alone, a read is the same fault and answers 0. -/
theorem misshapenAccessIsReported : Obligations.MisshapenAccessIsReported := by
  intro w a key word v s hinv hdec hgate hshape
  obtain ⟨hoff, hcause, haccf, hcount⟩ := s.get_accessFault w key 1 hinv.regsWf (by decide)
  refine ⟨s.accessFault w key 1, ?_, ?_, hoff, hcause, haccf, hcount, s.head_ledger_accessFault w key 1, s.word_accessFault_of_ne w key 1, s.accessFault_frame w key 1⟩
  · rw [exec_registerWrite_decoded word v hdec, State.regWrite_open _ _ _ _ _ hgate, State.accessWrite_misshapen _ _ _ _ _ hshape]
  · rw [exec_registerRead_decoded word hdec, State.regRead_open _ _ _ _ hgate, State.accessRead_misshapen _ _ _ _ hshape]

end

section
/-!
SUPPORT. The DEV block (05) at work: no owner and no loop stands between an initiator and its registers, and what the rows DEV_NUDGE, DEV_LOCK
and DEV_RESDATA find there.
-/

namespace Sys2Proof.Machine

/-! ## A word with bits set -/

/-- A field that takes the ones of a written word (R5, W1S) leaves the word with those bits set. -/
theorem fieldSet_or_fieldGet (x v : W32) (lo w : Nat) (h : lo + w ≤ 32) :
    fieldSet x lo w (fieldGet x lo w ||| fieldGet v lo w) = x ||| (v &&& fieldMask lo w) := by
  refine BitVec.eq_of_getLsbD_eq fun i _ => ?_
  rw [getLsbD_fieldSet x lo w _ i h, BitVec.getLsbD_or, BitVec.getLsbD_and, getLsbD_fieldMask lo w i h, Nat.testBit_or, testBit_fieldGet, testBit_fieldGet]
  by_cases hi : lo ≤ i ∧ i < lo + w
  · have hlt : i - lo < w := by omega
    have hadd : lo + (i - lo) = i := by omega
    simp [hi, hlt, hadd]
  · simp [hi]

/-! ## Ownership and dispatch in the DEV block -/

section Dev

variable (s : State) (w : Who) (key : Nat)

theorem State.keyOwner_dev (h : key < 0x1000) : s.keyOwner key = 3 := by
  have hp : key ≠ Reg.TNG_PEND_CFG := by unfold Reg.TNG_PEND_CFG; omega
  unfold State.keyOwner
  rw [if_neg (by omega), if_neg (by omega), if_neg (by omega), if_neg hp, if_neg (by omega), if_neg (by omega), if_neg (by omega)]

/-- No write to what only the host can own is refused (R27). -/
theorem State.foreign_host : s.foreign w 3 = false := rfl

theorem State.owned_dev (f : State → State) (h : key < 0x1000) : s.owned w key f = f s := by
  rw [State.owned, State.ownRefused, s.keyOwner_dev key h, s.foreign_host]
  rfl

theorem State.noteLoopWrite_of_lt (h : key < 0x9100) : s.noteLoopWrite key = s := if_pos (Or.inl h)

theorem State.writeBlock_dev (v : W32) (h : key < 0x1000) : s.writeBlock w key v = s.writeDev w key v := by
  simp only [State.writeBlock, Nat.div_eq_of_lt h]

theorem State.setupWrite_dev (v : W32) (hw : w ≠ .jtag) (h : key < 0x1000) (hf : (RegMap.find key).isNone = false) :
    s.setupWrite w key v = s.writeDev w key v := by
  rw [State.setupWrite, if_neg hw, if_neg (by omega), if_neg (by simp [hf]), s.owned_dev w key _ h, s.noteLoopWrite_of_lt key (by omega),
    s.writeBlock_dev w key v h]

theorem State.setupRead_dev (h : key < 0x1000) (hf : (RegMap.find key).isNone = false) : s.setupRead w key = s.readReg key := by
  rw [State.setupRead, if_neg (by omega), if_neg (by omega), if_neg (by simp [hf])]

theorem whoKey_of_ne (hw : w ≠ .pf1) : whoKey w key = key := if_neg hw

theorem State.regsWf_clearOnRead (h : s.regsWf = true) : (s.clearOnRead key).regsWf = true := by
  unfold State.clearOnRead
  split
  · exact h
  · exact s.regsWf_setWord _ _ h

theorem State.word_clearOnRead_of_ne (k : Nat) (h : k ≠ key) : (s.clearOnRead key).word k = s.word k := by
  unfold State.clearOnRead
  split
  · rfl
  · exact s.word_setWord_of_ne _ _ _ h

end Dev

/-! ## DEV_NUDGE, DEV_LOCK and DEV_RESDATA -/

theorem State.writeDev_nudge (s : State) (w : Who) (v : W32) : s.writeDev w Reg.DEV_NUDGE v = s.doorbellRead := rfl

/-- A write of DEV_LOCK adds its low 16 bits (R138). -/
theorem State.writeDev_lock (s : State) (w : Who) (v : W32) :
    s.writeDev w Reg.DEV_LOCK v = s.setWord Reg.DEV_LOCK (s.word Reg.DEV_LOCK ||| (v &&& 0xFFFF)) :=
  congrArg (s.setWord Reg.DEV_LOCK) (fieldSet_or_fieldGet (s.word Reg.DEV_LOCK) v 0 16 (by decide))

/-- A read of DEV_RESDATA answers the residue word that DEV_RESIDX names and moves on to the next (R141). -/
theorem State.readReg_resdata (s : State) : s.readReg Reg.DEV_RESDATA = (s.residueWord (s.get Reg.DEV_RESIDX_IDX),
    (s.clearOnRead Reg.DEV_RESDATA).set Reg.DEV_RESIDX_IDX (s.get Reg.DEV_RESIDX_IDX + 1)) := rfl

end Sys2Proof.Machine
end

section
/-!
SUPPORT. The BAR0 of function 0 (R128, R148): a configuration write sets it, and a host address decodes by its high 16 bits.
-/

namespace Sys2Proof.Machine

theorem toNat_and_high16 (a : BitVec 32) : (a &&& 0xFFFF0000).toNat = a.toNat / 0x10000 * 0x10000 := by
  have hmask : a &&& (0xFFFF0000 : BitVec 32) = (a >>> 16) <<< 16 := by
    refine BitVec.eq_of_getLsbD_eq fun i hi => ?_
    have hones : (0xFFFF0000 : BitVec 32) = fieldMask 16 16 := rfl
    rw [hones, BitVec.getLsbD_and, getLsbD_fieldMask 16 16 i (by decide), BitVec.getLsbD_shiftLeft,
      BitVec.getLsbD_ushiftRight]
    by_cases h : 16 ≤ i
    · have hadd : 16 + (i - 16) = i := by omega
      simp [h, hadd, hi]
    · simp [h, Nat.lt_of_not_le h]
  rw [hmask, BitVec.toNat_shiftLeft, BitVec.toNat_ushiftRight, Nat.shiftRight_eq_div_pow, Nat.shiftLeft_eq]
  omega

/-- Two addresses have the same high 16 bits when they lie in the same 64 KiB. -/
theorem and_high16_eq_iff (a b : BitVec 32) : a &&& 0xFFFF0000 = b &&& 0xFFFF0000 ↔ a.toNat / 0x10000 = b.toNat / 0x10000 := by
  rw [← BitVec.toNat_inj, toNat_and_high16, toNat_and_high16]
  omega

theorem State.decodes_host (s : State) (a base : BitVec 32) (h : s.pcie.pf0.bar0 = base &&& 0xFFFF0000) :
    s.decodes .host a = if a.toNat / 0x10000 = base.toNat / 0x10000 then some (a.toNat % 0x10000) else none := by
  simp only [State.decodes, h, and_high16_eq_iff]
  rfl

/-- A write of configuration DWORD 4 of function 0, while requests are served, leaves the high 16 bits of its value in BAR0. -/
theorem exec_configurationRequest_bar0 (s : State) (base : BitVec 32) (hr : s.pcie.ready = true) (hp : s.power.reset = none) :
    ∃ t, exec (.configurationRequest false true 4 base) s = .next t ∧ t.pcie.pf0.bar0 = base &&& 0xFFFF0000 := by
  refine ⟨(s.cfgWrite false 4 base).send (.reply false .ok []), ?_, rfl⟩
  show execConfigurationRequest false true 4 base s = _
  simp [execConfigurationRequest, hr, hp]

end Sys2Proof.Machine
end

section
/-!
SUPPORT. Register rows reach the set-up register they name (R5, R99, R136, R138, R141, R146, R148): one theorem per kind of row.
-/

namespace Sys2Proof.Machine

/-- Aligned words reach the register. -/
theorem exec_register_aligned (w : Who) (a : BitVec 32) (key : Nat) (v : W32) (s : State) (hdec : s.decodes w a = some key)
    (hgate : s.gate w key = none) (hal : key % 4 = 0) :
    exec (.registerWrite w a true v) s = .next (s.setupWrite w key v) ∧
    exec (.registerRead w a true) s = .next ((s.setupRead w key).2.send (.readValue w key (s.setupRead w key).1)) := by
  rw [exec_registerWrite_decoded true v hdec, s.regWrite_open w key true v hgate, s.accessWrite_aligned w key v hal,
    exec_registerRead_decoded true hdec, s.regRead_open w key true hgate, s.accessRead_aligned w key hal]
  exact ⟨rfl, rfl⟩

/-- Outside BAR0, and at a closed function, a write does nothing and a read is unsupported. -/
theorem exec_register_unsupported (w : Who) (a : BitVec 32) (word : Bool) (v : W32) (s : State)
    (h : s.decodes w a = none ∨ ∃ key, s.decodes w a = some key ∧ s.gate w key = some false) :
    exec (.registerWrite w a word v) s = .next s ∧ exec (.registerRead w a word) s = .next (s.send (.reply (w == .pf1) .unsupported [])) := by
  rcases h with hdec | ⟨key, hdec, hgate⟩
  · exact ⟨exec_registerWrite_undecoded word v hdec, exec_registerRead_undecoded word hdec⟩
  · rw [exec_registerWrite_decoded word v hdec, s.regWrite_closed w key word v hgate, exec_registerRead_decoded word hdec,
      s.regRead_closed w key word hgate]
    exact ⟨rfl, rfl⟩

/-- A new BAR0 moves the set-up space there, and nowhere else. -/
theorem exec_configurationRequest_moves (a base : BitVec 32) (off : Nat) (s : State) (hoff : off < 0x10000) (hr : s.pcie.ready = true)
    (hp : s.power.reset = none) (ha : a.toNat = base.toNat + off) (hb : base.toNat % 0x10000 = 0) :
    ∃ t, exec (.configurationRequest false true 4 base) s = .next t ∧ t.decodes .host a = some off ∧
      (∀ b : BitVec 32, b.toNat / 0x10000 ≠ base.toNat / 0x10000 → t.decodes .host b = none) := by
  obtain ⟨t, hexec, hbar⟩ := exec_configurationRequest_bar0 s base hr hp
  refine ⟨t, hexec, ?_, fun b hne => ?_⟩
  · have hpage : a.toNat / 0x10000 = base.toNat / 0x10000 := by omega
    have hmod : a.toNat % 0x10000 = off := by omega
    rw [t.decodes_host a base hbar, if_pos hpage, hmod]
  · rw [t.decodes_host b base hbar, if_neg hne]

theorem exec_devNudge_open (w : Who) (v : W32) (s : State) (h1 : w ≠ .pf1) (hj : w ≠ .jtag) (hgate : s.gate w Reg.DEV_NUDGE = none) :
    exec (.devNudge w v) s = .next s.doorbellRead := by
  show Host.Outcome.next (s.regWrite w (whoKey w Reg.DEV_NUDGE) true v) = _
  rw [whoKey_of_ne w _ h1, s.regWrite_open w _ true v hgate, s.accessWrite_aligned w _ v rfl, s.setupWrite_dev w _ v hj (by decide) rfl,
    s.writeDev_nudge]

theorem exec_devLock_open (w : Who) (v : W32) (s : State) (h1 : w ≠ .pf1) (hj : w ≠ .jtag) (hgate : s.gate w Reg.DEV_LOCK = none) :
    exec (.devLock w v) s = .next (s.setWord Reg.DEV_LOCK (s.word Reg.DEV_LOCK ||| (v &&& 0xFFFF))) := by
  show Host.Outcome.next (s.regWrite w (whoKey w Reg.DEV_LOCK) true v) = _
  rw [whoKey_of_ne w _ h1, s.regWrite_open w _ true v hgate, s.accessWrite_aligned w _ v rfl, s.setupWrite_dev w _ v hj (by decide) rfl,
    s.writeDev_lock]

theorem exec_devResdata_open (w : Who) (s : State) (h1 : w ≠ .pf1) (hgate : s.gate w Reg.DEV_RESDATA = none) :
    exec (.devResdata w) s = .next ((s.readReg Reg.DEV_RESDATA).2.send (.readValue w Reg.DEV_RESDATA (s.readReg Reg.DEV_RESDATA).1)) := by
  show Host.Outcome.next (s.regRead w (whoKey w Reg.DEV_RESDATA) true) = _
  rw [whoKey_of_ne w _ h1, s.regRead_open w _ true hgate, s.accessRead_aligned w _ rfl, s.setupRead_dev w _ (by decide) rfl]

/-- The read of DEV_RESDATA leaves DEV_RESIDX at the next word, and 1023 is followed by 0. -/
theorem State.get_residx_readReg_resdata (s : State) (h : s.regsWf = true) :
    (s.readReg Reg.DEV_RESDATA).2.get Reg.DEV_RESIDX_IDX = (s.get Reg.DEV_RESIDX_IDX + 1) % 1024 := by
  rw [s.readReg_resdata]
  exact State.get_set_self _ _ _ (s.regsWf_clearOnRead _ h) rfl

end Sys2Proof.Machine

open Sys2Proof Sys2Proof.Machine

/-- Settles O28: its six clauses, one row after another. -/
theorem registerRowsReachTheRegister : Obligations.RegisterRowsReachTheRegister := by
  refine ⟨exec_register_aligned, exec_register_unsupported, exec_configurationRequest_moves, exec_devNudge_open, ?_, ?_⟩
  · intro w v s hinv h1 hj hgate
    exact ⟨_, exec_devLock_open w v s h1 hj hgate, s.word_setWord_self _ _ hinv.regsWf, s.word_setWord_of_ne _ _, rfl⟩
  · intro w s hinv h1 hgate
    exact ⟨_, exec_devResdata_open w s h1 hgate, s.get_residx_readReg_resdata hinv.regsWf⟩

end

section
/-!
SUPPORT. An engine that can issue runs the effect of its instruction (R155, R197), and what a post to its emit queue does (R59).
-/

namespace Sys2Proof.Machine

/-! ## Issue -/

theorem State.engN_afterFetch (s : State) (e n : Nat) : (s.afterFetch e).engN n = s.engN n := by
  unfold State.afterFetch State.engCorr
  split <;> rfl

theorem State.issueG_of_canIssue {s : State} {e : Fin 16} {r : Run} {c : Ctx} (h : s.CanIssue e r c) (f : Effect) :
    s.issueG e f = f (s.afterFetch e) r c := by
  obtain ⟨hcur, hstall, hhalt, rfl, htrap⟩ := h
  have hissues : s.issues e = true := by simp [State.issues, hcur, hstall, hhalt]
  simp only [State.issueG, hissues, if_true, State.issueForced, hcur, htrap]
  rfl

/-! ## Posts (R59) -/

section Post

variable (s : State) (e : Nat) (r : Run) (c : Ctx) (tx : Bool) (a v : W32)

theorem State.post_of_room (h : (s.engN e).emitq.length < 64) : s.post e r c tx a v =
    (s.modEng e (fun g => { g with
      emitq := g.emitq ++ [{ slot := r.slot, kind := r.kind, live := true, tx := tx, a := a, v := v }] })).done e c :=
  if_neg (Nat.not_le.mpr h)

theorem State.post_of_full (h : 64 ≤ (s.engN e).emitq.length) : s.post e r c tx a v = s.overrun e := if_pos h

end Post

/-! ## EMW and EMT (R226, R227) -/

section Emit

variable {e p q : Fin 16} {s : State} {r : Run} {c : Ctx}

theorem exec_emw_misaligned (h : s.CanIssue e r c) (ha : (c.D p).toNat % 4 ≠ 0) : Traps (.emw e p q) s e causeAlign := by
  show Host.Outcome.next (s.issueG e (iEmw e p q)) = _
  rw [State.issueG_of_canIssue h, iEmw, if_pos ha]

theorem exec_emw_outside (h : s.CanIssue e r c) (ha : (c.D p).toNat % 4 = 0) (hb : 0x10000 ≤ (c.D p).toNat) :
    Traps (.emw e p q) s e causeBus := by
  show Host.Outcome.next (s.issueG e (iEmw e p q)) = _
  rw [State.issueG_of_canIssue h, iEmw, if_neg (not_not_intro ha), if_pos hb]

theorem exec_emw_posts (h : s.CanIssue e r c) (ha : (c.D p).toNat % 4 = 0) (hb : (c.D p).toNat < 0x10000) :
    exec (.emw e p q) s = .next ((s.afterFetch e).post e r c false (c.D p) (c.D q)) := by
  show Host.Outcome.next (s.issueG e (iEmw e p q)) = _
  rw [State.issueG_of_canIssue h, iEmw, if_neg (not_not_intro ha), if_neg (Nat.not_le.mpr hb)]

theorem exec_emt_refused (h : s.CanIssue e r c) (hok : (s.afterFetch e).emtOk e (c.D p).toNat (c.D q) = false) :
    Traps (.emt e p q) s e causeBus := by
  show Host.Outcome.next (s.issueG e (iEmt e p q)) = _
  rw [State.issueG_of_canIssue h, iEmt, if_neg (by simp [hok])]

theorem exec_emt_posts (h : s.CanIssue e r c) (hok : (s.afterFetch e).emtOk e (c.D p).toNat (c.D q) = true) :
    exec (.emt e p q) s = .next ((s.afterFetch e).post e r c true (c.D p) (c.D q)) := by
  show Host.Outcome.next (s.issueG e (iEmt e p q)) = _
  rw [State.issueG_of_canIssue h, iEmt, if_pos hok]

end Emit

end Sys2Proof.Machine

open Sys2Proof Sys2Proof.Machine

/-- Settles O20: what EMW and EMT refuse traps, and what they accept is a post, which room in the queue decides. -/
theorem emitPosts : Obligations.EmitPosts := by
  intro e p q s r c h a v u post n
  have hlen : (u.engN e).emitq.length = n := by rw [s.engN_afterFetch]
  refine ⟨exec_emw_misaligned h, exec_emw_outside h, fun ha hb hn => ?_, fun ha hb hn => ?_, exec_emt_refused h, fun hok hn => ?_, fun hok hn => ?_⟩
  · rw [exec_emw_posts h ha hb, u.post_of_room e r c false a v (by omega)]
  · rw [exec_emw_posts h ha hb, u.post_of_full e r c false a v (by omega)]
  · rw [exec_emt_posts h hok, u.post_of_room e r c true a v (by omega)]
  · rw [exec_emt_posts h hok, u.post_of_full e r c true a v (by omega)]

end

section
/-!
SUPPORT. The Hearth's registers and times (02): wide registers and fields past other writes, when a time is reached, and where the next tick
starts (R38 to R41, R437).
-/

namespace Sys2Proof.Machine

/-! ## Wide registers -/

section Wide

variable (s : State) (lo hi : Nat)

theorem append_halves (v : BitVec 64) : ((v >>> 32).setWidth 32 ++ v.setWidth 32 : BitVec 64) = v := by
  refine BitVec.eq_of_getLsbD_eq fun i hi => ?_
  rw [BitVec.getLsbD_append]
  by_cases h : i < 32
  · simp [h]
  · have hsub : i - 32 < 32 := by omega
    have hadd : 32 + (i - 32) = i := by omega
    simp [h, hsub, hadd]

theorem State.regsWf_setWord64 (v : BitVec 64) (h : s.regsWf = true) : (s.setWord64 lo hi v).regsWf = true :=
  State.regsWf_setWord _ _ _ (s.regsWf_setWord _ _ h)

theorem State.word64_setWord64_self (v : BitVec 64) (h : s.regsWf = true) (hne : lo ≠ hi) : (s.setWord64 lo hi v).word64 lo hi = v := by
  have hlow := s.regsWf_setWord lo (v.setWidth 32) h
  rw [State.word64, State.setWord64, State.word_setWord_self _ _ _ hlow, State.word_setWord_of_ne _ _ _ _ hne, State.word_setWord_self _ _ _ h,
    append_halves]

theorem State.word64_setWord64_of_ne (lo' hi' : Nat) (v : BitVec 64) (h1 : lo ≠ lo' ∧ lo ≠ hi') (h2 : hi ≠ lo' ∧ hi ≠ hi') :
    (s.setWord64 lo' hi' v).word64 lo hi = s.word64 lo hi := by
  rw [State.word64, State.setWord64, State.word_setWord_of_ne _ _ _ _ h1.2, State.word_setWord_of_ne _ _ _ _ h1.1,
    State.word_setWord_of_ne _ _ _ _ h2.2, State.word_setWord_of_ne _ _ _ _ h2.1, State.word64]

theorem State.word64_set_of_ne (f : Fld) (v : Nat) (h1 : lo ≠ f.addr) (h2 : hi ≠ f.addr) : (s.set f v).word64 lo hi = s.word64 lo hi := by
  rw [State.word64, State.word_set_of_ne _ _ _ _ h1, State.word_set_of_ne _ _ _ _ h2, State.word64]

end Wide

section Hearth

variable (s : State)

theorem State.running_set_of_ne (f : Fld) (v : Nat) (h : Reg.HRT_STAT ≠ f.addr) : (s.set f v).running = s.running := by
  rw [State.running, State.on, State.get_set_of_ne _ _ _ _ h]
  rfl

/-! ## Times -/

theorem State.reached_some_iff (t : Nat) : s.reached (some t) = true ↔ t ≤ s.now := decide_eq_true_iff

theorem State.reached_some_eq_false_iff (t : Nat) : s.reached (some t) = false ↔ s.now < t := by
  rw [← Bool.not_eq_true, s.reached_some_iff, Nat.not_le]

theorem State.follows_of_src_ne (h : s.get Reg.HRT_CTRL_SRC ≠ 3) : s.follows = false := by simp [State.follows, h]

theorem State.mgrStart_of_not_follows (h : s.follows = false) : s.mgrStart = none := by simp [State.mgrStart, h]

theorem State.tickAt_of_edge {e : Nat} (h : s.hearth.edge = some e) : s.tickAt = e + 48 := by simp only [State.tickAt, h]

theorem State.tickAt_of_no_edge (h : s.hearth.edge = none) :
    s.tickAt = s.mgrStart.getD (s.hearth.nominal + s.tp + s.hearth.lengthen) := by simp only [State.tickAt, h]

theorem State.tickAt_of_grid (h : s.hearth.edge = none) (hf : s.follows = false) : s.tickAt = s.hearth.nominal + s.tp + s.hearth.lengthen := by
  rw [s.tickAt_of_no_edge h, s.mgrStart_of_not_follows hf, Option.getD_none]

/-- A start that leaves Settle its least length is not passed over for a later one. -/
theorem nextPeriod_of_le {least next tp : Nat} (h : least ≤ next) : next + (least + tp - 1 - next) / tp * tp = next := by
  rcases Nat.eq_zero_or_pos tp with rfl | htp
  · simp
  · rw [Nat.div_eq_of_lt (by omega), Nat.zero_mul, Nat.add_zero]

theorem State.mgrStart_of_sync {m a : Nat} (hf : s.follows = true) (hrun : s.on Reg.HRT_STAT_RUNNING = true) (hr : s.hearth.regrid = false)
    (hl : s.hearth.lengthen = 0) (hfree : s.hearth.free = false) (hsync : s.chain.sync0 = some (m, a)) (hm : m ≤ s.tick)
    (hlong : s.hearth.nominal + s.boundary 3 + s.settleMin ≤ a + (s.tick + 1 - m) * s.tp) :
    s.mgrStart = some (a + (s.tick + 1 - m) * s.tp) := by
  simp only [State.mgrStart, hf, hrun, hr, hl, hfree, hsync, if_neg (Nat.not_lt.mpr hm), nextPeriod_of_le hlong]
  rfl

/-! ## When a tick start is due (R38) -/

theorem State.tickDue_iff (hrun : s.running = true) (hph : s.phase = 3) (ht : s.timeRuns = true) : s.tickDue = true ↔ s.tickAt ≤ s.now := by
  simp [State.tickDue, hrun, hph, ht, s.reached_some_iff]

theorem exec_tickStart_of_due (h : s.tickDue = true) : exec .tickStart s = .next s.tickStart := congrArg Host.Outcome.next (if_pos h)

theorem exec_tickStart_of_not_due (h : ¬ s.tickDue = true) : exec .tickStart s = .next s := congrArg Host.Outcome.next (if_neg h)

theorem State.tickStart_of_stopping (h : s.hearth.stopping = true) : s.tickStart = s.settleEnd.stopTicks := if_pos h

theorem State.tickStart_of_edge {e : Nat} (h : s.hearth.stopping = false) (he : s.hearth.edge = some e) :
    s.tickStart = (s.settleEnd.hearthTick (s.tick + 1) (e + 48) true).gather := by
  simp [State.tickStart, h, he]

theorem State.tickStart_of_no_edge (h : s.hearth.stopping = false) (he : s.hearth.edge = none) :
    s.tickStart = (s.settleEnd.hearthTick (s.settleEnd.tickNumber s.tickAt) s.tickAt false).gather := by
  simp [State.tickStart, h, he]

end Hearth

end Sys2Proof.Machine
end

section
/-!
SUPPORT. RUN starts and stops the ticks (R35, R36, R62, R63), and how the first tick starts (R42, R736, R737).
-/

namespace Sys2Proof.Machine

section Run

variable (s : State)

/-! ## The checks and the stop -/

theorem State.tickRunStart_of_failed (h : s.startCode ≠ 0) :
    s.tickRunStart = ((s.set Reg.HRT_CTRL_RUN 0).set Reg.HRT_STAT_CFGERR 1).set Reg.HRT_STAT_CFGCODE s.startCode := if_pos h

theorem State.get_tickRunStart_of_failed (h : s.startCode ≠ 0) (hw : s.regsWf = true) :
    s.tickRunStart.get Reg.HRT_CTRL_RUN = 0 ∧ s.tickRunStart.get Reg.HRT_STAT_CFGERR = 1 ∧
    s.tickRunStart.get Reg.HRT_STAT_CFGCODE = s.startCode % 2 ^ Reg.HRT_STAT_CFGCODE.w := by
  have h1 := s.regsWf_set Reg.HRT_CTRL_RUN 0 hw
  have h2 := State.regsWf_set _ Reg.HRT_STAT_CFGERR 1 h1
  rw [s.tickRunStart_of_failed h]
  refine ⟨?_, ?_, State.get_set_self _ _ _ h2 rfl⟩
  · rw [State.get_set_of_ne _ _ _ _ (by decide), State.get_set_of_ne _ _ _ _ (by decide), State.get_set_self _ _ _ hw rfl]
    rfl
  · rw [State.get_set_of_apart _ _ _ _ h2 rfl rfl, State.get_set_self _ _ _ h1 rfl]
    rfl

theorem State.hearth_tickRunStart (h : s.startCode = 0) : s.tickRunStart.hearth.armed = true ∧ s.tickRunStart.hearth.stopping = false := by
  rw [State.tickRunStart, if_neg (not_not_intro h)]
  exact ⟨rfl, rfl⟩

theorem State.tickRunStop_of_running (h : s.running = true) :
    s.tickRunStop = (s.set Reg.HRT_CTRL_RUN 0).modHearth (fun h => { h with stopping := true }) :=
  if_pos ((s.running_set_of_ne _ _ (by decide)).trans h)

theorem State.tickRunStop_of_idle (h : s.running = false) :
    s.tickRunStop = (s.set Reg.HRT_CTRL_RUN 0).modHearth (fun h => { h with armed := false }) :=
  if_neg (Bool.eq_false_iff.mp ((s.running_set_of_ne _ _ (by decide)).trans h))

theorem State.get_modHearth (f : Hearth → Hearth) (g : Fld) : (s.modHearth f).get g = s.get g := rfl

theorem State.get_run_tickRunStop (hw : s.regsWf = true) : s.tickRunStop.get Reg.HRT_CTRL_RUN = 0 := by
  cases h : s.running
  · rw [s.tickRunStop_of_idle h, State.get_modHearth, s.get_set_self _ _ hw rfl]
    rfl
  · rw [s.tickRunStop_of_running h, State.get_modHearth, s.get_set_self _ _ hw rfl]
    rfl

/-! ## Writes of HRT_CTRL -/

/-- HRT_CTRL once its fields have taken a written word by their access codes (R5). -/
def State.ctrlWritten (s : State) (w : Who) (v : W32) : State := s.writeFields w Reg.HRT_CTRL v (fun _ => false)

variable (w : Who) (v : W32)

theorem fieldGet_or_one : fieldGet (v ||| 1) 0 1 = 1 := by
  simp [fieldGet, BitVec.toNat_or]

theorem fieldGet_and_not_one : fieldGet (v &&& 0xFFFFFFFE) 0 1 = 0 := by
  rw [fieldGet, BitVec.toNat_and, Nat.pow_zero, Nat.div_one, Nat.and_mod_two_pow]
  exact Nat.and_zero _

theorem State.writeHrtCtrl_stops (h : fieldGet v 0 1 = 0) : s.writeHrtCtrl w v = (s.ctrlWritten w v).tickRunStop := if_pos h

theorem State.writeHrtCtrl_while_running (h : fieldGet v 0 1 = 1) (hrun : (s.ctrlWritten w v).running = true) :
    s.writeHrtCtrl w v = (s.ctrlWritten w v).setB Reg.HRT_CTRL_RUN (s.on Reg.HRT_CTRL_RUN) :=
  (if_neg (by omega)).trans (if_pos hrun)

theorem State.writeHrtCtrl_starts (h : fieldGet v 0 1 = 1) (hrun : (s.ctrlWritten w v).running = false)
    (harm : (s.ctrlWritten w v).hearth.armed = false) : s.writeHrtCtrl w v = (s.ctrlWritten w v).tickRunStart :=
  (if_neg (by omega)).trans ((if_neg (Bool.eq_false_iff.mp hrun)).trans (if_neg (Bool.eq_false_iff.mp harm)))

end Run

/-! ## The first tick -/

section FirstTick

variable {s : State} (ht : s.timeRuns = true) (ha : s.hearth.armed = true)

/-- No start that comes at its nominal time waits for an edge or for the manager. -/
theorem State.firstAt_of_nominal (h1 : s.get Reg.HRT_CTRL_SRC ≠ 1) (h3 : s.get Reg.HRT_CTRL_SRC ≠ 3) : s.firstAt = some s.hearth.nominal := by
  rw [State.firstAt, if_neg h1, if_neg (by simp [s.follows_of_src_ne h3])]

theorem State.firstAt_of_edge {e : Nat} (h1 : s.get Reg.HRT_CTRL_SRC = 1) (he : s.hearth.edge = some e) : s.firstAt = some (e + 48) := by
  rw [State.firstAt, if_pos h1, he, Option.map_some]

theorem exec_firstTickStart_early (h : s.reached s.firstAt = false) : exec .firstTickStart s = .next s := by
  show execFirstTickStart s = _
  simp [execFirstTickStart, h]

include ht ha

theorem exec_firstTickStart_free (h0 : s.get Reg.HRT_CTRL_SRC = 0) (hr : s.hearth.nominal ≤ s.now) :
    exec .firstTickStart s = .next ((s.modHearth (fun h => { h with grid := s.now })).hearthTick 0 s.now false).gather := by
  have hat := s.firstAt_of_nominal (by omega) (by omega)
  have hf := s.follows_of_src_ne (by omega)
  show execFirstTickStart s = _
  simp [execFirstTickStart, ha, ht, hat, (s.reached_some_iff _).mpr hr, h0, hf]

theorem exec_firstTickStart_edge {e : Nat} (h1 : s.get Reg.HRT_CTRL_SRC = 1) (he : s.hearth.edge = some e) (hr : e + 48 ≤ s.now) :
    exec .firstTickStart s = .next (s.hearthTick 0 (e + 48) true).gather := by
  have hat := State.firstAt_of_edge h1 he
  show execFirstTickStart s = _
  simp [execFirstTickStart, ha, ht, hat, (s.reached_some_iff _).mpr hr, h1, he]

theorem exec_firstTickStart_multiple (h2 : s.get Reg.HRT_CTRL_SRC = 2) (hr : s.hearth.nominal ≤ s.now) :
    exec .firstTickStart s = .next (s.hearthTick (s.now / s.tp) (s.now / s.tp * s.tp) false).gather := by
  have hat := s.firstAt_of_nominal (by omega) (by omega)
  show execFirstTickStart s = _
  simp [execFirstTickStart, ha, ht, hat, (s.reached_some_iff _).mpr hr, h2]

theorem exec_firstEdgeTimeout_due (h1 : s.get Reg.HRT_CTRL_SRC = 1) (he : s.hearth.edge = none) (hr : s.hearth.nominal ≤ s.now) :
    exec .firstEdgeTimeout s =
      .next (((s.set Reg.HRT_STAT_SRCLOSS 1).modHearth (fun h => { h with free := true })).hearthTick 0 s.now true).gather := by
  show execFirstEdgeTimeout s = _
  simp [execFirstEdgeTimeout, ha, ht, (s.reached_some_iff _).mpr hr, h1, he]

end FirstTick

end Sys2Proof.Machine
end

section
/-!
SUPPORT. The Hearth's own state at a tick start (R38, R45): the number, the start time, RUNNING and PHASE.
-/

namespace Sys2Proof.Machine

/-- The registers of a tick that starts: its number, its start, RUNNING and PHASE. -/
def State.tickRegs (s : State) (num : Nat) : State :=
  (((s.setWord64 Reg.HRT_TICK_LO Reg.HRT_TICK_HI (BitVec.ofNat 64 num)).setWord64 Reg.HRT_TSTART_LO Reg.HRT_TSTART_HI (BitVec.ofNat 64 s.now)).set
    Reg.HRT_STAT_RUNNING 1).set Reg.HRT_STAT_PHASE 0

/-- A tick start writes these registers, after REALIGN where the tick is lengthened to the grid (R41), and the Hearth's state. -/
theorem State.hearthTick_eq (s : State) (num nominal : Nat) (taken : Bool) (hw : s.regsWf = true) :
    ∃ (u : State) (h : Hearth), u.regsWf = true ∧ u.now = s.now ∧ s.hearthTick num nominal taken = (u.tickRegs num).modHearth (fun _ => h) ∧
      h.nominal = nominal ∧ h.armed = false ∧ h.edge = none ∧ h.taken = taken := by
  let t := s.hearthTick num nominal taken
  refine ⟨if t.hearth.lengthen = 0 then s else s.set Reg.HRT_STAT_REALIGN 1, t.hearth, ?_, ?_, rfl, rfl, rfl, rfl, rfl⟩
  · split
    · exact hw
    · exact s.regsWf_set _ _ hw
  · split <;> rfl

section TickRegs

variable (s : State) (num : Nat) (hw : s.regsWf = true)
include hw

theorem State.tick_tickRegs (hn : num < 2 ^ 64) : (s.tickRegs num).tick = num := by
  rw [State.tick, State.tickRegs, State.word64_set_of_ne _ _ _ _ _ (by decide) (by decide), State.word64_set_of_ne _ _ _ _ _ (by decide) (by decide),
    State.word64_setWord64_of_ne _ _ _ _ _ _ (by decide) (by decide), State.word64_setWord64_self _ _ _ _ hw (by decide),
    BitVec.toNat_ofNat, Nat.mod_eq_of_lt hn]

theorem State.tstart_tickRegs : (s.tickRegs num).word64 Reg.HRT_TSTART_LO Reg.HRT_TSTART_HI = BitVec.ofNat 64 s.now := by
  have h1 := s.regsWf_setWord64 Reg.HRT_TICK_LO Reg.HRT_TICK_HI (BitVec.ofNat 64 num) hw
  rw [State.tickRegs, State.word64_set_of_ne _ _ _ _ _ (by decide) (by decide), State.word64_set_of_ne _ _ _ _ _ (by decide) (by decide),
    State.word64_setWord64_self _ _ _ _ h1 (by decide)]

theorem State.stat_tickRegs : (s.tickRegs num).running = true ∧ (s.tickRegs num).phase = 0 := by
  have h1 := s.regsWf_setWord64 Reg.HRT_TICK_LO Reg.HRT_TICK_HI (BitVec.ofNat 64 num) hw
  have h2 := State.regsWf_setWord64 _ Reg.HRT_TSTART_LO Reg.HRT_TSTART_HI (BitVec.ofNat 64 s.now) h1
  have h3 := State.regsWf_set _ Reg.HRT_STAT_RUNNING 1 h2
  rw [State.running, State.on, State.phase, State.tickRegs, State.get_set_of_apart _ _ _ _ h3 rfl rfl, State.get_set_self _ _ _ h2 rfl,
    State.get_set_self _ _ _ h3 rfl]
  exact ⟨rfl, rfl⟩

end TickRegs

/-- A tick start leaves the number, the start, RUNNING and PHASE Gather, and the nominal start it was given. -/
theorem State.hearthTick_begins (s : State) (num nominal : Nat) (taken : Bool) (hw : s.regsWf = true) (hn : num < 2 ^ 64) :
    let t := s.hearthTick num nominal taken
    t.tick = num ∧ t.running = true ∧ t.phase = 0 ∧ t.word64 Reg.HRT_TSTART_LO Reg.HRT_TSTART_HI = BitVec.ofNat 64 s.now ∧
      t.hearth.nominal = nominal ∧ t.hearth.armed = false ∧ t.hearth.edge = none ∧ t.hearth.taken = taken := by
  obtain ⟨u, h, huw, hnow, heq, hnom, harm, hedge, htaken⟩ := s.hearthTick_eq num nominal taken hw
  obtain ⟨hrun, hph⟩ := u.stat_tickRegs num huw
  intro t
  rw [show t = _ from heq, ← hnow]
  exact ⟨u.tick_tickRegs num huw hn, hrun, hph, u.tstart_tickRegs num huw, hnom, harm, hedge, htaken⟩

end Sys2Proof.Machine

open Sys2Proof Sys2Proof.Machine

/-- Settles O30: RUN and its checks, the first tick under each source, the start of each later tick, and the Hearth's state at a start. -/
theorem runsAndTicks : Obligations.RunsAndTicks := by
  refine ⟨fun s hinv => ⟨fun hc => ?_, s.hearth_tickRunStart, fun hrun => ?_, fun hrun => ?_, fun w v => ?_⟩, fun s ht => ?_⟩
  · obtain ⟨hrun, herr, hcode⟩ := s.get_tickRunStart_of_failed hc hinv.regsWf
    exact ⟨hrun, herr, hcode, by rw [s.tickRunStart_of_failed hc]; rfl⟩
  · exact ⟨by rw [s.tickRunStop_of_running hrun]; rfl, s.get_run_tickRunStop hinv.regsWf⟩
  · exact ⟨by rw [s.tickRunStop_of_idle hrun]; rfl, s.get_run_tickRunStop hinv.regsWf⟩
  · exact ⟨rfl, rfl, (s.writeHrtCtrl_stops w _ (fieldGet_and_not_one v)).symm, s.writeHrtCtrl_starts w _ (fieldGet_or_one v),
      s.writeHrtCtrl_while_running w _ (fieldGet_or_one v)⟩
  · refine ⟨fun ha h0 => ⟨fun hlt => ?_, exec_firstTickStart_free ht ha h0⟩, fun e ha h1 => exec_firstTickStart_edge ht ha h1,
      fun ha h2 => exec_firstTickStart_multiple ht ha h2, fun ha h1 => exec_firstEdgeTimeout_due ht ha h1, ?_,
      fun num nominal taken hinv => s.hearthTick_begins num nominal taken hinv.regsWf⟩
    · refine exec_firstTickStart_early ?_
      rw [s.firstAt_of_nominal (by omega) (by omega), s.reached_some_eq_false_iff]
      exact hlt
    · refine ⟨s.tickAt_of_grid, fun m a he hf hrun hr hl hfree hsync hm hlong => ?_, fun hrun hph => ?_⟩
      · rw [s.tickAt_of_no_edge he, s.mgrStart_of_sync hf hrun hr hl hfree hsync hm hlong, Option.getD_some]
      · have hdue := s.tickDue_iff hrun hph ht
        refine ⟨fun e he hlt => exec_tickStart_of_not_due s ?_, fun _ hlt => exec_tickStart_of_not_due s ?_, fun hr hstop => ?_,
          fun e hstop he hr => ?_, fun hstop he hr => ?_⟩
        · rw [hdue, s.tickAt_of_edge he]
          omega
        · rw [hdue]
          omega
        · rw [exec_tickStart_of_due s (hdue.mpr hr), s.tickStart_of_stopping hstop]
        · rw [exec_tickStart_of_due s (hdue.mpr (s.tickAt_of_edge he ▸ hr)), s.tickStart_of_edge hstop he]
        · rw [exec_tickStart_of_due s (hdue.mpr hr), s.tickStart_of_no_edge hstop he]

end

section
/-!
SUPPORT. SYNC_IN (R39, R40, R64): which edges count, the window's end and the loss of the source, and SYNC_OUT (R43).
-/

namespace Sys2Proof.Machine

section Edge

variable {s : State} (hsrc : s.get Reg.HRT_CTRL_SRC = 1) (ht : s.timeRuns = true)

theorem exec_syncInEdge_of_other_source (h : s.get Reg.HRT_CTRL_SRC ≠ 1) : exec .syncInEdge s = .next s := if_pos (Or.inl h)

include hsrc ht

theorem exec_syncInEdge_armed (ha : s.hearth.armed = true) :
    exec .syncInEdge s = .next (s.modHearth (fun h => { h with edge := some (h.edge.getD s.now) })) := by
  show execSyncInEdge s = _
  simp [execSyncInEdge, hsrc, ht, ha]

variable (ha : s.hearth.armed = false) (hrun : s.running = true)
include ha hrun

theorem exec_syncInEdge_behind_start (hdue : s.tickDue = true) (hlt : s.tickAt < s.now) :
    exec .syncInEdge s = .next (if s.tickStart.running = true then s.tickStart.edgeIn else s.tickStart) := by
  show execSyncInEdge s = _
  simp [execSyncInEdge, hsrc, ht, ha, hrun, hdue, hlt]

theorem exec_syncInEdge_in_tick (hdue : s.tickDue = true → s.now ≤ s.tickAt) : exec .syncInEdge s = .next s.edgeIn := by
  have hbehind : ¬ (s.tickDue && decide (s.tickAt < s.now)) = true := by
    rw [Bool.and_eq_true, decide_eq_true_iff]
    exact fun h => Nat.not_le.mpr h.2 (hdue h.1)
  show execSyncInEdge s = _
  simp only [execSyncInEdge, hsrc, ht, ha, hrun, if_neg hbehind]
  rfl

end Edge

section Windows

variable (s : State)

theorem State.edgeIn_of_locked (h : s.hearth.free = false) : s.edgeIn = (s.modHearth (fun h => { h with missed := 0 })).syncEdge s.now :=
  if_neg (Bool.eq_false_iff.mp h)

/-- The edge that brings a lost source back moves the grid to it (R40, R41). -/
theorem State.edgeIn_of_free (h : s.hearth.free = true) (hr : s.hearth.regrid = false) (hl : s.hearth.lengthen = 0) :
    s.edgeIn = { s with hearth := { s.hearth with missed := 0, regrid := true, grid := s.now + 48 } } := by
  simp only [State.edgeIn, State.modHearth, h, hr, hl]
  rfl

theorem exec_syncWindowEnd_missed (hrun : s.running = true) (hsrc : s.get Reg.HRT_CTRL_SRC = 1) (hf : s.hearth.free = false)
    (htaken : s.hearth.taken = false) (hlt : s.hearth.nominal + s.get Reg.HRT_SYNCWIN_WIN < s.now) :
    exec .syncWindowEnd s = .next ((s.count Reg.HRT_SRCCNT_SYNCMISS 1).modHearth (fun h => { h with taken := true })) := by
  show execSyncWindowEnd s = _
  simp [execSyncWindowEnd, hrun, hsrc, hf, htaken, hlt]

theorem exec_syncWindowEnd_taken (h : s.hearth.taken = true) : exec .syncWindowEnd s = .next s := by
  show execSyncWindowEnd s = _
  simp [execSyncWindowEnd, h]

theorem exec_sourceLoss_lost (hrun : s.running = true) (hsrc : s.get Reg.HRT_CTRL_SRC = 1) (hm : 17 ≤ s.hearth.missed)
    (hf : s.hearth.free = false) :
    exec .sourceLoss s = .next ((s.set Reg.HRT_STAT_SRCLOSS 1).modHearth (fun h => { h with free := true })) := by
  show execSourceLoss s = _
  simp [execSourceLoss, hrun, hsrc, hm, hf]

theorem exec_syncOutEnd_due (h : s.hearth.nominal + 1000 ≤ s.now) :
    exec .syncOutEnd s = .next (s.modHearth (fun h => { h with syncOut := false })) :=
  congrArg Host.Outcome.next (if_pos h)

end Windows

end Sys2Proof.Machine

open Sys2Proof Sys2Proof.Machine

/-- Settles O31: an edge arms the first tick, comes behind a start that is due, or is judged in the tick in progress. -/
theorem syncInput : Obligations.SyncInput := by
  refine fun s => ⟨exec_syncInEdge_of_other_source, exec_syncInEdge_armed, exec_syncInEdge_behind_start, fun hsrc ht ha hrun hdue hf => ?_,
    fun hsrc ht ha hrun hdue hf hr hl => ?_, exec_syncWindowEnd_missed s, exec_syncWindowEnd_taken s, exec_sourceLoss_lost s, exec_syncOutEnd_due s⟩
  · rw [exec_syncInEdge_in_tick hsrc ht ha hrun hdue, s.edgeIn_of_locked hf]
  · rw [exec_syncInEdge_in_tick hsrc ht ha hrun hdue, s.edgeIn_of_free hf hr hl]

end

section
/-!
SUPPORT. The boundaries of a tick (R34, R38): a phase starts once its boundary is reached in the phase before it, and not earlier.
-/

namespace Sys2Proof.Machine

section Boundary

variable {s : State} {p n : Nat}

/-- The guard that Compute, Emit and Settle share: phase `p` of a tick is in progress and boundary `n` is reached. -/
def State.mayEnter (s : State) (p n : Nat) : Bool := s.running && s.phase == p && s.timeRuns && s.reached (s.boundaryAt n)

theorem State.mayEnter_iff (hrun : s.running = true) (ht : s.timeRuns = true) (hp : s.phase = p) :
    s.mayEnter p n = true ↔ s.hearth.nominal + s.boundary n ≤ s.now := by
  simp [State.mayEnter, hrun, ht, hp, State.boundaryAt, s.reached_some_iff]

theorem State.not_mayEnter_early (hrun : s.running = true) (ht : s.timeRuns = true) (hp : s.phase = p)
    (h : s.now < s.hearth.nominal + s.boundary n) : (!s.mayEnter p n) = true := by
  rw [Bool.not_eq_true', Bool.eq_false_iff, Ne, State.mayEnter_iff hrun ht hp]
  exact Nat.not_le.mpr h

theorem State.mayEnter_due (hrun : s.running = true) (ht : s.timeRuns = true) (hp : s.phase = p)
    (h : s.hearth.nominal + s.boundary n ≤ s.now) : ¬ (!s.mayEnter p n) = true := by
  rw [(State.mayEnter_iff hrun ht hp).mpr h]
  decide

end Boundary

end Sys2Proof.Machine

open Sys2Proof Sys2Proof.Machine

/-- Settles O32: each of the three rows is the guard `State.mayEnter` before its work, which fails before the boundary and holds from it on. -/
theorem phasesOfATick : Obligations.PhasesOfATick := fun _ hrun ht =>
  ⟨fun hp h => if_pos (State.not_mayEnter_early hrun ht hp h), fun hp h => if_pos (State.not_mayEnter_early hrun ht hp h),
    fun _ _ _ hp h => if_pos (State.not_mayEnter_early hrun ht hp h), fun hp h => if_neg (State.mayEnter_due hrun ht hp h),
    fun hp h => if_neg (State.mayEnter_due hrun ht hp h), fun _ _ _ hp h => if_neg (State.mayEnter_due hrun ht hp h)⟩

end

section
/-!
SUPPORT. Work of the TX, RX and VID rings (R69, R102, R104, R105): a chain posted as a whole, and the frame that a TX chain makes.
-/

namespace Sys2Proof.Machine

/-- The work of every descriptor of the chain `c` on ring `n` starts (R101). -/
def State.startChain (s : State) (n : Nat) (c : List Desc) : State := s.modDesc n (inChain c) (fun e => { e with started := true })

/-- The frame that a TX chain on ring `n` with the first descriptor `d` and the data `b` makes for a MAC (R104). -/
def Desc.macFrame (d : Desc) (n : Nat) (b : List Byte) : Frame :=
  { bytes := d.frameBytes b, hasFcs := d.hasFcs, cls := d.cls, src := .ring n d.idx, k := d.tickK, bound := none, start := 0, cut := false,
    ins := if d.opx.toNat / 2 ^ 16 % 2 = 1 then 4 else 0 }

/-- The same for a CAN controller, which takes the data as it is. -/
def Desc.canFrame (d : Desc) (n : Nat) (b : List Byte) : Frame := { d.macFrame n b with bytes := b, hasFcs := true }

/-- The start of Emit(k) is still to come in every tick before k, and in tick k until its phase is Emit. -/
theorem State.early_iff (s : State) (f : Frame) : s.early f = true ↔ s.tick < f.k ∨ (s.running = true ∧ s.tick = f.k ∧ s.phase < 2) := by
  simp [State.early, and_assoc]

/-- Work that `State.early` decides, told by the tick and its phase. -/
theorem State.early_cases (s : State) (f : Frame) {o : Host.Outcome State Fault Refusal} {x y : State}
    (h : o = .next (if s.early f = true then x else y)) :
    (s.tick < f.k ∨ (s.running = true ∧ s.tick = f.k ∧ s.phase < 2) → o = .next x) ∧
    (¬ (s.tick < f.k ∨ (s.running = true ∧ s.tick = f.k ∧ s.phase < 2)) → o = .next y) := by
  rw [← s.early_iff f]
  exact ⟨fun he => by rw [h, if_pos he], fun he => by rw [h, if_neg he]⟩

section Chain

variable {n : Fin 64} {d : Desc} {c : List Desc} {s : State} (hc : (s.ring n).chain d = some c)
include hc

theorem exec_rxBuf_posts (hr : s.ready n 0x10 = some d) : exec (.rxBuf n) s = .next (s.startChain n c) := by
  show execRxBuf n s = _
  simp only [execRxBuf, hr, hc]
  rfl

theorem exec_vidBuf_posts (hr : s.ready n 0x30 = some d) : exec (.vidBuf n) s = .next (s.startChain n c) := by
  show execVidBuf n s = _
  simp only [execVidBuf, hr, hc]
  rfl

variable {b : List Byte} (hr : s.ready n 0x01 = some d) (hb : chainData c = some b)
include hr hb

/-- A frame for a MAC whose length and class the port takes is staged for its Emit, or joins the queue behind that (R69, R105). -/
theorem exec_txFrame_mac (ht : d.target < 6) (hsafe : ¬ (d.cls = 7 ∧ (s.startChain n c).safeOn d.target = true))
    (hmin : 64 ≤ (d.macFrame n b).lenFcs) (hmax : (d.macFrame n b).lenFcs ≤ 1518) :
    exec (.txFrame n) s = .next (if (s.startChain n c).early (d.macFrame n b) = true
      then (s.startChain n c).modPort d.target (fun x => { x with stage := x.stage ++ [d.macFrame n b] })
      else ((s.startChain n c).join d.target (d.macFrame n b) false).select d.target) := by
  have hlen : ¬ ((d.macFrame n b).lenFcs < 64 ∨ 1518 < (d.macFrame n b).lenFcs) := by omega
  show execTxFrame n s = _
  simp only [execTxFrame, hr, hc, hb, if_neg (Nat.not_le.mpr ht)]
  exact (if_neg hsafe).trans ((if_neg hlen).trans (apply_ite Host.Outcome.next _ _ _).symm)

/-- A frame that the CAN layout allows is staged for its Emit, or joins the controller's queue behind that (R69, R105). -/
theorem exec_txFrame_can (ht : 6 ≤ d.target) (hok : canOk b = true) :
    exec (.txFrame n) s = .next (if (s.startChain n c).early (d.macFrame n b) = true
      then (s.startChain n c).modCan (d.target - 6) (fun x => { x with stage := x.stage ++ [d.canFrame n b] })
      else ((s.startChain n c).modCan (d.target - 6) (fun x => { x with q := x.q ++ [d.canFrame n b] })).canSelect (d.target - 6)) := by
  have hnot : ¬ (!canOk b) = true := by simp [hok]
  show execTxFrame n s = _
  simp only [execTxFrame, hr, hc, hb, if_pos ht]
  exact (if_neg hnot).trans (apply_ite Host.Outcome.next _ _ _).symm

end Chain

end Sys2Proof.Machine

open Sys2Proof Sys2Proof.Machine

/-- Settles O35: a posted chain starts as a whole; a TX frame is staged or joins its queue as `State.early` decides. -/
theorem frameRingWork : Obligations.FrameRingWork := by
  intro n d c s hc
  refine ⟨exec_rxBuf_posts hc, exec_vidBuf_posts hc, fun b hr hb => ?_⟩
  exact ⟨fun ht hsafe hmin hmax => State.early_cases _ _ (exec_txFrame_mac hc hr hb ht hsafe hmin hmax),
    fun ht hok => State.early_cases _ _ (exec_txFrame_can hc hr hb ht hok)⟩

end

section
/-!
SUPPORT. A read of host memory that has ended (R95, R124, R131): it lets requests go out that waited for it, and leaves the registers, the
rings and the state of the doorbell block alone.
-/

namespace Sys2Proof.Machine

/-! ## Requests that go out -/

theorem State.sendPf0_frame (s : State) (o : Output) :
    ∃ reads out, s.sendPf0 o = { s with hif := { s.hif with reads := reads }, out := out } := by
  cases o <;> exact ⟨_, _, rfl⟩

theorem State.drainList_frame (l : List Output) (s : State) :
    ∃ reads out, (s.drainList l).2 = { s with hif := { s.hif with reads := reads }, out := out } := by
  induction l generalizing s with
  | nil => exact ⟨_, _, rfl⟩
  | cons o r ih =>
    unfold State.drainList
    split
    · obtain ⟨_, _, hsend⟩ := s.sendPf0_frame o
      obtain ⟨reads, out, hrest⟩ := ih (s.sendPf0 o)
      exact ⟨reads, out, by rw [hrest, hsend]⟩
    · exact ih s

/-- The end of a read changes the outstanding reads and the requests that wait and have gone out. -/
theorem State.landed_frame (s : State) (w : ReadFor) (one : Bool) :
    ∃ reads out wait, s.landed w one = { s with hif := { s.hif with reads := reads }, out := out, outWait := wait } := by
  unfold State.landed
  split
  · obtain ⟨reads, out, h⟩ := State.drainList_frame s.outWait
      { s with hif := { s.hif with reads := if one then s.hif.reads.erase w else s.hif.reads.filter (fun x => x != w) } }
    exact ⟨reads, out, _, by rw [State.drainWait, h]⟩
  · exact ⟨_, _, _, rfl⟩

theorem State.word_congr {s t : State} (h : s.regs = t.regs) (k : Nat) : s.word k = t.word k :=
  congrArg (fun r => Sparse.find RegMap.resetWord r k) h

section Landed

variable (s : State) (w : ReadFor) (one : Bool)

@[simp] theorem State.landed_regs : (s.landed w one).regs = s.regs := by
  obtain ⟨_, _, _, h⟩ := s.landed_frame w one
  rw [h]

@[simp] theorem State.landed_rings : (s.landed w one).hif.rings = s.hif.rings := by
  obtain ⟨_, _, _, h⟩ := s.landed_frame w one
  rw [h]

@[simp] theorem State.landed_dbFlight : (s.landed w one).hif.dbFlight = s.hif.dbFlight := by
  obtain ⟨_, _, _, h⟩ := s.landed_frame w one
  rw [h]

@[simp] theorem State.landed_dbQueued : (s.landed w one).hif.dbQueued = s.hif.dbQueued := by
  obtain ⟨_, _, _, h⟩ := s.landed_frame w one
  rw [h]

@[simp] theorem State.ring_landed (n : Nat) : (s.landed w one).ring n = s.ring n :=
  congrArg (fun v => v.getD n Ring.zero) (s.landed_rings w one)

@[simp] theorem State.word_landed (k : Nat) : (s.landed w one).word k = s.word k := State.word_congr (s.landed_regs w one) k

@[simp] theorem State.get_landed (f : Fld) : (s.landed w one).get f = s.get f := by
  rw [State.get, s.word_landed w one, State.get]

end Landed

/-! ## An interrupt event -/

theorem State.vecEvent_frame (s : State) (v : Nat) : ∃ vecs, s.vecEvent v = { s with hif := { s.hif with vecs := vecs } } := by
  unfold State.vecEvent
  split <;> exact ⟨_, rfl⟩

/-! ## A failed doorbell read (R114) -/

/-- What a failed read of the doorbell block does: it is counted, recorded and signalled. -/
def State.doorbellFailed (s : State) : State := ((s.count Reg.RING_DBFAIL_COUNT 1).record 0x0204 0xFF 0).vecEvent 0

theorem State.doorbellFailed_frame (s : State) : ∃ regs ledger vecs,
    s.doorbellFailed = { s with regs := regs, ledger := ledger, hif := { s.hif with vecs := vecs } } := by
  obtain ⟨vecs, h⟩ := ((s.count Reg.RING_DBFAIL_COUNT 1).record 0x0204 0xFF 0).vecEvent_frame 0
  exact ⟨_, _, vecs, h⟩

theorem State.get_doorbellFailed_count (s : State) (h : s.regsWf = true) :
    s.doorbellFailed.get Reg.RING_DBFAIL_COUNT = min (s.get Reg.RING_DBFAIL_COUNT + 1) (2 ^ Reg.RING_DBFAIL_COUNT.w - 1) := by
  obtain ⟨vecs, hv⟩ := ((s.count Reg.RING_DBFAIL_COUNT 1).record 0x0204 0xFF 0).vecEvent_frame 0
  rw [State.doorbellFailed, hv]
  exact (State.get_record_of_ne _ _ _ _ _ (by decide)).trans (s.get_count_self _ _ h rfl)

theorem State.head_ledger_doorbellFailed (s : State) : s.doorbellFailed.ledger.head?.map (fun x => x.code) = some 0x0204 := by
  obtain ⟨vecs, hv⟩ := ((s.count Reg.RING_DBFAIL_COUNT 1).record 0x0204 0xFF 0).vecEvent_frame 0
  rw [State.doorbellFailed, hv]
  exact State.head_ledger_record _ _ _ _

end Sys2Proof.Machine
end

section
/-!
SUPPORT. Reads of host memory complete or fail (R92, R95, R99, R114, R115, R144): the rows of the doorbell block, the descriptors and their data.
-/

namespace Sys2Proof.Machine

/-! ## The doorbell block -/

/-- The read of the doorbell block in flight has ended; while no tick runs the idle service owes its writes (R98). -/
def State.doorbellLanded (s : State) : State :=
  { s with hif := { s.hif with dbFlight := false, idleDue := s.hif.idleDue || !s.running } }.landed .doorbell false

/-- Every ring takes its entry of the block `b`, and the descriptor reads that follow go out (R92, R95, R99). -/
def State.takeDoorbell (s : State) (b : List Byte) : State :=
  (s.each 64 (fun n t => t.takeEntry n s.readTick (leAt b (8 * n) 2) (byteAt b (8 * n + 4)) (byteAt b (8 * n + 5) % 2 == 1))).fetchAll

theorem exec_doorbellReadComplete_arrived {b : List Byte} {s : State} (hlen : b.length = 512) (hf : s.hif.dbFlight = true)
    (hq : (s.doorbellLanded.takeDoorbell b).hif.dbQueued = false) :
    exec (.doorbellReadComplete true b) s = .next (s.doorbellLanded.takeDoorbell b) := by
  show execDoorbellReadComplete true b s = _
  unfold execDoorbellReadComplete
  rw [if_neg (by simp [hlen]), if_neg (by simp [hf])]
  exact congrArg Host.Outcome.next (if_neg (Bool.eq_false_iff.mp hq))

theorem exec_doorbellReadComplete_failed {b : List Byte} {s : State} (hf : s.hif.dbFlight = true) (hq : s.hif.dbQueued = false) :
    exec (.doorbellReadComplete false b) s = .next s.doorbellLanded.doorbellFailed := by
  have hq' : s.doorbellLanded.doorbellFailed.hif.dbQueued = false := by
    obtain ⟨_, _, _, h⟩ := s.doorbellLanded.doorbellFailed_frame
    rw [h]
    exact (State.landed_dbQueued _ _ _).trans hq
  show execDoorbellReadComplete false b s = _
  unfold execDoorbellReadComplete
  rw [if_neg (by simp), if_neg (by simp [hf])]
  exact congrArg Host.Outcome.next (if_neg (Bool.eq_false_iff.mp hq'))

/-- A failed read of the doorbell block is counted and is the newest ledger entry, and no ring moves. -/
theorem State.doorbellFailed_reports (s : State) (h : s.regsWf = true) :
    let t := s.doorbellLanded.doorbellFailed
    t.get Reg.RING_DBFAIL_COUNT = min (s.get Reg.RING_DBFAIL_COUNT + 1) (2 ^ Reg.RING_DBFAIL_COUNT.w - 1) ∧
      (t.ledger.head?.map (fun x => x.code)) = some 0x0204 ∧ t.hif.dbFlight = false ∧ t.hif.rings = s.hif.rings := by
  have hwf : s.doorbellLanded.regsWf = true := (congrArg (Sparse.wf RegMap.resetWord) (State.landed_regs _ _ _)).trans h
  have hcount : s.doorbellLanded.get Reg.RING_DBFAIL_COUNT = s.get Reg.RING_DBFAIL_COUNT := State.get_landed _ _ _ _
  obtain ⟨_, _, _, hframe⟩ := s.doorbellLanded.doorbellFailed_frame
  refine ⟨hcount ▸ State.get_doorbellFailed_count _ hwf, State.head_ledger_doorbellFailed _, ?_, ?_⟩
  · rw [hframe]
    exact State.landed_dbFlight _ _ _
  · rw [hframe]
    exact State.landed_rings _ _ _

/-! ## Descriptors -/

/-- One descriptor read of ring `n` has ended. -/
def State.descLanded (s : State) (n : Nat) : State :=
  (s.modRing n (fun r => { r with fetching := r.fetching - 1 })).landed (.desc n) true

section Descriptor

variable {n : Fin 64} {s : State}

theorem State.get_descLanded (s : State) (n : Nat) (f : Fld) : (s.descLanded n).get f = s.get f := State.get_landed _ _ _ _

theorem State.on_descLanded (s : State) (n : Nat) (f : Fld) : (s.descLanded n).on f = s.on f := by
  rw [State.on, s.get_descLanded, State.on]

theorem State.running_descLanded (s : State) (n : Nat) : (s.descLanded n).running = s.running := s.on_descLanded n _

theorem State.tick_descLanded (s : State) (n : Nat) : (s.descLanded n).tick = s.tick := by
  simp only [State.tick, State.word64, State.descLanded, State.word_landed]
  rfl

theorem State.ring_descLanded (s : State) (n : Fin 64) :
    (s.descLanded n).ring n = { s.ring n with fetching := (s.ring n).fetching - 1 } :=
  (State.ring_landed _ _ _ _).trans (s.ring_modRing_self n _ n.isLt)

/-- Whether a ring takes descriptors is a matter of its registers and of its activation alone. -/
theorem State.consumes_descLanded (s : State) (n : Fin 64) : (s.descLanded n).consumes n = s.consumes n := by
  simp only [State.consumes, State.on_descLanded, State.get_descLanded, State.running_descLanded, State.ring_descLanded]

/-- An enabled ring that is not an EVT ring takes descriptors while ticks run. -/
theorem State.consumes_of_running (hen : s.on (Reg.RING_CTRL_EN n) = true) (hlive : (s.ring n).live = true)
    (herr : s.on (Reg.RING_STAT_ERR n) = false) (hrun : s.running = true) (hkind : s.get (Reg.RING_CFG_KIND n) ≠ 3) :
    s.consumes n = true := by
  simp [State.consumes, hen, hlive, herr, hrun, hkind]

/-- While no tick runs only a CMD ring takes descriptors (R98). -/
theorem State.not_consumes_of_idle (hrun : s.running = false) (hkind : s.get (Reg.RING_CFG_KIND n) ≠ 2) : s.consumes n = false := by
  simp [State.consumes, hrun, hkind]

end Descriptor

theorem State.landed_desc (s : State) (n : Nat) :
    (s.modRing n (fun r => { r with fetching := r.fetching - 1 })).landed (.desc n) true = s.descLanded n := rfl

section DescriptorRows

variable {n : Fin 64} {b : List Byte} {s : State} (hf : 0 < (s.ring n).fetching) (herr : s.on (Reg.RING_STAT_ERR n) = false)
  (hlive : (s.ring n).live = true) (hfz : (s.ring n).frozen = false) (hout : (s.ring n).out ≠ 0) (hen : s.on (Reg.RING_CTRL_EN n) = true)
include hf herr hlive hfz hout hen

/-- The descriptor that an enabled ring does not take is discarded (R98). -/
theorem exec_descriptorReadComplete_discarded (hlen : b.length = 32) (hc : s.consumes n = false) :
    exec (.descriptorReadComplete n true b) s = .next (s.descLanded n) := by
  show execDescriptorReadComplete n true b s = _
  simp only [execDescriptorReadComplete, State.landed_desc, State.on_descLanded, State.ring_descLanded, State.consumes_descLanded]
  simp [Nat.ne_of_gt hf, herr, hlive, hfz, hout, hen, hlen, hc]

/-- A failed read of a descriptor that the ring would take stops the ring with ERRCODE 3 (R114). -/
theorem exec_descriptorReadComplete_failed (hc : s.consumes n = true) :
    exec (.descriptorReadComplete n false b) s = .next ((s.descLanded n).ringError n 3) := by
  show execDescriptorReadComplete n false b s = _
  simp only [execDescriptorReadComplete, State.landed_desc, State.on_descLanded, State.ring_descLanded, State.consumes_descLanded]
  simp [Nat.ne_of_gt hf, herr, hlive, hfz, hout, hen, hc]

/-- A descriptor outside an open chain is consumed as the first of its own, shown by the oldest read that announced it (R69, R95). -/
theorem exec_descriptorReadComplete_consumed (hlen : b.length = 32) (hc : s.consumes n = true) (hchain : (s.ring n).chainAt = none) :
    exec (.descriptorReadComplete n true b) s = .next ((s.descLanded n).consumeFirst n ((Desc.parse b (s.ring n).ci (s.ring n).gen
      (((s.ring n).shown.head?.map (fun x => x.2)).getD s.tick)).aim s.tick)).checkVoids := by
  show execDescriptorReadComplete n true b s = _
  simp only [execDescriptorReadComplete, State.landed_desc, State.on_descLanded, State.ring_descLanded, State.consumes_descLanded,
    State.tick_descLanded]
  cases hshown : (s.ring n).shown <;> simp [Nat.ne_of_gt hf, herr, hlive, hfz, hout, hen, hlen, hc, hchain]

end DescriptorRows

/-! ## The data of a descriptor -/

section Data

variable {n : Fin 64} {idx : BitVec 16} {b : List Byte} {s : State}

/-- What arrives after a reset of the function is discarded (R144). -/
theorem exec_hostDataReadComplete_frozen (ok : Bool) (h : (s.ring n).frozen = true) :
    exec (.hostDataReadComplete n idx ok b) s = .next (s.landed (.data n idx.toNat) false) := by
  show execHostDataReadComplete n idx ok b s = _
  simp [execHostDataReadComplete, h]

variable {d : Desc} (hfz : (s.ring n).frozen = false)
  (hd : (s.ring n).q.find? (fun d => d.idx == idx.toNat && d.reads && d.data.isNone && d.res.isNone) = some d)
include hfz hd

/-- The data joins its descriptor (R95). -/
theorem exec_hostDataReadComplete_arrived (hlen : b.length = d.len) :
    exec (.hostDataReadComplete n idx true b) s =
      .next ((s.landed (.data n idx.toNat) false).modDesc n (fun e => e.is d.idx d.gen) (fun e => { e with data := some b })) := by
  show execHostDataReadComplete n idx true b s = _
  simp only [execHostDataReadComplete, State.ring_landed, hfz, hd]
  simp [hlen]

/-- A HOARD_WRITE or ING_PROGRAM keeps what arrived before the failure (R115). -/
theorem exec_hostDataReadComplete_short (hop : d.opcode = 0x24 ∨ d.opcode = 0x26) :
    exec (.hostDataReadComplete n idx false b) s =
      .next ((s.landed (.data n idx.toNat) false).modDesc n (fun e => e.is d.idx d.gen)
        (fun e => { e with data := some (b.take (d.len - 1)), short := true })) := by
  show execHostDataReadComplete n idx false b s = _
  simp only [execHostDataReadComplete, State.ring_landed, hfz, hd]
  simp [hop]

end Data

end Sys2Proof.Machine

open Sys2Proof Sys2Proof.Machine

/-- Settles O33: each row lets its read end, which keeps registers and rings, and then its answer takes effect. -/
theorem hostReadsComplete : Obligations.HostReadsComplete := by
  refine ⟨fun b s => exec_doorbellReadComplete_arrived, fun b s hinv hf hq => ⟨_, exec_doorbellReadComplete_failed hf hq, s.doorbellFailed_reports hinv.regsWf⟩,
    fun n b s hlen hf herr hlive hfz hout hen hchain => ⟨fun hc => ?_, fun hc => ?_, fun hrun hkind => ?_, fun hrun hkind => ?_⟩,
    fun n b s hf herr hlive hfz hout hen hc => ?_, fun n idx ok b s => exec_hostDataReadComplete_frozen ok,
    fun n idx b d s hfz hd => ⟨exec_hostDataReadComplete_arrived hfz hd, exec_hostDataReadComplete_short hfz hd⟩⟩
  · exact exec_descriptorReadComplete_consumed hf herr hlive hfz hout hen hlen (s.consumes_descLanded n ▸ hc) hchain
  · exact exec_descriptorReadComplete_discarded hf herr hlive hfz hout hen hlen (s.consumes_descLanded n ▸ hc)
  · exact (s.consumes_descLanded n).trans (State.consumes_of_running hen hlive herr hrun hkind)
  · exact (s.consumes_descLanded n).trans (State.not_consumes_of_idle hrun hkind)
  · exact exec_descriptorReadComplete_failed hf herr hlive hfz hout hen (s.consumes_descLanded n ▸ hc)

end

section
/-!
SUPPORT. Ring control (R88, R116, R120) and the idle service (R98): RING_n_CTRL belongs to the host, and what an enable that passes its checks
leaves in the ring's registers and in the ring.
-/

namespace Sys2Proof.Machine

/-! ## Registers that no personality can own -/

section Owner

variable (s : State) (w : Who)

theorem State.keyOwner_of_lt (key : Nat) (h : key < 0x3100) : s.keyOwner key = 3 := by
  have hp : key ≠ Reg.TNG_PEND_CFG := by unfold Reg.TNG_PEND_CFG; omega
  unfold State.keyOwner
  rw [if_neg (by omega), if_neg (by omega), if_neg (by omega), if_neg hp, if_neg (by omega), if_neg (by omega), if_neg (by omega)]

/-- Every initiator may write RING_n_CTRL (R27). -/
theorem State.owned_ringCtrl (n : Fin 64) (f : State → State) : s.owned w (Reg.RING_CTRL n) f = f s := by
  have hlt : Reg.RING_CTRL n < 0x3100 := by have := n.isLt; unfold Reg.RING_CTRL; omega
  rw [State.owned, State.ownRefused, s.keyOwner_of_lt _ hlt, s.foreign_host]
  rfl

end Owner

/-! ## Enable -/

section Enable

variable (s : State) (n : Nat)

theorem State.enableRing_active (h : s.ringActive n = true) : s.enableRing n = s := if_pos h

theorem State.enableRing_unfit (h : s.ringActive n = false) (hok : s.ringOk n = false) : s.enableRing n = s.ringError n 4 := by
  simp [State.enableRing, h, hok]

/-- EN is 1, and the error of a ring whose START was written anew is gone (R88, R120). -/
def State.armRing : State :=
  if (s.ring n).restarted then ((s.set (Reg.RING_CTRL_EN n) 1).set (Reg.RING_STAT_ERR n) 0).set (Reg.RING_STAT_ERRCODE n) 0
  else s.set (Reg.RING_CTRL_EN n) 1

/-- A ring that starts with nothing announced at the index and generation of its START (R88). -/
def State.startedRing : Ring :=
  { Ring.zero with
    kind := s.get (Reg.RING_CFG_KIND n), ci := s.get (Reg.RING_START_IDX n), gen := s.get (Reg.RING_START_GEN n),
    rp := s.get (Reg.RING_START_IDX n), rg := s.get (Reg.RING_START_GEN n), valid := true, lseq := (s.ring n).lseq,
    mark := s.get Reg.PWR_LEDHEAD_SEQ }

theorem State.enableRing_fit (h : s.ringActive n = false) (hok : s.ringOk n = true) :
    s.enableRing n = (s.armRing n).modRing n (fun _ => (s.armRing n).startedRing n) := by
  simp only [State.enableRing, h, hok]
  rfl

theorem State.ring_armRing (m : Nat) : (s.armRing n).ring m = s.ring m := by
  unfold State.armRing
  split <;> rfl

/-- Outside RING_n_STAT only EN changes. -/
theorem State.get_armRing_of_ne (f : Fld) (h : f.addr ≠ (Reg.RING_STAT_ERR n).addr) :
    (s.armRing n).get f = (s.set (Reg.RING_CTRL_EN n) 1).get f := by
  unfold State.armRing
  split
  · rw [State.get_set_of_ne _ (Reg.RING_STAT_ERRCODE n) _ _ h, State.get_set_of_ne _ _ _ _ h]
  · rfl

section Wf

variable (h : s.regsWf = true)
include h

theorem State.get_armRing_en : (s.armRing n).get (Reg.RING_CTRL_EN n) = 1 := by
  rw [s.get_armRing_of_ne n _ (by simp [Reg.RING_CTRL_EN, Reg.RING_STAT_ERR]), s.get_set_self _ _ h rfl]
  rfl

theorem State.get_armRing_restarted (hr : (s.ring n).restarted = true) :
    (s.armRing n).get (Reg.RING_STAT_ERR n) = 0 ∧ (s.armRing n).get (Reg.RING_STAT_ERRCODE n) = 0 := by
  have h1 := s.regsWf_set (Reg.RING_CTRL_EN n) 1 h
  have h2 := State.regsWf_set _ (Reg.RING_STAT_ERR n) 0 h1
  have hapart : (Reg.RING_STAT_ERR n).apart (Reg.RING_STAT_ERRCODE n) = true := by simp [Fld.apart, Reg.RING_STAT_ERR, Reg.RING_STAT_ERRCODE]
  rw [State.armRing, if_pos hr, State.get_set_of_apart _ _ _ _ h2 rfl hapart, State.get_set_self _ _ _ h1 rfl, State.get_set_self _ _ _ h2 rfl]
  exact ⟨rfl, rfl⟩

end Wf

theorem State.get_armRing_kept (hr : (s.ring n).restarted = false) :
    (s.armRing n).get (Reg.RING_STAT_ERR n) = s.get (Reg.RING_STAT_ERR n) := by
  have hne : (Reg.RING_STAT_ERR n).addr ≠ (Reg.RING_CTRL_EN n).addr := by simp [Reg.RING_CTRL_EN, Reg.RING_STAT_ERR]
  rw [State.armRing, if_neg (Bool.eq_false_iff.mp hr), State.get_set_of_ne _ _ _ _ hne]

theorem State.get_armRing_start (f : Fld) (h : f.addr = 0x2818 + 0x20 * n) : (s.armRing n).get f = s.get f := by
  rw [s.get_armRing_of_ne n f (by simp [h, Reg.RING_STAT_ERR]), State.get_set_of_ne _ _ _ _ (by simp [h, Reg.RING_CTRL_EN])]

end Enable

/-- An enable that passes its checks sets EN, forgives an error only with a new START, and leaves the ring empty at that START (R88, R120). -/
theorem State.enableRing_starts (s : State) (n : Fin 64) (hw : s.regsWf = true) (h : s.ringActive n = false) (hok : s.ringOk n = true) :
    let t := s.enableRing n
    t.get (Reg.RING_CTRL_EN n) = 1 ∧
      ((s.ring n).restarted = true → t.get (Reg.RING_STAT_ERR n) = 0 ∧ t.get (Reg.RING_STAT_ERRCODE n) = 0) ∧
      ((s.ring n).restarted = false → t.get (Reg.RING_STAT_ERR n) = s.get (Reg.RING_STAT_ERR n)) ∧
      (t.ring n).ci = s.get (Reg.RING_START_IDX n) ∧ (t.ring n).gen = s.get (Reg.RING_START_GEN n) ∧ (t.ring n).q = [] ∧
      (∀ m, m ≠ n.val → t.ring m = s.ring m) := by
  intro t
  rw [show t = _ from s.enableRing_fit n h hok, State.ring_modRing_self _ _ _ n.isLt]
  refine ⟨s.get_armRing_en n hw, s.get_armRing_restarted n hw, s.get_armRing_kept n, s.get_armRing_start n _ rfl, s.get_armRing_start n _ rfl, rfl, fun m hm => ?_⟩
  rw [State.ring_modRing_of_ne _ _ _ _ hm, s.ring_armRing]

/-! ## The rows -/

section Rows

variable (w : Who) (n : Fin 64) (s : State)

theorem exec_ringEnable : exec (.ringEnable w n) s = .next (s.enableRing n) :=
  congrArg Host.Outcome.next (s.owned_ringCtrl w n _)

theorem exec_ringDisable : exec (.ringDisable w n) s = .next (s.disableRing n) :=
  congrArg Host.Outcome.next (s.owned_ringCtrl w n _)

theorem exec_ringFlush : exec (.ringFlush w n) s = .next (s.flushCmd n) :=
  congrArg Host.Outcome.next (s.owned_ringCtrl w n _)

theorem State.disableRing_on (h : s.on (Reg.RING_CTRL_EN n) = true) : s.disableRing n =
    ((((((s.set (Reg.RING_CTRL_EN n) 0).modRing n (fun r => { r with
      chainAt := none, chainBad := none, offAt := if s.running = true ∧ s.phase = 0 then some s.tick else none })).cancelRing n true).cutCopies n).cutLoad
        n).ingCut n) := by
  have hon : ¬ (!s.on (Reg.RING_CTRL_EN n)) = true := by simp [h]
  exact if_neg hon

theorem State.disableRing_off (h : s.on (Reg.RING_CTRL_EN n) = false) : s.disableRing n = s := if_pos (by simp [h])

theorem State.flushCmd_on (h : s.on (Reg.RING_CTRL_EN n) = true) : s.flushCmd n = s.cancelRing n false := if_pos h

theorem State.flushCmd_off (h : s.on (Reg.RING_CTRL_EN n) = false) : s.flushCmd n = s := if_neg (Bool.eq_false_iff.mp h)

/-- The poll of the idle service: what an earlier poll owes, the rings, a doorbell read, and the writes at once when there is none to wait for. -/
theorem exec_idleDoorbellPoll_idle (hrun : s.running = false) (hawake : s.awake = true) (hready : s.on Reg.PWR_STAT_READY = true) :
    let u := (if s.hif.idleDue = true then s.idleService else s).activateRings.doorbellRead
    exec .idleDoorbellPoll s = .next (if u.on Reg.RING_GCTRL_DBEN = true then u else u.idleService) := by
  have hidle : ¬ (s.running || !s.awake || !s.on Reg.PWR_STAT_READY) = true := by simp [hrun, hawake, hready]
  exact if_neg hidle

end Rows

end Sys2Proof.Machine

open Sys2Proof Sys2Proof.Machine

/-- Settles O34: RING_n_CTRL is the host's, so each row is its effect on the ring; `State.armRing` then holds what an enable leaves. -/
theorem ringControl : Obligations.RingControl := by
  intro w n s
  rw [exec_ringEnable, exec_ringDisable, exec_ringFlush]
  refine ⟨fun h => ?_, fun h hok => ?_, fun hinv h hok => ⟨_, rfl, s.enableRing_starts n hinv.regsWf h hok⟩, fun h => ?_, fun h => ⟨?_, ?_⟩, fun h => ?_,
    exec_idleDoorbellPoll_idle s, rfl⟩
  · rw [s.enableRing_active n h]
  · rw [s.enableRing_unfit n h hok]
  · rw [s.disableRing_on n h]
  · rw [s.disableRing_off n h]
  · rw [s.flushCmd_off n h]
  · rw [s.flushCmd_on n h]

end

section
/-!
SUPPORT. Work of the CMD rings: the opcodes that do their work at once (R102, R109, R368, R450, R668).
-/

namespace Sys2Proof.Machine

/-- How a descriptor names the work that a CMD ring asks another block for. -/
def Desc.ref (d : Desc) (n : Nat) : RingRef := { ring := n, idx := d.idx, gen := d.gen, tag := d.tag }

/-- Does the descriptor `e` stand at the place of `d` in its ring? -/
def Desc.same (d e : Desc) : Bool := e.is d.idx d.gen

section AtOnce

variable {n : Fin 64} {d : Desc} {s : State}

theorem exec_cmdNop_ready (hr : s.ready n 0x20 = some d) : exec (.cmdNop n) s = .next (s.doneNow n d.same) := by
  show execCmdNop n s = _
  simp only [execCmdNop, hr]
  rfl

/-- While no tick runs a REG_WRITE applies its pairs at once (R98, R110). -/
theorem exec_regWrite_idle {b : List Byte} (hr : s.ready n 0x21 = some d) (hb : d.data = some b) (hrun : s.running = false) :
    let p := (s.start n d).applyPairs (b.length / 8) b 0
    let t := p.2.2.modDesc n d.same (fun e => { e with prog := p.2.1 })
    exec (.regWrite n) s = .next (if p.1 then (t.noteSeq n).finish n d.same statusFail (some t.led16) (some s.time32)
      else t.finish n d.same statusDone none (some s.time32)) := by
  have hnow : ¬ (s.running = true ∧ s.phase ≠ 2) := by simp [hrun]
  show execRegWrite n s = _
  simp only [execRegWrite, hr, hb, if_neg hnow, if_neg (Bool.eq_false_iff.mp hrun)]
  rfl

theorem exec_fence_ready (hr : s.ready n 0x2D = some d) : exec (.fence n) s = .next ((s.start n d).flushRing n) := by
  show execFence n s = _
  simp only [execFence, hr]
  rfl

theorem exec_quench_ready (hr : s.ready n 0x2B = some d) :
    exec (.quench n) s =
      .next (((s.start n d).quench 0 false).endWithSeq n d.same statusDone (nextSeq (s.get Reg.PWR_LEDHEAD_SEQ))) := by
  show execQuench n s = _
  simp only [execQuench, hr]
  rfl

theorem exec_quenchClear_idle (hr : s.ready n 0x2C = some d) (ha : (s.start n d).on Reg.PWR_QSTAT_ACTIVE = false) :
    exec (.quenchClear n) s = .next ((s.start n d).doneNow n d.same) := by
  show execQuenchClear n s = _
  simp only [execQuenchClear, hr, ha]
  rfl

section QuenchActive

variable (hr : s.ready n 0x2C = some d) (ha : (s.start n d).on Reg.PWR_QSTAT_ACTIVE = true)
include hr ha

theorem exec_quenchClear_releases (hh : (s.start n d).on Reg.PWR_QSTAT_HOLD = false) :
    exec (.quenchClear n) s =
      .next ((s.start n d).quenchRelease.endWithSeq n d.same statusDone (nextSeq (s.get Reg.PWR_LEDHEAD_SEQ))) := by
  show execQuenchClear n s = _
  simp only [execQuenchClear, hr, ha, State.quenchHeld, hh]
  rfl

/-- A held Quench refuses its release, and no rule names a ledger entry for that (R109, R668). -/
theorem exec_quenchClear_held (hh : (s.start n d).on Reg.PWR_QSTAT_HOLD = true) :
    exec (.quenchClear n) s = .next ((s.start n d).endNoEntry n d.same statusFail) := by
  show execQuenchClear n s = _
  simp only [execQuenchClear, hr, ha, State.quenchHeld, hh]
  rfl

end QuenchActive

/-- A grant that names the pending step lets it take effect; the descriptor completes with the step (R368). -/
theorem exec_timeGrant_granted (hr : s.ready n 0x29 = some d) (hnum : d.opx.toNat % 2 ^ 32 = s.get Reg.TIME_REFNUM_NUM)
    (hhold : s.on Reg.TIME_STAT_HOLD = true) (hg : s.time.granted = false) :
    exec (.timeGrant n) s = .next { s.start n d with time := { s.time with
      granted := true, refusedSince := false,
      steps := s.time.steps ++ [((s.word64 Reg.TIME_PEND_LO Reg.TIME_PEND_HI).toInt, some (d.opx.toNat % 2 ^ 32, d.ref n))] } } := by
  have hgrant : d.opx.toNat % 2 ^ 32 = s.get Reg.TIME_REFNUM_NUM ∧ s.on Reg.TIME_STAT_HOLD = true ∧ (!s.time.granted) = true :=
    ⟨hnum, hhold, by simp [hg]⟩
  show execTimeGrant n s = _
  simp only [execTimeGrant, hr, if_pos hgrant]
  rfl

theorem exec_chnMode_proposes (hr : s.ready n 0x2A = some d) (hrun : s.chnRunning = true) (hp : s.mayPropose = true) :
    exec (.chnMode n) s = .next ((s.start n d).propose (d.target % 8) (some (d.ref n))) := by
  show execChnMode n s = _
  simp [execChnMode, hr, hrun, hp, Desc.ref]

theorem exec_chnMode_fails (hr : s.ready n 0x2A = some d) (hrun : s.chnRunning = false) :
    exec (.chnMode n) s = .next ((s.record 0x0205 0xFF 0).endWithEntry n d.same statusFail) := by
  show execChnMode n s = _
  simp [execChnMode, hr, hrun]
  rfl

end AtOnce

end Sys2Proof.Machine
end

section
/-!
SUPPORT. Work of the CMD rings: the copies (R102, R115, R116), which go on unit by unit.
-/

namespace Sys2Proof.Machine

section Copy

variable {n : Fin 64} {d : Desc} {s : State} (units : BitVec 20)

/-- A copy whose data is whole goes on while bytes are left and none has failed, and ends otherwise (R116). -/
def State.goesOn (t : State) (n : Nat) (d : Desc) (failed : Option Bool) (copied all : Nat) : State :=
  if failed = none ∧ copied < all then (t.start n d).setProg n d copied else t.endCopy n d failed copied

theorem State.afterUnits_whole (t : State) (n : Nat) (d : Desc) (failed : Option Bool) (copied all : Nat) :
    t.afterUnits n d failed copied all false = t.goesOn n d failed copied all := by
  simp [State.afterUnits, State.goesOn]

theorem exec_hoardWrite_whole {b : List Byte} (hr : s.atWork n 0x24 = some d) (hb : d.data = some b) (hs : d.short = false) :
    let now := (b.drop d.prog).take (unitBytes units.toNat (b.length - d.prog))
    let r := s.copyIn (d.opx.toNat % 2 ^ 32 - 0x10000000) (chunks 16 ((now.length + 15) / 16) now) d.prog
    exec (.hoardWrite ⟨n, units⟩) s = .next (r.2.2.goesOn n d r.1 r.2.1 b.length) := by
  show execHoardWrite ⟨n, units⟩ s = _
  simp [execHoardWrite, hr, hb, hs, State.afterUnits_whole]

theorem exec_hoardRead_atWork (hr : s.atWork n 0x25 = some d) :
    let now := unitBytes units.toNat (d.len - d.prog)
    let r := s.copyOut (decide (16 < d.len)) (d.opx.toNat % 2 ^ 32 - 0x10000000 + d.prog) ((now + 15) / 16) now []
    r.2.1 ≠ [] → exec (.hoardRead ⟨n, units⟩) s =
      .next ((r.2.2.issue (.hostWrite (d.addr + BitVec.ofNat 64 d.prog) r.2.1)).goesOn n d r.1 (d.prog + r.2.1.length) d.len) := by
  intro now r hne
  have hsome : ¬ r.2.1.isEmpty = true := by simp [hne]
  show execHoardRead ⟨n, units⟩ s = _
  simp only [execHoardRead, hr, State.afterUnits_whole]
  rw [if_neg hsome]

theorem exec_ingRead_readable (hr : s.atWork n 0x28 = some d) :
    let x := d.opx.toNat % 2 ^ 32 + d.prog
    let r := s.ingUnits (unitBytes units.toNat (d.len - d.prog) / 16) x []
    s.ingReadable (x / 0x10000) = true → r.2.1 ≠ [] → exec (.ingRead ⟨n, units⟩) s =
      .next ((r.2.2.issue (.hostWrite (d.addr + BitVec.ofNat 64 d.prog) r.2.1)).goesOn n d (if r.1 = true then none else some true)
        (d.prog + r.2.1.length) d.len).ingServed := by
  intro x r hread hne
  have hsome : ¬ r.2.1.isEmpty = true := by simp [hne]
  have hgo : ¬ (!s.ingReadable (x / 0x10000)) = true := by simp [hread]
  show execIngRead ⟨n, units⟩ s = _
  simp only [execIngRead, hr, State.afterUnits_whole]
  rw [if_neg hgo, if_neg hsome]

end Copy

end Sys2Proof.Machine
end

section
/-!
SUPPORT. Work of the CMD rings: what is handed to the Ingot (R566 to R576) and to the personality slots (R282, R307).
-/

namespace Sys2Proof.Machine

section Handed

variable {n : Fin 64} {d : Desc} {s : State}

theorem exec_ingProgram_queues {b : List Byte} (hr : s.ready n 0x26 = some d) (hb : d.data = some b) (hs : d.short = false) (hne : b ≠ []) :
    exec (.ingProgram n) s = .next ((s.start n d).ingQueue
      { src := .ring (d.ref n), erase := false, idx := d.opx.toNat % 2 ^ 32 / 256, data := b, left := 0, cut := false }) := by
  show execIngProgram n s = _
  simp [execIngProgram, hr, hb, hs, hne, Desc.ref]

theorem exec_ingErase_queues (hr : s.ready n 0x27 = some d) (he : s.erasing = false) :
    exec (.ingErase n) s = .next ((s.start n d).ingQueue
      { src := .ring (d.ref n), erase := true, idx := d.opx.toNat % 2 ^ 32, data := [], left := d.opx.toNat / 2 ^ 32, cut := false }) := by
  show execIngErase n s = _
  simp [execIngErase, hr, he, Desc.ref]

/-- The load that the PRS_LOAD chain `c` with the first descriptor `d` asks for, from the source `x` (R282). -/
def State.askLoad (s : State) (n : Nat) (d : Desc) (c : List Desc) (x : LoadSrc) : State :=
  (s.modDesc n (inChain c) (fun e => { e with started := true })).requestLoad { slot := d.target % 4, src := x, req := some (d.ref n) }

section Load

variable {c : List Desc} (sfdp flash : List Byte) (hr : s.ready n 0x22 = some d) (hc : (s.ring n).chain d = some c)
include hr hc

theorem exec_prsLoad_chain {b : List Byte} (hsrc : d.opx.toNat % 256 = 0) (hb : chainData c = some b) :
    exec (.prsLoad n sfdp flash) s = .next (s.askLoad n d c (.chain b)) := by
  show execPrsLoad n sfdp flash s = _
  simp only [execPrsLoad, hr, hc, hsrc, hb]
  rfl

theorem exec_prsLoad_ingot (hsrc : d.opx.toNat % 256 = 1) :
    exec (.prsLoad n sfdp flash) s = .next (s.askLoad n d c (.ingot (d.opx.toNat / 2 ^ 32))) := by
  show execPrsLoad n sfdp flash s = _
  simp only [execPrsLoad, hr, hc, hsrc]
  rfl

theorem exec_prsLoad_flash (hsrc : d.opx.toNat % 256 = 2) :
    exec (.prsLoad n sfdp flash) s = .next (s.askLoad n d c (.flash sfdp (d.opx.toNat / 2 ^ 32) flash)) := by
  show execPrsLoad n sfdp flash s = _
  simp only [execPrsLoad, hr, hc, hsrc]
  rfl

end Load

/-- A slot that does not wait for its load to end takes the unload by itself (R307). -/
theorem exec_prsUnload_ready (hr : s.ready n 0x23 = some d) :
    let v := (s.start n d).modSlot (d.target % 4) (fun x => { x with unload := x.unload ++ [d.ref n] })
    v.slotState (d.target % 4) ≠ slotWaitDone → exec (.prsUnload n) s = .next (v.tryUnload false (d.target % 4)) := by
  intro v hne
  show execPrsUnload n s = _
  simp only [execPrsUnload, hr]
  exact if_neg hne

end Handed

end Sys2Proof.Machine

open Sys2Proof Sys2Proof.Machine

/-- Settles O36: each row finds its descriptor by `State.ready` or `State.atWork`; a copy then stands as `State.goesOn` says. -/
theorem commandRingWork : Obligations.CommandRingWork := by
  intro n units d s
  exact ⟨exec_cmdNop_ready, fun b => exec_regWrite_idle, fun b => exec_hoardWrite_whole units, exec_hoardRead_atWork units, exec_fence_ready,
    exec_quench_ready, exec_quenchClear_idle, exec_quenchClear_releases, exec_quenchClear_held, exec_timeGrant_granted, exec_chnMode_proposes,
    exec_chnMode_fails, fun b => exec_ingProgram_queues, exec_ingErase_queues, exec_ingRead_readable units,
    fun c b sfdp flash hr hc => ⟨exec_prsLoad_chain sfdp flash hr hc, exec_prsLoad_ingot sfdp flash hr hc, exec_prsLoad_flash sfdp flash hr hc⟩,
    exec_prsUnload_ready⟩

end

section
/-!
SUPPORT. The two PCIe functions: what a report through AER leaves in each (R126), and which requests reach BAR2, BAR4 and configuration
space (R128 to R130, R143, R146, R148).
-/

namespace Sys2Proof.Machine

/-! ## The state of one function -/

section Function

variable (s : State) (pf1 : Bool) (f : PciFn → PciFn)

@[simp] theorem State.fn_modFn_self : (s.modFn pf1 f).fn pf1 = f (s.fn pf1) := by cases pf1 <;> rfl

@[simp] theorem State.fn_modFn_other : (s.modFn pf1 f).fn (!pf1) = s.fn (!pf1) := by cases pf1 <;> rfl

theorem State.modFn_frame : s.modFn pf1 f = { s with pcie := (s.modFn pf1 f).pcie } := rfl

end Function

/-! ## AER (R126) -/

section Aer

variable (s : State) (pf1 : Bool) (n : Nat)

/-- The first error of a function: its number and the header of its TLP are kept (log entry 50). -/
def State.logFirstErr : State :=
  s.free.2.free.2.modFn pf1 (fun f => { f with
    firstErr := n
    hdrLog := [s.free.1.setWidth 32, (s.free.1 >>> 32).setWidth 32, s.free.2.free.1.setWidth 32, (s.free.2.free.1 >>> 32).setWidth 32] })

/-- The newest report of error `n` stands in front of the others. -/
def PciFn.report (f : PciFn) : PciFn := { f with aer := n :: f.aer.filter (fun k => k != n) }

theorem PciFn.aer_report (f : PciFn) : (f.report n).aer = n :: f.aer.filter (fun k => k != n) := rfl

theorem State.aer_first (h : (s.fn pf1).aer = []) : s.aer pf1 n = (s.logFirstErr pf1 n).modFn pf1 (PciFn.report n) :=
  congrArg (fun t => State.modFn t pf1 (PciFn.report n)) (if_pos (List.isEmpty_iff.mpr h))

theorem State.aer_later (h : (s.fn pf1).aer ≠ []) : s.aer pf1 n = s.modFn pf1 (PciFn.report n) :=
  congrArg (fun t => State.modFn t pf1 (PciFn.report n)) (if_neg (mt List.isEmpty_iff.mp h))

theorem State.aer_logFirstErr : ((s.logFirstErr pf1 n).fn pf1).aer = (s.fn pf1).aer := by cases pf1 <;> rfl

theorem State.firstErr_logFirstErr : ((s.logFirstErr pf1 n).fn pf1).firstErr = n := by cases pf1 <;> rfl

theorem State.fn_logFirstErr_other : (s.logFirstErr pf1 n).fn (!pf1) = s.fn (!pf1) := State.fn_modFn_other _ _ _

theorem State.fn_aer_other : (s.aer pf1 n).fn (!pf1) = s.fn (!pf1) := by
  by_cases h : (s.fn pf1).aer = []
  · rw [s.aer_first pf1 n h, State.fn_modFn_other, s.fn_logFirstErr_other]
  · rw [s.aer_later pf1 n h, State.fn_modFn_other]

theorem State.aer_fn_aer_self : ((s.aer pf1 n).fn pf1).aer = n :: (s.fn pf1).aer.filter (fun k => k != n) := by
  by_cases h : (s.fn pf1).aer = []
  · rw [s.aer_first pf1 n h, State.fn_modFn_self, PciFn.aer_report, s.aer_logFirstErr]
  · rw [s.aer_later pf1 n h, State.fn_modFn_self, PciFn.aer_report]

theorem State.firstErr_fn_aer (h : (s.fn pf1).aer = []) : ((s.aer pf1 n).fn pf1).firstErr = n := by
  rw [s.aer_first pf1 n h, State.fn_modFn_self]
  exact s.firstErr_logFirstErr pf1 n

theorem State.aer_frame : s.aer pf1 n = { s with pcie := (s.aer pf1 n).pcie, freeCtr := (s.aer pf1 n).freeCtr } := by
  by_cases h : (s.fn pf1).aer = []
  · rw [s.aer_first pf1 n h]
    rfl
  · rw [s.aer_later pf1 n h]
    rfl

end Aer

/-! ## Addresses that decode to a BAR (R128, R129, R148) -/

theorem ushiftRight_beq_iff {w : Nat} (a b : BitVec w) (k : Nat) : (a >>> k == b >>> k) = true ↔ a.toNat / 2 ^ k = b.toNat / 2 ^ k := by
  rw [beq_iff_eq, ← BitVec.toNat_inj, BitVec.toNat_ushiftRight, BitVec.toNat_ushiftRight, Nat.shiftRight_eq_div_pow,
    Nat.shiftRight_eq_div_pow]

theorem State.hitsBar2_iff (s : State) (a : BitVec 64) :
    s.hitsBar2 a = true ↔ s.fnOpen false = true ∧ s.on Reg.DEV_STAT_BAR2EN = true ∧ a.toNat / 0x100000 = s.pcie.pf0.bar2.toNat / 0x100000 := by
  rw [State.hitsBar2, Bool.and_eq_true, Bool.and_eq_true, and_assoc]
  exact and_congr_right fun _ => and_congr_right fun _ => ushiftRight_beq_iff a _ 20

theorem State.hitsBar4_iff (s : State) (pf1 : Bool) (a : BitVec 32) :
    s.hitsBar4 pf1 a = true ↔ s.fnOpen pf1 = true ∧ a.toNat / 0x1000 = (s.fn pf1).bar4.toNat / 0x1000 := by
  rw [State.hitsBar4, Bool.and_eq_true]
  exact and_congr_right fun _ => ushiftRight_beq_iff a _ 12

/-! ## BAR2 (R130) -/

section Bar2

variable (s : State) (a : BitVec 64) (write : Bool) (n : BitVec 12) (bs : List Byte)

theorem exec_bar2Access_missed (h : s.hitsBar2 a = false) :
    exec (.bar2Access a write n bs) s = .next (if write then s else s.send (.reply false .unsupported [])) :=
  congrArg Host.Outcome.next (if_pos (by simp [h]))

theorem exec_bar2Access_awake (h : s.hitsBar2 a = true) (hs : s.asleep = false) :
    exec (.bar2Access a write n bs) s = .next (s.bar2Now (a.toNat % 0x100000) write n.toNat bs) :=
  congrArg Host.Outcome.next ((if_neg (by simp [h])).trans (if_neg (by simp [hs])))

variable (off k : Nat)

theorem State.bar2Now_write (h0 : 0 < bs.length) (h64 : bs.length ≤ 64) :
    s.bar2Now off true k bs = (s.hoardWrite 22 (s.get Reg.DEV_B2WIN_BASE * 0x100000 + off) bs).2 :=
  (if_neg (Nat.not_lt_of_le h64)).trans (if_neg (Nat.ne_of_gt h0))

theorem State.bar2Now_read {b : List Byte} {t : State} (h0 : 0 < k) (h64 : k ≤ 64)
    (hread : s.hoardRead 22 (s.get Reg.DEV_B2WIN_BASE * 0x100000 + off) k = (.ok b, t)) :
    s.bar2Now off false k bs = t.send (.reply false .ok b) := by
  have hserve : s.bar2Now off false k bs = s.bar2Serve off false k bs := (if_neg (Nat.not_lt_of_le h64)).trans (if_neg (Nat.ne_of_gt h0))
  rw [hserve, State.bar2Serve, if_neg Bool.false_ne_true, hread]

end Bar2

/-! ## BAR4 (R128) -/

section Bar4

variable (s : State) (pf1 : Bool) (a : BitVec 32) (write : Bool) (n : BitVec 12) (v : BitVec 64)

theorem exec_bar4Access_missed (h : s.hitsBar4 pf1 a = false) :
    exec (.bar4Access pf1 a write n v) s = .next (if write then s else s.send (.reply pf1 .unsupported [])) :=
  congrArg Host.Outcome.next (if_pos (by simp [h]))

theorem exec_bar4Access_awake (h : s.hitsBar4 pf1 a = true) (hs : s.asleep = false) :
    exec (.bar4Access pf1 a write n v) s = .next (s.bar4Now pf1 (a.toNat % 0x1000) write n.toNat v) :=
  congrArg Host.Outcome.next ((if_neg (by simp [h])).trans (if_neg (by simp [hs])))

theorem State.bar4Now_dword (off : Nat) (hal : off % 4 = 0) : s.bar4Now pf1 off write 4 v =
    if write then s.modFn pf1 (fun f => f.putBar4 pf1 (off / 4) (v.setWidth 32))
    else s.send (.reply pf1 .ok (leBytes 4 ((s.fn pf1).bar4Word pf1 (off / 4)).toNat)) :=
  if_pos ⟨rfl, hal⟩

/-- An aligned DWORD of BAR4, 4 KiB in size, lies at the same DWORD of its window. -/
theorem exec_bar4Access_dword (h : s.hitsBar4 pf1 a = true) (hs : s.asleep = false) (hal : a.toNat % 4 = 0) :
    exec (.bar4Access pf1 a write 4 v) s = .next
      (if write then s.modFn pf1 (fun f => f.putBar4 pf1 (a.toNat % 0x1000 / 4) (v.setWidth 32))
       else s.send (.reply pf1 .ok (leBytes 4 ((s.fn pf1).bar4Word pf1 (a.toNat % 0x1000 / 4)).toNat))) := by
  have hoff : a.toNat % 0x1000 % 4 = 0 := by omega
  rw [exec_bar4Access_awake s pf1 a write 4 v h hs]
  exact congrArg Host.Outcome.next (s.bar4Now_dword pf1 write v _ hoff)

end Bar4

/-! ## Configuration requests (R143) -/

section Configuration

variable (s : State) (pf1 write : Bool) (dw : BitVec 10) (x : W32)

theorem exec_configurationRequest_retry (h : s.pcie.ready = false) :
    exec (.configurationRequest pf1 write dw x) s = .next (s.send (.reply pf1 .retry [])) :=
  congrArg Host.Outcome.next (if_pos (by simp [h]))

section Served

variable (hr : s.pcie.ready = true) (hp : s.power.reset = none)
include hr hp

theorem not_retried : ¬ (!s.pcie.ready || s.power.reset.isSome) = true := by simp [hr, hp]

theorem exec_configurationRequest_write :
    exec (.configurationRequest pf1 true dw x) s = .next ((s.cfgWrite pf1 dw.toNat x).send (.reply pf1 .ok [])) :=
  congrArg Host.Outcome.next (if_neg (not_retried s hr hp))

theorem exec_configurationRequest_read {y : W32} (hy : s.cfgRead pf1 dw.toNat = some y) :
    exec (.configurationRequest pf1 false dw x) s = .next (s.send (.reply pf1 .ok (leBytes 4 y.toNat))) := by
  show execConfigurationRequest pf1 false dw x s = _
  rw [execConfigurationRequest, if_neg (not_retried s hr hp), hy]
  rfl

end Served

end Configuration

end Sys2Proof.Machine

open Sys2Proof Sys2Proof.Machine

/-- Settles O37: a request decodes by the base that configuration left, and one that does not reach its BAR or its function is answered as the
model's log entries 49, 50 and 58 say. -/
theorem hostRequests : Obligations.HostRequests := by
  intro pf1 write a a4 n bs v dw x s
  refine ⟨⟨_, rfl, s.aer_fn_aer_self pf1 _, s.fn_aer_other pf1 _, s.firstErr_fn_aer pf1 _, s.aer_frame pf1 _⟩, s.hitsBar2_iff a, s.hitsBar4_iff pf1 a4,
    fun hmiss => ⟨exec_bar2Access_missed s a true n bs hmiss, exec_bar2Access_missed s a false n bs hmiss⟩, fun hit hawake h0 h64 => ?_,
    fun b t hit hawake h0 h64 hread => ?_,
    fun hmiss => ⟨exec_bar4Access_missed s pf1 a4 true n v hmiss, exec_bar4Access_missed s pf1 a4 false n v hmiss⟩,
    fun hit hawake hal => ⟨exec_bar4Access_dword s pf1 a4 true v hit hawake hal, exec_bar4Access_dword s pf1 a4 false v hit hawake hal⟩,
    exec_configurationRequest_retry s pf1 write dw x,
    fun hr hp => ⟨exec_configurationRequest_write s pf1 dw x hr hp, fun y => exec_configurationRequest_read s pf1 dw x hr hp⟩⟩
  · rw [exec_bar2Access_awake s a true n bs hit hawake, s.bar2Now_write bs _ _ h0 h64]
  · rw [exec_bar2Access_awake s a false n bs hit hawake, s.bar2Now_read bs _ _ h0 h64 hread]

end

section
/-!
SUPPORT. Resets of the host side (R142, R144, R641, R648): what the notes of a reset and the end of the Warden session leave alone, and what a
trained link reports.
-/

namespace Sys2Proof.Machine

section Kept

variable (s : State) (kind : Nat)

@[simp] theorem State.noteReset_pcie : (s.noteReset kind).pcie = s.pcie := rfl

@[simp] theorem State.noteReset_rings : (s.noteReset kind).hif.rings = s.hif.rings := rfl

@[simp] theorem State.noteReset_eng : (s.noteReset kind).eng = s.eng := rfl

@[simp] theorem State.clearSession_pcie : s.clearSession.pcie = s.pcie := rfl

@[simp] theorem State.clearSession_hif : s.clearSession.hif = s.hif := rfl

@[simp] theorem State.clearSession_eng : s.clearSession.eng = s.eng := rfl

end Kept

/-- A function under FLR is at its defaults but for Max_Payload_Size and Link Control (log entry 50). -/
theorem PciFn.afterReset_flr (f : PciFn) : f.afterReset true = { PciFn.dflt with flr := true, mps := f.mps, lnkCtl := f.lnkCtl } := rfl

/-! ## The FLR of a function (R144) -/

section Flr

variable (s : State)

/-- The FLR of PF1 has begun: its session, its vectors and its configuration are reset. -/
def State.flrPf1Begun : State :=
  let t := (s.noteReset 7).clearSession
  { t with hif := { t.hif with vecs1 := 0 }, pcie := { t.pcie with pf1 := t.pcie.pf1.afterReset true } }

theorem exec_flrPf1 : exec .flrPf1 s = .next s.flrPf1Begun := rfl

theorem State.pcie_flrPf1Begun : s.flrPf1Begun.pcie = { s.pcie with pf1 := s.pcie.pf1.afterReset true } := by
  simp [State.flrPf1Begun]

theorem State.hif_flrPf1Begun : s.flrPf1Begun.hif = { (s.noteReset 7).hif with vecs1 := 0 } := by
  simp [State.flrPf1Begun]

theorem State.eng_flrPf1Begun : s.flrPf1Begun.eng = s.eng := by
  simp [State.flrPf1Begun]

/-- A function whose FLR is over. -/
def State.flrEnded (pf1 : Bool) : State := s.modFn pf1 (fun f => { f with flr := false })

theorem exec_flrComplete (pf1 : Bool) : exec (.flrComplete pf1) s = .next (s.flrEnded pf1).drainWait := by
  cases pf1 <;> rfl

theorem State.flr_flrEnded (pf1 : Bool) : ((s.flrEnded pf1).fn pf1).flr = false := by
  rw [State.flrEnded, State.fn_modFn_self]

end Flr

/-! ## PERST_N (R641) -/

section Perst

variable (s : State) (bar2 : Bool) (boot mpri : Fin 4)

theorem exec_perstN_hostSide (hcfg : s.on Reg.PWR_RSTCFG_PERST = true) (hr : s.power.reset = none) :
    exec (.perstN bar2 boot mpri) s = .next (((s.hostReset 4).setB Reg.DEV_STAT_BAR2EN bar2).setStraps boot mpri) :=
  if_pos (by simp [hcfg, hr])

theorem exec_perstN_whole (hcfg : s.on Reg.PWR_RSTCFG_PERST = false) : exec (.perstN bar2 boot mpri) s = .next (s.wholeReset 4) :=
  if_neg (by simp [hcfg])

end Perst

/-! ## The link returns (R646) -/

section Link

variable (s : State) (width : Fin 3) (speed : Fin 4)

/-- DEV_PCISTAT shows a link with `2 ^ width` lanes at speed `speed + 1`. -/
def State.showLink : State :=
  ((s.set Reg.DEV_PCISTAT_LINKUP 1).set Reg.DEV_PCISTAT_WIDTH (2 ^ width.val)).set Reg.DEV_PCISTAT_SPEED (speed.val + 1)

/-- The link has trained: the reset of the host side is over. -/
def State.linkTrained : State :=
  { s.showLink width speed with power := { (s.showLink width speed).power with hostReset := false } }

theorem exec_pcieLinkUp : exec (.pcieLinkUp width speed) s = .next (s.linkTrained width speed).drainWait := rfl

/-- Each field of DEV_PCISTAT holds what was written to it, past the writes of the others. -/
theorem State.get_linkTrained (h : s.regsWf = true) : (s.linkTrained width speed).get Reg.DEV_PCISTAT_LINKUP = 1 ∧
    (s.linkTrained width speed).get Reg.DEV_PCISTAT_WIDTH = 2 ^ width.val ∧ (s.linkTrained width speed).get Reg.DEV_PCISTAT_SPEED = speed.val + 1 := by
  have h1 := s.regsWf_set Reg.DEV_PCISTAT_LINKUP 1 h
  have h2 := State.regsWf_set _ Reg.DEV_PCISTAT_WIDTH (2 ^ width.val) h1
  have hwidth : 2 ^ width.val < 2 ^ 3 := Nat.pow_lt_pow_right (by decide) width.isLt
  have hspeed : speed.val + 1 < 2 ^ 3 := by omega
  have hshown (f : Fld) : (s.linkTrained width speed).get f = (s.showLink width speed).get f := rfl
  rw [hshown, hshown, hshown, State.showLink]
  refine ⟨?_, ?_, ?_⟩
  · rw [State.get_set_of_apart _ _ _ _ h2 rfl rfl, State.get_set_of_apart _ _ _ _ h1 rfl rfl, State.get_set_self _ _ _ h rfl]
    rfl
  · rw [State.get_set_of_apart _ _ _ _ h2 rfl rfl, State.get_set_self _ _ _ h1 rfl]
    exact Nat.mod_eq_of_lt hwidth
  · rw [State.get_set_self _ _ _ h2 rfl]
    exact Nat.mod_eq_of_lt hspeed

end Link

end Sys2Proof.Machine

open Sys2Proof Sys2Proof.Machine

/-- Settles O39: PERST_N takes the whole device or the host side, an FLR its own function (what it keeps is the model's log entry 50), and the
link's return writes DEV_PCISTAT. -/
theorem hostSideResets : Obligations.HostSideResets := by
  intro bar2 pf1 boot mpri width speed s
  refine ⟨exec_perstN_hostSide s bar2 boot mpri, exec_perstN_whole s bar2 boot mpri, rfl, rfl,
    ⟨_, exec_flrPf1 s, ?_, ?_, ?_, ?_, s.eng_flrPf1Begun⟩,
    ⟨_, exec_flrComplete s pf1, s.flr_flrEnded pf1, s.fn_modFn_other pf1 _, s.modFn_frame pf1 _⟩, rfl, rfl,
    ⟨_, exec_pcieLinkUp s width speed, rfl, fun hinv => s.get_linkTrained width speed hinv.regsWf⟩⟩
  · rw [s.pcie_flrPf1Begun, PciFn.afterReset_flr]
  · rw [s.hif_flrPf1Begun]
  · rw [s.pcie_flrPf1Begun]
  · rw [s.hif_flrPf1Begun, State.noteReset_rings]

end

section
/-!
SUPPORT. The engines by number: what an instruction's effect leaves in its own context, in the run and in the rest of the device, and what
the fetch of its word may change (R155, R160).
-/

namespace Sys2Proof.Machine

/-! ## Contexts (R160) -/

@[simp] theorem Eng.ctx_setCtx_self (g : Eng) (k : TaskKind) (c : Ctx) : (g.setCtx k c).ctx k = c := by cases k <;> rfl

theorem Eng.ctx_setCtx_of_ne (g : Eng) (c : Ctx) : ∀ {k j : TaskKind}, j ≠ k → (g.setCtx k c).ctx j = g.ctx j
  | .phase, .event, _ => rfl
  | .event, .phase, _ => rfl
  | .phase, .phase, h => absurd rfl h
  | .event, .event, h => absurd rfl h

/-- Only the two contexts differ. -/
theorem Eng.setCtx_frame (g : Eng) (k : TaskKind) (c : Ctx) : g.setCtx k c = { g with ph := (g.setCtx k c).ph, ev := (g.setCtx k c).ev } := by
  cases k <;> rfl

theorem State.ctxOf_of_cur {s : State} {e : Nat} {r : Run} (h : (s.engN e).cur = some r) : s.ctxOf e = (s.engN e).ctx r.kind := by
  simp only [State.ctxOf, h]

/-! ## Changes of one engine -/

theorem State.modEng_congr {s : State} {e : Nat} {f g : Eng → Eng} (h : f (s.engN e) = g (s.engN e)) : s.modEng e f = s.modEng e g := by
  simp only [State.modEng, h]

theorem State.modEng_modEng (s : State) (e : Fin 16) (f g : Eng → Eng) : (s.modEng e f).modEng e g = s.modEng e (fun x => g (f x)) := by
  have hset : (s.modEng e f).modEng e g = { s with eng := (s.eng.setIfInBounds e (f (s.engN e))).setIfInBounds e (g ((s.modEng e f).engN e)) } := rfl
  rw [hset, State.engN_modEng_self _ _ _ e.isLt, Vector.setIfInBounds_setIfInBounds]
  rfl

theorem State.modEng_self (s : State) (e : Fin 16) : s.modEng e (fun g => g) = s := by
  have hset : s.eng.setIfInBounds e (s.engN e) = s.eng := by
    refine Vector.ext fun i hi => ?_
    rw [Vector.getElem_setIfInBounds hi]
    split
    · next h => subst h; simp [State.engN, Vector.getD, Array.getD_eq_getD_getElem?]
    · rfl
  simp only [State.modEng, hset]

/-! ## The fetch of a word (R155) -/

section Fetch

variable (s : State) (e : Nat)

theorem State.afterFetch_frame : s.afterFetch e = { s with regs := (s.afterFetch e).regs, eccOne := (s.afterFetch e).eccOne } := by
  unfold State.afterFetch State.engCorr
  split <;> rfl

theorem State.afterFetch_of_correct (h : Memory.engine e (s.ctxOf e).pc.toNat ∉ s.eccOne) : s.afterFetch e = s :=
  if_neg (by simpa using h)

theorem State.word_afterFetch_of_ne (key : Nat) (h : key ≠ (Reg.ENG_ECC_CORR e).addr) : (s.afterFetch e).word key = s.word key := by
  unfold State.afterFetch State.engCorr
  split
  · exact State.word_set_of_ne _ _ _ _ h
  · rfl

theorem State.on_afterFetch_of_ne (f : Fld) (h : f.addr ≠ (Reg.ENG_ECC_CORR e).addr) : (s.afterFetch e).on f = s.on f := by
  simp only [State.on, State.get, s.word_afterFetch_of_ne e _ h]

end Fetch

/-! ## The effect of an instruction on its run -/

/-- The run that has issued an instruction: nothing stalls it any more. -/
def Run.issued (r : Run) : Run := { r with first := false, stall := .none, lutGot := [] }

/-- The engine whose current run `r` leaves context `c`. -/
def Eng.leaves (g : Eng) (r : Run) (c : Ctx) : Eng := { g.setCtx r.kind c with cur := some r.issued }

theorem Eng.ctx_leaves (g : Eng) (r : Run) (c : Ctx) (k : TaskKind) : (g.leaves r c).ctx k = (g.setCtx r.kind c).ctx k := by cases k <;> rfl

section Put

variable {s : State} {e : Fin 16} {r : Run} (c : Ctx) (h : (s.engN e).cur = some r)
include h

theorem State.put_of_cur : s.put e c = s.modEng e (fun g => g.leaves r c) := by
  have hput : s.put e c = (s.modCtx e r.kind (fun _ => c)).modRun e Run.issued := by
    simp only [State.put, h]
    rfl
  have hcur : ((s.engN e).setCtx r.kind c).cur = some r := (congrArg Eng.cur (Eng.setCtx_frame _ _ _)).trans h
  rw [hput, State.modCtx, State.modRun, State.modEng_modEng]
  refine State.modEng_congr ?_
  simp only [hcur]
  rfl

theorem State.engN_put_self : (s.put e c).engN e = (s.engN e).leaves r c := by
  rw [State.put_of_cur c h, State.engN_modEng_self _ _ _ e.isLt]

theorem State.engN_put_of_ne {n : Nat} (hn : n ≠ e.val) : (s.put e c).engN n = s.engN n := by
  rw [State.put_of_cur c h, State.engN_modEng_of_ne _ _ _ _ hn]

theorem State.put_frame : s.put e c = { s with eng := (s.put e c).eng } := by
  rw [State.put_of_cur c h]
  rfl

theorem State.ctxOf_put : (s.put e c).ctxOf e = c := by
  have hcur : ((s.put e c).engN e).cur = some r.issued := congrArg Eng.cur (State.engN_put_self c h)
  rw [State.ctxOf_of_cur hcur, State.engN_put_self c h, Eng.ctx_leaves]
  exact Eng.ctx_setCtx_self _ _ _

end Put

end Sys2Proof.Machine
end

section

open Sys2Proof Sys2Proof.Machine

/-- Settles O8: a completion is `State.put` of the context after loop handling, on the state that the fetch has left. -/
theorem completionFrame : Obligations.CompletionFrame := by
  intro s e r c' hcur u c1 hu
  have hput : u = (s.afterFetch e).put e c1 := by
    rcases hu with ⟨rfl, rfl⟩ | ⟨rfl, rfl⟩ <;> rfl
  have heng (n : Nat) : (s.afterFetch e).engN n = s.engN n := s.engN_afterFetch e n
  have hcur' : ((s.afterFetch e).engN e).cur = some r := by rw [heng, hcur]
  have hself : u.engN e = (s.engN e).leaves r c1 := by rw [hput, State.engN_put_self c1 hcur', heng]
  have hframe : u = { s.afterFetch e with eng := u.eng } := by
    rw [hput]
    exact State.put_frame c1 hcur'
  have hregs : u.regs = (s.afterFetch e).regs := by rw [hframe]
  have hecc : u.eccOne = (s.afterFetch e).eccOne := by rw [hframe]
  have hdevice : u = { s with eng := u.eng, regs := u.regs, eccOne := u.eccOne } := by
    rw [hregs, hecc]
    exact hframe.trans (congrArg (fun t : State => { t with eng := u.eng }) (s.afterFetch_frame e))
  refine ⟨?_, fun k hk => ?_, ?_, fun n hn => ?_, hdevice, fun a => ?_, fun key hkey => ?_, fun hok => ?_⟩
  · rw [hput, State.ctxOf_put c1 hcur']
  · rw [hself, Eng.ctx_leaves, Eng.ctx_setCtx_of_ne _ _ hk]
  · rw [hself]
    exact congrArg (fun g : Eng => { g with cur := some r.issued }) (Eng.setCtx_frame _ _ _)
  · rw [hput, State.engN_put_of_ne c1 hcur' hn, heng]
  · rw [hdevice]
  · exact (State.word_congr hregs key).trans (s.word_afterFetch_of_ne e key hkey)
  · rw [hregs, hecc, s.afterFetch_of_correct e hok]
    exact ⟨rfl, rfl⟩

end

section
/-!
SUPPORT. The instructions that move PC: branches and the levels they close (R166), the return stack (R167, R168, R209).
-/

namespace Sys2Proof.Machine

/-! ## Issue -/

/-- A row of an engine that can issue leaves what the effect of its instruction leaves. -/
theorem exec_of_effect {i : Instr} {f : Effect} {s t : State} {e : Fin 16} {r : Run} {c : Ctx} (h : s.CanIssue e r c)
    (hi : exec i s = .next (s.issueG e f)) (ht : f (s.afterFetch e) r c = t) : exec i s = .next t := by
  rw [hi, State.issueG_of_canIssue h, ht]

/-! ## The levels that a taken branch closes (R166) -/

theorem LoopLevel.holds_iff (l : LoopLevel) (t : W32) : l.holds t = true ↔ l.ls.toNat ≤ t.toNat ∧ t.toNat ≤ l.le.toNat := decide_eq_true_iff

/-- The open levels after a taken branch are the longest run of outer levels whose bodies hold the target. -/
theorem closeFor_suffix (t : W32) (ls : List LoopLevel) : ∃ inner, ls = inner ++ closeFor t ls ∧
    (∀ l ∈ closeFor t ls, l.holds t = true) ∧ (∀ l, inner.getLast? = some l → ¬ l.holds t = true) := by
  induction ls with
  | nil => exact ⟨[], rfl, by simp [closeFor], by simp⟩
  | cons l r ih =>
    obtain ⟨inner, happ, hin, hlast⟩ := ih
    by_cases hshort : (closeFor t r).length < r.length
    · have hclose : closeFor t (l :: r) = closeFor t r := if_pos hshort
      have hne : inner ≠ [] := by
        rintro rfl
        exact Nat.ne_of_lt hshort (congrArg List.length happ).symm
      rw [hclose]
      exact ⟨l :: inner, congrArg (l :: ·) happ, hin, fun x hx => hlast x (by rwa [List.getLast?_cons_of_ne_nil hne] at hx)⟩
    · have hclose : closeFor t (l :: r) = if l.holds t then l :: r else r := if_neg hshort
      have hall : closeFor t r = r := by
        have hnil : inner = [] := List.length_eq_zero_iff.mp (by have := congrArg List.length happ; rw [List.length_append] at this; omega)
        exact (happ.trans (by rw [hnil, List.nil_append])).symm
      rw [hall] at hin
      rw [hclose]
      split
      · next hl => exact ⟨[], rfl, List.forall_mem_cons.mpr ⟨hl, hin⟩, by simp⟩
      · next hl => exact ⟨[l], rfl, hin, by simpa using hl⟩

/-! ## Calls (R167) -/

section Call

variable {st : State} {e : Nat} {c : Ctx} (t : W32)

theorem State.callTo_of_room (h : ¬ (16 ≤ c.rstk.length ∧ st.on (Reg.ENG_CFG_RSOVF e) = true)) :
    st.callTo e c t = st.put e { c with rstk := ((c.pc + 4).setWidth 18 :: c.rstk).take 16, pc := t } := if_neg h

theorem State.callTo_of_full (h : 16 ≤ c.rstk.length ∧ st.on (Reg.ENG_CFG_RSOVF e) = true) :
    st.callTo e c t = st.trap e causeStackOvf := if_pos h

end Call

/-- The fetch of a word leaves ENG_n_CFG alone. -/
theorem State.rsovf_afterFetch (s : State) (e : Nat) : (s.afterFetch e).on (Reg.ENG_CFG_RSOVF e) = s.on (Reg.ENG_CFG_RSOVF e) :=
  s.on_afterFetch_of_ne e _ (by simp only [Reg.ENG_CFG_RSOVF, Reg.ENG_ECC_CORR]; omega)

/-! ## The rows (R209) -/

section Rows

variable {s : State} {e : Fin 16} {r : Run} {c : Ctx} (h : s.CanIssue e r c)
include h

section Branch

variable {cond : Fin 16} (off : BitVec 22)

theorem exec_b_bad (hc : condB c.flg cond = none) : Traps (.b e cond off) s e causeIllegal :=
  exec_of_effect h rfl (by simp only [iB, hc])

theorem exec_b_taken (hc : condB c.flg cond = some true) : Transfers (.b e cond off) s e (c.jump (target c.pc off.toInt)) :=
  exec_of_effect h rfl (by simp only [iB, hc])

theorem exec_b_untaken (hc : condB c.flg cond = some false) : Completes (.b e cond off) s e c :=
  exec_of_effect h rfl (by simp only [iB, hc])

end Branch

section AddressBranch

variable {cond : Fin 4} (off : BitVec 22)

theorem exec_ba_taken (hc : condBA c.flg cond = true) : Transfers (.ba e cond off) s e (c.jump (target c.pc off.toInt)) :=
  exec_of_effect h rfl (if_pos hc)

theorem exec_ba_untaken (hc : condBA c.flg cond = false) : Completes (.ba e cond off) s e c :=
  exec_of_effect h rfl (if_neg (by simp [hc]))

end AddressBranch

section Register

variable {rs : Fin 16}

theorem exec_jr_misaligned (ha : (c.D rs).toNat % 4 ≠ 0) : Traps (.jr e rs) s e causeAlign :=
  exec_of_effect h rfl (if_pos ha)

theorem exec_jr_aligned (ha : (c.D rs).toNat % 4 = 0) : Transfers (.jr e rs) s e (c.jump (c.D rs)) :=
  exec_of_effect h rfl (if_neg (not_not_intro ha))

theorem exec_callr_misaligned (ha : (c.D rs).toNat % 4 ≠ 0) : Traps (.callr e rs) s e causeAlign :=
  exec_of_effect h rfl (if_pos ha)

theorem exec_callr_aligned (ha : (c.D rs).toNat % 4 = 0) : exec (.callr e rs) s = .next ((s.afterFetch e).callTo e c (c.D rs)) :=
  exec_of_effect h rfl (if_neg (not_not_intro ha))

end Register

theorem exec_call (off : BitVec 26) : exec (.call e off) s = .next ((s.afterFetch e).callTo e c (target c.pc off.toInt)) :=
  exec_of_effect h rfl rfl

theorem exec_ret_empty (hr : c.rstk = []) : Traps (.ret e) s e causeStackUnf :=
  exec_of_effect h rfl (by simp only [iRet, hr])

theorem exec_ret_pops {a : BitVec 18} {rest : List (BitVec 18)} (hr : c.rstk = a :: rest) :
    Transfers (.ret e) s e { c with rstk := rest, pc := a.setWidth 32 } :=
  exec_of_effect h rfl (by simp only [iRet, hr])

end Rows

end Sys2Proof.Machine

open Sys2Proof Sys2Proof.Machine

/-- Settles O15: the levels a branch closes are those inside the longest suffix that holds its target; a call pushes unless the stack is full and
RSOVF is set. -/
theorem branchesCallsAndReturns : Obligations.BranchesCallsAndReturns := by
  refine ⟨⟨fun e cond rs ca off s r c h => ?_, fun t ls => ?_⟩, fun e rs off s r c h => ?_⟩
  · exact ⟨exec_b_bad h off, exec_b_taken h off, exec_b_untaken h off, exec_ba_taken h off, exec_ba_untaken h off, exec_jr_misaligned h,
      exec_jr_aligned h⟩
  · simpa only [LoopLevel.holds_iff] using closeFor_suffix t ls
  · rw [← s.rsovf_afterFetch e]
    exact ⟨fun hroom => (exec_call h off).trans (congrArg _ (State.callTo_of_room _ hroom)),
      fun hfull => (exec_call h off).trans (congrArg _ (State.callTo_of_full _ hfull)),
      exec_callr_misaligned h,
      fun ha hroom => (exec_callr_aligned h ha).trans (congrArg _ (State.callTo_of_room _ hroom)),
      fun ha hfull => (exec_callr_aligned h ha).trans (congrArg _ (State.callTo_of_full _ hfull)),
      exec_ret_empty h, fun a rest => exec_ret_pops h⟩

end

section
/-!
SUPPORT. Hardware loops (R164, R165, R210 to R213): the conditions under which one opens, and what the end of a body leaves.
-/

namespace Sys2Proof.Machine

/-! ## The end of a body (R165, R211) -/

/-- Levels whose last iteration ends here close, from the innermost on. -/
theorem loopNext_append_over {pc : W32} (rest : List LoopLevel) {gone : List LoopLevel} (h : ∀ l ∈ gone, l.le = pc ∧ l.lc.toNat ≤ 1) :
    loopNext pc (gone ++ rest) = loopNext pc rest := by
  induction gone with
  | nil => rfl
  | cons l r ih =>
    obtain ⟨⟨hend, hlast⟩, hr⟩ := List.forall_mem_cons.mp h
    have hstep : loopNext pc ((l :: r) ++ rest) = loopNext pc (r ++ rest) := (if_pos hend).trans (if_neg (Nat.not_lt.mpr hlast))
    rw [hstep, ih hr]

theorem loopNext_inside {pc : W32} {l : LoopLevel} (more : List LoopLevel) (h : l.le ≠ pc) : loopNext pc (l :: more) = (l :: more, pc + 4) :=
  if_neg h

theorem loopNext_again {pc : W32} {l : LoopLevel} (more : List LoopLevel) (h : l.le = pc) (hlc : 1 < l.lc.toNat) :
    loopNext pc (l :: more) = ({ l with lc := l.lc - 1 } :: more, l.ls) := (if_pos h).trans (if_pos hlc)

theorem Ctx.complete_of_loopNext {c : Ctx} {ls : List LoopLevel} {pc : W32} (h : loopNext c.pc c.loops = (ls, pc)) :
    c.complete = { c with loops := ls, pc := pc } := by
  simp only [Ctx.complete, h]

/-! ## LOOPI and LOOP (R164, R210, R212) -/

theorem Ctx.atEnd_iff (c : Ctx) : c.atEnd = true ↔ ∃ l, c.loops.head? = some l ∧ l.le = c.pc := by
  unfold Ctx.atEnd
  split <;> simp [*]

theorem target_ofNat (pc : W32) (off : Nat) : target pc off = pc + BitVec.ofNat 32 (4 * off) := by
  rw [target, ← BitVec.ofInt_natCast, Int.natCast_mul]
  rfl

section Open

variable {st : State} {e : Nat} {c : Ctx} {count : BitVec 16} {off : Nat}

theorem State.openLoop_illegal (h : off = 0 ∨ c.atEnd = true) : st.openLoop e c count off = st.trap e causeIllegal := if_pos h

variable (hfit : ¬ (off = 0 ∨ c.atEnd = true))
include hfit

theorem State.openLoop_none (h0 : count = 0) :
    st.openLoop e c count off = st.put e { c with pc := c.pc + BitVec.ofNat 32 (4 * off) + 4 } := by
  rw [← target_ofNat]
  exact (if_neg hfit).trans (if_pos h0)

theorem State.openLoop_overflows (h0 : count ≠ 0) (h4 : 4 ≤ c.loops.length) : st.openLoop e c count off = st.trap e causeLoopOvf :=
  (if_neg hfit).trans ((if_neg h0).trans (if_pos h4))

theorem State.openLoop_opens (h0 : count ≠ 0) (h4 : c.loops.length < 4) : st.openLoop e c count off =
    st.put e { c with loops := { ls := c.pc + 4, le := c.pc + BitVec.ofNat 32 (4 * off), lc := count } :: c.loops, pc := c.pc + 4 } := by
  rw [← target_ofNat]
  exact (if_neg hfit).trans ((if_neg h0).trans (if_neg (Nat.not_le.mpr h4)))

end Open

section Rows

variable {s : State} {e : Fin 16} {r : Run} {c : Ctx} (h : s.CanIssue e r c)
include h

theorem exec_loopi (n : BitVec 16) (o : BitVec 10) : exec (.loopi e n o) s = .next ((s.afterFetch e).openLoop e c n o.toNat) :=
  exec_of_effect h rfl rfl

theorem exec_loop (rs : Fin 16) (o : BitVec 18) :
    exec (.loop e rs o) s = .next ((s.afterFetch e).openLoop e c ((c.D rs).setWidth 16) o.toNat) :=
  exec_of_effect h rfl rfl

/-! ## LBRK (R213) -/

theorem exec_lbrk_outside (hl : c.loops = []) : Traps (.lbrk e) s e causeIllegal :=
  exec_of_effect h rfl (by simp only [iLbrk, hl])

theorem exec_lbrk_closes {l : LoopLevel} {rest : List LoopLevel} (hl : c.loops = l :: rest) :
    Transfers (.lbrk e) s e { c with loops := rest, pc := l.le + 4 } :=
  exec_of_effect h rfl (by simp only [iLbrk, hl])

end Rows

end Sys2Proof.Machine

open Sys2Proof Sys2Proof.Machine

/-- Settles O16: both loop instructions are `State.openLoop`, and the end of a body is `loopNext` past the levels that are over. -/
theorem loopsOpenAndClose : Obligations.LoopsOpenAndClose := by
  refine ⟨fun e rs n o p s r c h i k off hi => ?_, fun e s r c h => ⟨exec_lbrk_outside h, fun l rest => exec_lbrk_closes h⟩,
    fun c gone rest hloops hgone => ?_⟩
  · have hexec : exec i s = .next ((s.afterFetch e).openLoop e c k off) := by
      rcases hi with ⟨rfl, rfl, rfl⟩ | ⟨rfl, rfl, rfl⟩
      · exact exec_loopi h _ _
      · exact exec_loop h _ _
    rw [← c.atEnd_iff]
    exact ⟨fun hbad => hexec.trans (congrArg _ (State.openLoop_illegal hbad)),
      fun ho he h0 => hexec.trans (congrArg _ (State.openLoop_none (not_or.mpr ⟨ho, he⟩) h0)),
      fun ho he h0 h4 => hexec.trans (congrArg _ (State.openLoop_overflows (not_or.mpr ⟨ho, he⟩) h0 h4)),
      fun ho he h0 h4 => hexec.trans (congrArg _ (State.openLoop_opens (not_or.mpr ⟨ho, he⟩) h0 h4))⟩
  · have hnext : loopNext c.pc c.loops = loopNext c.pc rest := by rw [hloops, loopNext_append_over rest hgone]
    refine ⟨?_, ?_, ?_⟩
    · rintro rfl
      exact Ctx.complete_of_loopNext hnext
    · rintro l more rfl hin
      exact Ctx.complete_of_loopNext (hnext.trans (loopNext_inside more hin))
    · rintro l more rfl hend hlc
      exact Ctx.complete_of_loopNext (hnext.trans (loopNext_again more hend hlc))

end

section
/-!
SUPPORT. The ends of tasks that instructions bring (R183, R198, R229).
-/

namespace Sys2Proof.Machine

/-- The task after a resumable trap, once its handler has returned behind the trapping instruction (R183). -/
def State.handlerLeft (s : State) (e : Fin 16) (c : Ctx) : State :=
  ((s.afterFetch e).put e { c with loops := (loopNext c.tpc c.loops).1, pc := (loopNext c.tpc c.loops).2 }).modRun e
    (fun r => { r with handler := none })

section Rows

variable {s : State} {e : Fin 16} {r : Run} {c : Ctx} (h : s.CanIssue e r c)
include h

theorem exec_endTask : exec (.endTask e) s =
    .next (((s.afterFetch e).put e { c with loops := [], rstk := [], pc := c.pc + 4 }).endTask e) :=
  exec_of_effect h rfl rfl

theorem exec_illegalInstruction (w : BitVec 32) : Traps (.illegalInstruction e w) s e causeIllegal :=
  exec_of_effect h rfl rfl

theorem exec_rett_outside (hr : r.handler = none) : Traps (.rett e) s e causeIllegal :=
  exec_of_effect h rfl (by simp only [iRett, hr])

theorem exec_rett_ends (hr : r.handler = some false) : exec (.rett e) s = .next ((s.afterFetch e).endTask e) :=
  exec_of_effect h rfl (by simp only [iRett, hr])

theorem exec_rett_resumes (hr : r.handler = some true) : exec (.rett e) s = .next (s.handlerLeft e c) :=
  exec_of_effect h rfl (by simp only [iRett, hr]; rfl)

theorem State.engN_handlerLeft : (s.handlerLeft e c).engN e = { (s.engN e).leaves r
    { c with loops := (loopNext c.tpc c.loops).1, pc := (loopNext c.tpc c.loops).2 } with cur := some { r.issued with handler := none } } := by
  have hcur : ((s.afterFetch e).engN e).cur = some r := (congrArg Eng.cur (s.engN_afterFetch e e)).trans h.1
  rw [State.handlerLeft, State.modRun, State.engN_modEng_self _ _ _ e.isLt, State.engN_put_self _ hcur, s.engN_afterFetch e e]
  rfl

theorem State.ctxOf_handlerLeft : (s.handlerLeft e c).ctxOf e =
    { c with loops := (loopNext c.tpc c.loops).1, pc := (loopNext c.tpc c.loops).2 } := by
  have heng := State.engN_handlerLeft h
  rw [State.ctxOf_of_cur (congrArg Eng.cur heng), heng]
  exact (Eng.ctx_leaves _ r _ r.kind).trans (Eng.ctx_setCtx_self _ _ _)

end Rows

end Sys2Proof.Machine

open Sys2Proof Sys2Proof.Machine

/-- Settles O22: END, RETT by the handler it is issued in, and a word that is no instruction. -/
theorem taskEndsAndReturns : Obligations.TaskEndsAndReturns := fun _ w _ _ _ h =>
  ⟨exec_endTask h, exec_rett_outside h, exec_rett_ends h,
    fun hr => ⟨_, exec_rett_resumes h hr, State.ctxOf_handlerLeft h, congrArg Eng.cur (State.engN_handlerLeft h)⟩,
    exec_illegalInstruction h w⟩

end

section
/-!
SUPPORT. A trap (R182, R183): what it reports in the ledger and in the registers of its engine, and how the engine enters the handler.
-/

namespace Sys2Proof.Machine

@[simp] theorem State.get_modEng (s : State) (e : Nat) (f : Eng → Eng) (g : Fld) : (s.modEng e f).get g = s.get g :=
  congrArg (fun x => fieldGet x g.lo g.w) (State.word_congr (s.modEng_regs e f) _)

/-! ## The report of a trap (R182) -/

/-- The ledger entry of trap `k` of engine `e` in run `r`, and ENG_n_TRAP and ENG_n_TRAPPC as it leaves them. -/
def State.trapReported (s : State) (e k : Nat) (r : Run) : State :=
  ((((s.record 0x0301 e (r.slot + k * 2 ^ 8 + (s.ctxOf e).pc.toNat * 2 ^ 32)).set (Reg.ENG_TRAP_CAUSE e) k).set (Reg.ENG_TRAP_SLOT e) r.slot).count
    (Reg.ENG_TRAP_COUNT e) 1).set (Reg.ENG_TRAPPC_PC e) (s.ctxOf e).pc.toNat

section Reported

variable (s : State) (e k : Nat) (r : Run)

@[simp] theorem State.engN_trapReported (n : Nat) : (s.trapReported e k r).engN n = s.engN n := rfl

@[simp] theorem State.trapReported_mem : (s.trapReported e k r).mem = s.mem := rfl

theorem State.head_ledger_trapReported : (s.trapReported e k r).ledger.head?.map (fun x => (x.code, x.unit, x.detail)) =
    some (0x0301, BitVec.ofNat 8 e, BitVec.ofNat 96 (r.slot + k * 2 ^ 8 + (s.ctxOf e).pc.toNat * 2 ^ 32)) := rfl

theorem State.get_trapReported_of_ne (f : Fld) (ht : f.addr ≠ Reg.ENG_TRAP e) (hp : f.addr ≠ Reg.ENG_TRAPPC e) (hl : f.addr ≠ Reg.PWR_LEDHEAD) :
    (s.trapReported e k r).get f = s.get f := by
  rw [State.trapReported, State.get_set_of_ne _ _ _ _ hp, State.count, State.get_set_of_ne _ _ _ _ ht, State.get_set_of_ne _ _ _ _ ht,
    State.get_set_of_ne _ _ _ _ ht, State.get_record_of_ne _ _ _ _ _ hl]

/-- A trap's report leaves the set-up of its engine's traps alone (ENG_n_CFG, ENG_n_TRAPV). -/
theorem State.get_trapReported_setup : (s.trapReported e k r).get (Reg.ENG_CFG_TRAPQ e) = s.get (Reg.ENG_CFG_TRAPQ e) ∧
    (s.trapReported e k r).get (Reg.ENG_TRAPV_EN e) = s.get (Reg.ENG_TRAPV_EN e) ∧
    (s.trapReported e k r).get (Reg.ENG_TRAPV_BASE e) = s.get (Reg.ENG_TRAPV_BASE e) := by
  refine ⟨?_, ?_, ?_⟩ <;> apply State.get_trapReported_of_ne <;>
    simp only [Reg.ENG_CFG_TRAPQ, Reg.ENG_TRAPV_EN, Reg.ENG_TRAPV_BASE, Reg.ENG_TRAP, Reg.ENG_TRAPPC, Reg.PWR_LEDHEAD] <;> omega

variable (h : s.regsWf = true)
include h

theorem State.get_trapReported_cause (hk : k < 16) : (s.trapReported e k r).get (Reg.ENG_TRAP_CAUSE e) = k := by
  have h0 : (s.record 0x0301 e (r.slot + k * 2 ^ 8 + (s.ctxOf e).pc.toNat * 2 ^ 32)).regsWf = true := State.regsWf_set _ _ _ h
  have h1 := State.regsWf_set _ (Reg.ENG_TRAP_CAUSE e) k h0
  have h2 := State.regsWf_set _ (Reg.ENG_TRAP_SLOT e) r.slot h1
  have hpc : (Reg.ENG_TRAP_CAUSE e).addr ≠ (Reg.ENG_TRAPPC_PC e).addr := by simp [Reg.ENG_TRAP_CAUSE, Reg.ENG_TRAPPC_PC]
  have hslot : (Reg.ENG_TRAP_CAUSE e).apart (Reg.ENG_TRAP_SLOT e) = true := by simp [Fld.apart, Reg.ENG_TRAP_CAUSE, Reg.ENG_TRAP_SLOT]
  have hcount : (Reg.ENG_TRAP_CAUSE e).apart (Reg.ENG_TRAP_COUNT e) = true := by simp [Fld.apart, Reg.ENG_TRAP_CAUSE, Reg.ENG_TRAP_COUNT]
  rw [State.trapReported, State.get_set_of_ne _ _ _ _ hpc, State.get_count_of_apart _ _ _ _ h2 rfl hcount,
    State.get_set_of_apart _ _ _ _ h1 rfl hslot, State.get_set_self _ _ _ h0 rfl]
  exact Nat.mod_eq_of_lt hk

theorem State.get_trapReported_pc :
    (s.trapReported e k r).get (Reg.ENG_TRAPPC_PC e) = (s.ctxOf e).pc.toNat % 2 ^ (Reg.ENG_TRAPPC_PC e).w := by
  refine State.get_set_self _ _ _ ?_ rfl
  exact State.regsWf_count _ _ _ (State.regsWf_set _ _ _ (State.regsWf_set _ _ _ (State.regsWf_set _ _ _ h)))

end Reported

/-! ## The handler (R182, R183) -/

theorem resumable_eq (k : Nat) : resumable k = decide (k = 2 ∨ k = 7) := by
  simp only [resumable, causeBus, causeDeadline, Bool.decide_or]
  rfl

/-- The run whose handler has been entered after cause `k`. -/
def Run.inHandler (r : Run) (k : Nat) : Run := { r with handler := some (resumable k), stall := .none, first := false, lutGot := [], trap := none }

/-- The context at the handler of cause `k`, with the handlers at `base`. -/
def Ctx.trapped (c : Ctx) (k base : Nat) : Ctx :=
  { c with tcause := BitVec.ofNat 32 k, tpc := c.pc, pc := BitVec.ofNat 32 (base * 4 + k * 16) }

/-- The engine that enters the handler of cause `k` in run `r`. -/
def Eng.entersHandler (g : Eng) (r : Run) (k base : Nat) : Eng :=
  { (if resumable k then g else g.discard r.slot).setCtx r.kind ((g.ctx r.kind).trapped k base) with cur := g.cur.map (fun r => r.inHandler k) }

theorem Eng.cur_entersHandler {g : Eng} {r : Run} (h : g.cur = some r) (k base : Nat) : (g.entersHandler r k base).cur = some (r.inHandler k) :=
  congrArg (Option.map (fun x : Run => x.inHandler k)) h

theorem Eng.ctx_entersHandler (g : Eng) (r : Run) (k base : Nat) : (g.entersHandler r k base).ctx r.kind = (g.ctx r.kind).trapped k base := by
  unfold Eng.entersHandler
  cases r.kind <;> rfl

/-- A non-resumable cause discards what the run has posted (R183). -/
theorem Eng.emitq_entersHandler (g : Eng) (r : Run) (k base : Nat) : (g.entersHandler r k base).emitq =
    if resumable k then g.emitq else g.emitq.filter (fun x => !(x.slot == r.slot && x.live)) := by
  unfold Eng.entersHandler
  cases r.kind <;> cases resumable k <;> rfl

/-- The trap is reported, and TCAUSE and TPC of run `r` are written. -/
def State.trapMarked (s : State) (e k : Nat) (r : Run) : State :=
  (s.trapReported e k r).modCtx e r.kind (fun x => { x with tcause := BitVec.ofNat 32 k, tpc := (s.ctxOf e).pc })

/-- The handler of cause `k` begins in run `r`. -/
def State.beginHandler (s : State) (e k : Nat) (r : Run) : State :=
  let t := s.modEng e (fun g => if resumable k then g else g.discard r.slot)
  (t.modCtx e r.kind (fun x => { x with pc := BitVec.ofNat 32 (t.get (Reg.ENG_TRAPV_BASE e) * 4 + k * 16) })).modRun e (fun r => r.inHandler k)

/-- A trap outside a handler enters the handler where TRAPV.EN is set, and else ends the task (R182). -/
def State.trapSettled (s : State) (e k : Nat) (r : Run) : State :=
  if s.on (Reg.ENG_TRAPV_EN e) then s.beginHandler e k r else s.dropTask e false

section Trap

variable {s : State} {e : Fin 16} {k : Nat} {r : Run}

theorem State.go_of_cur (h : (s.engN e).cur.isSome = true) : s.go e = s := if_pos h

theorem State.trap_of_spent (h : s.spent e = true) : s.trap e k = s.overrun e :=
  congrArg (fun t : State => t.go e) (if_pos h)

variable (hcur : (s.engN e).cur = some r) (hout : r.handler = none)

include hcur hout in
/-- Outside a handler a trap is its report, the Quench that it may bring, and `State.trapSettled`. -/
theorem State.trapTake_outside : s.trapTake e k = (if r.strike && (s.trapMarked e k r).on (Reg.ENG_CFG_TRAPQ e) && !resumable k then
    (s.trapMarked e k r).quench 2 true else s.trapMarked e k r).trapSettled e k r := by
  simp only [State.trapTake, hcur, hout]
  rfl

variable (hq : r.strike = false ∨ s.on (Reg.ENG_CFG_TRAPQ e) = false ∨ resumable k = true) (hen : s.on (Reg.ENG_TRAPV_EN e) = true)
include hcur hout hq hen

/-- The whole of a trap that enters its handler. -/
theorem State.trapTake_enters :
    s.trapTake e k = (s.trapReported e k r).modEng e (fun g => g.entersHandler r k (s.get (Reg.ENG_TRAPV_BASE e))) := by
  obtain ⟨hcfg, hvec, hbase⟩ := s.get_trapReported_setup e k r
  have hkept (f : Fld) : (s.trapMarked e k r).get f = (s.trapReported e k r).get f := by
    rw [State.trapMarked, State.modCtx, State.get_modEng]
  have hquench : ¬ (r.strike && (s.trapMarked e k r).on (Reg.ENG_CFG_TRAPQ e) && !resumable k) = true := by
    have htrapq : (s.trapMarked e k r).on (Reg.ENG_CFG_TRAPQ e) = s.on (Reg.ENG_CFG_TRAPQ e) := by simp only [State.on, hkept, hcfg]
    rw [htrapq]
    rcases hq with h | h | h <;> simp [h]
  have hon : (s.trapMarked e k r).on (Reg.ENG_TRAPV_EN e) = true := by rwa [State.on, hkept, hvec]
  rw [State.trapTake_outside hcur hout, if_neg hquench, State.trapSettled, if_pos hon]
  simp only [State.beginHandler, State.get_modEng, hkept, hbase]
  rw [State.trapMarked, State.modCtx, State.modCtx, State.modRun, State.modEng_modEng, State.modEng_modEng, State.modEng_modEng]
  refine State.modEng_congr ?_
  rw [State.engN_trapReported, State.ctxOf_of_cur hcur]
  unfold Eng.entersHandler
  cases r.kind <;> cases resumable k <;> rfl

theorem State.trap_enters (hclock : s.spent e = false) :
    s.trap e k = (s.trapReported e k r).modEng e (fun g => g.entersHandler r k (s.get (Reg.ENG_TRAPV_BASE e))) := by
  have htake : s.trapOrOverrun e k = s.trapTake e k := if_neg (by simp [hclock])
  rw [State.trap, htake, State.trapTake_enters hcur hout hq hen]
  refine State.go_of_cur ?_
  rw [State.engN_modEng_self _ _ _ e.isLt, State.engN_trapReported, Eng.cur_entersHandler hcur]
  rfl

end Trap

end Sys2Proof.Machine

open Sys2Proof Sys2Proof.Machine

/-- Settles O23: a trap is its report, and then one change of its engine, `Eng.entersHandler`. -/
theorem trapEntersItsHandler : Obligations.TrapEntersItsHandler := by
  intro e k s r hinv _ hk9 hcur hout
  refine ⟨State.trap_of_spent, fun hclock hen hq => ?_⟩
  rw [← decide_eq_true_iff (p := k = 2 ∨ k = 7), ← resumable_eq] at hq
  have htrap := State.trap_enters hcur hout hq hen hclock
  have heng : (s.trap e k).engN e = (s.engN e).entersHandler r k (s.get (Reg.ENG_TRAPV_BASE e)) := by
    rw [htrap, State.engN_modEng_self _ _ _ e.isLt, State.engN_trapReported]
  have hreg (f : Fld) : (s.trap e k).get f = (s.trapReported e k r).get f := by
    rw [htrap, State.get_modEng]
  have hcur' : ((s.trap e k).engN e).cur = some (r.inHandler k) := by rw [heng, Eng.cur_entersHandler hcur]
  refine ⟨?_, ?_, ?_, ?_, ?_, ?_, fun n hn => ?_, fun a => ?_⟩
  · show (s.trap e k).ledger.head?.map _ = _
    rw [htrap, State.modEng_ledger]
    exact s.head_ledger_trapReported e k r
  · rw [hreg, s.get_trapReported_cause e k r hinv.regsWf (by omega)]
  · rw [hreg, s.get_trapReported_pc e k r hinv.regsWf]
  · rw [State.ctxOf_of_cur hcur', heng, State.ctxOf_of_cur hcur]
    exact Eng.ctx_entersHandler _ _ _ _
  · rw [hcur', Run.inHandler, resumable_eq]
  · rw [heng, Eng.emitq_entersHandler]
    simp only [resumable_eq, decide_eq_true_eq]
  · rw [htrap, State.engN_modEng_of_ne _ _ _ _ hn, State.engN_trapReported]
  · rw [htrap, State.modEng_mem, State.trapReported_mem]

end

section
/-!
SUPPORT. An ENGINE reset (R186, R187, R196): which engine a write of ENG_n_CTRL.RST resets, and what the reset leaves in it.
-/

namespace Sys2Proof.Machine

/-! ## ENG_n_CTRL (R186) -/

section Control

variable {s : State} {w : Who} {e f : Fin 16}

theorem engCtrl_covered : ∀ e : Fin 16, (RegMap.find (0x3100 + 0x40 * e.val)).isNone = false := by decide

theorem State.keyOwner_engCtrl (s : State) (e : Fin 16) : s.keyOwner (0x3100 + 0x40 * e.val) = s.engOwner e := by
  have hn : (0x3100 + 0x40 * e.val - 0x3100) / 0x40 = e.val := by omega
  rw [State.keyOwner, if_pos (by omega), hn]

/-- An engine of the owning personality is not refused (R27). -/
theorem State.owned_engCtrl (hf : whoEngine w = some f) (ho : s.engOwner f = s.engOwner e) (g : State → State) :
    s.owned w (0x3100 + 0x40 * e.val) g = g s := by
  have hhost : isHost w = false := beq_eq_false_iff_ne.mpr (by rintro rfl; cases hf)
  have hslot : s.whoSlot w = s.engOwner e := by simp only [State.whoSlot, hf, ho]
  refine if_neg ?_
  simp [State.ownRefused, State.keyOwner_engCtrl, State.foreign, hhost, hslot]

theorem State.writeBlock_engCtrl (s : State) (w : Who) (e : Fin 16) (v : W32) :
    s.writeBlock w (0x3100 + 0x40 * e.val) v = s.writeEngCtrl w e v := by
  have hblock : (0x3100 + 0x40 * e.val) / 0x1000 = 3 := by omega
  have hn : (0x3100 + 0x40 * e.val - 0x3100) / 0x40 = e.val := by omega
  have hdly : 0x3100 + 0x40 * e.val ≠ Reg.ENG_ENTRYDLY := by simp only [Reg.ENG_ENTRYDLY]; omega
  simp only [State.writeBlock, hblock]
  rw [State.writeEng, if_neg hdly, if_neg (by omega), if_pos (by omega), hn]

theorem exec_engineReset (hf : whoEngine w = some f) (ho : s.engOwner f = s.engOwner e) (h3 : s.engOwner e ≠ 3) :
    exec (.engineReset w e) s = .next (s.resetEng e) := by
  have hjtag : w ≠ .jtag := by rintro rfl; cases hf
  have hslot : s.whoSlot w = s.engOwner e := by simp only [State.whoSlot, hf, ho]
  have hrst : s.writeEngCtrl w e 1 = s.resetEng e := if_pos ⟨by decide, by rw [hf]; rfl, hslot, h3⟩
  show Host.Outcome.next (s.setupWrite w (0x3100 + 0x40 * e.val) 1) = _
  rw [State.setupWrite, if_neg hjtag, if_neg (by omega), if_neg (by simp [engCtrl_covered e]), State.owned_engCtrl hf ho,
    State.noteLoopWrite_of_lt _ _ (by omega), State.writeBlock_engCtrl, hrst]

end Control

/-! ## What the reset leaves (R186, R196) -/

/-- An engine in reset: no task, clear contexts and pending bits, nothing posted, no halt. -/
def Eng.asReset (g : Eng) : Eng :=
  { g with
    ph := Ctx.zero, ev := Ctx.zero, cur := none, pre := none, todo := [], deferred := 0, pend := 0, fresh := 0, emitq := [],
    halted := false, haltReq := false, inReset := true, holdOff := true }

section Kept

variable (s : State)

theorem State.engN_congr {s t : State} (h : s.eng = t.eng) (n : Nat) : s.engN n = t.engN n := by
  simp only [State.engN, h]

theorem State.eng_withHoard (h : Hoard) : ({ s with hoard := h } : State).eng = s.eng := rfl

theorem State.eng_abandonMig : s.abandonMig.eng = s.eng := rfl

theorem State.eng_subAbandon (e : Nat) : (s.subAbandon e).eng = s.eng := by
  unfold State.subAbandon
  simp only
  split <;> rfl

theorem State.eng_putLine (line : Nat) (data : List Byte) (bad : Bool) : (s.putLine line data bad).eng = s.eng := by
  unfold State.putLine
  cases bad <;> rfl

theorem State.engN_skipTodo (e : Fin 16) : (s.skipTodo e).engN e = { s.engN e with
    todo := [], resend := (s.engN e).todo ++ (s.engN e).resend.filter (fun n => !(s.engN e).todo.contains n) } := by
  rw [State.skipTodo, State.engN_congr (State.count_eng _ _ _), State.engN_modEng_self _ _ _ e.isLt]

/-- A reset of engine `e` leaves the same engine from both states. -/
def State.ResetsAlike (s t : State) (e : Nat) : Prop := (s.engN e).asReset = (t.engN e).asReset

theorem State.ResetsAlike.of_eng {s t : State} (h : s.eng = t.eng) (e : Nat) : s.ResetsAlike t e :=
  congrArg Eng.asReset (State.engN_congr h e)

/-- The trap that a parity error raises goes with the task (R153). -/
theorem State.raiseEcc_resetsAlike (core : Nat) (e : Fin 16) : (s.raiseEcc core).ResetsAlike s e := by
  unfold State.raiseEcc
  split
  · rfl
  · next n _ =>
    by_cases hn : e.val = n
    · subst hn
      rw [State.ResetsAlike, State.engN_modEng_self _ _ _ e.isLt]
      rfl
    · exact congrArg Eng.asReset (State.engN_modEng_of_ne _ _ _ _ hn)

/-- Dirty lines leave the core for the bank; of the engines only a raised trap may follow from that. -/
theorem State.flushCore_resetsAlike (core : Nat) (e : Fin 16) : (s.flushCore core).ResetsAlike s e := by
  have hput {t : State} (ht : t.ResetsAlike s e) (l : Nat) (d : List Byte) (bad : Bool) : (t.putLine l d bad).ResetsAlike s e :=
    (State.ResetsAlike.of_eng (t.eng_putLine l d bad) e).trans ht
  unfold State.flushCore
  extract_lets channel drained cache h dir
  have hchannel : channel.ResetsAlike s e := by
    refine List.foldlRecOn (motive := fun t => State.ResetsAlike t s e) _ _ rfl fun t ht m _ => ?_
    cases m with
    | wb l d bad => exact hput ht l d bad
    | answer => exact ht
  have hcache : cache.ResetsAlike s e := by
    refine List.foldlRecOn (motive := fun t => State.ResetsAlike t s e) _ _ hchannel fun t ht c _ => ?_
    have hline := hput ht c.line c.data c.parity
    dsimp only
    split
    · split
      · exact (State.raiseEcc_resetsAlike _ core e).trans hline
      · exact hline
    · exact ht
  exact (State.ResetsAlike.of_eng (State.eng_withHoard cache _) e).trans hcache

end Kept

/-- What the device notes of the reset: no halt is shown, and the ledger entry. -/
def State.resetNoted (s : State) (e : Nat) : State :=
  let t := (s.set (Reg.ENG_DBG_HALT e) 0).set (Reg.ENG_DBG_HALTED e) 0
  t.free.2.record 0x0E02 0xFF (t.free.1.toNat % 256)

theorem State.eng_resetNoted (s : State) (e : Nat) : (s.resetNoted e).eng = s.eng := rfl

/-- The state in which the engine itself is reset: its tasks still to start are skipped, its core's cache is empty. -/
def State.resetPrepared (s : State) (e : Nat) : State :=
  ((s.abandonMig.subAbandon e).skipTodo e).flushCore (s.coreOf e)

theorem State.resetEng_eq (s : State) (e : Nat) : s.resetEng e = ((s.resetPrepared e).modEng e Eng.asReset).resetNoted e := rfl

theorem State.engN_resetEng (s : State) (e : Fin 16) : (s.resetEng e).engN e = { (s.engN e).asReset with
    resend := (s.engN e).todo ++ (s.engN e).resend.filter (fun n => !(s.engN e).todo.contains n) } := by
  have hbefore : (s.abandonMig.subAbandon e).engN e = s.engN e :=
    State.engN_congr ((State.eng_subAbandon _ e).trans s.eng_abandonMig) e
  have hflush := State.flushCore_resetsAlike ((s.abandonMig.subAbandon e).skipTodo e) (s.coreOf e) e
  unfold State.ResetsAlike at hflush
  rw [State.resetEng_eq, State.engN_congr (State.eng_resetNoted _ e), State.engN_modEng_self _ _ _ e.isLt, State.resetPrepared,
    hflush, State.engN_skipTodo, hbefore]
  rfl

theorem exec_engineResetDone {s : State} {e : Fin 16} (hr : (s.engN e).inReset = true) (hs : s.slotState (s.engOwner e) = slotRunning) :
    exec (.engineResetDone e) s = .next (s.modEng e (fun g => { g with inReset := false, holdOff := true })) :=
  congrArg Host.Outcome.next (if_pos (by simp [hr, hs]))

end Sys2Proof.Machine
end

section
/-!
SUPPORT. Commands on engines beside their instructions: inputs, the ends of stalls, budgets, halts and steps (R48, R49, R169, R174, R188, R189,
R223).
-/

namespace Sys2Proof.Machine

/-! ## Event inputs (R169, R187) -/

theorem State.register_of_inReset {s : State} {e : Nat} (m : BitVec 64) (hr : (s.engN e).inReset = true) (hc : s.collect = none) :
    s.register e m = s := by
  simp only [State.register, hc]
  exact if_pos hr

/-! ## Stalls and budgets (R48, R49, R174, R223) -/

/-- W cycles at 400 MHz are 10 W / 16 TIME cycles, rounded up (R48). -/
theorem TaskDef.budget_eq (d : TaskDef) : d.budget = (d.w * 10 + 15) / 16 := by
  unfold TaskDef.budget
  omega


section Stalls

variable {s : State} {e : Fin 16} {r : Run} (hcur : (s.engN e).cur = some r)
include hcur

/-- A change of the current run is known by what it makes of that run. -/
theorem State.modRun_of_cur (f : Run → Run) : s.modRun e f = s.modEng e (fun g => { g with cur := some (f r) }) :=
  State.modEng_congr (by simp only [hcur, Option.map_some])

theorem State.modRun_of_fixed {f : Run → Run} (hf : f r = r) : s.modRun e f = s := by
  have hsame : s.modRun e f = s.modEng e (fun g => g) := State.modEng_congr (by simp only [hcur, Option.map_some, hf]; rw [← hcur])
  rw [hsame, State.modEng_self]

theorem exec_alignedEntry_waits {n : Nat} (hs : r.stall = .aligned (n + 1)) : exec (.alignedEntry e) s = .next s :=
  congrArg Host.Outcome.next (State.modRun_of_fixed hcur (by simp only [hs]))

theorem exec_alignedEntry_issues (hs : r.stall = .aligned 0) : exec (.alignedEntry e) s =
    .next (s.modEng e (fun g => { g with cur := some { r with stall := .none, entry := some (BitVec.ofNat 64 s.now) } })) := by
  refine congrArg Host.Outcome.next ((State.modRun_of_cur hcur _).trans ?_)
  simp only [hs]

theorem exec_waittRelease_reached {T : BitVec 64} (hs : r.stall = .waitt T) (ht : T.toNat ≤ s.now) (ha : s.awake = true) :
    exec (.waittRelease e) s = .next (s.done e { s.ctxOf e with flg := setC (s.ctxOf e).flg false }) := by
  show Host.Outcome.next (s.waittRelease e) = _
  simp only [State.waittRelease, hcur, hs, if_pos (And.intro ht ha)]

theorem exec_waittRelease_early {T : BitVec 64} (hs : r.stall = .waitt T) (ht : s.now < T.toNat) : exec (.waittRelease e) s = .next s := by
  have hno : ¬ (T.toNat ≤ s.now ∧ s.awake = true) := fun h => Nat.not_le.mpr ht h.1
  show Host.Outcome.next (s.waittRelease e) = _
  simp only [State.waittRelease, hcur, hs, if_neg hno]

theorem State.spent_iff {d : TaskDef} (hd : (s.engN e).task r.slot = some d) : s.spent e = true ↔ (d.w * 10 + 15) / 16 ≤ r.clock := by
  simp only [State.spent, hcur, hd, Option.any_some, decide_eq_true_iff, TaskDef.budget_eq]

end Stalls

/-! ## Halts (R188) -/

section Halt

variable {s : State} {w : Who} {e : Fin 16}

theorem State.writeEngDbg_denied (v : W32) (h : s.mayDebug w e = false) : s.writeEngDbg w e v = s := if_pos (by simp [h])

/-- Outside FINAL and SWITCH of its own substitution a written HALT is a halt of the engine (R616). -/
theorem State.writeEngDbg_halts (h : s.mayDebug w e = true)
    (hsub : ¬ ((s.get Reg.TMP_SUBSTAT_STATE = 2 ∨ s.get Reg.TMP_SUBSTAT_STATE = 3) ∧ s.get Reg.TMP_SUBSTAT_ENGINE = e)) :
    s.writeEngDbg w e 1 = s.haltWrite e :=
  (if_neg (by simp [h])).trans ((if_neg (by decide)).trans (if_neg hsub))

theorem State.engN_haltNow (s : State) (e : Fin 16) :
    (s.haltNow e).engN e = { ((s.skipTodo e).skipPending e).engN e with halted := true, haltReq := false } := by
  rw [State.haltNow, State.engN_congr (State.set_eng _ _ _), State.engN_modEng_self _ _ _ e.isLt]

/-- While no tick runs a halt is taken at once, or waits for the answer of the access under way. -/
theorem State.haltWrite_idle (hh : (s.engN e).halted = false) (hrun : s.running = false) :
    ((s.haltWrite e).engN e).halted = !(s.engN e).inAccess ∧ ((s.haltWrite e).engN e).haltReq = (s.engN e).inAccess := by
  have hwrite : s.haltWrite e = if (s.engN e).inAccess then (s.set (Reg.ENG_DBG_HALT e) 1).modEng e (fun g => { g with haltReq := true })
      else (s.set (Reg.ENG_DBG_HALT e) 1).haltNow e := (if_neg (by simp [hh])).trans (if_pos (by simp [hrun]))
  rw [hwrite]
  cases (s.engN e).inAccess with
  | true =>
    rw [if_pos rfl, State.engN_modEng_self _ _ _ e.isLt]
    exact ⟨hh, rfl⟩
  | false =>
    rw [if_neg Bool.false_ne_true, State.engN_haltNow]
    exact ⟨rfl, rfl⟩

end Halt

/-! ## Steps (R189) -/

section Step

variable {s : State} {e : Fin 16}

theorem exec_debugStep {w : Who} (h : s.mayDebug w e = true) : exec (.debugStep w e) s = .next ((s.writeEngDbg w e 3).debugStep e) :=
  congrArg Host.Outcome.next (if_pos h)

theorem State.debugStep_of_running (h : s.running = true) : s.debugStep e = s := if_pos (by simp [h])

theorem State.debugStep_issues {r : Run} (hrun : s.running = false) (hh : (s.engN e).halted = true) (hcur : (s.engN e).cur = some r)
    (hs : r.stall = .none) : s.debugStep e =
    (s.modRun e Run.preempt).issueForced e ((decodeGrg e ((s.modRun e Run.preempt).fetched e)).getD (iIllegalInstruction e 0)) := by
  have hsame : s.modRun e Run.preempt = s := State.modRun_of_fixed hcur (by simp only [Run.preempt, hs]; rw [← hs])
  unfold State.debugStep
  rw [if_neg (by simp [hrun, hh]), hsame]
  simp only [hcur, hs, ne_eq, not_true_eq_false, if_false]

end Step

end Sys2Proof.Machine

open Sys2Proof Sys2Proof.Machine

/-- Settles O24: one theorem per command; that a halt comes at once unless an access is under way is the model's log entry 49. -/
theorem engineCommands : Obligations.EngineCommands := by
  intro e w m s
  refine ⟨rfl, State.register_of_inReset m, fun r n hcur => exec_alignedEntry_waits hcur, fun r hcur => exec_alignedEntry_issues hcur,
    fun r T hcur => exec_waittRelease_reached hcur, fun r T hcur => exec_waittRelease_early hcur, rfl,
    fun r d hcur => State.spent_iff hcur, fun f => exec_engineReset, s.engN_resetEng e, exec_engineResetDone,
    fun h => congrArg Host.Outcome.next (State.writeEngDbg_denied 1 h), fun h hh hrun hsub => ⟨_, rfl, ?_⟩, exec_debugStep,
    State.debugStep_of_running, fun r => State.debugStep_issues⟩
  rw [State.writeEngDbg_halts h hsub]
  exact State.haltWrite_idle hh hrun

end

section
/-!
SUPPORT. The tables of the Hoard's directory: what a channel, a cache, an entry and the list of transactions hold after a change, and what a
line that goes to its bank leaves there (R257, R259, R261).
-/

namespace Sys2Proof.Machine

/-! ## Channels, caches, entries and transactions -/

section Tables

variable (h : Hoard) (l : Nat)

@[simp] theorem Hoard.channel_setChannel_self (core : Fin 18) (m : List ChanMsg) : (h.setChannel core m).channel core = m :=
  getD_set_self _ _ _ _ core.isLt

@[simp] theorem Hoard.cache_setCache_self (core : Fin 18) (c : List CacheLine) : (h.setCache core c).cache core = c :=
  getD_set_self _ _ _ _ core.isLt

@[simp] theorem Hoard.copy_dropCopy_self (core : Fin 18) : (h.dropCopy core l).copy core l = none := by
  simp [Hoard.copy, Hoard.dropCopy]

/-- A change of a core's copy of a line is known by what it makes of that copy. -/
theorem Hoard.copy_modCopy_self (core : Fin 18) {f : CacheLine → CacheLine} (hf : ∀ c, (f c).line = c.line) :
    (h.modCopy core l f).copy core l = (h.copy core l).map f := by
  have hline : ((fun c : CacheLine => c.line == l) ∘ fun c => if (c.line == l) = true then f c else c) = fun c => c.line == l := by
    funext c
    dsimp only [Function.comp]
    split
    · rw [hf]
    · rfl
  rw [Hoard.copy, Hoard.modCopy, Hoard.cache_setCache_self, List.find?_map, hline, Hoard.copy]
  cases hc : (h.cache core).find? (fun c => c.line == l) with
  | none => rfl
  | some x => exact congrArg some (if_pos (List.find?_some hc))

theorem Hoard.entry_setEntry_none : (h.setEntry l none).entry l = none := by
  simp [Hoard.entry, Hoard.setEntry]

/-- A transaction opened on a line without one is that line's. -/
theorem Hoard.txn_append {t : LineTxn} (hno : h.txn t.line = none) : ({ h with txns := h.txns ++ [t] } : Hoard).txn t.line = some t := by
  have hfind : h.txns.find? (fun u => u.line == t.line) = none := hno
  simp [Hoard.txn, List.find?_append, hfind]

end Tables

/-! ## A line in its bank -/

/-- What has been stored is read back. -/
theorem Memory.readN_writeN_self (m : List Host.Cell) (k : Nat) (bs : List Byte) (h : Memory.wf m = true) :
    Memory.readN (Memory.writeN m k bs) k bs.length = bs := by
  refine List.ext_getElem (by simp [Memory.readN]) fun i _ hi => ?_
  simp only [Memory.readN, List.getElem_map, List.getElem_range]
  exact Memory.read_writeN_in bs m k i h hi

section PutLine

variable (s : State) (line : Nat) (data : List Byte) (bad : Bool)

/-- A line that goes to its bank changes the bank and its error marks only. -/
theorem State.putLine_frame : s.putLine line data bad = { s with
    mem := Memory.writeN s.mem (Memory.hoard line) data, eccUnc := (s.putLine line data bad).eccUnc, eccOne := (s.putLine line data bad).eccOne } := by
  cases bad <;> rfl

theorem State.putLine_mem : (s.putLine line data bad).mem = Memory.writeN s.mem (Memory.hoard line) data := by
  rw [State.putLine_frame]

@[simp] theorem State.putLine_regs : (s.putLine line data bad).regs = s.regs := by
  rw [State.putLine_frame]

@[simp] theorem State.putLine_hoard : (s.putLine line data bad).hoard = s.hoard := by
  rw [State.putLine_frame]

end PutLine

end Sys2Proof.Machine
end

section
/-!
SUPPORT. The directory's commands, one theorem per case: a request that waits, is served directly, is granted or opens a transaction (R253,
R256, R258, R260), a write-back (R259, R274), a snoop and its answer (R257, R261).
-/

namespace Sys2Proof.Machine

/-! ## Requests -/

/-- A transaction opens: the cores get its snoops and owe it their answers. -/
def State.openTxn (s : State) (e : Fin 16) (line : Nat) (rdx : Bool) (cs : List Nat) : State :=
  s.modHoard (fun h => { h with txns := h.txns ++ [{
    line := line, eng := e, rdx := rdx, snoops := cs.map (fun c => (c, rdx)), await := cs, data := none }] })

section Request

variable {s : State} {e : Fin 16} {line : Nat} {rdx hv : Bool}

theorem exec_request (s : State) (e : Fin 16) (rdx : Bool) : exec (if rdx = true then .rdx e else .rd e) s = .next (s.request e rdx) := by
  cases rdx <;> rfl

theorem State.request_waits (hmiss : s.newMiss e rdx = some (line, hv)) (h : s.hoard.txn line ≠ none) :
    s.request e rdx = s.modHoard (fun h => { h with waiting := h.waiting ++ [(line, e)] }) := by
  simp only [State.request, hmiss, if_pos (Option.isSome_iff_ne_none.mpr h), Fin.ofNat_val_eq_self]

theorem State.request_serves (hmiss : s.newMiss e rdx = some (line, hv)) (h : s.hoard.txn line = none) :
    s.request e rdx = s.serve e line rdx hv := by
  simp only [State.request, hmiss, h, Option.isSome_none, Bool.false_eq_true, if_false]

theorem State.noGrant_eq_false_iff (s : State) (e line : Nat) :
    s.noGrant e line = false ↔ s.get (Reg.HRD_BANK_CUR (bankOf line)) = 0 ∧ s.hoardDeny e line 1 = none := by
  simp [State.noGrant, curOn]

theorem State.serve_of_noGrant (h : s.noGrant e line = true) : s.serve e line rdx hv = s.serveDirect e line := if_pos h

section Served

variable (hgo : s.noGrant e line = false)
include hgo

theorem State.serve_invalid (hd : s.hoard.entry line = none) : s.serve e line rdx hv = s.grant e line rdx hv [] := by
  simp only [State.serve, hgo, hd, Bool.false_eq_true, if_false]

theorem State.serve_shared {cs : List Nat} (hd : s.hoard.entry line = some (.shared cs)) : s.serve e line rdx hv =
    if rdx = true ∧ ∃ c ∈ cs, c ≠ s.coreOf e then s.openTxn e line rdx (cs.filter (fun c => c != s.coreOf e)) else s.grant e line rdx hv cs := by
  have hothers : (rdx && !(cs.filter (fun c => c != s.coreOf e)).isEmpty) = true ↔ rdx = true ∧ ∃ c ∈ cs, c ≠ s.coreOf e := by
    simp
  simp only [State.serve, hgo, hd, Bool.false_eq_true, if_false, hothers, Fin.ofNat_val_eq_self]
  rfl

theorem State.serve_owned {o : Nat} (hd : s.hoard.entry line = some (.owned o)) : s.serve e line rdx hv = s.openTxn e line rdx [o] := by
  simp only [State.serve, hgo, hd, Bool.false_eq_true, if_false, Fin.ofNat_val_eq_self]
  rfl

end Served

theorem State.txn_openTxn (s : State) (e : Fin 16) (line : Nat) (rdx : Bool) (cs : List Nat) (hno : s.hoard.txn line = none) :
    (s.openTxn e line rdx cs).hoard.txn line =
      some { line := line, eng := e, rdx := rdx, snoops := cs.map (fun c => (c, rdx)), await := cs, data := none } :=
  s.hoard.txn_append hno

theorem State.length_txns_openTxn (s : State) (e : Fin 16) (line : Nat) (rdx : Bool) (cs : List Nat) :
    (s.openTxn e line rdx cs).hoard.txns.length = s.hoard.txns.length + 1 := List.length_append

end Request

/-! ## Write-backs -/

/-- The line goes to its bank and its entry ends. -/
def State.writtenBack (s : State) (core : Fin 18) (l : Nat) (d : List Byte) (bad : Bool) (r : List ChanMsg) : State :=
  ((s.modHoard (fun h => h.setChannel core r)).putLine l d bad).modHoard (fun h => h.setEntry l none)

section WrittenBack

variable (s : State) (core : Fin 18) (l : Nat) (d : List Byte) (bad : Bool) (r : List ChanMsg)

theorem State.writtenBack_mem : (s.writtenBack core l d bad r).mem = Memory.writeN s.mem (Memory.hoard l) d := State.putLine_mem _ _ _ _

theorem State.writtenBack_regs : (s.writtenBack core l d bad r).regs = s.regs := State.putLine_regs _ _ _ _

theorem State.writtenBack_eng : (s.writtenBack core l d bad r).eng = s.eng := State.eng_putLine _ _ _ _

theorem State.channel_writtenBack : (s.writtenBack core l d bad r).hoard.channel core = r := by
  show ((s.modHoard (fun h => h.setChannel core r)).putLine l d bad).hoard.channel core = r
  rw [State.putLine_hoard]
  exact s.hoard.channel_setChannel_self core r

end WrittenBack

section WriteBack

variable {s : State} {core : Fin 18} {l : Nat} {d : List Byte} {bad : Bool} {r : List ChanMsg}
  (hmsg : s.hoard.channel core = .wb l d bad :: r) (htxn : s.hoard.txn l = none)
include hmsg htxn

theorem exec_wb_of_owner (ho : s.hoard.entry l = some (.owned core)) : exec (.wb core) s =
    .next (s.writtenBack core l d bad r) := by
  have htxn' : (s.modHoard (fun h => h.setChannel core r)).hoard.txn l = none := htxn
  show execWb core s = _
  simp only [execWb, hmsg, htxn']
  exact if_pos ho

theorem exec_wb_of_other (ho : s.hoard.entry l ≠ some (.owned core)) : exec (.wb core) s =
    .next ((s.modHoard (fun h => h.setChannel core r)).recordAccess 0x0404
      (((s.modHoard (fun h => h.setChannel core r)).engOf core).getD 0xFF) (Memory.hoard l) true) := by
  have htxn' : (s.modHoard (fun h => h.setChannel core r)).hoard.txn l = none := htxn
  show execWb core s = _
  simp only [execWb, hmsg, htxn']
  exact if_neg ho

end WriteBack

/-! ## Snoops and their answers -/

/-- The snoop of a line has reached the core. -/
def Hoard.snooped (h : Hoard) (core : Fin 18) (l : Nat) : Hoard :=
  { h with txns := h.txns.map (fun u => if u.line == l then { u with snoops := u.snoops.filter (fun x => x.1 != core.val) } else u) }

/-- A core yields its copy of a line: INV ends it, SHARE leaves it in state S. -/
def Hoard.yielded (h : Hoard) (core : Fin 18) (l : Nat) (inv : Bool) : Hoard :=
  if inv then h.dropCopy core l else h.modCopy core l (fun y => { y with own := false, parity := y.parity && !y.own })

theorem Hoard.channel_yielded (h : Hoard) (core : Fin 18) (l : Nat) (inv : Bool) : (h.yielded core l inv).channel core = h.channel core := by
  cases inv <;> rfl

theorem Hoard.copy_yielded_inv (h : Hoard) (core : Fin 18) (l : Nat) : (h.yielded core l true).copy core l = none := h.copy_dropCopy_self l core

theorem Hoard.copy_yielded_share (h : Hoard) (core : Fin 18) (l : Nat) : (h.yielded core l false).copy core l =
    (h.copy core l).map (fun y => { y with own := false, parity := y.parity && !y.own }) :=
  h.copy_modCopy_self l core fun _ => rfl

/-- A copy that is not a dirty one with a parity error answers with its data when it is owned. -/
theorem exec_snoop_answers {s : State} {core : Fin 18} {line : Fin 262144} {tx : LineTxn} {inv : Bool} {x : CacheLine}
    (htx : s.hoard.txn (line.val * 64) = some tx) (hsn : tx.snoops.find? (fun y => y.1 == core.val) = some (core.val, inv))
    (hcopy : s.hoard.copy core (line.val * 64) = some x) (hgood : ¬ (x.own = true ∧ x.parity = true)) :
    exec (.snoop core line) s = .next (s.modHoard (fun h => ((h.snooped core (line.val * 64)).setChannel core
      (h.channel core ++ [.answer (line.val * 64) true (if x.own = true then some x.data else none)])).yielded core (line.val * 64) inv)) := by
  have hcopy' (f : Hoard → List LineTxn) : (s.modHoard (fun h => { h with txns := f h })).hoard.copy core (line.val * 64) = some x := hcopy
  have hgood' : ¬ (x.own && x.parity) = true := by simpa using hgood
  show execSnoop core line s = _
  simp only [execSnoop, htx, hsn, hcopy', if_neg hgood']
  cases inv <;> rfl

section Answer

variable {s : State} {core : Fin 18} {l : Nat} {had : Bool} {d : Option (List Byte)} {r : List ChanMsg} {tx : LineTxn}
  (hmsg : s.hoard.channel core = .answer l had d :: r) (htx : s.hoard.txn l = some tx)

/-- The transaction has the core's answer. -/
def LineTxn.answered (tx : LineTxn) (core : Fin 18) (d : Option (List Byte)) : LineTxn :=
  { tx with await := tx.await.filter (fun c => c != core.val), data := if d = none then tx.data else d }

include hmsg htx

theorem exec_snoopAnswer_of_txn : exec (.snoopAnswer core) s =
    if (tx.answered core d).await = [] then .next ((s.modHoard (fun h => h.setChannel core r)).closeTxn (tx.answered core d))
    else .next ((s.modHoard (fun h => h.setChannel core r)).modHoard (fun h =>
      { h with txns := h.txns.map (fun v => if v.line == l then tx.answered core d else v) })) := by
  have htx' : (s.modHoard (fun h => h.setChannel core r)).hoard.txn l = some tx := htx
  show execSnoopAnswer core s = _
  simp only [execSnoopAnswer, hmsg, htx', List.isEmpty_iff]
  cases d <;> rfl

end Answer

end Sys2Proof.Machine

open Sys2Proof Sys2Proof.Machine

/-- Settles O41: a request by the entry of its line, then one theorem per message of a core. -/
theorem directoryTraffic : Obligations.DirectoryTraffic := by
  refine ⟨fun e rdx hv line s hmiss => ?_, fun core l d bad r s hmsg htxn => ⟨fun ho hinv => ?_, fun ho => ?_⟩,
    fun core line tx inv x s htx hsn hcopy hgood => ?_, fun core l had d r tx s hmsg htx => ?_⟩
  · intro go on opens
    have hgo : go = .next (s.request e rdx) := exec_request s e rdx
    have hserve (hno : s.hoard.txn line = none) : go = .next (s.serve e line rdx hv) := by rw [hgo, State.request_serves hmiss hno]
    have hopens (cs : List Nat) (hno : s.hoard.txn line = none) (h : s.serve e line rdx hv = s.openTxn e line rdx cs) : opens cs :=
      ⟨_, (hserve hno).trans (congrArg Host.Outcome.next h), s.txn_openTxn e line rdx cs hno, s.length_txns_openTxn e line rdx cs, rfl, rfl, rfl⟩
    refine ⟨fun hopen => ⟨_, hgo.trans (congrArg Host.Outcome.next (State.request_waits hmiss hopen)), rfl, rfl, rfl⟩, fun hno hoff => ?_,
      fun hno hon => ?_⟩
    · have hdirect : s.noGrant e line = true := by simpa using mt (s.noGrant_eq_false_iff e line).mp hoff
      rw [hserve hno, State.serve_of_noGrant hdirect]
    · have hgrant : s.noGrant e line = false := (s.noGrant_eq_false_iff e line).mpr hon
      refine ⟨fun hd => ?_, fun cs hd hown => ?_, fun cs hd hrdx hother => hopens _ hno ?_, fun o hd => hopens _ hno (State.serve_owned hgrant hd)⟩
      · rw [hserve hno, State.serve_invalid hgrant hd]
      · have halone : ¬ (rdx = true ∧ ∃ c ∈ cs, c ≠ s.coreOf e) := by
          rintro ⟨hrdx, c, hc, hne⟩
          rcases hown with hrd | hall
          · exact absurd (hrd.symm.trans hrdx) Bool.false_ne_true
          · exact hne (hall c hc)
        rw [hserve hno, State.serve_shared hgrant hd, if_neg halone]
      · rw [State.serve_shared hgrant hd, if_pos ⟨hrdx, hother⟩]
  · obtain ⟨hmem, -, -⟩ := hinv
    have hbank := s.writtenBack_mem core l d bad r
    refine ⟨_, exec_wb_of_owner hmsg htxn ho, Hoard.entry_setEntry_none _ _, s.channel_writtenBack core l d bad r, ?_, fun a ha => ?_,
      s.writtenBack_regs core l d bad r, s.writtenBack_eng core l d bad r⟩
    · rw [State.rd, hbank, Memory.readN_writeN_self _ _ _ hmem]
    · rw [hbank, Memory.read_writeN_of_out _ _ _ _ ha]
  · exact ⟨_, exec_wb_of_other hmsg htxn ho, rfl, rfl, rfl⟩
  · refine ⟨_, exec_snoop_answers htx hsn hcopy hgood, ?_, ?_, ?_, rfl, rfl, rfl⟩
    · exact (Hoard.channel_yielded _ core _ inv).trans (Hoard.channel_setChannel_self _ core _)
    · rintro rfl
      exact Hoard.copy_yielded_inv _ core _
    · rintro rfl
      refine (congrArg (Option.map _) ((Hoard.copy_yielded_share _ core _).trans (congrArg (Option.map _) hcopy))).trans ?_
      rfl
  · exact ⟨fun h => (exec_snoopAnswer_of_txn hmsg htx).trans (if_pos h), fun h => (exec_snoopAnswer_of_txn hmsg htx).trans (if_neg h)⟩

end

section
/-!
SUPPORT. The registers and contents of the Hoard's banks after the operations on them: a recall, a drain, a migration's start, a bank that
comes ON, and one whose contents are lost (R253, R254, R255, R265, R276).
-/

namespace Sys2Proof.Machine

/-! ## Contents that are forgotten -/

/-- A table without the keys of a set holds its default there, and what it held elsewhere. -/
theorem Sparse.find_filter_key {α : Type} (d : Nat → α) (q : Nat → Bool) (r : List (Nat × α)) (k : Nat) :
    Sparse.find d (r.filter (fun c => q c.1)) k = if q k = true then Sparse.find d r k else d k := by
  induction r with
  | nil => simp [Sparse.find]
  | cons p r ih =>
    obtain ⟨j, v⟩ := p
    by_cases hj : j = k
    · subst hj
      cases hq : q j <;> simp [Sparse.find, hq, ih]
    · cases hq : q j <;> simp [Sparse.find, hq, ih, hj]

theorem Memory.read_clear_in (m : List Host.Cell) {a b k : Nat} (h : a ≤ k ∧ k < b) : Memory.read (Memory.clear m a b) k = Memory.dflt k :=
  (Sparse.find_filter_key _ (fun k => decide (k < a ∨ b ≤ k)) m k).trans (if_neg (by simpa using h))

theorem Memory.read_clear_out (m : List Host.Cell) {a b k : Nat} (h : k < a ∨ b ≤ k) : Memory.read (Memory.clear m a b) k = Memory.read m k :=
  (Sparse.find_filter_key _ (fun k => decide (k < a ∨ b ≤ k)) m k).trans (if_pos (by simpa using h))

section Bank

variable (s : State) (b : Fin 32)

theorem State.read_zeroBank_in {a : Nat} (ha : a < 0x80000) : Memory.read (s.zeroBank b).mem (Memory.hoard (b.val * 0x80000 + a)) = 0 := by
  have hin : Memory.hoard (b.val * 0x80000) ≤ Memory.hoard (b.val * 0x80000 + a) ∧
      Memory.hoard (b.val * 0x80000 + a) < Memory.hoard ((b.val + 1) * 0x80000) := by
    unfold Memory.hoard
    omega
  have hzero : Memory.dflt (Memory.hoard (b.val * 0x80000 + a)) = 0 := by
    unfold Memory.dflt Memory.hoard
    exact if_neg (by omega)
  exact (Memory.read_clear_in s.mem hin).trans hzero

theorem State.read_zeroBank_out {a : Nat} (ha : a < Memory.hoard (b.val * 0x80000) ∨ Memory.hoard ((b.val + 1) * 0x80000) ≤ a) :
    Memory.read (s.zeroBank b).mem a = Memory.read s.mem a := Memory.read_clear_out s.mem ha

/-! ## The two fields of a bank's register -/

theorem Reg.HRD_BANK_ne_stat : Reg.HRD_BANK b ≠ Reg.HRD_STAT := by
  unfold Reg.HRD_BANK Reg.HRD_STAT
  omega

theorem Reg.HRD_BANK_ne_ledhead : Reg.HRD_BANK b ≠ Reg.PWR_LEDHEAD := by
  unfold Reg.HRD_BANK Reg.PWR_LEDHEAD
  omega

section Fields

variable {s}
variable (hw : s.regsWf = true) (v : Nat)
include hw

theorem State.bankCur_set_cur : (s.set (Reg.HRD_BANK_CUR b) v).bankCur b = v % 8 := State.get_set_self _ _ _ hw rfl

theorem State.tgt_set_cur : (s.set (Reg.HRD_BANK_CUR b) v).get (Reg.HRD_BANK_TGT b) = s.get (Reg.HRD_BANK_TGT b) :=
  State.get_set_of_apart _ _ _ _ hw rfl (by simp [Fld.apart, Reg.HRD_BANK_TGT, Reg.HRD_BANK_CUR])

theorem State.bankTgt_set_cur : (s.set (Reg.HRD_BANK_CUR b) v).bankTgt b = s.bankTgt b := congrArg (min 2) (State.tgt_set_cur b hw v)

theorem State.bankCur_set_tgt : (s.set (Reg.HRD_BANK_TGT b) v).bankCur b = s.bankCur b :=
  State.get_set_of_apart _ _ _ _ hw rfl (by simp [Fld.apart, Reg.HRD_BANK_TGT, Reg.HRD_BANK_CUR])

theorem State.tgt_set_tgt : (s.set (Reg.HRD_BANK_TGT b) v).get (Reg.HRD_BANK_TGT b) = v % 4 := State.get_set_self _ _ _ hw rfl

end Fields

end Bank

/-! ## Recalls and drains (R253, R257) -/

section Drain

variable (s : State)

@[simp] theorem State.raiseEcc_regs (core : Nat) : (s.raiseEcc core).regs = s.regs := by
  unfold State.raiseEcc
  split <;> rfl

/-- A recall changes the bank's contents, the directory, caches and channels, and perhaps the owner's run: no register. -/
@[simp] theorem State.recall_regs (line : Nat) (inv : Bool) : (s.recall line inv).regs = s.regs := by
  unfold State.recall
  extract_lets h banked
  show banked.regs = s.regs
  unfold banked
  split
  · dsimp only
    split
    · rw [State.raiseEcc_regs, State.putLine_regs]
    · rw [State.putLine_regs]
  · split
    · rw [State.putLine_regs]
    · rfl

theorem State.drainBank_regs (b : Nat) : (s.drainBank b).regs = (s.set (Reg.HRD_BANK_CUR b) curDrain).regs :=
  List.foldlRecOn (motive := fun t : State => t.regs = _) _ _ rfl fun t ht l _ => (t.recall_regs l true).trans ht

theorem State.get_drainBank (b : Nat) (f : Fld) : (s.drainBank b).get f = (s.set (Reg.HRD_BANK_CUR b) curDrain).get f := by
  unfold State.get
  rw [State.word_congr (s.drainBank_regs b)]

end Drain

/-! ## Migrations (R265, R268) -/

section Migration

variable (s : State) (b : Nat)

theorem State.spareBank_cases {p : Nat} (h : s.spareBank = some p) : p = 32 ∨ p = 33 := by
  unfold State.spareBank at h
  split at h
  · exact .inl (Option.some.inj h).symm
  · split at h
    · exact .inr (Option.some.inj h).symm
    · exact absurd h (by simp)

theorem State.startMig_of_no_spare (h : s.spareBank = none) : s.startMig b = (s.set Reg.HRD_STAT_NOSPARE 1).record 0x0403 b 0 := by
  simp only [State.startMig, h]

theorem State.startMig_of_on {p : Nat} (h : s.spareBank = some p) (hon : s.bankCur b = 0) : s.startMig b =
    (s.set Reg.HRD_STAT_MIGBUSY 1).modHoard (fun h => { h with migs := [{ bank := b, spare := p, copied := false, pos := 0 }] }) := by
  simp only [State.startMig, h]
  exact if_pos hon

theorem State.startMig_mem : (s.startMig b).mem = s.mem := by
  unfold State.startMig
  split
  · rfl
  · split <;> rfl

/-- The start of a migration is seen in HRD_STAT and the ledger only. -/
theorem State.get_startMig_of_ne (f : Fld) (hs : f.addr ≠ Reg.HRD_STAT) (hl : f.addr ≠ Reg.PWR_LEDHEAD) : (s.startMig b).get f = s.get f := by
  unfold State.startMig
  split
  · rw [State.get_record_of_ne _ _ _ _ _ hl, State.get_set_of_ne _ _ _ _ hs]
  · split
    · exact State.get_set_of_ne _ _ _ _ hs
    · rfl

theorem State.startWaiting_mem : (s.startWaiting b).mem = s.mem := by
  unfold State.startWaiting
  split
  · exact State.startMig_mem _ b
  · rfl

theorem State.get_startWaiting_of_ne (f : Fld) (hs : f.addr ≠ Reg.HRD_STAT) (hl : f.addr ≠ Reg.PWR_LEDHEAD) :
    (s.startWaiting b).get f = s.get f := by
  unfold State.startWaiting
  split
  · exact State.get_startMig_of_ne _ b f hs hl
  · rfl

end Migration

/-! ## A bank that comes ON (R253, R254, R268) -/

section On

variable {s : State} {b : Fin 32}

theorem State.bankOn_of_other (ht : s.bankTgt b ≠ 0) : s.bankOn b = s.drainBank b := if_neg ht

section TargetOn

variable (ht : s.bankTgt b = 0)
include ht

theorem State.bankOn_of_on : s.bankOn b = (s.set (Reg.HRD_BANK_CUR b) 0).startWaiting b := if_pos ht

theorem State.bankOn_mem : (s.bankOn b).mem = s.mem := by
  rw [State.bankOn_of_on ht, State.startWaiting_mem, State.set_mem]

theorem State.bankCur_bankOn (hw : s.regsWf = true) : (s.bankOn b).bankCur b = 0 := by
  rw [State.bankOn_of_on ht, State.bankCur, State.get_startWaiting_of_ne _ _ _ (Reg.HRD_BANK_ne_stat b) (Reg.HRD_BANK_ne_ledhead b)]
  exact State.bankCur_set_cur b hw 0

theorem State.tgt_bankOn (hw : s.regsWf = true) : (s.bankOn b).get (Reg.HRD_BANK_TGT b) = s.get (Reg.HRD_BANK_TGT b) := by
  rw [State.bankOn_of_on ht, State.get_startWaiting_of_ne _ _ _ (Reg.HRD_BANK_ne_stat b) (Reg.HRD_BANK_ne_ledhead b)]
  exact State.tgt_set_cur b hw 0

end TargetOn

theorem State.bankCur_drainBank (hw : s.regsWf = true) : (s.drainBank b).bankCur b = 4 :=
  (s.get_drainBank b _).trans (State.bankCur_set_cur b hw 4)

theorem State.tgt_drainBank (hw : s.regsWf = true) : (s.drainBank b).get (Reg.HRD_BANK_TGT b) = s.get (Reg.HRD_BANK_TGT b) :=
  (s.get_drainBank b _).trans (State.tgt_set_cur b hw 4)

end On

end Sys2Proof.Machine
end

section
/-!
SUPPORT. The commands on partitions, banks and migrations, one theorem per case (R240, R253, R254, R255, R265, R266, R267, R268, R276).
-/

namespace Sys2Proof.Machine

theorem State.owned_of_open {s : State} {w : Who} {key : Nat} (h : s.ownRefused w key = false) (f : State → State) : s.owned w key f = f s :=
  if_neg (by simp [h])

/-! ## Partitions (R240) -/

theorem partCode_lt (l : List Part) : partCode l < 4 := by
  unfold partCode
  split
  · decide
  · split
    · decide
    · split <;> decide

section Apply

variable {s : State}

theorem State.partApply_of_ok (h : partCode s.pendingParts = 0) :
    s.partApply = (s.set Reg.HRD_STAT_PARTCODE (partCode s.pendingParts)).modHoard (fun h => { h with parts := s.pendingParts }) := if_pos h

theorem State.partApply_of_failed (h : partCode s.pendingParts ≠ 0) :
    s.partApply = (s.set Reg.HRD_STAT_PARTCODE (partCode s.pendingParts)).set Reg.HRD_STAT_PARTERR 1 := if_neg h

theorem State.partcode_partApply (hw : s.regsWf = true) : s.partApply.get Reg.HRD_STAT_PARTCODE = partCode s.pendingParts := by
  have hcode : (s.set Reg.HRD_STAT_PARTCODE (partCode s.pendingParts)).get Reg.HRD_STAT_PARTCODE = partCode s.pendingParts :=
    (s.get_set_self _ _ hw rfl).trans (Nat.mod_eq_of_lt (partCode_lt _))
  by_cases h : partCode s.pendingParts = 0
  · rw [State.partApply_of_ok h]
    exact hcode
  · rw [State.partApply_of_failed h, State.get_set_of_apart _ _ _ _ (State.regsWf_set _ _ _ hw) rfl rfl, hcode]

theorem State.partApply_mem : s.partApply.mem = s.mem := by
  by_cases h : partCode s.pendingParts = 0
  · rw [State.partApply_of_ok h]
    rfl
  · rw [State.partApply_of_failed h]
    rfl

end Apply

/-! ## A written target (R253) -/

section Target

variable {s : State} {b : Fin 32}

theorem exec_bankTargetWrite {w : Who} (h : s.ownRefused w (Reg.HRD_BANK b) = false) (v : BitVec 2) :
    exec (.bankTargetWrite w b v) s = .next (s.writeTgt b v.toNat) :=
  congrArg Host.Outcome.next (State.owned_of_open h _)

theorem State.writeTgt_unmapped (h : s.bankMapped b = false) (v : Nat) : s.writeTgt b v = s := if_pos (by simp [h])

section Mapped

variable (hm : s.bankMapped b = true) (hw : s.regsWf = true) (v : BitVec 2)
include hm hw

/-- An ON bank drains for another target, a draining bank returns when its target is ON, and any other bank only keeps the target. -/
theorem State.writeTgt_of_mapped : s.writeTgt b v.toNat =
    if s.bankCur b = 0 ∧ v ≠ 0 then (s.set (Reg.HRD_BANK_TGT b) v.toNat).drainBank b
    else if s.bankCur b = 4 ∧ v = 0 then (s.set (Reg.HRD_BANK_TGT b) v.toNat).bankOn b
    else s.set (Reg.HRD_BANK_TGT b) v.toNat := by
  have hon : (s.set (Reg.HRD_BANK_TGT b) v.toNat).bankTgt b = 0 ↔ v = 0 := by
    rw [State.bankTgt, State.tgt_set_tgt b hw, Nat.mod_eq_of_lt v.isLt, ← BitVec.toNat_inj]
    simp
  have hwrite : s.writeTgt b v.toNat =
      if s.bankCur b = 0 then
        (if v = 0 then s.set (Reg.HRD_BANK_TGT b) v.toNat else (s.set (Reg.HRD_BANK_TGT b) v.toNat).drainBank b)
      else if s.bankCur b = 4 then
        (if v = 0 then (s.set (Reg.HRD_BANK_TGT b) v.toNat).bankOn b else s.set (Reg.HRD_BANK_TGT b) v.toNat)
      else s.set (Reg.HRD_BANK_TGT b) v.toNat := by
    rw [← State.bankCur_set_tgt b hw v.toNat]
    simp only [← hon]
    exact if_neg (by simp [hm])
  rw [hwrite]
  by_cases h0 : s.bankCur b = 0
  · simp [h0]
  · by_cases h4 : s.bankCur b = 4
    · simp only [h4, true_and, if_true]
      rfl
    · simp only [h0, h4, false_and, if_false]

theorem State.get_writeTgt : (s.writeTgt b v.toNat).get (Reg.HRD_BANK_TGT b) = v.toNat ∧
    (s.writeTgt b v.toNat).bankCur b = (if s.bankCur b = 0 ∧ v ≠ 0 then 4 else if s.bankCur b = 4 ∧ v = 0 then 0 else s.bankCur b) := by
  have hu : (s.set (Reg.HRD_BANK_TGT b) v.toNat).regsWf = true := State.regsWf_set _ _ _ hw
  have htgt : (s.set (Reg.HRD_BANK_TGT b) v.toNat).get (Reg.HRD_BANK_TGT b) = v.toNat :=
    (State.tgt_set_tgt b hw _).trans (Nat.mod_eq_of_lt v.isLt)
  rw [State.writeTgt_of_mapped hm hw]
  by_cases hdrain : s.bankCur b = 0 ∧ v ≠ 0
  · simp only [if_pos hdrain]
    exact ⟨(State.tgt_drainBank hu).trans htgt, State.bankCur_drainBank hu⟩
  · by_cases hreturn : s.bankCur b = 4 ∧ v = 0
    · have hon : (s.set (Reg.HRD_BANK_TGT b) v.toNat).bankTgt b = 0 := by
        rw [State.bankTgt, htgt, hreturn.2]
        rfl
      simp only [if_neg hdrain, if_pos hreturn]
      exact ⟨(State.tgt_bankOn hon hu).trans htgt, State.bankCur_bankOn hon hu⟩
    · simp only [if_neg hdrain, if_neg hreturn]
      exact ⟨htgt, State.bankCur_set_tgt b hw _⟩

end Mapped

end Target

/-! ## Transitions and fills (R254, R255, R276) -/

section Transition

variable {s : State} {b : Fin 32}

/-- The transition of a bank ends in state `t`. -/
def State.arrived (s : State) (b t : Nat) : State :=
  (s.set (Reg.HRD_BANK_CUR b) t).modHoard (fun h => { h with transTo := h.transTo.setIfInBounds b none })

section Arrived

variable (hw : s.regsWf = true) (t : Nat)
include hw

theorem State.bankCur_arrived : (s.arrived b t).bankCur b = t % 8 := State.bankCur_set_cur b hw t

theorem State.bankTgt_arrived : (s.arrived b t).bankTgt b = s.bankTgt b := State.bankTgt_set_cur b hw t

end Arrived

theorem exec_bankTransitionDone_outside (h : s.inSettle = false) : exec (.bankTransitionDone b) s = .next s :=
  congrArg Host.Outcome.next (if_neg (by simp [h]))

theorem exec_fillDone_outside (h : s.inSettle = false) : exec (.fillDone b) s = .next s := if_pos (.inr (by simp [h]))

theorem exec_fillDone_of_other (h : s.bankCur b ≠ 3) : exec (.fillDone b) s = .next s := if_pos (.inl h)

section Settle

variable (hset : s.inSettle = true)
include hset

theorem exec_bankTransitionDone_arrives {t : Nat} (h : s.hoard.transTo.getD b none = some t) : exec (.bankTransitionDone b) s =
    .next (if t = 2 then (s.arrived b t).zeroBank b else if t = 0 then (s.arrived b t).bankOn b else s.arrived b t) := by
  have hend : s.endTrans b = if t = 2 then (s.arrived b t).zeroBank b else if t = 0 then (s.arrived b t).bankOn b else s.arrived b t := by
    simp only [State.endTrans, h]
    rfl
  exact (congrArg Host.Outcome.next (if_pos hset)).trans (congrArg Host.Outcome.next hend)

theorem exec_fillDone_fills (h : s.bankCur b = 3) : exec (.fillDone b) s = .next ((s.zeroBank b).bankOn b) :=
  if_neg (by simp [h, hset, curFill])

end Settle

end Transition

/-! ## Migrations (R265 to R268) -/

section Migrate

variable {s : State}

theorem exec_migrationGo {w : Who} (h : s.ownRefused w Reg.HRD_MIG = false) (m : W32) :
    exec (.migrationGo w m) s = .next (s.writeMig w m) := congrArg Host.Outcome.next (State.owned_of_open h _)

theorem State.writeMig_eq (s : State) (w : Who) (m : W32) : s.writeMig w m =
    if fieldGet m 8 1 = 1 ∧ (s.writeFields w Reg.HRD_MIG m (fun _ => false)).on Reg.HRD_STAT_MIGBUSY = false
    then (s.writeFields w Reg.HRD_MIG m (fun _ => false)).startMig (fieldGet m 0 5) else s.writeFields w Reg.HRD_MIG m (fun _ => false) := by
  simp only [State.writeMig, Bool.not_eq_true']

theorem exec_migrationThreshold_below {b : Fin 32}
    (h : s.get Reg.HRD_MIG_THR = 0 ∨ s.get (Reg.HRD_BANK_CORR b) < s.get Reg.HRD_MIG_THR ∨ s.bankCur b ≠ 0) :
    exec (.migrationThreshold b) s = .next s := if_pos h

theorem exec_migrationThreshold_starts {b : Fin 32} (h0 : s.get Reg.HRD_MIG_THR ≠ 0)
    (hle : s.get Reg.HRD_MIG_THR ≤ s.get (Reg.HRD_BANK_CORR b)) (hon : s.bankCur b = 0) (hidle : s.on Reg.HRD_STAT_MIGBUSY = false) :
    exec (.migrationThreshold b) s = .next (s.startMig b) := by
  have hreached : ¬ (s.get Reg.HRD_MIG_THR = 0 ∨ s.get (Reg.HRD_BANK_CORR b) < s.get Reg.HRD_MIG_THR ∨ s.bankCur b ≠ 0) := by omega
  exact (if_neg hreached).trans (if_neg (by simp [hidle]))

/-- The migration whose bank is ON has all its words copied. -/
def State.allCopied (s : State) (m : Migration) : Migration := if s.bankCur m.bank = 0 then { m with copied := true, pos := 32768 } else m

theorem exec_migrationCopyDone_outside (h : s.inSettle = false) : exec .migrationCopyDone s = .next s :=
  congrArg Host.Outcome.next (if_neg (by simp [h]))

theorem exec_migrationCopyDone_settle (h : s.inSettle = true) :
    exec .migrationCopyDone s = .next (s.modHoard (fun h => { h with migs := h.migs.map s.allCopied })) := by
  have hcopied : (fun m => if s.migrates m = true then { m with copied := true, pos := 32768 } else m) = s.allCopied := by
    funext m
    simp [State.migrates, State.allCopied, curOn]
  rw [← hcopied]
  exact congrArg Host.Outcome.next (if_pos h)

end Migrate

end Sys2Proof.Machine

open Sys2Proof Sys2Proof.Machine

/-- Settles O42: each command is one change of a bank's register or contents, a drain, a bank that comes ON, or a migration's start; that the
ledger's UNIT is the bank is the model's log entry 14. -/
theorem banksAndPartitions : Obligations.BanksAndPartitions := by
  intro w b v m s hinv
  have hw := hinv.regsWf
  refine ⟨fun hown => ⟨s.partApply, congrArg Host.Outcome.next (State.owned_of_open hown _), State.partcode_partApply hw, fun hok => ?_,
      fun hbad => ?_, State.partApply_mem⟩,
    fun hown hm => ⟨_, exec_bankTargetWrite hown v, State.get_writeTgt hm hw v⟩,
    fun hown hm => (exec_bankTargetWrite hown v).trans (congrArg Host.Outcome.next (State.writeTgt_unmapped hm _)),
    fun hset => ⟨exec_bankTransitionDone_outside hset, exec_fillDone_outside hset⟩,
    fun hset ht => ⟨_, exec_bankTransitionDone_arrives hset ht, State.bankCur_arrived hw 2, fun a => State.read_zeroBank_in _ b,
      fun a => State.read_zeroBank_out (s.arrived b 2) b⟩,
    fun hset ht => ⟨_, exec_bankTransitionDone_arrives hset ht, State.bankCur_arrived hw 1, rfl⟩,
    fun hset ht htgt => ?_, fun hset ht htgt => ?_, fun hset hfill htgt => ?_, fun _ => State.bankCur_drainBank hw,
    fun hset hfill htgt => ?_, exec_fillDone_of_other,
    fun hown => (exec_migrationGo hown m).trans (congrArg Host.Outcome.next (s.writeMig_eq w m)),
    ⟨exec_migrationThreshold_below, exec_migrationThreshold_starts⟩, s.startMig_of_no_spare b, fun p hp hon => ?_,
    exec_migrationCopyDone_outside, fun hset => ⟨_, exec_migrationCopyDone_settle hset, rfl, rfl, rfl⟩⟩
  · rw [State.partApply_of_ok hok]
    rfl
  · rw [State.partApply_of_failed hbad]
    exact ⟨State.get_set_self _ _ _ (State.regsWf_set _ _ _ hw) rfl, rfl⟩
  · have hon : (s.arrived b 0).bankTgt b = 0 := (State.bankTgt_arrived hw 0).trans htgt
    exact ⟨_, exec_bankTransitionDone_arrives hset ht, State.bankCur_bankOn hon (State.regsWf_set _ _ _ hw), State.bankOn_mem hon⟩
  · have hother : (s.arrived b 0).bankTgt b ≠ 0 := fun h => htgt ((State.bankTgt_arrived hw 0).symm.trans h)
    exact (exec_bankTransitionDone_arrives hset ht).trans (congrArg Host.Outcome.next (State.bankOn_of_other hother))
  · exact (exec_fillDone_fills hset hfill).trans (congrArg Host.Outcome.next (State.bankOn_of_other htgt))
  · have hon : (s.zeroBank b).bankTgt b = 0 := htgt
    refine ⟨_, exec_fillDone_fills hset hfill, State.bankCur_bankOn hon hw, fun a ha => ?_⟩
    rw [State.bankOn_mem hon]
    exact s.read_zeroBank_in b ha
  · rw [s.startMig_of_on b hp hon]
    exact ⟨rfl, s.get_set_self _ _ hw rfl, s.spareBank_cases hp⟩

end

section
/-!
SUPPORT. PRS_HASH of a slot after `State.setHash` (R290). A table of registers that lists a key twice is not in canonical form: a write of the
reset value drops the first entry, and the second one is read.
-/

namespace Sys2Proof.Machine

/-- While the registers are in canonical form, PRS_HASH reads the hash of the body. -/
theorem State.word64_setHash (s : State) (n : Nat) (st : List Byte) (hw : s.regsWf = true) :
    (s.setHash n st).word64 (Reg.PRS_HASH_LO n) (Reg.PRS_HASH_HI n) = sha384Head (st.take (st.length - 256)) :=
  s.word64_setWord64_self _ _ _ hw (by simp [Reg.PRS_HASH_LO, Reg.PRS_HASH_HI])

/-- A write of its reset value to a key that is listed twice uncovers the second entry. -/
theorem State.word_setWord_of_twice {s : State} {k : Nat} {v w : W32} {r : List (Nat × W32)} (h : s.regs = (k, v) :: (k, w) :: r) :
    (s.setWord k (RegMap.resetWord k)).word k = w := by
  simp [State.word, State.setWord, h, Sparse.put, Sparse.find]

/-- The low word of a 64-bit register is what the write of its own word left. -/
theorem State.word64_setWord64_low (s : State) (lo hi : Nat) (v : BitVec 64) (hne : lo ≠ hi) :
    ((s.setWord64 lo hi v).word64 lo hi).setWidth 32 = (s.setWord lo (v.setWidth 32)).word lo := by
  rw [State.word64, State.setWord64, State.word_setWord_of_ne _ _ _ _ hne]
  exact BitVec.setWidth_append_eq_right

/-- PRS_HASH_LO of slot 0 is listed twice. -/
def State.hashTwice : State := { State.reset with regs := [(Reg.PRS_HASH_LO 0, 1), (Reg.PRS_HASH_LO 0, 1)] }

/-- The registers are not in canonical form. -/
theorem State.not_inv_hashTwice : ¬ State.hashTwice.Inv := fun ⟨_, hregs, _⟩ => absurd hregs (by decide)

/-- A body of five bytes, found by search: its SHA-384 begins with four zero bytes. -/
def zeroHeadBody : List Byte := [0x01, 0x0F, 0x42, 0x69, 0xE9]

theorem sha384Head_zeroHeadBody : sha384Head zeroHeadBody = 0x6F0734E700000000 := by decide +kernel

/-- That body with a trailer of 256 bytes. -/
def zeroHeadStream : List Byte := zeroHeadBody ++ List.replicate 256 0

theorem zeroHeadStream_body : zeroHeadStream.take (zeroHeadStream.length - 256) = zeroHeadBody := by
  refine List.take_left' ?_
  rw [zeroHeadStream, List.length_append, List.length_replicate, Nat.add_sub_cancel]

/-- The low word of the hash is 0, and 1 is read. -/
theorem State.word64_setHash_hashTwice :
    (State.hashTwice.setHash 0 zeroHeadStream).word64 (Reg.PRS_HASH_LO 0) (Reg.PRS_HASH_HI 0) ≠ sha384Head zeroHeadBody := by
  intro heq
  have hzero : (0x6F0734E700000000 : BitVec 64).setWidth 32 = RegMap.resetWord (Reg.PRS_HASH_LO 0) := by decide
  have hlow := congrArg (BitVec.setWidth 32) heq
  rw [State.setHash, zeroHeadStream_body, State.word64_setWord64_low _ _ _ _ (by decide), sha384Head_zeroHeadBody, hzero,
    State.word_setWord_of_twice rfl] at hlow
  exact absurd hlow (by decide)

end Sys2Proof.Machine

open Sys2Proof Sys2Proof.Machine

/-- Refutes O43: its clause on PRS_HASH speaks of every state. Where the registers are not in canonical form (`State.hashTwice`, which
`State.not_inv_hashTwice` puts outside `State.Inv`), PRS_HASH does not read a hash whose low word is 0, as that of `zeroHeadBody` is.
With canonical registers the clause holds: `State.word64_setHash`. -/
theorem not_loadsProgress : ¬ Obligations.LoadsProgress := by
  unfold Obligations.LoadsProgress
  rintro ⟨hload, -⟩
  obtain ⟨-, -, -, -, -, hhash, -⟩ := hload 0 () State.hashTwice
  exact State.word64_setHash_hashTwice ((hhash zeroHeadStream).trans (congrArg sha384Head zeroHeadStream_body))

end

section
/-!
SUPPORT. The CAN controllers (R350, R351) and a packet for a video stream (R344, R349): the fields of PORT_CAN_c_STAT, and what each row does to
its controller.
-/

namespace Sys2Proof.Machine

/-! ## Fields of one register -/

/-- A field keeps its value when other bits are written: the bits are told apart by their numbers, whatever the register's number is. -/
theorem State.get_set_of_bits (s : State) (f g : Fld) (v : Nat) (hw : s.regsWf = true) (hf : f.ok = true)
    (h : (decide (g.lo + g.w ≤ f.lo) || decide (f.lo + f.w ≤ g.lo)) = true) : (s.set f v).get g = s.get g := by
  refine s.get_set_of_apart f g v hw hf ?_
  rw [Fld.apart, Bool.or_assoc, h, Bool.or_true]

@[simp] theorem State.can_modCan_self (s : State) (c : Fin 2) (f : Can → Can) : (s.modCan c f).can c = f (s.can c) := getD_set_self _ _ _ _ c.isLt

@[simp] theorem State.get_modCan (s : State) (c : Nat) (f : Can → Can) (g : Fld) : (s.modCan c f).get g = s.get g := rfl

/-! ## Error counters and states of a controller (R351) -/

section Errors

variable {s : State} (c : Fin 2)

theorem State.canErrs_frame (tec rec : Nat) : s.canErrs c tec rec = { s with regs := (s.canErrs c tec rec).regs } := by
  rw [State.canErrs]
  split <;> rfl

theorem State.can_canErrs (tec rec : Nat) : (s.canErrs c tec rec).can c = s.can c := by rw [State.canErrs_frame]; rfl

variable (hw : s.regsWf = true)
include hw

/-- The counters hold what is written to them, and a controller out of bus-off is error-passive from 128 on. -/
theorem State.get_canErrs (tec rec : BitVec 8) (hoff : s.get (Reg.PORT_CAN_STAT_STATE c) ≠ 2) :
    (s.canErrs c tec.toNat rec.toNat).get (Reg.PORT_CAN_STAT_TEC c) = tec.toNat ∧
    (s.canErrs c tec.toNat rec.toNat).get (Reg.PORT_CAN_STAT_REC c) = rec.toNat ∧
    (s.canErrs c tec.toNat rec.toNat).get (Reg.PORT_CAN_STAT_STATE c) = (if 128 ≤ tec.toNat ∨ 128 ≤ rec.toNat then 1 else 0) := by
  have h1 := State.regsWf_set s (Reg.PORT_CAN_STAT_TEC c) tec.toNat hw
  have h2 := State.regsWf_set _ (Reg.PORT_CAN_STAT_REC c) rec.toNat h1
  have hstate : ((s.set (Reg.PORT_CAN_STAT_TEC c) tec.toNat).set (Reg.PORT_CAN_STAT_REC c) rec.toNat).get (Reg.PORT_CAN_STAT_STATE c) ≠ 2 := by
    rwa [State.get_set_of_bits _ _ _ _ h1 rfl rfl, State.get_set_of_bits _ _ _ _ hw rfl rfl]
  rw [State.canErrs, if_neg hstate]
  refine ⟨?_, ?_, ?_⟩
  · rw [State.get_set_of_bits _ _ _ _ h2 rfl rfl, State.get_set_of_bits _ _ _ _ h1 rfl rfl, State.get_set_self _ _ _ hw rfl]
    exact Nat.mod_eq_of_lt tec.isLt
  · rw [State.get_set_of_bits _ _ _ _ h2 rfl rfl, State.get_set_self _ _ _ h1 rfl]
    exact Nat.mod_eq_of_lt rec.isLt
  · rw [State.get_set_self _ _ _ h2 rfl]
    split <;> rfl

/-- The state that bus-off leaves before the frames of the controller end (R351). -/
def State.busOff (s : State) (c : Nat) : State :=
  ((s.set (Reg.PORT_CAN_STAT_STATE c) 2).set (Reg.PORT_CAN_STAT_BOFF c) 1).record 0x0604 (6 + c) 0

theorem State.get_busOff : (s.busOff c).get (Reg.PORT_CAN_STAT_STATE c) = 2 ∧ (s.busOff c).get (Reg.PORT_CAN_STAT_BOFF c) = 1 ∧
    (s.busOff c).on (Reg.PORT_CAN_CFG_AUTOREC c) = s.on (Reg.PORT_CAN_CFG_AUTOREC c) := by
  have h1 := State.regsWf_set s (Reg.PORT_CAN_STAT_STATE c) 2 hw
  have hled : (Reg.PORT_CAN_STAT c) ≠ Reg.PWR_LEDHEAD := by simp only [Reg.PORT_CAN_STAT, Reg.PWR_LEDHEAD]; omega
  have hcfg : Reg.PORT_CAN_CFG c ≠ Reg.PORT_CAN_STAT c := by simp only [Reg.PORT_CAN_STAT, Reg.PORT_CAN_CFG]; omega
  have hcled : Reg.PORT_CAN_CFG c ≠ Reg.PWR_LEDHEAD := by simp only [Reg.PORT_CAN_CFG, Reg.PWR_LEDHEAD]; omega
  refine ⟨?_, ?_, congrArg (fun n => n != 0) ?_⟩ <;> rw [State.busOff]
  · rw [State.get_record_of_ne _ _ _ _ _ hled, State.get_set_of_bits _ _ _ _ h1 rfl rfl, State.get_set_self _ _ _ hw rfl]
    rfl
  · rw [State.get_record_of_ne _ _ _ _ _ hled, State.get_set_self _ _ _ h1 rfl]
    rfl
  · rw [State.get_record_of_ne _ _ _ _ _ hcled, State.get_set_of_ne _ _ _ _ hcfg, State.get_set_of_ne _ _ _ _ hcfg]

/-- The state in which a controller is error-active again (R351). -/
def State.busRecovered (s : State) (c : Nat) : State :=
  (((s.set (Reg.PORT_CAN_STAT_STATE c) 0).set (Reg.PORT_CAN_STAT_TEC c) 0).set (Reg.PORT_CAN_STAT_REC c) 0).modCan c
    (fun x => { x with recovering := false })

theorem State.get_busRecovered : (s.busRecovered c).get (Reg.PORT_CAN_STAT_STATE c) = 0 ∧ (s.busRecovered c).get (Reg.PORT_CAN_STAT_TEC c) = 0 ∧
    (s.busRecovered c).get (Reg.PORT_CAN_STAT_REC c) = 0 := by
  have h1 := State.regsWf_set s (Reg.PORT_CAN_STAT_STATE c) 0 hw
  have h2 := State.regsWf_set _ (Reg.PORT_CAN_STAT_TEC c) 0 h1
  rw [State.busRecovered, State.get_modCan, State.get_modCan, State.get_modCan]
  refine ⟨?_, ?_, (State.get_set_self _ _ _ h2 rfl).trans (Nat.zero_mod _)⟩
  · rw [State.get_set_of_bits _ _ _ _ h2 rfl rfl, State.get_set_of_bits _ _ _ _ h1 rfl rfl, State.get_set_self _ _ _ hw rfl, Nat.zero_mod]
  · rw [State.get_set_of_bits _ _ _ _ h2 rfl rfl, State.get_set_self _ _ _ h1 rfl, Nat.zero_mod]

end Errors

/-! ## The rows of a CAN controller (R350, R351, R360) -/

section Rows

variable {s : State} {c : Fin 2}

/-- A frame that controller `c` has received in its buffer layout now. -/
def State.canRx (s : State) (b : List Byte) (toHost : Bool) : RxFrame :=
  { bytes := b, cls := 0, t := s.now, sof := s.now, handed := none, fwd := [], own := true, toHost := toHost, time := BitVec.ofNat 32 s.now }

/-- The error counters are taken and the frame waits (R350). -/
def State.canTakes (s : State) (c : Fin 2) (b : List Byte) (toHost : Bool) (tec rec : Nat) : State :=
  (s.canErrs c tec rec).modCan c (fun x => { x with rx := x.rx ++ [(s.canErrs c tec rec).canRx b toHost] })

theorem canFdf_eq_true_iff (b : List Byte) : canFdf b = true ↔ byteAt b 4 / 16 % 2 = 1 := beq_iff_eq

section Receive

variable {b : List Byte} {toHost : Bool} {tec rec : BitVec 8}

theorem exec_canFrameReceived_illFormed (h : b.length < 8 ∨ 72 < b.length) :
    exec (.canFrameReceived c ⟨b, toHost⟩ tec rec) s = .fault .illFormed := if_pos h

variable (h8 : 8 ≤ b.length) (h72 : b.length ≤ 72)
include h8 h72

theorem exec_canFrameReceived_ignored (h : s.on (Reg.PORT_CAN_CFG_EN c) = false ∨ s.get (Reg.PORT_CAN_STAT_STATE c) = 2 ∨
      (byteAt b 4 / 16 % 2 = 1 ∧ s.on (Reg.PORT_CAN_CFG_FDEN c) = false)) :
    exec (.canFrameReceived c ⟨b, toHost⟩ tec rec) s = .next s := by
  have hlen : ¬ (b.length < 8 ∨ 72 < b.length) := by omega
  refine (if_neg hlen).trans ?_
  by_cases hoff : (!s.on (Reg.PORT_CAN_CFG_EN c) || s.get (Reg.PORT_CAN_STAT_STATE c) == 2) = true
  · exact if_pos hoff
  · refine (if_neg hoff).trans (if_pos ?_)
    rw [canFdf_eq_true_iff]
    simp only [Bool.or_eq_true, Bool.not_eq_true', beq_iff_eq, not_or] at hoff
    obtain ⟨hfd, hclassic⟩ := (h.resolve_left hoff.1).resolve_left hoff.2
    exact ⟨hfd, by rw [hclassic]; rfl⟩

theorem exec_canFrameReceived_waits (hen : s.on (Reg.PORT_CAN_CFG_EN c) = true) (hoff : s.get (Reg.PORT_CAN_STAT_STATE c) ≠ 2)
    (hfd : byteAt b 4 / 16 % 2 = 1 → s.on (Reg.PORT_CAN_CFG_FDEN c) = true) :
    exec (.canFrameReceived c ⟨b, toHost⟩ tec rec) s = .next ((s.canTakes c b toHost tec.toNat rec.toNat).registerAll (12 + c.val)) := by
  have hlen : ¬ (b.length < 8 ∨ 72 < b.length) := by omega
  have hon : ¬ (!s.on (Reg.PORT_CAN_CFG_EN c) || s.get (Reg.PORT_CAN_STAT_STATE c) == 2) = true := by simp [hen, hoff]
  have hfdf : ¬ (canFdf b = true ∧ (!s.on (Reg.PORT_CAN_CFG_FDEN c)) = true) := by
    rw [canFdf_eq_true_iff]
    rintro ⟨h, hclassic⟩
    simp [hfd h] at hclassic
  exact (if_neg hlen).trans ((if_neg hon).trans (if_neg hfdf))

end Receive

theorem State.canRx_can_canTakes (b : List Byte) (toHost : Bool) (tec rec : Nat) :
    ((s.canTakes c b toHost tec rec).can c).rx = (s.can c).rx ++ [s.canRx b toHost] := by
  rw [State.canTakes, State.can_modCan_self, State.canErrs_frame]
  rfl

variable (tec rec : BitVec 8)

theorem exec_canArbitrationLost_of_wire {f : Frame} (h : (s.can c).wire = some f) :
    exec (.canArbitrationLost c) s = .next ((s.modCan c (fun x => { x with wire := none, q := f :: x.q })).canSelect c) := by
  show Host.Outcome.next (s.canRetry c) = _
  rw [State.canRetry, h]

theorem exec_canArbitrationLost_idle (h : (s.can c).wire = none) : exec (.canArbitrationLost c) s = .next s := by
  show Host.Outcome.next (s.canRetry c) = _
  rw [State.canRetry, h]

theorem exec_canFrameTransmitted_of_wire {f : Frame} (h : (s.can c).wire = some f) : exec (.canFrameTransmitted c tec rec) s =
    .next ((((s.canErrs c tec.toNat rec.toNat).modCan c (fun x => { x with wire := none })).endCan f statusDone f.bytes.length none
      (some (BitVec.ofNat 32 f.start))).canSelect c) := by
  show execCanFrameTransmitted c tec rec s = _
  rw [execCanFrameTransmitted, h]

theorem exec_canFrameTransmitted_idle (h : (s.can c).wire = none) : exec (.canFrameTransmitted c tec rec) s = .next s := by
  show execCanFrameTransmitted c tec rec s = _
  rw [execCanFrameTransmitted, h]

theorem exec_canBusoff_off (h : s.get (Reg.PORT_CAN_STAT_STATE c) = 2) : exec (.canBusoff c) s = .next s := if_pos h

/-- Bus-off with no frame in the controller. -/
theorem exec_canBusoff_empty (h : s.get (Reg.PORT_CAN_STAT_STATE c) ≠ 2) (hwire : (s.can c).wire = none) (hq : (s.can c).q = []) :
    exec (.canBusoff c) s = .next ((s.busOff c).modCan c
      (fun y => { y with q := [], wire := none, recovering := (s.busOff c).on (Reg.PORT_CAN_CFG_AUTOREC c) })) := by
  refine (if_neg h).trans ?_
  rw [hwire, hq]
  rfl

theorem exec_canRecover_off {w : Who} (h : s.get (Reg.PORT_CAN_STAT_STATE c) = 2) (hown : s.ownRefused w (Reg.PORT_CAN_CFG c) = false) :
    exec (.canRecover w c) s = .next (s.modCan c (fun x => { x with recovering := true })) :=
  congrArg Host.Outcome.next ((State.owned_of_open hown _).trans (if_pos h))

theorem exec_canBusoffRecovery_done (h : (s.can c).recovering = true) :
    exec (.canBusoffRecovery c) s = .next ((s.busRecovered c).canSelect c) := if_neg (by simp [h])

theorem exec_canBusoffRecovery_idle (h : (s.can c).recovering = false) : exec (.canBusoffRecovery c) s = .next s := if_pos (by simp [h])

end Rows

/-! ## A packet for a video stream (R344, R349) -/

section Packet

variable {s : State} {u : Fin 2} {dport : BitVec 16} {pt : BitVec 7} {ssrc ts : W32} {seq : BitVec 16} {mark : Bool} {len : BitVec 11}
  {payload : List Byte}

theorem exec_videoPacket_unmatched (h : s.streamOf u dport.toNat pt.toNat ssrc.toNat = none) :
    exec (.videoPacket u dport pt ssrc ts seq mark len payload) s = .next s := by
  show execVideoPacket u dport pt ssrc ts seq mark len payload s = _
  rw [execVideoPacket, h]

variable {n : Nat} (h : s.streamOf u dport.toNat pt.toNat ssrc.toNat = some n)
include h

theorem exec_videoPacket_matched : exec (.videoPacket u dport pt ssrc ts seq mark len payload) s = .next (s.streamTakes u n len.toNat
      { dport := dport.toNat, pt := pt.toNat, ssrc := ssrc, ts := ts, seq := seq.toNat, mark := mark, payload := payload }) := by
  show execVideoPacket u dport pt ssrc ts seq mark len payload s = _
  rw [execVideoPacket, h]

end Packet

end Sys2Proof.Machine

open Sys2Proof Sys2Proof.Machine

/-- Settles O46: what each row of a controller does, case by case, and the fields of PORT_CAN_c_STAT behind it; a packet goes to its stream when
the input buffer has room. The drain of that buffer is the model's log entry 96, class 0 of a CAN frame its entry 28. -/
theorem canAndVideo : Obligations.CanAndVideo := by
  refine ⟨fun w c b toHost tec rec s hinv => ?_, fun u dport pt ssrc ts seq mark len payload s => ?_⟩
  · have hw := hinv.regsWf
    refine ⟨fun h8 h72 => ⟨fun hen hoff hfd => ⟨_, exec_canFrameReceived_waits h8 h72 hen hoff hfd, State.canRx_can_canTakes b toHost _ _,
        State.get_canErrs c hw tec rec hoff⟩, exec_canFrameReceived_ignored h8 h72⟩,
      exec_canFrameReceived_illFormed, rfl,
      fun f hf => ⟨exec_canArbitrationLost_of_wire hf, exec_canFrameTransmitted_of_wire tec rec hf⟩,
      fun hf => ⟨exec_canArbitrationLost_idle hf, exec_canFrameTransmitted_idle tec rec hf⟩,
      fun hoff => ⟨exec_canBusoff_off hoff, fun hown => ⟨_, exec_canRecover_off hoff hown, ?_, rfl⟩⟩, fun hoff hwire hq => ?_,
      fun hrec => ⟨_, exec_canBusoffRecovery_done hrec, ?_⟩, exec_canBusoffRecovery_idle⟩
    · rw [State.can_modCan_self]
    · obtain ⟨hstate, hboff, hauto⟩ := State.get_busOff c hw
      refine ⟨_, exec_canBusoff_empty hoff hwire hq, hstate, hboff, rfl, ?_⟩
      rw [State.can_modCan_self, hauto]
    · obtain ⟨hstate, htec, hrecc⟩ := State.get_busRecovered c hw
      refine ⟨hstate, htec, hrecc, ?_⟩
      rw [State.busRecovered, State.can_modCan_self]
  · refine ⟨exec_videoPacket_unmatched, fun n hn => ?_⟩
    rw [exec_videoPacket_matched hn]
    exact ⟨fun hfull => congrArg Host.Outcome.next (if_pos hfull), fun hroom => congrArg Host.Outcome.next (if_neg hroom)⟩

end

section
/-!
SUPPORT. What the transmitter of a MAC leaves alone: it takes frames from its queues and puts them on the wire (R323), and the receive regions and
the place in each gate list stay. And the entries of a gate list (R329): the model begins them by the nominal start of the tick, which a step of
the time base moves with the tick in progress (R41), while HRT_TSTART keeps the time base at the tick's start.
-/

namespace Sys2Proof.Machine

/-! ## Ports by number -/

theorem State.port_modPort_of_ne (s : State) {p n : Nat} (f : Port → Port) (h : n ≠ p) : (s.modPort p f).port n = s.port n :=
  getD_set_of_ne _ _ _ _ _ h

/-- A change that leaves the port as it stands leaves the state. -/
theorem State.modPort_eq_self {s : State} {p : Nat} {f : Port → Port} (h : f (s.port p) = s.port p) : s.modPort p f = s := by
  have hset : s.ports.setIfInBounds p (s.port p) = s.ports := by
    refine Vector.ext fun i hi => ?_
    rw [Vector.getElem_setIfInBounds hi]
    split
    · next hp => subst hp; simp [State.port, Vector.getD, Array.getD_eq_getD_getElem?, hi]
    · rfl
  simp only [State.modPort, h, hset]

/-! ## What transmitting leaves alone -/

/-- The parts of a MAC that its transmitter does not change. -/
def Port.besideTx (x : Port) : List RxFrame × Nat × Nat × Nat := (x.rx, x.rxAt, x.sof, x.gateIdx)

/-- From `s` to `t` MACs have only transmitted: the memories, the receive regions and the gate lists stand as they were. -/
structure State.TransmitsTo (s t : State) : Prop where
  mem : t.mem = s.mem
  besideTx : ∀ n, (t.port n).besideTx = (s.port n).besideTx

section Transmits

variable {s t u : State} {p : Nat}

theorem State.TransmitsTo.refl (s : State) : s.TransmitsTo s := ⟨rfl, fun _ => rfl⟩

theorem State.TransmitsTo.trans (h : s.TransmitsTo t) (k : t.TransmitsTo u) : s.TransmitsTo u :=
  ⟨k.mem.trans h.mem, fun n => (k.besideTx n).trans (h.besideTx n)⟩

theorem State.TransmitsTo.of_ports (hmem : t.mem = s.mem) (hports : t.ports = s.ports) : s.TransmitsTo t :=
  ⟨hmem, fun n => by rw [State.port, State.port, hports]⟩

/-- A change of a MAC's transmitter. -/
theorem State.TransmitsTo.modPort (h : s.TransmitsTo t) {f : Port → Port} (hf : ∀ x, (f x).besideTx = x.besideTx) :
    s.TransmitsTo (t.modPort p f) := by
  refine h.trans ⟨rfl, fun n => ?_⟩
  by_cases hn : n = p
  · subst hn
    by_cases hlt : n < 6
    · rw [State.port_modPort_self _ _ _ hlt, hf]
    · rw [State.port, State.modPort, Vector.setIfInBounds_eq_of_size_le (by omega)]
      rfl
  · rw [State.port_modPort_of_ne _ _ hn]

theorem State.TransmitsTo.port_eq (h : s.TransmitsTo t) (n : Nat) : (t.port n).rx = (s.port n).rx ∧ (t.port n).rxAt = (s.port n).rxAt ∧
    (t.port n).sof = (s.port n).sof ∧ (t.port n).gateIdx = (s.port n).gateIdx := by
  simpa only [Port.besideTx, Prod.mk.injEq] using h.besideTx n

end Transmits

section Selector

variable (s : State) (p : Nat)

theorem Port.besideTx_setCredit (x : Port) (c : Nat) (v : Int) : (x.setCredit c v).besideTx = x.besideTx := by
  rw [Port.setCredit]
  split <;> rfl

theorem State.besideTx_creditStep (dt c : Nat) (x : Port) : (s.creditStep p dt c x).besideTx = x.besideTx := by
  rw [State.creditStep]
  split
  · rfl
  · exact x.besideTx_setCredit _ _

theorem State.credits_transmitsTo : s.TransmitsTo (s.credits p) := by
  have hcredit : ∀ t : State, ∀ x : Port,
      ({ t.creditStep p (s.now - (s.port p).creditT) 2 (t.creditStep p (s.now - (s.port p).creditT) 1 x) with creditT := t.now } : Port).besideTx =
        x.besideTx := fun t x =>
    (t.besideTx_creditStep p _ 2 _).trans (t.besideTx_creditStep p _ 1 x)
  rw [State.credits]
  refine State.TransmitsTo.modPort ?_ (hcredit _)
  split
  · exact .of_ports rfl rfl
  · exact .refl s

theorem State.checkMiss_transmitsTo (f : Frame) : s.TransmitsTo (s.checkMiss p f) := by
  rw [State.checkMiss]
  split
  · exact .refl s
  · split
    · exact .of_ports rfl rfl
    · exact .refl s

theorem State.startFrame_transmitsTo (f : Frame) : s.TransmitsTo (s.startFrame p f) := by
  have htaken := (s.credits_transmitsTo p).trans ((s.credits p).checkMiss_transmitsTo p f)
  have hwire := htaken.modPort (p := p) (f := fun x => { x with q := x.q.erase f, wire := some { f with
    start := ((s.credits p).checkMiss p f).now, seg := ((s.credits p).checkMiss p f).now } }) fun _ => rfl
  exact (hwire.trans (State.credits_transmitsTo _ p)).trans (.of_ports rfl rfl)

theorem State.selectFree_transmitsTo : s.TransmitsTo (s.selectFree p) := by
  have hresume (w : Frame) : s.TransmitsTo (s.modPort p (fun y => { y with preempted := none, wire := some { w with seg := s.now } })) :=
    (State.TransmitsTo.refl s).modPort fun _ => rfl
  rw [State.selectFree]
  split
  · next w _ =>
    split
    · exact s.startFrame_transmitsTo p _
    · split
      · exact hresume w
      · exact .refl s
  · split
    · exact s.startFrame_transmitsTo p _
    · exact .refl s

theorem State.select_transmitsTo : s.TransmitsTo (s.select p) := by
  have hcredits := s.credits_transmitsTo p
  simp only [State.select]
  split
  · split
    · refine State.TransmitsTo.trans ?_ (State.selectFree_transmitsTo _ p)
      exact hcredits.modPort fun _ => rfl
    · exact hcredits
  · exact hcredits.trans (State.selectFree_transmitsTo _ p)

end Selector

/-! ## Entries of a gate list (R329) -/

/-- The tick's entries up to the one in force, in ns. -/
theorem foldl_durations (l : List (Nat × Nat)) : l.foldl (fun n g => n + g.2 * 10) 0 = (l.map (fun g => g.2 * 10)).sum := by
  rw [List.sum_eq_foldl, List.foldl_map]

theorem State.gateDue_iff (s : State) (p : Nat) : s.gateDue p = true ↔ s.running = true ∧ (s.port p).gateIdx + 1 < (s.port p).gates.length ∧
    (((s.port p).gates.take ((s.port p).gateIdx + 1)).map (fun g => g.2 * 10)).sum < s.tp ∧
    s.hearth.nominal + (((s.port p).gates.take ((s.port p).gateIdx + 1)).map (fun g => g.2 * 10)).sum ≤ s.now := by
  simp only [State.gateDue, foldl_durations, Bool.and_eq_true, decide_eq_true_eq, and_assoc]

/-- The next entry of port `p`'s gate list begins. -/
def State.nextGate (s : State) (p : Nat) : State := ((s.credits p).modPort p (fun x => { x with gateIdx := x.gateIdx + 1 })).select p

theorem exec_gateEntryStart (s : State) (p : Fin 6) : exec (.gateEntryStart p) s = .next (if s.gateDue p = true then s.nextGate p else s) := by
  show execGateEntryStart p s = _
  rw [execGateEntryStart, apply_ite Host.Outcome.next]
  rfl

/-- The entry that begins is the one behind the entry that was in force. -/
theorem State.gateIdx_nextGate (s : State) (p : Fin 6) : ((s.nextGate p).port p).gateIdx = (s.port p).gateIdx + 1 := by
  obtain ⟨-, -, -, hselect⟩ := (State.select_transmitsTo ((s.credits p).modPort p (fun x => { x with gateIdx := x.gateIdx + 1 })) p).port_eq p
  obtain ⟨-, -, -, hcredits⟩ := (s.credits_transmitsTo p).port_eq p
  rw [State.nextGate, hselect, State.port_modPort_self _ _ _ p.isLt, hcredits]

/-- A running tick that starts at time 0, with a gate list of two entries of 100 ns on port 0. -/
def State.gatedTick : State :=
  { State.reset with power := Power.zero, regs := [(Reg.HRT_STAT, 1)] }.modPort 0 (fun x => { x with gates := [(255, 10), (1, 10)] })

/-- A step of 1 us has been added to the time base at its start (R365): the tick goes on unchanged, so that none of it has passed (R41), but
HRT_TSTART still reads 0, the time base before the step. -/
def State.steppedTick : State := State.gatedTick.stepTb 1000

/-- A step of the time base leaves the gate lists. -/
theorem State.gates_stepTb (s : State) (d : Int) (p : Fin 6) : ((s.stepTb d).port p).gates = (s.port p).gates ∧
    ((s.stepTb d).port p).gateIdx = (s.port p).gateIdx := by
  have hports : (s.stepTb d).ports = s.ports.map (Port.shift d) := by
    simp only [State.stepTb]
    split
    · split <;> rfl
    · split <;> rfl
  have hport : (s.stepTb d).port p = (s.port p).shift d := by
    rw [State.port, State.port, hports]
    simp [Vector.getD, Array.getD_eq_getD_getElem?]
  rw [hport]
  exact ⟨rfl, rfl⟩

theorem State.inv_steppedTick : State.steppedTick.Inv := ⟨by decide, by decide, by decide⟩

/-- The first of two entries is in force, and ends 100 ns into the tick. -/
theorem State.gates_steppedTick : (State.steppedTick.port (0 : Fin 6)).gates = [(255, 10), (1, 10)] ∧ (State.steppedTick.port (0 : Fin 6)).gateIdx = 0 :=
  State.gatedTick.gates_stepTb 1000 0

/-- None of the first entry's 100 ns has passed. -/
theorem State.not_gateDue_steppedTick : ¬ State.steppedTick.gateDue (0 : Fin 6) = true := by
  obtain ⟨hgates, hidx⟩ := State.gates_steppedTick
  rw [State.gateDue_iff, hgates, hidx]
  decide

/-- By HRT_TSTART alone all of them have. -/
theorem State.tstart_steppedTick :
    let n := (((State.steppedTick.port (0 : Fin 6)).gates.take ((State.steppedTick.port (0 : Fin 6)).gateIdx + 1)).map (fun g => g.2 * 10)).sum
    State.steppedTick.running = true ∧ (State.steppedTick.port (0 : Fin 6)).gateIdx + 1 < (State.steppedTick.port (0 : Fin 6)).gates.length ∧
      n < State.steppedTick.tp ∧
      (State.steppedTick.word64 Reg.HRT_TSTART_LO Reg.HRT_TSTART_HI).toNat + n ≤ State.steppedTick.now := by
  obtain ⟨hgates, hidx⟩ := State.gates_steppedTick
  rw [hgates, hidx]
  decide

end Sys2Proof.Machine

open Sys2Proof Sys2Proof.Machine

/-- Refutes O45: its clause on the entries of a gate list counts from HRT_TSTART, the model from the nominal start of the tick. After a step of the
time base within a tick (`State.steppedTick`) the two differ, and an entry that is due by HRT_TSTART does not begin. Told by the nominal start, as
`State.gateDue_iff` tells it, the clause holds: `exec_gateEntryStart`. -/
theorem not_pauseGatesAndPreemption : ¬ Obligations.PauseGatesAndPreemption := by
  unfold Obligations.PauseGatesAndPreemption
  intro h
  obtain ⟨-, -, -, -, -, -, -, -, -, -, -, hgate, -⟩ := h .host 0 0 0 0 State.steppedTick State.inv_steppedTick
  have hbegins : exec (.gateEntryStart 0) State.steppedTick = .next (State.steppedTick.nextGate 0) := hgate.1 State.tstart_steppedTick
  have hstays : exec (.gateEntryStart 0) State.steppedTick = .next State.steppedTick :=
    (exec_gateEntryStart _ 0).trans (congrArg Host.Outcome.next (if_neg State.not_gateDue_steppedTick))
  have hidx := congrArg (fun t => (t.port 0).gateIdx) (Host.Outcome.next.inj (hstays.symm.trans hbegins))
  exact absurd (hidx.trans (State.gateIdx_nextGate _ 0)) (Nat.ne_of_lt (Nat.lt_succ_self _))

end

section
/-!
SUPPORT. The frames of a port (R314 to R321, R333, R337 to R341): what is received, checked and stored; links; the end of a transmission; and
frames that are forwarded cut through.
-/

namespace Sys2Proof.Machine

/-! ## The check sequence behind a frame (R340) -/

theorem length_leBytes (n v : Nat) : (leBytes n v).length = n := by
  induction n generalizing v with
  | zero => rfl
  | succ n ih => rw [leBytes, List.length_cons, ih]

theorem leNat_leBytes (n v : Nat) : leNat (leBytes n v) = v % 256 ^ n := by
  induction n generalizing v with
  | zero => rw [Nat.pow_zero, Nat.mod_one]; rfl
  | succ n ih =>
    rw [leBytes, leNat, ih, BitVec.toNat_ofNat, Nat.pow_succ' (m := 256)]
    exact Nat.mod_mul.symm

theorem ne_not_self (x : W32) : x ≠ ~~~ x := by
  intro h
  have hbit := congrArg (fun y => y.getLsbD 0) h
  simp at hbit

/-- The bytes of a frame and the check sequence received behind them. -/
abbrev withCheck (b : List Byte) (fcs : W32) : List Byte := b ++ leBytes 4 fcs.toNat

/-- The check of a frame with the FCS `fcs` behind its bytes. -/
theorem fcsCheck_append (b : List Byte) (fcs : W32) : fcsCheck (withCheck b fcs) =
    if fcs = ~~~ stompCode b then 0 else if fcs = stompCode b then 2 else 1 := by
  have hlen : (withCheck b fcs).length - 4 = b.length := by rw [List.length_append, length_leBytes, Nat.add_sub_cancel]
  have htail : leAt (withCheck b fcs) b.length 4 = fcs.toNat := by
    rw [leAt, List.drop_left, List.take_of_length_le (Nat.le_of_eq (length_leBytes 4 _)), leNat_leBytes]
    exact Nat.mod_eq_of_lt fcs.isLt
  simp only [fcsCheck, hlen, htail, List.take_left, BitVec.ofNat_toNat, BitVec.setWidth_eq]

/-! ## A frame is received (R318, R319, R333, R339 to R341) -/

theorem State.endCut_of_none {s : State} {p : Nat} (h : (s.port p).ct = none) : s.endCut p = s :=
  State.modPort_eq_self (by rw [← h])

theorem State.stompOut_of_none {s : State} {p : Nat} (h : (s.port p).ct = none) (b : Option (List Byte)) : s.stompOut p b = s := by
  rw [State.stompOut, h]

/-- A counter of frames that are dropped, and nothing else. -/
theorem State.counted (s : State) (f : Fld) (h : s.regsWf = true) (hf : f.ok = true) :
    (s.count f 1).get f = min (s.get f + 1) (2 ^ f.w - 1) ∧ s.count f 1 = { s with regs := (s.count f 1).regs } :=
  ⟨s.get_count_self f 1 h hf, rfl⟩

/-- The frame as its port keeps it when nothing forwards it. -/
def State.rxFrame (s : State) (p : Nat) (b : List Byte) (c : Nat) (toHost : Bool) : RxFrame :=
  { bytes := b, cls := c, t := s.now, sof := (s.port p).sof, handed := none, fwd := [], own := true, toHost := toHost, time := s.rxTime p }

/-- A frame goes into the region, or is dropped when there is no room (R319). -/
def State.keepRx (s : State) (p : Nat) (r : RxFrame) : State :=
  if 0x20000 < s.occupancy p + r.bytes.length then s.count (Reg.PORT_DROP_RXOVF p) 1 else (s.storeRx p r).pauseCheck p

/-- The state in which the frame of bytes `b` is over on port `p`: copies that egresses still send of it go on with all of its bytes, unless a tile
marked it local. -/
def State.received (s : State) (p : Nat) (b : List Byte) (loc : Bool) : State := (if loc = true then s else s.wholeCut p b).endCut p

section Received

variable (s : State) (p : Nat) (b : List Byte) (loc : Bool)

theorem State.wholeCut_frame : s.wholeCut p b = { s with ports := (s.wholeCut p b).ports } := by
  rw [State.wholeCut, State.each]
  exact List.foldlRecOn (motive := fun t : State => t = { s with ports := t.ports }) _ _ rfl fun t ht e _ => by rw [ht]; rfl

theorem State.wholeCut_transmitsTo : s.TransmitsTo (s.wholeCut p b) := by
  rw [State.wholeCut, State.each]
  exact List.foldlRecOn (motive := fun t => s.TransmitsTo t) _ _ (.refl s) fun t ht e _ => ht.modPort fun _ => rfl

theorem State.received_frame : s.received p b loc = { s with ports := (s.received p b loc).ports } := by
  rw [State.received]
  split
  · rfl
  · rw [State.wholeCut_frame]
    rfl

theorem State.received_transmitsTo : s.TransmitsTo (s.received p b loc) := by
  rw [State.received]
  split
  · exact (State.TransmitsTo.refl s).modPort fun _ => rfl
  · exact (s.wholeCut_transmitsTo p b).modPort fun _ => rfl

/-- A port whose owner has no redundancy recovery takes the frame as it is. -/
theorem State.cbReceive_received (c : List Byte) (h : s.cbOwner p = none) : (s.received p b loc).cbReceive p c = (some c, s.received p b loc) := by
  have hcb : (s.received p b loc).cbOwner p = none := by
    rw [s.received_frame p b loc]
    exact h
  rw [State.cbReceive, hcb]

theorem State.occupancy_received : (s.received p b loc).occupancy p = s.occupancy p := by
  obtain ⟨hrx, -⟩ := (s.received_transmitsTo p b loc).port_eq p
  rw [State.occupancy, State.occupancy, hrx]

theorem State.rxFrame_received (c : Nat) (toHost : Bool) : (s.received p b loc).rxFrame p b c toHost = s.rxFrame p b c toHost := by
  obtain ⟨-, -, hsof, -⟩ := (s.received_transmitsTo p b loc).port_eq p
  have hlat : (s.received p b loc).latencies p = s.latencies p := by rw [s.received_frame p b loc]; rfl
  have hnow : (s.received p b loc).now = s.now := by rw [s.received_frame p b loc]; rfl
  rw [State.rxFrame, State.rxFrame, State.rxTime, State.rxTime, hsof, hlat, hnow]

end Received

section Receive

variable {s : State} {p : Nat} {b : List Byte} {cls : Option Nat} {loc toHost : Bool} (hct : (s.port p).ct = none)
include hct

theorem State.receive_of_length (h : b.length < 64 ∨ 1522 < b.length) : s.receive p b cls loc toHost = s.count (Reg.PORT_DROP_LEN p) 1 := by
  rw [State.receive, hct, if_pos h, State.stompOut_of_none hct, State.endCut_of_none hct]
  rfl

variable (hlen : ¬ (b.length < 64 ∨ 1522 < b.length))
include hlen

theorem State.receive_of_fcs (h : fcsCheck b ≠ 0) :
    s.receive p b cls loc toHost = s.count (if fcsCheck b = 2 then Reg.PORT_STOMP_RX p else Reg.PORT_DROP_FCS p) 1 := by
  rw [State.receive, if_neg hlen, if_pos h, State.stompOut_of_none hct, State.endCut_of_none hct]

variable (hfcs : fcsCheck b = 0)
include hfcs

theorem State.receive_of_pause (h : (isPauseFrame b && s.portFdx p) = true) :
    s.receive p b cls loc toHost = s.takePause p (byteAt b 16 * 256 + byteAt b 17) := by
  rw [State.receive, if_neg hlen, if_neg (not_not_intro hfcs), if_pos h, State.endCut_of_none hct]

theorem State.receive_keeps (hpause : ¬ (isPauseFrame b && s.portFdx p) = true) (hegr : s.egresses p = []) (hcb : s.cbOwner p = none) :
    s.receive p b cls loc toHost = (s.received p b loc).keepRx p ((s.received p b loc).rxFrame p b (s.classify p b cls) toHost) := by
  have hrecover : ((if loc = true then s else s.wholeCut p b).endCut p).cbReceive p b =
      (some b, (if loc = true then s else s.wholeCut p b).endCut p) := s.cbReceive_received p b loc b hcb
  rw [State.receive, if_neg hlen, if_neg (not_not_intro hfcs), if_neg hpause]
  simp only [hct, hegr, State.stompOut_of_none hct, List.filter_nil, ite_self, List.isEmpty_nil, Bool.not_true, Bool.false_eq_true,
    and_false, or_true, if_false, if_true, Nat.add_zero, List.foldl_nil, hrecover]
  rfl

end Receive

/-! ## The receive region and PAUSE (R319, R336) -/

theorem State.queuePause_transmitsTo (s : State) (p quanta : Nat) : s.TransmitsTo (s.queuePause p quanta) := by
  rw [State.queuePause]
  refine State.TransmitsTo.trans ?_ (State.select_transmitsTo _ p)
  exact (State.TransmitsTo.refl s).modPort fun _ => rfl

theorem State.pauseCheck_transmitsTo (s : State) (p : Nat) : s.TransmitsTo (s.pauseCheck p) := by
  have hxoff (b : Bool) : s.TransmitsTo (s.modPort p (fun x => { x with xoff := b })) := (State.TransmitsTo.refl s).modPort fun _ => rfl
  rw [State.pauseCheck]
  split
  · exact .refl s
  · dsimp only
    split
    · exact (hxoff true).trans (State.queuePause_transmitsTo _ p _)
    · split
      · exact (hxoff false).trans (State.queuePause_transmitsTo _ p _)
      · exact .refl s

section Store

variable (s : State) (p : Fin 6) (r : RxFrame)

theorem State.port_storeRx : ((s.storeRx p r).port p).rx = (s.port p).rx ++ [{ r with pos := (s.port p).rxAt }] ∧
    ((s.storeRx p r).port p).rxAt = ((s.port p).rxAt + r.bytes.length) % 0x20000 := by
  rw [State.storeRx, State.port_modPort_self _ _ _ p.isLt]
  exact ⟨rfl, rfl⟩

/-- A frame that reaches no further than the region's end is read back. -/
theorem State.rd_storeRx (hmem : Memory.wf s.mem = true) (h : (s.port p).rxAt + r.bytes.length ≤ 0x20000) :
    (s.storeRx p r).rd (0x20000000 + p * 0x20000 + (s.port p).rxAt) r.bytes.length = r.bytes := by
  have hroom : r.bytes.length ≤ 0x20000 - (s.port p).rxAt := by omega
  have hstored : (s.storeRx p r).mem = Memory.writeN s.mem (0x20000000 + p * 0x20000 + (s.port p).rxAt) r.bytes := by
    rw [State.storeRx, List.take_of_length_le hroom, List.drop_of_length_le hroom]
    rfl
  rw [State.rd, hstored, Memory.readN_writeN_self _ _ _ hmem]

/-- The region has room for the frame. -/
theorem State.keepRx_of_room (hroom : s.occupancy p + r.bytes.length ≤ 0x20000) :
    ((s.keepRx p r).port p).rx = (s.port p).rx ++ [{ r with pos := (s.port p).rxAt }] ∧
    ((s.keepRx p r).port p).rxAt = ((s.port p).rxAt + r.bytes.length) % 0x20000 ∧
    (Memory.wf s.mem = true → (s.port p).rxAt + r.bytes.length ≤ 0x20000 →
      (s.keepRx p r).rd (0x20000000 + p * 0x20000 + (s.port p).rxAt) r.bytes.length = r.bytes) := by
  obtain ⟨hrx, hat, -, -⟩ := ((s.storeRx p r).pauseCheck_transmitsTo p).port_eq p
  obtain ⟨hrx', hat'⟩ := s.port_storeRx p r
  rw [State.keepRx, if_neg (Nat.not_lt.mpr hroom)]
  refine ⟨hrx.trans hrx', hat.trans hat', fun hwf hend => ?_⟩
  rw [State.rd, ((s.storeRx p r).pauseCheck_transmitsTo p).mem]
  exact s.rd_storeRx p r hwf hend

end Store

section Kept

variable {s : State} (p : Fin 6) (b : List Byte) (loc : Bool) (r : RxFrame)

/-- The region has room for a frame that is over: its place, and its bytes there. -/
theorem State.keepRx_received_of_room (hmem : Memory.wf s.mem = true) (hroom : s.occupancy p + r.bytes.length ≤ 0x20000) :
    (((s.received p b loc).keepRx p r).port p).rx = (s.port p).rx ++ [{ r with pos := (s.port p).rxAt }] ∧
    (((s.received p b loc).keepRx p r).port p).rxAt = ((s.port p).rxAt + r.bytes.length) % 0x20000 ∧
    ((s.port p).rxAt + r.bytes.length ≤ 0x20000 →
      ((s.received p b loc).keepRx p r).rd (0x20000000 + p * 0x20000 + (s.port p).rxAt) r.bytes.length = r.bytes) := by
  have hkeep := (s.received_transmitsTo p b loc).mem
  obtain ⟨hrx, hat, -, -⟩ := (s.received_transmitsTo p b loc).port_eq p
  rw [← s.occupancy_received p b loc] at hroom
  rw [← hkeep] at hmem
  rw [← hrx, ← hat]
  obtain ⟨hrx', hat', hrd⟩ := (s.received p b loc).keepRx_of_room p r hroom
  exact ⟨hrx', hat', hrd hmem⟩

/-- The region has no room for it. -/
theorem State.keepRx_received_of_full (hw : s.regsWf = true) (hfull : 0x20000 < s.occupancy p + r.bytes.length) :
    (((s.received p b loc).keepRx p r).port p).rx = (s.port p).rx ∧ ((s.received p b loc).keepRx p r).mem = s.mem ∧
    ((s.received p b loc).keepRx p r).get (Reg.PORT_DROP_RXOVF p) = min (s.get (Reg.PORT_DROP_RXOVF p) + 1) 255 := by
  obtain ⟨hrx, -⟩ := (s.received_transmitsTo p b loc).port_eq p
  rw [← s.occupancy_received p b loc] at hfull
  rw [State.keepRx, if_pos hfull]
  refine ⟨hrx, (s.received_transmitsTo p b loc).mem, ?_⟩
  rw [s.received_frame p b loc]
  exact State.get_count_self _ (Reg.PORT_DROP_RXOVF p) 1 hw rfl

end Kept

/-- A port that is not live, as the rows test it. -/
theorem State.dead_of_not_live (s : State) {p : Nat} (h : ¬ (s.portUp p = true ∧ s.on (Reg.PORT_LCFG_EN p) = true)) :
    (!(s.portUp p && s.on (Reg.PORT_LCFG_EN p))) = true := by
  rwa [Bool.not_eq_true', ← Bool.not_eq_true, Bool.and_eq_true]

/-! ## The row that brings a frame (R318 to R321, R344) -/

section RxFrame

variable {s : State} {p : Fin 6} {b : List Byte} {cls : Option (Fin 8)} {rt : RxRoute} {fcs : W32}

theorem exec_rxFrame_dead (h : ¬ (s.portUp p = true ∧ s.on (Reg.PORT_LCFG_EN p) = true)) : exec (.rxFrame p b cls rt fcs) s = .next s :=
  if_pos (s.dead_of_not_live h)

variable (hlive : s.portUp p = true ∧ s.on (Reg.PORT_LCFG_EN p) = true)
include hlive

theorem exec_rxFrame_stream {n : Nat} {x : Rtp} (h : s.streamPacket p (withCheck b fcs) = some (n, x)) :
    exec (.rxFrame p b cls rt fcs) s = .next (s.streamTakes (p - 4) n (withCheck b fcs).length x) := by
  refine (if_neg (by simp [hlive])).trans ?_
  dsimp only
  rw [h]

variable (h : s.streamPacket p (withCheck b fcs) = none)
include h

theorem exec_rxFrame_half (hfdx : s.portFdx p = false) : exec (.rxFrame p b cls rt fcs) s =
    .next (((s.modPort p (fun x => { x with rxBusy := false })).receive p (withCheck b fcs) (cls.map (fun x => x.val)) rt.loc
      rt.toHost).select p) := by
  refine (if_neg (by simp [hlive])).trans ?_
  dsimp only
  rw [h, State.halfPort, hfdx]
  rfl

theorem exec_rxFrame_full (hfdx : s.portFdx p = true) : exec (.rxFrame p b cls rt fcs) s =
    .next (s.receive p (withCheck b fcs) (cls.map (fun x => x.val)) rt.loc rt.toHost) := by
  refine (if_neg (by simp [hlive])).trans ?_
  dsimp only
  rw [h, State.halfPort, hfdx]
  rfl

/-! In full duplex, while nothing that the port receives is forwarded cut through. -/

variable (hfdx : s.portFdx p = true) (hct : (s.port p).ct = none)
include hfdx hct

theorem exec_rxFrame_length (hlen : (withCheck b fcs).length < 64 ∨ 1522 < (withCheck b fcs).length) :
    exec (.rxFrame p b cls rt fcs) s = .next (s.count (Reg.PORT_DROP_LEN p) 1) :=
  (exec_rxFrame_full hlive h hfdx).trans (congrArg Host.Outcome.next (State.receive_of_length hct hlen))

variable (hlen : ¬ ((withCheck b fcs).length < 64 ∨ 1522 < (withCheck b fcs).length))
include hlen

theorem exec_rxFrame_wrong (hright : fcs ≠ ~~~ stompCode b) (hstomp : fcs ≠ stompCode b) :
    exec (.rxFrame p b cls rt fcs) s = .next (s.count (Reg.PORT_DROP_FCS p) 1) := by
  have hcheck : fcsCheck (withCheck b fcs) = 1 := by rw [fcsCheck_append, if_neg hright, if_neg hstomp]
  rw [exec_rxFrame_full hlive h hfdx, State.receive_of_fcs hct hlen (by rw [hcheck]; decide), hcheck]
  rfl

theorem exec_rxFrame_stomped (hstomp : fcs = stompCode b) :
    exec (.rxFrame p b cls rt fcs) s = .next (s.count (Reg.PORT_STOMP_RX p) 1) := by
  have hcheck : fcsCheck (withCheck b fcs) = 2 := by rw [fcsCheck_append, if_neg (hstomp ▸ ne_not_self _), if_pos hstomp]
  rw [exec_rxFrame_full hlive h hfdx, State.receive_of_fcs hct hlen (by rw [hcheck]; decide), hcheck]
  rfl

variable (hright : fcs = ~~~ stompCode b)
include hright

theorem exec_rxFrame_pause (hpause : isPauseFrame (withCheck b fcs) = true) : exec (.rxFrame p b cls rt fcs) s =
    .next (s.takePause p (byteAt (withCheck b fcs) 16 * 256 + byteAt (withCheck b fcs) 17)) := by
  have hcheck : fcsCheck (withCheck b fcs) = 0 := (fcsCheck_append b fcs).trans (if_pos hright)
  rw [exec_rxFrame_full hlive h hfdx, State.receive_of_pause hct hlen hcheck (by simp [hpause, hfdx])]

theorem exec_rxFrame_keeps (hpause : isPauseFrame (withCheck b fcs) = false) (hegr : s.egresses p = []) (hcb : s.cbOwner p = none) :
    exec (.rxFrame p b cls rt fcs) s = .next ((s.received p (withCheck b fcs) rt.loc).keepRx p
      (s.rxFrame p (withCheck b fcs) (s.classify p (withCheck b fcs) (cls.map (fun x => x.val))) rt.toHost)) := by
  have hcheck : fcsCheck (withCheck b fcs) = 0 := (fcsCheck_append b fcs).trans (if_pos hright)
  rw [exec_rxFrame_full hlive h hfdx, State.receive_keeps hct hlen hcheck (by simp [hpause]) hegr hcb, State.rxFrame_received]

end RxFrame

/-! ## Links (R314 to R316) -/

section Links

variable {s : State} {p : Fin 6}

/-- The state of PORT_n_LSTAT when a link has come up. -/
def State.linked (s : State) (p speed : Nat) (fdx : Bool) : State :=
  (((s.set (Reg.PORT_LSTAT_UP p) 1).set (Reg.PORT_LSTAT_SPEED p) speed).setB (Reg.PORT_LSTAT_FDX p) fdx).set (Reg.PORT_LSTAT_LCHG p) 1

theorem State.get_linked (speed : Fin 4) (fdx : Bool) (hw : s.regsWf = true) : (s.linked p speed fdx).get (Reg.PORT_LSTAT_UP p) = 1 ∧
    (s.linked p speed fdx).get (Reg.PORT_LSTAT_SPEED p) = speed.val ∧ (s.linked p speed fdx).portFdx p = fdx ∧
    (s.linked p speed fdx).get (Reg.PORT_LSTAT_LCHG p) = 1 := by
  have h1 := State.regsWf_set s (Reg.PORT_LSTAT_UP p) 1 hw
  have h2 := State.regsWf_set _ (Reg.PORT_LSTAT_SPEED p) speed h1
  have h3 := State.regsWf_setB _ (Reg.PORT_LSTAT_FDX p) fdx h2
  rw [State.portFdx, State.on, State.linked]
  refine ⟨?_, ?_, ?_, State.get_set_self _ _ _ h3 rfl⟩
  · rw [State.get_set_of_bits _ _ _ _ h3 rfl rfl, State.setB, State.get_set_of_bits _ _ _ _ h2 rfl rfl, State.get_set_of_bits _ _ _ _ h1 rfl rfl,
      State.get_set_self _ _ _ hw rfl]
    rfl
  · rw [State.get_set_of_bits _ _ _ _ h3 rfl rfl, State.setB, State.get_set_of_bits _ _ _ _ h2 rfl rfl, State.get_set_self _ _ _ h1 rfl]
    exact Nat.mod_eq_of_lt speed.isLt
  · rw [State.get_set_of_bits _ _ _ _ h3 rfl rfl, State.setB, State.get_set_self _ _ _ h2 rfl]
    cases fdx <;> rfl

theorem exec_linkUp_refused {speed : Fin 4} {fdx : Bool} (h : s.portUp p = true ∨ s.phyOff p = true ∨ s.on (Reg.PORT_LCFG_EN p) = false) :
    exec (.linkUp p speed fdx) s = .next s := by
  refine if_pos ?_
  rcases h with h | h | h <;> simp [h]

theorem exec_linkUp_accepted {speed : Fin 4} {fdx : Bool} (hen : s.on (Reg.PORT_LCFG_EN p) = true)
    (hmode : modeAccepts p (s.get (Reg.PORT_LCFG_MODE p)) speed fdx = true) (hdown : s.portUp p = false) (hphy : s.phyOff p = false) :
    exec (.linkUp p speed fdx) s = .next (((s.linked p speed fdx).preUpdate p).select p) := if_neg (by simp [hen, hmode, hdown, hphy])

theorem exec_linkDown_of_down {sent : BitVec 16} (h : s.portUp p = false) : exec (.linkDown p sent) s = .next s :=
  congrArg Host.Outcome.next (if_pos (by simp [h]))

/-- An SFD registers (R320). -/
def State.sofSeen (s : State) (p : Nat) : State := (s.modPort p (fun x => { x with sof := s.now })).registerAll p

theorem exec_startOfFrame_dead (h : ¬ (s.portUp p = true ∧ s.on (Reg.PORT_LCFG_EN p) = true)) : exec (.startOfFrame p) s = .next s :=
  if_pos (s.dead_of_not_live h)

theorem exec_startOfFrame_live (h : s.portUp p = true ∧ s.on (Reg.PORT_LCFG_EN p) = true) : exec (.startOfFrame p) s =
    .next (if s.portFdx p = true then s.sofSeen p else ((s.sofSeen p).modPort p (fun x => { x with rxBusy := true })).collide p) :=
  if_neg (by simp [h])

end Links

/-! ## The end of a transmission (R320, R372, R373) -/

section Transmit

variable {s : State} {p : Fin 6}

theorem exec_transmitDone_idle (h : (s.port p).wire = none) : exec (.transmitDone p) s = .next s := by
  show execTransmitDone p s = _
  rw [execTransmitDone, h]

/-- The wire is free and transmit done registers; a frame that an uncorrectable granule cut short has ended with the stomp code (R263). -/
def State.wireDone (s : State) (p : Fin 6) (f : Frame) : State :=
  let a := (s.credits p).modPort p (fun x => { x with wire := none })
  (if f.bad = true then (a.send (.txCut p (some (stompCode f.wireBytes)))).count (Reg.PORT_STOMP_TX p) 1 else a).registerAll (6 + p.val)

variable {f : Frame} (h : (s.port p).wire = some f)
include h

theorem exec_transmitDone_ring {r i : Nat} (hsrc : f.src = .ring r i) : exec (.transmitDone p) s =
    .next (((s.wireDone p f).endTx r i statusDone f.bytes.length none (if f.cut = true then none else some ((s.wireDone p f).txTime p f))).select p) := by
  show execTransmitDone p s = _
  rw [execTransmitDone, h]
  dsimp only
  rw [hsrc]
  rfl

theorem exec_transmitDone_fwd {i : Nat} (hsrc : f.src = .fwd i) : exec (.transmitDone p) s =
    .next (((s.wireDone p f).fwdGone i p f).select p) := by
  show execTransmitDone p s = _
  rw [execTransmitDone, h]
  dsimp only
  rw [hsrc]
  rfl

end Transmit

/-! ## Cut-through (R337 to R341) -/

section CutThrough

variable {s : State} {q : Fin 4} {b : List Byte} {cls : Option (Fin 8)} {loc : Bool}

theorem exec_cutThroughOverlength_long {c : CutThrough} (h : (s.port q).ct = some c) (hs : c.stomped = false) :
    exec (.cutThroughOverlength q) s =
      .next (((s.stompOut q none).modPort q (fun x => { x with ct := some { egress := [], held := [], stomped := true, long := true } })).count
        (Reg.PORT_DROP_LEN q) 1) := by
  show execCutThroughOverlength q s = _
  rw [execCutThroughOverlength, h]
  exact if_neg (by simp [hs])

theorem exec_cutThroughStart_none
    (h : loc = true ∨ b.length < s.ctStart q ∨ s.portUp q = false ∨ s.egresses q = [] ∨ (s.port q).ct ≠ none) :
    exec (.cutThroughStart q b (.frame cls loc)) s = .next s := by
  refine if_pos ?_
  rw [Option.ne_none_iff_isSome] at h
  rcases h with h | h | h | h | h <;> simp [h]

/-- Egress `e` starts a frame of which ingress `q` has received the bytes `b`. -/
def State.startCut (q : Nat) (b : List Byte) (c : Nat) (t : State) (e : Nat) : State :=
  ((t.credits e).modPort e (fun x => { x with wire := some {
    bytes := b, hasFcs := true, cls := c, src := .fwd q, k := 0, bound := none, start := t.now, cut := false, seg := t.now,
    cutThrough := true, recv := true } })).send (.txStart e b true)

/-- The egresses `go` start the frame, and the others of the ingress's hold it. -/
def State.cutsStart (s : State) (q : Nat) (b : List Byte) (c : Nat) (go : List Nat) : State :=
  (go.foldl (State.startCut q b c) s).modPort q (fun x => { x with ct := some {
    egress := go, held := (s.egresses q).filter (fun e => !go.contains e), stomped := false } })

section Start

variable (hup : s.portUp q = true) (hlen : s.ctStart q ≤ b.length) (hegr : s.egresses q ≠ []) (hct : (s.port q).ct = none)
include hup hlen hegr hct

theorem exec_cutThroughStart : exec (.cutThroughStart q b (.frame cls false)) s =
    .next (s.cutsStart q b (s.classify q b (cls.map (fun x => x.val)))
      ((s.egresses q).filter (fun e => s.cutOk q e (s.classify q b (cls.map (fun x => x.val))) && !(maybePause b && s.portFdx q)))) :=
  if_neg (by simp [hup, hct, hegr, Nat.not_lt.mpr hlen])

/-- No egress is free for the frame. -/
theorem exec_cutThroughStart_held (h : (s.egresses q).filter (fun e => s.cutOk q e (s.classify q b (cls.map (fun x => x.val)))) = []) :
    exec (.cutThroughStart q b (.frame cls false)) s =
      .next (s.modPort q (fun x => { x with ct := some { egress := [], held := s.egresses q, stomped := false } })) := by
  have hgo : (s.egresses q).filter (fun e => s.cutOk q e (s.classify q b (cls.map (fun x => x.val))) && !(maybePause b && s.portFdx q)) = [] := by
    rw [List.filter_eq_nil_iff] at h ⊢
    intro e he
    simp [h e he]
  rw [exec_cutThroughStart hup hlen hegr hct, hgo, State.cutsStart]
  have hheld : (s.egresses q).filter (fun e => !([] : List Nat).contains e) = s.egresses q := List.filter_eq_self.mpr fun _ _ => rfl
  rw [hheld, List.foldl_nil]

end Start

/-- One egress is free for the frame, which is no PAUSE. -/
theorem exec_cutThroughStart_free {e : Nat} (hup : s.portUp q = true) (hlen : s.ctStart q ≤ b.length) (hegr : s.egresses q = [e])
    (hct : (s.port q).ct = none) (hok : s.cutOk q e (s.classify q b (cls.map (fun x => x.val))) = true) (hpause : maybePause b = false) :
    exec (.cutThroughStart q b (.frame cls false)) s = .next (s.cutsStart q b (s.classify q b (cls.map (fun x => x.val))) [e]) := by
  rw [exec_cutThroughStart hup hlen (by simp [hegr]) hct, hegr]
  simp only [List.filter_cons, hok, hpause, Bool.false_and, Bool.not_false, Bool.and_true, if_true, List.filter_nil]

theorem State.credits_frame (p : Nat) : s.credits p = { s with regs := (s.credits p).regs, ports := (s.credits p).ports } := by
  rw [State.credits]
  split <;> rfl

theorem State.port_credits_of_ne {p n : Nat} (h : n ≠ p) : (s.credits p).port n = s.port n := by
  rw [State.credits, State.port_modPort_of_ne _ _ h]
  split <;> rfl

/-- An egress is another FP port than the ingress (R337). -/
theorem State.egress_of_egresses {e : Nat} (he : s.egresses q = [e]) : e < 4 ∧ e ≠ q.val := by
  have hmem : e ∈ s.egresses q := by simp [he]
  rw [State.egresses] at hmem
  split at hmem
  · simp only [List.mem_filter, List.mem_range, Bool.and_eq_true, bne_iff_ne] at hmem
    exact ⟨hmem.1, hmem.2.1.1⟩
  · simp at hmem

/-- One egress starts the frame: its wire, the ingress's record of it, the output, and no other port. -/
theorem State.cutsStart_one (c : Nat) {e : Nat} (he : s.egresses q = [e]) :
    ((s.cutsStart q b c [e]).port e).wire = some {
      bytes := b, hasFcs := true, cls := c, src := .fwd q, k := 0, bound := none, start := s.now, cut := false, seg := s.now,
      cutThrough := true, recv := true } ∧
    ((s.cutsStart q b c [e]).port q).ct = some { egress := [e], held := [], stomped := false } ∧
    (s.cutsStart q b c [e]).out = .txStart e b true :: s.out ∧ (s.cutsStart q b c [e]).mem = s.mem ∧
    (∀ i, i ≠ e → i ≠ q.val → (s.cutsStart q b c [e]).port i = s.port i) := by
  obtain ⟨hlt, hne⟩ := State.egress_of_egresses he
  have hheld : [e].filter (fun n => !([e].contains n)) = [] := by simp
  have hsent (n : Nat) : (State.startCut q b c s e).port n = ((s.credits e).modPort e (fun x => { x with wire := some {
    bytes := b, hasFcs := true, cls := c, src := .fwd q, k := 0, bound := none, start := s.now, cut := false, seg := s.now,
    cutThrough := true, recv := true } })).port n := rfl
  rw [State.cutsStart, he, hheld, List.foldl_cons, List.foldl_nil]
  refine ⟨?_, ?_, ?_, ?_, fun i hie hiq => ?_⟩
  · rw [State.port_modPort_of_ne _ _ hne, hsent, State.port_modPort_self _ _ _ (by omega)]
  · rw [State.port_modPort_self _ _ _ (by omega)]
  · rw [State.modPort_out, State.startCut, State.credits_frame]
    rfl
  · rw [State.modPort_mem, State.startCut, State.credits_frame]
    rfl
  · rw [State.port_modPort_of_ne _ _ hiq, hsent, State.port_modPort_of_ne _ _ hie, State.port_credits_of_ne hie]

end CutThrough

end Sys2Proof.Machine

open Sys2Proof Sys2Proof.Machine

/-- Settles O44: a frame on a port, told by its length, its check sequence and what it is; the rows of links, of a transmission's end and of
cut-through, case by case. The place of a frame in its region, and its FCS with it, are the model's log entry 28. -/
theorem portFrames : Obligations.PortFrames := by
  intro p q speed fdx loc toHost sent b cls fcs s hinv all go live
  have hw := hinv.regsWf
  refine ⟨fun hen hmode hdown hphy => ?_, exec_linkUp_refused, exec_linkDown_of_down, fun _ => rfl,
    ⟨fun hl hf => (exec_startOfFrame_live hl).trans (congrArg Host.Outcome.next (if_pos hf)),
      fun hl hf => (exec_startOfFrame_live hl).trans (congrArg Host.Outcome.next (if_neg (by simp [hf])))⟩,
    fun hdead => ⟨exec_startOfFrame_dead hdead, exec_rxFrame_dead hdead⟩, fun n x hl hs => exec_rxFrame_stream hl hs,
    fun hl hs hf => exec_rxFrame_half hl hs hf, fun hl hs hf hct => ⟨fun hlen => ?_, fun hmin hmax => ?_⟩, exec_transmitDone_idle,
    fun f hf => ⟨fun r i hsrc => exec_transmitDone_ring hf hsrc, fun i hsrc => exec_transmitDone_fwd hf hsrc⟩,
    fun c hc hs => exec_cutThroughOverlength_long hc hs, fun c hup hlen hegr hct hc hno => ?_, rfl, exec_cutThroughStart_none,
    fun c e hup hlen hegr hct hc hok hpause => ?_⟩
  · obtain ⟨hup, hspeed, hduplex, hchange⟩ := State.get_linked (s := s) (p := p) speed fdx hw
    exact ⟨_, exec_linkUp_accepted hen hmode hdown hphy, hup, hspeed, hduplex, hchange, rfl⟩
  · exact ⟨_, exec_rxFrame_length hl hs hf hct hlen, s.counted _ hw rfl⟩
  · have hlen : ¬ (all.length < 64 ∨ 1522 < all.length) := by omega
    refine ⟨fun hright hstomp => ⟨_, exec_rxFrame_wrong hl hs hf hct hlen hright hstomp, s.counted _ hw rfl⟩,
      fun hstomp => ⟨_, exec_rxFrame_stomped hl hs hf hct hlen hstomp, s.counted _ hw rfl⟩,
      fun hright hpause => exec_rxFrame_pause hl hs hf hct hlen hright hpause, fun hright hpause hegr hcb => ?_⟩
    have hkeeps := exec_rxFrame_keeps (cls := cls) (rt := ⟨loc, toHost⟩) hl hs hf hct hlen hright hpause hegr hcb
    exact ⟨fun hroom => ⟨_, hkeeps, State.keepRx_received_of_room p all loc _ hinv.1 hroom⟩,
      fun hfull => ⟨_, hkeeps, State.keepRx_received_of_full p all loc _ hw hfull⟩⟩
  · subst hc
    exact exec_cutThroughStart_held hup hlen hegr hct hno
  · subst hc
    obtain ⟨hwire, hcut, hout, hmem, hother⟩ := State.cutsStart_one (b := b) (s.classify q b (cls.map (fun x => x.val))) hegr
    exact ⟨_, exec_cutThroughStart_free hup hlen hegr hct hok hpause, hwire, hcut, hout, hmem, fun i _ => hother i⟩

end

section
/-!
SUPPORT. The slew's contribution to one TIME edge (R361, R362, R364): within the limits of the effective increment, and towards a zero remainder.
-/

namespace Sys2Proof.Machine

section Slew

variable (s : State)

/-- What one edge adds stays within 200 ppm of nominal, whatever ADD and the remainder hold. -/
theorem State.slewPart_within : (addMin : Int) ≤ s.get Reg.TIME_ADDEND_ADD + s.slewPart ∧ s.get Reg.TIME_ADDEND_ADD + s.slewPart ≤ (addMax : Int) := by
  simp only [State.slewPart, addMin, addMax]
  omega

variable {s}
variable (hmin : (addMin : Int) ≤ s.get Reg.TIME_ADDEND_ADD) (hmax : s.get Reg.TIME_ADDEND_ADD ≤ (addMax : Int))
include hmin hmax

/-- The limits can only shorten a contribution, since ADD alone is within them. -/
theorem State.slewPart_of_rem_nonneg (h : 0 ≤ s.time.rem) :
    0 ≤ s.slewPart ∧ s.slewPart ≤ slewShare s.time.rate ∧ s.slewPart ≤ s.time.rem := by
  simp only [State.slewPart]
  omega

theorem State.slewPart_of_rem_nonpos (h : s.time.rem ≤ 0) :
    s.slewPart ≤ 0 ∧ -(slewShare s.time.rate : Int) ≤ s.slewPart ∧ s.time.rem ≤ s.slewPart := by
  simp only [State.slewPart]
  omega

end Slew

theorem State.tbEdge_eq (s : State) : s.tbEdge = { s with
    tb := s.tb + BitVec.ofInt 92 (s.get Reg.TIME_ADDEND_ADD + s.slewPart)
    time := { s.time with rem := s.time.rem - s.slewPart, prev := s.now } } := rfl

end Sys2Proof.Machine

open Sys2Proof Sys2Proof.Machine

/-- Settles O26: an edge is `State.tbEdge_eq`, and its slew is limited by `State.slewPart_within` and by the sign of the remainder. -/
theorem timeBaseEdge : Obligations.TimeBaseEdge := by
  intro s p inc share
  obtain ⟨hlow, hhigh⟩ := s.slewPart_within
  exact ⟨by rw [s.tbEdge_eq], by rw [s.tbEdge_eq], by rw [s.tbEdge_eq], hlow, hhigh,
    fun hmin hmax => ⟨State.slewPart_of_rem_nonneg hmin hmax, State.slewPart_of_rem_nonpos hmin hmax⟩⟩

end

section
/-!
SUPPORT. The servo's registers (R362 to R366): who may write them, the limits of ADD, a slew, and a step that is accepted or refused into holdover.
-/

namespace Sys2Proof.Machine

variable {s : State}

/-! ## The owner (R363) -/

section Owner

variable {w : Who} (key : Nat) (f : State → State)

theorem State.steering_of_owner (h : s.steers w = true) : s.steering w key f = f s := if_pos h

theorem State.steering_of_other (h : s.steers w = false) : s.steering w key f = s.accessFault w key 2 := if_neg (Bool.eq_false_iff.mp h)

variable (v : W32)

theorem exec_timeWrites_of_other (h : s.steers w = false) :
    exec (.timeAddendWrite w v) s = .next (s.accessFault w Reg.TIME_ADDEND 2) ∧ exec (.timeSlewWrite w v) s = .next (s.accessFault w Reg.TIME_SLEW 2) ∧
    exec (.stepRequest w v) s = .next (s.accessFault w Reg.TIME_STEP_HI 2) :=
  ⟨congrArg Host.Outcome.next (State.steering_of_other _ _ h), congrArg Host.Outcome.next (State.steering_of_other _ _ h),
    congrArg Host.Outcome.next (State.steering_of_other _ _ h)⟩

end Owner

/-! ## ADD (R362) -/

section Addend

variable (v : Nat)

theorem State.setAddend_frame (x : Int) : s.setAddend x = { s with regs := (s.setAddend x).regs } := by
  rw [State.setAddend]
  split <;> rfl

theorem State.setAddend_of_within (hmin : addMin ≤ v) (hmax : v ≤ addMax) : s.setAddend v = s.set Reg.TIME_ADDEND_ADD v := by
  have hv : max (addMin : Int) (min (addMax : Int) v) = v := by omega
  rw [State.setAddend, hv, if_pos rfl, Int.toNat_natCast]

theorem State.setAddend_of_past (h : v < addMin ∨ addMax < v) :
    s.setAddend v = (s.set Reg.TIME_ADDEND_ADD (if v < addMin then addMin else addMax)).set Reg.TIME_STAT_CLAMP 1 := by
  have hlim : addMin < addMax := by decide
  have hv : max (addMin : Int) (min (addMax : Int) v) = (if v < addMin then addMin else addMax : Nat) := by split <;> omega
  have hne : ((if v < addMin then addMin else addMax : Nat) : Int) ≠ v := by split <;> omega
  rw [State.setAddend, hv, if_neg hne, Int.toNat_natCast]

theorem State.get_clamp_setAddend_of_within (hmin : addMin ≤ v) (hmax : v ≤ addMax) :
    (s.setAddend v).get Reg.TIME_STAT_CLAMP = s.get Reg.TIME_STAT_CLAMP := by
  rw [State.setAddend_of_within v hmin hmax, State.get_set_of_ne _ _ _ _ (by decide)]

variable (hw : s.regsWf = true)
include hw

theorem State.get_add_setAddend :
    (s.setAddend v).get Reg.TIME_ADDEND_ADD = if v < addMin then addMin else if addMax < v then addMax else v := by
  by_cases h : v < addMin ∨ addMax < v
  · rw [State.setAddend_of_past v h, State.get_set_of_ne _ _ _ _ (by decide), State.get_set_self _ _ _ hw rfl]
    by_cases hlow : v < addMin
    · rw [if_pos hlow, if_pos hlow]; rfl
    · rw [if_neg hlow, if_neg hlow, if_pos (h.resolve_left hlow)]; rfl
  · obtain ⟨hlow, hhigh⟩ := not_or.mp h
    have hv : v < 2 ^ 32 := (Nat.not_lt.mp hhigh).trans_lt (by decide)
    rw [State.setAddend_of_within v (Nat.not_lt.mp hlow) (Nat.not_lt.mp hhigh), State.get_set_self _ _ _ hw rfl, if_neg hlow, if_neg hhigh]
    exact Nat.mod_eq_of_lt hv

theorem State.get_clamp_setAddend_of_past (h : v < addMin ∨ addMax < v) : (s.setAddend v).get Reg.TIME_STAT_CLAMP = 1 := by
  rw [State.setAddend_of_past v h, State.get_set_self _ _ _ (State.regsWf_set _ _ _ hw) rfl]
  rfl

end Addend

/-! ## TIME_SLEW (R364) -/

/-- The top byte of a written word. -/
theorem fieldGet_top_byte (v : W32) : fieldGet v 24 8 = v.toNat / 2 ^ 24 := Nat.mod_eq_of_lt (by omega)

theorem exec_timeSlewWrite_of_owner {w : Who} (v : W32) (h : s.steers w = true) :
    exec (.timeSlewWrite w v) s = .next ((s.setWord Reg.TIME_SLEW v).startSlew (v.setWidth 24).toInt (v.toNat / 2 ^ 24)) := by
  rw [← fieldGet_top_byte]
  exact congrArg Host.Outcome.next (State.steering_of_owner _ _ h)

/-! ## Step requests (R366) -/

/-- The two words of a step stand in TIME_STEP as the request is made: the held low word with the written high word (R31). -/
def State.stepWritten (s : State) (lo hi : W32) : State :=
  ({ s with held := s.held.filter (fun p => p.1 != Reg.TIME_STEP_LO) }.setWord Reg.TIME_STEP_LO lo).setWord Reg.TIME_STEP_HI hi

theorem State.word_stepWritten (lo hi : W32) (hw : s.regsWf = true) :
    (s.stepWritten lo hi).word Reg.TIME_STEP_HI = hi ∧ (s.stepWritten lo hi).word Reg.TIME_STEP_LO = lo := by
  have hheld : { s with held := s.held.filter (fun p => p.1 != Reg.TIME_STEP_LO) }.regsWf = true := hw
  rw [State.stepWritten, State.word_setWord_self _ _ _ (State.regsWf_setWord _ _ _ hheld), State.word_setWord_of_ne _ _ _ _ (by decide),
    State.word_setWord_self _ _ _ hheld]
  exact ⟨rfl, rfl⟩

theorem exec_stepRequest_of_owner {w : Who} (v : W32) (h : s.steers w = true) :
    let lo := (s.heldAt Reg.TIME_STEP_LO).getD (s.word Reg.TIME_STEP_LO)
    exec (.stepRequest w v) s = .next ((s.stepWritten lo v).stepRequest (v ++ lo)) :=
  congrArg Host.Outcome.next (State.steering_of_owner _ _ h)

theorem State.stepOk_iff (d : Int) : s.stepOk d = true ↔
    s.get Reg.TIME_STAT_VALID = 0 ∨ (s.get Reg.TIME_STAT_HOLD = 0 ∧ d.natAbs ≤ s.get Reg.TIME_JUMPLIM_LIM) := by
  simp [State.stepOk, State.on]

theorem State.stepRequest_of_ok {d : BitVec 64} (h : s.stepOk d.toInt = true) :
    s.stepRequest d = { s with time := { s.time with steps := s.time.steps ++ [(d.toInt, none)] } } := if_pos h

section Refused

variable (d : BitVec 64)

/-- The registers that a refused step leaves: the pending step under its number, and holdover. -/
def State.heldOver (s : State) (d : BitVec 64) : State :=
  ((((s.setWord64 Reg.TIME_PEND_LO Reg.TIME_PEND_HI d).set Reg.TIME_REFNUM_NUM (nextSeq (s.get Reg.TIME_REFNUM_NUM))).set
    Reg.TIME_STAT_HOLD 1).set Reg.TIME_STAT_REFUSED 1).count Reg.TIME_REFCNT_COUNT 1

/-- A refused step: its registers, and the ledger entry 0x0701. -/
theorem State.stepRequest_of_refused (h : s.stepOk d.toInt = false) : ∃ detail flags, s.stepRequest d =
    { s.heldOver d with time := { s.time with granted := false, refusedSince := true } }.recordF 0x0701 0xFF detail flags :=
  ⟨_, _, if_neg (Bool.eq_false_iff.mp h)⟩

theorem State.get_heldOver (hw : s.regsWf = true) :
    (s.heldOver d).get Reg.TIME_STAT_HOLD = 1 ∧ (s.heldOver d).get Reg.TIME_STAT_REFUSED = 1 ∧
    (s.heldOver d).get Reg.TIME_REFNUM_NUM = nextSeq (s.get Reg.TIME_REFNUM_NUM) := by
  have h1 := s.regsWf_setWord64 Reg.TIME_PEND_LO Reg.TIME_PEND_HI d hw
  have h2 := State.regsWf_set _ Reg.TIME_REFNUM_NUM (nextSeq (s.get Reg.TIME_REFNUM_NUM)) h1
  have h3 := State.regsWf_set _ Reg.TIME_STAT_HOLD 1 h2
  have hnum : s.get Reg.TIME_REFNUM_NUM < 2 ^ 32 := Nat.mod_lt _ (by decide)
  have hseq : nextSeq (s.get Reg.TIME_REFNUM_NUM) < 2 ^ 32 := by unfold nextSeq; split <;> omega
  rw [State.heldOver, State.count]
  refine ⟨?_, ?_, ?_⟩
  · rw [State.get_set_of_ne _ _ _ _ (by decide), State.get_set_of_apart _ _ _ _ h3 rfl rfl, State.get_set_self _ _ _ h2 rfl]
    rfl
  · rw [State.get_set_of_ne _ _ _ _ (by decide), State.get_set_self _ _ _ h3 rfl]
    rfl
  · rw [State.get_set_of_ne _ _ _ _ (by decide), State.get_set_of_ne _ _ _ _ (by decide), State.get_set_of_ne _ _ _ _ (by decide),
      State.get_set_self _ _ _ h1 rfl]
    exact Nat.mod_eq_of_lt hseq

theorem State.word64_heldOver (hw : s.regsWf = true) : (s.heldOver d).word64 Reg.TIME_PEND_LO Reg.TIME_PEND_HI = d := by
  rw [State.heldOver, State.count, State.word64_set_of_ne _ _ _ _ _ (by decide) (by decide), State.word64_set_of_ne _ _ _ _ _ (by decide) (by decide),
    State.word64_set_of_ne _ _ _ _ _ (by decide) (by decide), State.word64_set_of_ne _ _ _ _ _ (by decide) (by decide),
    State.word64_setWord64_self _ _ _ _ hw (by decide)]

end Refused

theorem State.get_recordF_of_ne (code unit detail flags : Nat) (f : Fld) (h : f.addr ≠ Reg.PWR_LEDHEAD) :
    (s.recordF code unit detail flags).get f = s.get f := by
  rw [State.get, State.word_recordF_of_ne _ _ _ _ _ _ h, State.get]

theorem State.word64_recordF_of_ne (code unit detail flags lo hi : Nat) (hlo : lo ≠ Reg.PWR_LEDHEAD) (hhi : hi ≠ Reg.PWR_LEDHEAD) :
    (s.recordF code unit detail flags).word64 lo hi = s.word64 lo hi := by
  rw [State.word64, State.word_recordF_of_ne _ _ _ _ _ _ hlo, State.word_recordF_of_ne _ _ _ _ _ _ hhi, State.word64]

/-- What the registers, the time state and the ledger hold behind a refused step. -/
theorem State.stepRequest_refused (d : BitVec 64) (hw : s.regsWf = true) (h : s.stepOk d.toInt = false) :
    (s.stepRequest d).get Reg.TIME_STAT_HOLD = 1 ∧ (s.stepRequest d).get Reg.TIME_STAT_REFUSED = 1 ∧
    (s.stepRequest d).get Reg.TIME_REFNUM_NUM = nextSeq (s.get Reg.TIME_REFNUM_NUM) ∧
    (s.stepRequest d).word64 Reg.TIME_PEND_LO Reg.TIME_PEND_HI = d ∧ (s.stepRequest d).time.steps = s.time.steps ∧
    (s.stepRequest d).ledger.head?.map (fun x => x.code) = some 0x0701 := by
  obtain ⟨detail, flags, heq⟩ := State.stepRequest_of_refused d h
  obtain ⟨hhold, hrefused, hnum⟩ := State.get_heldOver d hw
  rw [heq, State.get_recordF_of_ne _ _ _ _ _ (by decide), State.get_recordF_of_ne _ _ _ _ _ (by decide),
    State.get_recordF_of_ne _ _ _ _ _ (by decide), State.word64_recordF_of_ne _ _ _ _ _ _ (by decide) (by decide)]
  exact ⟨hhold, hrefused, hnum, State.word64_heldOver d hw, rfl, rfl⟩

/-! ## The end of a slew (R364) -/

theorem exec_slewEnd_last (h : s.slewPart = s.time.rem) :
    exec .slewEnd s = .next { s.addTb s.time.rem with time := { s.time with rem := 0 } } := congrArg Host.Outcome.next (if_pos h)

theorem exec_slewEnd_early (h : s.slewPart ≠ s.time.rem) : exec .slewEnd s = .next s := congrArg Host.Outcome.next (if_neg h)

end Sys2Proof.Machine

open Sys2Proof Sys2Proof.Machine

/-- Settles O29: a write that steers is its effect or an access fault, and a step request is accepted or refused by `State.stepOk_iff`. That
SLEW_END adds what one edge can add is the model's log entry 24. -/
theorem timeCommands : Obligations.TimeCommands := by
  intro w v s
  refine ⟨exec_timeWrites_of_other v, fun hsteers hinv => ?_, fun d => ⟨fun hok => ?_, fun hinv hvalid hrefused => ?_⟩,
    fun hlast => ⟨_, exec_slewEnd_last hlast, rfl, rfl⟩, exec_slewEnd_early, rfl⟩
  · have hw := hinv.regsWf
    obtain ⟨hhi, hlo⟩ := State.word_stepWritten ((s.heldAt Reg.TIME_STEP_LO).getD (s.word Reg.TIME_STEP_LO)) v hw
    exact ⟨⟨s.setAddend v.toNat, congrArg Host.Outcome.next (State.steering_of_owner _ _ hsteers), State.get_add_setAddend v.toNat hw,
        State.get_clamp_setAddend_of_past v.toNat hw, State.get_clamp_setAddend_of_within v.toNat, State.setAddend_frame _⟩,
      ⟨_, exec_timeSlewWrite_of_owner v hsteers, rfl, rfl, rfl⟩, ⟨_, _, exec_stepRequest_of_owner v hsteers, rfl, hhi, hlo, rfl⟩⟩
  · exact State.stepRequest_of_ok (State.stepOk_iff d.toInt |>.mpr hok)
  · have hno : s.stepOk d.toInt = false := by
      rw [Bool.eq_false_iff, Ne, State.stepOk_iff]
      omega
    exact State.stepRequest_refused d hinv.regsWf hno

end

section
/-!
SUPPORT. A step runs the queue's front or passes a TIME edge; an instruction is its effect when its engine issues.
-/

namespace Sys2Proof.Machine

theorem exec_of_engineOf {i : Instr} {e : Fin 16} (h : engineOf i = some e) : ∃ f, ∀ s, exec i s = .next (s.issueG e f) := by
  unfold engineOf at h
  split at h
  case h_1 => exact Option.some.inj h ▸ ⟨_, fun _ => rfl⟩
  case h_2 =>
    revert h
    fun_cases encodeGrg i
    case case78 => exact fun h => nomatch h
    all_goals exact fun h => Option.some.inj h ▸ ⟨_, fun _ => rfl⟩

theorem State.issueG_of_idle (s : State) (e : Nat) (f : Effect) (h : s.issues e = false) : s.issueG e f = s := if_neg (by simp [h])

end Sys2Proof.Machine

open Sys2Proof Sys2Proof.Machine

/-- Settles O1. -/
theorem stepRunsTheFrontCommand : Obligations.StepRunsTheFrontCommand := by
  intro c r s h
  simp only [step, h]

/-- Settles O2. -/
theorem emptyQueuePassesATimeEdge : Obligations.EmptyQueuePassesATimeEdge := by
  intro s h
  simp only [step, h]

/-- Settles O3: at reset no register and no byte is listed, so each reads as the model's reset value. -/
theorem resetMeetsTheInvariant : Obligations.ResetMeetsTheInvariant :=
  ⟨⟨rfl, rfl, Nat.zero_le _⟩, fun _ => rfl, by decide, by decide, by decide, by decide, by decide, by decide, by decide, rfl, rfl,
    fun _ => rfl, by decide⟩

/-- Settles O7: such an engine does not issue, and an instruction is its effect only where the engine issues. -/
theorem nothingIssuesWithoutARunningTask : Obligations.NothingIssuesWithoutARunningTask := by
  intro i e s hi hidle
  obtain ⟨f, hf⟩ := exec_of_engineOf hi
  have hno : s.issues e = false := by
    cases hcur : (s.engN e).cur with
    | none => simp only [State.issues, hcur]
    | some r =>
      rw [hcur] at hidle
      rcases hidle with hstall | hhalt
      · simp [State.issues, hcur, hstall]
      · simp [State.issues, hcur, hhalt]
  rw [hf, s.issueG_of_idle e f hno]

/-- Settles O25: the entry is put before the others and the list cut at 256; of the registers only PWR_LEDHEAD is written. -/
theorem ledgerEntryIsWritten : Obligations.LedgerEntryIsWritten := by
  intro s code unit detail h
  refine ⟨?_, ⟨_, rfl, rfl, rfl, rfl, rfl, rfl, rfl, rfl⟩, fun key hkey => s.word_recordF_of_ne _ _ _ _ key hkey, rfl⟩
  have hlt : s.get Reg.PWR_LEDHEAD_SEQ < 2 ^ 32 := Nat.mod_lt _ (by decide)
  refine (State.get_set_self _ Reg.PWR_LEDHEAD_SEQ _ h.regsWf (by decide)).trans (Nat.mod_eq_of_lt ?_)
  show nextSeq _ < 2 ^ 32
  unfold nextSeq
  split <;> omega

end

section
/-!
SUPPORT. The invariant of the canonical forms and of the ledger's limit (R657), operation by operation, in the order of the model: what each
leaves meets it if what it was given does. Only a write of a register, of memory or of the ledger touches a part the invariant speaks of.
-/

namespace Sys2Proof.Machine

/-! ## How the invariant passes through what operations are made of -/

theorem State.Inv.frame {s t : State} (h : s.Inv) (hmem : t.mem = s.mem) (hregs : t.regs = s.regs) (hledger : t.ledger = s.ledger) : t.Inv := by
  unfold State.Inv
  rw [hmem, hregs, hledger]
  exact h

/-- The same where every other part is written out. -/
theorem State.Inv.beside {s : State} {caps} {held} {eccUnc} {eccOne} {tb} {freeCtr} {out} {outWait} {eng} {hoard} {prs} {hif} {pcie} {ports}
    {cans} {video} {vidDrain} {hearth} {time} {chain} {loops} {lsw} {tongs} {pio} {tmr} {pend} {power} {ing} {temper} {sec} {tap} {collect}
    {pending} (h : s.Inv) :
    (State.mk s.regs caps held s.mem eccUnc eccOne tb freeCtr out outWait s.ledger eng hoard prs hif pcie ports cans video vidDrain hearth
      time chain loops lsw tongs pio tmr pend power ing temper sec tap collect pending).Inv := h

theorem State.Inv.ite {c : Prop} [Decidable c] {s t : State} (hs : s.Inv) (ht : t.Inv) : (if c then s else t).Inv := by
  split <;> assumption

theorem State.Inv.ite2 {α : Type} {c : Prop} [Decidable c] {p q : α × State} (hp : p.2.Inv) (hq : q.2.Inv) : (if c then p else q).2.Inv := by
  split <;> assumption

theorem State.Inv.ite21 {α β : Type} {c : Prop} [Decidable c] {p q : α × State × β} (hp : p.2.1.Inv) (hq : q.2.1.Inv) :
    (if c then p else q).2.1.Inv := by
  split <;> assumption

theorem State.Inv.ofEq {α : Type} {p : α × State} {a : α} {t : State} (h : p.2.Inv) (hp : p = (a, t)) : t.Inv := by
  subst hp
  exact h

theorem State.Inv.ofEq3 {α β : Type} {p : α × β × State} {a : α} {b : β} {t : State} (h : p.2.2.Inv) (hp : p = (a, b, t)) : t.Inv := by
  subst hp
  exact h

theorem State.Inv.foldl {α : Type} {l : List α} {f : State → α → State} {s : State} (h : s.Inv) (hf : ∀ t a, t.Inv → (f t a).Inv) :
    (l.foldl f s).Inv := by
  induction l generalizing s with
  | nil => exact h
  | cons a l ih => exact ih (hf s a h)

theorem State.Inv.foldlOn {α β : Type} {l : List α} {f : β → α → β} {b : β} (g : β → State) (h : (g b).Inv)
    (hf : ∀ b a, (g b).Inv → (g (f b a)).Inv) : (g (l.foldl f b)).Inv := by
  induction l generalizing b with
  | nil => exact h
  | cons a l ih => exact ih (hf b a h)

/-- The effect of an instruction keeps the invariant. -/
structure Effect.Keeps (f : Effect) : Prop where
  keeps : ∀ {s : State} {r : Run} {c : Ctx}, s.Inv → (f s r c).Inv

/-- So does the effect a word decodes to, if any. -/
def Effect.KeepsOpt (o : Option Effect) : Prop := ∀ f ∈ o, Effect.Keeps f

theorem Effect.KeepsOpt.none : Effect.KeepsOpt none := fun _ hf => nomatch hf

theorem Effect.KeepsOpt.some {f : Effect} (hf : Effect.Keeps f) : Effect.KeepsOpt (some f) := fun _ hg => Option.some.inj hg ▸ hf

theorem Effect.KeepsOpt.ite {c : Prop} [Decidable c] {o p : Option Effect} (ho : Effect.KeepsOpt o) (hp : Effect.KeepsOpt p) :
    Effect.KeepsOpt (if c then o else p) := by
  split <;> assumption

theorem Effect.KeepsOpt.zeros {b : Bool} {f : Effect} (hf : Effect.Keeps f) : Effect.KeepsOpt (zeros b f) := .ite (.some hf) .none

/-- A command answers a next state, which meets the invariant if s does. -/
def Answers (s : State) : Host.Outcome State Fault Refusal → Prop
  | .next t => s.Inv → t.Inv
  | _ => False

theorem Answers.same {s : State} : Answers s (.next s) := fun h => h

theorem Answers.ite {c : Prop} [Decidable c] {s : State} {o p : Host.Outcome State Fault Refusal} (ho : Answers s o) (hp : Answers s p) :
    Answers s (if c then o else p) := by
  split <;> assumption

theorem Answers.checked {c : Prop} [Decidable c] {s : State} {o : Host.Outcome State Fault Refusal} (hc : ¬ c) (ho : Answers s o) :
    Answers s (if c then .fault .illFormed else o) := by
  rwa [if_neg hc]

theorem Answers.next {s : State} {o : Host.Outcome State Fault Refusal} (h : Answers s o) : ∃ t, o = .next t := by
  cases o with
  | next t => exact ⟨t, rfl⟩
  | fault r => exact h.elim
  | refused r => exact h.elim

/-- The state that is due, if any, meets the invariant. -/
def State.InvOpt (o : Option State) : Prop := ∀ t ∈ o, t.Inv

theorem State.InvOpt.none : State.InvOpt none := fun _ ht => nomatch ht

theorem State.InvOpt.some {s : State} (h : s.Inv) : State.InvOpt (some s) := fun _ ht => Option.some.inj ht ▸ h

theorem State.InvOpt.ite {c : Prop} [Decidable c] {o p : Option State} (ho : State.InvOpt o) (hp : State.InvOpt p) :
    State.InvOpt (if c then o else p) := by
  split <;> assumption

theorem State.InvOpt.map {α : Type} {o : Option α} {f : α → State} (hf : ∀ a, (f a).Inv) : State.InvOpt (o.map f) := by
  cases o with
  | none => exact .none
  | some a => exact .some (hf a)

/-! ## Registers, memory, outputs and the ledger -/

section

variable {s : State}

theorem State.Inv.setWord {key : Nat} {v : W32} (h : s.Inv) : (s.setWord key v).Inv :=
  ⟨h.1, s.regsWf_setWord _ _ h.2.1, h.2.2⟩

theorem State.Inv.set {f : Fld} {v : Nat} (h : s.Inv) : (s.set f v).Inv :=
  .setWord h

theorem State.Inv.setB {f : Fld} {b : Bool} (h : s.Inv) : (s.setB f b).Inv :=
  .set h

theorem State.Inv.count {f : Fld} {n : Nat} (h : s.Inv) : (s.count f n).Inv :=
  .set h

theorem State.Inv.setWord64 {lo hi : Nat} {v : BitVec 64} (h : s.Inv) : (s.setWord64 lo hi v).Inv :=
  .setWord (.setWord h)

theorem State.Inv.wr {k : Nat} {bs : List Byte} (h : s.Inv) : (s.wr k bs).Inv :=
  ⟨Memory.wf_writeN _ _ _ h.1, h.2⟩

theorem State.Inv.send {o : Output} (h : s.Inv) : (s.send o).Inv :=
  .frame h rfl rfl rfl

theorem State.Inv.free (h : s.Inv) : (s.free.2).Inv :=
  .frame h rfl rfl rfl

theorem State.Inv.recordF {code unit detail flags : Nat} (h : s.Inv) : (s.recordF code unit detail flags).Inv :=
  ⟨h.1, s.regsWf_set _ _ h.2.1, s.ledger_recordF_length _ _ _ _⟩

theorem State.Inv.record {code unit detail : Nat} (h : s.Inv) : (s.record code unit detail).Inv :=
  .recordF h

theorem State.Inv.each {n : Nat} {f : Nat → State → State} (h : s.Inv) (hf : ∀ (a0 : Nat) (t : State), t.Inv → (f a0 t).Inv) : (s.each n f).Inv :=
  .foldl h fun _ _ h1 => hf _ _ h1

theorem State.Inv.when {b : Bool} {f : State → State} (h : s.Inv) (hf : ∀ (t : State), t.Inv → (f t).Inv) : (s.when b f).Inv :=
  .ite (hf _ h) h

theorem State.Inv.modEng {e : Nat} {f : Eng → Eng} (h : s.Inv) : (s.modEng e f).Inv :=
  .frame h rfl rfl rfl

theorem State.Inv.modRing {n : Nat} {f : Machine.Ring → Machine.Ring} (h : s.Inv) : (s.modRing n f).Inv :=
  .frame h rfl rfl rfl

theorem State.Inv.modPort {p : Nat} {f : Port → Port} (h : s.Inv) : (s.modPort p f).Inv :=
  .frame h rfl rfl rfl

end

/-! ## Rings: addresses, completions and consumption -/

section

variable {s : State}

theorem State.Inv.sendPf0 {o : Output} (h : s.Inv) : (s.sendPf0 o).Inv := by
  dsimp only [State.sendPf0]
  split
  exacts [.send (.frame h rfl rfl rfl), .send h]

theorem State.Inv.drainList {l : List Output} (h : s.Inv) : (s.drainList l).2.Inv := by
  induction l generalizing s with
  | nil => exact h
  | cons o r ih =>
    unfold State.drainList
    split
    exacts [ih (.sendPf0 h), ih h]

theorem State.Inv.drainWait (h : s.Inv) : s.drainWait.Inv := by
  dsimp only [State.drainWait]
  exact .beside (.drainList h)

theorem State.Inv.issue {o : Output} (h : s.Inv) : (s.issue o).Inv :=
  .drainWait (.frame h rfl rfl rfl)

theorem State.Inv.landed {w : ReadFor} {one : Bool} (h : s.Inv) : (s.landed w one).Inv :=
  .ite (.drainWait (.frame h rfl rfl rfl)) h

theorem State.Inv.vecEvent {v : Nat} (h : s.Inv) : (s.vecEvent v).Inv :=
  .ite h (.frame h rfl rfl rfl)

theorem State.Inv.ringEvent {n : Nat} (h : s.Inv) : (s.ringEvent n).Inv :=
  .ite h (.vecEvent h)

theorem State.Inv.writeCpl {n : Nat} {d : Desc} {r : Nat × Option (BitVec 16) × Option W32} (h : s.Inv) : (s.writeCpl n d r).Inv :=
  .ite (.ringEvent (.issue h)) (.issue h)

theorem State.Inv.writeChain {n : Nat} {c : List Desc} (h : s.Inv) : (State.writeChain n s c).Inv :=
  .foldl h fun _ _ h1 => (by split; exacts [.ite h1 (.writeCpl h1), h1])

theorem State.Inv.writeDue {inOrder : Bool} {n : Nat} {l : List (List Desc)} (h : s.Inv) : (State.writeDue inOrder n l s).2.Inv := by
  induction l generalizing s with
  | nil => exact h
  | cons c q ih =>
    unfold State.writeDue
    split
    · exact ih (.writeChain h)
    · split
      exacts [h, ih h]

theorem State.Inv.writeRing {n : Nat} (h : s.Inv) : (s.writeRing n).Inv :=
  .ite h (.modRing (.writeDue h))

theorem State.Inv.modDesc {n : Nat} {p : Desc → Bool} {f : Desc → Desc} (h : s.Inv) : (s.modDesc n p f).Inv :=
  .modRing h

theorem State.Inv.settleFences {f : Nat} (h : s.Inv) : (State.settleFences f s).Inv := by
  induction f generalizing s with
  | zero => exact h
  | succ f ih =>
    unfold State.settleFences
    split
    exacts [h, ih (.writeRing (.modDesc h))]

theorem State.Inv.flushRing {n : Nat} (h : s.Inv) : (s.flushRing n).Inv :=
  .settleFences (.writeRing h)

theorem State.Inv.finish {n : Nat} {p : Desc → Bool} {st : Nat} {led : Option (BitVec 16)} {time : Option W32} (h : s.Inv)
    : (s.finish n p st led time).Inv :=
  .flushRing (.modDesc h)

theorem State.Inv.noteSeq {n : Nat} (h : s.Inv) : (s.noteSeq n).Inv :=
  .modRing h

theorem State.Inv.doneNow {n : Nat} {p : Desc → Bool} (h : s.Inv) : (s.doneNow n p).Inv :=
  .finish h

theorem State.Inv.endWithEntry {n : Nat} {p : Desc → Bool} {st : Nat} (h : s.Inv) : (s.endWithEntry n p st).Inv :=
  .finish (.noteSeq h)

theorem State.Inv.endWithSeq {n : Nat} {p : Desc → Bool} {st q : Nat} (h : s.Inv) : (s.endWithSeq n p st q).Inv :=
  .finish (.modRing h)

theorem State.Inv.endNoEntry {n : Nat} {p : Desc → Bool} {st : Nat} (h : s.Inv) : (s.endNoEntry n p st).Inv :=
  .finish (.free h)

theorem State.Inv.recordRing {code n idx errcode tag : Nat} (h : s.Inv) : (s.recordRing code n idx errcode tag).Inv :=
  .noteSeq (.record h)

theorem State.Inv.ringError {n code : Nat} (h : s.Inv) : (s.ringError n code).Inv :=
  .vecEvent (.recordRing (.set (.set h)))

theorem State.Inv.start {n : Nat} {d : Desc} (h : s.Inv) : (s.start n d).Inv :=
  .modDesc h

theorem State.Inv.abandonMig (h : s.Inv) : s.abandonMig.Inv :=
  .set (.frame h rfl rfl rfl)

theorem State.Inv.noteReset {kind : Nat} (h : s.Inv) : (s.noteReset kind).Inv :=
  .record (.set (.set (.beside (.abandonMig h))))

end

/-! ## The Hoard's accesses -/

section

variable {s : State}

theorem State.Inv.recordAccess {code req addr : Nat} {write : Bool} (h : s.Inv) : (s.recordAccess code req addr write).Inv :=
  .record h

theorem State.Inv.correct {g : Nat} (h : s.Inv) : (s.correct g).Inv :=
  .ite (.count (.count (.frame h rfl rfl rfl))) h

theorem State.Inv.uncorrectable {req g : Nat} {write : Bool} (h : s.Inv) : (s.uncorrectable req g write).Inv :=
  .set (.set (.count (.recordAccess h)))

theorem State.Inv.checkGranules {req : Nat} {gs : List Nat} {write : Bool} (h : s.Inv) : (s.checkGranules req gs write).2.Inv :=
  .foldl h fun _ _ h1 => .ite (.uncorrectable h1) (.correct h1)

theorem State.Inv.hoardCheck {req o n : Nat} {write : Bool} (h : s.Inv) : (s.hoardCheck req o n write).2.Inv :=
  .checkGranules h

theorem State.Inv.cleanEcc {k n : Nat} (h : s.Inv) : (s.cleanEcc k n).Inv :=
  .frame h rfl rfl rfl

theorem State.Inv.modHoard {f : Hoard → Hoard} (h : s.Inv) : (s.modHoard f).Inv :=
  .frame h rfl rfl rfl

theorem State.Inv.raiseEcc {core : Nat} (h : s.Inv) : (s.raiseEcc core).Inv := by
  dsimp only [State.raiseEcc]
  split
  exacts [h, .modEng h]

theorem State.Inv.markLine {line : Nat} (h : s.Inv) : (s.markLine line).Inv :=
  .frame h rfl rfl rfl

theorem State.Inv.putLine {line : Nat} {data : List Byte} {bad : Bool} (h : s.Inv) : (s.putLine line data bad).Inv :=
  .ite (.markLine (.wr h)) (.cleanEcc (.wr h))

theorem State.Inv.recall {line : Nat} {inv : Bool} (h : s.Inv) : (s.recall line inv).Inv := by
  dsimp only [State.recall]
  exact .beside (by
        split
        · exact .ite (.raiseEcc (.putLine h)) (.putLine h)
        · split
          exacts [.putLine h, h])

theorem State.Inv.performMiss {line : Nat} {r : Run} (h : s.Inv) : (s.performMiss line r).2.Inv := by
  dsimp only [State.performMiss]
  split
  · split
    · exact h
    · split
      exacts [.cleanEcc (.wr h), h]
  · exact h

theorem State.Inv.settleMiss {line e : Nat} (h : s.Inv) : (s.settleMiss line e).Inv := by
  dsimp only [State.settleMiss]
  split
  · exact h
  · split
    · split
      exacts [.modEng (.performMiss h), h]
    · split
      exacts [.modEng (.performMiss h), h]

theorem State.Inv.settleLine {line : Nat} {inv : Bool} (h : s.Inv) : (s.settleLine line inv).Inv :=
  .foldl (.recall h) fun _ _ h1 => .settleMiss h1

theorem State.Inv.recallAll {o n : Nat} {inv : Bool} (h : s.Inv) : (s.recallAll o n inv).Inv :=
  .foldl h fun _ _ h1 => .ite (.settleLine h1) (.ite (.recall h1) h1)

theorem State.Inv.readChecked {deny : Option Nat} {req o n : Nat} {burst : Bool} (h : s.Inv) : (s.readChecked deny req o n burst).2.Inv := by
  dsimp only [State.readChecked]
  split
  exacts [.recordAccess h, .checkGranules (.recallAll h)]

theorem State.Inv.readOp {req o n : Nat} {burst : Bool} (h : s.Inv) : (s.readOp req o n burst).2.Inv :=
  .readChecked h

theorem State.Inv.writeOp {req o : Nat} {bs : List Byte} (h : s.Inv) : (s.writeOp req o bs).2.Inv := by
  dsimp only [State.writeOp]
  split
  · exact .recordAccess h
  · split
    exacts [.checkGranules (.recallAll h), .cleanEcc (.wr (.checkGranules (.recallAll h)))]

theorem State.Inv.hoardReadAs {burst : Bool} {req o n : Nat} (h : s.Inv) : (s.hoardReadAs burst req o n).2.Inv :=
  .foldlOn Prod.snd h fun _ _ h1 => .readOp h1

theorem State.Inv.hoardRead {req o n : Nat} (h : s.Inv) : (s.hoardRead req o n).2.Inv :=
  .hoardReadAs h

theorem State.Inv.hoardWrite {req o : Nat} {bs : List Byte} (h : s.Inv) : (s.hoardWrite req o bs).2.Inv :=
  .foldlOn Prod.snd h fun _ _ h1 => .writeOp h1

theorem State.Inv.flushCore {core : Nat} (h : s.Inv) : (s.flushCore core).Inv := by
  dsimp only [State.flushCore]
  exact .beside (.foldl (.modHoard (.foldl h fun _ _ h1 => (by split; exacts [.putLine h1, h1]))) fun _ _ h1 => .ite (.ite (.raiseEcc
      (.putLine h1)) (.putLine h1)) h1)

end

/-! ## Engine records -/

section

variable {s : State}

theorem State.Inv.subAbandon {e : Nat} (h : s.Inv) : (s.subAbandon e).Inv :=
  .ite (.record (.set (.set h))) h

theorem State.Inv.skipTodo {e : Nat} (h : s.Inv) : (s.skipTodo e).Inv :=
  .count (.modEng h)

theorem State.Inv.resetEng {e : Nat} (h : s.Inv) : (s.resetEng e).Inv :=
  .record (.free (.set (.set (.modEng (.flushCore (.skipTodo (.subAbandon (.abandonMig h))))))))

end

/-! ## Load switches: levels and channels -/

section

variable {s : State}

theorem State.Inv.modChan {c : Nat} {f : Chan → Chan} (h : s.Inv) : (s.modChan c f).Inv :=
  .frame h rfl rfl rfl

theorem State.Inv.modHb {n : Nat} {f : HalfBridge → HalfBridge} (h : s.Inv) : (s.modHb n f).Inv :=
  .frame h rfl rfl rfl

theorem State.Inv.markBlocked (h : s.Inv) : s.markBlocked.Inv :=
  .each h (fun _ _ h1 => .ite (.set h1) h1)

theorem State.Inv.bringPin {pin : Nat} {level : Bool} (h : s.Inv) : (s.bringPin pin level).Inv :=
  .frame h rfl rfl rfl

theorem State.Inv.setOn {c : Nat} {on : Bool} (h : s.Inv) : (s.setOn c on).Inv :=
  .ite (.setB h) (.set (.setB h))

theorem State.Inv.drive {c : Nat} {d : Drive} (h : s.Inv) : (s.drive c d).Inv :=
  .setOn (.modChan h)

theorem State.Inv.dropLoop {c : Nat} (h : s.Inv) : (s.dropLoop c).Inv :=
  .ite (.modChan h) h

theorem State.Inv.refreshChan {c : Nat} (h : s.Inv) : (s.refreshChan c).Inv :=
  .drive (.set (.dropLoop h))

theorem State.Inv.refreshPair {n : Nat} (h : s.Inv) : (s.refreshPair n).Inv :=
  .drive (.drive (.ite (.modHb (.set (.set (.modHb (.ite (.record (.modChan (.set (.set (.modChan (.set (.set (.dropLoop (.dropLoop h)))))))))
      (.dropLoop (.dropLoop h))))))) (.ite (.modHb (.set (.set (.set (.set (.modHb (.ite (.record (.modChan (.set (.set (.modChan (.set (.set
      (.dropLoop (.dropLoop h))))))))) (.dropLoop (.dropLoop h))))))))) (.ite (.modHb (.set (.set (.modHb (.ite (.record (.modChan (.set (.set
      (.modChan (.set (.set (.dropLoop (.dropLoop h))))))))) (.dropLoop (.dropLoop h))))))) (.modHb (.set (.set (.set (.set (.modHb (.ite
      (.record (.modChan (.set (.set (.modChan (.set (.set (.dropLoop (.dropLoop h))))))))) (.dropLoop (.dropLoop h)))))))))))))

theorem State.Inv.refreshLsw (h : s.Inv) : s.refreshLsw.Inv :=
  .each (.markBlocked h) (fun _ _ h1 => .ite (.refreshPair h1) (.refreshChan (.refreshChan h1)))

theorem State.Inv.commitLsw (h : s.Inv) : s.commitLsw.Inv :=
  .refreshLsw (.beside (.each h (fun _ _ h1 => .modChan h1)))

theorem State.Inv.commitIdle (h : s.Inv) : s.commitIdle.Inv :=
  .ite h (.commitLsw h)

theorem State.Inv.safeLsw (h : s.Inv) : s.safeLsw.Inv :=
  .refreshLsw (.beside (.each h (fun _ _ h1 => .modChan h1)))

end

/-! ## Ports and their queues -/

section

variable {s : State}

theorem State.Inv.halfPort {p : Nat} {f : Port → Port} (h : s.Inv) : (s.halfPort p f).Inv :=
  .ite h (.modPort h)

theorem State.Inv.modLink {l : Nat} {f : Link → Link} (h : s.Inv) : (s.modLink l f).Inv :=
  .frame h rfl rfl rfl

theorem State.Inv.setHeld {u : Nat} {b : Bool} (h : s.Inv) : (s.setHeld u b).Inv :=
  .ite (.modPort h) (.modLink h)

theorem State.Inv.unbind {u : Nat} {all : Bool} (h : s.Inv) : (s.unbind u all).Inv :=
  .ite (.modPort h) h

theorem State.Inv.checkVoid {u : Nat} (h : s.Inv) : (s.checkVoid u).Inv := by
  dsimp only [State.checkVoid]
  split
  exacts [h, .ite (.record (.set (.set (.setHeld (.unbind h))))) (.unbind h)]

theorem State.Inv.checkResume {u : Nat} (h : s.Inv) : (s.checkResume u).Inv := by
  dsimp only [State.checkResume]
  split
  · exact .ite (.modPort h) h
  · exact .ite (.ite (.modPort h) h) (.ite (.record (.set (.set (.setHeld (.ite (.modPort h) h))))) (.setHeld (.ite (.modPort h) h)))

theorem State.Inv.checkVoids (h : s.Inv) : s.checkVoids.Inv :=
  .foldl h fun _ _ h1 => .checkVoid h1

theorem State.Inv.checkResumes (h : s.Inv) : s.checkResumes.Inv :=
  .foldl h fun _ _ h1 => .checkResume h1

theorem State.Inv.credits {p : Nat} (h : s.Inv) : (s.credits p).Inv :=
  .modPort (.ite (.set h) h)

theorem State.Inv.checkMiss {p : Nat} {f : Frame} (h : s.Inv) : (s.checkMiss p f).Inv := by
  dsimp only [State.checkMiss]
  split
  exacts [h, .ite (.count (.record h)) h]

theorem State.Inv.startFrame {p : Nat} {f : Frame} (h : s.Inv) : (s.startFrame p f).Inv :=
  .send (.credits (.modPort (.checkMiss (.credits h))))

theorem State.Inv.selectFree {p : Nat} (h : s.Inv) : (s.selectFree p).Inv := by
  dsimp only [State.selectFree]
  split
  · split
    exacts [.startFrame h, .ite (.modPort h) h]
  · split
    exacts [.startFrame h, h]

theorem State.Inv.select {p : Nat} (h : s.Inv) : (s.select p).Inv := by
  dsimp only [State.select]
  split
  exacts [.ite (.selectFree (.modPort (.credits h))) (.credits h), .selectFree (.credits h)]

theorem State.Inv.setStream {n i : Nat} {c : CbStream} (h : s.Inv) : (s.setStream n i c).Inv :=
  .frame h rfl rfl rfl

theorem State.Inv.cbReceive {p : Nat} {b : List Byte} (h : s.Inv) : (s.cbReceive p b).2.Inv := by
  dsimp only [State.cbReceive]
  split
  · exact h
  · split
    exacts [h, .setStream h]

theorem State.Inv.cbInsert {p : Nat} {f : Frame} (h : s.Inv) : (s.cbInsert p f).2.Inv := by
  dsimp only [State.cbInsert]
  split
  · exact h
  · exact h
  · exact h
  · split
    exacts [h, .setStream h]

theorem State.Inv.queuePause {p quanta : Nat} (h : s.Inv) : (s.queuePause p quanta).Inv :=
  .select (.modPort h)

theorem State.Inv.pauseCheck {p : Nat} (h : s.Inv) : (s.pauseCheck p).Inv :=
  .ite h (.ite (.queuePause (.modPort h)) (.ite (.queuePause (.modPort h)) h))

theorem State.Inv.endTx {r idx st sent : Nat} {led : Option (BitVec 16)} {time : Option W32} (h : s.Inv)
    : (s.endTx r idx st sent led time).Inv := by
  dsimp only [State.endTx]
  split
  exacts [h, .finish (.ite (.noteSeq (.foldl h fun _ _ h1 => .modDesc h1)) (.foldl h fun _ _ h1 => .modDesc h1))]

theorem State.Inv.fwdGone {ingress egress : Nat} {f : Frame} (h : s.Inv) : (s.fwdGone ingress egress f).Inv :=
  .ite h (.pauseCheck (.modPort h))

theorem State.Inv.failFrame {p : Nat} {f : Frame} {sent : Nat} {started : Bool} (h : s.Inv) : (s.failFrame p f sent started).Inv := by
  dsimp only [State.failFrame]
  split
  exacts [.endTx h, .fwdGone h, h]

theorem State.Inv.join {p : Nat} {f : Frame} {timed : Bool} (h : s.Inv) : (s.join p f timed).Inv :=
  .ite (.failFrame (.record h)) (.ite (.modPort (.count ((by
        split
        · split
          exacts [.modDesc (.cbInsert (.credits h)), .cbInsert (.credits h)]
        · exact .cbInsert (.credits h))))) (.modPort (.cbInsert (.credits h))))

theorem State.Inv.portDown {p sent : Nat} (h : s.Inv) : (s.portDown p sent).Inv :=
  .checkVoids (.set (.set (.set (.set (.set (.set (.foldl ((by
        split
        · exact .failFrame ((by split; exacts [.failFrame (.send (.modPort (.record h))), .modPort (.record h)]))
        · split
          exacts [.failFrame (.send (.modPort (.record h))), .modPort (.record h)])) fun _ _ h1 => .count (.failFrame h1))))))))

end

/-! ## Loading of personalities -/

section

variable {s : State}

theorem State.Inv.modSlot {n : Nat} {f : Slot → Slot} (h : s.Inv) : (s.modSlot n f).Inv :=
  .frame h rfl rfl rfl

theorem State.Inv.setSlotState {n v : Nat} (h : s.Inv) : (s.setSlotState n v).Inv :=
  .set h

theorem State.Inv.ingReadError {x code : Nat} (h : s.Inv) : (s.ingReadError x code).Inv :=
  .record (.set (.set h))

theorem State.Inv.ingRead {x n : Nat} (h : s.Inv) : (s.ingRead x n).2.Inv := by
  dsimp only [State.ingRead]
  split
  · exact .ingReadError h
  · split
    exacts [.ingReadError (.count h), .ite (.count h) h]

theorem State.Inv.ingUnits {n x : Nat} {acc : List Byte} (h : s.Inv) : (s.ingUnits n x acc).2.2.Inv := by
  induction n generalizing s x acc with
  | zero => exact h
  | succ n ih =>
    unfold State.ingUnits
    split
    exacts [ih (.ofEq h.ingRead ‹_›), .ofEq h.ingRead ‹_›]

theorem State.Inv.spiKnown {sfdp : List Byte} (h : s.Inv) : (s.spiKnown sfdp).2.Inv := by
  dsimp only [State.spiKnown]
  split
  exacts [h, .send (.frame h rfl rfl rfl)]

theorem State.Inv.spiRead {sfdp : List Byte} {o n : Nat} {b : List Byte} (h : s.Inv) : (s.spiRead sfdp o n b).2.2.Inv := by
  dsimp only [State.spiRead]
  split
  exacts [.spiKnown h, .send (.spiKnown h)]

theorem State.Inv.readSrc {src : LoadSrc} {o n : Nat} (h : s.Inv) : (s.readSrc src o n).2.2.Inv := by
  dsimp only [State.readSrc]
  split
  · exact h
  · split
    exacts [h, .ingUnits h]
  · exact .spiRead h

theorem State.Inv.fillRecord {n : Nat} (h : s.Inv) : (s.fillRecord n).2.Inv := by
  dsimp only [State.fillRecord]
  split
  exacts [h, .modSlot (.readSrc h)]

theorem State.Inv.zeroTile {t : Nat} (h : s.Inv) : (s.zeroTile t).Inv :=
  ⟨Memory.wf_clear _ _ _ (Memory.wf_clear _ _ _ h.1), h.2⟩

theorem State.Inv.releasePins {t : Nat} (h : s.Inv) : (s.releasePins t).Inv :=
  .frame h rfl rfl rfl

theorem State.Inv.claim {n : Nat} {st : List Byte} (h : s.Inv) : (s.claim n st).Inv :=
  .checkVoids (.setWord (.foldl (.foldl (.foldl (.modSlot h) fun _ _ h1 => .modEng (.set (.set
      (.resetEng h1)))) fun _ _ h1 => .zeroTile h1) fun _ _ h1 => .set (.set h1)))

theorem State.Inv.putFrame {t f : Nat} {b : List Byte} (h : s.Inv) : (s.putFrame t f b).Inv :=
  .ite (.wr (.wr h)) (.wr h)

theorem State.Inv.applySection {n : Nat} {st : List Byte} {a b : Nat} {x : Section} (h : s.Inv) : (s.applySection n st a b x).2.Inv := by
  dsimp only [State.applySection]
  split
  · exact .wr h
  · exact .wr h
  · split
    exacts [h, .foldl h fun _ _ h1 => .foldl h1 fun _ _ h2 => .putFrame h2]
  · split
    exacts [.frame h rfl rfl rfl, h]
  · split
    exacts [.hoardWrite h, h]
  · exact h

theorem State.Inv.applyRange {n : Nat} {st : List Byte} {a b : Nat} (h : s.Inv) : (s.applyRange n st a b).2.Inv :=
  .foldlOn Prod.snd h fun _ _ h1 => (by split; exacts [h1, .applySection h1])

theorem State.Inv.forgeStop (h : s.Inv) : s.forgeStop.Inv :=
  .ite h (.set h)

theorem State.Inv.dropTables {n : Nat} (h : s.Inv) : (s.dropTables n).Inv :=
  .frame h rfl rfl rfl

theorem State.Inv.endLoad {r : Option RingRef} {st prog : Nat} {entry : Bool} (h : s.Inv) : (s.endLoad r st prog entry).Inv := by
  dsimp only [State.endLoad]
  split
  exacts [h, .ite (.endWithEntry (.modDesc h)) (.doneNow (.modDesc h))]

theorem State.Inv.failLoadAs {n code status : Nat} (h : s.Inv) : (s.failLoadAs n code status).Inv :=
  .ite (.setSlotState (.modSlot (.dropTables (.foldl (.foldl (.foldl (.foldl (.set (.beside (.endLoad (.record (.set
      (.set h)))))) fun _ _ h1 => .resetEng h1) fun _ _ h1 => .zeroTile h1) fun _ _ h1 => .set h1) fun _ _ h1 => .releasePins h1))))
      (.setSlotState (.set (.setWord (.modSlot (.set (.beside (.endLoad (.record (.set (.set h))))))))))

theorem State.Inv.failLoad {n code : Nat} (h : s.Inv) : (s.failLoad n code).Inv :=
  .failLoadAs h

theorem State.Inv.refuseLoad {r : LoadReq} {code : Nat} (h : s.Inv) : (s.refuseLoad r code).Inv :=
  .endLoad (.record (.set h))

theorem State.Inv.stage {n : Nat} {whole : Bool} {file : List Byte} (h : s.Inv) : (s.stage n whole file).Inv :=
  .ite (.failLoad (.set (.modSlot (.hoardWrite h)))) (.ite (.setSlotState (.set (.modSlot (.hoardWrite h)))) (.failLoad (.set (.modSlot
      (.hoardWrite h)))))

theorem State.Inv.startLoad {r : LoadReq} (h : s.Inv) : (s.startLoad r).Inv := by
  dsimp only [State.startLoad]
  split
  · exact .refuseLoad h
  · split
    · exact .refuseLoad h
    · split
      · exact .failLoad (.readSrc (.set (.setWord (.setSlotState (.modSlot (.set (.frame h rfl rfl rfl)))))))
      · split
        · exact .failLoad (.readSrc (.set (.setWord (.setSlotState (.modSlot (.set (.frame h rfl rfl rfl)))))))
        · exact .ite (.failLoad (.set (.setWord (.readSrc (.set (.setWord (.setSlotState (.modSlot (.set (.frame h rfl rfl rfl)))))))))) (.ite
            (.modSlot (.set (.setWord (.readSrc (.set (.setWord (.setSlotState (.modSlot (.set (.frame h rfl rfl rfl)))))))))) (.stage (.readSrc
            (.set (.setWord (.readSrc (.set (.setWord (.setSlotState (.modSlot (.set (.frame h rfl rfl rfl))))))))))))

theorem State.Inv.nextLoadGo {n : Nat} (h : s.Inv) : (State.nextLoad.go n s).Inv := by
  induction n generalizing s with
  | zero => exact h
  | succ n ih =>
    unfold State.nextLoad.go
    split
    · exact h
    · split
      exacts [h, ih (.startLoad (.frame h rfl rfl rfl))]

theorem State.Inv.nextLoad (h : s.Inv) : s.nextLoad.Inv := .nextLoadGo h

theorem State.Inv.resetRegs {a b : Nat} (h : s.Inv) : (s.resetRegs a b).Inv :=
  ⟨h.1, Sparse.wf_filter _ _ _ h.2.1, h.2.2⟩

theorem State.Inv.unloadPort {p : Nat} (h : s.Inv) : (s.unloadPort p).Inv :=
  .modPort (.resetRegs (.ite (.portDown h) h))

theorem State.Inv.unselectPins {n : Nat} (h : s.Inv) : (s.unselectPins n).Inv :=
  .foldl h fun _ _ h1 => .ite (.set h1) h1

theorem State.Inv.emptySlot {n : Nat} (h : s.Inv) : (s.emptySlot n).Inv :=
  .setSlotState (.setWord (.setWord (.setWord (.set (.setWord (.set h))))))

theorem State.Inv.unloadNow {n : Nat} (h : s.Inv) : (s.unloadNow n).Inv :=
  .checkVoids (.forgeStop (.emptySlot (.modSlot (.dropTables (.ite (.beside (.foldl (.foldl (.foldl (.foldl (.foldl (.foldl (.foldl
      (.unselectPins h) fun _ _ h1 => .modEng (.set (.resetRegs
      (.resetEng h1)))) fun _ _ h1 => .zeroTile h1) fun _ _ h1 => .unloadPort h1) fun _ _ h1 => .ite (.set h1) h1) fun _ _ h1 => .beside
      (.resetRegs h1)) fun _ _ h1 => .beside (.resetRegs (.resetRegs h1))) fun _ _ h1 => .beside (.resetRegs h1))) (.foldl (.foldl (.foldl
      (.foldl (.foldl (.foldl (.foldl (.unselectPins h) fun _ _ h1 => .modEng (.set (.resetRegs
      (.resetEng h1)))) fun _ _ h1 => .zeroTile h1) fun _ _ h1 => .unloadPort h1) fun _ _ h1 => .ite (.set h1) h1) fun _ _ h1 => .beside
      (.resetRegs h1)) fun _ _ h1 => .beside (.resetRegs (.resetRegs h1))) fun _ _ h1 => .beside (.resetRegs h1)))))))

theorem State.Inv.unloadsDone {n : Nat} (h : s.Inv) : (s.unloadsDone n).Inv :=
  .foldl (.modSlot h) fun _ _ h1 => .doneNow h1

theorem State.Inv.tryUnload {settle : Bool} {n : Nat} (h : s.Inv) : (s.tryUnload settle n).Inv :=
  .ite h (.ite (.unloadsDone (.ite (.failLoad h) h)) (.ite (.unloadsDone (.unloadNow (.ite (.failLoad h) h))) (.ite (.failLoad h) h)))

theorem State.Inv.afterLoad (h : s.Inv) : s.afterLoad.Inv :=
  .each (.ite (.set (.beside (.nextLoad h))) (.nextLoad h)) (fun _ _ h1 => .tryUnload h1)

end

/-! ## The Quench -/

section

variable {s : State}

theorem State.Inv.markQnch (h : s.Inv) : s.markQnch.Inv := by
  obtain ⟨hmem, hregs, hledger⟩ := h
  refine ⟨hmem, hregs, Nat.le_trans (Nat.le_of_eq ?_) hledger⟩
  unfold State.markQnch
  cases s.ledger <;> rfl

theorem State.Inv.manualHold {l : Nat} (h : s.Inv) : (s.manualHold l).Inv :=
  .ite (.beside (.set h)) h

theorem State.Inv.quenchLoop {l : Nat} (h : s.Inv) : (s.quenchLoop l).Inv := by
  dsimp only [State.quenchLoop]
  exact .beside (.manualHold h)

theorem State.Inv.quench {src : Nat} {fault : Bool} (h : s.Inv) : (s.quench src fault).Inv :=
  .ite (.record (.set h)) (.checkVoids ((by
        split
        · exact .afterLoad (.failLoad (.beside (.each (.safeLsw (.vecEvent (.record (.set (.set (.set (.ite
            (.markQnch h) h))))))) (fun _ _ h1 => .quenchLoop h1))))
        · exact .beside (.each (.safeLsw (.vecEvent (.record (.set (.set (.set (.ite (.markQnch h) h))))))) (fun _ _ h1 => .quenchLoop h1)))))

theorem State.Inv.quenchRelease (h : s.Inv) : s.quenchRelease.Inv :=
  .commitIdle (.record (.set (.set (.set h))))

end

/-! ## Engines: tasks, traps and events -/

section

variable {s : State}

theorem State.Inv.modCtx {e : Nat} {k : TaskKind} {f : Ctx → Ctx} (h : s.Inv) : (s.modCtx e k f).Inv :=
  .modEng h

theorem State.Inv.modRun {e : Nat} {f : Run → Run} (h : s.Inv) : (s.modRun e f).Inv :=
  .modEng h

theorem State.Inv.enterEvent {e : Nat} {t : TaskDef} {fresh : Bool} (h : s.Inv) : (s.enterEvent e t fresh).Inv :=
  .ite (.count (.modEng h)) (.modEng h)

theorem State.Inv.wfeCheck {e : Nat} (h : s.Inv) : (s.wfeCheck e).Inv := by
  dsimp only [State.wfeCheck]
  split
  · exact h
  · split
    · split
      exacts [h, .modRun (.modCtx (.modEng h))]
    · exact h

theorem State.Inv.activate {e : Nat} {fresh : BitVec 64} (h : s.Inv) : (s.activate e fresh).Inv := by
  dsimp only [State.activate]
  split
  · split
    exacts [.enterEvent h, .wfeCheck h]
  · exact .ite (.wfeCheck h) h

theorem State.Inv.skipEvent {e : Nat} {t : TaskDef} (h : s.Inv) : (s.skipEvent e t).Inv :=
  .count (.modEng h)

theorem State.Inv.noteInput {e i : Nat} (h : s.Inv) : (s.noteInput e i).Inv := by
  dsimp only [State.noteInput]
  split
  exacts [h, .ite (.skipEvent h) (.ite h (.count (.modEng h)))]

theorem State.Inv.registerNow {e : Nat} {m : BitVec 64} (h : s.Inv) : (s.registerNow e m).Inv :=
  .ite h (.activate (.foldl (.modEng (.ite h (.count h))) fun _ _ h1 => .ite (.noteInput h1) h1))

theorem State.Inv.register {e : Nat} {m : BitVec 64} (h : s.Inv) : (s.register e m).Inv := by
  dsimp only [State.register]
  split
  exacts [.frame h rfl rfl rfl, .registerNow h]

theorem State.Inv.registerAll {i : Nat} (h : s.Inv) : (s.registerAll i).Inv :=
  .each h (fun _ _ h1 => .register h1)

theorem State.Inv.onOneEdge {f : State → State} (h : s.Inv) (hf : ∀ (t : State), t.Inv → (f t).Inv) : (s.onOneEdge f).Inv :=
  .ite (hf _ h) (.each (.beside (hf _ (.frame h rfl rfl rfl))) (fun _ _ h1 => .registerNow h1))

theorem State.Inv.startPhase {e : Nat} {t : TaskDef} (h : s.Inv) : (s.startPhase e t).Inv :=
  .modEng h

theorem State.Inv.skipPending {e : Nat} (h : s.Inv) : (s.skipPending e).Inv :=
  .ite h (.foldl h fun _ _ h1 => (by
        split
        · exact h1
        · split
          exacts [.skipEvent h1, h1]))

theorem State.Inv.haltNow {e : Nat} (h : s.Inv) : (s.haltNow e).Inv :=
  .set (.modEng (.skipPending (.skipTodo h)))

theorem State.Inv.goOn {takeTrap : State → Nat → Nat → State} {e : Nat} (h : s.Inv) (htakeTrap : ∀ (t : State) (a0 a1 : Nat),
    t.Inv → (takeTrap t a0 a1).Inv) : (State.goOn takeTrap s e).Inv := by
  dsimp only [State.goOn]
  split
  · exact h
  · split
    · exact .haltNow h
    · split
      · exact .activate h
      · split
        · split
          exacts [htakeTrap _ _ _ (.modEng (.activate h)), .wfeCheck (.modEng (.activate h))]
        · split
          · split
            · exact .activate h
            · split
              exacts [.startPhase (.modEng (.activate h)), .modEng (.activate h)]
          · exact .activate h

theorem State.Inv.dropTask {e : Nat} {keep : Bool} (h : s.Inv) : (s.dropTask e keep).Inv := by
  dsimp only [State.dropTask]
  split
  exacts [h, .modEng h]

theorem State.Inv.overrunReport {e slot : Nat} {k : TaskKind} {strike : Bool} (h : s.Inv) : (s.overrunReport e slot k strike).Inv :=
  .ite (.record (.set (.set (.set (.set (.set (.count h))))))) (.ite (.quench (.modEng (.record (.set (.set (.set (.set (.set (.count h)))))))))
      (.modEng (.record (.set (.set (.set (.set (.set (.count h)))))))))

theorem State.Inv.overrunStop {e : Nat} (h : s.Inv) : (s.overrunStop e).Inv := by
  dsimp only [State.overrunStop]
  split
  exacts [h, .overrunReport (.modEng (.dropTask h))]

theorem State.Inv.trapTake {e c : Nat} (h : s.Inv) : (s.trapTake e c).Inv := by
  dsimp only [State.trapTake]
  split
  · exact h
  · split
    · exact .ite (.quench (.count (.dropTask (.modCtx (.set (.count (.set (.set (.record h))))))))) (.count (.dropTask (.modCtx (.set (.count
        (.set (.set (.record h))))))))
    · exact .ite (.modRun (.modCtx (.modEng (.ite (.quench (.modCtx (.set (.count (.set (.set (.record h))))))) (.modCtx (.set (.count (.set
        (.set (.record h)))))))))) (.dropTask (.ite (.quench (.modCtx (.set (.count (.set (.set (.record h))))))) (.modCtx (.set (.count (.set
        (.set (.record h))))))))

theorem State.Inv.trapOrOverrun {e c : Nat} (h : s.Inv) : (s.trapOrOverrun e c).Inv :=
  .ite (.overrunStop h) (.trapTake h)

theorem State.Inv.trapResume {e c : Nat} (h : s.Inv) : (s.trapResume e c).Inv :=
  .goOn (.trapOrOverrun h) (fun _ _ _ h1 => h1)

theorem State.Inv.go {e : Nat} (h : s.Inv) : (s.go e).Inv :=
  .goOn h (fun _ _ _ h1 => .trapResume h1)

theorem State.Inv.endTask {e : Nat} (h : s.Inv) : (s.endTask e).Inv :=
  .go (.dropTask h)

theorem State.Inv.overrun {e : Nat} (h : s.Inv) : (s.overrun e).Inv :=
  .go (.overrunStop h)

theorem State.Inv.trap {e c : Nat} (h : s.Inv) : (s.trap e c).Inv :=
  .go (.trapOrOverrun h)

theorem State.Inv.haltWaiting {e : Nat} (h : s.Inv) : (s.haltWaiting e).Inv :=
  .ite (.haltNow h) h

end

/-! ## Refused accesses -/

section

variable {s : State}

theorem State.Inv.accessFault {w : Who} {key cause : Nat} (h : s.Inv) : (s.accessFault w key cause).Inv :=
  .record (.set (.count (.set (.set (.set h)))))

theorem State.Inv.lockFault {w : Who} {key : Nat} (h : s.Inv) : (s.lockFault w key).Inv :=
  .record (.set (.count (.ite h (.set h))))

theorem State.Inv.owned {w : Who} {key : Nat} {f : State → State} (h : s.Inv) (hf : ∀ (t : State), t.Inv → (f t).Inv) : (s.owned w key f).Inv :=
  .ite (.accessFault h) (hf _ h)

theorem State.Inv.writeFields {w : Who} {key : Nat} {v : W32} {keep : FldDef → Bool} (h : s.Inv) : (s.writeFields w key v keep).Inv := by
  dsimp only [State.writeFields]
  split
  exacts [h, .setWord (.ite (.lockFault h) h)]

theorem State.Inv.clearOnRead {key : Nat} (h : s.Inv) : (s.clearOnRead key).Inv := by
  dsimp only [State.clearOnRead]
  split
  exacts [h, .setWord h]

theorem State.Inv.hold {key : Nat} {v : W32} (h : s.Inv) : (s.hold key v).Inv :=
  .frame h rfl rfl rfl

theorem State.Inv.capture {key : Nat} {v : W32} (h : s.Inv) : (s.capture key v).Inv :=
  .frame h rfl rfl rfl

end

/-! ## The time base and its steps -/

section

variable {s : State}

theorem State.Inv.addTb {x : Int} (h : s.Inv) : (s.addTb x).Inv :=
  .frame h rfl rfl rfl

theorem State.Inv.tbEdge (h : s.Inv) : s.tbEdge.Inv := by
  dsimp only [State.tbEdge]
  exact .beside (.addTb h)

theorem State.Inv.regrid (h : s.Inv) : s.regrid.Inv :=
  .frame h rfl rfl rfl

theorem State.Inv.shiftTimes {d : Int} (h : s.Inv) : (s.shiftTimes d).Inv :=
  .frame h rfl rfl rfl

theorem State.Inv.stepTb {d : Int} (h : s.Inv) : (s.stepTb d).Inv :=
  .ite (.ite (.beside (.beside (.beside (.set (.set (.addTb (.shiftTimes h))))))) (.regrid (.beside (.beside (.set (.set (.addTb
      (.shiftTimes h)))))))) (.ite (.beside (.beside (.set (.set (.addTb (.shiftTimes h)))))) (.beside (.set (.set (.addTb (.shiftTimes h))))))

theorem State.Inv.applyStep {x : Int × Option (Nat × RingRef)} (h : s.Inv) : (s.applyStep x).Inv := by
  dsimp only [State.applyStep]
  split
  exacts [.stepTb h, .endWithEntry (.set (.record (.stepTb h)))]

theorem State.Inv.applySteps (h : s.Inv) : s.applySteps.Inv :=
  .foldl (.frame h rfl rfl rfl) fun _ _ h1 => .applyStep h1

theorem State.Inv.stepRequest {d : BitVec 64} (h : s.Inv) : (s.stepRequest d).Inv :=
  .ite (.frame h rfl rfl rfl) (.recordF (.beside (.count (.set (.set (.set (.setWord64 h)))))))

theorem State.Inv.steering {w : Who} {key : Nat} {f : State → State} (h : s.Inv) (hf : ∀ (t : State), t.Inv → (f t).Inv)
    : (s.steering w key f).Inv :=
  .ite (hf _ h) (.accessFault h)

theorem State.Inv.setAddend {v : Int} (h : s.Inv) : (s.setAddend v).Inv :=
  .ite (.set h) (.set (.set h))

theorem State.Inv.startSlew {ofs : Int} {rate : Nat} (h : s.Inv) : (s.startSlew ofs rate).Inv :=
  .frame h rfl rfl rfl

theorem State.Inv.writeAddend {w : Who} {v : W32} (h : s.Inv) : (s.writeAddend w v).Inv :=
  .steering h (fun _ h1 => .setAddend h1)

theorem State.Inv.writeSlew {w : Who} {v : W32} (h : s.Inv) : (s.writeSlew w v).Inv :=
  .steering h (fun _ h1 => .startSlew (.setWord h1))

theorem State.Inv.writeStepHi {w : Who} {v : W32} (h : s.Inv) : (s.writeStepHi w v).Inv :=
  .steering h (fun _ h1 => .stepRequest (.setWord (.setWord (.frame h1 rfl rfl rfl))))

theorem State.Inv.writeStepLo {w : Who} {v : W32} (h : s.Inv) : (s.writeStepLo w v).Inv :=
  .steering h (fun _ h1 => .hold h1)

theorem State.Inv.writeStepc {w : Who} {v : W32} (h : s.Inv) : (s.writeStepc w v).Inv :=
  .steering h (fun _ h1 => .set h1)

theorem State.Inv.clampJumplim (h : s.Inv) : s.clampJumplim.Inv :=
  .set h

theorem State.Inv.readNow (h : s.Inv) : (s.readNow.2).Inv :=
  .capture (.capture h)

theorem Answers.execTimeGrant {n : Fin 64} : Answers s (execTimeGrant n s) := by
  dsimp only [Machine.execTimeGrant]
  split
  exacts [.same, .ite (fun h => .beside (.start h)) (fun h => .endWithEntry (.record h))]

end

/-! ## Cells, links and IDs of the Chain -/

section

variable {s : State}

theorem State.Inv.modChain {f : Chain → Chain} (h : s.Inv) : (s.modChain f).Inv :=
  .frame h rfl rfl rfl

theorem State.Inv.setLink {l v : Nat} (h : s.Inv) : (s.setLink l v).Inv :=
  .ite h (.set (.set h))

theorem State.Inv.trainLinks (h : s.Inv) : s.trainLinks.Inv :=
  .each h (fun _ _ h1 => .ite (.setLink h1) h1)

theorem State.Inv.setEff (h : s.Inv) : s.setEff.Inv :=
  .set h

theorem State.Inv.chnSet {v : Nat} (h : s.Inv) : (s.chnSet v).Inv :=
  .set h

theorem State.Inv.loadRoutes {t : List Nat} (h : s.Inv) : (s.loadRoutes t).Inv :=
  .each h (fun _ _ h1 => .setWord h1)

theorem State.Inv.freeSlot {src vc n : Nat} (h : s.Inv) : (s.freeSlot src vc n).Inv :=
  .ite (.send h) h

theorem State.Inv.freed {x : QCell} (h : s.Inv) : (s.freed x).Inv :=
  .ite (.freeSlot h) h

theorem State.Inv.lost {xs : List QCell} (h : s.Inv) : (s.lost xs).Inv :=
  .foldl (.count (.count h)) fun _ _ h1 => .freed h1

theorem State.Inv.stampDly {l : Nat} {c : Cell} (h : s.Inv) : (s.stampDly l c).2.Inv := by
  dsimp only [State.stampDly]
  split
  · split
    exacts [.modLink h, h]
  · exact h

theorem State.Inv.depart {l : Nat} {x : QCell} (h : s.Inv) : (s.depart l x).Inv :=
  .freed (.send (.modLink (.stampDly h)))

theorem State.Inv.pump {l : Nat} (h : s.Inv) : (s.pump l).Inv :=
  .foldl h fun _ _ h1 => (by split; exacts [h1, .depart h1])

theorem State.Inv.enqueueQ {l : Nat} {x : QCell} (h : s.Inv) : (s.enqueueQ l x).Inv :=
  .ite (.pump (.modLink h)) (.lost h)

theorem State.Inv.dropQueue {l : Nat} (h : s.Inv) : (s.dropQueue l).Inv :=
  .modLink (.lost h)

theorem State.Inv.injectOn {l : Nat} {x : QCell} (h : s.Inv) : (s.injectOn l x).Inv :=
  .enqueueQ (.ite (.modChain h) (.ite (.modChain h) h))

theorem State.Inv.injectQ {x : QCell} (h : s.Inv) : (s.injectQ x).Inv :=
  .ite (.count (.count h)) (.ite (.injectOn h) (.modChain h))

theorem State.Inv.inject {c : Cell} (h : s.Inv) : (s.inject c).Inv :=
  .injectQ h

theorem State.Inv.injectWaiting (h : s.Inv) : s.injectWaiting.Inv :=
  .foldl (.modChain h) fun _ _ h1 => .injectQ h1

theorem State.Inv.pumpAll (h : s.Inv) : s.pumpAll.Inv :=
  .each (.injectWaiting h) (fun _ _ h1 => .pump h1)

theorem State.Inv.sendEtT {strike : Bool} {vc op dst tag : Nat} {b : List Byte} (h : s.Inv) : (s.sendEtT strike vc op dst tag b).Inv :=
  .ite (.injectQ h) h

theorem State.Inv.sendEt {vc op dst tag : Nat} {b : List Byte} (h : s.Inv) : (s.sendEt vc op dst tag b).Inv :=
  .sendEtT h

theorem State.Inv.sendSev {e : Nat} {strike : Bool} {dev : Nat} {b : List Byte} (h : s.Inv) : (s.sendSev e strike dev b).Inv :=
  .injectQ h

theorem State.Inv.serveMwait (h : s.Inv) : s.serveMwait.Inv :=
  .foldl h fun _ _ h1 => (by split; exacts [h1, .sendEtT (.modChain h1)])

theorem State.Inv.dropTag {tag : Nat} (h : s.Inv) : (s.dropTag tag).Inv :=
  .serveMwait (.modChain h)

theorem State.Inv.sendMgmt {vc op dst : Nat} {b : Body} (h : s.Inv) : (s.sendMgmt vc op dst b).Inv :=
  .inject h

theorem State.Inv.sendTree {l vc op : Nat} {b : Body} (h : s.Inv) : (s.sendTree l vc op b).Inv :=
  .injectOn h

theorem State.Inv.treeUp {vc op : Nat} {b : Body} (h : s.Inv) : (s.treeUp vc op b).Inv := by
  dsimp only [State.treeUp]
  split
  exacts [.sendTree h, h]

theorem State.Inv.treeDown {uid : BitVec 64} {vc op : Nat} {b : Body} (h : s.Inv) : (s.treeDown uid vc op b).Inv := by
  dsimp only [State.treeDown]
  split
  exacts [.sendTree h, h]

theorem State.Inv.toAll {op : Nat} {b : Body} (h : s.Inv) : (s.toAll op b).Inv :=
  .foldl h fun _ _ h1 => .sendMgmt h1

theorem State.Inv.toMgr {vc op : Nat} {b : Body} (h : s.Inv) : (s.toMgr vc op b).Inv :=
  .ite (.sendMgmt h) (.treeUp h)

theorem State.Inv.toDev {x : BitVec 64 × Nat} {vc op : Nat} {b : Body} (h : s.Inv) : (s.toDev x vc op b).Inv :=
  .ite (.sendMgmt h) (.treeDown h)

theorem State.Inv.sendHello {l : Nat} (h : s.Inv) : (s.sendHello l).Inv :=
  .enqueueQ h

theorem State.Inv.becomeMode {m : Nat} (h : s.Inv) : (s.becomeMode m).Inv :=
  .modChain (.ite h (.set (.set h)))

theorem State.Inv.setMode {m : Nat} (h : s.Inv) : (s.setMode m).Inv :=
  .ite h (.becomeMode h)

theorem State.Inv.abortProposal {why : Option (Nat × Nat)} (h : s.Inv) : (s.abortProposal why).Inv := by
  dsimp only [State.abortProposal]
  split
  · exact h
  · split
    · exact .modChain ((by split; exacts [.set (.set (.set (.set (.toAll h)))), .set (.set (.toAll h))]))
    · exact .endWithEntry (.record (.modChain ((by split; exacts [.set (.set (.set (.set (.toAll h)))), .set (.set (.toAll h))]))))

theorem State.Inv.propose {m : Nat} {r : Option RingRef} (h : s.Inv) : (s.propose m r).Inv :=
  .modChain (.set (.set h))

theorem State.Inv.holdCommit {m : Nat} (h : s.Inv) : (s.holdCommit m).Inv :=
  .ite h (.modChain (.set (.set h)))

theorem State.Inv.voteCheck (h : s.Inv) : s.voteCheck.Inv := by
  dsimp only [State.voteCheck]
  split
  · exact h
  · split
    · exact h
    · split
      · exact .abortProposal h
      · split
        exacts [.abortProposal h, .ite (.abortProposal h) (.holdCommit (.modChain (.set (.set (.toAll h)))))]

theorem State.Inv.adoptConfig (h : s.Inv) : s.adoptConfig.Inv :=
  .modChain h

theorem State.Inv.chainStop (h : s.Inv) : s.chainStop.Inv :=
  .setMode (.modChain (.set (.abortProposal (.set h))))

theorem State.Inv.withdraw (h : s.Inv) : s.withdraw.Inv :=
  .ite h (.modChain (.record (.set h)))

theorem State.Inv.timeLost (h : s.Inv) : s.timeLost.Inv :=
  .checkVoids (.modChain (.record (.count (.set h))))

theorem State.Inv.correct1 {a : Int} (h : s.Inv) : (s.correct1 a).Inv :=
  .ite (.ite (.timeLost (.ite (.startSlew h) h)) (.modChain (.ite (.startSlew h) h))) (.ite (.ite (.modChain (.set (.modChain h))) (.modChain h))
      (.ite (.stepRequest (.modChain h)) (.modChain h)))

theorem State.Inv.rateTrim (h : s.Inv) : s.rateTrim.Inv :=
  .ite (.modChain (.ite (.set (.setAddend h)) h)) h

theorem State.Inv.averaging (h : s.Inv) : s.averaging.Inv :=
  .ite (.rateTrim h) (.rateTrim ((by
        split
        · exact .correct1 (.modChain (.set (.set h)))
        · exact .ite (.ite (.timeLost (.modChain (.set h))) (.modChain (.set h))) (.modChain (.set h)))))

theorem State.Inv.chainSettle (h : s.Inv) : s.chainSettle.Inv := by
  dsimp only [State.chainSettle]
  split
  exacts [.ite (.modChain (.doneNow (.modDesc (.averaging h)))) (.averaging h), .averaging h]

theorem State.Inv.newSyncTick (h : s.Inv) : s.newSyncTick.Inv :=
  .pumpAll (.modChain (.each h (fun _ _ h1 => .setB h1)))

theorem State.Inv.listen (h : s.Inv) : s.listen.Inv :=
  .modChain (.set h)

theorem State.Inv.quarantine (h : s.Inv) : s.quarantine.Inv :=
  .ite (.modChain h) (.checkVoids (.modChain (.record (.listen (.chnSet (.set h))))))

end

/-! ## Commands of the Chain -/

section

variable {s : State}

theorem State.Inv.recand (h : s.Inv) : s.recand.Inv :=
  .ite (.modChain h) (.ite (.set (.set (.set (.set (.abortProposal (.modChain h)))))) (.chnSet (.set (.set (.set (.set (.abortProposal
      (.modChain h))))))))

theorem State.Inv.sendRoutes (h : s.Inv) : s.sendRoutes.Inv :=
  .modChain (.foldl (.foldl (.modChain h) fun _ _ h1 => (by split; exacts [h1, .ite h1 (.toDev (.modChain h1))])) fun _ _ h1 => .sendMgmt h1)

theorem State.Inv.switchRoutes {t : List Nat} (h : s.Inv) : (s.switchRoutes t).Inv :=
  .checkVoids (.pumpAll ((by
        split
        · exact .ite (.withdraw (.ite (.modChain (.ite (.each (.loadRoutes h) (fun _ _ h1 => .modLink (.lost h1))) (.loadRoutes h))) (.setMode
            (.set (.set (.modChain (.listen (.chnSet (.modChain (.ite (.each (.loadRoutes h) (fun _ _ h1 => .modLink (.lost h1)))
            (.loadRoutes h))))))))))) (.ite (.modChain (.ite (.each (.loadRoutes h) (fun _ _ h1 => .modLink (.lost h1))) (.loadRoutes h)))
            (.setMode (.set (.set (.modChain (.listen (.chnSet (.modChain (.ite (.each (.loadRoutes h) (fun _ _ h1 => .modLink (.lost h1)))
            (.loadRoutes h))))))))))
        · exact .ite (.modChain (.ite (.each (.loadRoutes h) (fun _ _ h1 => .modLink (.lost h1))) (.loadRoutes h))) (.setMode (.set (.set
            (.modChain (.listen (.chnSet (.modChain (.ite (.each (.loadRoutes h) (fun _ _ h1 => .modLink (.lost h1))) (.loadRoutes h))))))))))))

theorem State.Inv.managerCommit (h : s.Inv) : s.managerCommit.Inv := by
  dsimp only [State.managerCommit]
  split
  exacts [.switchRoutes (.modChain (.foldl h fun _ _ h1 => .toDev h1)), .modChain (.foldl h fun _ _ h1 => .toDev h1)]

theorem State.Inv.commitIfReady (h : s.Inv) : s.commitIfReady.Inv :=
  .ite (.managerCommit h) h

theorem State.Inv.drainAnswer (h : s.Inv) : s.drainAnswer.Inv :=
  .ite (.toMgr (.modChain h)) h

theorem State.Inv.flow {l : Nat} (h : s.Inv) : (s.flow l).Inv :=
  .commitIfReady (.drainAnswer (.pump h))

theorem State.Inv.noteTopo {l : Nat} {t : Topo} (h : s.Inv) : (s.noteTopo l t).Inv :=
  .modChain h

theorem State.Inv.reroute (h : s.Inv) : s.reroute.Inv :=
  .ite (.commitIfReady (.sendRoutes h)) h

theorem State.Inv.topoChanged (h : s.Inv) : s.topoChanged.Inv :=
  .ite h (.ite (.reroute (.noteTopo h)) (.toMgr h))

theorem State.Inv.linkLoss {l : Nat} (h : s.Inv) : (s.linkLoss l).Inv :=
  .checkVoids (.commitIfReady (.drainAnswer (.topoChanged (.recand (.set (.set (.modLink (.dropQueue (.record (.setLink h))))))))))

theorem State.Inv.linkOff {l : Nat} (h : s.Inv) : (s.linkOff l).Inv :=
  .ite (.linkLoss h) (.modLink (.dropQueue (.setLink h)))

theorem State.Inv.chainEnables (h : s.Inv) : s.chainEnables.Inv :=
  .ite (.trainLinks (.each (.ite (.recand (.chnSet (.setEff h))) (.recand (.setEff h))) (fun _ _ h1 => .ite h1 (.ite (.dropQueue h1)
      (.linkOff h1))))) (.ite (.setEff h) (.modChain (.set (.set (.chnSet (.listen (.chainStop (.each (.setEff h) (fun _ _ h1 => .ite
      (.dropQueue h1) (.linkOff h1))))))))))

theorem Answers.execHello {l : Fin 4} {b : List Byte} (hwf : Instr.wf (.hello l b) = true) : Answers s (execHello l b s) :=
  .checked (by simpa [Instr.wf] using hwf) (.ite .same (.ite (fun h => .linkLoss h) (fun h => .ite (.flow (.topoChanged (.recand (.ite (.chnSet
      (.set (.set (.set (.set (.modLink (.setLink h))))))) (.set (.set (.set (.set (.modLink (.setLink h)))))))))) (.recand (.ite (.chnSet (.set
      (.set (.set (.set (.modLink (.setLink h))))))) (.set (.set (.set (.set (.modLink (.setLink h)))))))))))

theorem State.Inv.takeId {n : Nat} (h : s.Inv) : (s.takeId n).Inv :=
  .ite (.modChain h) (.record (.modChain h))

theorem Answers.execCandidateSettled : Answers s (execCandidateSettled s) := by
  dsimp only [Machine.execCandidateSettled]
  split
  · exact .same
  · exact .ite .same (.ite (fun h => .noteTopo (.set (.set (.takeId (.set (.chnSet (.modChain (.setWord64 h)))))))) (fun h => .treeUp (.chnSet
      (.modChain (.setWord64 h)))))

theorem State.Inv.unconfigured {u : BitVec 64} (h : s.Inv) : (s.unconfigured u).Inv :=
  .modChain h

theorem Answers.execTopo {hop : TopoHop} {t : Topo} : Answers s (execTopo hop t s) := by
  unfold Machine.execTopo
  extract_lets old came s1 again s2 s3 same known
  have h1 : s.Inv → s1.Inv := fun h => by
    refine .ite (.noteTopo h) ?_
    cases came with
    | none => exact h
    | some x => exact .ite (.noteTopo h) h
  have h3 : s.Inv → s3.Inv := fun h => by
    have h2 : s2.Inv := .ite (.unconfigured (h1 h)) (h1 h)
    dsimp only [s3]
    split
    exacts [.toDev h2, .treeDown h2]
  exact .ite .same (.ite h1 fun h => .ite (h3 h) (.reroute (h3 h)))

theorem Answers.execIdAssignment : Answers s (execIdAssignment s) :=
  .ite .same (fun h => .commitIfReady (.sendRoutes (.foldl (.set (.set (.modChain h))) fun _ _ h1 => .treeDown (.record h1))))

theorem Answers.execRoute {l : Fin 4} {uid : BitVec 64} {id : BitVec 8} {t : List (BitVec 8)} (hwf : Instr.wf (.route l uid id t) = true) :
    Answers s (execRoute l uid id t s) := by
  have hlen : ¬ (id ≠ 0xFF ∧ t.length ≠ 32) := by
    simp only [Instr.wf, Bool.or_eq_true, beq_iff_eq] at hwf
    tauto
  exact .checked hlen (.ite .same (.ite (fun h => .modChain (.set (.chnSet h))) fun h => .toMgr (.modChain (.set (.set (.takeId h))))))

theorem State.Inv.dropCell {c : Cell} {f : Fld} {good : Bool} (h : s.Inv) : (s.dropCell c f good).Inv :=
  .ite (.inject (.count (.count h))) (.count (.count h))

theorem Answers.execCellForward {l : Fin 4} {c : Cell} {chk : Fin 3} : Answers s (execCellForward l c chk s) := by
  unfold Machine.execCellForward
  extract_lets free s1 s2 x
  have hfree : ∀ {t}, t.Inv → (free t).Inv := fun h => .ite (.freeSlot h) h
  have h1 : s.Inv → s1.Inv := fun h => .ite (.count h) (.ite (.count h) h)
  have h2 : s.Inv → s2.Inv := fun h => by
    dsimp only [s2]
    split
    exacts [.ite (.noteTopo (h1 h)) (h1 h), h1 h]
  refine .ite (fun h => .ite h (.lost h)) (.ite (fun h => hfree (.count (h1 h))) (.ite (fun h => hfree (.ite (.count (h1 h)) (h1 h))) ?_))
  split
  exacts [fun h => .enqueueQ (h2 h), fun h => hfree (.ite (.dropCell (h2 h)) (.ite (h2 h) (.dropCell (h2 h))))]

theorem State.Inv.remoteAccess {pid o n : Nat} {w : Option (List Byte)} (h : s.Inv) : (s.remoteAccess pid o n w).2.2.Inv := by
  dsimp only [State.remoteAccess]
  split
  · exact .recordAccess h
  · split
    · split
      exacts [.hoardRead h, .hoardWrite h]
    · split
      exacts [.hoardRead h, .hoardWrite h]
    · split
      exacts [.hoardRead h, .hoardWrite h]

theorem Answers.execEtRd {src : Fin 32} {tag : BitVec 8} {b : List Byte} (hwf : Instr.wf (.etRd src tag b) = true)
    : Answers s (execEtRd src tag b s) :=
  .checked (by simpa [Instr.wf] using hwf) (.ite .same (fun h => .sendEt (.remoteAccess h)))

theorem Answers.execEtWr {src : Fin 32} {tag : BitVec 8} {b : List Byte} (hwf : Instr.wf (.etWr src tag b) = true)
    : Answers s (execEtWr src tag b s) :=
  .checked (by simpa [Instr.wf] using hwf) (.ite .same (fun h => .sendEt (.remoteAccess h)))

end

/-! ## Ticks, votes and SYNC on the Chain -/

section

variable {s : State}

theorem Answers.execTtSlineRead {i : Fin 512} : Answers s (execTtSlineRead i s) := by
  dsimp only [Machine.execTtSlineRead]
  split
  · exact .same
  · split
    · exact .same
    · split
      exacts [fun h => .modChain (.hoardRead h), fun h => .hoardRead h]

theorem Answers.execTtSlot {i : Fin 512} : Answers s (execTtSlot i s) := by
  dsimp only [Machine.execTtSlot]
  split
  · exact .same
  · split
    exacts [.same, .ite (fun h => .enqueueQ (.modChain h)) (fun h => .modChain h)]

theorem State.Inv.ttMiss {l : Nat} {t : TtSlot} {start : Nat} (h : s.Inv) : (s.ttMiss l t start).Inv :=
  .ite (.count (.record h)) h

theorem Answers.execTtCell {l : Fin 4} {i : Fin 512} {b : List Byte} (hwf : Instr.wf (.ttCell l i b) = true) : Answers s (execTtCell l i b s) :=
  .checked (by simpa [Instr.wf] using hwf) (by
    split
    · exact .same
    · exact .ite .same (.ite (fun h => .count (.ttMiss h)) (fun h => .ite (.hoardWrite (.ttMiss h)) (.register (.hoardWrite (.ttMiss h))))))

theorem Answers.execSyncSlot {j : Fin 8} : Answers s (execSyncSlot j s) := by
  dsimp only [Machine.execSyncSlot]
  split
  exacts [.same, .ite (fun h => .each h (fun _ _ h1 => .ite (.send h1) h1)) .same]

theorem State.Inv.mgrTpCheck {tp : Nat} (h : s.Inv) : (s.mgrTpCheck tp).Inv :=
  .ite (.beside (.set (.set (.set (.modChain h))))) (.modChain h)

theorem State.Inv.slot0 {b : List Byte} {n T : Nat} {d : Int} (h : s.Inv) : (s.slot0 b n T d).Inv := by
  unfold State.slot0
  extract_lets agree first s1 s2 s3 s4 s5 s6 s7 differs
  have h3 : s3.Inv := .ite (.quarantine (.mgrTpCheck h))
    (.ite (.ite (.listen (.chnSet (.set (.modChain (.mgrTpCheck h))))) (.modChain (.mgrTpCheck h))) (.mgrTpCheck h))
  have h6 : s6.Inv := .ite (.ite (.stepRequest (.modChain (.modChain h3))) (.modChain (.modChain h3))) (.modChain h3)
  have h7 : s7.Inv := .ite (.holdCommit h6) h6
  exact .ite (.withdraw h7) h7

theorem Answers.execSync {l : Fin 4} {way : SyncHop} {b : List Byte} (hwf : Instr.wf (.sync l way b) = true) : Answers s (execSync l way b s) := by
  unfold Machine.execSync
  extract_lets j n s1 din corr out fwd cell s2 T Tn
  have h2 : s.Inv → s2.Inv := fun h => .each (.modChain h) fun _ _ ht => .ite (.send ht) ht
  refine .checked (by simpa [Instr.wf] using hwf) (.ite .same ?_)
  split
  · exact h2
  next w hw =>
    extract_lets d s3 s4 s5
    have h3 : s.Inv → s3.Inv := fun h => .set (.set (h2 h))
    have h4 : s.Inv → s4.Inv := fun h => .ite (.modChain (h3 h)) (h3 h)
    have h5 : s.Inv → s5.Inv := fun h => .ite (h3 h) (.ite (.count (h3 h)) (.ite (.modChain (h4 h)) (h4 h)))
    exact .ite h2 fun h => .ite (.slot0 (h5 h)) (h5 h)

theorem Answers.execChnMode {n : Fin 64} : Answers s (execChnMode n s) := by
  dsimp only [Machine.execChnMode]
  split
  exacts [.same, .ite (fun h => .endWithEntry (.record h)) (.ite (fun h => .propose (.start h)) .same)]

theorem State.Inv.writeMctl {v : W32} (h : s.Inv) : (s.writeMctl v).Inv :=
  .ite (.propose (.set h)) (.set h)

theorem Answers.execVote {src : Fin 32} {pnum : BitVec 8} {why : Fin 8} : Answers s (execVote src pnum why s) := by
  dsimp only [Machine.execVote]
  split
  exacts [.same, .ite .same (fun h => .modChain h)]

theorem State.Inv.holdRun {cmd target : Nat} (h : s.Inv) : (s.holdRun cmd target).Inv :=
  .modChain h

theorem Answers.execRun {cmd : Fin 3} {target x : BitVec 64} {ver tp mask : BitVec 32} : Answers s (execRun cmd target x ver tp mask s) :=
  .ite .same (.ite (fun h => .quarantine (.mgrTpCheck h)) (.ite (fun h => .mgrTpCheck h) (fun h => .holdRun (.mgrTpCheck h))))

theorem State.Inv.sendRun {cmd : Nat} {mask : W32} (h : s.Inv) : (s.sendRun cmd mask).Inv :=
  .ite (.toAll h) (.holdRun (.toAll h))

theorem State.Inv.writeRunctl {v : W32} (h : s.Inv) : (s.writeRunctl v).Inv :=
  .ite h (.ite (.sendRun h) (.ite (.sendRun h) h))

theorem State.Inv.chainReset (h : s.Inv) : s.chainReset.Inv :=
  .checkVoids (.chainEnables (.beside (.each (.setWord (.setWord (.setWord (.resetRegs (.abortProposal h))))) (fun _ _ h1 => .setWord h1))))

theorem State.Inv.runCmd {r : RunCmd} (h : s.Inv) : (s.runCmd r).Inv :=
  .ite (.checkVoids (.pumpAll (.becomeMode (.set (.adoptConfig h))))) (.checkVoids (.chainStop h))

theorem State.Inv.modeSwitch (h : s.Inv) : s.modeSwitch.Inv := by
  unfold State.modeSwitch
  extract_lets due s1 s2
  have h1 : s1.Inv := .ite (.modChain (.set h)) h
  have h2 : s2.Inv := .modChain (.set h1)
  refine .ite (.setMode h2) ?_
  cases due with
  | none => exact h1
  | some m => exact .ite h1 (.becomeMode h1)

theorem State.Inv.runDue (h : s.Inv) : s.runDue.Inv :=
  .foldl (.modChain h) fun _ _ h1 => .runCmd h1

theorem State.Inv.chainTick (h : s.Inv) : s.chainTick.Inv := by
  unfold State.chainTick
  extract_lets s1
  have h1 : s1.Inv := .voteCheck (.modeSwitch (.runDue (.newSyncTick h)))
  exact .modChain h1

end

/-! ## Operands of the GRG instructions -/

section

variable {s : State}

theorem State.Inv.engCorr {e k : Nat} (h : s.Inv) : (s.engCorr e k).Inv :=
  .ite (.count (.frame h rfl rfl rfl)) h

theorem State.Inv.issueForced {e : Nat} {f : State → Run → Ctx → State} (h : s.Inv) (hf : Effect.Keeps f) : (s.issueForced e f).Inv := by
  dsimp only [State.issueForced]
  split
  · exact h
  · split
    exacts [.trap (.ite (.count h) h), hf.keeps (.engCorr h)]

theorem State.Inv.put {e : Nat} {c : Ctx} (h : s.Inv) : (s.put e c).Inv := by
  dsimp only [State.put]
  split
  exacts [h, .modRun (.modCtx h)]

theorem State.Inv.done {e : Nat} {c : Ctx} (h : s.Inv) : (s.done e c).Inv :=
  .put h

theorem State.Inv.alu {e d : Nat} {c : Ctx} {r : W32 × W32} (h : s.Inv) : (s.alu e d c r).Inv :=
  .done h

end

/-! ## The GRG instructions -/

section

variable {s : State}

theorem State.Inv.issueG {e : Nat} {f : State → Run → Ctx → State} (h : s.Inv) (hf : Effect.Keeps f) : (s.issueG e f).Inv :=
  .ite (.issueForced h hf) h

theorem Effect.Keeps.iAdd {e d rs t : Fin 16} : Effect.Keeps (iAdd e d rs t) :=
  ⟨fun h => .alu h⟩

theorem Effect.Keeps.iAddc {e d rs t : Fin 16} : Effect.Keeps (iAddc e d rs t) :=
  ⟨fun h => .alu h⟩

theorem Effect.Keeps.iSub {e d rs t : Fin 16} : Effect.Keeps (iSub e d rs t) :=
  ⟨fun h => .alu h⟩

theorem Effect.Keeps.iSubc {e d rs t : Fin 16} : Effect.Keeps (iSubc e d rs t) :=
  ⟨fun h => .alu h⟩

theorem Effect.Keeps.iAndD {e d rs t : Fin 16} : Effect.Keeps (iAndD e d rs t) :=
  ⟨fun h => .alu h⟩

theorem Effect.Keeps.iOrD {e d rs t : Fin 16} : Effect.Keeps (iOrD e d rs t) :=
  ⟨fun h => .alu h⟩

theorem Effect.Keeps.iXor {e d rs t : Fin 16} : Effect.Keeps (iXor e d rs t) :=
  ⟨fun h => .alu h⟩

theorem Effect.Keeps.iAndn {e d rs t : Fin 16} : Effect.Keeps (iAndn e d rs t) :=
  ⟨fun h => .alu h⟩

theorem Effect.Keeps.iShl {e d rs t : Fin 16} : Effect.Keeps (iShl e d rs t) :=
  ⟨fun h => .alu h⟩

theorem Effect.Keeps.iShr {e d rs t : Fin 16} : Effect.Keeps (iShr e d rs t) :=
  ⟨fun h => .alu h⟩

theorem Effect.Keeps.iSar {e d rs t : Fin 16} : Effect.Keeps (iSar e d rs t) :=
  ⟨fun h => .alu h⟩

theorem Effect.Keeps.iRor {e d rs t : Fin 16} : Effect.Keeps (iRor e d rs t) :=
  ⟨fun h => .alu h⟩

theorem Effect.Keeps.iCmp {e rs t : Fin 16} : Effect.Keeps (iCmp e rs t) :=
  ⟨fun h => .done h⟩

theorem Effect.Keeps.iTst {e rs t : Fin 16} : Effect.Keeps (iTst e rs t) :=
  ⟨fun h => .done h⟩

theorem Effect.Keeps.iMov {e d rs : Fin 16} : Effect.Keeps (iMov e d rs) :=
  ⟨fun h => .done h⟩

theorem Effect.Keeps.iMinS {e d rs t : Fin 16} : Effect.Keeps (iMinS e d rs t) :=
  ⟨fun h => .alu h⟩

theorem Effect.Keeps.iMaxS {e d rs t : Fin 16} : Effect.Keeps (iMaxS e d rs t) :=
  ⟨fun h => .alu h⟩

theorem Effect.Keeps.iMinu {e d rs t : Fin 16} : Effect.Keeps (iMinu e d rs t) :=
  ⟨fun h => .alu h⟩

theorem Effect.Keeps.iMaxu {e d rs t : Fin 16} : Effect.Keeps (iMaxu e d rs t) :=
  ⟨fun h => .alu h⟩

theorem Effect.Keeps.iClz {e d rs : Fin 16} : Effect.Keeps (iClz e d rs) :=
  ⟨fun h => .alu h⟩

theorem Effect.Keeps.iMull {e d rs t : Fin 16} : Effect.Keeps (iMull e d rs t) :=
  ⟨fun h => .alu h⟩

theorem Effect.Keeps.iDivu {e d rs t : Fin 16} : Effect.Keeps (iDivu e d rs t) :=
  ⟨fun h => .alu h⟩

theorem Effect.Keeps.iDivs {e d rs t : Fin 16} : Effect.Keeps (iDivs e d rs t) :=
  ⟨fun h => .alu h⟩

theorem Effect.Keeps.iAbs {e d rs : Fin 16} : Effect.Keeps (iAbs e d rs) :=
  ⟨fun h => .alu h⟩

theorem Effect.Keeps.iNeg {e d rs : Fin 16} : Effect.Keeps (iNeg e d rs) :=
  ⟨fun h => .alu h⟩

theorem Effect.Keeps.iAddi {e d rs : Fin 16} {imm : BitVec 18} : Effect.Keeps (iAddi e d rs imm) :=
  ⟨fun h => .alu h⟩

theorem Effect.Keeps.iAndi {e d rs : Fin 16} {imm : BitVec 18} : Effect.Keeps (iAndi e d rs imm) :=
  ⟨fun h => .alu h⟩

theorem Effect.Keeps.iOri {e d rs : Fin 16} {imm : BitVec 18} : Effect.Keeps (iOri e d rs imm) :=
  ⟨fun h => .alu h⟩

theorem Effect.Keeps.iXori {e d rs : Fin 16} {imm : BitVec 18} : Effect.Keeps (iXori e d rs imm) :=
  ⟨fun h => .alu h⟩

theorem Effect.Keeps.iCmpi {e rs : Fin 16} {imm : BitVec 18} : Effect.Keeps (iCmpi e rs imm) :=
  ⟨fun h => .done h⟩

theorem Effect.Keeps.iShli {e d rs : Fin 16} {amt : BitVec 5} : Effect.Keeps (iShli e d rs amt) :=
  ⟨fun h => .alu h⟩

theorem Effect.Keeps.iShri {e d rs : Fin 16} {amt : BitVec 5} : Effect.Keeps (iShri e d rs amt) :=
  ⟨fun h => .alu h⟩

theorem Effect.Keeps.iSari {e d rs : Fin 16} {amt : BitVec 5} : Effect.Keeps (iSari e d rs amt) :=
  ⟨fun h => .alu h⟩

theorem Effect.Keeps.iRori {e d rs : Fin 16} {amt : BitVec 5} : Effect.Keeps (iRori e d rs amt) :=
  ⟨fun h => .alu h⟩

theorem Effect.Keeps.iMovi {e d : Fin 16} {x : Bool} {imm : BitVec 16} : Effect.Keeps (iMovi e d x imm) :=
  ⟨fun h => .done h⟩

theorem Effect.Keeps.iExt {e d rs : Fin 16} {pos w1 : BitVec 5} {sgn : Bool} : Effect.Keeps (iExt e d rs pos w1 sgn) :=
  ⟨fun h => .ite (.trap h) (.alu h)⟩

theorem Effect.Keeps.iIns {e d rs : Fin 16} {pos w1 : BitVec 5} : Effect.Keeps (iIns e d rs pos w1) :=
  ⟨fun h => .ite (.trap h) (.alu h)⟩

theorem Effect.Keeps.iMovx {e d : Fin 16} {dir : Bool} {cls : Fin 16} {idx : Fin 8} : Effect.Keeps (iMovx e d dir cls idx) := by
  refine ⟨fun {s r c} h => ?_⟩
  dsimp only [Machine.iMovx]
  split
  · split
    exacts [.done h, .trap h]
  · split
    exacts [.done h, .trap h]

theorem Effect.Keeps.iMova {e : Fin 16} {a : Fin 8} {imm : BitVec 16} : Effect.Keeps (iMova e a imm) :=
  ⟨fun h => .done h⟩

theorem Effect.Keeps.iAdda {e : Fin 16} {a : Fin 8} {imm : BitVec 16} : Effect.Keeps (iAdda e a imm) :=
  ⟨fun h => .done h⟩

theorem Effect.Keeps.iAddar {e : Fin 16} {a b : Fin 8} : Effect.Keeps (iAddar e a b) :=
  ⟨fun h => .done h⟩

theorem Effect.Keeps.iCmpa {e : Fin 16} {a : Fin 8} {imm : BitVec 16} : Effect.Keeps (iCmpa e a imm) :=
  ⟨fun h => .done h⟩

theorem Effect.Keeps.iCmpar {e : Fin 16} {a b : Fin 8} : Effect.Keeps (iCmpar e a b) :=
  ⟨fun h => .done h⟩

theorem Effect.Keeps.iB {e cond : Fin 16} {off : BitVec 22} : Effect.Keeps (iB e cond off) := by
  refine ⟨fun {s r c} h => ?_⟩
  dsimp only [Machine.iB]
  split
  exacts [.trap h, .put h, .done h]

theorem Effect.Keeps.iBa {e : Fin 16} {cond : Fin 4} {off : BitVec 22} : Effect.Keeps (iBa e cond off) :=
  ⟨fun h => .ite (.put h) (.done h)⟩

theorem State.Inv.callTo {e : Nat} {c : Ctx} {t : W32} (h : s.Inv) : (s.callTo e c t).Inv :=
  .ite (.trap h) (.put h)

theorem Effect.Keeps.iCall {e : Fin 16} {off : BitVec 26} : Effect.Keeps (iCall e off) :=
  ⟨fun h => .callTo h⟩

theorem Effect.Keeps.iCallr {e rs : Fin 16} : Effect.Keeps (iCallr e rs) :=
  ⟨fun h => .ite (.trap h) (.callTo h)⟩

theorem Effect.Keeps.iJr {e rs : Fin 16} : Effect.Keeps (iJr e rs) :=
  ⟨fun h => .ite (.trap h) (.put h)⟩

theorem Effect.Keeps.iRet {e : Fin 16} : Effect.Keeps (iRet e) := by
  refine ⟨fun {s r c} h => ?_⟩
  dsimp only [Machine.iRet]
  split
  exacts [.trap h, .put h]

theorem State.Inv.openLoop {e : Nat} {c : Ctx} {count : BitVec 16} {off : Nat} (h : s.Inv) : (s.openLoop e c count off).Inv :=
  .ite (.trap h) (.ite (.put h) (.ite (.trap h) (.put h)))

theorem Effect.Keeps.iLoopi {e : Fin 16} {count : BitVec 16} {off : BitVec 10} : Effect.Keeps (iLoopi e count off) :=
  ⟨fun h => .openLoop h⟩

theorem Effect.Keeps.iLoop {e rs : Fin 16} {off : BitVec 18} : Effect.Keeps (iLoop e rs off) :=
  ⟨fun h => .openLoop h⟩

theorem Effect.Keeps.iLbrk {e : Fin 16} : Effect.Keeps (iLbrk e) := by
  refine ⟨fun {s r c} h => ?_⟩
  dsimp only [Machine.iLbrk]
  split
  exacts [.trap h, .put h]

theorem Effect.Keeps.iMul {e : Fin 16} {m : Fin 4} {rs t : Fin 16} : Effect.Keeps (iMul e m rs t) :=
  ⟨fun h => .done h⟩

theorem Effect.Keeps.iMulu {e : Fin 16} {m : Fin 4} {rs t : Fin 16} : Effect.Keeps (iMulu e m rs t) :=
  ⟨fun h => .done h⟩

theorem Effect.Keeps.iMac {e : Fin 16} {m : Fin 4} {rs t : Fin 16} : Effect.Keeps (iMac e m rs t) :=
  ⟨fun h => .done h⟩

theorem Effect.Keeps.iMacu {e : Fin 16} {m : Fin 4} {rs t : Fin 16} : Effect.Keeps (iMacu e m rs t) :=
  ⟨fun h => .done h⟩

theorem Effect.Keeps.iMsu {e : Fin 16} {m : Fin 4} {rs t : Fin 16} : Effect.Keeps (iMsu e m rs t) :=
  ⟨fun h => .done h⟩

theorem Effect.Keeps.iMsuu {e : Fin 16} {m : Fin 4} {rs t : Fin 16} : Effect.Keeps (iMsuu e m rs t) :=
  ⟨fun h => .done h⟩

theorem Effect.Keeps.iMld {e : Fin 16} {m : Fin 4} {rs : Fin 16} : Effect.Keeps (iMld e m rs) :=
  ⟨fun h => .done h⟩

theorem Effect.Keeps.iMclr {e : Fin 16} {m : Fin 4} : Effect.Keeps (iMclr e m) :=
  ⟨fun h => .done h⟩

theorem Effect.Keeps.iMshl {e : Fin 16} {m : Fin 4} {sh : BitVec 6} : Effect.Keeps (iMshl e m sh) :=
  ⟨fun h => .done h⟩

theorem Effect.Keeps.iMshr {e : Fin 16} {m : Fin 4} {sh : BitVec 6} : Effect.Keeps (iMshr e m sh) :=
  ⟨fun h => .done h⟩

theorem Effect.Keeps.iRnd {e d : Fin 16} {m : Fin 4} {sh : BitVec 6} : Effect.Keeps (iRnd e d m sh) :=
  ⟨fun h => .alu h⟩

theorem Effect.Keeps.iWfe {e d rs : Fin 16} : Effect.Keeps (iWfe e d rs) :=
  ⟨fun h => .ite (.done h) (.wfeCheck (.modRun h))⟩

theorem State.Inv.sevMask {slot line mask : Nat} (h : s.Inv) : (s.sevMask slot line mask).Inv :=
  .each h (fun _ _ h1 => .ite (.register h1) h1)

theorem Effect.Keeps.iSev {e : Fin 16} {line : Fin 4} {rs : Fin 16} : Effect.Keeps (iSev e line rs) :=
  ⟨fun h => .sevMask (.done h)⟩

theorem Effect.Keeps.iWaitt {e rs l : Fin 16} : Effect.Keeps (iWaitt e rs l) :=
  ⟨fun h => .ite (.modRun h) (.ite (.done h) (.ite (.done h) (.trap h)))⟩

theorem Effect.Keeps.iGett {e d : Fin 16} : Effect.Keeps (iGett e d) :=
  ⟨fun h => .done h⟩

theorem Effect.Keeps.iGettk {e d : Fin 16} : Effect.Keeps (iGettk e d) :=
  ⟨fun h => .done h⟩

theorem Effect.Keeps.iNop {e : Fin 16} : Effect.Keeps (iNop e) :=
  ⟨fun h => .done h⟩

theorem Effect.Keeps.iEndTask {e : Fin 16} : Effect.Keeps (iEndTask e) :=
  ⟨fun h => .endTask (.put h)⟩

theorem Effect.Keeps.iRett {e : Fin 16} : Effect.Keeps (iRett e) := by
  refine ⟨fun {s r c} h => ?_⟩
  dsimp only [Machine.iRett]
  split
  exacts [.trap h, .modRun (.put h), .endTask h]

theorem Effect.Keeps.iIllegalInstruction {e : Fin 16} {_w : BitVec 32} : Effect.Keeps (iIllegalInstruction e _w) :=
  ⟨fun h => .trap h⟩

theorem State.Inv.waittRelease {e : Fin 16} (h : s.Inv) : (s.waittRelease e).Inv := by
  dsimp only [State.waittRelease]
  split
  · exact h
  · split
    exacts [.ite (.done h) h, h]

end

/-! ## Ingot's jobs -/

section

variable {s : State}

theorem State.Inv.modIng {f : Ingot → Ingot} (h : s.Inv) : (s.modIng f).Inv :=
  .frame h rfl rfl rfl

theorem State.Inv.queueRecord (h : s.Inv) : s.queueRecord.Inv :=
  .ite (.modIng h) h

theorem State.Inv.endSub (h : s.Inv) : s.endSub.Inv :=
  .ite (.set (.set h)) h

theorem State.Inv.recordEnd {ok : Bool} (h : s.Inv) : (s.recordEnd ok).Inv :=
  .queueRecord (.endSub (.ite (.set (.set (.frame h rfl rfl rfl))) (.record (.set h))))

theorem State.Inv.addRepair {kind source unit index spare : Nat} (h : s.Inv) : (s.addRepair kind source unit index spare).Inv :=
  .ite (.endSub (.record (.set h))) (.queueRecord (.setB (.set (.frame h rfl rfl rfl))))

theorem State.Inv.ingProgress {j : IngJob} (h : s.Inv) : (s.ingProgress j).Inv := by
  dsimp only [State.ingProgress]
  split
  exacts [.modDesc h, h]

theorem State.Inv.ingDone {j : IngJob} (h : s.Inv) : (s.ingDone j).Inv := by
  dsimp only [State.ingDone]
  split
  exacts [.ite (.endNoEntry h) (.doneNow h), .set (.set h), .recordEnd h]

theorem State.Inv.ingFail {j : IngJob} {code : Nat} (h : s.Inv) : (s.ingFail j code).Inv := by
  dsimp only [State.ingFail]
  split
  exacts [.endWithEntry h, .set (.set h), .recordEnd h]

theorem State.Inv.ingStop {j : IngJob} (h : s.Inv) : (s.ingStop j).Inv := by
  dsimp only [State.ingStop]
  split
  exacts [.ite (.finish h) (.endNoEntry h), h]

theorem State.Inv.ingStart {j : IngJob} (h : s.Inv) : (s.ingStart j).Inv :=
  .ite (.ingFail (.record (.set h))) (.ite (.ingFail (.record (.set h))) (.ite (.set (.set (.set (.set (.modIng (.ite
      (.frame h rfl rfl rfl) h)))))) (.set (.set (.modIng (.ite (.frame h rfl rfl rfl) h))))))

theorem State.Inv.ingResume (h : s.Inv) : s.ingResume.Inv := by
  dsimp only [State.ingResume]
  split
  exacts [.set (.set (.set (.set (.modIng h)))), h]

theorem State.Inv.ingNext {n : Nat} (h : s.Inv) : (State.ingNext n s).Inv := by
  induction n generalizing s with
  | zero => exact h
  | succ n ih =>
    unfold State.ingNext
    split
    · exact .ite (.modIng h) h
    · split
      · exact ih (.ingStart (.modIng h))
      · split
        exacts [.ite h (.ingResume h), h]

theorem State.Inv.ingGo (h : s.Inv) : s.ingGo.Inv :=
  .ingNext h

theorem State.Inv.ingQueue {j : IngJob} (h : s.Inv) : (s.ingQueue j).Inv :=
  .ingGo (.modIng h)

theorem State.Inv.ingFree (h : s.Inv) : s.ingFree.Inv :=
  .set (.set (.modIng h))

theorem State.Inv.ingUnitDone {j rest : IngJob} {more : Bool} (h : s.Inv) : (s.ingUnitDone j rest more).Inv :=
  .ite (.ingGo (.ingDone (.ingProgress (.ingFree h)))) (.ite (.ingGo (.ingStop (.ingProgress (.ingFree h)))) (.ingGo (.modIng (.ingProgress
      (.ingFree h)))))

theorem State.Inv.ingAsk (h : s.Inv) : s.ingAsk.Inv :=
  .ite (.modIng h) h

theorem State.Inv.ingServed (h : s.Inv) : s.ingServed.Inv :=
  .ite (.ingGo (.modIng h)) h

theorem State.Inv.ingCut {n : Nat} (h : s.Inv) : (s.ingCut n).Inv :=
  .ingGo (.foldl (.modIng h) fun _ _ h1 => .ingStop h1)

end

/-! ## Sessions of the Warden -/

section

variable {s : State}

theorem State.Inv.raiseArb {i v : Nat} (h : s.Inv) : (s.raiseArb i v).2.Inv := by
  dsimp only [State.raiseArb]
  split
  · exact h
  · split
    exacts [.set h, .set (.frame h rfl rfl rfl)]

end

/-! ## Commands of the loader -/

section

variable {s : State}

theorem State.Inv.requestLoad {r : LoadReq} (h : s.Inv) : (s.requestLoad r).Inv :=
  .afterLoad (.frame h rfl rfl rfl)

theorem Answers.execPrsLoad {n : Fin 64} {sfdp flash : List Byte} : Answers s (execPrsLoad n sfdp flash s) := by
  dsimp only [Machine.execPrsLoad]
  split
  · exact .same
  · split
    · exact .same
    · split
      · split
        exacts [.same, fun h => .requestLoad (.modDesc h)]
      · exact fun h => .requestLoad (.modDesc h)
      · exact fun h => .requestLoad (.modDesc h)

theorem Answers.execPrsUnload {n : Fin 64} : Answers s (execPrsUnload n s) := by
  dsimp only [Machine.execPrsUnload]
  split
  exacts [.same, .ite (fun h => .afterLoad (.tryUnload (.modSlot (.start h)))) (fun h => .tryUnload (.modSlot (.start h)))]

theorem State.Inv.loadFails {n code : Nat} (h : s.Inv) : (s.loadFails n code).Inv :=
  .afterLoad (.failLoad h)

theorem State.Inv.setHash {n : Nat} {st : List Byte} (h : s.Inv) : (s.setHash n st).Inv :=
  .setWord64 h

theorem State.Inv.takeRange {n : Nat} {st : List Byte} {a b : Nat} (h : s.Inv) : (s.takeRange n st a b).2.Inv := by
  dsimp only [State.takeRange]
  split
  exacts [.applyRange h, h]

theorem State.Inv.frameBytes {n a : Nat} (h : s.Inv) : (s.frameBytes n a).Inv := by
  unfold State.frameBytes
  extract_lets st b early p q
  have hp : p.2.1.Inv := by
    dsimp only [p]
    refine .ite21 h (.ite21 h ?_)
    generalize s.admission n st = refusal
    cases refusal with
    | none =>
      dsimp only
      exact .claim h
    | some c =>
      dsimp only
      exact h
  have hq : q.2.Inv := .takeRange hp
  refine .ite (.loadFails h) (.ite (.loadFails h) (.ite (.ite (.loadFails h) h) ?_))
  split
  · exact .loadFails h
  split
  exacts [.loadFails hq, .ite (.ite (.setHash hq) (.loadFails hq)) hq]

theorem Answers.execFrameRecord : Answers s (execFrameRecord s) := by
  dsimp only [Machine.execFrameRecord]
  split
  · exact .same
  · exact .ite (fun h => .loadFails (.fillRecord h)) (.ite (fun h => .fillRecord h) (.ite (fun h => .loadFails
      (.fillRecord h)) (fun h => .frameBytes (.set (.modSlot (.fillRecord h))))))

theorem Answers.execTagCheckDone {n : Fin 3} : Answers s (execTagCheckDone n () s) := by
  unfold Machine.execTagCheckDone
  extract_lets staged r s1 st arb s2 q
  have hr : s.Inv → s1.Inv := fun h => by
    dsimp only [s1, r]
    cases s.partition 3 with
    | none => exact h
    | some b => exact .hoardRead h
  clear_value s1 st
  have hfails : ∀ {c}, Answers s (.next (s1.loadFails n c)) := fun h => .loadFails (hr h)
  generalize trailerOk st = ends
  refine .ite .same (.ite .same (.ite hfails (.ite hfails (.ite hfails (.ite hfails ?_)))))
  split
  · exact hfails
  have hq : s.Inv → q.2.Inv := fun h => .applyRange (.claim (hr h))
  refine .ite (fun h => .loadFails (.claim (hr h))) ?_
  split
  exacts [fun h => .loadFails (hq h), fun h => .setHash (hq h)]

theorem State.Inv.doStep {n step : Nat} (h : s.Inv) : (s.doStep n step).Inv := by
  dsimp only [State.doStep]
  split
  exacts [.ite h (.set h), .foldl h fun _ _ h1 => .set h1, h]

theorem State.Inv.loadEnds {n : Nat} (h : s.Inv) : (s.loadEnds n).Inv :=
  .afterLoad (.set (.beside (.endLoad (.modSlot (.foldl h fun _ _ h1 => .modEng h1)))))

theorem State.Inv.passDone {n : Nat} {after : Option Nat} (h : s.Inv) : (s.passDone n after).Inv :=
  .ite (.loadEnds (.setSlotState (.modSlot h))) (.setSlotState (.modSlot h))

theorem Answers.execStartUpStep {n : Fin 3} : Answers s (execStartUpStep n s) :=
  .ite .same (.ite (.ite (fun h => .passDone (.set (.doStep h))) (fun h => .ite (.setSlotState (.set (.doStep h))) (.afterLoad (.tryUnload
      (.setSlotState (.set (.doStep h))))))) (.ite (fun h => .loadEnds (.set (.doStep h))) (fun h => .set (.doStep h))))

theorem State.Inv.prsGather (h : s.Inv) : s.prsGather.Inv :=
  .each h (fun _ _ h1 => .modSlot h1)

theorem State.Inv.prsCompute (h : s.Inv) : s.prsCompute.Inv :=
  .each h (fun _ _ h1 => .ite h1 (.ite (.foldl (.ite (.raiseArb (.set (.setSlotState h1))) (.set (.setSlotState h1))) fun _ _ h2 => .setWord h2)
      (.ite (.raiseArb (.set (.setSlotState h1))) (.set (.setSlotState h1)))))

theorem State.Inv.bootLoads {d : List Byte} {src : Nat → Nat → LoadSrc} (h : s.Inv) : (s.bootLoads d src).Inv :=
  .ite (.afterLoad (.frame h rfl rfl rfl)) (.set (.set h))

theorem Answers.execBootAutoload {f : BootFlash} {images : List (List Byte)} : Answers s (execBootAutoload f images s) := by
  dsimp only [Machine.execBootAutoload]
  split
  · exact .same
  · split
    · exact fun h => .set h
    · exact fun h => .bootLoads (.readSrc h)
    · exact fun h => .bootLoads (.spiRead h)
    · exact fun h => .ite (.bootLoads (.readSrc h)) (.bootLoads (.spiRead (.readSrc h)))

theorem State.Inv.upsetReport {n t : Nat} {flag : Fld} (h : s.Inv) : (s.upsetReport n t flag).Inv :=
  .ite (.quench (.record (.count (.set h)))) (.record (.count (.set h)))

theorem State.Inv.flip {t f b : Nat} (h : s.Inv) : (s.flip t f b).Inv :=
  ⟨Memory.wf_write _ _ _ h.1, h.2⟩

theorem State.Inv.rbFrameRead {n t f : Nat} (h : s.Inv) : (s.rbFrameRead n t f).Inv := by
  dsimp only [State.rbFrameRead]
  split
  · split
    exacts [h, .set (.count (.flip h)), .upsetReport h]
  · exact .ite (.upsetReport (.frame h rfl rfl rfl)) (.frame h rfl rfl rfl)

theorem Answers.execReadbackFrame {flips : List (Fin 512)} : Answers s (execReadbackFrame flips s) := by
  dsimp only [Machine.execReadbackFrame]
  split
  · exact .same
  · split
    · exact fun h => .frame h rfl rfl rfl
    · split
      exacts [.same, fun h => .beside (.rbFrameRead (.foldl h fun _ _ h1 => .flip h1))]

end

/-! ## Commands of the ports -/

section

variable {s : State}

theorem State.Inv.fillBufs {n : Nat} {time : W32} {first : Bool} {l : List Desc} {b : List Byte} (h : s.Inv)
    : (s.fillBufs n time first l b).Inv := by
  induction l generalizing s first b with
  | nil => exact h
  | cons d q ih =>
    have hpart : ∀ {o p f}, ((s.issue o).modDesc n p f).Inv := .modDesc (.issue h)
    exact .ite (.finish hpart) (.ite (.finish (.recordRing hpart)) (ih (.finish hpart)))

theorem State.Inv.deliver {port cls : Nat} {b : List Byte} {time : W32} (h : s.Inv) : (s.deliver port cls b time).Inv := by
  dsimp only [State.deliver]
  split
  · exact .count h
  · split
    exacts [.count h, .fillBufs h]

theorem State.Inv.releaseDue (h : s.Inv) : s.releaseDue.Inv :=
  .ite h (.each (.frame h rfl rfl rfl) (fun _ _ h1 => .pauseCheck h1))

theorem State.Inv.deliverRx (h : s.Inv) : s.deliverRx.Inv :=
  .releaseDue (.foldl (.drainWait (.beside (.foldl (.frame h rfl rfl rfl) fun _ _ h1 => .deliver h1))) fun _ _ h1 => .deliver h1)

theorem Answers.execPauseRefresh {p : Fin 6} : Answers s (execPauseRefresh p s) :=
  fun h => .ite (.queuePause h) h

theorem State.Inv.takePause {p quanta : Nat} (h : s.Inv) : (s.takePause p quanta).Inv :=
  .ite h (.select (.checkVoid (.set (.set (.modPort (.credits h))))))

theorem State.Inv.endPause {p : Nat} (h : s.Inv) : (s.endPause p).Inv :=
  .select (.checkVoid (.set (.set (.modPort (.credits h)))))

theorem State.Inv.preUpdate {p : Nat} (h : s.Inv) : (s.preUpdate p).Inv :=
  .ite (.set (.set h)) (.ite (.set (.set h)) (.ite (.send (.modPort (.set (.set h)))) (.setB h)))

theorem State.Inv.cutEgress {p : Nat} {code : W32} {e : Nat} (h : s.Inv) : (s.cutEgress p code e).Inv :=
  .ite h (.select (.registerAll (.modPort (.count (.send h)))))

theorem State.Inv.stompOf {b : Option (List Byte)} (h : s.Inv) : (s.stompOf b).2.Inv := by
  dsimp only [State.stompOf]
  split
  exacts [h, .free h]

theorem State.Inv.stompOut {p : Nat} {b : Option (List Byte)} (h : s.Inv) : (s.stompOut p b).Inv := by
  dsimp only [State.stompOut]
  split
  exacts [h, .ite h (.onOneEdge (.stompOf h) (fun _ h1 => .foldl h1 fun _ _ h2 => .cutEgress h2))]

theorem State.Inv.linkFalls {p sent : Nat} (h : s.Inv) : (s.linkFalls p sent).Inv :=
  .ite h (.portDown (.ite (.stompOut h) (.count (.stompOut h))))

theorem State.Inv.collide {p : Nat} (h : s.Inv) : (s.collide p).Inv := by
  dsimp only [State.collide]
  split
  · exact h
  · split
    · split
      exacts [.endTx (.modPort (.free (.send h))), .failFrame (.modPort (.free (.send h)))]
    · exact .modPort (.free (.send h))

theorem State.Inv.tileAbort {p : Nat} (h : s.Inv) : (s.tileAbort p).Inv :=
  .ite h (.modPort (.foldl (.stompOf h) fun _ _ h1 => .cutEgress h1))

theorem Answers.execCutThroughStart {p : Fin 4} {b : List Byte} {ev : CutEvent} : Answers s (execCutThroughStart p b ev s) := by
  dsimp only [Machine.execCutThroughStart]
  split
  exacts [fun h => .tileAbort h, .ite .same (fun h => .modPort (.foldl h fun _ _ h1 => .send (.modPort (.credits h1))))]

theorem Answers.execCutThroughOverlength {p : Fin 4} : Answers s (execCutThroughOverlength p s) := by
  dsimp only [Machine.execCutThroughOverlength]
  split
  exacts [.same, .ite .same (fun h => .count (.modPort (.stompOut h)))]

theorem State.Inv.endCut {p : Nat} (h : s.Inv) : (s.endCut p).Inv :=
  .modPort h

theorem State.Inv.storeRx {p : Nat} {r : RxFrame} (h : s.Inv) : (s.storeRx p r).Inv :=
  .modPort (.wr (.wr h))

theorem State.Inv.wholeCut {p : Nat} {b : List Byte} (h : s.Inv) : (s.wholeCut p b).Inv :=
  .each h (fun _ _ h1 => .modPort h1)

theorem State.Inv.receive {p : Nat} {b : List Byte} {cls : Option Nat} {loc toHost : Bool} (h : s.Inv) : (s.receive p b cls loc toHost).Inv :=
  .ite (.ite (.endCut (.stompOut h)) (.count (.endCut (.stompOut h)))) (.ite (.count (.endCut (.stompOut h))) (.ite (.takePause (.endCut h))
      (.ite (.count (.ite (.count (.endCut (.ite (.stompOut h) (.wholeCut h)))) (.endCut (.ite (.stompOut h) (.wholeCut h))))) (.pauseCheck
      (.foldl ((by
        split
        · exact .ite (.storeRx (.cbReceive (.ite (.count (.endCut (.ite (.stompOut h) (.wholeCut h)))) (.endCut (.ite (.stompOut h)
            (.wholeCut h)))))) (.storeRx (.ite (.cbReceive (.ite (.count (.endCut (.ite (.stompOut h) (.wholeCut h)))) (.endCut (.ite
            (.stompOut h) (.wholeCut h))))) (.storeRx (.cbReceive (.ite (.count (.endCut (.ite (.stompOut h) (.wholeCut h)))) (.endCut (.ite
            (.stompOut h) (.wholeCut h))))))))
        · exact .ite (.cbReceive (.ite (.count (.endCut (.ite (.stompOut h) (.wholeCut h)))) (.endCut (.ite (.stompOut h) (.wholeCut h)))))
            (.storeRx (.cbReceive (.ite (.count (.endCut (.ite (.stompOut h) (.wholeCut h)))) (.endCut (.ite (.stompOut h)
            (.wholeCut h)))))))) fun _ _ h1 => .select (.join h1))))))

theorem State.Inv.releaseRx (h : s.Inv) : s.releaseRx.Inv :=
  .frame h rfl rfl rfl

theorem State.Inv.gatherFrame {p : Nat} {cls7 : Bool} {r : RxFrame} (h : s.Inv) : (s.gatherFrame p cls7 r).2.Inv := by
  dsimp only [State.gatherFrame]
  split
  · exact h
  · split
    exacts [.frame h rfl rfl rfl, h]

theorem State.Inv.gatherFrames {p : Nat} {cls7 : Bool} {l : List RxFrame} (h : s.Inv) : (s.gatherFrames p cls7 l).2.Inv :=
  .foldlOn Prod.snd h fun _ _ h1 => .gatherFrame h1

theorem State.Inv.handover {cls7 : Bool} (h : s.Inv) : (s.handover cls7).Inv :=
  .each (.each h (fun _ _ h1 => .pauseCheck (.modPort (.gatherFrames h1)))) (fun _ _ h1 => .beside (.gatherFrames h1))

theorem Answers.execTransmitDone {p : Fin 6} : Answers s (execTransmitDone p s) := by
  dsimp only [Machine.execTransmitDone]
  split
  · exact .same
  · exact fun h => .select ((by
        split
        · exact .endTx (.registerAll (.ite (.count (.send (.modPort (.credits h)))) (.modPort (.credits h))))
        · exact .fwdGone (.registerAll (.ite (.count (.send (.modPort (.credits h)))) (.modPort (.credits h))))
        · exact .registerAll (.ite (.count (.send (.modPort (.credits h)))) (.modPort (.credits h)))))

theorem State.Inv.swapGates {p : Nat} (h : s.Inv) : (s.swapGates p).Inv :=
  .set (.modPort h)

theorem State.Inv.writeGctl {p : Nat} {v : W32} (h : s.Inv) : (s.writeGctl p v).Inv :=
  .select (.ite (.set (.set (.credits h))) (.ite (.modPort (.set (.set (.set (.credits h))))) (.swapGates (.set (.set (.credits h))))))

theorem Answers.execGateEntryStart {p : Fin 6} : Answers s (execGateEntryStart p s) :=
  .ite (fun h => .select (.modPort (.credits h))) .same

theorem State.Inv.noFit {p : Nat} (h : s.Inv) : (s.noFit p).Inv :=
  .ite h (.foldl h fun _ _ h1 => (by split; exacts [h1, .ite (.failFrame (.record (.modPort h1))) h1]))

theorem State.Inv.portsTick (h : s.Inv) : s.portsTick.Inv :=
  .each h (fun _ _ h1 => .select (.noFit (.modPort (.ite (.swapGates (.credits h1)) (.credits h1)))))

theorem State.Inv.modCan {c : Nat} {f : Can → Can} (h : s.Inv) : (s.modCan c f).Inv :=
  .frame h rfl rfl rfl

theorem State.Inv.canSelect {c : Nat} (h : s.Inv) : (s.canSelect c).Inv := by
  dsimp only [State.canSelect]
  split
  · exact h
  · split
    exacts [h, .send (.modCan h)]

theorem State.Inv.endCan {f : Frame} {st sent : Nat} {led : Option (BitVec 16)} {time : Option W32} (h : s.Inv)
    : (s.endCan f st sent led time).Inv := by
  dsimp only [State.endCan]
  split
  exacts [.endTx h, h]

theorem State.Inv.canErrs {c tec rec : Nat} (h : s.Inv) : (s.canErrs c tec rec).Inv :=
  .ite (.set (.set h)) (.set (.set (.set h)))

theorem Answers.execCanFrameTransmitted {c : Fin 2} {tec rec : BitVec 8} : Answers s (execCanFrameTransmitted c tec rec s) := by
  dsimp only [Machine.execCanFrameTransmitted]
  split
  exacts [.same, fun h => .canSelect (.endCan (.modCan (.canErrs h)))]

theorem State.Inv.canRetry {c : Nat} (h : s.Inv) : (s.canRetry c).Inv := by
  dsimp only [State.canRetry]
  split
  exacts [h, .canSelect (.modCan h)]

theorem Answers.execCanFrameReceived {c : Fin 2} {f : CanRx} {tec rec : BitVec 8} (hwf : Instr.wf (.canFrameReceived c f tec rec) = true)
    : Answers s (execCanFrameReceived c f tec rec s) :=
  .checked (by simpa [Instr.wf] using hwf) (.ite .same (.ite .same (fun h => .registerAll (.modCan (.canErrs h)))))

theorem State.Inv.canRecover {c : Nat} (h : s.Inv) : (s.canRecover c).Inv :=
  .ite (.modCan h) h

end

/-! ## Video receivers -/

section

variable {s : State}

theorem State.Inv.modVid {n : Nat} {f : Video → Video} (h : s.Inv) : (s.modVid n f).Inv :=
  .frame h rfl rfl rfl

theorem State.Inv.takePages {n k : Nat} (h : s.Inv) : (s.takePages n k).Inv := by
  induction k generalizing s with
  | zero => exact h
  | succ k ih =>
    unfold State.takePages
    dsimp only
    split
    exacts [h, ih (.modVid (.free h))]

theorem State.Inv.auWrite {a : AccessUnit} {pos : Nat} {b : List Byte} (h : s.Inv) : (s.auWrite a pos b).2.Inv :=
  .foldlOn Prod.snd h fun _ _ h1 => .hoardWrite h1

theorem State.Inv.auRead {a : AccessUnit} {n : Nat} (h : s.Inv) : (s.auRead a n).2.2.Inv := by
  refine .foldlOn (fun x : Bool × List Byte × State => x.2.2) h fun _ _ ht => ?_
  split <;> exact .ofEq ht.hoardRead ‹_›

theorem State.Inv.endAu {n : Nat} {nomark : Bool} (h : s.Inv) : (s.endAu n nomark).Inv := by
  dsimp only [State.endAu]
  split
  exacts [h, .ite (.count (.modVid h)) (.modVid (.modVid h))]

theorem State.Inv.dropAu {n : Nat} {f : Fld} (h : s.Inv) : (s.dropAu n f).Inv :=
  .modVid (.count h)

theorem State.Inv.makeRoom {n old new : Nat} (h : s.Inv) : (s.makeRoom n old new).Inv :=
  .foldl h fun _ _ h1 => (by
        split
        · exact h1
        · split
          exacts [.modVid (.count h1), .dropAu h1])

theorem State.Inv.growAu {n codec : Nat} {b : List Byte} {types : List Nat} (h : s.Inv) : (s.growAu n codec b types).Inv := by
  dsimp only [State.growAu]
  split
  · exact h
  · split
    · exact .dropAu h
    · split
      exacts [.ite (.takePages (.makeRoom h)) (.makeRoom h), .modVid (.auWrite (.ite (.takePages (.makeRoom h)) (.makeRoom h)))]

theorem State.Inv.takePacket {n seq t0 : Nat} {ssrc ts : W32} {mark : Bool} {payload : List Byte} (h : s.Inv) :
    (s.takePacket n ssrc ts seq mark payload t0).Inv := by
  unfold State.takePacket
  extract_lets v codec d loss s1 s2 s3 a s4 s5 s6 s7
  have h2 : s2.Inv := by
    dsimp only [s2]
    split
    exacts [.ite (.modVid h) (.endAu (.modVid h)), .modVid h]
  have h4 : s4.Inv := .ite (.modVid h2) (.modVid (.modVid h2))
  have h6 : s6.Inv := by
    dsimp only [s6]
    split
    exacts [.growAu (.modVid (.modVid h4)), .ite (.modVid h4) (.growAu (.modVid h4)), .modVid (.modVid h4)]
  exact .ite (.count h) (.ite (.ite (.modVid h2) h2) (.ite (.endAu (.ite (.modVid h6) h6)) h6))

theorem State.Inv.streamTakes {u n len : Nat} {x : Rtp} (h : s.Inv) : (s.streamTakes u n len x).Inv :=
  .ite (.count h) (.takePacket (.frame h rfl rfl rfl))

theorem Answers.execVideoPacket {u : Fin 2} {dport : BitVec 16} {pt : BitVec 7} {ssrc ts : BitVec 32} {seq : BitVec 16} {mark : Bool} {len
    : BitVec 11} {payload : List Byte} : Answers s (execVideoPacket u dport pt ssrc ts seq mark len payload s) := by
  dsimp only [Machine.execVideoPacket]
  split
  exacts [.same, fun h => .streamTakes h]

theorem Answers.execRxFrame {p : Fin 6} {b : List Byte} {cls : Option (Fin 8)} {rt : RxRoute} {fcs : BitVec 32}
    : Answers s (execRxFrame p b cls rt fcs s) := by
  dsimp only [Machine.execRxFrame]
  split
  · exact .same
  · split
    exacts [fun h => .streamTakes h, fun h => .ite (.receive (.halfPort h)) (.select (.receive (.halfPort h)))]

theorem State.Inv.videoCopy {n : Nat} (h : s.Inv) : (s.videoCopy n).Inv := by
  dsimp only [State.videoCopy]
  split
  · exact h
  · split
    · exact h
    · split
      · exact h
      · exact .ite (.modVid (.count (.auRead (.modVid h)))) (.ite (.finish (.free (.modDesc (.issue (.auRead (.modVid h)))))) (.finish (.modDesc
          (.issue (.auRead (.modVid h))))))

theorem State.Inv.videoGather (h : s.Inv) : s.videoGather.Inv :=
  .releaseDue (.each h (fun _ _ h1 => .videoCopy h1))

theorem Answers.execVidBuf {n : Fin 64} : Answers s (execVidBuf n s) := by
  dsimp only [Machine.execVidBuf]
  split
  · exact .same
  · split
    exacts [.same, fun h => .modDesc h]

end

/-! ## Commands of the rings -/

section

variable {s : State}

theorem State.Inv.doorbellRead (h : s.Inv) : s.doorbellRead.Inv :=
  .ite h (.ite (.ite h (.frame h rfl rfl rfl)) (.issue (.frame h rfl rfl rfl)))

theorem State.Inv.activateRings (h : s.Inv) : s.activateRings.Inv :=
  .each h (fun _ _ h1 => .modRing h1)

theorem State.Inv.takeEntry {n k p g : Nat} {mask : Bool} (h : s.Inv) : (s.takeEntry n k p g mask).Inv :=
  .ite (.modRing h) (.ite (.ringError (.modRing h)) (.ite (.ringError (.modRing h)) (.ite (.modRing (.modRing h)) (.modRing (.modRing h)))))

theorem State.Inv.fetchRing {n : Nat} (h : s.Inv) : (s.fetchRing n).Inv :=
  .ite h (.modRing (.foldl h fun _ _ h1 => .issue h1))

theorem State.Inv.fetchAll (h : s.Inv) : s.fetchAll.Inv :=
  .foldl (.foldl h fun _ _ h1 => .fetchRing h1) fun _ _ h1 => .fetchRing h1

theorem Answers.execDoorbellReadComplete {ok : Bool} {block : List Byte} (hwf : Instr.wf (.doorbellReadComplete ok block) = true) :
    Answers s (execDoorbellReadComplete ok block s) := by
  have hlen : ¬ (ok = true ∧ block.length ≠ 512) := by
    simp only [Instr.wf, Bool.or_eq_true, beq_iff_eq] at hwf
    grind
  unfold Machine.execDoorbellReadComplete
  extract_lets x s1 s2 y
  have h1 : s.Inv → s1.Inv := fun h => .landed (.frame h rfl rfl rfl)
  have h2 : s.Inv → s2.Inv := fun h => .ite (.fetchAll (.each (h1 h) fun _ _ ht => .takeEntry ht)) (.vecEvent (.record (.count (h1 h))))
  exact .checked hlen (.ite .same fun h => .ite (.doorbellRead (.beside (h2 h))) (h2 h))

theorem State.Inv.append {n : Nat} {d : Desc} (h : s.Inv) : (s.append n d).Inv :=
  .modRing h

theorem State.Inv.readData {n : Nat} {d : Desc} (h : s.Inv) : (s.readData n d).Inv :=
  .ite (.issue h) h

theorem State.Inv.endUnstarted {n : Nat} {p : Desc → Bool} {st : Nat} {led : Option (BitVec 16)} {op : Nat} (h : s.Inv)
    : (s.endUnstarted n p st led op).Inv :=
  .finish h

theorem State.Inv.closeChain {n i g op cls target : Nat} (h : s.Inv) : (s.closeChain n i g op cls target).Inv := by
  dsimp only [State.closeChain]
  split
  · exact .endUnstarted (.modRing h)
  · exact .ite (.finish (.noteSeq (.modRing h))) (.ite (.finish (.noteSeq (.record (.modRing h)))) (.modRing h))

theorem State.Inv.consumeFirst {n : Nat} {d : Desc} (h : s.Inv) : (s.consumeFirst n d).Inv :=
  .ite (.closeChain (.modRing (.ite (.recordRing (.append h)) (.readData (.append h))))) (.ite (.endUnstarted (.modRing (.modRing (.ite
      (.recordRing (.append h)) (.readData (.append h)))))) (.modRing (.ite (.recordRing (.append h)) (.readData (.append h)))))

theorem State.Inv.consumeNext {n i g : Nat} {d : Desc} (h : s.Inv) : (s.consumeNext n i g d).Inv := by
  dsimp only [State.consumeNext]
  split
  · exact .ite (.modRing (.endUnstarted (.append h))) (.endUnstarted (.append h))
  · exact .ite (.closeChain (.ite (.modRing (.ite (.recordRing (.append h)) (.ite (.readData (.append h)) (.append h)))) (.ite (.recordRing
      (.append h)) (.ite (.readData (.append h)) (.append h))))) (.ite (.modRing (.ite (.recordRing (.append h)) (.ite (.readData (.append h))
      (.append h)))) (.ite (.recordRing (.append h)) (.ite (.readData (.append h)) (.append h))))

theorem Answers.execDescriptorReadComplete {n : Fin 64} {ok : Bool} {b : List Byte} (hwf : Instr.wf (.descriptorReadComplete n ok b) = true) :
    Answers s (execDescriptorReadComplete n ok b s) := by
  have hlen : ¬ (ok = true ∧ b.length ≠ 32) := by
    simp only [Instr.wf, Bool.or_eq_true, beq_iff_eq] at hwf
    grind
  unfold Machine.execDescriptorReadComplete
  extract_lets s1 r kdb d
  have h1 : s.Inv → s1.Inv := fun h => .landed (.modRing h)
  refine .checked hlen (.ite .same (.ite h1 (.ite h1 (.ite (fun h => .ite (.ringError (h1 h)) (h1 h)) (.ite (fun h => .endUnstarted
      (.append (h1 h))) ?_)))))
  split
  exacts [fun h => .checkVoids (.consumeFirst (h1 h)), fun h => .checkVoids (.consumeNext (h1 h))]

theorem Answers.execHostDataReadComplete {n : Fin 64} {idx : BitVec 16} {ok : Bool} {b : List Byte}
    : Answers s (execHostDataReadComplete n idx ok b s) := by
  dsimp only [Machine.execHostDataReadComplete]
  split
  · exact fun h => .landed h
  · split
    · exact fun h => .landed h
    · exact .ite (.ite (fun h => .modDesc (.landed h)) (fun h => .landed h)) (.ite (fun h => .modDesc (.landed h)) (.ite (fun h => .endNoEntry
        (.landed h)) (fun h => .modRing (.free (.landed h)))))

theorem Answers.execTxFrame {n : Fin 64} : Answers s (execTxFrame n s) := by
  dsimp only [Machine.execTxFrame]
  split
  · exact .same
  · split
    · exact .same
    · split
      · exact .same
      · exact .ite (.ite (fun h => .endTx (.noteSeq (.record (.modDesc h)))) (.ite (fun h => .modCan (.modDesc h)) (fun h => .canSelect (.modCan
          (.modDesc h))))) (.ite (fun h => .endTx (.modDesc h)) (.ite (fun h => .endTx (.noteSeq (.record (.modDesc h))))
          (.ite (fun h => .modPort (.modDesc h)) (fun h => .select (.join (.modDesc h))))))

theorem Answers.execRxBuf {n : Fin 64} : Answers s (execRxBuf n s) := by
  dsimp only [Machine.execRxBuf]
  split
  · exact .same
  · split
    exacts [.same, fun h => .modDesc h]

theorem Answers.execCmdNop {n : Fin 64} : Answers s (execCmdNop n s) := by
  dsimp only [Machine.execCmdNop]
  split
  exacts [.same, fun h => .doneNow h]

theorem State.Inv.copyIn {o p : Nat} {l : List (List Byte)} (h : s.Inv) : (s.copyIn o l p).2.2.Inv := by
  induction l generalizing s p with
  | nil => exact h
  | cons u r ih =>
    unfold State.copyIn
    split
    exacts [ih (.ofEq h.hoardWrite ‹_›), .ofEq h.hoardWrite ‹_›]

theorem State.Inv.copyOut {burst : Bool} {o n left : Nat} {acc : List Byte} (h : s.Inv) : (s.copyOut burst o n left acc).2.2.Inv := by
  induction n generalizing s left acc with
  | zero => exact h
  | succ n ih =>
    unfold State.copyOut
    split
    exacts [ih (.ofEq h.hoardReadAs ‹_›), .ofEq h.hoardReadAs ‹_›]

theorem State.Inv.setProg {n : Nat} {d : Desc} {v : Nat} (h : s.Inv) : (s.setProg n d v).Inv :=
  .modDesc h

theorem State.Inv.endCopy {n : Nat} {d : Desc} {failed : Option Bool} {copied : Nat} (h : s.Inv) : (s.endCopy n d failed copied).Inv := by
  dsimp only [State.endCopy]
  split
  exacts [.doneNow (.setProg h), .endWithEntry (.setProg h)]

theorem State.Inv.afterUnits {n : Nat} {d : Desc} {failed : Option Bool} {copied all : Nat} {short : Bool} (h : s.Inv)
    : (s.afterUnits n d failed copied all short).Inv :=
  .ite (.setProg (.start h)) (.ite (.endNoEntry (.setProg h)) (.endCopy h))

theorem Answers.execHoardWrite {c : CopyRun} : Answers s (execHoardWrite c s) := by
  dsimp only [Machine.execHoardWrite]
  split
  · exact .same
  · split
    exacts [.same, fun h => .afterUnits (.copyIn h)]

theorem Answers.execHoardRead {c : CopyRun} : Answers s (execHoardRead c s) := by
  dsimp only [Machine.execHoardRead]
  split
  exacts [.same, fun h => .afterUnits (.ite (.copyOut h) (.issue (.copyOut h)))]

theorem State.Inv.cutCopies {n : Nat} (h : s.Inv) : (s.cutCopies n).Inv :=
  .ite (.endNoEntry (.finish h)) (.finish h)

theorem Answers.execFence {n : Fin 64} : Answers s (execFence n s) := by
  dsimp only [Machine.execFence]
  split
  exacts [.same, fun h => .flushRing (.modDesc h)]

theorem State.Inv.enableRing {n : Nat} (h : s.Inv) : (s.enableRing n).Inv :=
  .ite h (.ite (.ringError h) (.modRing (.ite (.set (.set (.set h))) (.set h))))

theorem State.Inv.cancelRing {n : Nat} {posted : Bool} (h : s.Inv) : (s.cancelRing n posted).Inv :=
  .ite (.finish (.frame h rfl rfl rfl)) (.finish (.finish (.frame h rfl rfl rfl)))

theorem State.Inv.flushCmd {n : Nat} (h : s.Inv) : (s.flushCmd n).Inv :=
  .ite (.cancelRing h) h

theorem State.Inv.evtPut {n : Nat} {e : LedgerEntry} (h : s.Inv) : (s.evtPut n e).Inv :=
  .ite (.modRing (.count h)) (.ringEvent (.modRing (.issue h)))

theorem State.Inv.evtWrites (h : s.Inv) : s.evtWrites.Inv := by
  dsimp only [State.evtWrites]
  exact .beside (.each h (fun _ _ h1 => .ite (.foldl h1 fun _ _ h2 => .evtPut h2) h1))

theorem State.Inv.settlePf1 (h : s.Inv) : s.settlePf1.Inv :=
  .ite (.frame h rfl rfl rfl) (.ite h (.foldl (.frame h rfl rfl rfl) fun _ _ h1 => .send h1))

theorem State.Inv.settleHost {snap : State} (h : s.Inv) : (State.settleHost snap s).Inv := by
  unfold State.settleHost
  extract_lets s1 v q x s2 s3 y z w s4
  have h3 : s3.Inv := .ite (.issue (.beside (.evtWrites h))) (.evtWrites h)
  exact .settlePf1 (.foldl (.beside h3) fun _ _ ht => .issue ht)

end

/-! ## Mailboxes and the Warden -/

section

variable {s : State}

theorem State.Inv.modSec {f : Secure → Secure} (h : s.Inv) : (s.modSec f).Inv :=
  .frame h rfl rfl rfl

theorem State.Inv.modDir {i : Nat} {f : MbxDir → MbxDir} (h : s.Inv) : (s.modDir i f).Inv :=
  .modSec h

theorem State.Inv.putMessage {i : Nat} {b : List Byte} (h : s.Inv) : (s.putMessage i b).Inv :=
  .each h (fun _ _ h1 => .setWord h1)

theorem State.Inv.recordMbx {code i : Nat} (h : s.Inv) : (s.recordMbx code i).Inv :=
  .record h

theorem State.Inv.mbxDeny {w : Who} {key : Nat} {write : Bool} (h : s.Inv) : (s.mbxDeny w key write).Inv := by
  dsimp only [State.mbxDeny]
  split
  exacts [.trap (.recordAccess h), .recordAccess h]

theorem State.Inv.notify {c : Nat} {x : MbxEnd} (h : s.Inv) : (s.notify c x).Inv := by
  dsimp only [State.notify]
  split
  exacts [.register h, .ite (.ite (.frame h rfl rfl rfl) h) (.ite h (.frame h rfl rfl rfl)), h]

theorem State.Inv.sendMbx {strike : Bool} {c kind : Nat} {b : List Byte} (h : s.Inv) : (s.sendMbx strike c kind b).Inv :=
  .serveMwait (.modChain h)

theorem State.Inv.sendMbxa {dst tag c status : Nat} (h : s.Inv) : (s.sendMbxa dst tag c status).Inv :=
  .sendEt h

theorem State.Inv.disownTags {c : Nat} (h : s.Inv) : (s.disownTags c).Inv :=
  .modChain h

theorem State.Inv.unring {i : Nat} (h : s.Inv) : (s.unring i).Inv :=
  .ite (.disownTags (.modDir (.set h))) (.modDir (.set h))

theorem State.Inv.taken {i : Nat} (h : s.Inv) : (s.taken i).Inv :=
  .notify (.set (.unring h))

theorem State.Inv.refuseDb {i : Nat} (h : s.Inv) : (s.refuseDb i).Inv :=
  .set h

theorem State.Inv.ring1 {i n : Nat} {timing : Option Nat} (h : s.Inv) : (s.ring1 i n timing).Inv :=
  .modDir (.set (.set (.set (.set (.set h)))))

theorem State.Inv.wardenAnswer {c : Nat} {b : List Byte} (h : s.Inv) : (s.wardenAnswer c b).Inv :=
  .ite (.refuseDb h) (.notify (.ring1 (.set (.putMessage h))))

theorem State.Inv.wardenServe {c : Nat} {b : List Byte} (h : s.Inv) : (s.wardenServe c b).Inv :=
  .wardenAnswer (.taken (.modSec h))

theorem State.Inv.wardenSkip {n : Nat} (h : s.Inv) : (State.wardenSkip n s).Inv := by
  induction n generalizing s with
  | zero => exact h
  | succ n ih =>
    unfold State.wardenSkip
    split
    exacts [h, .ite (ih (.wardenServe h)) h]

theorem State.Inv.wardenGo (h : s.Inv) : s.wardenGo.Inv :=
  .wardenSkip h

theorem State.Inv.doorbell {strike : Bool} {i : Nat} (h : s.Inv) : (s.doorbell strike i).Inv := by
  unfold State.doorbell
  extract_lets c n x s1
  have h1 : s1.Inv := .ring1 h
  refine .ite (.refuseDb h) ?_
  clear_value x s1
  cases x with
  | remote => exact .sendMbx (.modDir h1)
  | warden => exact .wardenGo (.modSec h1)
  | none => exact .notify h1
  | host => exact .notify h1
  | engine e => exact .notify h1

theorem State.Inv.cancelMsg {strike : Bool} {i : Nat} (h : s.Inv) : (s.cancelMsg strike i).Inv := by
  dsimp only [State.cancelMsg]
  split
  exacts [.ite h (.sendMbx (.modDir h)), .modSec (.set (.unring h))]

theorem State.Inv.take {strike : Bool} {i : Nat} (h : s.Inv) : (s.take strike i).Inv := by
  dsimp only [State.take]
  split
  exacts [.sendMbx (.taken h), .taken h]

theorem State.Inv.writeMbxCtl {w : Who} {i : Nat} {v : W32} (h : s.Inv) : (s.writeMbxCtl w i v).Inv :=
  .ite (.mbxDeny h) (.ite (.ite (.cancelMsg (.ite (.doorbell (.ite (.recordMbx (.set (.set h))) (.set (.set h)))) (.ite (.recordMbx (.set
      (.set h))) (.set (.set h))))) (.ite (.doorbell (.ite (.recordMbx (.set (.set h))) (.set (.set h)))) (.ite (.recordMbx (.set (.set h)))
      (.set (.set h))))) (.ite (.ite (.take (.ite (.recordMbx h) h)) (.ite (.recordMbx h) h)) (.recordMbx h)))

theorem State.Inv.writeMbxBuf {w : Who} {i j : Nat} {v : W32} (h : s.Inv) : (s.writeMbxBuf w i j v).Inv :=
  .ite (.mbxDeny h) (.ite (.recordMbx h) (.ite h (.setWord h)))

theorem State.Inv.writeMbxStat {w : Who} {i : Nat} {v : W32} (h : s.Inv) : (s.writeMbxStat w i v).Inv :=
  .ite (.mbxDeny h) (.ite (.recordMbx h) (.writeFields h))

theorem State.Inv.writeMbxCfg {w : Who} {c : Nat} {v : W32} (h : s.Inv) : (s.writeMbxCfg w c v).Inv :=
  .ite (.mbxDeny h) (.ite (.writeFields h) (.record h))

theorem Answers.execMbxTimeout {i : Fin 32} : Answers s (execMbxTimeout i s) :=
  .ite (fun h => .recordMbx (.notify (.modDir (.set h)))) .same

theorem Answers.execMsg {src : Fin 32} {tag : BitVec 8} {b : List Byte} (hwf : Instr.wf (.msg src tag b) = true)
    : Answers s (execMsg src tag b s) :=
  .checked (by simpa [Instr.wf] using hwf) (.ite (fun h => .sendMbxa (.notify (.ring1 (.set (.putMessage h))))) (fun h => .sendMbxa h))

theorem Answers.execTaken {src : Fin 32} {tag : BitVec 8} {b : List Byte} (hwf : Instr.wf (.taken src tag b) = true)
    : Answers s (execTaken src tag b s) :=
  .checked (by simpa [Instr.wf] using hwf) (.ite (fun h => .sendMbxa (.taken h)) (fun h => .sendMbxa h))

theorem Answers.execCancel {src : Fin 32} {tag : BitVec 8} {b : List Byte} (hwf : Instr.wf (.cancel src tag b) = true)
    : Answers s (execCancel src tag b s) :=
  .checked (by simpa [Instr.wf] using hwf) (.ite (fun h => .sendMbxa (.unring h)) (fun h => .sendMbxa h))

theorem State.Inv.remoteRefused {c : Nat} (h : s.Inv) : (s.remoteRefused c).Inv :=
  .recordMbx (.set (.unring h))

theorem State.Inv.mbxAnswer {c kind st : Nat} (h : s.Inv) : (s.mbxAnswer c kind st).Inv := by
  dsimp only [State.mbxAnswer]
  split
  · exact h
  · split
    exacts [.ite (.modDir h) h, .remoteRefused h, .ite (.taken h) h, .set (.unring h), h]

theorem Answers.execMbxa {tag : BitVec 8} {status : Fin 5} {r : Fin 4} : Answers s (execMbxa tag status r s) := by
  dsimp only [Machine.execMbxa]
  split
  exacts [.same, fun h => .dropTag (.mbxAnswer (.set h))]

theorem Answers.execMbxRemoteTimeout {tag : BitVec 8} : Answers s (execMbxRemoteTimeout tag s) := by
  dsimp only [Machine.execMbxRemoteTimeout]
  split
  exacts [.same, fun h => .dropTag (.ite (.remoteRefused h) h)]

theorem State.Inv.pf1Only {w : Who} {key : Nat} {f : State → State} (h : s.Inv) (hf : ∀ (t : State), t.Inv → (f t).Inv) : (s.pf1Only w key f).Inv :=
  .ite (hf _ h) (.mbxDeny h)

theorem State.Inv.writePatchLen {w : Who} {v : W32} (h : s.Inv) : (s.writePatchLen w v).Inv :=
  .ite (.modSec (.writeFields h)) (.writeFields h)

theorem State.Inv.wardenRead {o n : Nat} (h : s.Inv) : (s.wardenRead o n).2.Inv := by
  dsimp only [State.wardenRead]
  split <;> exact .foldlOn Prod.snd h fun _ _ h1 => .readChecked h1

theorem Answers.execPatchCheckDone : Answers s (execPatchCheckDone () s) := by
  dsimp only [Machine.execPatchCheckDone]
  split
  · exact .same
  · split
    · exact fun h => .wardenGo (.record (.set (.modSec h)))
    · split
      · exact fun h => .wardenGo (.record (.set (.wardenRead (.modSec h))))
      · exact .ite (fun h => .wardenGo (.set (.modSec (.wardenRead (.modSec h))))) (fun h => .wardenGo (.record (.set (.wardenRead (.modSec h)))))

theorem State.Inv.takeHeld {key : Nat} (h : s.Inv) : (s.takeHeld key).2.Inv :=
  .frame h rfl rfl rfl

theorem State.Inv.secFlush {r : Nat} {inRange : Nat → Bool} (h : s.Inv) : (s.secFlush r inRange).Inv :=
  .foldl h fun _ _ h1 => .ite (.recall h1) h1

theorem State.Inv.writeSecHi {r : Nat} {v : W32} (h : s.Inv) : (s.writeSecHi r v).Inv :=
  .secFlush (.setWord (.setWord (.setWord (.setWord (.takeHeld h)))))

theorem State.Inv.wardenCommand {cmd : Nat} {f : State → List Byte → List Byte × State} (h : s.Inv) (hf : ∀ (t : State) (a0 : List Byte),
    t.Inv → (f t a0).2.Inv) : (s.wardenCommand cmd f).Inv := by
  dsimp only [State.wardenCommand]
  split
  exacts [h, .ite (.wardenGo (.wardenServe (hf _ _ h))) h]

theorem State.Inv.writeKeyCtl {v : W32} (h : s.Inv) : (s.writeKeyCtl v).Inv :=
  .ite (.set h) (.ite (.raiseArb h) (.ite (.set h) (.set (.modSec h))))

theorem State.Inv.burnt {cmd : Nat} {words : List W32} (h : s.Inv) : (s.burnt cmd words).Inv :=
  .ite (.set (.foldl h fun _ _ h1 => .setWord h1)) (.set (.set h))

theorem Answers.execKeyBurn : Answers s (execKeyBurn s) := by
  dsimp only [Machine.execKeyBurn]
  split
  exacts [.same, fun h => .record (.modSec (.set (.burnt h)))]

theorem State.Inv.debugRequest {scope : Nat} (h : s.Inv) : (s.debugRequest scope).Inv :=
  .ite h (.ite (.set h) (.modSec (.foldl (.free (.free h)) fun _ _ h1 => .setWord h1)))

theorem State.Inv.writeDbguCtl {v : W32} (h : s.Inv) : (s.writeDbguCtl v).Inv :=
  .ite (.set (.ite (.debugRequest (.set h)) (.set h))) (.ite (.debugRequest (.set h)) (.set h))

theorem State.Inv.writeRaddr {v : W32} (h : s.Inv) : (s.writeRaddr v).Inv := by
  dsimp only [State.writeRaddr]
  split
  exacts [h, .ite h (.set (.modSec h))]

theorem Answers.execDbgUnlock : Answers s (execDbgUnlock () s) := by
  dsimp only [Machine.execDbgUnlock]
  split
  · exact .same
  · exact .ite (fun h => .wardenGo (.record (.set ((by split; exacts [.wardenRead (.set (.modSec h)), .set (.modSec h)]))))) (fun h => .wardenGo
      (.record (.setB (.modSec ((by split; exacts [.wardenRead (.set (.modSec h)), .set (.modSec h)]))))))

theorem State.Inv.clearSession (h : s.Inv) : s.clearSession.Inv :=
  .modSec (.set (.set (.resetRegs (.resetRegs h))))

theorem State.Inv.cancelHostMsgs (h : s.Inv) : s.cancelHostMsgs.Inv :=
  .each h (fun _ _ h1 => .ite (.set (.unring h1)) h1)

end

/-! ## Commands of the Hoard -/

section

variable {s : State}

theorem State.Inv.partApply (h : s.Inv) : s.partApply.Inv :=
  .ite (.modHoard (.set h)) (.set (.set h))

theorem State.Inv.drainBank {b : Nat} (h : s.Inv) : (s.drainBank b).Inv :=
  .foldl (.set h) fun _ _ h1 => .recall h1

theorem State.Inv.beginTrans {b dst : Nat} (h : s.Inv) : (s.beginTrans b dst).Inv :=
  .modHoard (.set h)

theorem State.Inv.settleBank {b : Nat} (h : s.Inv) : (s.settleBank b).Inv :=
  .ite (.ite h (.drainBank h)) (.ite (.ite (.beginTrans h) h) (.ite (.ite (.beginTrans h) (.ite (.beginTrans h) h)) (.ite (.ite h
      (.beginTrans h)) h)))

theorem State.Inv.settleBanks (h : s.Inv) : s.settleBanks.Inv :=
  .each h (fun _ _ h1 => .settleBank h1)

theorem State.Inv.zeroBank {b : Nat} (h : s.Inv) : (s.zeroBank b).Inv :=
  ⟨Memory.wf_clear _ _ _ h.1, h.2⟩

theorem State.Inv.startMig {b : Nat} (h : s.Inv) : (s.startMig b).Inv := by
  dsimp only [State.startMig]
  split
  exacts [.record (.set h), .ite (.modHoard (.set h)) (.modHoard h)]

theorem State.Inv.startWaiting {b : Nat} (h : s.Inv) : (s.startWaiting b).Inv :=
  .ite (.startMig (.modHoard h)) h

theorem State.Inv.bankOn {b : Nat} (h : s.Inv) : (s.bankOn b).Inv :=
  .ite (.startWaiting (.set h)) (.drainBank h)

theorem State.Inv.writeTgt {b v : Nat} (h : s.Inv) : (s.writeTgt b v).Inv :=
  .ite h (.ite (.ite (.set h) (.drainBank (.set h))) (.ite (.ite (.bankOn (.set h)) (.set h)) (.set h)))

theorem State.Inv.writeMig {w : Who} {v : W32} (h : s.Inv) : (s.writeMig w v).Inv :=
  .ite (.startMig (.writeFields h)) (.writeFields h)

theorem State.Inv.migCopy (h : s.Inv) : s.migCopy.Inv := by
  dsimp only [State.migCopy]
  split
  exacts [h, .ite h (.modHoard (.free h))]

theorem State.Inv.endTrans {b : Nat} (h : s.Inv) : (s.endTrans b).Inv := by
  dsimp only [State.endTrans]
  split
  exacts [h, .ite (.zeroBank (.modHoard (.set h))) (.ite (.bankOn (.modHoard (.set h))) (.modHoard (.set h)))]

theorem State.Inv.scrubBank {b : Nat} (h : s.Inv) : (s.scrubBank b).Inv :=
  .ite h (.modHoard (.foldl (.foldl h fun _ _ h1 => .correct h1) fun _ _ h1 => .uncorrectable h1))

theorem State.Inv.scrub (h : s.Inv) : s.scrub.Inv :=
  .ite (.each h (fun _ _ h1 => .scrubBank h1)) h

end

/-! ## Commands of Ingot -/

section

variable {s : State}

theorem Answers.execIngProgram {n : Fin 64} : Answers s (execIngProgram n s) := by
  dsimp only [Machine.execIngProgram]
  split
  · exact .same
  · split
    exacts [.same, .ite (fun h => .endNoEntry h) (fun h => .ingQueue (.start h))]

theorem Answers.execIngErase {n : Fin 64} : Answers s (execIngErase n s) := by
  dsimp only [Machine.execIngErase]
  split
  exacts [.same, .ite .same (fun h => .ingQueue (.start h))]

theorem Answers.execIngRead {c : CopyRun} : Answers s (execIngRead c s) := by
  dsimp only [Machine.execIngRead]
  split
  exacts [.same, .ite (fun h => .ingAsk h) (fun h => .ingServed (.afterUnits (.ite (.ingUnits h) (.issue (.ingUnits h)))))]

theorem State.Inv.writeIngCmd {v : W32} (h : s.Inv) : (s.writeIngCmd v).Inv :=
  .ite (.set (.set h)) (.ite (.set (.set (.set (.set h)))) (.ingQueue (.set (.set (.set (.set h))))))

theorem Answers.execPageProgramDone {ok : Bool} : Answers s (execPageProgramDone ok s) := by
  dsimp only [Machine.execPageProgramDone]
  split
  exacts [.same, .ite .same (.ite (fun h => .ingUnitDone (.beside (.wr h))) (fun h => .ingGo (.ingFail (.record (.ingFree h)))))]

theorem State.Inv.sectorErased {k : Nat} {keep : Nat → Bool} (h : s.Inv) :
    ({ s with mem := Memory.clear s.mem k (k + 0x10000), eccUnc := s.eccUnc.filter keep, eccOne := s.eccOne.filter keep } : State).Inv :=
  ⟨Memory.wf_clear _ _ _ h.1, h.2⟩

theorem Answers.execSectorEraseDone : Answers s (execSectorEraseDone s) := by
  unfold Machine.execSectorEraseDone
  split
  · exact .same
  refine .ite .same ?_
  split <;> exact fun h => .ingUnitDone (.set (.sectorErased h))

theorem State.Inv.writeSusp (h : s.Inv) : s.writeSusp.Inv := by
  dsimp only [State.writeSusp]
  split
  exacts [.ite (.modIng h) h, h]

theorem Answers.execSuspendComplete : Answers s (execSuspendComplete s) := by
  dsimp only [Machine.execSuspendComplete]
  split
  exacts [fun h => .ingGo (.set (.set (.modIng (.ingFree h)))), .same]

theorem State.Inv.writeResume (h : s.Inv) : s.writeResume.Inv := by
  dsimp only [State.writeResume]
  split
  exacts [h, .ite (.ingResume h) (.modIng h)]

theorem State.Inv.cutLoad {n : Nat} (h : s.Inv) : (s.cutLoad n).Inv := by
  dsimp only [State.cutLoad]
  split
  exacts [.afterLoad (.failLoadAs h), h]

theorem State.Inv.disableRing {n : Nat} (h : s.Inv) : (s.disableRing n).Inv :=
  .ite h (.ingCut (.cutLoad (.cutCopies (.cancelRing (.modRing (.set h))))))

end

/-! ## Temper -/

section

variable {s : State}

theorem State.Inv.modTemper {f : Temper → Temper} (h : s.Inv) : (s.modTemper f).Inv :=
  .frame h rfl rfl rfl

theorem State.Inv.avsSend {v : Nat} (h : s.Inv) : (s.avsSend v).Inv := by
  dsimp only [State.avsSend]
  split
  exacts [.send (.modTemper h), .modTemper h]

theorem State.Inv.setVcode {v : Nat} (h : s.Inv) : (s.setVcode v).Inv :=
  .ite h (.avsSend (.set h))

theorem State.Inv.enterEmergency (h : s.Inv) : s.enterEmergency.Inv :=
  .ite h (.checkVoids (.setVcode (.modTemper (.ite (.record (.set (.set h))) (.set (.record (.set (.set h))))))))

theorem State.Inv.voltLoop {x : Int} (h : s.Inv) : (s.voltLoop x).Inv :=
  .ite (.ite (.setVcode (.modTemper h)) (.modTemper h)) (.ite (.ite (.ite (.modTemper h) (.setVcode (.modTemper h))) (.modTemper h)) (.modTemper h))

theorem State.Inv.floorCheck {x : Int} (h : s.Inv) : (s.floorCheck x).Inv :=
  .ite (.ite (.ite (.quench (.record (.set (.modTemper h)))) (.record (.set (.modTemper h)))) (.modTemper h)) (.modTemper h)

theorem State.Inv.throttle {x tj : Int} (h : s.Inv) : (s.throttle x tj).Inv :=
  .ite (.ite (.ite (.set (.modTemper h)) (.modTemper h)) (.modTemper h)) (.ite (.enterEmergency h) (.ite (.ite (.set (.modTemper h)) h) (.ite
      (.ite (.set (.modTemper h)) (.modTemper h)) (.modTemper h))))

theorem State.Inv.retarget (h : s.Inv) : s.retarget.Inv :=
  .ite h (.modTemper h)

theorem State.Inv.stepRung (h : s.Inv) : s.stepRung.Inv :=
  .ite h (.ite (.modTemper h) (.ite (.ite (.setVcode h) (.ite (.modTemper h) h)) h))

theorem State.Inv.bellowsEval {slack tj : BitVec 16} (h : s.Inv) : (s.bellowsEval slack tj).Inv :=
  .modTemper (.stepRung (.retarget (.throttle (.floorCheck (.voltLoop (.ite (.set (.set (.set h))) (.set (.set h))))))))

theorem Answers.execAvsTransactionDone {ok : Bool} : Answers s (execAvsTransactionDone ok s) := by
  dsimp only [Machine.execAvsTransactionDone]
  split
  · exact .same
  · exact .ite (fun h => (by split; exacts [.avsSend (.modTemper h), .modTemper h])) (.ite (fun h => .avsSend (.modTemper h)) (fun h => .ite
      (.avsSend (.record (.set (.modTemper h)))) (.enterEmergency (.record (.set (.modTemper h))))))

theorem Answers.execAvsSettled : Answers s (execAvsSettled s) := by
  dsimp only [Machine.execAvsSettled]
  split
  exacts [.same, fun h => .stepRung (.modTemper h)]

theorem Answers.execFrequencySwitchDone : Answers s (execFrequencySwitchDone s) := by
  dsimp only [Machine.execFrequencySwitchDone]
  split
  exacts [.same, fun h => .set (.modTemper h)]

theorem State.Inv.freeCodes (h : s.Inv) : (s.freeCodes.2).Inv :=
  .free h

theorem State.Inv.writeEqCfg {l : Nat} {v : W32} (h : s.Inv) : (s.writeEqCfg l v).Inv :=
  .ite (.modTemper (.set (.set h))) (.ite (.modTemper (.freeCodes (.set (.set h)))) (.set (.set h)))

theorem State.Inv.readEq {l : Nat} {tap : Bool} (h : s.Inv) : (s.readEq l tap).2.Inv := by
  dsimp only [State.readEq]
  split
  exacts [h, .freeCodes h]

theorem State.Inv.writeThrctl {v : W32} (h : s.Inv) : (s.writeThrctl v).Inv :=
  .ite (.modTemper (.free (.foldl (.setWord h) fun _ _ h1 => .ite (.modTemper (.free h1)) h1))) (.foldl (.setWord h) fun _ _ h1 => .ite
      (.modTemper (.free h1)) h1)

theorem State.Inv.readThrval (h : s.Inv) : (s.readThrval.2).Inv := by
  dsimp only [State.readThrval]
  split
  · split
    exacts [h, .free h]
  · exact .free ((by split; exacts [h, .free h]))

theorem State.Inv.busyEdge (h : s.Inv) : s.busyEdge.Inv :=
  .ite h (.each h (fun _ _ h1 => (by split; exacts [h1, .modTemper h1])))

theorem State.Inv.placeSlot {n : Nat} (h : s.Inv) : (s.placeSlot n).Inv := by
  dsimp only [State.placeSlot]
  split
  · exact h
  · split
    · split
      · exact h
      · split
        · exact h
        · split
          exacts [h, .count (.set (.set (.set (.modSlot (.modEng (.modEng h))))))]
    · exact h

theorem State.Inv.startSub {e : Nat} {auto : Bool} (h : s.Inv) : (s.startSub e auto).Inv := by
  dsimp only [State.startSub]
  split
  · exact h
  · split
    exacts [.set (.set (.set h)), .ite h (.ite (.modTemper (.record (.set h))) (.record (.set h)))]

theorem State.Inv.writeSubctl {v : W32} (h : s.Inv) : (s.writeSubctl v).Inv :=
  .ite (.startSub (.setWord h)) (.setWord h)

theorem State.Inv.subCheck (h : s.Inv) : s.subCheck.Inv :=
  .modTemper (.each h (fun _ _ h1 => .ite (.startSub h1) h1))

theorem State.Inv.placement (h : s.Inv) : s.placement.Inv :=
  .ite h (.subCheck (.modTemper (.each h (fun _ _ h1 => .placeSlot h1))))

theorem State.Inv.subSettle {dirty : Nat} (h : s.Inv) : (s.subSettle dirty).Inv :=
  .ite h (.ite (.subAbandon h) (.ite (.set h) h))

theorem State.Inv.subSwitch (h : s.Inv) : s.subSwitch.Inv :=
  .ite h (.addRepair (.ite (.haltNow (.set (.modTemper (.set (.set h))))) (.set (.modTemper (.set (.set h))))))

theorem State.Inv.finalEnds (h : s.Inv) : s.finalEnds.Inv :=
  .ite (.count (.set h)) h

theorem State.Inv.settleEnd (h : s.Inv) : s.settleEnd.Inv :=
  .finalEnds (.subSwitch (.each h (fun _ _ h1 => .endTrans h1)))

theorem Answers.execOldCoreDrained : Answers s (execOldCoreDrained s) := by
  dsimp only [Machine.execOldCoreDrained]
  split
  exacts [.same, fun h => .modTemper (.flushCore h)]

theorem State.Inv.startNext (h : s.Inv) : s.startNext.Inv := by
  dsimp only [State.startNext]
  split
  exacts [h, .startWaiting h]

theorem State.Inv.migSwitch (h : s.Inv) : s.migSwitch.Inv := by
  dsimp only [State.migSwitch]
  split
  exacts [.startNext h, .ite h (.startNext (.addRepair (.modHoard (.set (.set (.set (.set h)))))))]

end

/-! ## Resets and their release -/

section

variable {s : State}

theorem State.Inv.noteProgress (h : s.Inv) : s.noteProgress.Inv := by
  dsimp only [State.noteProgress]
  split
  · exact .each h (fun _ _ h1 => (by
        split
        · split
          · split
            exacts [.foldl h1 fun _ _ h2 => .modDesc h2, h1]
          · exact h1
        · exact h1))
  · split
    · exact .each h (fun _ _ h1 => (by
        split
        · split
          · split
            exacts [.foldl h1 fun _ _ h2 => .modDesc h2, h1]
          · exact h1
        · exact h1))
    · exact .modDesc (.each h (fun _ _ h1 => (by
        split
        · split
          · split
            exacts [.foldl h1 fun _ _ h2 => .modDesc h2, h1]
          · exact h1
        · exact h1)))

theorem State.Inv.freezeRing {cut : Bool} {n : Nat} (h : s.Inv) : (s.freezeRing cut n).Inv :=
  .modRing h

theorem State.Inv.freezeRings {cut : Bool} (h : s.Inv) : (s.freezeRings cut).Inv := by
  dsimp only [State.freezeRings]
  exact .beside (.resetRegs (.beside (.each (.noteProgress h) (fun _ _ h1 => .freezeRing h1))))

theorem State.Inv.tearSectors (h : s.Inv) : s.tearSectors.Inv :=
  .each h (fun _ _ h1 => .ite (.set h1) h1)

theorem State.Inv.lostBanks (h : s.Inv) : s.lostBanks.Inv :=
  .each h (fun _ _ h1 => .ite h1 (.set h1))

theorem State.Inv.keepLatches {old : State} (h : s.Inv) : (State.keepLatches old s).Inv :=
  .each h fun _ _ h1 => .setWord h1

theorem State.Inv.afterReset {k : Nat} (h : s.Inv) : (s.afterReset k).Inv := by
  obtain ⟨hmem, hregs, hledger⟩ := h
  unfold State.afterReset
  extract_lets por soft sub ingot x1 x2 x3 x4 x5 x6 x7 x8 t1 t2 t3 u1 u2 u3 t4
  have h1 : t1.Inv := by
    refine ⟨Sparse.wf_filter _ _ _ hmem, Sparse.wf_filter _ _ _ hregs, ?_⟩
    dsimp only [t1]
    split
    exacts [Nat.zero_le _, hledger]
  have h3 : t3.Inv := .ite (.keepLatches (.set (.set h1))) (.set (.set h1))
  exact .lostBanks (.tearSectors (.ite (.set (.set (.set (.set (.set (.set (.set (.set (.set h3))))))))) h3))

theorem State.Inv.wholeReset {kind : Nat} (h : s.Inv) : (s.wholeReset kind).Inv :=
  .ite (.set (.set (.afterReset (.freezeRings (.subAbandon (.noteReset h)))))) (.afterReset (.freezeRings (.subAbandon (.noteReset h))))

theorem State.Inv.writeDevCtrl {v : W32} (h : s.Inv) : (s.writeDevCtrl v).Inv :=
  .ite (.wholeReset h) h

theorem State.Inv.applyEntry {e : List Byte} (h : s.Inv) : (s.applyEntry e).Inv :=
  .ite (.each h (fun _ _ h1 => .ite (.set (.set h1)) h1)) (.ite (.each h (fun _ _ h1 => .ite (.set (.set h1)) h1)) h)

theorem State.Inv.applyRecord (h : s.Inv) : s.applyRecord.Inv := by
  dsimp only [State.applyRecord]
  split
  exacts [h, .foldl (.setB (.set (.set (.set (.modTemper h))))) fun _ _ h1 => .applyEntry h1]

theorem State.Inv.repairBank {b : Nat} (h : s.Inv) : (s.repairBank b).Inv := by
  dsimp only [State.repairBank]
  split
  exacts [.addRepair (.set (.set h)), .record (.set (.set h))]

theorem State.Inv.repairCore {n : Nat} (h : s.Inv) : (s.repairCore n).Inv := by
  dsimp only [State.repairCore]
  split
  exacts [.addRepair (.set (.set h)), .record (.set h)]

theorem State.Inv.selfTest {banks : List (Fin 32)} {engines : List (Fin 16)} {rows : List (Fin 8 × BitVec 16 × BitVec 32 × BitVec 32)} {unrep
    : Bool} (h : s.Inv) : (s.selfTest banks engines rows unrep).Inv :=
  .set (.ite (.record (.set (.each (.each (.foldl h fun _ _ h1 => .ite h1 (.addRepair h1)) (fun _ _ h1 => .ite
      (.repairBank h1) h1)) (fun _ _ h1 => .ite (.repairCore h1) h1)))) (.each (.each (.foldl h fun _ _ h1 => .ite h1
      (.addRepair h1)) (fun _ _ h1 => .ite (.repairBank h1) h1)) (fun _ _ h1 => .ite (.repairCore h1) h1)))

theorem State.Inv.endCutBurn {out : Nat} (h : s.Inv) : (s.endCutBurn out).Inv := by
  dsimp only [State.endCutBurn]
  split
  exacts [h, .ite (.burnt (.modSec h)) (.ite (.set (.set (.modSec h))) (.modSec h))]

theorem State.Inv.setStraps {boot mpri : Nat} (h : s.Inv) : (s.setStraps boot mpri).Inv :=
  .setEff (.set (.set h))

theorem Answers.execResetRelease {bar2 : Bool} {boot mpri : Fin 4} {test : Bool} {banks : List (Fin 32)} {engines : List (Fin 16)} {rows
    : List (Fin 8 × BitVec 16 × BitVec 32 × BitVec 32)} {unrep : Bool} {burn : Fin 3} : Answers s (execResetRelease bar2 boot mpri test banks
    engines rows unrep burn s) := by
  dsimp only [Machine.execResetRelease]
  split
  · exact .same
  · exact .ite .same (fun h => .refreshLsw (.chainEnables (.ingGo (.queueRecord (.ite (.beside (.set (.set (.set (.ite (.ite (.setEff h)
      (.selfTest (.applyRecord (.endCutBurn (.setStraps (.setB h)))))) (.set (.ite (.setEff h) (.selfTest (.applyRecord (.endCutBurn (.setStraps
      (.setB h)))))))))))) (.avsSend (.beside (.set (.set (.set (.ite (.ite (.setEff h) (.selfTest (.applyRecord (.endCutBurn (.setStraps
      (.setB h)))))) (.set (.ite (.setEff h) (.selfTest (.applyRecord (.endCutBurn (.setStraps (.setB h))))))))))))))))))

theorem State.Inv.loseReads (h : s.Inv) : s.loseReads.Inv :=
  .frame h rfl rfl rfl

theorem State.Inv.resetXlat (h : s.Inv) : s.resetXlat.Inv :=
  .resetRegs (.resetRegs h)

theorem State.Inv.resetPf0 {flr : Bool} (h : s.Inv) : (s.resetPf0 flr).Inv := by
  dsimp only [State.resetPf0]
  exact .beside (.loseReads (.resetXlat (.freezeRings h)))

theorem State.Inv.hostReset {kind : Nat} (h : s.Inv) : (s.hostReset kind).Inv :=
  .cancelHostMsgs (.beside (.set (.set (.set (.clearSession (.resetPf0 (.noteReset h)))))))

theorem Answers.execFlrPf0 : Answers s (execFlrPf0 s) :=
  fun h => .cancelHostMsgs (.resetPf0 (.noteReset h))

theorem Answers.execFlrPf1 : Answers s (execFlrPf1 s) :=
  fun h => .beside (.clearSession (.noteReset h))

theorem State.Inv.setD3 {pf1 d3 : Bool} (h : s.Inv) : (s.setD3 pf1 d3).Inv :=
  .drainWait (.frame h rfl rfl rfl)

theorem State.Inv.writeWdtkick {v : W32} (h : s.Inv) : (s.writeWdtkick v).Inv :=
  .ite (.beside (.set h)) (.wholeReset h)

theorem State.Inv.wdtWarn (h : s.Inv) : s.wdtWarn.Inv :=
  .record (.set (.set h))

theorem State.Inv.wdtPass {n : Nat} (h : s.Inv) : (s.wdtPass n).Inv :=
  .set (.ite (.wdtWarn h) h)

theorem State.Inv.wdtEdge (h : s.Inv) : s.wdtEdge.Inv :=
  .ite h (.ite (.frame h rfl rfl rfl) (.ite (.wholeReset (.frame h rfl rfl rfl)) (.wdtPass (.frame h rfl rfl rfl))))

theorem State.Inv.writeChrst {v : W32} (h : s.Inv) : (s.writeChrst v).Inv :=
  .ite (.sendRun h) h

end

/-! ## Commands of the load switches -/

section

variable {s : State}

theorem State.Inv.trip {latch cnt : Fld} {code c ma : Nat} (h : s.Inv) : (s.trip latch cnt code c ma).Inv :=
  .refreshLsw (.record (.count (.set h)))

theorem State.Inv.clearLatch {f : Fld} {c : Nat} (h : s.Inv) : (s.clearLatch f c).Inv :=
  .ite (.commitIdle (.modChan (.set h))) h

theorem State.Inv.clearOtl {c : Nat} (h : s.Inv) : (s.clearOtl c).Inv :=
  .ite h (.clearLatch h)

theorem State.Inv.writeHb {w : Who} {n : Nat} {v : W32} (h : s.Inv) : (s.writeHb w n v).Inv :=
  .ite (.writeFields h) (.refreshLsw (.modHb (.set (.set (.drive (.modChan (.set (.drive (.modChan (.set (.writeFields h)))))))))))

theorem Answers.execDeadTimeEnd {x : Fin 6} : Answers s (execDeadTimeEnd x s) :=
  fun h => .ite h (.refreshLsw (.modHb (.set h)))

theorem Answers.execPwmPeriod {c : Fin 12} : Answers s (execPwmPeriod c s) :=
  fun h => .ite (.set (.modChan h)) h

theorem Answers.execPwmOnPhaseEnd {c : Fin 12} : Answers s (execPwmOnPhaseEnd c s) :=
  fun h => .ite (.setOn h) h

theorem State.Inv.ainWindow {a code : Nat} (h : s.Inv) : (s.ainWindow a code).Inv := by
  dsimp only [State.ainWindow]
  split
  · exact .beside (.setB (.setB h))
  · split
    · exact .beside (.setB (.setB h))
    · split
      · exact .beside (.setB (.setB h))
      · split
        · exact .record (.set (.beside (.setB (.setB h))))
        · exact .quench (.record (.set (.beside (.setB (.setB h)))))
        · exact .set (.beside (.setB (.setB h)))

theorem Answers.execAdcConversionDone {x : Int} : Answers s (execAdcConversionDone x s) :=
  fun h => (by split; exacts [h, .ainWindow (.ite (.set (.set (.frame h rfl rfl rfl))) (.set (.frame h rfl rfl rfl)))])

theorem State.Inv.writeLsw {w : Who} {key : Nat} {v : W32} (h : s.Inv) : (s.writeLsw w key v).Inv :=
  .refreshLsw (.commitIdle (.writeFields h))

end

/-! ## Swage loops -/

section

variable {s : State}

theorem State.Inv.modLoop {l : Nat} {f : Machine.Loop → Machine.Loop} (h : s.Inv) : (s.modLoop l f).Inv :=
  .frame h rfl rfl rfl

theorem State.Inv.sset {f : Fld} {v : Int} (h : s.Inv) : (s.sset f v).Inv :=
  .set h

theorem State.Inv.latchSwage (h : s.Inv) : s.latchSwage.Inv :=
  .each h (fun _ _ h1 => .modLoop h1)

theorem State.Inv.noteLoopWrite {key : Nat} (h : s.Inv) : (s.noteLoopWrite key).Inv :=
  .ite h (.modLoop h)

theorem State.Inv.profile {l : Nat} {manual : Bool} {y : Int} (h : s.Inv) : (s.profile l manual y).Inv := by
  dsimp only [State.profile]
  split
  · exact .set (.set (.modLoop h))
  · split
    · exact .modLoop (.ite (.set h) h)
    · exact .ite (.ite (.set (.modLoop (.ite (.set h) h))) (.modLoop (.ite (.set h) h))) (.set (.setB (.modLoop (.ite (.set (.modLoop (.ite
        (.set h) h))) (.modLoop (.ite (.set h) h))))))

theorem State.Inv.swgSwitch {l old new inst : Nat} {blocked : Bool} (h : s.Inv) : (s.swgSwitch l old new inst blocked).Inv :=
  .modLoop (.set h)

theorem State.Inv.swgTwoLevel {l : Nat} (h : s.Inv) : (s.swgTwoLevel l).Inv :=
  .ite (.set h) h

theorem State.Inv.swgInputs {l : Nat} (h : s.Inv) : (s.swgInputs l).Inv :=
  .sset (.sset (.modLoop (.profile h)))

theorem State.Inv.swgCompute {l : Nat} (h : s.Inv) : (s.swgCompute l).1.Inv := by
  dsimp only [State.swgCompute]
  split
  · exact .ite (.modLoop (.set (.setB (.swgInputs h)))) (.setB (.swgInputs h))
  · split
    · exact .modLoop (.sset (.set (.setB (.swgInputs h))))
    · exact .ite (.swgSwitch (.swgTwoLevel (.setB (.swgInputs h)))) (.swgTwoLevel (.setB (.swgInputs h)))

theorem State.Inv.swgDecide {l : Nat} {loser law : Bool} {uw : Int} (h : s.Inv) : (s.swgDecide l loser law uw).Inv :=
  .ite (.modLoop (.set (.setB h))) (.ite (.sset (.setB h)) (.setB h))

theorem State.Inv.swgOsc {l : Nat} (h : s.Inv) : (s.swgOsc l).Inv := by
  dsimp only [State.swgOsc]
  split
  · exact h
  · split
    exacts [.manualHold (.modLoop (.record (.set h))), .quench (.modLoop (.record (.set h))), .set (.modLoop (.record (.set h)))]

theorem State.Inv.swgDecideGroup {rs : List SwgResult} (h : s.Inv) : (s.swgDecideGroup rs).Inv := by
  dsimp only [State.swgDecideGroup]
  split
  · exact h
  · exact .foldl (.foldl (.foldl h fun _ _ h1 => .ite (.swgDecide h1) (.set h1)) fun _ _ h1 => .modLoop h1) fun _ _ h1 => .swgOsc h1

theorem State.Inv.swgRun {l : List Nat} {done : List SwgResult} (h : s.Inv) : (State.swgRun done l s).Inv := by
  induction l generalizing s done with
  | nil => exact h
  | cons n q ih => exact .ite (ih (.swgCompute h)) (ih (.swgDecideGroup (.swgCompute h)))

theorem State.Inv.swgSample {l : Nat} (h : s.Inv) : (s.swgSample l).Inv :=
  .swgRun h

theorem Answers.execSwageSample {l : Fin 16} : Answers s (execSwageSample l s) :=
  fun h => .ite (.swgSample h) h

theorem State.Inv.withPrevious {ls : List Nat} {f : State → State} (h : s.Inv) (hf : ∀ (t : State), t.Inv → (f t).Inv)
    : (s.withPrevious ls f).Inv :=
  .foldl (.foldl (hf _ (.foldl (.foldl h fun _ _ h1 => .setWord h1) fun _ _ h1 => .set h1)) fun _ _ h1 => .ite
      (.setWord h1) h1) fun _ _ h1 => .ite (.set h1) h1

theorem State.Inv.swgTick (h : s.Inv) : s.swgTick.Inv :=
  .withPrevious h (fun _ h1 => .swgRun h1)

theorem State.Inv.swgApply1 {l : Nat} (h : s.Inv) : (s.swgApply1 l).Inv := by
  dsimp only [State.swgApply1]
  split
  exacts [h, .ite (.modLoop h) (.foldl (.sset (.modLoop h)) fun _ _ h1 => .modChan h1)]

theorem State.Inv.swgApply {l : Nat} (h : s.Inv) : (s.swgApply l).Inv :=
  .refreshLsw (.foldl h fun _ _ h1 => .swgApply1 h1)

theorem State.Inv.swgEmit (h : s.Inv) : s.swgEmit.Inv :=
  .refreshLsw (.each h (fun _ _ h1 => .ite (.swgApply1 h1) h1))

theorem Answers.execSwageOutputApply {l : Fin 16} : Answers s (execSwageOutputApply l s) :=
  fun h => .ite (.swgApply h) h

theorem State.Inv.setUsed (h : s.Inv) : s.setUsed.Inv :=
  .set h

theorem State.Inv.swgEnable {l : Nat} (h : s.Inv) : (s.swgEnable l).Inv := by
  dsimp only [State.swgEnable]
  split
  · exact .refreshLsw (.setUsed (.foldl (.swgTwoLevel (.setB (.set (.modLoop (.set (.set (.set h))))))) fun _ _ h1 => .modChan h1))
  · exact .set (.set h)

theorem State.Inv.swgDisable {l : Nat} (h : s.Inv) : (s.swgDisable l).Inv :=
  .refreshLsw (.foldl (.setUsed (.modLoop (.set h))) fun _ _ h1 => .modChan h1)

theorem State.Inv.swgAuto {l : Nat} {b : Bool} (h : s.Inv) : (s.swgAuto l b).Inv :=
  .ite h (.ite (.modLoop (.set h)) (.manualHold h))

theorem State.Inv.swgPgo {l : Nat} (h : s.Inv) : (s.swgPgo l).Inv :=
  .modLoop h

theorem State.Inv.swgBand {w : Who} {l : Nat} {v : W32} (h : s.Inv) : (s.swgBand w l v).Inv :=
  .set (.writeFields h)

theorem State.Inv.writeSwgCtrl {l : Nat} {v : W32} (h : s.Inv) : (s.writeSwgCtrl l v).Inv :=
  .ite (.swgPgo (.swgAuto (.ite (.swgEnable h) (.ite (.swgDisable h) h)))) (.swgAuto (.ite (.swgEnable h) (.ite (.swgDisable h) h)))

theorem State.Inv.swgRunStart (h : s.Inv) : s.swgRunStart.Inv :=
  .each h (fun _ _ h1 => .ite (.record (.modLoop (.set (.manualHold h1)))) h1)

end

/-! ## Tongs, pins and timers -/

section

variable {s : State}

theorem State.Inv.modTng {t : Nat} {f : Tongs → Tongs} (h : s.Inv) : (s.modTng t f).Inv :=
  .frame h rfl rfl rfl

theorem State.Inv.pioDrive {time : Nat} (h : s.Inv) : (s.pioDrive time).Inv :=
  .ite h (.frame h rfl rfl rfl)

theorem State.Inv.pioEdge (h : s.Inv) : s.pioEdge.Inv :=
  .ite (.pioDrive (.frame h rfl rfl rfl)) h

theorem State.Inv.drivePin {t p : Nat} {level : Option Bool} (h : s.Inv) : (s.drivePin t p level).Inv :=
  .modTng h

theorem State.Inv.tngAbandon {t : Nat} (h : s.Inv) : (s.tngAbandon t).Inv :=
  .modTng (.set h)

theorem State.Inv.tngAt {t pc : Nat} (h : s.Inv) : (s.tngAt t pc).Inv :=
  .set (.set h)

theorem State.Inv.tngNext {t : Nat} (h : s.Inv) : (s.tngNext t).Inv :=
  .tngAt h

theorem State.Inv.tngWait {t : Nat} (h : s.Inv) : (s.tngWait t).Inv :=
  .set h

theorem State.Inv.tngIllegal {t : Nat} (h : s.Inv) : (s.tngIllegal t).Inv :=
  .record (.set (.set h))

theorem State.Inv.tngDeliver {t : Nat} {w : W32} (h : s.Inv) : (s.tngDeliver t w).Inv :=
  .ite (.count h) (.modTng h)

theorem State.Inv.modTimer {n : Nat} {f : Timer → Timer} (h : s.Inv) : (s.modTimer n f).Inv :=
  .frame h rfl rfl rfl

theorem State.Inv.set48 {lo hi : Fld} {v : Nat} (h : s.Inv) : (s.set48 lo hi v).Inv :=
  .set (.set h)

theorem State.Inv.setTmrCnt {n v : Nat} (h : s.Inv) : (s.setTmrCnt n v).Inv :=
  .set48 h

theorem State.Inv.tmrCapture {n c : Nat} (h : s.Inv) : (s.tmrCapture n c).Inv :=
  .ite (.registerAll (.ite (.modTimer (.set (.set48 (.ite (.set h) h)))) (.set (.set48 (.ite (.set h) h))))) (.ite (.modTimer (.set (.set48 (.ite
      (.set h) h)))) (.set (.set48 (.ite (.set h) h))))

theorem State.Inv.captures {p : Nat → Nat → Bool} (h : s.Inv) : (s.captures p).Inv :=
  .onOneEdge h (fun _ h1 => .each h1 (fun _ _ h2 => .each h2 (fun _ _ h3 => .ite (.tmrCapture h3) h3)))

theorem State.Inv.tickCaptures (h : s.Inv) : s.tickCaptures.Inv :=
  .captures h

theorem State.Inv.tmrMatch {n c : Nat} (h : s.Inv) : (s.tmrMatch n c).Inv :=
  .ite (.registerAll (.setB (.set h))) (.setB (.set h))

theorem State.Inv.tmrTo {n v : Nat} (h : s.Inv) : (s.tmrTo n v).Inv :=
  .each (.setTmrCnt h) (fun _ _ h1 => .ite (.tmrMatch h1) h1)

theorem State.Inv.tmrCount {n : Nat} (h : s.Inv) : (s.tmrCount n).Inv :=
  .ite h (.ite (.tmrTo (.set (.modTimer h))) (.tmrTo (.modTimer h)))

theorem State.Inv.tmrEdge {n : Nat} (h : s.Inv) : (s.tmrEdge n).Inv :=
  .ite h (.each (.modTimer h) (fun _ _ h1 => .tmrCount h1))

theorem State.Inv.tngEvent {t : Nat} (h : s.Inv) : (s.tngEvent t).Inv :=
  .onOneEdge h (fun _ h1 => .captures (.ite (.set h1) (.each h1 (fun _ _ h2 => .ite (.register h2) h2))))

theorem State.Inv.tngRun {t : Nat} {b : Bool} (h : s.Inv) : (s.tngRun t b).Inv :=
  .ite (.ite h (.modTng (.set h))) (.tngAbandon (.set h))

theorem State.Inv.tngRestart {t : Nat} (h : s.Inv) : (s.tngRestart t).Inv :=
  .ite h (.modTng (.set h))

theorem State.Inv.writeTngCtrl {t : Nat} {v : W32} (h : s.Inv) : (s.writeTngCtrl t v).Inv :=
  .tngRun (.ite (.tngRestart h) h)

theorem State.Inv.tngJmp {t : Nat} {pins : W32} {cond p : Fin 8} {dest : Fin 64} (h : s.Inv) : (s.tngJmp t pins cond p dest).Inv := by
  dsimp only [State.tngJmp]
  split
  · exact .ite (.tngAt h) (.tngNext h)
  · exact .ite (.tngNext h) (.tngAt (.modTng h))
  · exact .ite (.tngNext h) (.tngAt (.modTng h))
  · exact .ite (.tngAt h) (.tngNext h)
  · exact .ite (.tngAt h) (.tngNext h)
  · exact .ite (.tngAt h) (.tngNext h)
  · exact .ite (.tngAt h) (.tngNext h)
  · exact .ite (.tngAt h) (.tngNext h)

theorem State.Inv.tngDrive {t : Nat} {mode : Fin 4} {mask : BitVec 8} (h : s.Inv) : (s.tngDrive t mode mask).Inv :=
  .tngNext (.foldl h fun _ _ h1 => .ite (.drivePin h1) h1)

theorem State.Inv.tngShout {t : Nat} {p : Fin 8} (h : s.Inv) : (s.tngShout t p).Inv :=
  .tngNext (.modTng (.drivePin h))

theorem State.Inv.tngPull {t : Nat} {block : Bool} (h : s.Inv) : (s.tngPull t block).Inv := by
  dsimp only [State.tngPull]
  split
  exacts [.tngNext (.modTng h), .ite (.tngWait h) (.tngNext (.set (.modTng h)))]

theorem State.Inv.tngPush {t : Nat} {block : Bool} (h : s.Inv) : (s.tngPush t block).Inv :=
  .ite (.tngWait h) (.tngNext (.modTng (.tngDeliver h)))

theorem State.Inv.tngMov {t : Nat} {pins : W32} {dst src : Fin 8} (h : s.Inv) : (s.tngMov t pins dst src).Inv := by
  dsimp only [State.tngMov]
  split
  · exact .tngIllegal h
  · exact .tngNext (.modTng h)
  · exact .tngNext (.set h)
  · exact .tngNext (.foldl h fun _ _ h1 => .drivePin h1)
  · exact .tngNext (.modTng h)

theorem State.Inv.tngAlu {t : Nat} {d rs op : Fin 4} (h : s.Inv) : (s.tngAlu t d rs op).Inv :=
  .tngNext (.modTng h)

theorem State.Inv.tngCnt {t : Nat} {op : Fin 4} (h : s.Inv) : (s.tngCnt t op).Inv :=
  .tngNext (.set h)

theorem State.Inv.tngDelay {t : Nat} {n : BitVec 12} (h : s.Inv) : (s.tngDelay t n).Inv := by
  dsimp only [State.tngDelay]
  split
  exacts [.ite (.tngNext h) (.tngWait (.modTng h)), .ite (.tngNext (.modTng h)) (.modTng h)]

theorem State.Inv.tngDo {t : Nat} {pins : W32} {op : TongsOp} (h : s.Inv) : (s.tngDo t pins op).Inv := by
  dsimp only [State.tngDo]
  split
  · exact .tngJmp h
  · exact .ite (.tngNext h) (.tngWait h)
  · exact .tngDrive h
  · exact .tngNext (.modTng h)
  · exact .tngShout h
  · exact .tngPull h
  · exact .tngPush h
  · exact .tngNext (.modTng h)
  · exact .tngMov h
  · exact .tngAlu h
  · exact .tngCnt h
  · exact .tngEvent (.tngNext h)
  · exact .tngDelay h

theorem State.Inv.tngStep {t : Nat} (h : s.Inv) : (s.tngStep t).Inv :=
  .pioDrive ((by split; exacts [.tngDo (.modTng h), .tngIllegal (.modTng h)]))

theorem State.Inv.tngRow {t : Nat} {op : TongsOp} (h : s.Inv) : (s.tngRow t op).Inv :=
  .ite (.tngStep h) h

theorem State.Inv.tngPins {t : Nat} {op : TongsOp} {pins : W32} (h : s.Inv) : (s.tngPins t op pins).Inv :=
  .ite (.tngStep (.frame h rfl rfl rfl)) h

theorem State.Inv.txfWrite {t : Nat} {v : W32} (h : s.Inv) : (s.txfWrite t v).Inv :=
  .ite h (.ite (.set h) (.modTng h))

theorem State.Inv.rxfRead {t : Nat} (h : s.Inv) : (s.rxfRead t).2.Inv := by
  dsimp only [State.rxfRead]
  split
  · exact h
  · split
    exacts [.set h, .modTng h]

theorem State.Inv.pendDrop (h : s.Inv) : s.pendDrop.Inv := by
  dsimp only [State.pendDrop]
  exact .beside (.setB (.set h))

theorem State.Inv.pendOff (h : s.Inv) : s.pendOff.Inv :=
  .pendDrop (.frame h rfl rfl rfl)

theorem State.Inv.pendEnd (h : s.Inv) : s.pendEnd.Inv :=
  .ite (.beside (.pendDrop h)) (.tngEvent (.tngDeliver (.beside (.pendDrop h))))

theorem State.Inv.writePend {w : Who} {v : W32} (h : s.Inv) : (s.writePend w v).Inv :=
  .ite (.ite (.pendOff (.set (.set (.writeFields h)))) (.set (.set (.writeFields h)))) (.ite (.pendOff (.writeFields h)) (.writeFields h))

theorem State.Inv.pendInterval {mark : Bool} {ns : Nat} (h : s.Inv) : (s.pendInterval mark ns).Inv :=
  .ite (.ite (.frame h rfl rfl rfl) (.ite (.ite (.count (.pendDrop h)) (.frame h rfl rfl rfl)) (.ite (.beside (.set (.set h)))
      (.frame h rfl rfl rfl)))) (.ite (.ite (.pendEnd h) (.ite h (.ite (.count (.pendDrop h)) (.frame h rfl rfl rfl)))) (.frame h rfl rfl rfl))

theorem State.Inv.tmrRun {n : Nat} {b : Bool} (h : s.Inv) : (s.tmrRun n b).Inv :=
  .ite (.modTimer (.set (.set h))) (.ite (.modTimer (.set h)) h)

theorem State.Inv.tmrSwcap {n mask : Nat} (h : s.Inv) : (s.tmrSwcap n mask).Inv :=
  .each h (fun _ _ h1 => .ite (.tmrCapture h1) h1)

theorem State.Inv.writeTmrCtrl {n : Nat} {v : W32} (h : s.Inv) : (s.writeTmrCtrl n v).Inv :=
  .tmrRun (.tmrSwcap h)

theorem State.Inv.readCnt {n : Nat} (h : s.Inv) : (s.readCnt n).2.Inv := by
  dsimp only [State.readCnt]
  split
  exacts [.capture (.set h), .capture h]

theorem State.Inv.readCap {n c : Nat} (h : s.Inv) : (s.readCap n c).2.Inv :=
  .set (.set (.capture h))

theorem State.Inv.tmrCatchUp {n slow : Nat} (h : s.Inv) : (s.tmrCatchUp n slow).Inv :=
  .ite (.each (.setTmrCnt (.ite (.set h) h)) (fun _ _ h1 => .ite (.set (.tmrMatch h1)) h1)) h

end

/-! ## Sleep and wake -/

section

variable {s : State}

theorem State.Inv.modPower {f : Power → Power} (h : s.Inv) : (s.modPower f).Inv :=
  .frame h rfl rfl rfl

theorem State.Inv.carryTime {slow : Nat} (h : s.Inv) : (s.carryTime slow).Inv := by
  unfold State.carryTime
  extract_lets s1 s2
  have h2 : s2.Inv := .record (.set (.addTb h))
  exact .onOneEdge h2 fun _ ht => .each ht fun _ _ hu => .tmrCatchUp hu

theorem State.Inv.plan (h : s.Inv) : s.plan.Inv :=
  .ite h (.ite (.set (.ite (.set h) h)) (.modPower (.set (.ite (.set h) h))))

theorem State.Inv.planLast (h : s.Inv) : s.planLast.Inv :=
  .ite (.plan (.modPower h)) (.modPower h)

theorem State.Inv.linksDown (h : s.Inv) : s.linksDown.Inv :=
  .checkVoids (.each (.each h (fun _ _ h1 => .linkFalls h1)) (fun _ _ h1 => .ite h1 (.linkOff h1)))

theorem State.Inv.banksSleep (h : s.Inv) : s.banksSleep.Inv :=
  .each h (fun _ _ h1 => .ite (.ite (.set h1) h1) (.set (.zeroBank h1)))

theorem State.Inv.hibernate (h : s.Inv) : s.hibernate.Inv := by
  have hslept := State.Inv.modSec (f := fun x => { x with dirs := Vector.replicate 32 { len := 0, timing := none, wait := none } })
    (State.Inv.resetRegs (a := 0xF000) (b := 0xF800) (.clearSession (.banksSleep (.linksDown
        (.each (n := 18) h fun c _ h1 => .flushCore (core := c) h1)))))
  exact ⟨Memory.wf_clear _ _ _ hslept.1, hslept.2⟩

theorem Answers.execSleepEntryDone : Answers s (execSleepEntryDone s) := by
  dsimp only [Machine.execSleepEntryDone]
  split
  · exact .same
  · exact fun h => .refreshLsw (.set (.ite (.hibernate (.ite (.pendDrop (.each (.count (.modPower h)) (fun _ _ h1 => .tngAbandon h1))) (.count
      (.modPower h)))) (.ite (.pendDrop (.each (.count (.modPower h)) (fun _ _ h1 => .tngAbandon h1))) (.count (.modPower h)))))

theorem State.Inv.wake {src : Fld} {v : Nat} (h : s.Inv) : (s.wake src v).Inv :=
  .modPower (.set h)

theorem Answers.execArmedWake : Answers s (execArmedWake s) :=
  fun h => .ite (.modPower (.wake h)) h

theorem State.Inv.hostWake {a : HeldAccess} (h : s.Inv) : (s.hostWake a).Inv :=
  .modPower (.set (.wake h))

theorem State.Inv.passTicks (h : s.Inv) : s.passTicks.Inv := by
  dsimp only [State.passTicks]
  split
  exacts [h, .ite h (.beside (.setWord64 (.setWord64 h)))]

theorem State.Inv.banksWake (h : s.Inv) : s.banksWake.Inv :=
  .each h (fun _ _ h1 => .ite (.ite (.zeroBank h1) h1) (.ite (.bankOn (.ite (.zeroBank h1) h1)) (.set (.ite (.zeroBank h1) h1))))

theorem State.Inv.enginesWake (h : s.Inv) : s.enginesWake.Inv :=
  .each (.frame h rfl rfl rfl) (fun _ _ h1 => .go (.activate h1))

theorem State.Inv.wakeUp {slow : Nat} (h : s.Inv) : (s.wakeUp slow).Inv :=
  .enginesWake (.refreshLsw (.ite (.chainReset (.banksWake (.ite (.wdtPass (.ite (.passTicks (.carryTime (.modPower (.set h)))) (.modPower
      (.set h)))) (.ite (.passTicks (.carryTime (.modPower (.set h)))) (.modPower (.set h)))))) (.ite (.wdtPass (.ite (.passTicks (.carryTime
      (.modPower (.set h)))) (.modPower (.set h)))) (.ite (.passTicks (.carryTime (.modPower (.set h)))) (.modPower (.set h))))))

theorem State.Inv.idleService (h : s.Inv) : s.idleService.Inv :=
  .planLast (.settleHost (.frame h rfl rfl rfl))

theorem Answers.execIdleDoorbellPoll : Answers s (execIdleDoorbellPoll s) :=
  .ite .same (fun h => .ite (.doorbellRead (.activateRings (.ite (.idleService h) h))) (.idleService (.doorbellRead (.activateRings (.ite
      (.idleService h) h)))))

end

/-! ## The Hearth's tick -/

section

variable {s : State}

theorem State.Inv.modHearth {f : Hearth → Hearth} (h : s.Inv) : (s.modHearth f).Inv :=
  .frame h rfl rfl rfl

theorem State.Inv.tickRunStart (h : s.Inv) : s.tickRunStart.Inv :=
  .ite (.set (.set (.set h))) (.modHearth (.swgRunStart (.set (.set h))))

theorem State.Inv.tickRunStop (h : s.Inv) : s.tickRunStop.Inv :=
  .ite (.modHearth (.set h)) (.modHearth (.set h))

theorem State.Inv.writeHrtCtrl {w : Who} {v : W32} (h : s.Inv) : (s.writeHrtCtrl w v).Inv :=
  .ite (.tickRunStop (.writeFields h)) (.ite (.setB (.writeFields h)) (.ite (.writeFields h) (.tickRunStart (.writeFields h))))

theorem State.Inv.hearthTick {num nominal : Nat} {taken : Bool} (h : s.Inv) : (s.hearthTick num nominal taken).Inv :=
  .modHearth (.set (.set (.setWord64 (.setWord64 (.ite h (.set h))))))

theorem State.Inv.advancePointers (h : s.Inv) : s.advancePointers.Inv :=
  .modHoard (.modIng (.set h))

theorem State.Inv.latchInputs (h : s.Inv) : s.latchInputs.Inv :=
  .tickCaptures (.latchSwage (.beside (.each (.each h (fun _ _ h1 => .modChan (.set h1))) (fun _ _ h1 => .set h1))))

theorem State.Inv.gather (h : s.Inv) : s.gather.Inv :=
  .each (.onOneEdge (.beside (.advancePointers h)) (fun _ h1 => .registerAll (.prsGather (.videoGather (.handover (.checkResumes (.portsTick
      (.chainTick (.handover (.releaseRx (.doorbellRead (.activateRings (.latchInputs h1))))))))))))) (fun _ _ h1 => .go (.activate h1))

theorem Answers.execFirstTickStart : Answers s (execFirstTickStart s) := by
  dsimp only [Machine.execFirstTickStart]
  split
  · exact .same
  · split
    · split
      exacts [.same, fun h => .gather (.hearthTick h)]
    · split
      · exact fun h => .gather (.hearthTick h)
      · split
        · split
          exacts [.same, fun h => .gather (.hearthTick h)]
        · exact fun h => .gather (.hearthTick (.modHearth h))

theorem Answers.execFirstEdgeTimeout : Answers s (execFirstEdgeTimeout s) :=
  .ite (fun h => .gather (.hearthTick (.modHearth (.set h)))) .same

theorem State.Inv.stopTicks (h : s.Inv) : s.stopTicks.Inv :=
  .each (.each (.each (.each (.commitLsw (.set (.modHearth (.set
      (.set h))))) (fun _ _ h1 => .modSlot h1)) (fun _ _ h1 => .tryUnload h1)) (fun _ _ h1 => .select (.ite
      (.swapGates h1) h1))) (fun _ _ h1 => .ite (.haltNow h1) h1)

theorem State.Inv.tickStart (h : s.Inv) : s.tickStart.Inv := by
  dsimp only [State.tickStart]
  split
  · exact .stopTicks (.settleEnd h)
  · split <;> exact .gather (.hearthTick (.settleEnd h))

theorem Answers.execTickStart : Answers s (execTickStart s) :=
  fun h => .ite (.tickStart h) h

theorem Answers.execSyncOutEnd : Answers s (execSyncOutEnd s) :=
  fun h => .ite (.modHearth h) h

theorem State.Inv.syncEdge {e : Nat} (h : s.Inv) : (s.syncEdge e).Inv :=
  .ite (.modHearth h) (.ite (.modHearth h) (.count h))

theorem State.Inv.edgeIn (h : s.Inv) : s.edgeIn.Inv :=
  .ite (.ite (.modHearth h) (.modHearth (.regrid (.modHearth h)))) (.syncEdge (.modHearth h))

theorem Answers.execSyncInEdge : Answers s (execSyncInEdge s) :=
  .ite .same (.ite (fun h => .modHearth h) (.ite .same (.ite (fun h => .ite (.edgeIn (.tickStart h)) (.tickStart h)) (fun h => .edgeIn h))))

theorem Answers.execSyncWindowEnd : Answers s (execSyncWindowEnd s) :=
  .ite (fun h => .modHearth (.count h)) .same

theorem Answers.execSourceLoss : Answers s (execSourceLoss s) :=
  .ite (fun h => .modHearth (.set h)) .same

theorem State.Inv.computeEngine {e : Nat} (h : s.Inv) : (s.computeEngine e).Inv :=
  .ite (.ite (.count (.modEng h)) h) (.go (.modEng h))

theorem Answers.execComputeStart : Answers s (execComputeStart s) :=
  .ite .same (fun h => .registerAll (.swgTick (.each (.prsCompute (.set (.deliverRx h))) (fun _ _ h1 => .computeEngine h1))))

theorem Answers.execSettleStart {slack tj : BitVec 16} {dirty : BitVec 20} : Answers s (execSettleStart slack tj dirty s) :=
  .ite .same (fun h => .planLast (.registerAll (.placement (.scrub (.migCopy (.settleHost (.each (.chainSettle (.subSettle (.migSwitch
      (.settleBanks (.bellowsEval (.applySteps (.set h))))))) (fun _ _ h1 => .tryUnload h1))))))))

theorem Answers.execTaskBudgetExpiry {e : Fin 16} : Answers s (execTaskBudgetExpiry e s) :=
  fun h => .ite (.overrun h) h

theorem Answers.execAlignedEntry {e : Fin 16} : Answers s (execAlignedEntry e s) :=
  fun h => .modRun h

end

/-! ## Writes of set-up registers -/

section

variable {s : State}

theorem State.Inv.plain {w : Who} {key : Nat} {v : W32} (h : s.Inv) : (s.plain w key v).Inv :=
  .writeFields h

theorem State.Inv.writeWide {w : Who} {lo hi : Nat} {v : W32} (h : s.Inv) : (s.writeWide w lo hi v).Inv :=
  .plain ((by split; exacts [.takeHeld h, .setWord (.takeHeld h)]))

theorem State.Inv.writeDev {w : Who} {key : Nat} {v : W32} (h : s.Inv) : (s.writeDev w key v).Inv :=
  .ite (.writeDevCtrl h) (.ite (.doorbellRead h) (.ite (.ite (.writeWide h) (.hold h)) (.plain h)))

theorem State.Inv.writeRingCtrl {n : Nat} {v : W32} (h : s.Inv) : (s.writeRingCtrl n v).Inv :=
  .ite (.flushCmd (.ite (.enableRing (.set h)) (.disableRing (.set h)))) (.ite (.enableRing (.set h)) (.disableRing (.set h)))

theorem State.Inv.writeRing1 {w : Who} {key : Nat} {v : W32} (h : s.Inv) : (s.writeRing1 w key v).Inv :=
  .ite (.ite (.writeWide h) (.hold h)) (.ite (.writeRingCtrl h) (.ite (.modRing (.plain h)) (.plain h)))

theorem State.Inv.writeEngCtrl {w : Who} {n : Nat} {v : W32} (h : s.Inv) : (s.writeEngCtrl w n v).Inv :=
  .ite (.resetEng h) h

theorem State.Inv.haltWrite {n : Nat} (h : s.Inv) : (s.haltWrite n).Inv :=
  .ite (.set h) (.ite (.ite (.modEng (.set h)) (.haltNow (.set h))) (.ite (.set (.set h)) (.ite (.haltNow (.set h)) (.modEng (.set h)))))

theorem State.Inv.resumeWrite {n : Nat} (h : s.Inv) : (s.resumeWrite n).Inv :=
  .go (.activate (.modEng (.set (.set h))))

theorem State.Inv.writeEngDbg {w : Who} {n : Nat} {v : W32} (h : s.Inv) : (s.writeEngDbg w n v).Inv :=
  .ite h (.ite (.resumeWrite (.ite (.set h) h)) (.ite (.modEng (.set (.ite (.set h) h))) (.haltWrite (.ite (.set h) h))))

theorem State.Inv.writeEng {w : Who} {key : Nat} {v : W32} (h : s.Inv) : (s.writeEng w key v).Inv :=
  .ite (.setB (.plain h)) (.ite (.plain h) (.ite (.writeEngCtrl h) (.ite (.writeEngDbg h) (.plain h))))

theorem State.Inv.writeHrd {w : Who} {key : Nat} {v : W32} (h : s.Inv) : (s.writeHrd w key v).Inv :=
  .ite (.writeMig h) (.ite (.ite (.partApply h) h) (.ite (.writeTgt h) (.plain h)))

theorem State.Inv.writePort {w : Who} {key p : Nat} {v : W32} (h : s.Inv) : (s.writePort w key p v).Inv :=
  .select (.checkVoid (.ite (.writeGctl h) (.ite h (.ite (.preUpdate (.plain h)) (.ite (.pauseCheck (.plain h)) (.ite (.credits (.plain
      (.credits h))) (.plain h)))))))

theorem State.Inv.writePorts {w : Who} {key : Nat} {v : W32} (h : s.Inv) : (s.writePorts w key v).Inv :=
  .ite (.writePort h) (.ite (.canSelect (.ite (.canRecover (.plain h)) (.plain h))) (.ite (.ite (.modVid (.plain h)) (.plain h)) (.plain h)))

theorem State.Inv.writeTime {w : Who} {key : Nat} {v : W32} (h : s.Inv) : (s.writeTime w key v).Inv :=
  .ite (.writeAddend h) (.ite (.writeSlew h) (.ite (.writeStepLo h) (.ite (.writeStepHi h) (.ite (.writeStepc h) (.ite (.clampJumplim (.plain h))
      (.plain h))))))

theorem State.Inv.writeChn {w : Who} {key : Nat} {v : W32} (h : s.Inv) : (s.writeChn w key v).Inv :=
  .ite (.chainEnables (.plain h)) (.ite (.writeRunctl h) (.ite (.writeMctl h) (.plain h)))

theorem State.Inv.writeSwg {w : Who} {key : Nat} {v : W32} (h : s.Inv) : (s.writeSwg w key v).Inv :=
  .ite (.writeSwgCtrl h) (.ite (.swgBand h) (.plain h))

theorem State.Inv.writeClr {c : Nat} {v : W32} (h : s.Inv) : (s.writeClr c v).Inv :=
  .ite (.clearOtl (.ite (.clearLatch h) h)) (.ite (.clearLatch h) h)

theorem State.Inv.writeLswReg {w : Who} {key : Nat} {v : W32} (h : s.Inv) : (s.writeLswReg w key v).Inv :=
  .ite (.ite (.writeClr h) (.writeLsw h)) (.ite (.writeHb h) (.plain h))

theorem State.Inv.writeFsel {w : Who} {key : Nat} {v : W32} (h : s.Inv) : (s.writeFsel w key v).Inv :=
  .writeFields (.ite (.accessFault h) h)

theorem State.Inv.writeTng {w : Who} {key : Nat} {v : W32} (h : s.Inv) : (s.writeTng w key v).Inv :=
  .ite (.writeFsel h) (.ite (.writePend h) (.ite (.writeTngCtrl h) (.ite (.txfWrite h) (.ite (.writeTmrCtrl h) (.ite (.hold h) (.ite
      (.writeWide h) (.plain h)))))))

theorem State.Inv.writeIng {w : Who} {key : Nat} {v : W32} (h : s.Inv) : (s.writeIng w key v).Inv :=
  .ite (.ite (.writeResume (.ite (.writeSusp (.plain h)) (.plain h))) (.ite (.writeSusp (.plain h)) (.plain h))) (.ite (.writeIngCmd h) (.ite
      (.plain h) (.plain h)))

theorem State.Inv.writeTmp {w : Who} {key : Nat} {v : W32} (h : s.Inv) : (s.writeTmp w key v).Inv :=
  .ite (.writeEqCfg (.set h)) (.ite (.setWord h) (.ite (.setWord h) (.ite (.writeThrctl h) (.ite (.writeSubctl h) (.plain h)))))

theorem State.Inv.writeQctl {w : Who} {v : W32} (h : s.Inv) : (s.writeQctl w v).Inv :=
  .ite (.quench h) (.ite (.quenchRelease h) h)

theorem State.Inv.writeSafe {w : Who} {key : Nat} {v : W32} (h : s.Inv) : (s.writeSafe w key v).Inv :=
  .ite (.accessFault h) (.plain h)

theorem State.Inv.writeWdtcfg {w : Who} {v : W32} (h : s.Inv) : (s.writeWdtcfg w v).Inv :=
  .ite (.beside (.set (.plain h))) (.plain h)

theorem State.Inv.writePwr {w : Who} {key : Nat} {v : W32} (h : s.Inv) : (s.writePwr w key v).Inv :=
  .ite (.hold h) (.ite (.writeWide h) (.ite (.writeWdtcfg h) (.ite (.writeWdtkick h) (.ite (.writeChrst h) (.ite (.writeQctl h) (.ite
      (.writeSafe h) (.plain h)))))))

theorem State.Inv.writeMbx {w : Who} {key : Nat} {v : W32} (h : s.Inv) : (s.writeMbx w key v).Inv :=
  .ite (.mbxDeny h) (.ite (.writeMbxCfg h) (.ite (.writeMbxCtl h) (.ite (.writeMbxCtl h) (.ite (.writeMbxStat h) (.ite (.writeMbxStat h) (.ite
      (.writeMbxBuf h) (.ite (.writeMbxBuf h) h)))))))

theorem State.Inv.writeSecure {w : Who} {key : Nat} {v : W32} (h : s.Inv) : (s.writeSecure w key v).Inv :=
  .ite (.writePatchLen h) (.ite (.ite (.writeSecHi h) (.hold h)) (.ite (.writeKeyCtl h) (.ite (.writeDbguCtl h) (.ite (.writeRaddr h) (.plain h)))))

theorem State.Inv.writeJtag {key : Nat} {v : W32} (h : s.Inv) : (s.writeJtag key v).Inv :=
  .ite (.writeEngDbg h) (.ite (.plain h) h)

theorem State.Inv.writeBlock {w : Who} {key : Nat} {v : W32} (h : s.Inv) : (s.writeBlock w key v).Inv := by
  dsimp only [State.writeBlock]
  split
  · exact .writeDev h
  · exact .ite (.writeHrtCtrl h) (.plain h)
  · exact .writeRing1 h
  · exact .writeEng h
  · exact .writeHrd h
  · exact .writePorts h
  · exact .writeTime h
  · exact .writeChn h
  · exact .writeSwg h
  · exact .writeLswReg h
  · exact .writeTng h
  · exact .writeIng h
  · exact .writeTmp h
  · exact .writePwr h
  · exact .writeMbx h
  · exact .plain h

theorem State.Inv.setupWrite {w : Who} {key : Nat} {v : W32} (h : s.Inv) : (s.setupWrite w key v).Inv :=
  .ite (.writeJtag h) (.ite (.pf1Only h (fun _ h1 => .writeSecure h1)) (.ite h (.owned h (fun _ h1 => .writeBlock (.noteLoopWrite h1)))))

theorem State.Inv.captureAbove {lo n : Nat} (h : s.Inv) : (s.captureAbove lo n).Inv :=
  .foldl h fun _ _ h1 => .capture h1

theorem State.Inv.readReg {key : Nat} (h : s.Inv) : (s.readReg key).2.Inv := by
  dsimp only [State.readReg]
  split
  · exact .readNow h
  · split
    · exact .readCnt h
    · split
      · exact .readCap h
      · split
        · exact .rxfRead h
        · split
          · exact .readEq h
          · split
            · exact .readThrval h
            · split
              · split
                exacts [.clearOnRead (.captureAbove h), h]
              · exact .ite (.set (.clearOnRead h)) (.clearOnRead h)

theorem State.Inv.setupRead {w : Who} {key : Nat} (h : s.Inv) : (s.setupRead w key).2.Inv := by
  dsimp only [State.setupRead]
  split
  · split
    exacts [.readReg h, .mbxDeny h]
  · split
    · exact .mbxDeny h
    · split
      exacts [h, .readReg h]

theorem State.Inv.accessWrite {w : Who} {key : Nat} {word : Bool} {v : W32} (h : s.Inv) : (s.accessWrite w key word v).Inv :=
  .ite (.setupWrite h) (.accessFault h)

theorem State.Inv.accessRead {w : Who} {key : Nat} {word : Bool} (h : s.Inv) : (s.accessRead w key word).2.Inv := by
  dsimp only [State.accessRead]
  split
  exacts [.setupRead h, .accessFault h]

theorem State.Inv.regWrite {w : Who} {key : Nat} {word : Bool} {v : W32} (h : s.Inv) : (s.regWrite w key word v).Inv := by
  dsimp only [State.regWrite]
  split
  exacts [.accessWrite h, .ite (.hostWake h) (.accessFault h), h]

theorem State.Inv.regRead {w : Who} {key : Nat} {word : Bool} (h : s.Inv) : (s.regRead w key word).Inv := by
  dsimp only [State.regRead]
  split
  exacts [.send (.accessRead h), .ite (.hostWake h) (.send (.accessFault h)), .send h]

theorem Answers.execQuench {n : Fin 64} : Answers s (execQuench n s) := by
  dsimp only [Machine.execQuench]
  split
  exacts [.same, fun h => .endWithSeq (.quench (.start h))]

theorem Answers.execQuenchClear {n : Fin 64} : Answers s (execQuenchClear n s) := by
  dsimp only [Machine.execQuenchClear]
  split
  · exact .same
  · exact .ite (fun h => .doneNow (.start h)) (.ite (fun h => .endNoEntry (.start h)) (fun h => .endWithSeq (.quenchRelease (.start h))))

end

/-! ## EMIT and its buses -/

section

variable {s : State}

theorem State.Inv.overrunPreempted {e : Nat} (h : s.Inv) : (s.overrunPreempted e).Inv := by
  dsimp only [State.overrunPreempted]
  split
  exacts [h, .overrunReport (.modEng h)]

theorem State.Inv.stopPhase {e : Nat} (h : s.Inv) : (s.stopPhase e).Inv :=
  .go ((by
        split
        · exact .ite (.overrunStop (.overrunPreempted (.modEng h))) (.overrunPreempted (.modEng h))
        · exact .overrunPreempted (.modEng h)))

theorem State.Inv.frameAt {a n : Nat} (h : s.Inv) : (s.frameAt a n).2.2.Inv := by
  dsimp only [State.frameAt]
  split
  · exact h
  · split
    · split <;> exact .ofEq (.hoardRead h) ‹_›
    · exact .recordAccess h

theorem State.Inv.requestMac {p addr len : Nat} {f : Frame} (h : s.Inv) : (s.requestMac p addr len f).Inv :=
  .ite (.record h) (.join (.frameAt h))

theorem State.Inv.requestCan {c addr len : Nat} {f : Frame} (h : s.Inv) : (s.requestCan c addr len f).Inv := by
  dsimp only [State.requestCan]
  split
  exacts [.ite (.modCan (.ofEq3 (.frameAt h) ‹_›)) (.record (.ofEq3 (.frameAt h) ‹_›)), .ofEq3 (.frameAt h) ‹_›]

theorem State.Inv.transmit {e slot addr : Nat} {ctl : W32} (h : s.Inv) : (s.transmit e slot addr ctl).Inv :=
  .ite (.requestCan h) (.ite h (.requestMac h))

theorem State.Inv.safeFrames (h : s.Inv) : s.safeFrames.Inv :=
  .ite h (.each h (fun _ _ h1 => .ite (.requestMac h1) h1))

theorem State.Inv.resendCyclic {e : Nat} (h : s.Inv) : (s.resendCyclic e).Inv :=
  .foldl h fun _ _ h1 => .ite (.transmit h1) h1

theorem State.Inv.commitEntry {e : Nat} {x : EmitEntry} (h : s.Inv) : (State.commitEntry e s x).Inv :=
  .ite (.accessWrite h) (.transmit (.ite (.modEng h) h))

theorem State.Inv.commitEngine {e : Nat} (h : s.Inv) : (s.commitEngine e).Inv :=
  .foldl (.modEng (.resendCyclic h)) fun _ _ h1 => .commitEntry h1

theorem State.Inv.joinStaged {p : Nat} (h : s.Inv) : (s.joinStaged p).Inv :=
  .foldl (.modPort h) fun _ _ h1 => (by split; exacts [.ite (.endTx h1) (.join h1), .join h1])

theorem State.Inv.joinCan {c : Nat} (h : s.Inv) : (s.joinCan c).Inv :=
  .modCan h

theorem State.Inv.selectAll (h : s.Inv) : s.selectAll.Inv :=
  .each (.each h (fun _ _ h1 => .select h1)) (fun _ _ h1 => .canSelect h1)

theorem Answers.execEmitStart : Answers s (execEmitStart s) :=
  .ite .same (fun h => .registerAll (.selectAll (.commitLsw (.swgEmit (.each (.each (.safeFrames (.each (.each (.checkVoids (.modHearth
      (.set h))) (fun _ _ h1 => .stopPhase h1)) (fun _ _ h1 => .commitEngine h1))) (fun _ _ h1 => .joinStaged h1)) (fun _ _ h1 => .joinCan h1))))))

theorem State.Inv.applyPairs {f n : Nat} {b : List Byte} (h : s.Inv) : (s.applyPairs f b n).2.2.Inv := by
  induction f generalizing s b n with
  | zero => exact h
  | succ f ih =>
    unfold State.applyPairs
    extract_lets off seq t
    have ht : t.Inv := .ite (.accessWrite h) (.accessFault h)
    split
    · exact h
    split
    exacts [ht, ih ht]

theorem Answers.execRegWrite {n : Fin 64} : Answers s (execRegWrite n s) := by
  dsimp only [Machine.execRegWrite]
  split
  · exact .same
  · split
    · exact .same
    · exact .ite .same (fun h => .ite (.finish (.noteSeq (.modDesc (.applyPairs (.start h))))) (.finish (.modDesc (.applyPairs (.start h)))))

end

/-! ## Links to the host -/

section

variable {s : State}

theorem State.Inv.modFn {pf1 : Bool} {f : PciFn → PciFn} (h : s.Inv) : (s.modFn pf1 f).Inv :=
  .frame h rfl rfl rfl

theorem State.Inv.aer {pf1 : Bool} {n : Nat} (h : s.Inv) : (s.aer pf1 n).Inv :=
  .modFn (.ite (.modFn (.free (.free h))) h)

theorem State.Inv.bar2Serve {off : Nat} {write : Bool} {n : Nat} {bs : List Byte} (h : s.Inv) : (s.bar2Serve off write n bs).Inv := by
  dsimp only [State.bar2Serve]
  split
  · exact .hoardWrite h
  · split <;> exact .send (.ofEq (.hoardRead h) ‹_›)

theorem State.Inv.bar2Now {off : Nat} {write : Bool} {n : Nat} {bs : List Byte} (h : s.Inv) : (s.bar2Now off write n bs).Inv :=
  .ite (.ite (.aer h) (.send (.aer h))) (.ite (.ite h (.send h)) (.bar2Serve h))

theorem State.Inv.bar4Now {pf1 : Bool} {off : Nat} {write : Bool} {n : Nat} {v : BitVec 64} (h : s.Inv) : (s.bar4Now pf1 off write n v).Inv :=
  .ite (.ite (.modFn h) (.send h)) (.ite (.ite (.modFn h) (.send h)) (.ite h (.send h)))

theorem State.Inv.flrOf {pf1 : Bool} (h : s.Inv) : (s.flrOf pf1).Inv := by
  cases pf1
  · exact Answers.execFlrPf0 h
  · exact Answers.execFlrPf1 h

theorem State.Inv.cfgWrite {pf1 : Bool} {dw : Nat} {v : W32} (h : s.Inv) : (s.cfgWrite pf1 dw v).Inv := by
  dsimp only [State.cfgWrite]
  split
  · exact .drainWait (.modFn h)
  · exact .modFn h
  · exact .ite (.modFn h) h
  · exact .ite (.modFn h) h
  · exact .modFn h
  · exact .ite (.setD3 h) (.ite (.setD3 h) h)
  · exact .modFn h
  · exact .ite (.flrOf (.modFn h)) (.modFn h)
  · exact .modFn h
  · exact .ite (.modFn h) h
  · exact .modFn h
  · exact .modFn h
  · exact .modFn h
  · exact .modFn h
  · exact .modFn h
  · exact h

theorem Answers.execConfigurationRequest {pf1 write : Bool} {dw : BitVec 10} {v : BitVec 32}
    : Answers s (execConfigurationRequest pf1 write dw v s) :=
  fun h => (by
        split
        · exact .send h
        · split
          · exact .send (.cfgWrite h)
          · split
            exacts [.send h, .send (.free h)])

theorem State.Inv.perform {a : HeldAccess} (h : s.Inv) : (s.perform a).Inv := by
  dsimp only [State.perform]
  split
  exacts [.send (.setupRead h), .setupWrite h, .bar2Now h, .bar4Now h]

end

/-! ## Loads and stores of an engine -/

section

variable {s : State}

theorem State.Inv.busAt {e code a : Nat} {write : Bool} (h : s.Inv) : (s.busAt e code a write).2.Inv :=
  .recordAccess h

theorem State.Inv.engLoad {e a n : Nat} (h : s.Inv) : (s.engLoad e a n).2.Inv := by
  dsimp only [State.engLoad]
  split
  exacts [.count (.foldl h fun _ _ h1 => .engCorr h1), .foldl h fun _ _ h1 => .engCorr h1]

theorem State.Inv.engStore {e a : Nat} {b : List Byte} (h : s.Inv) : (s.engStore e a b).2.Inv := by
  dsimp only [State.engStore]
  split
  · exact .wr (.frame h rfl rfl rfl)
  · split
    exacts [.count h, .wr (.foldl h fun _ _ h1 => .engCorr h1)]

theorem State.Inv.cachedLoad {e : Nat} {op : MemOp} {o n : Nat} (h : s.Inv) : (s.cachedLoad e op o n).2.Inv := by
  dsimp only [State.cachedLoad]
  split
  · exact .busAt h
  · split
    · split
      exacts [.hoardRead h, h]
    · split
      · split
        · exact h
        · split
          exacts [.hoardRead (.modHoard h), .modHoard h]
      · exact .modHoard h

theorem State.Inv.cachedStore {e : Nat} {op : MemOp} {o : Nat} {b : List Byte} (h : s.Inv) : (s.cachedStore e op o b).2.Inv := by
  dsimp only [State.cachedStore]
  split
  · exact .busAt h
  · split
    · split
      exacts [.hoardWrite h, h]
    · split
      · split
        · exact h
        · split
          exacts [.hoardWrite (.modHoard h), .modHoard h]
      · split
        · exact .modHoard h
        · split
          exacts [.hoardWrite h, h]

theorem State.Inv.bitStore {e o : Nat} {clear : Bool} {b : List Byte} (h : s.Inv) : (s.bitStore e o clear b).2.Inv := by
  dsimp only [State.bitStore]
  split
  exacts [.hoardCheck (.recallAll h), .wr (.hoardCheck (.recallAll h))]

theorem State.Inv.aliasOps {e a n : Nat} {write : Bool} {f : State → Nat → Nat → MemRes × State} (h : s.Inv) (hf : ∀ (t : State) (a0 a1 : Nat),
    t.Inv → (f t a0 a1).2.Inv) : (s.aliasOps e a n write f).2.Inv := by
  dsimp only [State.aliasOps]
  split
  exacts [.busAt h, .foldlOn Prod.snd h fun _ _ h1 => (by split; exacts [.busAt h1, hf _ _ _ h1])]

theorem State.Inv.remoteAt {e : Nat} {op : MemOp} {a n : Nat} {w : Option (List Byte)} (h : s.Inv) : (s.remoteAt e op a n w).2.Inv := by
  dsimp only [State.remoteAt]
  split
  · exact .busAt h
  · split
    · exact .remoteAccess h
    · split
      · exact .count h
      · split
        exacts [h, .sendEtT (.modChain h)]

theorem State.Inv.loadAt {e : Nat} {op : MemOp} {a n : Nat} (h : s.Inv) : (s.loadAt e op a n).2.Inv := by
  have hhost : ∀ (t : State) (p : Nat × Nat), t.Inv → (match s.xlat p.1 false with
      | .inr c => (t.busAt e c p.1 false).2
      | .inl x => if s.hostReachable then t.issue (.hostRead (.xlat (Fin.ofNat 16 e)) (BitVec.ofNat 64 x) p.2 (s.strikeRun e)) else t).Inv := by
    intro t p ht
    split
    exacts [.busAt ht, .ite (.issue ht) ht]
  unfold State.loadAt
  refine .ite2 (.engLoad h) (.ite2 (.cachedLoad h) (.ite2 (.aliasOps h fun _ _ _ ht => .readOp ht) (.ite2 h (.ite2 ?_ (.ite2 ?_ ?_)))))
  · exact .ite2 (.ingServed (.ingRead h)) (.ingAsk h)
  · cases s.tileHas e a n with
    | none => exact .busAt h
    | some b =>
      cases b with
      | false => exact .free h
      | true => exact h
  · exact .ite2 h (.ite2 (.remoteAt h) (.ite2 (.foldl h hhost) (.busAt h)))

theorem State.Inv.storeAt {e : Nat} {op : MemOp} {a : Nat} {b : List Byte} (h : s.Inv) : (s.storeAt e op a b).2.Inv := by
  dsimp only [State.storeAt]
  split
  · exact h
  · split
    · exact .engStore h
    · split
      · exact .cachedStore h
      · split
        · exact .aliasOps h (fun _ _ _ h1 => (by split; exacts [.writeOp h1, .bitStore h1]))
        · split
          · exact .wr h
          · split
            · split
              exacts [.wr h, h, .busAt h]
            · split
              · exact h
              · split
                · exact .remoteAt h
                · split
                  exacts [.foldl h fun _ _ h1 => (by split; exacts [.busAt h1, .ite (.issue h1) (.recordAccess h1)]), .busAt h]

theorem State.Inv.modMemRun {e : Nat} {pre : Bool} {f : Run → Run} (h : s.Inv) : (s.modMemRun e pre f).Inv :=
  .ite (.modEng h) (.modRun h)

theorem State.Inv.setMemCtx {e : Nat} {pre : Bool} {c : Ctx} (h : s.Inv) : (s.setMemCtx e pre c).Inv := by
  dsimp only [State.setMemCtx]
  split
  · exact .modEng h
  · split
    exacts [.modCtx h, h]

theorem State.Inv.memDone {e : Nat} {pre : Bool} {c : Ctx} (h : s.Inv) : (s.memDone e pre c).Inv :=
  .ite (.modMemRun (.setMemCtx h)) (.haltWaiting (.modMemRun (.setMemCtx h)))

theorem State.Inv.memTrap {e : Nat} {pre : Bool} {c : Ctx} {cause : Nat} (h : s.Inv) : (s.memTrap e pre c cause).Inv :=
  .ite (.modMemRun (.modMemRun (.setMemCtx h))) (.haltWaiting (.trap (.modMemRun (.setMemCtx h))))

theorem State.Inv.memStop {e : Nat} {pre : Bool} {op : MemOp} {r : MemRes} (h : s.Inv) : (s.memStop e pre op r).Inv := by
  dsimp only [State.memStop]
  split
  · exact .modMemRun h
  · split <;> exact .memTrap h
  · split <;> exact .memTrap h
  · exact h

theorem State.Inv.lutAdd {e : Nat} {pre : Bool} {k : Nat} {b : List Byte} (h : s.Inv) : (s.lutAdd e pre k b).Inv :=
  .modMemRun h

theorem State.Inv.lutGo {e : Nat} {pre : Bool} {op : MemOp} {n : Nat} (h : s.Inv) : (State.lutGo n s e pre op).Inv := by
  induction n generalizing s with
  | zero => exact h
  | succ n ih =>
    unfold State.lutGo
    split
    · dsimp only
      split
      · exact .memDone h
      · refine .ite (.ite (ih (.lutAdd (.accessFault h))) (.ite (.memStop (.recordAccess h)) (ih (.lutAdd (.setupRead h))))) ?_
        split
        exacts [ih (.lutAdd (.ofEq h.loadAt ‹_›)), .memStop (.ofEq h.loadAt ‹_›)]
    · exact h

theorem State.Inv.memGo {e : Nat} {pre : Bool} {op : MemOp} (h : s.Inv) : (s.memGo e pre op).Inv := by
  dsimp only [State.memGo]
  split
  · split
    exacts [.memDone (.ofEq (.loadAt h) ‹_›), .memStop (.ofEq (.loadAt h) ‹_›)]
  · split
    exacts [.memDone (.ofEq (.storeAt h) ‹_›), .memStop (.ofEq (.storeAt h) ‹_›)]
  · exact .ite (.modMemRun (.lutGo h)) (.lutGo h)

theorem State.Inv.memAnswer {e : Nat} {pre : Bool} {op : MemOp} {r : MemRes} (h : s.Inv) : (s.memAnswer e pre op r).Inv := by
  dsimp only [State.memAnswer]
  split
  · split
    · exact .memDone h
    · exact .memDone h
    · split
      exacts [h, .ite (.lutAdd h) (.lutGo (.lutAdd h))]
  · exact .memStop h

end

/-! ## GRG instructions that use memory -/

section

variable {s : State}

theorem State.Inv.setupLoad {e : Fin 16} {op : MemOp} {key : Nat} {word : Bool} {fin : List Byte → State → State} (h : s.Inv) (hfin : ∀ (a0
    : List Byte) (t : State), t.Inv → (fin a0 t).Inv) : (s.setupLoad e op key word fin).Inv :=
  .ite (.accessFault (hfin _ _ h)) (.ite (.memStop (.recordAccess h)) (.setupRead (hfin _ _ h)))

theorem Effect.Keeps.iLd {e d : Fin 16} {a : Fin 8} {sz : Fin 4} {pm sx : Bool} {disp : BitVec 15} : Effect.Keeps (iLd e d a sz pm sx disp) :=
  ⟨fun h => .ite (.trap h) (.ite (.trap h) (.ite (.setupLoad h (fun _ _ h1 => .memDone h1)) (.memGo h)))⟩

theorem State.Inv.setupStore {e : Fin 16} {op : MemOp} {key : Nat} {word : Bool} {v : W32} {fin : State → State} (h : s.Inv) (hfin : ∀ (t
    : State), t.Inv → (fin t).Inv) : (s.setupStore e op key word v fin).Inv :=
  .ite (.accessFault (hfin _ h)) (.ite (.memStop (.recordAccess h)) (.setupWrite (hfin _ h)))

theorem Effect.Keeps.iSt {e d : Fin 16} {a : Fin 8} {sz : Fin 4} {pm : Bool} {disp : BitVec 15} : Effect.Keeps (iSt e d a sz pm disp) :=
  ⟨fun h => .ite (.trap h) (.ite (.trap h) (.ite (.setupStore h (fun _ h1 => .memDone h1)) (.memGo h)))⟩

theorem Effect.Keeps.iLuti {e d : Fin 16} {a : Fin 8} {rs l : Fin 16} {f : BitVec 5} {half : Bool} : Effect.Keeps (iLuti e d a rs l f half) :=
  ⟨fun h => .ite (.trap h) (.memGo h)⟩

theorem Effect.Keeps.iSevr {e : Fin 16} {line : Fin 4} {rs : Fin 16} : Effect.Keeps (iSevr e line rs) :=
  ⟨fun h => .ite (.trap h) (.ite (.sevMask (.done h)) (.ite (.trap h) (.ite h (.sendSev (.done h)))))⟩

theorem State.Inv.post {e : Nat} {r : Run} {c : Ctx} {tx : Bool} {a v : W32} (h : s.Inv) : (s.post e r c tx a v).Inv :=
  .ite (.overrun h) (.done (.modEng h))

theorem Effect.Keeps.iEmw {e rs t : Fin 16} : Effect.Keeps (iEmw e rs t) :=
  ⟨fun h => .ite (.trap h) (.ite (.trap h) (.post h))⟩

theorem Effect.Keeps.iEmt {e rs t : Fin 16} : Effect.Keeps (iEmt e rs t) :=
  ⟨fun h => .ite (.post h) (.trap h)⟩

theorem State.Inv.endRemote {tag : Nat} {r : MemRes} (h : s.Inv) : (s.endRemote tag r).Inv := by
  dsimp only [State.endRemote]
  split
  · exact h
  · split
    · exact .dropTag h
    · split
      exacts [.memAnswer (.dropTag h), .dropTag h]

theorem Answers.execRdr {tag : BitVec 8} {b : List Byte} (hwf : Instr.wf (.rdr tag b) = true) : Answers s (execRdr tag b s) :=
  .checked (by simpa [Instr.wf] using hwf) (fun h => .endRemote h)

theorem Answers.execWra {tag : BitVec 8} {b : List Byte} (hwf : Instr.wf (.wra tag b) = true) : Answers s (execWra tag b s) :=
  .checked (by simpa [Instr.wf] using hwf) (fun h => .endRemote h)

theorem Answers.execChainTimeout {tag : BitVec 8} : Answers s (execChainTimeout tag s) := by
  dsimp only [Machine.execChainTimeout]
  split
  exacts [.same, fun h => .endRemote (.record (.count ((by split; exacts [h, .free h]))))]

theorem Answers.execTranslatedReadComplete {e : Fin 16} {pre ok : Bool} {b : List Byte} : Answers s (execTranslatedReadComplete e pre ok b s) := by
  dsimp only [Machine.execTranslatedReadComplete]
  split
  · exact .same
  · split
    exacts [.ite (fun h => .ite (.landed h) (.memAnswer (.landed h))) (fun h => .memAnswer (.recordAccess (.landed h))), .same]

end

/-! ## The directory's lines -/

section

variable {s : State}

theorem State.Inv.fillLine {core line : Nat} {own : Bool} {data : List Byte} (h : s.Inv) : (s.fillLine core line own data).Inv :=
  .ite (.raiseEcc (.modHoard h)) (.modHoard h)

theorem State.Inv.missGo {e : Nat} {pre : Bool} {op : MemOp} {got : Option (List Byte)} (h : s.Inv) : (s.missGo e pre op got).Inv := by
  dsimp only [State.missGo]
  split
  exacts [.memAnswer h, .memGo h]

theorem State.Inv.onMiss {e line : Nat} {f : Bool → MemOp → Option (List Byte) → State → State} (h : s.Inv) (hf : ∀ (a0 : Bool) (a1
    : MemOp) (a2 : Option (List Byte)) (t : State), t.Inv → (f a0 a1 a2 t).Inv) : (s.onMiss e line f).Inv := by
  dsimp only [State.onMiss]
  split
  · exact h
  · split
    exacts [hf _ _ _ _ h, h]

theorem State.Inv.grant {e line : Nat} {own hv : Bool} {holders : List Nat} (h : s.Inv) : (s.grant e line own hv holders).Inv :=
  .ite (.onMiss (.modHoard h) (fun _ _ _ _ h1 => .missGo h1)) (.ite (.onMiss (.modHoard (.hoardCheck h)) (fun _ _ _ _ h1 => .memAnswer h1)) (.ite
      (.hoardCheck h) (.onMiss (.modHoard (.fillLine (.hoardCheck h))) (fun _ _ _ _ h1 => .missGo h1))))

theorem State.Inv.serveDirect {e line : Nat} (h : s.Inv) : (s.serveDirect e line).Inv :=
  .onMiss h (fun _ _ _ _ h1 => .missGo h1)

theorem State.Inv.serve {e line : Nat} {rdx hv : Bool} (h : s.Inv) : (s.serve e line rdx hv).Inv := by
  dsimp only [State.serve]
  split
  · exact .serveDirect h
  · split
    exacts [.grant h, .ite (.modHoard h) (.grant h), .modHoard h]

theorem State.Inv.request {e : Nat} {rdx : Bool} (h : s.Inv) : (s.request e rdx).Inv := by
  dsimp only [State.request]
  split
  exacts [h, .ite (.modHoard h) (.serve h)]

theorem Answers.execSnoop {core : Fin 18} {line : Fin 262144} : Answers s (execSnoop core line s) := by
  dsimp only [Machine.execSnoop]
  split
  · exact .same
  · split
    · exact .same
    · split
      · exact fun h => .modHoard (.modHoard h)
      · exact .ite (fun h => (by
        split
        · exact .trap (.modHoard (.modHoard (.markLine (.wr (.modHoard h)))))
        · exact .modHoard (.modHoard (.markLine (.wr (.modHoard h)))))) (fun h => .modHoard (.modHoard (.modHoard h)))

theorem State.Inv.serveWaiting {line n : Nat} (h : s.Inv) : (s.serveWaiting line n).Inv := by
  induction n generalizing s with
  | zero => exact h
  | succ n ih =>
    unfold State.serveWaiting
    refine .ite h ?_
    split
    · exact h
    · refine ih ?_
      split
      · split
        exacts [.serve (.modHoard h), .modHoard h]
      · exact .modHoard h

theorem State.Inv.closeTxn {t : LineTxn} (h : s.Inv) : (s.closeTxn t).Inv :=
  .serveWaiting (.ite (.serveDirect (.modHoard ((by split; exacts [.cleanEcc (.wr (.modHoard h)), .modHoard h]))))
      (.grant ((by split; exacts [.cleanEcc (.wr (.modHoard h)), .modHoard h]))))

theorem Answers.execSnoopAnswer {core : Fin 18} : Answers s (execSnoopAnswer core s) := by
  dsimp only [Machine.execSnoopAnswer]
  split
  · split
    exacts [fun h => .modHoard h, .ite (fun h => .closeTxn (.modHoard h)) (fun h => .modHoard (.modHoard h))]
  · exact .same

theorem Answers.execWb {core : Fin 18} : Answers s (execWb core s) := by
  dsimp only [Machine.execWb]
  split
  · split
    · exact .ite (fun h => .putLine (.modHoard h)) (fun h => .modHoard (.modHoard h))
    · exact .ite (fun h => .modHoard (.putLine (.modHoard h))) (fun h => .recordAccess (.modHoard h))
  · exact .same

end

/-! ## What a GRG word decodes to -/

section

variable {s : State}

theorem Effect.KeepsOpt.decodeData {e : Fin 16} {w : W32} : Effect.KeepsOpt (decodeData e w) := by
  unfold Machine.decodeData
  refine .ite .none ?_
  split
  exacts [.some .iAdd, .some .iAddc, .some .iSub, .some .iSubc, .some .iAndD, .some .iOrD, .some .iXor, .some .iAndn, .some .iShl, .some .iShr,
      .some .iSar, .some .iRor, .zeros .iCmp, .zeros .iTst, .zeros .iMov, .some .iMinS, .some .iMaxS, .some .iMinu, .some .iMaxu, .zeros .iClz,
      .some .iMull, .some .iDivu, .some .iDivs, .zeros .iAbs, .zeros .iNeg, .none]

theorem Effect.KeepsOpt.decodeSystem {e : Fin 16} {w : W32} : Effect.KeepsOpt (decodeSystem e w) := by
  unfold Machine.decodeSystem
  refine .ite .none ?_
  split
  exacts [.some .iNop, .some .iEndTask, .some .iRet, .some .iRett, .some .iLbrk, .none]

theorem Effect.KeepsOpt.decodeImm {e : Fin 16} {w : W32} : Effect.KeepsOpt (decodeImm e w) := by
  unfold Machine.decodeImm
  split
  case h_6 =>
    refine .ite .none ?_
    split
    exacts [.some .iShli, .some .iShri, .some .iSari, .some .iRori]
  exacts [.some .iAddi, .some .iAndi, .some .iOri, .some .iXori, .zeros .iCmpi, .zeros .iExt, .zeros .iIns, .none]

theorem Effect.KeepsOpt.decodeAddr {e : Fin 16} {w : W32} : Effect.KeepsOpt (decodeAddr e w) := by
  unfold Machine.decodeAddr
  split
  exacts [.zeros .iMova, .zeros .iAdda, .zeros .iAddar, .zeros .iCmpa, .zeros .iCmpar, .none]

theorem Effect.KeepsOpt.decodeAcc {e : Fin 16} {w : W32} : Effect.KeepsOpt (decodeAcc e w) := by
  unfold Machine.decodeAcc
  refine .ite .none ?_
  split
  exacts [.zeros .iMul, .zeros .iMulu, .zeros .iMac, .zeros .iMacu, .zeros .iMsu, .zeros .iMsuu, .zeros .iMld, .zeros .iMclr, .zeros .iMshl,
      .zeros .iMshr, .zeros .iRnd, .none]

theorem Effect.KeepsOpt.decodeEvent {e : Fin 16} {w : W32} : Effect.KeepsOpt (decodeEvent e w) := by
  unfold Machine.decodeEvent
  refine .ite .none (.ite ?_ ?_)
  · split
    exacts [.zeros .iWfe, .zeros .iSev, .zeros .iSevr, .zeros .iWaitt, .zeros .iGett, .zeros .iGettk, .none]
  · split
    exacts [.zeros .iEmw, .zeros .iEmt, .none]

theorem Effect.KeepsOpt.decodeGrg {e : Fin 16} {w : W32} : Effect.KeepsOpt (decodeGrg e w) := by
  unfold Machine.decodeGrg
  split
  exacts [.decodeData, .decodeSystem, .zeros .iMovi, .some .iLd, .zeros .iSt, .decodeAddr, .some .iB, .zeros .iBa, .some .iCall, .zeros .iCallr,
      .zeros .iJr, .some .iLoopi, .zeros .iLoop, .zeros .iMovx, .decodeAcc, .zeros .iLuti, .decodeEvent, .decodeEvent, .decodeImm]

theorem State.Inv.debugStep {e : Fin 16} (h : s.Inv) : (s.debugStep e).Inv := by
  unfold State.debugStep
  refine .ite h ?_
  extract_lets s1
  have h1 : s1.Inv := .modRun h
  split
  · exact h1
  refine .ite h1 (.issueForced h1 ?_)
  cases hd : decodeGrg e (s1.fetched e) with
  | none => exact .iIllegalInstruction (_w := 0)
  | some f => exact Effect.KeepsOpt.decodeGrg f hd

theorem State.Inv.writeStep {w : Who} {n : Fin 16} {v : W32} (h : s.Inv) : (s.writeStep w n v).Inv :=
  .ite (.debugStep (.writeEngDbg h)) (.writeEngDbg h)

end

/-! ## The TAP -/

section

variable {s : State}

theorem State.Inv.modTap {f : Tap → Tap} (h : s.Inv) : (s.modTap f).Inv :=
  .frame h rfl rfl rfl

theorem State.Inv.tapHold {op : Byte} (h : s.Inv) : (s.tapHold op).Inv :=
  .each (.refreshLsw (.modTap h)) (fun _ _ h1 => .linkFalls h1)

theorem State.Inv.scan {cells : List Bool} (h : s.Inv) : (s.scan cells).Inv :=
  .modTap (.send (.free h))

theorem State.Inv.debugUpdate {u : BitVec 64} (h : s.Inv) : (s.debugUpdate u).Inv := by
  dsimp only [State.debugUpdate]
  split
  · exact h
  · split
    · exact .ite (.modTap (.setupRead (.modTap h))) (.modTap h)
    · exact .ite (.writeStep (.modTap h)) (.ite (.setupWrite (.modTap h)) (.modTap h))
    · exact .modTap h

end

/-! ## A passing TIME edge -/

section

variable {s : State}

theorem State.Inv.clockEdge {e : Nat} (h : s.Inv) : (s.clockEdge e).Inv :=
  .modEng h

theorem State.Inv.after {f : State → Host.Outcome State Fault Refusal} (h : s.Inv) (hf : Answers s (f s)) : (s.after f).Inv := by
  unfold State.after
  split
  · rename_i hnext
    rw [hnext] at hf
    exact hf h
  · exact h

theorem State.Inv.settleNow (h : s.Inv) : s.settleNow.Inv := .after (.free (.free (.free h))) .execSettleStart

theorem State.Inv.hearthDue (h : s.Inv) : State.InvOpt s.hearthDue := by
  have hafter : ∀ {f}, Answers s (f s) → State.InvOpt (some (s.after f)) := fun hf => .some (.after h hf)
  unfold State.hearthDue
  refine .ite (.ite (hafter .execFirstTickStart) (.ite (hafter .execFirstEdgeTimeout) .none)) (.ite .none (.ite (hafter .execSyncOutEnd)
    (.ite (hafter .execSyncWindowEnd) (.ite (hafter .execSourceLoss) (.ite (.ite (hafter .execTickStart) .none) (.ite .none ?_))))))
  split
  exacts [hafter .execComputeStart, hafter .execEmitStart, .some (.settleNow h)]

theorem State.Inv.portDue {p : Nat} (h : s.Inv) : State.InvOpt (s.portDue p) :=
  .ite (.some (.endPause h)) (.ite (.some (.after h .execGateEntryStart)) (.ite (.some (.after h .execPauseRefresh))
    (.ite .none (.ite .none (.some (.select h))))))

theorem State.Inv.swageDue (h : s.Inv) : State.InvOpt s.swageDue := by
  unfold State.swageDue
  split
  exacts [.some (.after h .execSwageOutputApply), .map fun _ => .after h .execSwageSample]

theorem State.Inv.lswDue (h : s.Inv) : State.InvOpt s.lswDue := by
  unfold State.lswDue
  split
  · exact .some (.after h .execPwmPeriod)
  · split
    exacts [.some (.after h .execPwmOnPhaseEnd), .map fun _ => .after h .execDeadTimeEnd]

theorem State.Inv.due (h : s.Inv) : State.InvOpt s.due := by
  unfold State.due
  split
  · exact .some (.after h .execTaskBudgetExpiry)
  split
  · exact .some (.trap h)
  split
  · exact .some (.after h .execAlignedEntry)
  split
  · rename_i hport
    obtain ⟨p, -, hp⟩ := List.exists_of_findSome?_eq_some hport
    exact .some (h.portDue _ hp)
  split
  · exact .some (.flow h)
  split
  · exact .some (h.swageDue _ ‹_›)
  split
  · exact .some (h.lswDue _ ‹_›)
  split
  · exact .some (.tngStep h)
  split
  · exact .some (.after h .execMbxTimeout)
  exact .ite (.some (.releaseDue h)) (.ite (.some (.idleService h)) (.ite (.some (.planLast h))
    (.ite (.some (.after h .execArmedWake)) h.hearthDue)))

theorem State.Inv.timeEdge (h : s.Inv) : s.timeEdge.Inv := by
  unfold State.timeEdge
  split
  · exact .ite (.tbEdge h) h
  split
  · exact h.due _ ‹_›
  · exact .wdtEdge (.trainLinks (.busyEdge (.each (.onOneEdge (.each (.when (.pioEdge (.tbEdge h)) fun _ h1 => .applySteps h1)
      fun _ _ h1 => .clockEdge h1) fun _ h1 => .each h1 fun _ _ h2 => .tmrEdge h2) fun _ _ h1 => .waittRelease h1)))

end

/-! ## Every command -/

section

variable {s : State}

/-- A well-formed command answers a next state, which meets the invariant if this one does. -/
theorem exec_answers (i : Instr) (hwf : i.wf = true) : Answers s (exec i s) := by
  cases i with
  | registerWrite => exact fun h => (by split; exacts [.regWrite h, h])
  | tickRunStart => exact fun h => .writeHrtCtrl h
  | tickRunStop => exact fun h => .writeHrtCtrl h
  | firstTickStart => exact .execFirstTickStart
  | firstEdgeTimeout => exact .execFirstEdgeTimeout
  | tickStart => exact .execTickStart
  | computeStart => exact .execComputeStart
  | emitStart => exact .execEmitStart
  | settleStart => exact .execSettleStart
  | syncInEdge => exact .execSyncInEdge
  | syncWindowEnd => exact .execSyncWindowEnd
  | sourceLoss => exact .execSourceLoss
  | syncOutEnd => exact .execSyncOutEnd
  | taskBudgetExpiry => exact .execTaskBudgetExpiry
  | doorbellReadComplete => exact .execDoorbellReadComplete hwf
  | descriptorReadComplete => exact .execDescriptorReadComplete hwf
  | hostDataReadComplete => exact .execHostDataReadComplete
  | idleDoorbellPoll => exact .execIdleDoorbellPoll
  | devNudge => exact fun h => .regWrite h
  | ringEnable => exact fun h => .owned h (fun _ h1 => .enableRing h1)
  | ringDisable => exact fun h => .owned h (fun _ h1 => .disableRing h1)
  | ringFlush => exact fun h => .owned h (fun _ h1 => .flushCmd h1)
  | txFrame => exact .execTxFrame
  | rxBuf => exact .execRxBuf
  | cmdNop => exact .execCmdNop
  | regWrite => exact .execRegWrite
  | prsLoad => exact .execPrsLoad
  | prsUnload => exact .execPrsUnload
  | hoardWrite => exact .execHoardWrite
  | hoardRead => exact .execHoardRead
  | ingProgram => exact .execIngProgram
  | ingErase => exact .execIngErase
  | ingRead => exact .execIngRead
  | timeGrant => exact .execTimeGrant
  | chnMode => exact .execChnMode
  | quench => exact .execQuench
  | quenchClear => exact .execQuenchClear
  | fence => exact .execFence
  | vidBuf => exact .execVidBuf
  | poisonedWrite => exact fun h => .aer h
  | bar2Access => exact fun h => .ite (.ite h (.send h)) (.ite (.hostWake h) (.bar2Now h))
  | bar4Access => exact fun h => .ite (.ite h (.send h)) (.ite (.hostWake h) (.bar4Now h))
  | configurationRequest => exact .execConfigurationRequest
  | perstN => exact .ite (fun h => .setStraps (.setB (.hostReset h))) (fun h => .wholeReset h)
  | hotReset => exact fun h => .hostReset h
  | flrPf0 => exact .execFlrPf0
  | flrPf1 => exact .execFlrPf1
  | flrComplete => exact fun h => .drainWait (.frame h rfl rfl rfl)
  | d3hotEntry => exact fun h => .setD3 h
  | d3hotExit => exact fun h => .setD3 h
  | devLock => exact fun h => .regWrite h
  | devResdata => exact fun h => .regRead h
  | softReset => exact fun h => .owned h (fun _ h1 => .writeDevCtrl h1)
  | engineReset => exact fun h => .setupWrite h
  | engineResetDone => exact fun h => .ite (.modEng h) h
  | debugHalt => exact fun h => .writeEngDbg h
  | debugStep => exact fun h => .writeStep h
  | eventInput => exact fun h => .register h
  | alignedEntry => exact .execAlignedEntry
  | waittRelease => exact fun h => .waittRelease h
  | illegalInstruction => exact fun h => .issueG h .iIllegalInstruction
  | add => exact fun h => .issueG h .iAdd
  | addc => exact fun h => .issueG h .iAddc
  | sub => exact fun h => .issueG h .iSub
  | subc => exact fun h => .issueG h .iSubc
  | andD => exact fun h => .issueG h .iAndD
  | orD => exact fun h => .issueG h .iOrD
  | xor => exact fun h => .issueG h .iXor
  | andn => exact fun h => .issueG h .iAndn
  | shl => exact fun h => .issueG h .iShl
  | shr => exact fun h => .issueG h .iShr
  | sar => exact fun h => .issueG h .iSar
  | ror => exact fun h => .issueG h .iRor
  | cmp => exact fun h => .issueG h .iCmp
  | tst => exact fun h => .issueG h .iTst
  | mov => exact fun h => .issueG h .iMov
  | minS => exact fun h => .issueG h .iMinS
  | maxS => exact fun h => .issueG h .iMaxS
  | minu => exact fun h => .issueG h .iMinu
  | maxu => exact fun h => .issueG h .iMaxu
  | clz => exact fun h => .issueG h .iClz
  | mull => exact fun h => .issueG h .iMull
  | divu => exact fun h => .issueG h .iDivu
  | divs => exact fun h => .issueG h .iDivs
  | abs => exact fun h => .issueG h .iAbs
  | neg => exact fun h => .issueG h .iNeg
  | addi => exact fun h => .issueG h .iAddi
  | andi => exact fun h => .issueG h .iAndi
  | ori => exact fun h => .issueG h .iOri
  | xori => exact fun h => .issueG h .iXori
  | cmpi => exact fun h => .issueG h .iCmpi
  | shli => exact fun h => .issueG h .iShli
  | shri => exact fun h => .issueG h .iShri
  | sari => exact fun h => .issueG h .iSari
  | rori => exact fun h => .issueG h .iRori
  | movi => exact fun h => .issueG h .iMovi
  | ext => exact fun h => .issueG h .iExt
  | ins => exact fun h => .issueG h .iIns
  | movx => exact fun h => .issueG h .iMovx
  | ld => exact fun h => .issueG h .iLd
  | st => exact fun h => .issueG h .iSt
  | mova => exact fun h => .issueG h .iMova
  | adda => exact fun h => .issueG h .iAdda
  | addar => exact fun h => .issueG h .iAddar
  | cmpa => exact fun h => .issueG h .iCmpa
  | cmpar => exact fun h => .issueG h .iCmpar
  | b => exact fun h => .issueG h .iB
  | ba => exact fun h => .issueG h .iBa
  | call => exact fun h => .issueG h .iCall
  | callr => exact fun h => .issueG h .iCallr
  | jr => exact fun h => .issueG h .iJr
  | ret => exact fun h => .issueG h .iRet
  | loopi => exact fun h => .issueG h .iLoopi
  | loop => exact fun h => .issueG h .iLoop
  | lbrk => exact fun h => .issueG h .iLbrk
  | mul => exact fun h => .issueG h .iMul
  | mulu => exact fun h => .issueG h .iMulu
  | mac => exact fun h => .issueG h .iMac
  | macu => exact fun h => .issueG h .iMacu
  | msu => exact fun h => .issueG h .iMsu
  | msuu => exact fun h => .issueG h .iMsuu
  | mld => exact fun h => .issueG h .iMld
  | mclr => exact fun h => .issueG h .iMclr
  | mshl => exact fun h => .issueG h .iMshl
  | mshr => exact fun h => .issueG h .iMshr
  | rnd => exact fun h => .issueG h .iRnd
  | luti => exact fun h => .issueG h .iLuti
  | wfe => exact fun h => .issueG h .iWfe
  | sev => exact fun h => .issueG h .iSev
  | sevr => exact fun h => .issueG h .iSevr
  | waitt => exact fun h => .issueG h .iWaitt
  | gett => exact fun h => .issueG h .iGett
  | gettk => exact fun h => .issueG h .iGettk
  | emw => exact fun h => .issueG h .iEmw
  | emt => exact fun h => .issueG h .iEmt
  | nop => exact fun h => .issueG h .iNop
  | endTask => exact fun h => .issueG h .iEndTask
  | rett => exact fun h => .issueG h .iRett
  | rd => exact fun h => .request h
  | rdx => exact fun h => .request h
  | wb => exact .execWb
  | snoop => exact .execSnoop
  | snoopAnswer => exact .execSnoopAnswer
  | partitionApply => exact fun h => .owned h (fun _ h1 => .partApply h1)
  | bankTargetWrite => exact fun h => .owned h (fun _ h1 => .writeTgt h1)
  | bankTransitionDone => exact fun h => .ite (.endTrans h) h
  | fillDone => exact .ite .same (fun h => .bankOn (.zeroBank h))
  | migrationGo => exact fun h => .owned h (fun _ h1 => .writeMig h1)
  | migrationThreshold => exact .ite .same (.ite (fun h => .modHoard h) (fun h => .startMig h))
  | migrationCopyDone => exact fun h => .ite (.modHoard h) h
  | frameRecord => exact .execFrameRecord
  | tagCheckDone => exact .execTagCheckDone
  | sectionApplyDone => exact .ite (fun h => .set (.setSlotState h)) .same
  | startUpStep => exact .execStartUpStep
  | doneAccept => exact .ite .same (fun h => .each (.set (.frame h rfl rfl rfl)) (fun _ _ h1 => .ite (.passDone h1) h1))
  | doneTimeout => exact .ite (fun h => .loadFails h) .same
  | bootAutoload => exact .execBootAutoload
  | readbackFrame => exact .execReadbackFrame
  | linkUp => exact .ite .same (fun h => .select (.preUpdate (.set (.setB (.set (.set h))))))
  | linkDown => exact fun h => .linkFalls h
  | startOfFrame => exact .ite .same (fun h => .ite (.registerAll (.modPort h)) (.collide (.modPort (.registerAll (.modPort h)))))
  | rxFrame => exact .execRxFrame
  | pauseRefresh => exact .execPauseRefresh
  | pause => exact fun h => .takePause h
  | pauseExpiry => exact fun h => .ite (.endPause h) h
  | transmitDone => exact .execTransmitDone
  | preemptVerifyTimeout => exact .ite .same (fun h => .ite (.set (.modPort h)) (.send (.modPort h)))
  | gateEntryStart => exact .execGateEntryStart
  | gateListCommit => exact fun h => .owned h (fun _ h1 => .writeGctl h1)
  | cutThroughStart => exact .execCutThroughStart
  | cutThroughOverlength => exact .execCutThroughOverlength
  | videoPacket => exact .execVideoPacket
  | canFrameReceived => exact .execCanFrameReceived hwf
  | canBusoff => exact .ite .same (fun h => .foldl (.modCan (.record (.set (.set h)))) fun _ _ h1 => .endCan h1)
  | canBusoffRecovery => exact .ite .same (fun h => .canSelect (.modCan (.set (.set (.set h)))))
  | canRecover => exact fun h => .owned h (fun _ h1 => .canRecover h1)
  | timeAddendWrite => exact fun h => .writeAddend h
  | timeSlewWrite => exact fun h => .writeSlew h
  | slewEnd => exact fun h => .ite (.beside (.addTb h)) h
  | stepRequest => exact fun h => .writeStepHi h
  | timeNowRead => exact fun h => .send (.readNow h)
  | chainLinkTrained => exact fun h => .ite (.pump (.sendHello (.setLink h))) h
  | chainTrainTimeout => exact fun h => .ite (.modLink (.setLink h)) h
  | chainTrainRetry => exact fun h => .ite (.setLink (.modLink h)) (.modLink h)
  | helloSend => exact fun h => .ite (.sendHello h) h
  | hello => exact .execHello hwf
  | helloTimeout => exact fun h => .ite (.linkLoss (.count h)) h
  | chainLinkDown => exact fun h => .ite (.linkLoss (.count h)) h
  | candidateSettled => exact .execCandidateSettled
  | topo => exact .execTopo
  | idAssignment => exact .execIdAssignment
  | route => exact .execRoute hwf
  | drainq => exact .ite .same (fun h => .drainAnswer (.modChain h))
  | drainqTimeout => exact fun h => .ite (.managerCommit h) h
  | commit => exact .ite .same (fun h => .toMgr ((by split; exacts [.switchRoutes h, .ite (.switchRoutes h) h])))
  | ack => exact .ite .same (.ite (fun h => .commitIfReady (.modChain h)) .same)
  | cellForward => exact .execCellForward
  | creditReturn => exact fun h => .flow (.modLink h)
  | etRd => exact .execEtRd hwf
  | etWr => exact .execEtWr hwf
  | rdr => exact .execRdr hwf
  | wra => exact .execWra hwf
  | chainTimeout => exact .execChainTimeout
  | sevCell => exact .ite (fun h => .count h) (fun h => .foldl h fun _ _ h1 => .register h1)
  | ttSlineRead => exact .execTtSlineRead
  | ttSlot => exact .execTtSlot
  | ttCell => exact .execTtCell hwf
  | syncSlot => exact .execSyncSlot
  | sync => exact .execSync hwf
  | delayMeasure => exact .ite .same (fun h => .enqueueQ h)
  | dlyreq => exact .ite .same (fun h => .enqueueQ h)
  | dlyrsp => exact .ite .same (fun h => .set (.modLink h))
  | propose => exact .ite .same (fun h => .sendMgmt (.modChain h))
  | vote => exact .execVote
  | mcommit => exact .ite .same (fun h => .holdCommit (.set h))
  | mabort => exact .ite .same (fun h => .modChain (.set h))
  | run => exact .execRun
  | chainStart => exact fun h => .owned h (fun _ h1 => .writeRunctl h1)
  | chainStop => exact fun h => .owned h (fun _ h1 => .writeRunctl h1)
  | modeGo => exact fun h => .owned h (fun _ h1 => .writeMctl h1)
  | swageSample => exact .execSwageSample
  | swageOutputApply => exact .execSwageOutputApply
  | swageEnable => exact fun h => .ite h (.swgEnable h)
  | swageAuto => exact fun h => .swgAuto h
  | swagePgo => exact fun h => .swgPgo h
  | swageBandWrite => exact fun h => .swgBand (.noteLoopWrite h)
  | lswOvercurrent => exact fun h => .ite (.trip h) h
  | lswOvertemp => exact fun h => .trip (.modChan h)
  | lswOpen => exact fun h => .ite (.record (.count (.set h))) h
  | lswSupply => exact .ite .same (fun h => .refreshLsw (.beside (.record (.ite (.set (.set h)) (.set (.set h))))))
  | supplyRecovery => exact fun h => .commitIdle (.set (.set h))
  | clearOcl => exact fun h => .clearLatch h
  | clearOtl => exact fun h => .clearOtl (.modChan h)
  | halfBridgePair => exact fun h => .writeHb h
  | deadTimeEnd => exact .execDeadTimeEnd
  | pwmPeriod => exact .execPwmPeriod
  | pwmOnPhaseEnd => exact .execPwmOnPhaseEnd
  | currentSenseUpdate => exact fun h => .each (.set h) (fun _ _ h1 => .set (.modChan h1))
  | adcConversionStart => exact fun h => (by split; exacts [.frame h rfl rfl rfl, h])
  | adcConversionDone => exact .execAdcConversionDone
  | ainOverload => exact fun h => .ite (.record (.set (.set h))) h
  | shuntClose => exact fun h => .set h
  | tongsRun => exact fun h => .owned h (fun _ h1 => .tngRun h1)
  | tongsRestart => exact fun h => .owned h (fun _ h1 => .tngRestart h1)
  | tongsJmp => exact fun h => .tngPins h
  | tongsWait => exact fun h => .tngPins h
  | tongsDrive => exact fun h => .tngRow h
  | tongsShin => exact fun h => .tngPins h
  | tongsShout => exact fun h => .tngRow h
  | tongsPull => exact fun h => .tngRow h
  | tongsPush => exact fun h => .tngRow h
  | tongsLdi => exact fun h => .tngRow h
  | tongsMov => exact fun h => .tngPins h
  | tongsAlu => exact fun h => .tngRow h
  | tongsCnt => exact fun h => .tngRow h
  | tongsEvt => exact fun h => .tngRow h
  | tongsDelay => exact fun h => .tngRow h
  | tongsIllegal => exact fun h => .ite (.tngStep h) h
  | tongsTxfWrite => exact fun h => .owned h (fun _ h1 => .txfWrite h1)
  | tongsRxfRead => exact fun h => .send (.rxfRead h)
  | pendEnable => exact fun h => .owned h (fun _ h1 => .writePend h1)
  | pendMark => exact fun h => .ite (.pendInterval h) h
  | pendCodeEnd => exact fun h => .ite (.pendEnd h) h
  | pendFlood => exact fun h => .ite (.beside (.record (.set (.set (.pendDrop h))))) h
  | pendThresholdResume => exact fun h => .ite h (.beside (.set h))
  | timerRun => exact fun h => .owned h (fun _ h1 => .tmrRun h1)
  | timerSwcap => exact fun h => .owned h (fun _ h1 => .tmrSwcap h1)
  | timerCapture => exact fun h => .ite (.tmrCapture (.bringPin h)) h
  | timerCompareMatch => exact fun h => .ite (.tmrTo (.modTimer h)) (.ite (.tmrCount h) h)
  | timerWrap => exact fun h => .ite (.tmrTo (.modTimer (.set h))) (.ite (.tmrCount h) h)
  | timerRunningRead => exact fun h => .send (.readCnt h)
  | captureRead => exact fun h => .send (.readCap h)
  | ingCmdProgram => exact fun h => .owned h (fun _ h1 => .writeIngCmd h1)
  | ingCmdErase => exact fun h => .owned h (fun _ h1 => .writeIngCmd h1)
  | pageProgramDone => exact .execPageProgramDone
  | sectorEraseDone => exact .execSectorEraseDone
  | eraseSuspend => exact fun h => .owned h (fun _ h1 => .writeSusp h1)
  | suspendComplete => exact .execSuspendComplete
  | eraseResume => exact fun h => .owned h (fun _ h1 => .writeResume h1)
  | bellowsIdleEvaluation => exact fun h => .ite h (.bellowsEval h)
  | bellowsEmerg => exact fun h => .enterEmergency h
  | thermalQuench => exact fun h => .ite (.set (.quench (.record h))) (.quench (.record h))
  | avsTransactionDone => exact .execAvsTransactionDone
  | avsSettled => exact .execAvsSettled
  | marginMeasure => exact fun h => .ite (.record (.set (.modTemper (.set (.set h))))) (.modTemper (.set (.set h)))
  | eqLoad => exact fun h => .owned h (fun _ h1 => .writeEqCfg h1)
  | substitutionGo => exact fun h => .owned h (fun _ h1 => .writeSubctl h1)
  | substitutionAutoTrigger => exact fun h => .ite (.startSub h) h
  | substitutionSwitch => exact fun h => .subSwitch h
  | substitutionFinalTimeout => exact fun h => .finalEnds h
  | oldCoreDrained => exact .execOldCoreDrained
  | wakeSource => exact .ite (fun h => .wake h) .same
  | armedWake => exact .execArmedWake
  | sleepEntryDone => exact .execSleepEntryDone
  | wakeComplete => exact .ite (fun h => .foldl (.modPower (.wakeUp h)) fun _ _ h1 => .perform h1) .same
  | por => exact fun h => .wholeReset h
  | bor => exact fun h => .set (.wholeReset h)
  | rstN => exact fun h => .wholeReset h
  | wdtKick => exact fun h => .owned h (fun _ h1 => .writeWdtkick h1)
  | wdtWarn => exact fun h => .ite (.wdtWarn h) h
  | wdt => exact fun h => .ite (.wholeReset h) h
  | chrstGo => exact fun h => .owned h (fun _ h1 => .writeChrst h1)
  | chainReset => exact fun h => .ite (.chainReset (.noteReset h)) h
  | resetRelease => exact .execResetRelease
  | quenchSet => exact fun h => .writeQctl h
  | quenchClearWrite => exact fun h => .writeQctl h
  | quenchPin => exact fun h => .ite (.quench (.bringPin h)) (.bringPin h)
  | mailboxCfgWrite => exact fun h => .writeMbxCfg h
  | mailboxDoorbell => exact fun h => .writeMbxCtl h
  | mailboxTake => exact fun h => .writeMbxCtl h
  | mailboxCancel => exact fun h => .writeMbxCtl h
  | mbxTimeout => exact .execMbxTimeout
  | msg => exact .execMsg hwf
  | taken => exact .execTaken hwf
  | cancel => exact .execCancel hwf
  | mbxa => exact .execMbxa
  | mbxRemoteTimeout => exact .execMbxRemoteTimeout
  | patchCheck => exact fun h => .pf1Only h (fun _ h1 => .writePatchLen h1)
  | patchCheckDone => exact .execPatchCheckDone
  | secureDescriptorWrite => exact fun h => .pf1Only h (fun _ h1 => .writeSecHi h1)
  | arbRead => exact fun h => .wardenCommand h (fun _ _ h1 => (by split <;> exact h1))
  | arbRaise => exact fun h => .wardenCommand h (fun _ _ h1 => (by split; exacts [h1, .raiseArb h1]))
  | uidRead => exact fun h => .wardenCommand h (fun _ _ h1 => h1)
  | burnRoot => exact fun h => .pf1Only h (fun _ h1 => .writeKeyCtl h1)
  | burnSeal => exact fun h => .pf1Only h (fun _ h1 => .writeKeyCtl h1)
  | raise => exact fun h => .pf1Only h (fun _ h1 => .writeKeyCtl h1)
  | keyBurn => exact .execKeyBurn
  | debugRequest => exact fun h => .pf1Only h (fun _ h1 => .writeDbguCtl h1)
  | debugResponseCheck => exact fun h => .pf1Only h (fun _ h1 => .writeRaddr h1)
  | dbgUnlock => exact .execDbgUnlock
  | debugLock => exact fun h => .pf1Only h (fun _ h1 => .writeDbguCtl h1)
  | extest => exact fun h => .scan (.tapHold h)
  | samplePreload => exact fun h => .scan (.modTap h)
  | idcode => exact fun h => .send (.modTap h)
  | clamp => exact fun h => .send (.tapHold h)
  | highz => exact fun h => .send (.tapHold h)
  | extestPulse => exact fun h => .scan (.tapHold h)
  | extestTrain => exact fun h => .scan (.tapHold h)
  | bypass => exact fun h => .ite h (.send (.modTap h))
  | debug => exact fun h => .send (.modTap h)
  | jtagDebugRead => exact fun h => .debugUpdate h
  | jtagDebugWrite => exact fun h => .debugUpdate h
  | tapReset => exact fun h => .modTap h
  | registerRead => exact fun h => (by split; exacts [.regRead h, .send h])
  | translatedReadComplete => exact .execTranslatedReadComplete
  | pcieLinkUp => exact fun h => .drainWait (.beside (.set (.set (.set h))))
  | shaperCreditZero => exact .ite (fun h => .select (.modPort (.credits h))) (fun h => .credits h)
  | canFrameTransmitted => exact .execCanFrameTransmitted
  | canBusError => exact fun h => .canRetry (.canErrs h)
  | canArbitrationLost => exact fun h => .canRetry h
  | timerCountEdge => exact fun h => .ite (.tmrCount (.bringPin h)) h
  | doneEdge => exact fun h => .ite (.frame h rfl rfl rfl) (.set (.frame h rfl rfl rfl))
  | preemptVerifyResponse => exact .ite (fun h => .select (.preUpdate (.set h))) (.ite (fun h => .send h) .same)
  | operatingConditionChange => exact fun h => .checkVoids (.modPower h)
  | frequencySwitchDone => exact .execFrequencySwitchDone

end

theorem exec_of_not_wf {i : Instr} (s : State) (hwf : i.wf = false) : exec i s = .fault .illFormed := by
  cases i
  case hello => exact if_pos (ne_of_beq_false hwf)
  case etRd => exact if_pos (ne_of_beq_false hwf)
  case etWr => exact if_pos (ne_of_beq_false hwf)
  case ttCell => exact if_pos (ne_of_beq_false hwf)
  case sync => exact if_pos (ne_of_beq_false hwf)
  case rdr => exact if_pos (ne_of_beq_false hwf)
  case wra => exact if_pos (ne_of_beq_false hwf)
  case msg => exact if_pos (ne_of_beq_false hwf)
  case taken => exact if_pos (ne_of_beq_false hwf)
  case cancel => exact if_pos (ne_of_beq_false hwf)
  case route => exact if_pos (by simpa [Instr.wf] using hwf)
  case doorbellReadComplete => exact if_pos (by simpa [Instr.wf] using hwf)
  case descriptorReadComplete => exact if_pos (by simpa [Instr.wf] using hwf)
  case canFrameReceived => exact if_pos (by simp only [Instr.wf, decide_eq_false_iff_not] at hwf; omega)
  all_goals exact nomatch hwf

end Sys2Proof.Machine

open Sys2Proof Sys2Proof.Machine

/-- Settles O4: every operation keeps the invariant, so every well-formed command does, and so does the edge that passes when none is queued.
An ill-formed command answers no next state. -/
theorem stepKeepsTheInvariant : Obligations.StepKeepsTheInvariant := by
  intro s t hs hstep
  cases hp : s.pending with
  | nil =>
    rw [emptyQueuePassesATimeEdge s hp] at hstep
    cases hstep
    exact hs.timeEdge
  | cons i r =>
    rw [stepRunsTheFrontCommand i r s hp] at hstep
    cases hwf : i.wf with
    | false =>
      rw [exec_of_not_wf _ hwf] at hstep
      exact nomatch hstep
    | true =>
      have hanswers := exec_answers (s := { s with pending := r }) i hwf
      rw [hstep] at hanswers
      exact hanswers hs

/-- Settles O5. -/
theorem everyWellFormedCommandAnswers : Obligations.EveryWellFormedCommandAnswers :=
  fun i s => ⟨fun hwf => (exec_answers i hwf).next, exec_of_not_wf s⟩

end

section
/-!
SUPPORT. IDs of the Chain (R399, R400): what assignIds keeps and what it adds.
-/

namespace Sys2Proof.Machine

theorem lowestFree_spec {used : List Nat} {i : Nat} (h : lowestFree used = some i) : i < 32 ∧ i ∉ used := by
  have hmem := List.mem_of_find?_eq_some h
  have hfree := List.find?_some h
  simp only [List.mem_map, List.mem_range] at hmem
  obtain ⟨j, hj, rfl⟩ := hmem
  exact ⟨by omega, by simpa using hfree⟩

/-- What the assigned IDs are: this device's own 0 first, every one below 32, no two alike, and the list `kept` among them. -/
def IdsOk (own : BitVec 64) (kept ids : List (BitVec 64 × Nat)) : Prop :=
  ids.head? = some (own, 0) ∧ (ids.map (fun x => x.2)).Nodup ∧ (∀ x ∈ ids, x.2 < 32) ∧ ∀ x ∈ kept, x ∈ ids

variable {own : BitVec 64} {kept ids new : List (BitVec 64 × Nat)}

/-- IDs below 32 that are new and differ from each other may be added behind. -/
theorem IdsOk.append (h : IdsOk own kept ids) (hnew : (new.map (fun x => x.2)).Nodup)
    (hfree : ∀ x ∈ new, x.2 < 32 ∧ x.2 ∉ ids.map (fun y => y.2)) : IdsOk own kept (ids ++ new) := by
  obtain ⟨hhead, hnodup, hlt, hkept⟩ := h
  refine ⟨by rw [List.head?_append, hhead]; rfl, ?_, ?_, fun x hx => List.mem_append_left _ (hkept x hx)⟩
  · rw [List.map_append, List.nodup_append']
    refine ⟨hnodup, hnew, fun a ha hb => ?_⟩
    obtain ⟨x, hx, rfl⟩ := List.mem_map.mp hb
    exact (hfree x hx).2 ha
  · intro x hx
    rcases List.mem_append.mp hx with hold | hadd
    exacts [hlt x hold, (hfree x hadd).1]

/-- The IDs that are held, with this device's own before them. -/
theorem IdsOk.held {held : List (BitVec 64 × Nat)} (hnodup : (held.map (fun x => x.2)).Nodup)
    (hlt : ∀ x ∈ held, x.1 ≠ own → 0 < x.2 ∧ x.2 < 32) :
    IdsOk own (held.filter (fun x => x.1 != own)) ((own, 0) :: held.filter (fun x => x.1 != own)) := by
  have hin : ∀ x ∈ held.filter (fun x => x.1 != own), 0 < x.2 ∧ x.2 < 32 := fun x hx =>
    hlt x (List.mem_of_mem_filter hx) (by simpa using (List.mem_filter.mp hx).2)
  refine ⟨rfl, List.nodup_cons.mpr ⟨fun h0 => ?_, hnodup.sublist (List.filter_sublist.map _)⟩, fun x hx => ?_,
    fun x hx => List.mem_cons_of_mem _ hx⟩
  · obtain ⟨x, hx, hzero⟩ := List.mem_map.mp h0
    exact absurd hzero (hin x hx).1.ne'
  · rcases List.mem_cons.mp hx with rfl | htail
    exacts [Nat.zero_lt_succ _, (hin x htail).2]

/-- The previous IDs that only one device asks for differ from each other. -/
theorem nodup_unique_prev (l m : List Topo) (hsub : m.Sublist l) (hone : ∀ t ∈ m, (l.filter (fun u => u.prev == t.prev)).length = 1) :
    (m.map (fun t => t.prev)).Nodup := by
  refine List.pairwise_map.mpr (List.pairwise_iff_forall_sublist.mpr fun {a b} hab heq => ?_)
  have hpair : [a, b].Sublist (l.filter (fun u => u.prev == a.prev)) := by
    have := (hab.trans hsub).filter (fun u => u.prev == a.prev)
    rwa [List.filter_eq_self.mpr (by simp [heq])] at this
  have hlen := hpair.length_le
  rw [hone a (hab.subset (by simp))] at hlen
  exact absurd hlen (by simp)

/-- The devices that have no ID yet receive the lowest free ones, as long as there are any. -/
theorem IdsOk.foldl_lowestFree (rest : List (BitVec 64)) (p : List (BitVec 64 × Nat) × List (BitVec 64)) (h : IdsOk own kept p.1) :
    IdsOk own kept (rest.foldl (fun p u => match lowestFree (p.1.map (fun x => x.2)) with
      | some i => (p.1 ++ [(u, i)], p.2)
      | none => (p.1, p.2 ++ [u])) p).1 := by
  induction rest generalizing p with
  | nil => exact h
  | cons u rest ih =>
    refine ih _ ?_
    dsimp only
    split
    · next i hi => exact h.append (by simp) (by simpa using lowestFree_spec hi)
    · exact h

theorem IdsOk.assignIds {held : List (BitVec 64 × Nat)} (near : List Topo) (far : List (BitVec 64))
    (hnodup : (held.map (fun x => x.2)).Nodup) (hlt : ∀ x ∈ held, x.1 ≠ own → 0 < x.2 ∧ x.2 < 32) :
    IdsOk own (held.filter (fun x => x.1 != own)) (assignIds own held near far).1 := by
  unfold Machine.assignIds
  extract_lets ids new prevOk ids' rest
  refine IdsOk.foldl_lowestFree _ _ (IdsOk.append (IdsOk.held hnodup hlt) ?_ fun x hx => ?_)
  · rw [List.map_map]
    refine nodup_unique_prev new _ List.filter_sublist fun t ht => ?_
    have hok := (List.mem_filter.mp ht).2
    simp only [prevOk, Bool.and_eq_true, beq_iff_eq] at hok
    exact hok.2
  · obtain ⟨t, ht, rfl⟩ := List.mem_map.mp hx
    have hok := (List.mem_filter.mp ht).2
    simp only [prevOk, Bool.and_eq_true, decide_eq_true_eq, Bool.not_eq_true', List.any_eq_false, beq_iff_eq] at hok
    refine ⟨hok.1.1, fun hin => ?_⟩
    obtain ⟨y, hy, heq⟩ := List.mem_map.mp hin
    exact hok.1.2 y hy heq

end Sys2Proof.Machine
end

section
/-!
SUPPORT. The Chain's links (R386, R387, R393): what training, HELLOs and losses do.
-/

namespace Sys2Proof.Machine

/-! ## Registers and parts behind the Chain's small operations -/

section

variable {s : State}

theorem State.Inv.get_set_self (h : s.Inv) (f : Fld) (v : Nat) (hf : f.ok = true) (hv : v < 2 ^ f.w) : (s.set f v).get f = v :=
  (s.get_set_self f v h.regsWf hf).trans (Nat.mod_eq_of_lt hv)

theorem State.Inv.get_set_of_apart (h : s.Inv) (f g : Fld) (v : Nat) (hf : f.ok = true) (hg : g.apart f = true) : (s.set f v).get g = s.get g :=
  s.get_set_of_apart f g v h.regsWf hf hg

theorem State.chain_setLink (l v : Nat) : (s.setLink l v).chain = s.chain := by
  unfold State.setLink
  split <;> rfl

theorem State.linkD_setLink (l v k : Nat) : (s.setLink l v).linkD k = s.linkD k := by rw [State.linkD, State.chain_setLink, State.linkD]

theorem State.get_setLink_of_ne (l v : Nat) (f : Fld) (hf : f.addr ≠ (Reg.CHN_L_STAT_STATE l).addr) : (s.setLink l v).get f = s.get f := by
  unfold State.setLink
  split
  · rfl
  · rw [State.get_set_of_ne _ (Reg.CHN_L_STAT_LCHG l) _ _ hf, State.get_set_of_ne _ _ _ _ hf]

theorem State.linkState_setLink (h : s.Inv) (l : Nat) {v : Nat} (hv : v < 4) : (s.setLink l v).linkState l = v := by
  unfold State.setLink
  split
  · assumption
  · exact ((h.set (f := Reg.CHN_L_STAT_STATE l)).get_set_of_apart (Reg.CHN_L_STAT_LCHG l) _ _ (by simp [Fld.ok, Reg.CHN_L_STAT_LCHG])
      (by simp [Fld.apart, Reg.CHN_L_STAT_LCHG, Reg.CHN_L_STAT_STATE])).trans
      (h.get_set_self _ _ (by simp [Fld.ok, Reg.CHN_L_STAT_STATE]) hv)

theorem State.get_lchg_setLink (h : s.Inv) (l : Nat) {v : Nat} (hne : s.linkState l ≠ v) : (s.setLink l v).get (Reg.CHN_L_STAT_LCHG l) = 1 := by
  unfold State.setLink
  rw [if_neg hne]
  exact (h.set (f := Reg.CHN_L_STAT_STATE l)).get_set_self _ _ (by simp [Fld.ok, Reg.CHN_L_STAT_LCHG]) (by simp [Reg.CHN_L_STAT_LCHG])

theorem State.linkD_modLink_self (l : Fin 4) (f : Link → Link) : (s.modLink l f).linkD l = f (s.linkD l) :=
  getD_set_self _ _ _ _ l.isLt

end

/-! ## Links (R386, R387, R393) -/

section

variable {s : State} {l : Fin 4}

/-- The link's training ends now: it trains, or it is to start at once. -/
def State.linkTrains (s : State) (l : Nat) : Prop := s.linkState l = 1 ∨ s.linkLeaves l = true

theorem State.linkLeaves_state {l : Nat} (h : s.linkLeaves l = true) : s.linkState l = 0 := by
  simp only [State.linkLeaves, Bool.and_eq_true, beq_iff_eq] at h
  exact h.1.1.1

theorem State.linkTrains.ne_hello {l : Nat} (h : s.linkTrains l) : s.linkState l ≠ 2 := by
  rcases h with h | h
  · omega
  · have := State.linkLeaves_state h
    omega

theorem exec_chainLinkTrained (h : s.linkTrains l) : exec (.chainLinkTrained l) s =
    .next (((s.setLink l 2).enqueueQ l (ownCell false none (cellOf 2 0 0 0 (s.setLink l 2).chnId 64 0
    (.bytes ((s.setLink l 2).helloBytes l))))).pump l) :=
  congrArg Host.Outcome.next (if_pos h)

theorem exec_chainTrainTimeout (h : s.linkTrains l) :
    exec (.chainTrainTimeout l) s = .next ((s.setLink l 0).modLink l (fun x => { x with retry := true })) :=
  congrArg Host.Outcome.next (if_pos h)

theorem exec_training_of_not (h : ¬ s.linkTrains l) : exec (.chainLinkTrained l) s = .next s ∧ exec (.chainTrainTimeout l) s = .next s :=
  ⟨congrArg Host.Outcome.next (if_neg h), congrArg Host.Outcome.next (if_neg h)⟩

theorem exec_chainTrainRetry (hinv : s.Inv) : ∃ t, exec (.chainTrainRetry l) s = .next t ∧ (t.linkD l).retry = false ∧
    (s.linkState l = 0 → s.on Reg.CHN_CFG_EN = true → s.on (Reg.CHN_L_CFG_EN l) = true → t.linkState l = 1) := by
  have hretry : ((s.modLink l (fun x => { x with retry := false })).linkD l).retry = false := by rw [State.linkD_modLink_self]
  refine ⟨_, rfl, ?_, fun hdown hen hlen => ?_⟩
  · split
    · rw [State.linkD_setLink]
      exact hretry
    · exact hretry
  · have hleaves : (s.modLink l (fun x => { x with retry := false })).linkLeaves l = true := by
      simp only [State.linkLeaves, Bool.and_eq_true, beq_iff_eq, Bool.not_eq_true']
      exact ⟨⟨⟨hdown, hen⟩, hlen⟩, hretry⟩
    rw [if_pos hleaves]
    exact State.linkState_setLink (hinv.modLink) l (by decide)

theorem exec_helloSend (h : s.linkState l = 3 ∨ s.linkState l = 2) : exec (.helloSend l) s = .next (s.sendHello l) :=
  congrArg Host.Outcome.next (if_pos h)

theorem exec_linkEnds (h : s.linkState l = 3) :
    exec (.helloTimeout l) s = .next ((s.count (Reg.CHN_L_ERR_LOCK l) 1).linkLoss l) ∧
    exec (.chainLinkDown l) s = .next ((s.count (Reg.CHN_L_ERR_LOCK l) 1).linkLoss l) :=
  ⟨congrArg Host.Outcome.next (if_pos h), congrArg Host.Outcome.next (if_pos h)⟩

theorem exec_of_not_up {tree : Bool} {topo : Topo} {uid : BitVec 64} {op : BitVec 4} (h : ¬ s.linkState l = 3) :
    exec (.helloTimeout l) s = .next s ∧ exec (.chainLinkDown l) s = .next s ∧ exec (.topo ⟨l, tree⟩ topo) s = .next s ∧
    exec (.commit l uid) s = .next s ∧ exec (.ack l op uid) s = .next s :=
  ⟨congrArg Host.Outcome.next (if_neg h), congrArg Host.Outcome.next (if_neg h), if_pos (.inl h), if_pos (.inl h), if_pos h⟩

variable {b : List Byte}

theorem exec_hello_other (hlen : b.length = 64) (hup : s.linkState l = 3) (huid : (s.linkD l).uid ≠ BitVec.ofNat 64 (leAt b 0 8)) :
    exec (.hello l b) s = .next (s.linkLoss l) :=
  (if_neg (not_not_intro hlen)).trans ((if_neg (fun h => h.1 hup)).trans (if_pos ⟨hup, huid⟩))

theorem exec_hello_elsewhere (hlen : b.length = 64) (h3 : s.linkState l ≠ 3) (h2 : s.linkState l ≠ 2) : exec (.hello l b) s = .next s :=
  (if_neg (not_not_intro hlen)).trans (if_pos ⟨h3, h2⟩)

/-- What a HELLO of a device with an ID leaves on its link before the candidate is formed anew. -/
def State.helloTaken (s : State) (l : Nat) (b : List Byte) : State :=
  ((((((s.setLink l 3).modLink l (fun x => { x with hello := b, uid := BitVec.ofNat 64 (leAt b 0 8) })).set (Reg.CHN_L_STAT_PEERV l) 1).set
    (Reg.CHN_L_STAT_PEERID l) (byteAt b 20)).set (Reg.CHN_L_STAT_PEERLINK l) (byteAt b 19)).set (Reg.CHN_L_PEERUID_UID l) (leAt b 0 4))

theorem exec_hello_first (hlen : b.length = 64) (h2 : s.linkState l = 2) (hid : byteAt b 20 < 32) : exec (.hello l b) s =
    .next (((if (s.helloTaken l b).chnState = 1 then (s.helloTaken l b).chnSet 2 else s.helloTaken l b).recand).topoChanged.flow l) := by
  have hne : byteAt b 20 ≠ 255 := by omega
  have h3 : ¬ s.linkState l = 3 := by omega
  show execHello l b s = _
  rw [execHello, if_neg (not_not_intro hlen), if_neg (fun h => h.2 h2), if_neg (fun h => h3 h.1)]
  simp only [if_neg hne]
  refine congrArg Host.Outcome.next (if_pos ?_)
  simpa [linkUp] using h3

end
end Sys2Proof.Machine
end

section
/-!
SUPPORT. What the first HELLO of a link leaves in its registers and its record.
-/

namespace Sys2Proof.Machine
section
variable {s : State} {l : Fin 4} {b : List Byte}

theorem leNat_lt (b : List Byte) : leNat b < 256 ^ b.length := by
  induction b with
  | nil => exact Nat.one_pos
  | cons x r ih =>
    have := x.isLt
    rw [leNat, List.length_cons, Nat.pow_succ]
    omega

theorem leAt_lt (b : List Byte) (a n : Nat) : leAt b a n < 256 ^ n :=
  (leNat_lt _).trans_le (Nat.pow_le_pow_right (by decide) (by simp))

@[simp] theorem State.get_modLink (k : Nat) (f : Link → Link) (g : Fld) : (s.modLink k f).get g = s.get g := rfl

@[simp] theorem State.regsWf_modLink (k : Nat) (f : Link → Link) : (s.modLink k f).regsWf = s.regsWf := rfl

@[simp] theorem State.regsWf_setLink (k v : Nat) (h : s.regsWf = true) : (s.setLink k v).regsWf = true := by
  unfold State.setLink
  split
  · exact h
  · simp [h]

/-- What the registers of its link hold, and what its record, behind a first HELLO. -/
theorem State.helloTaken_facts (h : s.Inv) (hid : byteAt b 20 < 32) : let u := s.helloTaken l b
    u.linkState l = 3 ∧ (u.linkD l).uid = BitVec.ofNat 64 (leAt b 0 8) ∧ (u.linkD l).hello = b ∧ u.get (Reg.CHN_L_STAT_PEERV l) = 1 ∧
    u.get (Reg.CHN_L_STAT_PEERID l) = byteAt b 20 ∧ u.get (Reg.CHN_L_PEERUID_UID l) = leAt b 0 4 := by
  have hw := h.regsWf
  have huid : leAt b 0 4 < 2 ^ 32 := leAt_lt b 0 4
  have hup := State.linkState_setLink h l (v := 3) (by decide)
  have hlink : (s.helloTaken l b).linkD l = { (s.setLink l 3).linkD l with hello := b, uid := BitVec.ofNat 64 (leAt b 0 8) } :=
    getD_set_self _ _ _ _ l.isLt
  refine ⟨?_, by rw [hlink], by rw [hlink], ?_, ?_, ?_⟩ <;>
  grind [State.helloTaken, State.linkState, State.get_set_self, State.get_set_of_apart, State.regsWf_set, State.regsWf_setLink,
      State.regsWf_modLink, State.get_modLink, Fld.ok, Fld.apart, Reg.CHN_L_STAT_STATE, Reg.CHN_L_STAT_PEERV, Reg.CHN_L_STAT_PEERID,
      Reg.CHN_L_STAT_PEERLINK, Reg.CHN_L_PEERUID_UID]
end
end Sys2Proof.Machine
end

section
/-!
SUPPORT. The settled candidate: this device manages, or tells the manager its TOPO (R396, R398, R401).
-/

namespace Sys2Proof.Machine

/-! ## The settled candidate (R396, R398, R401) -/

section

variable {s : State}

@[simp] theorem State.get_modChain (f : Chain → Chain) (g : Fld) : (s.modChain f).get g = s.get g := rfl

theorem State.get_setWord64_of_ne (lo hi : Nat) (v : BitVec 64) (f : Fld) (hlo : f.addr ≠ lo) (hhi : f.addr ≠ hi) :
    (s.setWord64 lo hi v).get f = s.get f := by
  rw [State.get, State.setWord64, State.word_setWord_of_ne _ _ _ _ hhi, State.word_setWord_of_ne _ _ _ _ hlo, State.get]

@[simp] theorem State.regsWf_modChain (f : Chain → Chain) : (s.modChain f).regsWf = s.regsWf := rfl

@[simp] theorem State.word_modChain (f : Chain → Chain) (k : Nat) : (s.modChain f).word k = s.word k := rfl

theorem State.takeId_eq (n : Nat) : s.takeId n = s.modChain (fun c => { c with prevId := n }) ∨
    ∃ d, s.takeId n = (s.modChain (fun c => { c with prevId := n })).record 0x0803 0xFF d := by
  unfold State.takeId
  extract_lets prev u
  split
  · exact .inl rfl
  · exact .inr ⟨_, rfl⟩

/-- Beside its own registers, taking an ID changes only the ledger's head. -/
theorem State.get_takeId (n : Nat) (f : Fld) (hf : f.addr ≠ Reg.PWR_LEDHEAD_SEQ.addr) : (s.takeId n).get f = s.get f := by
  rcases s.takeId_eq n with h | ⟨d, h⟩
  · rw [h, State.get_modChain]
  · rw [h, State.get_record_of_ne _ _ _ _ _ hf, State.get_modChain]

theorem State.word_takeId (n k : Nat) (hk : k ≠ Reg.PWR_LEDHEAD_SEQ.addr) : (s.takeId n).word k = s.word k := by
  rcases s.takeId_eq n with h | ⟨d, h⟩
  · rw [h, State.word_modChain]
  · rw [h, State.record, State.word_recordF_of_ne _ _ _ _ _ _ hk, State.word_modChain]

theorem State.chain_takeId (n : Nat) : (s.takeId n).chain = { s.chain with prevId := n } := by
  rcases s.takeId_eq n with h | ⟨d, h⟩ <;> rw [h] <;> rfl

/-- The state in which a settled candidate is known and the device waits for its ID. -/
def State.candidateKnown (s : State) (u : BitVec 64) : State :=
  ((s.setWord64 Reg.CHN_MGRUID_LO Reg.CHN_MGRUID_HI u).modChain (fun x => { x with settled := true })).chnSet chnAssign

theorem State.uid_candidateKnown (u : BitVec 64) : (s.candidateKnown u).uid = s.uid := by
  simp (disch := decide) only [State.candidateKnown, State.uid, State.chnSet, State.word64_set_of_ne]
  exact State.word64_setWord64_of_ne _ _ _ _ _ _ (by decide) (by decide)

theorem State.Inv.candidateKnown (h : s.Inv) (u : BitVec 64) : (s.candidateKnown u).Inv := .chnSet (.modChain (.setWord64 h))

theorem State.candidateKnown_facts (h : s.Inv) (u : BitVec 64) : (s.candidateKnown u).chnState = 3 ∧ (s.candidateKnown u).isMgr = s.isMgr ∧
    (s.candidateKnown u).word64 Reg.CHN_MGRUID_LO Reg.CHN_MGRUID_HI = u := by
  have h1 : ((s.setWord64 Reg.CHN_MGRUID_LO Reg.CHN_MGRUID_HI u).modChain (fun x => { x with settled := true })).Inv := .modChain (.setWord64 h)
  refine ⟨h1.get_set_self _ _ (by decide) (by decide), ?_, ?_⟩
  · rw [State.isMgr, State.on, State.candidateKnown, State.chnSet, h1.get_set_of_apart _ _ _ (by decide) (by decide), State.get_modChain,
      State.get_setWord64_of_ne _ _ _ _ (by decide) (by decide), State.isMgr, State.on]
  · rw [State.candidateKnown, State.chnSet, State.word64_set_of_ne _ _ _ _ _ (by decide) (by decide)]
    exact State.word64_setWord64_self _ _ _ _ h.regsWf (by decide)

variable {c : Nat × BitVec 64 × Nat × Option Nat}

/-- This device, the settled candidate, has taken ID 0 as the manager. -/
def State.manages (s : State) (u : BitVec 64) : State :=
  ((((s.candidateKnown u).set Reg.CHN_STAT_MGR 1).takeId 0).set Reg.CHN_STAT_ID 0).set Reg.CHN_STAT_IDV 1

theorem exec_candidateSettled_own (hc : s.chain.cand = some c) (hs : s.chain.settled = false) (hen : s.on Reg.CHN_CFG_EN = true)
    (hown : c.2.1 = s.uid) : exec .candidateSettled s = .next ((s.manages c.2.1).noteTopo 4 (s.candidateKnown c.2.1).ownTopo) := by
  show execCandidateSettled s = _
  simp only [execCandidateSettled, hc, hs, hen, Bool.not_true, Bool.or_self, Bool.false_eq_true, if_false]
  have huid := State.uid_candidateKnown (s := s) c.2.1
  unfold State.candidateKnown at huid
  rw [if_pos (hown.trans huid.symm), State.manages, State.candidateKnown]

theorem exec_candidateSettled_other (hc : s.chain.cand = some c) (hs : s.chain.settled = false) (hen : s.on Reg.CHN_CFG_EN = true)
    (hother : c.2.1 ≠ s.uid) : exec .candidateSettled s =
      .next ((s.candidateKnown c.2.1).treeUp 0 1 (.topo (s.candidateKnown c.2.1).ownTopo)) := by
  show execCandidateSettled s = _
  simp only [execCandidateSettled, hc, hs, hen, Bool.not_true, Bool.or_self, Bool.false_eq_true, if_false]
  have huid := State.uid_candidateKnown (s := s) c.2.1
  unfold State.candidateKnown at huid
  rw [if_neg (fun h => hother (h.trans huid)), State.candidateKnown]

theorem exec_candidateSettled_none (hc : s.chain.cand = none) : exec .candidateSettled s = .next s := by
  show execCandidateSettled s = _
  rw [execCandidateSettled, hc]

/-- This device, the settled candidate, manages with ID 0. -/
theorem State.manages_facts (h : s.Inv) (u : BitVec 64) (x : Nat) (y : Topo) :
    let t := (s.manages u).noteTopo x y
    t.isMgr = true ∧ t.get Reg.CHN_STAT_ID = 0 ∧ t.get Reg.CHN_STAT_IDV = 1 ∧ t.chnState = 3 ∧
    t.word64 Reg.CHN_MGRUID_LO Reg.CHN_MGRUID_HI = u ∧ t.chain.settled = true := by
  have h0 := h.candidateKnown u
  have h1 := h0.set (f := Reg.CHN_STAT_MGR) (v := 1)
  have h2 := h1.takeId (n := 0)
  have h3 := h2.set (f := Reg.CHN_STAT_ID) (v := 0)
  obtain ⟨hstate, -, huid⟩ := State.candidateKnown_facts h u
  refine ⟨?_, ?_, ?_, ?_, ?_, ?_⟩
  · rw [State.isMgr, State.on, State.noteTopo, State.get_modChain, State.manages, h3.get_set_of_apart _ _ _ (by decide) (by decide),
      h2.get_set_of_apart _ _ _ (by decide) (by decide), State.get_takeId _ _ (by decide), h0.get_set_self _ _ (by decide) (by decide)]
    rfl
  · rw [State.noteTopo, State.get_modChain, State.manages, h3.get_set_of_apart _ _ _ (by decide) (by decide),
      h2.get_set_self _ _ (by decide) (by decide)]
  · rw [State.noteTopo, State.get_modChain, State.manages, h3.get_set_self _ _ (by decide) (by decide)]
  · rw [State.chnState, State.noteTopo, State.get_modChain, State.manages, h3.get_set_of_apart _ _ _ (by decide) (by decide),
      h2.get_set_of_apart _ _ _ (by decide) (by decide), State.get_takeId _ _ (by decide), h0.get_set_of_apart _ _ _ (by decide) (by decide)]
    exact hstate
  · show (((((s.candidateKnown u).set Reg.CHN_STAT_MGR 1).takeId 0).set Reg.CHN_STAT_ID 0).set Reg.CHN_STAT_IDV 1).word64 _ _ = u
    rw [State.word64_set_of_ne _ _ _ _ _ (by decide) (by decide), State.word64_set_of_ne _ _ _ _ _ (by decide) (by decide), State.word64,
      State.word_takeId _ _ (by decide), State.word_takeId _ _ (by decide), ← State.word64, State.word64_set_of_ne _ _ _ _ _ (by decide) (by decide)]
    exact huid
  · show (((s.candidateKnown u).set Reg.CHN_STAT_MGR 1).takeId 0).chain.settled = true
    rw [State.chain_takeId]
    rfl
end
end Sys2Proof.Machine
end

section
/-!
SUPPORT. TOPOs, and the manager's assignment of IDs (R397 to R400).
-/

namespace Sys2Proof.Machine

/-! ## TOPOs and IDs (R397 to R400) -/

section

variable {s : State} {l : Fin 4} {topo : Topo}

theorem State.noteTopo_of_not_mgr (k : Nat) (h : s.isMgr = false) :
    s.noteTopo k topo = { s with chain := { s.chain with topos := (topo, k) :: s.chain.topos.filter (fun x => x.1.uid != topo.uid) } } := by
  simp [State.noteTopo, State.modChain, h]

@[simp] theorem State.isMgr_noteTopo (k : Nat) : (s.noteTopo k topo).isMgr = s.isMgr := rfl

theorem exec_topo_tree (hup : s.linkState l = 3) (huid : topo.uid ≠ s.uid) (hmgr : s.isMgr = false) :
    exec (.topo ⟨l, true⟩ topo) s =
      .next { s with chain := { s.chain with topos := (topo, l.val) :: s.chain.topos.filter (fun x => x.1.uid != topo.uid) } } := by
  show execTopo ⟨l, true⟩ topo s = _
  rw [execTopo, if_neg (by simp [hup, huid, linkUp])]
  simp only [true_or, if_true, State.isMgr_noteTopo, hmgr, Bool.not_false]
  rw [State.noteTopo_of_not_mgr _ hmgr]

theorem exec_topo_routed (hup : s.linkState l = 3) (huid : topo.uid ≠ s.uid) (hmgr : s.isMgr = false) :
    exec (.topo ⟨l, false⟩ topo) s = .next s := by
  show execTopo ⟨l, false⟩ topo s = _
  rw [execTopo, if_neg (by simp [hup, huid, linkUp])]
  simp only [hmgr, Bool.false_eq_true, false_or, false_and, if_false]
  split <;> simp [hmgr]

end

/-! ### A cell on its way changes only the links' records of the Chain -/

/-- Of the Chain's own state only the links' records differ. -/
def State.SameButLinks (s t : State) : Prop := ∃ links, t.chain = { s.chain with links := links }

theorem State.SameButLinks.refl (s : State) : s.SameButLinks s := ⟨_, rfl⟩

theorem State.SameButLinks.of_chain {s t : State} (h : t.chain = s.chain) : s.SameButLinks t := ⟨_, h⟩

theorem State.SameButLinks.trans {s t u : State} (h1 : s.SameButLinks t) (h2 : t.SameButLinks u) : s.SameButLinks u := by
  obtain ⟨a, ha⟩ := h1
  obtain ⟨b, hb⟩ := h2
  exact ⟨b, by rw [hb, ha]⟩

theorem State.SameButLinks.foldl {α : Type} {f : State → α → State} (xs : List α) (s : State) (h : ∀ (t : State) (x : α), t.SameButLinks (f t x)) :
    s.SameButLinks (xs.foldl f s) := by
  induction xs generalizing s with
  | nil => exact .refl s
  | cons x xs ih => exact (h s x).trans (ih _)

theorem State.freed_links (s : State) (x : QCell) : s.SameButLinks (s.freed x) := by
  unfold State.freed State.freeSlot
  split
  · split
    exacts [⟨_, rfl⟩, .refl s]
  · exact .refl s

theorem State.lost_links (s : State) (xs : List QCell) : s.SameButLinks (s.lost xs) :=
  .trans (.of_chain rfl) (.foldl _ _ State.freed_links)

theorem State.stampDly_links (s : State) (l : Nat) (c : Cell) : s.SameButLinks (s.stampDly l c).2 := by
  unfold State.stampDly
  split
  · split
    exacts [⟨_, rfl⟩, .refl s]
  · exact .refl s

theorem State.depart_links (s : State) (l : Nat) (x : QCell) : s.SameButLinks (s.depart l x) :=
  ((s.stampDly_links l x.cell).trans ⟨_, rfl⟩).trans (State.freed_links _ x)

theorem State.pump_links (s : State) (l : Nat) : s.SameButLinks (s.pump l) := by
  refine .foldl _ _ fun t _ => ?_
  split
  exacts [.refl t, t.depart_links l _]

theorem State.enqueueQ_links (s : State) (l : Nat) (x : QCell) : s.SameButLinks (s.enqueueQ l x) := by
  unfold State.enqueueQ
  split
  exacts [.trans ⟨_, rfl⟩ (State.pump_links _ l), s.lost_links _]

/-! ### IDs -/

theorem State.ids_injectOn (s : State) (l : Nat) (x : QCell) : (s.injectOn l x).chain.ids = s.chain.ids := by
  unfold State.injectOn
  extract_lets t
  obtain ⟨links, h⟩ := t.enqueueQ_links l x
  rw [h]
  dsimp only [t]
  split
  · rfl
  · split <;> rfl

theorem State.ids_treeDown (s : State) (u : BitVec 64) (vc op : Nat) (b : Body) : (s.treeDown u vc op b).chain.ids = s.chain.ids := by
  unfold State.treeDown
  split
  exacts [s.ids_injectOn _ _, rfl]

theorem State.foldl_ids {α : Type} {f : State → α → State} (xs : List α) (s : State) (h : ∀ (t : State) (x : α), (f t x).chain.ids = t.chain.ids) :
    (xs.foldl f s).chain.ids = s.chain.ids := by
  induction xs generalizing s with
  | nil => rfl
  | cons x xs ih => exact (ih _).trans (h s x)

section

variable {s : State} {l : Fin 4} {topo : Topo}

theorem exec_topo_mgr (hup : s.linkState l = 3) (huid : topo.uid ≠ s.uid) (hmgr : s.isMgr = true)
    (hnew : s.chain.ids.find? (fun x => x.1 == topo.uid) = none) : exec (.topo ⟨l, true⟩ topo) s =
      .next (((s.noteTopo l topo).unconfigured topo.uid).treeDown topo.uid 1 5 (.ack 1 topo.uid)) := by
  have hids : ((s.noteTopo l topo).unconfigured topo.uid).chain.ids.find? (fun x => x.1 == topo.uid) = none := hnew
  have hunknown : s.chain.ids.any (fun x => x.1 == topo.uid) = false := by
    rw [List.any_eq_false]
    exact List.find?_eq_none.mp hnew
  show execTopo ⟨l, true⟩ topo s = _
  rw [execTopo, if_neg (by simp [hup, huid, linkUp])]
  simp only [true_or, if_true, State.isMgr_noteTopo, hmgr, Bool.not_true, Bool.false_eq_true, if_false, hids]
  refine congrArg Host.Outcome.next (if_pos ?_)
  rw [State.ids_treeDown, Bool.or_eq_true, Bool.not_eq_true']
  exact .inr hunknown

theorem exec_idAssignment_of_not (h : s.isMgr = false ∨ s.chain.settled = false ∨ s.toposComplete = false) : exec .idAssignment s = .next s := by
  refine if_pos ?_
  rcases h with h | h | h <;> simp [h]

theorem exec_idAssignment (hmgr : s.isMgr = true) (hset : s.chain.settled = true) (hall : s.toposComplete = true) :
    ∃ u : State, exec .idAssignment s = .next u.sendRoutes.commitIfReady ∧
      ∃ far, u.chain.ids = (assignIds s.uid s.chain.ids s.near far).1 := by
  let far := ((layers s.allTopos 32 [s.uid] [s.uid]).drop 9).flatten
  refine ⟨_, if_neg (by simp [hmgr, hset, hall]), far, ?_⟩
  refine State.foldl_ids _ _ fun t u => ?_
  exact State.ids_treeDown _ _ _ _ _
end

end Sys2Proof.Machine
end

section
/-!
SUPPORT. Routes, commits, acknowledges and drains (R401, R403, R415), and the statement on links, election and IDs.
-/

namespace Sys2Proof.Machine

/-! ## Routes, commits, acknowledges and drains (R401, R403, R415) -/

section

variable {s : State} {l : Fin 4} {uid : BitVec 64} {id : BitVec 8} {rt : List (BitVec 8)}

theorem exec_routes_of_other (huid : uid ≠ s.uid) (hlen : rt.length = 32) :
    exec (.route l uid id rt) s = .next s ∧ exec (.commit l uid) s = .next s :=
  ⟨(if_neg (by simp [hlen])).trans (if_pos (.inr huid)), if_pos (.inr huid)⟩

/-- This device has taken the ID and the table of a ROUTE. -/
def State.routed (s : State) (id : BitVec 8) (rt : List (BitVec 8)) : State :=
  (((s.takeId (id.toNat % 32)).set Reg.CHN_STAT_ID (id.toNat % 32)).set Reg.CHN_STAT_IDV 1).modChain
  (fun c => { c with route := some (rt.map BitVec.toNat) })

theorem exec_route (hup : s.linkState l = 3) (hid : id ≠ 0xFF) (hlen : rt.length = 32) :
    exec (.route l s.uid id rt) s = .next ((s.routed id rt).toMgr 1 5 (.ack 2 (s.routed id rt).uid)) := by
  show execRoute l s.uid id rt s = _
  rw [execRoute, if_neg (by simp [hlen]), if_neg (by simp [hup, linkUp]), if_neg hid]
  rfl

theorem State.routed_facts (h : s.Inv) : (s.routed id rt).get Reg.CHN_STAT_ID = id.toNat % 32 ∧ (s.routed id rt).get Reg.CHN_STAT_IDV = 1 ∧
    (s.routed id rt).chain.route = some (rt.map BitVec.toNat) := by
  have h1 := h.takeId (n := id.toNat % 32)
  have h2 := h1.set (f := Reg.CHN_STAT_ID) (v := id.toNat % 32)
  have hlt : id.toNat % 32 < 32 := Nat.mod_lt _ (by decide)
  refine ⟨?_, ?_, rfl⟩
  · rw [State.routed, State.get_modChain, h2.get_set_of_apart _ _ _ (by decide) (by decide)]
    exact h1.get_set_self _ _ (by decide) hlt
  · exact h2.get_set_self _ _ (by decide) (by decide)

theorem exec_route_none (h : s.Inv) (hup : s.linkState l = 3) : ∃ t, exec (.route l s.uid 0xFF rt) s = .next t ∧ t.chnState = 6 ∧
    t.get Reg.CHN_STAT_IDV = 0 ∧ t.chain.route = none := by
  refine ⟨((s.chnSet chnNoid).set Reg.CHN_STAT_IDV 0).modChain (fun c => { c with route := none }),
    ?_, ?_, ?_, rfl⟩
  · show execRoute l s.uid 0xFF rt s = _
    rw [execRoute, if_neg (by simp), if_neg (by simp [hup, linkUp]), if_pos rfl]
  · exact (h.chnSet.get_set_of_apart _ _ _ (by decide) (by decide)).trans (h.get_set_self _ _ (by decide) (by decide))
  · exact h.chnSet.get_set_self _ _ (by decide) (by decide)

theorem exec_commit_route {t : List Nat} (hup : s.linkState l = 3) (hroute : s.chain.route = some t) :
    exec (.commit l s.uid) s = .next ((s.switchRoutes t).toMgr 1 5 (.ack 3 (s.switchRoutes t).uid)) := by
  refine (if_neg (by simp [hup, linkUp])).trans ?_
  rw [hroute]

theorem exec_commit_held (hup : s.linkState l = 3) (hroute : s.chain.route = none) (hconf : s.chnState = 4 ∨ s.chnState = 5) :
    exec (.commit l s.uid) s = .next ((s.switchRoutes ((List.range 32).map s.rt)).toMgr 1 5
      (.ack 3 (s.switchRoutes ((List.range 32).map s.rt)).uid)) := by
  refine (if_neg (by simp [hup, linkUp])).trans ?_
  simp only [hroute, if_pos (show s.chnState = chnConfigured ∨ s.chnState = chnQuarantine from hconf)]

theorem exec_commit_unconfigured (hup : s.linkState l = 3) (hroute : s.chain.route = none) (h4 : s.chnState ≠ 4) (h5 : s.chnState ≠ 5) :
    exec (.commit l s.uid) s = .next (s.toMgr 1 5 (.ack 3 s.uid)) := by
  have hno : ¬ (s.chnState = chnConfigured ∨ s.chnState = chnQuarantine) := fun h => h.elim h4 h5
  refine (if_neg (by simp [hup, linkUp])).trans ?_
  simp only [hroute, if_neg hno]

theorem exec_ack_of_not_mgr {op : BitVec 4} (hup : s.linkState l = 3) (hmgr : s.isMgr = false) : exec (.ack l op uid) s = .next s :=
  (if_neg (by simp [hup, linkUp])).trans (if_neg (by simp [hmgr]))

theorem exec_ack_route (hup : s.linkState l = 3) (hmgr : s.isMgr = true) : exec (.ack l 2 uid) s =
    .next ({ s with chain := { s.chain with routeWait := s.chain.routeWait.filter (fun u => u != uid) } } : State).commitIfReady :=
  (if_neg (by simp [hup, linkUp])).trans (if_pos hmgr)

theorem exec_ack_drain {d : Nat} (hup : s.linkState l = 3) (hmgr : s.isMgr = true)
    (hid : s.chain.ids.find? (fun x => x.1 == uid) = some (uid, d)) : exec (.ack l 4 uid) s =
    .next ({ s with chain := { s.chain with drainWait := s.chain.drainWait.filter (fun x => x != d) } } : State).commitIfReady := by
  refine (if_neg (by simp [hup, linkUp])).trans ((if_pos hmgr).trans ?_)
  simp only [hid, Option.map_some, bne, Option.some_beq_some]
  rfl

theorem exec_drainq (hmgr : s.isMgr = false) (hconf : s.chnState = 4 ∨ s.chnState = 5) :
    exec .drainq s = .next (s.modChain (fun c => { c with draining := true, drained := false })).drainAnswer := by
  refine if_neg ?_
  rintro (h | ⟨h4, h5⟩)
  · exact absurd h (by simp [hmgr])
  · exact hconf.elim h4 h5

theorem exec_drainq_mgr (hmgr : s.isMgr = true) : exec .drainq s = .next s := if_pos (.inl hmgr)

theorem exec_drainqTimeout (hmgr : s.isMgr = true) (hnew : s.chain.newRoutes ≠ none) (hwait : s.chain.drainWait ≠ []) :
    exec .drainqTimeout s = .next s.managerCommit := by
  refine congrArg Host.Outcome.next (if_pos ?_)
  simp [hmgr, Option.isSome_iff_ne_none, hnew, hwait]

theorem exec_drainqTimeout_of_not_mgr (hmgr : s.isMgr = false) : exec .drainqTimeout s = .next s :=
  congrArg Host.Outcome.next (if_neg (by simp [hmgr]))

end
end Sys2Proof.Machine

open Sys2Proof Sys2Proof.Machine

/-- Settles O47: an ID is taken from those that none holds and all are below 32, so no two devices share one; each other clause is its command's
one branch. That rows for another device do nothing here is the model's log entry 20, the commit condition its entry 22. -/
theorem chainFormsWithDistinctIds : Obligations.ChainFormsWithDistinctIds := by
  refine ⟨fun own held near far hnodup hlt => ?_, fun l tree b topo uid id rt op s h => ?_⟩
  · obtain ⟨hhead, hids, hbelow, hkept⟩ := IdsOk.assignIds near far hnodup hlt
    exact ⟨hhead, hids, hbelow, fun x hx hne => hkept x (List.mem_filter.mpr ⟨hx, by simpa using hne⟩)⟩
  · refine ⟨fun ht => ⟨exec_chainLinkTrained ht, State.linkState_setLink h l (by decide), State.get_lchg_setLink h l (State.linkTrains.ne_hello ht)⟩,
      fun ht => ⟨_, exec_chainTrainTimeout ht, State.linkState_setLink h l (by decide), ?_⟩, exec_training_of_not, exec_chainTrainRetry h,
      exec_helloSend, fun hlen h2 hid => ⟨_, exec_hello_first hlen h2 hid, State.helloTaken_facts h hid⟩, exec_hello_other, exec_hello_elsewhere,
      exec_linkEnds, exec_of_not_up, fun c hc hs hen => ⟨fun hown => ⟨_, exec_candidateSettled_own hc hs hen hown, State.manages_facts h _ _ _⟩,
        fun hother => ?_⟩, exec_candidateSettled_none, fun hup huid hmgr ht => ?_, fun hup huid hmgr ht => ?_, fun hup huid hmgr ht hnew => ?_,
      exec_idAssignment_of_not, exec_idAssignment, fun _ => exec_routes_of_other, fun hup hid hlen => ?_, exec_route_none h,
      fun t hup ht => ?_, exec_commit_unconfigured, exec_ack_of_not_mgr, exec_ack_route, fun d => exec_ack_drain, exec_drainq, exec_drainq_mgr,
      exec_drainqTimeout, exec_drainqTimeout_of_not_mgr⟩
    · rw [State.linkD_modLink_self]
    · exact ⟨_, exec_candidateSettled_other hc hs hen hother, (State.candidateKnown_facts h _).1, (State.candidateKnown_facts h _).2.1⟩
    · exact ht ▸ exec_topo_tree hup huid hmgr
    · exact ht ▸ exec_topo_routed hup huid hmgr
    · exact ht ▸ exec_topo_mgr hup huid hmgr hnew
    · exact ⟨_, exec_route hup hid hlen, State.routed_facts h⟩
    · rcases ht with hroute | ⟨hnone, hconf, rfl⟩
      exacts [exec_commit_route hup hroute, exec_commit_held hup hnone hconf]
end

section
/-!
SUPPORT. Cells that come in, remote accesses and their answers (R405, R407, R408, R410, R411, R414).
-/

namespace Sys2Proof.Machine

/-! ## Forwarding -/

section

variable {s : State} {l : Fin 4} {c : Cell}

/-- The cell's input slot is free again, when it came on a credit (R411). -/
def State.freeInput (s : State) (l : Nat) (c : Cell) : State :=
  if c.kind = 1 ∨ (c.kind = 2 ∧ c.op ≠ 0 ∧ c.op ≠ 8) then s.freeSlot l c.vc c.hops else s

theorem State.freeInput_eq (s : State) (l : Nat) (c : Cell) : s.freeInput l c = if credited c then s.freeSlot l c.vc c.hops else s := by
  refine if_congr ?_ rfl rfl
  simp [credited, and_assoc]

theorem exec_cellForward_lost (hdown : s.linkState l ≠ 3) : exec (.cellForward l c 0) s =
    .next (if c.kind = 2 ∧ c.op = 0 then s else s.lost [{ src := 4, strike := false, cell := c, stomp := false }]) :=
  if_pos hdown

theorem exec_cellForward_header (hup : s.linkState l = 3) (hop : cellOpOk c = false) :
    exec (.cellForward l c 0) s = .next ((s.count Reg.CHN_DROP_HDR 1).freeInput l c) := by
  rw [State.freeInput_eq]
  exact (if_neg (not_not_intro hup)).trans (if_pos (by simp [hop]))

theorem exec_cellForward_stays (hup : s.linkState l = linkUp) (hop : cellOpOk c = true) (hpass : s.cellPasses c = false) :
    exec (.cellForward l c 0) s = .next ((if isSev c = true ∧ ¬ (s.on Reg.CHN_STAT_IDV = true ∧ c.dst = s.chnId) then
      s.count Reg.CHN_DROP_EV 1 else s).freeInput l c) := by
  have hiff : (isSev c ∧ ((0 : Fin 3) ≠ 0 ∨ !(s.on Reg.CHN_STAT_IDV && c.dst == s.chnId))) ↔
      isSev c = true ∧ ¬ (s.on Reg.CHN_STAT_IDV = true ∧ c.dst = s.chnId) := by
    simp [imp_iff_not_or]
  rw [State.freeInput_eq]
  refine (if_neg (not_not_intro hup)).trans ((if_neg (by simp [hop])).trans ((if_pos (by simp [hpass])).trans ?_))
  simp only [Fin.reduceEq, if_false, hiff]

/-- The state with the cell's check counted, which is right (0) or the stomp code (2). -/
def State.checkCounted (s : State) (chk : Fin 3) : State := if chk = 2 then s.count Reg.CHN_DROP_STOMP 1 else s

/-- A cell that is no TOPO on the tree is sent on by the link that `cellLink` gives, or dropped. -/
theorem exec_cellForward_goes {chk : Fin 3} (hchk : chk ≠ 1) (hup : s.linkState l = linkUp) (hop : cellOpOk c = true)
    (hpass : (s.checkCounted chk).cellPasses c = true) (hbody : c.tree = false ∨ ∀ t, c.body ≠ .topo t) :
    exec (.cellForward l c chk) s = .next (match (s.checkCounted chk).cellLink c with
      | some k => (s.checkCounted chk).enqueueQ k { src := l, strike := false, cell := { c with hops := c.hops + 1 }, stomp := chk != 0 }
      | none => (if 8 ≤ c.hops then (s.checkCounted chk).dropCell c Reg.CHN_DROP_TTL (chk == 0)
          else if c.tree then s.checkCounted chk else (s.checkCounted chk).dropCell c Reg.CHN_DROP_NOROUTE (chk == 0)).freeInput l c) := by
  have htree : ∀ t, c.body = .topo t → c.tree = false := fun t ht => hbody.resolve_right fun h => h t ht
  show execCellForward l c chk s = _
  rw [execCellForward, if_neg (not_not_intro hup)]
  simp only [if_neg hchk]
  rw [State.checkCounted] at hpass ⊢
  generalize (if chk = 2 then s.count Reg.CHN_DROP_STOMP 1 else s) = u at hpass ⊢
  simp only [hop, hpass, Bool.not_true, Bool.false_eq_true, if_false, State.freeInput_eq]
  cases hb : c.body
  case topo t => simp only [htree t hb, Bool.false_eq_true, false_and, if_false]; cases u.cellLink c <;> rfl
  all_goals (cases u.cellLink c <;> rfl)

theorem State.cellPasses_checkCounted (chk : Fin 3) : (s.checkCounted chk).cellPasses c = s.cellPasses c := by
  have hget : ∀ f : Fld, f.addr ≠ Reg.CHN_DROP_STOMP.addr → (s.count Reg.CHN_DROP_STOMP 1).get f = s.get f := fun f hf =>
    State.get_set_of_ne _ _ _ _ hf
  unfold State.checkCounted
  split
  · simp (disch := decide) only [State.cellPasses, State.on, State.chnId, State.etOpen, State.chnState, State.chnRunning, hget]
  · rfl

/-- A word that is not its default is read back, whatever the form of the table. -/
theorem State.word_setWord_of_ne_reset (s : State) (k : Nat) (v : W32) (hv : v ≠ RegMap.resetWord k) : (s.setWord k v).word k = v := by
  show Sparse.find _ (Sparse.put _ s.regs k v) k = v
  induction s.regs with
  | nil => simp [Sparse.put, hv, Sparse.find]
  | cons q r ih =>
    obtain ⟨j, w⟩ := q
    rw [Sparse.put, if_neg hv, if_neg hv]
    split
    · next hj => rwa [Sparse.find, if_neg hj.ne]
    · split <;> rw [Sparse.find, if_pos rfl]

/-- The low half of every entry of the routing table, which holds link and V, has no bit of the count of stomped cells. -/
theorem State.rt_checkCounted (chk : Fin 3) (d : Nat) : (s.checkCounted chk).rt d % 16 = s.rt d % 16 := by
  have hlow : ∀ (x : W32) (lo : Nat), fieldGet x lo 8 % 16 = fieldGet x lo 4 := fun x lo => Nat.mod_mod_of_dvd _ (by decide)
  unfold State.checkCounted
  split
  · rw [State.rt, State.rt, hlow, hlow, State.count, State.set]
    by_cases hd : Reg.CHN_RT (d / 4) = Reg.CHN_DROP_STOMP.addr
    · have hset : fieldSet (s.word Reg.CHN_DROP_STOMP.addr) 12 4 (min (s.get Reg.CHN_DROP_STOMP + 1) (2 ^ 4 - 1)) ≠
          RegMap.resetWord Reg.CHN_DROP_STOMP.addr := by
        intro h
        have hval := congrArg (fun x => fieldGet x 12 4) h
        simp only [fieldGet_fieldSet _ 12 4 _ (by decide)] at hval
        have hzero : fieldGet (RegMap.resetWord Reg.CHN_DROP_STOMP.addr) 12 4 = 0 := by decide
        omega
      have hmod : d % 4 < 4 := Nat.mod_lt _ (by decide)
      rw [hd]
      refine (congrArg (fun x => fieldGet x (d % 4 * 8) 4) (State.word_setWord_of_ne_reset _ _ _ hset)).trans ?_
      exact fieldGet_fieldSet_of_disjoint _ _ _ _ _ _ (by decide) (by show d % 4 * 8 + 4 ≤ 12 ∨ 12 + 4 ≤ d % 4 * 8; omega)
    · rw [State.word_setWord_of_ne _ _ _ _ hd]
  · rfl

theorem State.rtValid_checkCounted (chk : Fin 3) (d : Nat) : (s.checkCounted chk).rtValid d = s.rtValid d := by
  have := s.rt_checkCounted chk d
  rw [State.rtValid, State.rtValid, show (s.checkCounted chk).rt d / 4 % 2 = s.rt d / 4 % 2 by omega]

theorem State.rtLink_checkCounted (chk : Fin 3) (d : Nat) : (s.checkCounted chk).rtLink d = s.rtLink d := by
  have := s.rt_checkCounted chk d
  rw [State.rtLink, State.rtLink]
  omega

end

end Sys2Proof.Machine
end

section
/-!
SUPPORT. Remote accesses, their answers and time-outs (R407, R410, R412), and the statement on cells.
-/

namespace Sys2Proof.Machine

section

variable {s : State} {l : Fin 4} {c : Cell}

/-- A cell that comes with a right CRC. -/
theorem State.checkCounted_zero : s.checkCounted 0 = s := if_neg (by decide)

theorem exec_cellForward_dropped (hup : s.linkState l = 3) (hop : cellOpOk c = true) (hpass : s.cellPasses c = true) (htree : c.tree = false)
    (hlink : s.cellLink c = none) : exec (.cellForward l c 0) s =
      .next ((if 8 ≤ c.hops then s.dropCell c Reg.CHN_DROP_TTL true else s.dropCell c Reg.CHN_DROP_NOROUTE true).freeInput l c) := by
  rw [exec_cellForward_goes (chk := 0) (by decide) hup hop (by rwa [State.checkCounted_zero]) (.inl htree), State.checkCounted_zero, hlink, htree]
  rfl

theorem exec_cellForward_routed {chk : Fin 3} (hchk : chk ≠ 1) (hup : s.linkState l = 3) (hop : cellOpOk c = true)
    (hpass : s.cellPasses c = true) (htree : c.tree = false) (hhops : c.hops < 8) (hroute : s.rtValid c.dst = true) :
    exec (.cellForward l c chk) s = .next ((s.checkCounted chk).enqueueQ (s.rtLink c.dst)
      { src := l, strike := false, cell := { c with hops := c.hops + 1 }, stomp := chk != 0 }) := by
  have hlink : (s.checkCounted chk).cellLink c = some (s.rtLink c.dst) := by
    simp only [State.cellLink, htree, State.rtValid_checkCounted, hroute, State.rtLink_checkCounted, if_neg (Nat.not_le.mpr hhops), if_true,
      Bool.false_eq_true, if_false]
  rw [exec_cellForward_goes hchk hup hop (by rw [State.cellPasses_checkCounted, hpass]) (.inl htree), hlink]

theorem exec_cellForward_tree {k : Nat} (hup : s.linkState l = 3) (hop : cellOpOk c = true) (hpass : s.cellPasses c = true)
    (htree : c.tree = true) (hhops : c.hops < 8) (hk : s.treeLink c = some k) (hbody : ∀ t, c.body ≠ .topo t) :
    exec (.cellForward l c 0) s =
      .next (s.enqueueQ k { src := l, strike := false, cell := { c with hops := c.hops + 1 }, stomp := false }) := by
  have hlink : s.cellLink c = some k := by
    rw [State.cellLink, if_neg (Nat.not_le.mpr hhops), if_pos htree, hk]
  rw [exec_cellForward_goes (chk := 0) (by decide) hup hop (by rwa [State.checkCounted_zero]) (.inr hbody), State.checkCounted_zero, hlink]
  rfl

theorem State.cellLink_far (h : 8 ≤ c.hops) : s.cellLink c = none := if_pos h

theorem State.cellLink_noRoute (htree : c.tree = false) (hroute : s.rtValid c.dst = false) : s.cellLink c = none := by
  simp [State.cellLink, htree, hroute]

theorem State.freed_of_credited {x : QCell} (hsrc : x.src < 4) (hup : s.linkState x.src = 3) (hcred : credited x.cell = true) :
    s.freed x = s.send (.credit x.src (x.cell.vc % 2) (min (x.cell.hops - 1) 7)) :=
  (if_pos hcred).trans (if_pos ⟨hsrc, hup⟩)

end

/-! ## Requests and their answers -/

section

variable {s : State} {src : Fin 32} {tag : BitVec 8} {b : List Byte} {e : Fin 16} {pre : Bool} {r : Run}

theorem exec_etRd (hlen : b.length = 64) (hopen : s.etOpen = true) : exec (.etRd src tag b) s =
    let r := s.remoteAccess (byteAt b 5) (leAt b 0 4) (remoteSize (byteAt b 4)) none
    .next (r.2.2.sendEt 1 0 src tag.toNat ([BitVec.ofNat 8 r.1, 0, 0, 0, 0, 0, 0, 0] ++ r.2.1)) :=
  (if_neg (not_not_intro hlen)).trans (if_neg (by simp [hopen]))

theorem exec_etWr (hlen : b.length = 64) (hopen : s.etOpen = true) : exec (.etWr src tag b) s =
    let r := s.remoteAccess (byteAt b 5) (leAt b 0 4) (remoteSize (byteAt b 4)) (some ((b.drop 8).take (remoteSize (byteAt b 4))))
    .next (r.2.2.sendEt 1 1 src tag.toNat [BitVec.ofNat 8 r.1]) :=
  (if_neg (not_not_intro hlen)).trans (if_neg (by simp [hopen]))

theorem exec_etRequests_closed (hlen : b.length = 64) (hopen : s.etOpen = false) :
    exec (.etRd src tag b) s = .next s ∧ exec (.etWr src tag b) s = .next s :=
  ⟨(if_neg (not_not_intro hlen)).trans (if_pos (by simp [hopen])), (if_neg (not_not_intro hlen)).trans (if_pos (by simp [hopen]))⟩

theorem State.endRemote_of_no_tag {g : Nat} (x : MemRes) (h : s.chain.tags.find? (fun y => y.1 == g) = none) : s.endRemote g x = s := by
  rw [State.endRemote, h]

/-- An answer ends the wait of the engine that holds the tag. -/
theorem State.endRemote_of_waiter {g : Nat} {n : Fin 16} {op : MemOp} (x : MemRes) (h : s.chain.tags.find? (fun y => y.1 == g) = some (g, n))
    (hwait : (s.dropTag g).waiter n (isRemote g) = some (pre, r)) (hstall : r.stall = .remote op g) :
    s.endRemote g x = (s.dropTag g).memAnswer n pre op x := by
  simp only [State.endRemote, h, hwait, hstall]

theorem exec_rdr (hlen : b.length = 64) : exec (.rdr tag b) s =
    .next (s.endRemote tag.toNat (if byteAt b 0 = 0 then .val ((b.drop 8).take 16) else .bus)) := if_neg (not_not_intro hlen)

theorem exec_wra (hlen : b.length = 64) : exec (.wra tag b) s =
    .next (s.endRemote tag.toNat (if byteAt b 0 = 0 then .val [] else .bus)) := if_neg (not_not_intro hlen)

theorem exec_chainTimeout_of_no_tag (h : s.chain.tags.find? (fun y => y.1 == tag.toNat) = none) : exec (.chainTimeout tag) s = .next s := by
  show execChainTimeout tag s = _
  rw [execChainTimeout, h]

theorem exec_chainTimeout {x : Nat × Fin 16} (h : s.chain.tags.find? (fun y => y.1 == tag.toNat) = some x) : ∃ (u : State) (d : Nat),
    exec (.chainTimeout tag) s = .next (((u.count Reg.CHN_RTOCNT_COUNT 1).record 0x0804 0xFF d).endRemote tag.toNat .bus) ∧
    u = { s with freeCtr := u.freeCtr } := by
  show ∃ (u : State) (d : Nat), execChainTimeout tag s = _ ∧ _
  rw [execChainTimeout, h]
  dsimp only
  generalize (s.chain.ids.find? _).map _ = uid
  cases uid with
  | none => exact ⟨_, _, rfl, rfl⟩
  | some u => exact ⟨s, u.toNat, rfl, rfl⟩

theorem exec_translatedReadComplete {op : MemOp} {ok : Bool} (hrun : s.memRun e pre = some r) (hstall : r.stall = .hostRead op false) :
    exec (.translatedReadComplete e pre ok b) s = if ok then .next ((s.landed (.xlat e) false).memAnswer e pre op (.val b))
      else .next (((s.landed (.xlat e) false).recordAccess 0x0006 e
      ((s.landed (.xlat e) false).memAddr e pre op) false).memAnswer e pre op .bus) := by
  show execTranslatedReadComplete e pre ok b s = _
  simp only [execTranslatedReadComplete, hrun, hstall, Bool.false_eq_true, if_false]

/-- The engines that a SEV cell reaches: those it names whose personality has its PID. -/
def State.sevHit (s : State) (mask : BitVec 16) (pid : BitVec 8) : List Nat :=
  (List.range 16).filter (fun n => mask.getLsbD n && decide (s.engOwner n < 3) && s.get (Reg.PRS_ID_PID (s.engOwner n)) == pid.toNat)

theorem exec_sevCell_dropped {mask : BitVec 16} {line : Fin 4} {pid : BitVec 8} (h : s.etOpen = false ∨ s.sevHit mask pid = []) :
    exec (.sevCell mask line pid) s = .next (s.count Reg.CHN_DROP_EV 1) := by
  refine if_pos ?_
  rcases h with h | h
  · simp [h]
  · rw [State.sevHit] at h
    simp [h]

theorem exec_sevCell {mask : BitVec 16} {line : Fin 4} {pid : BitVec 8} (hopen : s.etOpen = true) (h : s.sevHit mask pid ≠ []) :
    exec (.sevCell mask line pid) s = .next ((s.sevHit mask pid).foldl (fun t n => t.register n (bit64 (34 + line.val))) s) := by
  rw [State.sevHit] at h
  refine if_neg ?_
  simp only [hopen, Bool.not_true, Bool.false_or, List.isEmpty_iff]
  exact h

end

end Sys2Proof.Machine

open Sys2Proof Sys2Proof.Machine

/-- Settles O48: a cell leaves by the link that `cellLink` gives, which no count of CHN_DROP touches. UNIT 0xFF and the DETAIL of
CHAIN_TIMEOUT are the model's log entry 54, the moment an input slot is free its entry 88. -/
theorem chainCells : Obligations.ChainCells := by
  intro l c vc h src tag b e pre mask line pid s
  refine ⟨fun hdown hk hop => (exec_cellForward_lost hdown).trans (congrArg _ (if_pos ⟨hk, hop⟩)),
    fun hdown hno => (exec_cellForward_lost hdown).trans (congrArg _ (if_neg hno)), exec_cellForward_header, exec_cellForward_stays,
    fun ⟨hup, hop, hpass, htree⟩ hfar => ?_, fun ⟨hup, hop, hpass, htree⟩ hhops hroute => ?_, fun ⟨hup, hop, hpass, htree⟩ hhops hroute => ?_,
    fun k hup hop hpass htree _ hhops hk hbody => exec_cellForward_tree hup hop hpass htree hhops hk hbody, fun x => State.freed_of_credited,
    rfl, fun hlen hopen => ⟨exec_etRd hlen hopen, exec_etWr hlen hopen⟩, exec_etRequests_closed, fun hlen hno => ?_,
    fun r op hlen htag hwait hstall => ?_, fun x => exec_chainTimeout, fun r op hrun hstall =>
      ⟨exec_translatedReadComplete hrun hstall, exec_translatedReadComplete hrun hstall⟩, exec_sevCell_dropped, exec_sevCell⟩
  · rw [exec_cellForward_dropped hup hop hpass htree (State.cellLink_far hfar), if_pos hfar]
    rfl
  · rw [exec_cellForward_dropped hup hop hpass htree (State.cellLink_noRoute htree hroute), if_neg (Nat.not_le.mpr hhops)]
    rfl
  · exact ⟨exec_cellForward_routed (by decide) hup hop hpass htree hhops hroute, exec_cellForward_routed (by decide) hup hop hpass htree hhops hroute⟩
  · rw [exec_rdr hlen, exec_wra hlen, State.endRemote_of_no_tag _ hno, State.endRemote_of_no_tag _ hno]
    exact ⟨rfl, rfl, exec_chainTimeout_of_no_tag hno⟩
  · rw [exec_rdr hlen, exec_wra hlen, State.endRemote_of_waiter _ htag hwait hstall, State.endRemote_of_waiter _ htag hwait hstall]
    exact ⟨rfl, rfl⟩
end

section
/-!
SUPPORT. TT slots, SYNC cells and link delay (R430, R431, R434 to R436, R439).
-/

namespace Sys2Proof.Machine

/-! ## Slots -/

section

variable {s : State} {l : Fin 4} {i : Fin 512} {b : List Byte} {t : TtSlot}

theorem exec_ttSlots_of_none (h : s.activeSlots[i.val]? = none) : exec (.ttSlineRead i) s = .next s ∧ exec (.ttSlot i) s = .next s := by
  refine ⟨?_, ?_⟩
  · show execTtSlineRead i s = _
    rw [execTtSlineRead, h]
  · show execTtSlot i s = _
    rw [execTtSlot, h]

theorem exec_ttCell_of_none (hlen : b.length = 64) (h : s.ttAt i.val = none) : exec (.ttCell l i b) s = .next s := by
  refine (if_neg (not_not_intro hlen)).trans ?_
  rw [h]

theorem State.ttAt_of_active (h : s.activeSlots[i.val]? = some t) (hdue : s.hearth.nominal + t.offset ≤ s.now ∨ s.chain.prevTick = none) :
    s.ttAt i.val = some (t, s.hearth.nominal + t.offset) := by
  simp only [State.ttAt, h, Option.map_some]
  refine if_pos (hdue.imp_right fun hnone => ?_)
  rw [hnone]
  rfl

theorem exec_ttSlineRead {d : List Byte} {u : State} (h : s.activeSlots[i.val]? = some t) (hsrc : t.src = s.chnId)
    (hid : s.on Reg.CHN_STAT_IDV = true) (hread : s.hoardRead 25 (t.sline * 64) 64 = (.ok d, u)) : exec (.ttSlineRead i) s =
      .next (u.modChain (fun c => { c with ttData := (i.val, d.take t.plen) :: c.ttData.filter (fun x => x.1 != i.val) })) := by
  show execTtSlineRead i s = _
  simp only [execTtSlineRead, h, hread]
  exact if_neg (by simp [hsrc, hid])

/-- What the source's slot may depend on: its place, its personality, the device's integration, the Chain's state and a route. -/
def State.ttMaySend (s : State) (t : TtSlot) : Prop :=
  t.src = s.chnId ∧ s.pidOwns t.pid (t.sline * 64) = true ∧ (s.integ = true ∨ s.chain.ttTail = true) ∧ s.etOpen = true ∧ s.rtValid t.dst = true

/-- The line that was read for slot i is used up. -/
def State.ttTaken (s : State) (i : Nat) : State := s.modChain (fun c => { c with ttData := c.ttData.filter (fun x => x.1 != i) })

theorem exec_ttSlot {d : List Byte} (h : s.activeSlots[i.val]? = some t) (hdata : s.chain.ttData.find? (fun x => x.1 == i.val) = some (i.val, d)) :
    (s.ttMaySend t → exec (.ttSlot i) s = .next ((s.ttTaken i).enqueueQ ((s.ttTaken i).rtLink t.dst)
      (ownCell t.strike none (cellOf 0 0 0 t.dst (s.ttTaken i).chnId t.plen 0 (.bytes (pad64 d)))))) ∧
    (¬ s.ttMaySend t → exec (.ttSlot i) s = .next (s.ttTaken i)) := by
  refine ⟨fun hok => ?_, fun hno => ?_⟩ <;> show execTtSlot i s = _ <;> simp only [execTtSlot, h, hdata]
  · exact if_pos hok
  · exact if_neg hno

theorem State.ttMiss_of_untagged {k start : Nat} (h : t.strike = false) : s.ttMiss k t start = s := if_neg (by simp [h])

theorem exec_ttCell {start : Nat} (hlen : b.length = 64) (hat : s.ttAt i.val = some (t, start)) (hdst : t.dst = s.chnId) (hopen : s.etOpen = true)
    (hdeng : t.deng = 0xFF) (hstrike : t.strike = false) :
    (s.pidReaches t.pid (t.dline * 64) = true → exec (.ttCell l i b) s = .next (s.hoardWrite 25 (t.dline * 64) (b.take t.plen)).2) ∧
    (s.pidReaches t.pid (t.dline * 64) = false → exec (.ttCell l i b) s = .next (s.count Reg.CHN_TTSTAT_DROP 1)) := by
  have hcell : exec (.ttCell l i b) s = if !s.pidReaches t.pid (t.dline * 64) then .next (s.count Reg.CHN_TTSTAT_DROP 1)
      else .next (s.hoardWrite 25 (t.dline * 64) (b.take t.plen)).2 := by
    refine (if_neg (not_not_intro hlen)).trans ?_
    simp only [hat]
    rw [if_neg (by simp [hdst, hopen]), State.ttMiss_of_untagged hstrike]
    simp only [hdeng, beq_self_eq_true, Bool.true_or, Bool.not_true, Bool.or_false, if_true]
  rw [hcell]
  exact ⟨fun h => if_neg (by simp [h]), fun h => if_pos (by simp [h])⟩

end

/-! ## Link delay (R436) -/

section

variable {s : State} {l : Fin 4} {t1 t2 t3 : BitVec 92} {c : Cell}

theorem exec_delays_up (hup : s.linkState l = 3) :
    exec (.delayMeasure l) s = .next (s.enqueueQ l (ownCell false none (cellOf 2 0 14 0 s.chnId 64 0 (.dly s.tb 0 0)))) ∧
    exec (.dlyreq l t1) s = .next (s.enqueueQ l (ownCell false none (cellOf 2 1 15 0 s.chnId 64 0 (.dly t1 s.tb s.tb)))) :=
  ⟨if_neg (not_not_intro hup), if_neg (not_not_intro hup)⟩

theorem exec_delays_down (hdown : s.linkState l ≠ 3) :
    exec (.delayMeasure l) s = .next s ∧ exec (.dlyreq l t1) s = .next s ∧ exec (.dlyrsp l t1 t2 t3) s = .next s :=
  ⟨if_pos hdown, if_pos hdown, if_pos (.inl hdown)⟩

theorem State.stampDly_request (hbody : c.body = .dly t1 t2 t3) (hop : c.op = 14) : s.stampDly l c =
    ({ c with body := .dly s.tb 0 0 }, s.modLink l (fun x => { x with dly := some s.tb.toNat })) := by
  simp only [State.stampDly, hbody, hop, if_true]

theorem State.stampDly_answer (hbody : c.body = .dly t1 t2 t3) (hop : c.op = 15) : s.stampDly l c = ({ c with body := .dly t1 t2 s.tb }, s) := by
  simp only [State.stampDly, hbody, hop, Nat.reduceEqDiff, if_false]

theorem exec_dlyrsp (h : s.Inv) (hup : s.linkState l = 3) (hreq : (s.linkD l).dly = some t1.toNat) : ∃ t, exec (.dlyrsp l t1 t2 t3) s = .next t ∧
    (t.linkD l).dly = none ∧
    t.get (Reg.CHN_L_DLY_DLY l) = min 0xFFFF (((s.tb.toNat : Int) - t1.toNat - (t3.toNat - t2.toNat)) / 2 / 2 ^ 24).toNat := by
  refine ⟨_, if_neg (by simp [hup, hreq, linkUp]), ?_, ?_⟩
  · show ((s.modLink l (fun x => { x with dly := none })).linkD l).dly = none
    rw [State.linkD_modLink_self]
  · have hsmall : ∀ n, min 0xFFFF n < 2 ^ (Reg.CHN_L_DLY_DLY l).w := fun n => (Nat.min_le_left 0xFFFF n).trans_lt (by simp [Reg.CHN_L_DLY_DLY])
    exact (State.Inv.modLink h).get_set_self _ _ (by simp [Fld.ok, Reg.CHN_L_DLY_DLY]) (hsmall _)

end

/-! ## SYNC cells (R434, R435, R439) -/

section

variable {s : State} {l : Fin 4} {j : Fin 8} {b : List Byte} {way : SyncHop} {w : W32}

theorem exec_syncSlot_of_none (h : s.fixs j = none) : exec (.syncSlot j) s = .next s := by
  show execSyncSlot j s = _
  rw [execSyncSlot, h]

theorem exec_syncSlot (h : s.fixs j = some w) (hstate : s.chnState = 4 ∨ (j = 0 ∧ s.chnState = 5)) (hrun : s.running = true)
    (hown : if j = 0 then s.isMgr = true else fieldGet w 23 5 = s.chnId ∧ s.integ = true) : exec (.syncSlot j) s =
      .next (s.each 4 (fun k t => if t.linkState k = 3 then
        t.send (.cell k (cellOf 2 0 8 0 t.chnId 64 0 (.bytes (s.syncBytes j))) false) else t)) := by
  show execSyncSlot j s = _
  simp only [execSyncSlot, h]
  refine if_pos ?_
  rcases eq_or_ne j 0 with rfl | hj
  · rw [if_pos rfl] at hown
    rcases hstate with hstate | ⟨-, hstate⟩ <;> simp [State.ownSync, hown, hstate, hrun, chnConfigured, chnQuarantine]
  · have hval : j.val ≠ 0 := fun h0 => hj (Fin.ext h0)
    rw [if_neg hj] at hown
    have h4 := hstate.resolve_right fun h0 => hj h0.1
    simp [State.ownSync, hown.1, hown.2, h4, hrun, chnConfigured, hval]

theorem exec_sync_again (hlen : b.length = 64) (hseen : s.chain.seen.contains (byteAt b 52, leAt b 8 8) = true) : exec (.sync l way b) s = .next s :=
  (if_neg (not_not_intro hlen)).trans (if_pos (.inr (.inr hseen)))

end

end Sys2Proof.Machine
end

section
/-!
SUPPORT. What a SYNC leaves: its deviation is written and the slot counted as seen (R434, R439); and the statement on slots and SYNCs.
-/

namespace Sys2Proof.Machine

section

variable {s : State} {l : Fin 4} {j : Fin 8} {b : List Byte} {way : SyncHop} {w : W32}

/-- Sends change only what has been put out. -/
theorem State.each_send (s : State) (n : Nat) (f : Nat → State → State) (h : ∀ i t, ∃ o, f i t = { t with out := o }) :
    ∃ o, s.each n f = { s with out := o } := by
  unfold State.each
  induction List.range n generalizing s with
  | nil => exact ⟨s.out, rfl⟩
  | cons i r ih =>
    obtain ⟨o1, h1⟩ := h i s
    obtain ⟨o2, h2⟩ := ih (f i s)
    exact ⟨o2, by rw [List.foldl_cons, h2, h1]⟩

/-- The deviation of slot j by a SYNC that has come: of its arrival from the slot's nominal place, its correction and the link's delay taken
off (R439). -/
def State.syncDeviation (s : State) (delay : Nat) (w : W32) (b : List Byte) : Int :=
  let n := leAt b 8 8
  let corr := (BitVec.ofNat 64 (leAt b 32 8)).toInt
  let base : Int := if s.running = true then s.hearth.nominal + ((n : Int) - s.tick) * s.tp else (leAt b 0 8 : Nat)
  ((s.tb.toNat : Int) - (base + fieldGet w 0 23 * 10) * 2 ^ 28 - corr * 2 ^ 12 - delay * 2 ^ 24) / 2 ^ 24

/-- The SYNC of slot j and tick n is seen. -/
def State.syncSeen (s : State) (j n : Nat) : State := s.modChain (fun c => { c with seen := (j, n) :: c.seen })

/-- The deviation d is slot j's. -/
def State.syncNoted (s : State) (j : Nat) (d : Int) : State :=
  (s.set (Reg.CHN_SDEV_DEV j) (BitVec.ofInt 24 d).toNat).set (Reg.CHN_SDEV_V j) 1

/-- What is done with the deviation of a SYNC that is noted: it is too late for its tick, or joins the tick's values (R440). -/
def State.syncValued (u : State) (j n : Nat) (d : Int) (w : W32) (b : List Byte) : State :=
  if !u.running then u
  else if n < u.tick ∨ (n = u.tick ∧ u.phase = 3) then u.count Reg.CHN_TTSTAT_SLATE 1
  else
    let t := if w.getLsbD 28 && byteAt b 19 % 2 == 1 then u.modChain (fun c => { c with vals := c.vals ++ [(j, n, d)] }) else u
    if j = 0 then t.modChain (fun c => { c with val0 := c.val0.filter (fun v => v.1 != n) ++ [(n, d)] }) else t

theorem State.syncNoted_facts (h : s.Inv) (d : Int) : (s.syncNoted j d).get (Reg.CHN_SDEV_DEV j) = (BitVec.ofInt 24 d).toNat ∧
    (s.syncNoted j d).get (Reg.CHN_SDEV_V j) = 1 := by
  refine ⟨((h.set).get_set_of_apart _ _ _ ?_ ?_).trans (h.get_set_self _ _ ?_ ?_), (h.set).get_set_self _ _ ?_ ?_⟩
  · simp [Fld.ok, Reg.CHN_SDEV_V]
  · simp [Fld.apart, Reg.CHN_SDEV_V, Reg.CHN_SDEV_DEV]
  · simp [Fld.ok, Reg.CHN_SDEV_DEV]
  · exact BitVec.isLt _
  · simp [Fld.ok, Reg.CHN_SDEV_V]
  · simp [Reg.CHN_SDEV_V]

/-- The values leave the slot's deviation and what has been seen. -/
theorem State.syncValued_frame (u : State) (j n : Nat) (d : Int) (w : W32) (b : List Byte) :
    (∀ f : Fld, f.addr ≠ Reg.CHN_TTSTAT_SLATE.addr → (u.syncValued j n d w b).get f = u.get f) ∧
    (u.syncValued j n d w b).chain.seen = u.chain.seen := by
  unfold State.syncValued
  split
  · exact ⟨fun _ _ => rfl, rfl⟩
  · split
    · exact ⟨fun f hf => State.get_set_of_ne _ _ _ _ hf, rfl⟩
    · dsimp only
      split <;> split <;> exact ⟨fun _ _ => rfl, rfl⟩

/-- The cell goes on by every other UP link, with the time it has spent here added to its correction (R435). -/
def State.syncSent (s : State) (l : Fin 4) (way : SyncHop) (b : List Byte) : State :=
  let corr := (BitVec.ofNat 64 (leAt b 32 8)).toInt
  let out := BitVec.ofInt 64 (corr + s.get (Reg.CHN_L_DLY_DLY l) * 2 ^ 12 + way.res.toInt)
  let fwd := b.take 32 ++ leBytes 8 out.toNat ++ b.drop 40
  s.each 4 (fun i t => if t.linkState i = linkUp ∧ i ≠ l.val ∧ s.chnState ≠ chnQuarantine then
    t.send (.cell i { (cellOf 2 0 8 0 way.src 64 0 (.bytes fwd)) with hops := way.hops + 1 } false) else t)

theorem State.syncSent_frame (s : State) : ∃ o, s.syncSent l way b = { s with out := o } := by
  refine s.each_send _ _ fun i t => ?_
  dsimp only
  split
  exacts [⟨_, rfl⟩, ⟨t.out, rfl⟩]

theorem execSync_eq (hlen : b.length = 64) : execSync l way b s =
    if 8 ≤ byteAt b 52 ∨ s.linkState l ≠ linkUp ∨ s.chain.seen.contains (byteAt b 52, leAt b 8 8) then .next s
    else
      let t := (s.syncSeen (byteAt b 52) (leAt b 8 8)).syncSent l way b
      match t.fixs (byteAt b 52) with
      | none => .next t
      | some w =>
        if (t.chnState ≠ chnConfigured ∧ t.chnState ≠ chnQuarantine) ∨ t.ownSync (byteAt b 52) w then .next t
        else
          let d := t.syncDeviation (s.get (Reg.CHN_L_DLY_DLY l)) w b
          let u := (t.syncNoted (byteAt b 52) d).syncValued (byteAt b 52) (leAt b 8 8) d w b
          .next (if byteAt b 52 = 0 then u.slot0 b (leAt b 8 8) (leAt b 0 8) d else u) := by
  unfold execSync
  rw [if_neg (not_not_intro hlen)]
  rfl

theorem exec_sync (hlen : b.length = 64) (hup : s.linkState l = 3) (hj : byteAt b 52 = j.val)
    (hnew : s.chain.seen.contains (j.val, leAt b 8 8) = false) (hw : s.fixs j = some w) (hstate : s.chnState = 4 ∨ s.chnState = 5)
    (hown : s.ownSync j w = false) : ∃ o, exec (.sync l way b) s =
      let d := s.syncDeviation (s.get (Reg.CHN_L_DLY_DLY l)) w b
      let u := (({ s.syncSeen j (leAt b 8 8) with out := o } : State).syncNoted j d).syncValued j (leAt b 8 8) d w b
      .next (if j.val = 0 then u.slot0 b (leAt b 8 8) (leAt b 0 8) d else u) := by
  obtain ⟨o, ho⟩ := (s.syncSeen j (leAt b 8 8)).syncSent_frame (l := l) (way := way) (b := b)
  have hfixs : ({ s.syncSeen j (leAt b 8 8) with out := o } : State).fixs j = some w := hw
  have hgoes : ¬ ((s.chnState ≠ chnConfigured ∧ s.chnState ≠ chnQuarantine) ∨ s.ownSync j w = true) := by
    rw [hown]
    rintro (⟨h4, h5⟩ | h)
    exacts [hstate.elim h4 h5, nomatch h]
  have hfresh : ¬ (8 ≤ j.val ∨ s.linkState l ≠ linkUp ∨ s.chain.seen.contains (j.val, leAt b 8 8) = true) := by
    rintro (h | h | h)
    exacts [absurd h (by omega), h hup, Bool.noConfusion (hnew.symm.trans h)]
  refine ⟨o, ?_⟩
  show execSync l way b s = _
  rw [execSync_eq hlen, hj, if_neg hfresh, ho]
  dsimp only
  rw [hfixs]
  exact if_neg hgoes

end

end Sys2Proof.Machine

open Sys2Proof Sys2Proof.Machine

/-- Settles O49: each command is its one branch; a SYNC's deviation stands in its slot's register, which nothing that follows in the branch
touches. The floor of a deviation is the model's log entry 24, a TT cell sent after integration is lost its entry 90. -/
theorem chainSlotsAndSync : Obligations.ChainSlotsAndSync := by
  intro l i j b way t1 t2 t3 s
  refine ⟨exec_ttSlots_of_none, exec_ttCell_of_none, fun t => State.ttAt_of_active, fun t d u => exec_ttSlineRead, fun t d => exec_ttSlot,
    fun t start => exec_ttCell, fun w => exec_syncSlot, exec_syncSlot_of_none, fun hlen _ => exec_sync_again hlen,
    fun w h hlen hup hj hnew hw hstate hown => ?_, exec_delays_up, fun c hbody hop => ?_, fun c => State.stampDly_answer, exec_delays_down,
    exec_dlyrsp⟩
  · obtain ⟨o, ho⟩ := exec_sync (way := way) hlen hup hj hnew hw hstate hown
    have hseen : ({ s.syncSeen j (leAt b 8 8) with out := o } : State).Inv := .frame h rfl rfl rfl
    obtain ⟨hdev, hv⟩ := State.syncNoted_facts (j := j) hseen (s.syncDeviation (s.get (Reg.CHN_L_DLY_DLY l)) w b)
    obtain ⟨hget, hkeeps⟩ := State.syncValued_frame
      (({ s.syncSeen j (leAt b 8 8) with out := o } : State).syncNoted j (s.syncDeviation (s.get (Reg.CHN_L_DLY_DLY l)) w b)) j (leAt b 8 8)
      (s.syncDeviation (s.get (Reg.CHN_L_DLY_DLY l)) w b) w b
    have hslate : ∀ n, 0x88a0 + 0x4 * n ≠ Reg.CHN_TTSTAT_SLATE.addr := fun n => by
      simp only [Reg.CHN_TTSTAT_SLATE]
      omega
    refine ⟨_, ho.trans ?_, (hget _ (hslate j)).trans hdev, (hget _ (hslate j)).trans hv, ?_⟩
    · exact congrArg Host.Outcome.next (if_congr (by rw [Fin.ext_iff]; rfl) rfl rfl)
    · rw [hkeeps]
      exact List.mem_cons_self
  · rw [State.stampDly_request hbody hop]
    exact ⟨rfl, rfl⟩
end

section
/-!
SUPPORT. Modes and runs (R425, R450, R451, R453, R455, R458), and the statement on them.
-/

namespace Sys2Proof.Machine

/-! ## Proposals (R450) -/

section

variable {s : State} {w : Who} {v : W32}

/-- A proposal of mode m made now: of this tick while it gathers, else of the next. -/
def State.newProposal (s : State) (m : Nat) : Proposal :=
  { mode := m, k := (if s.running = true ∧ s.phase = 0 then s.tick else s.tick + 1), sent := false, ready := [], no := none, req := none,
    abort := false }

theorem State.writeMctl_of_not (h : fieldGet v 3 1 = 0 ∨ s.isMgr = false ∨ s.chain.proposal ≠ none) :
    s.writeMctl v = s.set Reg.CHN_MCTL_MODE (fieldGet v 0 3) := by
  refine if_neg fun ⟨hgo, hmay⟩ => ?_
  have hmgr : (s.set Reg.CHN_MCTL_MODE (fieldGet v 0 3)).isMgr = s.isMgr := by
    rw [State.isMgr, State.on, State.get_set_of_ne _ _ _ _ (by decide), State.isMgr, State.on]
  rw [State.mayPropose, hmgr, Bool.and_eq_true, Option.isNone_iff_eq_none] at hmay
  rcases h with h | h | h
  · omega
  · simp [h] at hmay
  · exact h hmay.2

theorem State.writeMctl_go (h : s.Inv) (hgo : fieldGet v 3 1 = 1) (hmgr : s.isMgr = true) (hnone : s.chain.proposal = none) :
    (s.writeMctl v).get Reg.CHN_MSTAT_VOTING = 1 ∧ (s.writeMctl v).get Reg.CHN_MSTAT_PNUM = (s.get Reg.CHN_MSTAT_PNUM + 1) % 256 ∧
    (s.writeMctl v).chain.proposal = some (s.newProposal (fieldGet v 0 3)) := by
  have h1 := h.set (f := Reg.CHN_MCTL_MODE) (v := fieldGet v 0 3)
  have h2 := h1.set (f := Reg.CHN_MSTAT_PNUM) (v := (s.set Reg.CHN_MCTL_MODE (fieldGet v 0 3)).get Reg.CHN_MSTAT_PNUM + 1)
  have hmay : (s.set Reg.CHN_MCTL_MODE (fieldGet v 0 3)).mayPropose = true := by
    rw [State.mayPropose, State.isMgr, State.on, State.get_set_of_ne _ _ _ _ (by decide), ← State.on, ← State.isMgr, hmgr]
    exact Option.isNone_iff_eq_none.mpr hnone
  have heq : s.writeMctl v = (s.set Reg.CHN_MCTL_MODE (fieldGet v 0 3)).propose (fieldGet v 0 3) none := by
    unfold State.writeMctl
    exact if_pos ⟨hgo, hmay⟩
  rw [heq, State.propose]
  refine ⟨?_, ?_, ?_⟩
  · rw [State.get_modChain, h2.get_set_self _ _ (by decide) (by decide)]
  · rw [State.get_modChain, h2.get_set_of_apart _ _ _ (by decide) (by decide), State.get_set_self _ _ _ h1.regsWf (by decide),
      State.get_set_of_ne _ _ _ _ (by decide)]
    rfl
  · have htick : (s.set Reg.CHN_MCTL_MODE (fieldGet v 0 3)).tick = s.tick := by
      rw [State.tick, State.word64_set_of_ne _ _ _ _ _ (by decide) (by decide), State.tick]
    have hrun : (s.set Reg.CHN_MCTL_MODE (fieldGet v 0 3)).running = s.running := by
      rw [State.running, State.on, State.get_set_of_ne _ _ _ _ (by decide), State.running, State.on]
    have hphase : (s.set Reg.CHN_MCTL_MODE (fieldGet v 0 3)).phase = s.phase := by
      rw [State.phase, State.get_set_of_ne _ _ _ _ (by decide), State.phase]
    simp only [State.newProposal, State.modChain, htick, hrun, hphase, Bool.and_eq_true, beq_iff_eq]

end

/-! ## Votes (R451, R452) -/

section

variable {s : State} {m : Fin 8} {hash : BitVec 64} {pnum : BitVec 8} {src : Fin 32} {why : Fin 8} {cmd : Fin 3} {target : BitVec 64}
  {ver tp mask : W32} {p : Proposal}

theorem exec_propose (hmgr : s.isMgr = false) (hid : s.on Reg.CHN_STAT_IDV = true) : exec (.propose m hash pnum) s =
    .next ((s.modChain (fun c => { c with voted := if s.voteReason m hash = 0 then some (s.tick + 2) else c.voted })).sendMgmt 1 10 0
      (.vote pnum.toNat (s.voteReason m hash))) := if_neg (by simp [hmgr, hid])

theorem exec_manager_cells (hmgr : s.isMgr = true) : exec (.propose m hash pnum) s = .next s ∧ exec (.mcommit m pnum) s = .next s ∧
    exec (.mabort pnum) s = .next s ∧ exec (.run cmd target hash ver tp mask) s = .next s :=
  ⟨if_pos (by simp [hmgr]), if_pos (by simp [hmgr]), if_pos hmgr, if_pos (by simp [hmgr])⟩

/-- A device that votes READY holds the mode, by the same table, is integrated, and neither in quarantine nor in a Quench. -/
theorem State.voteReason_eq_zero {n : Nat} (h : s.voteReason n hash = 0) : s.holdsMode n = true ∧ hash = s.modeHash n ∧ s.integ = true ∧
    s.on Reg.CHN_SSTAT_QUAR = false ∧ s.on Reg.PWR_QSTAT_ACTIVE = false := by
  unfold State.voteReason at h
  simp only [Bool.not_eq_true', ne_eq] at h
  split at h
  · exact nomatch h
  next hholds =>
  split at h
  · exact nomatch h
  next hhash =>
  split at h
  · exact nomatch h
  split at h
  · exact nomatch h
  split at h
  · exact nomatch h
  next hinteg =>
  split at h
  · exact nomatch h
  next hquiet =>
  simp only [Bool.or_eq_true, not_or, Bool.not_eq_true] at hquiet
  exact ⟨by simpa using hholds, not_not.mp hhash, by simpa using hinteg, hquiet⟩

theorem exec_vote_of_none (h : s.chain.proposal = none) : exec (.vote src pnum why) s = .next s := by
  show execVote src pnum why s = _
  rw [execVote, h]

/-- The open proposal with one more vote. -/
def Proposal.withVote (p : Proposal) (src : Fin 32) (why : Fin 8) : Proposal :=
  if why = 0 then { p with ready := src.val :: p.ready.filter (fun i => i != src.val) } else { p with no := p.no.or (some (src.val, why.val)) }

theorem exec_vote (h : s.chain.proposal = some p) (hmgr : s.isMgr = true) (hsent : p.sent = true) (hnum : s.get Reg.CHN_MSTAT_PNUM = pnum.toNat) :
    exec (.vote src pnum why) s = .next (s.modChain (fun c => { c with proposal := some (p.withVote src why) })) := by
  show execVote src pnum why s = _
  rw [execVote, h]
  dsimp only
  rw [if_neg (by simp [hmgr, hsent, hnum]), Proposal.withVote]
  cases p.no <;> rfl

/-! ## Commits and aborts (R453) -/

/-- A commit that comes before Settle and outside a Quench is held for the next tick. -/
theorem State.holdCommit_of_open {n : Nat} (hq : s.on Reg.PWR_QSTAT_ACTIVE = false) (hphase : s.phase < 3) : s.holdCommit n =
    ((s.set Reg.CHN_MSTAT_PEND n).set Reg.CHN_MSTAT_PV 1).modChain (fun c => { c with commit := some (n, s.tick + 1) }) := by
  have hno : ¬ ((s.on Reg.PWR_QSTAT_ACTIVE && !s.isMgr) || decide (3 ≤ s.phase)) = true := by
    simp only [hq, Bool.false_and, Bool.false_or, decide_eq_true_eq]
    omega
  unfold State.holdCommit
  dsimp only
  rw [if_neg hno]
  simp only [hq, Bool.false_eq_true, if_false]

theorem exec_mcommit (h : s.Inv) (hmgr : s.isMgr = false) (hid : s.on Reg.CHN_STAT_IDV = true) (hq : s.on Reg.PWR_QSTAT_ACTIVE = false)
    (hphase : s.phase < 3) : ∃ t, exec (.mcommit m pnum) s = .next t ∧ t.get Reg.CHN_MSTAT_PEND = m.val ∧ t.get Reg.CHN_MSTAT_PV = 1 ∧
      t.get Reg.CHN_MSTAT_PNUM = pnum.toNat ∧ t.chain.commit = some (m.val, s.tick + 1) := by
  have h1 := h.set (f := Reg.CHN_MSTAT_PNUM) (v := pnum.toNat)
  have h2 := h1.set (f := Reg.CHN_MSTAT_PEND) (v := m.val)
  have hquiet : (s.set Reg.CHN_MSTAT_PNUM pnum.toNat).on Reg.PWR_QSTAT_ACTIVE = false := by
    rw [State.on, State.get_set_of_ne _ _ _ _ (by decide), ← State.on, hq]
  have hearly : (s.set Reg.CHN_MSTAT_PNUM pnum.toNat).phase < 3 := by
    rwa [State.phase, State.get_set_of_ne _ _ _ _ (by decide), ← State.phase]
  have htick : (s.set Reg.CHN_MSTAT_PNUM pnum.toNat).tick = s.tick := by
    rw [State.tick, State.word64_set_of_ne _ _ _ _ _ (by decide) (by decide), State.tick]
  refine ⟨_, (if_neg (by simp [hmgr, hid])).trans (congrArg Host.Outcome.next (State.holdCommit_of_open hquiet hearly)), ?_, ?_, ?_, ?_⟩
  · rw [State.get_modChain, h2.get_set_of_apart _ _ _ (by decide) (by decide)]
    exact h1.get_set_self _ _ (by decide) m.isLt
  · rw [State.get_modChain, h2.get_set_self _ _ (by decide) (by decide)]
  · rw [State.get_modChain, h2.get_set_of_apart _ _ _ (by decide) (by decide), h1.get_set_of_apart _ _ _ (by decide) (by decide)]
    exact h.get_set_self _ _ (by decide) pnum.isLt
  · show some (m.val, (s.set Reg.CHN_MSTAT_PNUM pnum.toNat).tick + 1) = _
    rw [htick]

theorem exec_mabort (h : s.Inv) (hmgr : s.isMgr = false) : ∃ t, exec (.mabort pnum) s = .next t ∧ t.get Reg.CHN_MSTAT_PV = 0 ∧
    t.chain.commit = none :=
  ⟨_, if_neg (by simp [hmgr]), h.get_set_self _ _ (by decide) (by decide), rfl⟩

/-! ## RUN cells (R425, R455) -/

theorem exec_run_disagrees (hmgr : s.isMgr = false) (hid : s.on Reg.CHN_STAT_IDV = true)
    (h : hash ≠ s.cfgHash ∨ ver.toNat ≠ s.get Reg.CHN_VER_VER) :
    exec (.run cmd target hash ver tp mask) s = .next (s.mgrTpCheck tp.toNat).quarantine :=
  (if_neg (by simp [hmgr, hid])).trans (if_pos h)

theorem State.run_mgrTpCheck (n : Nat) : (s.mgrTpCheck n).chain.run = s.chain.run := by
  unfold State.mgrTpCheck
  extract_lets t
  split <;> rfl

theorem exec_run_held (hmgr : s.isMgr = false) (hid : s.on Reg.CHN_STAT_IDV = true) (hhash : hash = s.cfgHash)
    (hver : ver.toNat = s.get Reg.CHN_VER_VER) (hcmd : cmd ≠ 2) : ∃ t, exec (.run cmd target hash ver tp mask) s = .next t ∧
      t.chain.run = s.chain.run ++ [{ cmd := cmd.val + 1, target := target.toNat }] := by
  refine ⟨_, (if_neg (by simp [hmgr, hid])).trans ((if_neg (by simp [hhash, hver])).trans (if_neg fun h => hcmd h.1)), ?_⟩
  show (s.mgrTpCheck tp.toNat).chain.run ++ _ = _
  rw [State.run_mgrTpCheck]

theorem State.writeRunctl_mgr (hmgr : s.isMgr = true) (hstate : s.chnState = 4) :
    s.writeRunctl 1 = s.sendRun 1 0 ∧ s.writeRunctl 2 = s.sendRun 2 0 := by
  have hno : ¬ (!s.isMgr || s.chnState != chnConfigured) = true := by simp [hmgr, hstate, chnConfigured]
  exact ⟨(if_neg hno).trans ((if_neg (by decide)).trans (if_pos (by decide))), (if_neg hno).trans (if_pos (by decide))⟩

theorem State.writeRunctl_of_not_mgr {v : W32} (hmgr : s.isMgr = false) : s.writeRunctl v = s := if_pos (by simp [hmgr])

end

end Sys2Proof.Machine

open Sys2Proof Sys2Proof.Machine

/-- Settles O50. That a RUN command is held beside those for other ticks is the model's log entry 90. -/
theorem modesAreVoted : Obligations.ModesAreVoted := by
  intro w v m hash pnum src why cmd target ver tp mask s h
  refine ⟨fun hown hgo hmgr hnone => ?_, fun hown hno => ?_, exec_propose, exec_manager_cells, State.voteReason_eq_zero,
    fun p hp hmgr hsent hnum => ⟨?_, fun hwhy hno => ?_⟩, exec_vote_of_none, exec_mcommit h, exec_mabort h, exec_run_disagrees, exec_run_held,
    fun hown hmgr hstate => ?_, fun hown hmgr => ?_⟩
  · exact ⟨_, congrArg Host.Outcome.next (State.owned_of_open hown _), State.writeMctl_go h hgo hmgr hnone⟩
  · exact congrArg Host.Outcome.next ((State.owned_of_open hown _).trans (State.writeMctl_of_not hno))
  · exact ⟨_, exec_vote hp hmgr hsent hnum, rfl, rfl⟩
  · refine ⟨_, exec_vote hp hmgr hsent hnum, ?_, rfl⟩
    show some (p.withVote src why) = _
    rw [Proposal.withVote, if_neg hwhy, hno]
    rfl
  · obtain ⟨hstart, hstop⟩ := State.writeRunctl_mgr hmgr hstate
    exact ⟨congrArg Host.Outcome.next ((State.owned_of_open hown _).trans hstart),
      congrArg Host.Outcome.next ((State.owned_of_open hown _).trans hstop)⟩
  · exact ⟨congrArg Host.Outcome.next ((State.owned_of_open hown _).trans (State.writeRunctl_of_not_mgr hmgr)),
      congrArg Host.Outcome.next ((State.owned_of_open hown _).trans (State.writeRunctl_of_not_mgr hmgr))⟩
end

section
/-!
SUPPORT. What the channels leave alone when they follow their sources (R501, R511, R512): every register but those of the load switches, the
ledger's head and BLOCKED of the loops, and every part but the load switches and the ledger.
-/

namespace Sys2Proof.Machine

/-- A field that the channels, following their sources, do not write. -/
def Fld.OffLsw (f : Fld) : Prop :=
  ¬ (0xa000 ≤ f.addr ∧ f.addr < 0xb000) ∧ f.addr ≠ Reg.PWR_LEDHEAD_SEQ.addr ∧ ∀ n < 16, f.apart (Reg.SWG_n_STAT_BLOCKED n) = true

/-- From s to t only the load switches have changed: their own state and registers, BLOCKED of the loops, and the ledger. -/
structure State.LswFrame (s t : State) : Prop where
  gets : ∀ f : Fld, f.OffLsw → t.get f = s.get f
  parts : ∃ regs lsw ledger, t = { s with regs := regs, lsw := lsw, ledger := ledger }
  qSafe : t.lsw.qSafe = s.lsw.qSafe

section

variable {s t u : State} {c v : Nat}

theorem State.LswFrame.refl (s : State) : s.LswFrame s := ⟨fun _ _ => rfl, ⟨s.regs, s.lsw, s.ledger, rfl⟩, rfl⟩

theorem State.LswFrame.trans (h1 : s.LswFrame t) (h2 : t.LswFrame u) : s.LswFrame u := by
  refine ⟨fun f hf => (h2.gets f hf).trans (h1.gets f hf), ?_, h2.qSafe.trans h1.qSafe⟩
  obtain ⟨r, l, g, rfl⟩ := h1.parts
  obtain ⟨r', l', g', rfl⟩ := h2.parts
  exact ⟨r', l', g', rfl⟩

theorem State.LswFrame.ite {p : Prop} [Decidable p] (ht : s.LswFrame t) (hu : s.LswFrame u) : s.LswFrame (if p then t else u) := by
  split <;> assumption

theorem State.LswFrame.set {f : Fld} (hf : 0xa000 ≤ f.addr ∧ f.addr < 0xb000) : s.LswFrame (s.set f v) :=
  ⟨fun _ hg => State.get_set_of_ne _ _ _ _ fun h => hg.1 (h ▸ hf), ⟨_, s.lsw, s.ledger, rfl⟩, rfl⟩

theorem State.LswFrame.modChan {f : Chan → Chan} : s.LswFrame (s.modChan c f) := ⟨fun _ _ => rfl, ⟨s.regs, _, s.ledger, rfl⟩, rfl⟩

theorem State.LswFrame.modHb {f : HalfBridge → HalfBridge} : s.LswFrame (s.modHb c f) := ⟨fun _ _ => rfl, ⟨s.regs, _, s.ledger, rfl⟩, rfl⟩

theorem State.LswFrame.record {code unit detail : Nat} : s.LswFrame (s.record code unit detail) :=
  ⟨fun _ hg => State.get_record_of_ne _ _ _ _ _ hg.2.1, ⟨_, s.lsw, _, rfl⟩, rfl⟩

theorem State.LswFrame.foldl {α : Type} {f : State → α → State} (xs : List α) (hs : s.Inv) (hinv : ∀ (t : State) x, t.Inv → (f t x).Inv)
    (hf : ∀ x ∈ xs, ∀ t : State, t.Inv → t.LswFrame (f t x)) : s.LswFrame (xs.foldl f s) := by
  induction xs generalizing s with
  | nil => exact .refl s
  | cons x xs ih => exact (hf x (by simp) s hs).trans (ih (hinv s x hs) fun y hy => hf y (List.mem_cons_of_mem _ hy))

theorem State.LswFrame.each {n : Nat} {f : Nat → State → State} (hs : s.Inv) (hinv : ∀ i (t : State), t.Inv → (f i t).Inv)
    (hf : ∀ i < n, ∀ t : State, t.Inv → t.LswFrame (f i t)) : s.LswFrame (s.each n f) :=
  .foldl _ hs (fun t i => hinv i t) fun i hi => hf i (List.mem_range.mp hi)

/-- A register of a channel is one of the load switches'. -/
theorem chanReg_bounds {a : Nat} (hc : c < 12) (ha : 0xa100 ≤ a ∧ a < 0xa120) : 0xa000 ≤ a + 0x20 * c ∧ a + 0x20 * c < 0xb000 := by omega

theorem State.LswFrame.dropLoop : s.LswFrame (s.dropLoop c) := .ite .modChan (.refl s)

theorem State.LswFrame.setOn {b : Bool} (hc : c < 12) : s.LswFrame (s.setOn c b) := by
  unfold State.setOn
  have hon : s.LswFrame (s.setB (Reg.LSW_CH_STAT_ON c) b) := .set (chanReg_bounds hc (by decide))
  exact .ite hon (hon.trans (.set (chanReg_bounds hc (by decide))))

theorem State.LswFrame.drive {d : Drive} (hc : c < 12) : s.LswFrame (s.drive c d) := by
  unfold State.drive
  exact .trans .modChan (.setOn hc)

theorem State.LswFrame.refreshChan (hc : c < 12) : s.LswFrame (s.refreshChan c) := by
  unfold State.refreshChan
  exact .trans (.trans .dropLoop (.set (chanReg_bounds hc (by decide)))) (.drive hc)

theorem State.LswFrame.refreshPair (hc : c < 6) : s.LswFrame (s.refreshPair c) := by
  have hlo : c < 12 := by omega
  have hhi : c + 6 < 12 := by omega
  have hhb : ∀ {a}, 0xa300 ≤ a ∧ a < 0xa310 → 0xa000 ≤ a + 0x10 * c ∧ a + 0x10 * c < 0xb000 := fun ha => by omega
  have hoff : ∀ (t : State) (k : Nat), k < 12 → t.LswFrame (((t.set (Reg.LSW_CH_CMD_MODE k) 0).set (Reg.LSW_CH_STAT_SHOOT k) 1).modChan k
      (fun x => { x with eff := .off })) := fun t k hk =>
    ((State.LswFrame.set (chanReg_bounds hk (by decide))).trans (.set (chanReg_bounds hk (by decide)))).trans .modChan
  unfold State.refreshPair
  extract_lets hi lo s1 both off s2 s3 want side b s4 s5 side'
  have h1 : s.LswFrame s1 := .trans .dropLoop .dropLoop
  have h2 : s.LswFrame s2 := h1.trans (.ite (((hoff _ _ hlo).trans (hoff _ _ hhi)).trans .record) (.refl s1))
  have h4 : s.LswFrame s4 := (h2.trans .modHb).trans (.trans (.set (chanReg_bounds hlo (by decide))) (.set (chanReg_bounds hhi (by decide))))
  have hside : ∀ (t : State) (v d : Nat) (f : HalfBridge → HalfBridge),
      t.LswFrame (((t.set (Reg.LSW_HB_STAT_SIDE c) v).set (Reg.LSW_HB_STAT_DTACT c) d).modHb c f) := fun t v d f =>
    ((State.LswFrame.set (hhb (by decide))).trans (.set (hhb (by decide)))).trans .modHb
  have h5 : s4.LswFrame s5 := .ite .modHb (.ite (hside _ _ _ _) (.ite .modHb (hside _ _ _ _)))
  have h6 : ∀ (t : State) (d e : Drive), t.LswFrame ((t.drive c d).drive (c + 6) e) := fun t d e => .trans (.drive hlo) (.drive hhi)
  exact (h4.trans h5).trans (h6 _ _ _)

theorem State.LswFrame.markBlocked (h : s.Inv) : s.LswFrame s.markBlocked := by
  refine .each h (fun i t ht => .ite (.set ht) ht) fun i hi t ht => .ite ⟨fun f hf => ?_, ⟨_, t.lsw, t.ledger, rfl⟩, rfl⟩ (.refl t)
  exact ht.get_set_of_apart _ _ _ (by simp [Fld.ok, Reg.SWG_n_STAT_BLOCKED]) (hf.2.2 i hi)

theorem State.LswFrame.refreshLsw (h : s.Inv) : s.LswFrame s.refreshLsw :=
  (State.LswFrame.markBlocked h).trans (.each h.markBlocked (fun i t ht => .ite (.refreshPair ht) (.refreshChan (.refreshChan ht)))
    fun i hi t _ => .ite (.refreshPair hi) (.trans (.refreshChan (by omega)) (.refreshChan (by omega))))

end

end Sys2Proof.Machine
end

section
/-!
SUPPORT. Swage loops: samples, outputs, enable, AUTO, profile and band (R463, R465, R467, R472, R475 to R477, R481, R486), and the statement.
-/

namespace Sys2Proof.Machine

/-! ## The law (R472) -/

section

variable {st : Nat} {e h d : Int}

theorem lawWant_two_levels (hh : 0 ≤ h) :
    (lawWant false st e h d = 2 ↔ h < e ∨ (st = 2 ∧ -h ≤ e)) ∧ (lawWant false st e h d = 0 ↔ e < -h ∨ (st = 0 ∧ e ≤ h)) := by
  simp only [lawWant, Bool.not_false, if_true, stHigh, stLow]
  split
  · omega
  · split <;> omega

theorem lawWant_three_levels (hh : 0 ≤ h) (hd : h ≤ d) :
    (lawWant true st e h d = 2 ↔ d + h < e ∨ (st = 2 ∧ d - h ≤ e)) ∧
    (lawWant true st e h d = 0 ↔ e < -(d + h) ∨ (st = 0 ∧ e ≤ -(d - h))) := by
  have hstates : stHigh = 2 ∧ stLow = 0 ∧ stMid = 1 := ⟨rfl, rfl, rfl⟩
  obtain ⟨hhigh, hlow, hmid⟩ := hstates
  simp only [lawWant, Bool.not_true, Bool.false_eq_true, if_false]
  split
  · omega
  · split
    · omega
    · by_cases hfall : st = stHigh ∧ e < d - h
      · simp only [if_pos hfall]
        omega
      · by_cases hrise : st = stLow ∧ e > -(d - h)
        · simp only [if_neg hfall, if_pos hrise]
          omega
        · simp only [if_neg hfall, if_neg hrise]
          omega

end

/-! ## Samples and outputs (R465) -/

section

variable {s : State} {l : Fin 16} {w : Who}

theorem State.loop_modLoop_self (f : Loop → Loop) : (s.modLoop l f).loop l = f (s.loop l) := getD_set_self _ _ _ _ l.isLt

theorem State.loop_modLoop_of_ne (k m : Nat) (f : Loop → Loop) (h : m ≠ k) : (s.modLoop k f).loop m = s.loop m := getD_set_of_ne _ _ _ _ _ h

/-- The sample of loop l that comes next is due: while ticks and the TONGS domain run, on an enabled loop that samples. -/
def State.SampleDue (s : State) (l : Nat) : Prop :=
  s.running = true ∧ s.tongsClock = true ∧ s.swgOn l = true ∧ (s.loop l).stopped = false ∧ (s.loop l).next < s.swgNsamp l ∧
    s.swgAt l (s.loop l).next ≤ s.now

theorem State.swgDue_iff : s.swgDue l = true ↔ s.SampleDue l := by
  simp only [State.swgDue, State.SampleDue, Bool.and_eq_true, decide_eq_true_eq, Bool.not_eq_true', and_assoc]

theorem exec_swageSample : (s.SampleDue l → exec (.swageSample l) s = .next (s.swgSample l)) ∧
    (¬ s.SampleDue l → exec (.swageSample l) s = .next s) :=
  ⟨fun h => congrArg Host.Outcome.next (if_pos (State.swgDue_iff.mpr h)),
  fun h => congrArg Host.Outcome.next (if_neg fun hd => h (State.swgDue_iff.mp hd))⟩

/-- The output of loop l is due 1.0 us after its sample (R465). -/
def State.ApplyDue (s : State) (l : Nat) : Prop :=
  s.running = true ∧ s.tongsClock = true ∧ s.swgOn l = true ∧ s.swgNsamp l ≠ 0 ∧ (s.loop l).uPend ≠ none ∧ (s.loop l).applyAt ≤ s.now

theorem State.swgApplyDue_iff : s.swgApplyDue l = true ↔ s.ApplyDue l := by
  simp only [State.swgApplyDue, State.ApplyDue, Bool.and_eq_true, decide_eq_true_eq, bne_iff_ne, ne_eq, Option.isSome_iff_ne_none, and_assoc]

theorem exec_swageOutputApply : (s.ApplyDue l → exec (.swageOutputApply l) s = .next (s.swgApply l)) ∧
    (¬ s.ApplyDue l → exec (.swageOutputApply l) s = .next s) :=
  ⟨fun h => congrArg Host.Outcome.next (if_pos (State.swgApplyDue_iff.mpr h)),
    fun h => congrArg Host.Outcome.next (if_neg fun hd => h (State.swgApplyDue_iff.mp hd))⟩

/-! ## Enable (R467) -/

theorem exec_swageEnable_on (h : s.swgOn l = true) : exec (.swageEnable w l) s = .next s := congrArg Host.Outcome.next (if_pos h)

theorem State.swgCheck_le (t : State) (k : Nat) : t.swgCheck k ≤ 4 := by
  unfold State.swgCheck
  extract_lets
  split
  · decide
  split
  · decide
  split
  · decide
  split <;> decide

theorem exec_swageEnable_off (h : s.swgOn l = false) : exec (.swageEnable w l) s = .next (s.swgEnable l) :=
  congrArg Host.Outcome.next (if_neg (by simp [h]))

/-- A loop that fails a check stays off, and the check stands in SWG_STAT. -/
theorem State.swgEnable_failed (hinv : s.Inv) (hoff : s.swgOn l = false) (hcheck : (s.set (Reg.SWG_n_CTRL_EN l) 1).swgCheck l ≠ 0) :
    (s.swgEnable l).swgOn l = false ∧ (s.swgEnable l).get Reg.SWG_STAT_CFGERR = 1 ∧
    (s.swgEnable l).get Reg.SWG_STAT_CFGCODE = (s.set (Reg.SWG_n_CTRL_EN l) 1).swgCheck l ∧
    s.swgEnable l = { s with regs := (s.swgEnable l).regs } := by
  have heq : s.swgEnable l = (s.set Reg.SWG_STAT_CFGERR 1).set Reg.SWG_STAT_CFGCODE ((s.set (Reg.SWG_n_CTRL_EN l) 1).swgCheck l) := by
    unfold State.swgEnable
    dsimp only
    split
    · exact absurd ‹_› hcheck
    · rfl
  have h1 := hinv.set (f := Reg.SWG_STAT_CFGERR) (v := 1)
  have hne : (Reg.SWG_n_CTRL_EN l).addr ≠ 0x9000 := by simp only [Reg.SWG_n_CTRL_EN]; omega
  rw [heq]
  refine ⟨?_, ?_, ?_, rfl⟩
  · rw [State.swgOn, State.on, State.get_set_of_ne _ _ _ _ hne, State.get_set_of_ne _ _ _ _ hne]
    exact hoff
  · rw [h1.get_set_of_apart _ _ _ (by decide) (by decide), hinv.get_set_self _ _ (by decide) (by decide)]
  · exact h1.get_set_self _ _ (by decide) (by have := State.swgCheck_le (s.set (Reg.SWG_n_CTRL_EN l) 1) l; simp only [Reg.SWG_STAT_CFGCODE]; omega)

/-- The feedback does not depend on a loop's own control register. -/
theorem State.fbVal_set_ctrl (v : Nat) : (s.set (Reg.SWG_n_CTRL_EN l) v).fbVal l ((s.set (Reg.SWG_n_CTRL_EN l) v).fbRaw l) =
    s.fbVal l (s.fbRaw l) := by
  have hget : ∀ f : Fld, f.addr ≠ (Reg.SWG_n_CTRL_EN l).addr → (s.set (Reg.SWG_n_CTRL_EN l) v).get f = s.get f :=
    fun f hf => State.get_set_of_ne _ _ _ _ hf
  have hraw : ∀ k i, (s.set (Reg.SWG_n_CTRL_EN l) v).raw k i = s.raw k i := by
    intro k i
    unfold State.raw
    split
    · split
      · exact hget _ (by simp only [Reg.LSW_AIN_DATA_CODE, Reg.SWG_n_CTRL_EN]; omega)
      · rfl
    · split
      · rw [hget _ (by simp only [Reg.LSW_CH_CUR_NOW, Reg.SWG_n_CTRL_EN]; omega)]
      · rfl
    · rfl
    · split
      · exact hget _ (by simp only [Reg.TNG_EVCNT_COUNT, Reg.SWG_n_CTRL_EN]; omega)
      · rfl
    · rfl
  have h1 := hget (Reg.SWG_n_SRC_FBSEL l) (by simp only [Reg.SWG_n_SRC_FBSEL, Reg.SWG_n_CTRL_EN]; omega)
  have h2 := hget (Reg.SWG_n_SRC_FBIDX l) (by simp only [Reg.SWG_n_SRC_FBIDX, Reg.SWG_n_CTRL_EN]; omega)
  have h3 := hget (Reg.SWG_n_FBSCL_GAIN l) (by simp only [Reg.SWG_n_FBSCL_GAIN, Reg.SWG_n_CTRL_EN]; omega)
  have h4 := hget (Reg.SWG_n_FBSCL_OFS l) (by simp only [Reg.SWG_n_FBSCL_OFS, Reg.SWG_n_CTRL_EN]; omega)
  simp only [State.fbVal, State.fbRaw, State.sget, hraw, h1, h2, h3, h4]

/-- The registers an enable writes first (R467, R481, R486). -/
def State.swgEnReg (s : State) (l : Nat) : State :=
  ((s.set (Reg.SWG_n_CTRL_EN l) 1).set (Reg.SWG_n_STAT_EH l) ((s.set (Reg.SWG_n_CTRL_EN l) 1).get (Reg.SWG_n_BAND_H l))).set
    (Reg.SWG_n_STAT_PDONE l) 1

/-- What an enable that passes its checks leaves (R467, R471, R481, R486), before the channels follow. -/
def State.swgEnabled (s : State) (l : Nat) : State :=
  let t := s.swgEnReg l
  t.modLoop l (fun x => { x with
    filt := none, p := s.fbVal l (s.fbRaw l) * 65536, v := 0, a := 0, stopped := false, uPend := none,
    next := if t.running then ((List.range (t.swgNsamp l)).filter (fun j => decide (t.swgAt l j < t.now))).length else 0 })

/-- The loop's state and its channels after an enable (R471, R472, R488). -/
def State.swgFollow (s : State) (l : Nat) : State :=
  let t := ((s.set (Reg.SWG_n_STAT_PHASE l) 0).setB (Reg.SWG_n_STAT_BLOCKED l) (s.swgBlocked l)).swgTwoLevel l
  ((outDrive (t.swgOut l) (t.sget (Reg.SWG_n_OUTV_U l))).foldl (fun t d => t.modChan d.1 (fun x => { x with swg := some d.2 })) t).setUsed.refreshLsw

theorem State.swgEnable_passed (hcheck : (s.set (Reg.SWG_n_CTRL_EN l) 1).swgCheck l = 0) : s.swgEnable l = (s.swgEnabled l).swgFollow l := by
  unfold State.swgEnable
  dsimp only
  rw [hcheck]
  rw [State.fbVal_set_ctrl]
  rfl

theorem State.Inv.swgEnabled (h : s.Inv) : (s.swgEnabled l).Inv := .modLoop (.set (.set (.set h)))

end

end Sys2Proof.Machine
end

section
/-!
SUPPORT. What a passed enable, a switch of AUTO and a band write leave (R467, R476, R477, R486), and the statement on the Swage loops.
-/

namespace Sys2Proof.Machine

section

variable {s u : State} {l : Fin 16} {w : Who}

/-! ## A passed enable (R467, R471, R481, R486) -/

theorem State.swgTwoLevel_eq (t : State) (k : Nat) : t.swgTwoLevel k = t ∨ ∃ n, t.swgTwoLevel k = t.set (Reg.SWG_n_STAT_STATE k) n := by
  unfold State.swgTwoLevel
  split
  · exact .inr ⟨_, rfl⟩
  · exact .inl rfl

theorem State.foldl_modChan (ds : List (Nat × Drive)) (f : Drive → Chan → Chan) (t : State) :
    (ds.foldl (fun t d => t.modChan d.1 (f d.2)) t).regs = t.regs ∧ (ds.foldl (fun t d => t.modChan d.1 (f d.2)) t).loops = t.loops := by
  induction ds generalizing t with
  | nil => exact ⟨rfl, rfl⟩
  | cons d ds ih => exact ih (t.modChan d.1 (f d.2))

/-- A field of loop l that neither the law nor the channels write. -/
def Fld.OffLaw (f : Fld) (l : Nat) : Prop :=
  f.apart (Reg.SWG_n_STAT_PHASE l) = true ∧ f.apart (Reg.SWG_n_STAT_STATE l) = true ∧ f.addr ≠ Reg.SWG_STAT_USED.addr ∧ f.OffLsw

theorem State.swgFollow_keeps (h : u.Inv) : (u.swgFollow l).loops = u.loops ∧ ∀ f : Fld, f.OffLaw l → (u.swgFollow l).get f = u.get f := by
  unfold State.swgFollow
  extract_lets t
  have ht : t.Inv := .swgTwoLevel (.setB (.set h))
  have htl : t.loops = u.loops := by
    obtain heq | ⟨n, heq⟩ := State.swgTwoLevel_eq ((u.set (Reg.SWG_n_STAT_PHASE l) 0).setB (Reg.SWG_n_STAT_BLOCKED l) (u.swgBlocked l)) l
    · exact (congrArg State.loops heq).trans rfl
    · exact (congrArg State.loops heq).trans rfl
  have htg : ∀ f : Fld, f.OffLaw l → t.get f = u.get f := by
    rintro f ⟨hphase, hstate, -, -, -, hblocked⟩
    have h1 : ((u.set (Reg.SWG_n_STAT_PHASE l) 0).setB (Reg.SWG_n_STAT_BLOCKED l) (u.swgBlocked l)).get f = u.get f := by
      rw [State.setB, (h.set).get_set_of_apart _ _ _ (by simp [Fld.ok, Reg.SWG_n_STAT_BLOCKED]) (hblocked l l.isLt),
        h.get_set_of_apart _ _ _ (by simp [Fld.ok, Reg.SWG_n_STAT_PHASE]) hphase]
    obtain heq | ⟨n, heq⟩ := State.swgTwoLevel_eq ((u.set (Reg.SWG_n_STAT_PHASE l) 0).setB (Reg.SWG_n_STAT_BLOCKED l) (u.swgBlocked l)) l
    · exact (congrArg (State.get · f) heq).trans h1
    · have h2 : State.Inv ((u.set (Reg.SWG_n_STAT_PHASE l) 0).setB (Reg.SWG_n_STAT_BLOCKED l) (u.swgBlocked l)) := .setB (.set h)
      exact (congrArg (State.get · f) heq).trans
        ((h2.get_set_of_apart _ _ _ (by simp [Fld.ok, Reg.SWG_n_STAT_STATE]) hstate).trans h1)
  generalize hds : outDrive (t.swgOut l) (t.sget (Reg.SWG_n_OUTV_U l)) = ds
  obtain ⟨hregs, hloops⟩ := State.foldl_modChan ds (fun d x => { x with swg := some d }) t
  have hfold : State.Inv (ds.foldl (fun t d => t.modChan d.1 (fun x => { x with swg := some d.2 })) t) := ht.foldl fun _ _ hx => .modChan hx
  generalize ds.foldl (fun t d => t.modChan d.1 (fun x => { x with swg := some d.2 })) t = v at hregs hloops hfold
  have hframe := State.LswFrame.refreshLsw (s := v.setUsed) (.set hfold)
  refine ⟨?_, fun f hf => ?_⟩
  · obtain ⟨r, a, g, heq⟩ := hframe.parts
    rw [heq]
    exact hloops.trans htl
  · rw [hframe.gets f hf.2.2.2, State.setUsed, State.get_set_of_ne _ _ _ _ hf.2.2.1, ← htg f hf]
    unfold State.get State.word
    rw [hregs]

theorem Fld.apart_of_addr_ne {f g : Fld} (h : f.addr ≠ g.addr) : f.apart g = true := by simp [Fld.apart, h]

theorem Reg.SWG_n_CTRL_EN_offLaw : (Reg.SWG_n_CTRL_EN l).OffLaw l := by
  refine ⟨Fld.apart_of_addr_ne ?_, Fld.apart_of_addr_ne ?_, ?_, ?_, ?_, fun n hn => Fld.apart_of_addr_ne ?_⟩ <;>
    simp only [Reg.SWG_n_CTRL_EN, Reg.SWG_n_STAT_PHASE, Reg.SWG_n_STAT_STATE, Reg.SWG_STAT_USED, Reg.PWR_LEDHEAD_SEQ,
      Reg.SWG_n_STAT_BLOCKED] <;> omega

/-- A field of SWG_n_STAT that is none of PHASE, STATE and BLOCKED. -/
theorem offLaw_of_stat {lo width : Nat} (hlo : 9 ≤ lo) : Fld.OffLaw ⟨0x9140 + 0x80 * l, lo, width⟩ l := by
  refine ⟨?_, ?_, ?_, ?_, ?_, fun n hn => ?_⟩
  · simp [Fld.apart, Reg.SWG_n_STAT_PHASE, hlo]
  · have : 2 ≤ lo := by omega
    simp [Fld.apart, Reg.SWG_n_STAT_STATE, this]
  · simp only [Reg.SWG_STAT_USED]; omega
  · simp only; omega
  · simp only [Reg.PWR_LEDHEAD_SEQ]; omega
  · have : 6 ≤ lo := by omega
    simp [Fld.apart, Reg.SWG_n_STAT_BLOCKED, this]

theorem State.loop_of_loops_eq {t : State} {k : Nat} (h : t.loops = s.loops) : t.loop k = s.loop k := by
  unfold State.loop
  rw [h]

theorem State.get_lt (t : State) (f : Fld) : t.get f < 2 ^ f.w := Nat.mod_lt _ (Nat.two_pow_pos _)

theorem State.get_modLoop (t : State) (k : Nat) (g : Loop → Loop) (f : Fld) : (t.modLoop k g).get f = t.get f := rfl

theorem State.swgEnReg_gets (h : s.Inv) : (s.swgEnReg l).get (Reg.SWG_n_CTRL_EN l) = 1 ∧
    (s.swgEnReg l).get (Reg.SWG_n_STAT_EH l) = s.get (Reg.SWG_n_BAND_H l) ∧ (s.swgEnReg l).get (Reg.SWG_n_STAT_PDONE l) = 1 := by
  have h1 : (s.set (Reg.SWG_n_CTRL_EN l) 1).Inv := h.set
  have hH : (s.set (Reg.SWG_n_CTRL_EN l) 1).get (Reg.SWG_n_BAND_H l) = s.get (Reg.SWG_n_BAND_H l) :=
    State.get_set_of_ne _ _ _ _ (by simp only [Reg.SWG_n_CTRL_EN, Reg.SWG_n_BAND_H]; omega)
  have hstat : (Reg.SWG_n_CTRL_EN l).addr ≠ (Reg.SWG_n_STAT_EH l).addr := by simp only [Reg.SWG_n_CTRL_EN, Reg.SWG_n_STAT_EH]; omega
  have hdone : (Reg.SWG_n_CTRL_EN l).addr ≠ (Reg.SWG_n_STAT_PDONE l).addr := by simp only [Reg.SWG_n_CTRL_EN, Reg.SWG_n_STAT_PDONE]; omega
  have h2 : ((s.set (Reg.SWG_n_CTRL_EN l) 1).set (Reg.SWG_n_STAT_EH l) (s.get (Reg.SWG_n_BAND_H l))).Inv := .set h1
  unfold State.swgEnReg
  rw [hH]
  refine ⟨?_, ?_, ?_⟩
  · rw [State.get_set_of_ne _ _ _ _ hdone, State.get_set_of_ne _ _ _ _ hstat]
    exact h.get_set_self _ _ (by simp [Fld.ok, Reg.SWG_n_CTRL_EN]) (by simp [Reg.SWG_n_CTRL_EN])
  · rw [h2.get_set_of_apart _ _ _ (by simp [Fld.ok, Reg.SWG_n_STAT_PDONE]) (by simp [Fld.apart, Reg.SWG_n_STAT_PDONE, Reg.SWG_n_STAT_EH])]
    exact h1.get_set_self _ _ (by simp [Fld.ok, Reg.SWG_n_STAT_EH]) (State.get_lt _ _)
  · exact h2.get_set_self _ _ (by simp [Fld.ok, Reg.SWG_n_STAT_PDONE]) (by simp [Reg.SWG_n_STAT_PDONE])

/-- A loop that passes its checks runs, starts at H and with its profile done, at the feedback of now (R467, R481, R486). -/
theorem State.swgEnable_passed_facts (h : s.Inv) (hcheck : (s.set (Reg.SWG_n_CTRL_EN l) 1).swgCheck l = 0) :
    (s.swgEnable l).swgOn l = true ∧ (s.swgEnable l).get (Reg.SWG_n_STAT_EH l) = s.get (Reg.SWG_n_BAND_H l) ∧
    (s.swgEnable l).get (Reg.SWG_n_STAT_PDONE l) = 1 ∧ ((s.swgEnable l).loop l).p = s.fbVal l (s.fbRaw l) * 65536 ∧
    ((s.swgEnable l).loop l).v = 0 ∧ ((s.swgEnable l).loop l).a = 0 ∧ ((s.swgEnable l).loop l).filt = none := by
  obtain ⟨hloops, hgets⟩ := State.swgFollow_keeps (l := l) (h.swgEnabled (l := l))
  obtain ⟨hen, heh, hdone⟩ := State.swgEnReg_gets (l := l) h
  rw [State.swgEnable_passed hcheck, State.loop_of_loops_eq hloops]
  refine ⟨?_, ?_, ?_, ?_⟩
  · unfold State.swgOn State.on
    rw [hgets _ Reg.SWG_n_CTRL_EN_offLaw, State.swgEnabled, State.get_modLoop, hen]
    decide
  · rw [hgets (Reg.SWG_n_STAT_EH l) (offLaw_of_stat (by decide : 9 ≤ 16)), State.swgEnabled, State.get_modLoop, heh]
  · rw [hgets (Reg.SWG_n_STAT_PDONE l) (offLaw_of_stat (Nat.le_refl 9)), State.swgEnabled, State.get_modLoop, hdone]
  · rw [State.swgEnabled, State.loop_modLoop_self]
    exact ⟨rfl, rfl, rfl, rfl⟩

/-! ## AUTO (R476, R477) -/

theorem State.swgAuto_same {b : Bool} (h : s.on (Reg.SWG_n_CTRL_AUTO l) = b) : s.swgAuto l b = s := by
  unfold State.swgAuto
  dsimp only
  rw [if_pos (beq_iff_eq.mpr h)]

theorem State.swgAuto_on (h : s.on (Reg.SWG_n_CTRL_AUTO l) = false) :
    s.swgAuto l true = (s.set (Reg.SWG_n_CTRL_AUTO l) 1).modLoop l (fun x => { x with transfer := true }) := by
  unfold State.swgAuto
  dsimp only
  rw [h, if_neg (by decide), if_pos rfl]

theorem State.swgAuto_off (h : s.on (Reg.SWG_n_CTRL_AUTO l) = true) : s.swgAuto l false = s.manualHold l := by
  unfold State.swgAuto
  dsimp only
  rw [h, if_neg (by decide), if_neg (by decide)]

theorem exec_swageAuto {b : Bool} : exec (.swageAuto w l b) s = .next (s.swgAuto l b) := rfl

theorem exec_swageAuto_on (hinv : s.Inv) (h : s.on (Reg.SWG_n_CTRL_AUTO l) = false) :
    ∃ t, exec (.swageAuto w l true) s = .next t ∧ t.get (Reg.SWG_n_CTRL_AUTO l) = 1 ∧ (t.loop l).transfer = true := by
  refine ⟨_, exec_swageAuto, ?_⟩
  rw [State.swgAuto_on h, State.get_modLoop]
  refine ⟨?_, ?_⟩
  · exact hinv.get_set_self _ _ (by simp [Fld.ok, Reg.SWG_n_CTRL_AUTO]) (by simp [Reg.SWG_n_CTRL_AUTO])
  · rw [State.loop_modLoop_self]

theorem State.manualHold_auto (h : s.on (Reg.SWG_n_CTRL_AUTO l) = true) :
    s.manualHold l = (s.set (Reg.SWG_n_CTRL_AUTO l) 0).modLoop l (fun x => { x with manLoad := true, transfer := false }) := if_pos h

theorem exec_swageAuto_off (hinv : s.Inv) (h : s.on (Reg.SWG_n_CTRL_AUTO l) = true) :
    ∃ t, exec (.swageAuto w l false) s = .next t ∧ t.get (Reg.SWG_n_CTRL_AUTO l) = 0 ∧ (t.loop l).manLoad = true ∧
      (t.loop l).transfer = false := by
  refine ⟨_, exec_swageAuto, ?_⟩
  rw [State.swgAuto_off h, State.manualHold_auto h, State.loop_modLoop_self]
  rw [State.get_modLoop]
  exact ⟨hinv.get_set_self _ _ (by simp [Fld.ok, Reg.SWG_n_CTRL_AUTO]) (by simp), rfl, rfl⟩

/-! ## Profile and band (R481, R486) -/

theorem exec_swagePgo : ∃ t, exec (.swagePgo w l) s = .next t ∧ (t.loop l).pgo = true ∧ t = { s with loops := t.loops } := by
  refine ⟨s.swgPgo l, rfl, ?_, rfl⟩
  rw [State.swgPgo, State.loop_modLoop_self]

theorem State.noteLoopWrite_band : ∃ loops, s.noteLoopWrite (Reg.SWG_n_BAND l) = { s with loops := loops } ∧
    ∀ m, m ≠ l.val → (s.noteLoopWrite (Reg.SWG_n_BAND l)).loop m = s.loop m := by
  have hl : (Reg.SWG_n_BAND l - 0x9100) / 0x80 = l := by simp only [Reg.SWG_n_BAND]; omega
  unfold State.noteLoopWrite
  extract_lets k
  have hk : k = l := hl
  split
  · exact ⟨s.loops, rfl, fun _ _ => rfl⟩
  · exact ⟨_, rfl, fun m hm => State.loop_modLoop_of_ne _ _ _ (hk ▸ hm)⟩

theorem State.lockFault_parts {key : Nat} : ∃ regs ledger, s.lockFault w key = { s with regs := regs, ledger := ledger } := by
  unfold State.lockFault
  extract_lets o t
  have ht : ∃ regs, t = { s with regs := regs } := by
    by_cases hv : s.on Reg.DEV_STAT_LOCKV = true
    · exact ⟨s.regs, if_pos hv⟩
    · exact ⟨_, if_neg hv⟩
  obtain ⟨r, ht⟩ := ht
  rw [ht]
  exact ⟨_, _, rfl⟩

theorem State.writeFields_parts {key : Nat} {v : W32} {keep : FldDef → Bool} :
    ∃ regs ledger, s.writeFields w key v keep = { s with regs := regs, ledger := ledger } := by
  unfold State.writeFields
  split
  · exact ⟨s.regs, s.ledger, rfl⟩
  · extract_lets p t
    have ht : ∃ regs ledger, t = { s with regs := regs, ledger := ledger } := by
      by_cases hp : p.2 = true
      · rw [show t = s.lockFault w key from if_pos hp]
        exact State.lockFault_parts
      · exact ⟨s.regs, s.ledger, if_neg hp⟩
    obtain ⟨r, g, ht⟩ := ht
    rw [ht]
    exact ⟨_, _, rfl⟩

theorem exec_swageBandWrite {v : W32} (h : s.Inv) : ∃ t, exec (.swageBandWrite w l v) s = .next t ∧
    t.get (Reg.SWG_n_STAT_EH l) = t.get (Reg.SWG_n_BAND_H l) ∧
    t = { s with regs := t.regs, ledger := t.ledger, loops := t.loops } ∧ ∀ m, m ≠ l.val → t.loop m = s.loop m := by
  refine ⟨_, rfl, ?_⟩
  have hinv : ((s.noteLoopWrite (Reg.SWG_n_BAND l)).writeFields w (Reg.SWG_n_BAND l) v (fun _ => false)).Inv := .writeFields (.noteLoopWrite h)
  obtain ⟨loops, hnote, hothers⟩ := State.noteLoopWrite_band (s := s) (l := l)
  obtain ⟨r, g, hwrite⟩ := State.writeFields_parts (s := s.noteLoopWrite (Reg.SWG_n_BAND l)) (w := w) (key := Reg.SWG_n_BAND l) (v := v)
    (keep := fun _ => false)
  unfold State.swgBand
  extract_lets u
  refine ⟨?_, ?_, ?_⟩
  · have hne : (Reg.SWG_n_BAND_H l).addr ≠ (Reg.SWG_n_STAT_EH l).addr := by simp only [Reg.SWG_n_BAND_H, Reg.SWG_n_STAT_EH]; omega
    rw [State.get_set_of_ne _ _ _ _ hne]
    exact hinv.get_set_self _ _ (by simp [Fld.ok, Reg.SWG_n_STAT_EH]) (State.get_lt _ _)
  · rw [show u = _ from hwrite, hnote]
    rfl
  · intro m hm
    rw [← hothers m hm]
    exact State.loop_of_loops_eq ((congrArg State.loops hwrite : u.loops = _).trans rfl)

end

end Sys2Proof.Machine

open Sys2Proof Sys2Proof.Machine

/-- Settles O51: the law is a case split on the band, each row its own equation; an enable is followed through the channels' frame. -/
theorem swageLoops : Obligations.SwageLoops := by
  refine ⟨fun st e h d hh hd _ => ?_, fun w l b v s hinv => ⟨exec_swageSample, exec_swageOutputApply, exec_swageEnable_on, ?_, ?_,
    fun h => congrArg Host.Outcome.next (State.swgAuto_same h), exec_swageAuto_on hinv, exec_swageAuto_off hinv, exec_swagePgo,
    exec_swageBandWrite hinv⟩⟩
  · exact ⟨(lawWant_two_levels hh).1, (lawWant_two_levels hh).2, (lawWant_three_levels hh hd).1, (lawWant_three_levels hh hd).2⟩
  · exact fun hoff hcheck => ⟨_, exec_swageEnable_off hoff, State.swgEnable_failed hinv hoff hcheck⟩
  · exact fun hoff hcheck => ⟨_, exec_swageEnable_off hoff, State.swgEnable_passed_facts hinv hcheck⟩

end

section
/-!
SUPPORT. Load switches and analogue inputs (R500, R503, R504, R506, R507, R509, R512, R514, R516, R518): an equation per command, and the statement.
-/

namespace Sys2Proof.Machine

section

variable {s : State} {w : Who} {c : Fin 12} {h : Fin 6} {a : Fin 8} {ma mv : BitVec 16} {v : W32} {x : Int}

theorem State.chan_modChan_self (f : Chan → Chan) : (s.modChan c f).chan c = f (s.chan c) := getD_set_self _ _ _ _ c.isLt

theorem State.chan_modChan_of_ne {k m : Nat} (f : Chan → Chan) (hne : m ≠ k) : (s.modChan k f).chan m = s.chan m := getD_set_of_ne _ _ _ _ _ hne

theorem State.get_modChan (k : Nat) (f : Chan → Chan) (g : Fld) : (s.modChan k f).get g = s.get g := rfl

theorem State.record_head_code (t : State) (code unit detail : Nat) :
    ((t.record code unit detail).ledger.head?.map (fun y => y.code)) = some (BitVec.ofNat 16 code) := rfl

/-! ## Protection (R503, R504, R506, R507) -/

theorem exec_lswOvercurrent : exec (.lswOvercurrent c ma) s = .next (if s.ilim c < ma.toNat then
    ((((s.set (Reg.LSW_CH_STAT_OCL c) 1).count (Reg.LSW_CH_CNT_OC c) 1).record 0x0A01 c ma.toNat).refreshLsw) else s) := rfl

theorem exec_clearOtl_eq (hot : Bool) : exec (.clearOtl w c hot) s = .next ((s.modChan c (fun y => { y with hot := hot })).clearOtl c) := rfl

theorem exec_clearOtl_hot : exec (.clearOtl w c true) s = .next (s.modChan c (fun y => { y with hot := true })) := by
  rw [exec_clearOtl_eq, State.clearOtl, State.chan_modChan_self, if_pos rfl]

theorem exec_clearOtl_cool : exec (.clearOtl w c false) s = .next (if s.on (Reg.LSW_CH_STAT_OTL c) then
    (((s.modChan c (fun y => { y with hot := false })).set (Reg.LSW_CH_STAT_OTL c) 0).modChan c (fun y => { y with relWait := true })).commitIdle
    else s.modChan c (fun y => { y with hot := false })) := by
  rw [exec_clearOtl_eq, State.clearOtl, State.chan_modChan_self, if_neg Bool.false_ne_true]
  rfl

theorem exec_clearOcl_eq : exec (.clearOcl w c) s = .next (if s.on (Reg.LSW_CH_STAT_OCL c) then
    ((s.set (Reg.LSW_CH_STAT_OCL c) 0).modChan c (fun y => { y with relWait := true })).commitIdle else s) := rfl

/-- The channel is open: a current below IOL with OLEN, while it is continuously on and OPEN is clear (R506). -/
def State.opens (s : State) (c ma : Nat) : Bool :=
  decide (ma < s.iol c) && s.on (Reg.LSW_CH_CFG_OLEN c) && decide ((s.chan c).now = .on) && !s.on (Reg.LSW_CH_STAT_OPEN c)

theorem State.opens_iff {c ma : Nat} : s.opens c ma = true ↔ ma < 5 * max 1 (min 40 (s.get (Reg.LSW_CH_CFG_IOL c))) ∧
    s.on (Reg.LSW_CH_CFG_OLEN c) = true ∧ (s.chan c).now = .on ∧ s.on (Reg.LSW_CH_STAT_OPEN c) = false := by
  rw [State.opens, State.iol, within]
  simp only [Bool.and_eq_true, decide_eq_true_eq, Bool.not_eq_true', and_assoc]

theorem exec_lswOpen_eq : exec (.lswOpen c ma) s = .next (if s.opens c ma.toNat then
    ((s.set (Reg.LSW_CH_STAT_OPEN c) 1).count (Reg.LSW_CH_CNT_OL c) 1).record 0x0A03 c ma.toNat else s) := rfl

theorem exec_lswOpen_fires (hinv : s.Inv) (hopen : s.opens c ma.toNat = true) : ∃ t, exec (.lswOpen c ma) s = .next t ∧
    t.get (Reg.LSW_CH_STAT_OPEN c) = 1 ∧ (t.ledger.head?.map (fun y => y.code)) = some 0x0A03 ∧
    t = { s with regs := t.regs, ledger := t.ledger } := by
  refine ⟨_, exec_lswOpen_eq.trans (congrArg _ (if_pos hopen)), ?_, rfl, rfl⟩
  have hcount : (Reg.LSW_CH_STAT_OPEN c).addr ≠ (Reg.LSW_CH_CNT_OL c).addr := by simp only [Reg.LSW_CH_STAT_OPEN, Reg.LSW_CH_CNT_OL]; omega
  have hhead : (Reg.LSW_CH_STAT_OPEN c).addr ≠ Reg.PWR_LEDHEAD_SEQ.addr := by simp only [Reg.LSW_CH_STAT_OPEN, Reg.PWR_LEDHEAD_SEQ]; omega
  rw [State.get_record_of_ne _ _ _ _ _ hhead, State.count, State.get_set_of_ne _ _ _ _ hcount]
  exact hinv.get_set_self _ _ (by simp [Fld.ok, Reg.LSW_CH_STAT_OPEN]) (by simp [Reg.LSW_CH_STAT_OPEN])

theorem exec_lswSupply_low (hinv : s.Inv) (hlow : mv.toNat < 4200) : ∃ u : State, exec (.lswSupply false mv) s = .next u.refreshLsw ∧
    u.lsw.supplyOff = true ∧ u.get Reg.LSW_GSTAT_UV = 1 ∧ u.get Reg.LSW_GSTAT_UVEV = 1 := by
  let t := ((s.set Reg.LSW_GSTAT_UV 1).set Reg.LSW_GSTAT_UVEV 1).record 0x0A04 0xFF mv.toNat
  have h1 : (s.set Reg.LSW_GSTAT_UV 1).Inv := hinv.set
  have hexec : exec (.lswSupply false mv) s = .next (({ t with lsw := { t.lsw with supplyOff := true } } : State)).refreshLsw :=
    if_neg (show ¬ 4200 ≤ mv.toNat by omega)
  refine ⟨{ t with lsw := { t.lsw with supplyOff := true } }, hexec, rfl, ?_, ?_⟩
  · show t.get Reg.LSW_GSTAT_UV = 1
    rw [State.get_record_of_ne _ _ _ _ _ (by decide), h1.get_set_of_apart _ _ _ (by decide) (by decide)]
    exact hinv.get_set_self _ _ (by decide) (by decide)
  · show t.get Reg.LSW_GSTAT_UVEV = 1
    rw [State.get_record_of_ne _ _ _ _ _ (by decide)]
    exact h1.get_set_self _ _ (by decide) (by decide)

theorem exec_lswSupply_high (hinv : s.Inv) (hhigh : 38000 < mv.toNat) : ∃ u : State, exec (.lswSupply true mv) s = .next u.refreshLsw ∧
    u.lsw.supplyOff = true ∧ u.get Reg.LSW_GSTAT_OV = 1 ∧ u.get Reg.LSW_GSTAT_OVEV = 1 := by
  let t := ((s.set Reg.LSW_GSTAT_OV 1).set Reg.LSW_GSTAT_OVEV 1).record 0x0A04 0xFF mv.toNat
  have h1 : (s.set Reg.LSW_GSTAT_OV 1).Inv := hinv.set
  have hexec : exec (.lswSupply true mv) s = .next (({ t with lsw := { t.lsw with supplyOff := true } } : State)).refreshLsw :=
    if_neg (show ¬ mv.toNat ≤ 38000 by omega)
  refine ⟨{ t with lsw := { t.lsw with supplyOff := true } }, hexec, rfl, ?_, ?_⟩
  · show t.get Reg.LSW_GSTAT_OV = 1
    rw [State.get_record_of_ne _ _ _ _ _ (by decide), h1.get_set_of_apart _ _ _ (by decide) (by decide)]
    exact hinv.get_set_self _ _ (by decide) (by decide)
  · show t.get Reg.LSW_GSTAT_OVEV = 1
    rw [State.get_record_of_ne _ _ _ _ _ (by decide)]
    exact h1.get_set_self _ _ (by decide) (by decide)

theorem exec_lswSupply_ok {high : Bool} (hok : if high then mv.toNat ≤ 38000 else 4200 ≤ mv.toNat) : exec (.lswSupply high mv) s = .next s :=
  if_pos hok

/-! ## Dead time (R512) -/

theorem exec_deadTimeEnd_eq : exec (.deadTimeEnd h) s = .next (if !s.deadOver h then s
    else ((s.set (Reg.LSW_HB_STAT_DTACT h) 0).modHb h (fun x => { x with dtOld := 0 })).refreshLsw) := rfl

/-- A time that the running time base has reached and not left behind has not passed (R625). -/
theorem State.passed_of_within {t d : Nat} (hclock : s.tongsClock = true) (ht : t ≤ s.now) (hd : s.now < t + d) : s.passed t d = false := by
  simp only [State.passed, hclock, Bool.not_true, Bool.or_false, decide_eq_false_iff_not]
  omega

theorem State.passed_of_le {t d : Nat} (hd : t + d ≤ s.now) : s.passed t d = true := by
  simp only [State.passed, Bool.or_eq_true, decide_eq_true_eq]
  exact .inl (.inr hd)

theorem exec_deadTimeEnd_waits (hwait : (s.hb h).dtOld = 0 ∨ (s.tongsClock = true ∧ (s.hb h).offAt ≤ s.now ∧
    s.now < (s.hb h).offAt + 10 * max 10 (min 200 (s.get (Reg.LSW_HB_CFG_DT h))))) : exec (.deadTimeEnd h) s = .next s := by
  have hover : s.deadOver h = false := by
    unfold State.deadOver
    rcases hwait with hnone | ⟨hclock, hat, hbefore⟩
    · rw [hnone]; rfl
    · rw [within, State.passed_of_within hclock hat hbefore, Bool.and_false]
  rw [exec_deadTimeEnd_eq, hover]
  rfl

theorem exec_deadTimeEnd_over (hold : (s.hb h).dtOld ≠ 0)
    (hover : (s.hb h).offAt + 10 * max 10 (min 200 (s.get (Reg.LSW_HB_CFG_DT h))) ≤ s.now) :
    exec (.deadTimeEnd h) s = .next ((s.set (Reg.LSW_HB_STAT_DTACT h) 0).modHb h (fun y => { y with dtOld := 0 })).refreshLsw := by
  have hdead : s.deadOver h = true := by
    unfold State.deadOver
    rw [within, State.passed_of_le hover, bne_iff_ne.mpr hold]
    rfl
  rw [exec_deadTimeEnd_eq, hdead]
  rfl

/-! ## PWM (R500) -/

theorem exec_pwmPeriod_eq : exec (.pwmPeriod c) s = .next (if (s.chan c).now.isPwm && s.pwmOver c then
    (s.modChan c (fun x => { x with pwmAt := s.now - (s.now - x.pwmAt) % (5 * s.pwmCycles c) })).set (Reg.LSW_CH_STAT_ON c) 1 else s) := rfl

theorem exec_pwmOnPhaseEnd_eq : exec (.pwmOnPhaseEnd c) s = .next (if s.pwmEnds c then s.setOn c false else s) := rfl

theorem State.pwmCycles_pos (k : Nat) : 8000 ≤ s.pwmCycles k := by
  unfold State.pwmCycles within
  omega

theorem exec_pwmPeriod_over {d : Nat} (hinv : s.Inv) (hpwm : (s.chan c).now = .pwm d) (hover : (s.chan c).pwmAt + 5 * s.pwmCycles c ≤ s.now) :
    ∃ t, exec (.pwmPeriod c) s = .next t ∧ t.get (Reg.LSW_CH_STAT_ON c) = 1 ∧ t = { s with regs := t.regs, lsw := t.lsw } ∧
      (t.chan c).pwmAt ≤ s.now ∧ s.now < (t.chan c).pwmAt + 5 * s.pwmCycles c := by
  have hgoes : ((s.chan c).now.isPwm && s.pwmOver c) = true := by
    rw [hpwm, State.pwmOver, State.passed_of_le hover]
    rfl
  have hpos := State.pwmCycles_pos (s := s) c
  have hchan : ∀ t : State, ∀ f n, (t.set f n).chan c = t.chan c := fun _ _ _ => rfl
  refine ⟨_, exec_pwmPeriod_eq.trans (congrArg _ (if_pos hgoes)), ?_, rfl, ?_⟩
  · exact (State.Inv.modChan hinv).get_set_self _ _ (by simp [Fld.ok, Reg.LSW_CH_STAT_ON]) (by simp [Reg.LSW_CH_STAT_ON])
  · rw [hchan, State.chan_modChan_self]
    dsimp only
    have hlt : (s.now - (s.chan c).pwmAt) % (5 * s.pwmCycles c) < 5 * s.pwmCycles c := Nat.mod_lt _ (by omega)
    have hle : (s.now - (s.chan c).pwmAt) % (5 * s.pwmCycles c) ≤ s.now - (s.chan c).pwmAt := Nat.mod_le _ _
    generalize (s.now - (s.chan c).pwmAt) % (5 * s.pwmCycles c) = r at hlt hle
    omega

theorem exec_pwmOnPhaseEnd_over {d : Nat} (hinv : s.Inv) (hpwm : (s.chan c).now = .pwm d)
    (hover : (s.chan c).pwmAt + 5 * (s.pwmCycles c * d / 1024) ≤ s.now) :
    ∃ t, exec (.pwmOnPhaseEnd c) s = .next t ∧ t.get (Reg.LSW_CH_STAT_ON c) = 0 ∧ t.get (Reg.LSW_CH_CUR_NOW c) = 0 ∧
      t = { s with regs := t.regs } := by
  have hends : s.pwmEnds c = true := by
    unfold State.pwmEnds
    rw [hpwm]
    exact State.passed_of_le hover
  have h1 : (s.set (Reg.LSW_CH_STAT_ON c) 0).Inv := hinv.set
  have hne : (Reg.LSW_CH_STAT_ON c).addr ≠ (Reg.LSW_CH_CUR_NOW c).addr := by simp only [Reg.LSW_CH_STAT_ON, Reg.LSW_CH_CUR_NOW]; omega
  have hoff : s.setOn c false = (s.set (Reg.LSW_CH_STAT_ON c) 0).set (Reg.LSW_CH_CUR_NOW c) 0 := rfl
  refine ⟨_, exec_pwmOnPhaseEnd_eq.trans (congrArg _ ((if_pos hends).trans hoff)), ?_, ?_, rfl⟩
  · rw [State.get_set_of_ne _ _ _ _ hne]
    exact hinv.get_set_self _ _ (by simp [Fld.ok, Reg.LSW_CH_STAT_ON]) (by simp)
  · exact h1.get_set_self _ _ (by simp [Fld.ok, Reg.LSW_CH_CUR_NOW]) (by simp)

theorem exec_pwmPeriod_within (hclock : s.tongsClock = true) (hat : (s.chan c).pwmAt ≤ s.now)
    (hbefore : s.now < (s.chan c).pwmAt + 5 * s.pwmCycles c) : exec (.pwmPeriod c) s = .next s := by
  rw [exec_pwmPeriod_eq, State.pwmOver, State.passed_of_within hclock hat hbefore, Bool.and_false]
  rfl

theorem exec_pwmOnPhaseEnd_within {d : Nat} (hpwm : (s.chan c).now = .pwm d) (hclock : s.tongsClock = true) (hat : (s.chan c).pwmAt ≤ s.now)
    (hbefore : s.now < (s.chan c).pwmAt + 5 * (s.pwmCycles c * d / 1024)) : exec (.pwmOnPhaseEnd c) s = .next s := by
  have hends : s.pwmEnds c = false := by
    unfold State.pwmEnds
    rw [hpwm]
    exact State.passed_of_within hclock hat hbefore
  rw [exec_pwmOnPhaseEnd_eq, hends]
  rfl

theorem exec_pwm_of_not_pwm (hno : (s.chan c).now.isPwm = false) : exec (.pwmPeriod c) s = .next s ∧ exec (.pwmOnPhaseEnd c) s = .next s := by
  have hends : s.pwmEnds c = false := by
    unfold State.pwmEnds
    split
    · rename_i d hd
      rw [hd] at hno
      exact absurd hno (by simp [Drive.isPwm])
    · rfl
  rw [exec_pwmPeriod_eq, exec_pwmOnPhaseEnd_eq, hno, hends]
  exact ⟨rfl, rfl⟩

end

end Sys2Proof.Machine
end

section
/-!
SUPPORT. Measurements of the load switches and the analogue inputs (R514 to R518), and the statement.
-/

namespace Sys2Proof.Machine

/-! ## The current sense (R514) -/

/-- One channel of CURRENT_SENSE_UPDATE: its temperature and its current. -/
def State.sense (ch : Vector (BitVec 16 × Bool) 12) (k : Nat) (t : State) : State :=
  (t.modChan k (fun x => { x with hot := (ch.getD k (0, false)).2 })).set (Reg.LSW_CH_CUR_NOW k)
    (if t.on (Reg.LSW_CH_STAT_ON k) then min (ch.getD k (0, false)).1.toNat 8000 else 0)

section

variable {s t : State} {ch : Vector (BitVec 16 × Bool) 12} {mv : BitVec 16}

theorem exec_currentSenseUpdate : exec (.currentSenseUpdate mv ch) s = .next ((s.set Reg.LSW_VSUP_MV mv.toNat).each 12 (State.sense ch)) := rfl

/-- After the first n channels of s: those have their measurement, the others and every ON stand. -/
structure State.Sensed (s : State) (ch : Vector (BitVec 16 × Bool) 12) (n : Nat) (t : State) : Prop where
  inv : t.Inv
  parts : ∃ regs lsw, t = { s with regs := regs, lsw := lsw }
  vsup : t.get Reg.LSW_VSUP_MV = s.get Reg.LSW_VSUP_MV
  on : ∀ k, t.get (Reg.LSW_CH_STAT_ON k) = s.get (Reg.LSW_CH_STAT_ON k)
  current : ∀ k < n, t.get (Reg.LSW_CH_CUR_NOW k) = if s.on (Reg.LSW_CH_STAT_ON k) then min (ch.getD k (0, false)).1.toNat 8000 else 0
  hot : ∀ k < n, (t.chan k).hot = (ch.getD k (0, false)).2

theorem State.Sensed.step {n : Nat} (hn : n < 12) (h : s.Sensed ch n t) : s.Sensed ch (n + 1) (t.sense ch n) := by
  obtain ⟨hinv, ⟨regs, lsw, hparts⟩, hvsup, hon, hcur, hhot⟩ := h
  have hchan : ∀ (u : State) f v k, (u.set f v).chan k = u.chan k := fun _ _ _ _ => rfl
  refine ⟨.set (.modChan hinv), ⟨_, _, by rw [State.sense, hparts]; rfl⟩, ?_, fun k => ?_, fun k hk => ?_, fun k hk => ?_⟩
  · rw [State.sense, State.get_set_of_ne _ _ _ _ (by simp only [Reg.LSW_VSUP_MV, Reg.LSW_CH_CUR_NOW]; omega), State.get_modChan, hvsup]
  · rw [State.sense, State.get_set_of_ne _ _ _ _ (by simp only [Reg.LSW_CH_STAT_ON, Reg.LSW_CH_CUR_NOW]; omega), State.get_modChan, hon k]
  · by_cases hkn : k = n
    · have honk : t.on (Reg.LSW_CH_STAT_ON n) = s.on (Reg.LSW_CH_STAT_ON n) := by rw [State.on, State.on, hon n]
      have hmod : (t.modChan n (fun x => { x with hot := (ch.getD n (0, false)).2 })).Inv := .modChan hinv
      rw [hkn, State.sense, honk]
      refine hmod.get_set_self _ _ (by simp [Fld.ok, Reg.LSW_CH_CUR_NOW]) ?_
      show _ < 65536
      split <;> omega
    · rw [State.sense, State.get_set_of_ne _ _ _ _ (by simp only [Reg.LSW_CH_CUR_NOW]; omega), State.get_modChan]
      exact hcur k (by omega)
  · rw [State.sense, hchan]
    by_cases hkn : k = n
    · rw [hkn]
      exact congrArg Chan.hot (State.chan_modChan_self (c := ⟨n, hn⟩) _)
    · rw [State.chan_modChan_of_ne _ hkn]
      exact hhot k (by omega)

theorem State.sensed_each (h : s.Inv) (n : Nat) (hn : n ≤ 12) : s.Sensed ch n (s.each n (State.sense ch)) := by
  induction n with
  | zero => exact ⟨h, ⟨s.regs, s.lsw, rfl⟩, rfl, fun _ => rfl, fun _ hk => absurd hk (Nat.not_lt_zero _), fun _ hk => absurd hk (Nat.not_lt_zero _)⟩
  | succ n ih =>
    have heq : s.each (n + 1) (State.sense ch) = (s.each n (State.sense ch)).sense ch n := by
      simp only [State.each, List.range_succ, List.foldl_append, List.foldl_cons, List.foldl_nil]
    rw [heq]
    exact (ih (by omega)).step (by omega)

theorem exec_currentSenseUpdate_spec (h : s.Inv) (c : Fin 12) : ∃ t, exec (.currentSenseUpdate mv ch) s = .next t ∧
    t.get Reg.LSW_VSUP_MV = mv.toNat ∧
    t.get (Reg.LSW_CH_CUR_NOW c) = (if s.on (Reg.LSW_CH_STAT_ON c) = true then min (ch.getD c (0, false)).1.toNat 8000 else 0) ∧
    (t.chan c).hot = (ch.getD c (0, false)).2 ∧ t = { s with regs := t.regs, lsw := t.lsw } := by
  have h1 : (s.set Reg.LSW_VSUP_MV mv.toNat).Inv := h.set
  obtain ⟨-, ⟨regs, lsw, hparts⟩, hvsup, -, hcur, hhot⟩ := State.sensed_each (ch := ch) h1 12 (Nat.le_refl _)
  have hon : (s.set Reg.LSW_VSUP_MV mv.toNat).on (Reg.LSW_CH_STAT_ON c) = s.on (Reg.LSW_CH_STAT_ON c) := by
    rw [State.on, State.on, State.get_set_of_ne _ _ _ _ (by simp only [Reg.LSW_CH_STAT_ON, Reg.LSW_VSUP_MV]; omega)]
  refine ⟨_, exec_currentSenseUpdate, ?_, ?_, hhot c c.isLt, ?_⟩
  · rw [hvsup]
    exact h.get_set_self _ _ (by decide) mv.isLt
  · rw [hcur c c.isLt, hon]
  · rw [hparts]
    rfl

/-! ## Conversions (R515 to R518) -/

variable {a : Fin 8} {x : Int}

theorem exec_adcConversionStart_eq : exec .adcConversionStart s = .next (match s.lsw.conv, s.nextAin with
    | none, some a => { s with lsw := { s.lsw with conv := some a, seq := a + 1 } }
    | _, _ => s) := rfl

theorem exec_adcConversionStart_starts {n : Nat} (hconv : s.lsw.conv = none) (hnext : s.nextAin = some n) :
    exec .adcConversionStart s = .next { s with lsw := { s.lsw with conv := some n, seq := n + 1 } } := by
  rw [exec_adcConversionStart_eq, hconv, hnext]

theorem exec_adcConversionStart_stays (h : s.lsw.conv ≠ none ∨ s.nextAin = none) : exec .adcConversionStart s = .next s := by
  rw [exec_adcConversionStart_eq]
  split
  · rename_i n hconv hnext
    rcases h with h | h
    · exact absurd hconv h
    · exact absurd (h.symm.trans hnext) (by simp)
  · rfl

/-- What a conversion leaves before its window check (R515, R517). -/
def State.converted (s : State) (a code : Nat) (ovr : Bool) : State :=
  let t := ({ s with lsw := { s.lsw with conv := none } } : State).set (Reg.LSW_AIN_DATA_CODE a) code
  if ovr then t.set (Reg.LSW_AIN_STAT_OVR a) 1 else t

theorem exec_adcConversionDone_idle (hconv : s.lsw.conv = none) : exec (.adcConversionDone x) s = .next s := by
  show execAdcConversionDone x s = _
  rw [execAdcConversionDone, hconv]

theorem exec_adcConversionDone_eq (hconv : s.lsw.conv = some a.val) (hshunt : s.on (Reg.LSW_AIN_STAT_SHUNT a) = false) :
    exec (.adcConversionDone x) s = .next ((s.converted a (ainCode (s.on (Reg.LSW_AIN_CFG_MODE a)) x)
      (ainFull (s.on (Reg.LSW_AIN_CFG_MODE a)) x)).ainWindow a (ainCode (s.on (Reg.LSW_AIN_CFG_MODE a)) x)) := by
  have hshunt' : ({ s with lsw := { s.lsw with conv := none } } : State).on (Reg.LSW_AIN_STAT_SHUNT a) = false := hshunt
  show execAdcConversionDone x s = _
  unfold execAdcConversionDone
  rw [hconv]
  dsimp only
  rw [hshunt']
  rfl

theorem ainCode_lt (mode : Bool) : ainCode mode x < 4096 := Nat.lt_of_le_of_lt (Nat.min_le_right _ _) (by decide)

theorem State.converted_gets (h : s.Inv) {code : Nat} {ovr : Bool} (hcode : code < 4096) :
    (s.converted a code ovr).get (Reg.LSW_AIN_DATA_CODE a) = code ∧ (s.converted a code ovr).lsw.conv = none ∧
    (s.converted a code ovr).get (Reg.LSW_AIN_STAT_OVR a) = (if ovr = true then 1 else s.get (Reg.LSW_AIN_STAT_OVR a)) := by
  let u : State := { s with lsw := { s.lsw with conv := none } }
  have hu : u.Inv := .beside h
  have hset : (u.set (Reg.LSW_AIN_DATA_CODE a) code).Inv := hu.set
  have hdata : (u.set (Reg.LSW_AIN_DATA_CODE a) code).get (Reg.LSW_AIN_DATA_CODE a) = code :=
    hu.get_set_self _ _ (by simp [Fld.ok, Reg.LSW_AIN_DATA_CODE]) hcode
  have hne : (Reg.LSW_AIN_STAT_OVR a).addr ≠ (Reg.LSW_AIN_DATA_CODE a).addr := by simp only [Reg.LSW_AIN_STAT_OVR, Reg.LSW_AIN_DATA_CODE]; omega
  cases ovr with
  | true =>
    refine ⟨?_, rfl, ?_⟩
    · exact (State.get_set_of_ne _ _ _ _ hne.symm).trans hdata
    · exact hset.get_set_self _ _ (by simp [Fld.ok, Reg.LSW_AIN_STAT_OVR]) (by simp [Reg.LSW_AIN_STAT_OVR])
  | false => exact ⟨hdata, rfl, State.get_set_of_ne _ _ _ _ hne⟩

theorem exec_ainOverload (h : s.Inv) (hmode : s.on (Reg.LSW_AIN_CFG_MODE a) = true) (hshunt : s.on (Reg.LSW_AIN_STAT_SHUNT a) = false) :
    ∃ t, exec (.ainOverload a) s = .next t ∧ t.get (Reg.LSW_AIN_STAT_SHUNT a) = 1 ∧ t.get (Reg.LSW_AIN_STAT_SHUNTEV a) = 1 ∧
      (t.ledger.head?.map (fun y => y.code)) = some 0x0A06 := by
  have h1 : (s.set (Reg.LSW_AIN_STAT_SHUNT a) 1).Inv := h.set
  have hhead : (Reg.LSW_AIN_STAT_SHUNT a).addr ≠ Reg.PWR_LEDHEAD_SEQ.addr := by simp only [Reg.LSW_AIN_STAT_SHUNT, Reg.PWR_LEDHEAD_SEQ]; omega
  have hgoes : (s.on (Reg.LSW_AIN_CFG_MODE a) && !s.on (Reg.LSW_AIN_STAT_SHUNT a)) = true := by rw [hmode, hshunt]; rfl
  refine ⟨_, congrArg Host.Outcome.next (if_pos hgoes), ?_, ?_, rfl⟩
  · rw [State.get_record_of_ne _ _ _ _ _ hhead, h1.get_set_of_apart _ _ _ (by simp [Fld.ok, Reg.LSW_AIN_STAT_SHUNTEV])
      (by simp [Fld.apart, Reg.LSW_AIN_STAT_SHUNT, Reg.LSW_AIN_STAT_SHUNTEV])]
    exact h.get_set_self _ _ (by simp [Fld.ok, Reg.LSW_AIN_STAT_SHUNT]) (by simp [Reg.LSW_AIN_STAT_SHUNT])
  · rw [State.get_record_of_ne _ _ _ _ (Reg.LSW_AIN_STAT_SHUNTEV a) hhead]
    exact h1.get_set_self _ _ (by simp [Fld.ok, Reg.LSW_AIN_STAT_SHUNTEV]) (by simp [Reg.LSW_AIN_STAT_SHUNTEV])

theorem exec_shuntClose (h : s.Inv) : ∃ t, exec (.shuntClose a) s = .next t ∧ t.get (Reg.LSW_AIN_STAT_SHUNT a) = 0 ∧ t = { s with regs := t.regs } :=
  ⟨s.set (Reg.LSW_AIN_STAT_SHUNT a) 0, rfl, h.get_set_self _ _ (by simp [Fld.ok, Reg.LSW_AIN_STAT_SHUNT]) (by simp), rfl⟩

end

end Sys2Proof.Machine

open Sys2Proof Sys2Proof.Machine

/-- Settles O52: an equation per command, whose condition each clause decides; the current sense is an invariant over the channels. -/
theorem loadSwitchesAndInputs : Obligations.LoadSwitchesAndInputs := by
  intro w c h a ma mv cur v x s hinv
  refine ⟨fun hi => ?_, fun hlo => ?_, ⟨rfl, exec_clearOtl_hot⟩, ⟨fun hf => exec_lswOpen_fires hinv (State.opens_iff.mpr hf), fun hf => ?_⟩,
    exec_lswSupply_low hinv, exec_lswSupply_high hinv, fun hok => exec_lswSupply_ok hok, fun hok => exec_lswSupply_ok hok, rfl, fun hl => ?_,
    fun hl => ?_, ⟨fun hl => ?_, fun hl => ?_⟩, rfl, exec_deadTimeEnd_waits, exec_deadTimeEnd_over, fun d hd => ⟨exec_pwmPeriod_over hinv hd,
    exec_pwmOnPhaseEnd_over hinv hd, exec_pwmPeriod_within, exec_pwmOnPhaseEnd_within hd⟩, exec_pwm_of_not_pwm, exec_currentSenseUpdate_spec hinv c,
    fun n hc hn => ⟨_, exec_adcConversionStart_starts hc hn, rfl, rfl, rfl⟩, exec_adcConversionStart_stays, exec_adcConversionDone_idle,
    fun hc hs => ⟨_, exec_adcConversionDone_eq hc hs, State.converted_gets hinv (ainCode_lt _)⟩, exec_ainOverload hinv, exec_shuntClose hinv⟩
  · exact exec_lswOvercurrent.trans (congrArg _ (if_pos hi))
  · exact exec_lswOvercurrent.trans (congrArg _ (if_neg (Nat.not_lt.mpr hlo)))
  · exact exec_lswOpen_eq.trans (congrArg _ (if_neg fun ho => hf (State.opens_iff.mp ho)))
  · exact exec_clearOcl_eq.trans (congrArg _ (if_pos hl))
  · exact exec_clearOcl_eq.trans (congrArg _ (if_neg (by simp [hl])))
  · exact exec_clearOtl_cool.trans (congrArg _ (if_neg (by simp [hl])))
  · exact exec_clearOtl_cool.trans (congrArg _ (if_pos hl))

end

section
/-!
SUPPORT. Tongs steps (R530, R531, R533, R534, R536): when a row is the step, and what each instruction leaves, an equation per case.
-/

namespace Sys2Proof.Machine

/-- A step edge of engine t is taken (R535). -/
def State.stepped (s : State) (t : Nat) : State := s.modTng t (fun q => { q with m := q.m + 1 })

/-- These levels stand on the pins from outside (R528). -/
def State.withPins (s : State) (pins : W32) : State := { s with pio := { s.pio with ext := pins } }

/-- The row i is the step op of engine t, which leaves y before the pins follow, when an edge has come and op stands at PC; else nothing. -/
def State.RowIs (s : State) (t : Nat) (i : Instr) (op : TongsOp) (y : State) : Prop :=
  (s.tngDue t = true → s.tngOp t = some op → exec i s = .next (y.pioDrive (s.tngEdge t + 5))) ∧
  (s.tngDue t = false ∨ s.tngOp t ≠ some op → exec i s = .next s)

section

variable {s y : State} {t : Fin 8} {i : Instr} {op : TongsOp} {pins : W32}

theorem State.tngStep_of_op (h : s.tngOp t = some op) :
    s.tngStep t = ((s.stepped t).tngDo t (s.pio.sampled (s.tngEdge t)) op).pioDrive (s.tngEdge t + 5) := by
  unfold State.tngStep
  rw [h]
  rfl

theorem rowCond_of_not (h : s.tngDue t = false ∨ s.tngOp t ≠ some op) : ¬ (s.tngDue t && s.tngOp t == some op) = true := by
  rw [Bool.and_eq_true, beq_iff_eq]
  rintro ⟨hdue, hop⟩
  rcases h with h | h
  · rw [h] at hdue
    exact Bool.noConfusion hdue
  · exact h hop

theorem State.RowIs.of_row (hexec : exec i s = .next (s.tngRow t op)) (hy : (s.stepped t).tngDo t (s.pio.sampled (s.tngEdge t)) op = y) :
    s.RowIs t i op y := by
  refine ⟨fun hdue hop => ?_, fun h => hexec.trans (congrArg _ (if_neg (rowCond_of_not h)))⟩
  rw [hexec, State.tngRow, if_pos (by rw [hdue, hop, beq_self_eq_true]; rfl), State.tngStep_of_op hop, hy]

theorem State.RowIs.of_pins (hexec : exec i s = .next (s.tngPins t op pins))
    (hy : ((s.withPins pins).stepped t).tngDo t (({ s.pio with ext := pins } : Pio).sampled (s.tngEdge t)) op = y) : s.RowIs t i op y := by
  refine ⟨fun hdue hop => ?_, fun h => hexec.trans (congrArg _ (if_neg (rowCond_of_not h)))⟩
  have hop' : (s.withPins pins).tngOp t = some op := hop
  rw [hexec, State.tngPins, if_pos (by rw [hdue, hop, beq_self_eq_true]; rfl), ← State.withPins, State.tngStep_of_op hop', ← hy]
  rfl

theorem State.tng_stepped : (s.stepped t).tng t = { s.tng t with m := (s.tng t).m + 1 } := State.tng_modTng_self _ _ _ t.isLt

end

/-! ## Instructions (R533, R536) -/

section

variable {u : State} {t : Fin 8} {x : Tongs} {pins : W32} (hx : u.tng t = { x with m := x.m + 1 })
include hx

theorem State.tngJmp_goes {n src : Fin 8} {dest : Fin 64}
    (h : n = 0 ∨ (n = 1 ∧ x.k.getD 0 0 ≠ 0) ∨ (n = 2 ∧ x.k.getD 1 0 ≠ 0) ∨ (n = 3 ∧ u.pinIn t src pins = true) ∨
      (n = 4 ∧ u.pinIn t src pins = false) ∨ (n = 5 ∧ x.tx ≠ []) ∨
      (n = 6 ∧ x.shcnt = if u.get (Reg.TNG_CFG_SHLEN t) = 0 then 32 else u.get (Reg.TNG_CFG_SHLEN t)) ∨ (n = 7 ∧ x.z = true)) :
    u.tngJmp t pins n src dest = (if n = 1 then u.modTng t (fun q => { q with k := q.k.setIfInBounds 0 (x.k.getD 0 0 - 1) })
      else if n = 2 then u.modTng t (fun q => { q with k := q.k.setIfInBounds 1 (x.k.getD 1 0 - 1) }) else u).tngAt t dest := by
  unfold State.tngJmp
  rw [hx]
  rcases h with rfl | ⟨rfl, hk⟩ | ⟨rfl, hk⟩ | ⟨rfl, hpin⟩ | ⟨rfl, hpin⟩ | ⟨rfl, htx⟩ | ⟨rfl, hcnt⟩ | ⟨rfl, hz⟩
  · rfl
  · exact if_neg hk
  · exact if_neg hk
  · exact if_pos hpin
  · exact if_pos (by rw [hpin]; rfl)
  · exact if_pos (by simpa using htx)
  · exact if_pos (beq_iff_eq.mpr hcnt)
  · exact if_pos hz

theorem State.tngJmp_stays {n src : Fin 8} {dest : Fin 64}
    (h : ¬ (n = 0 ∨ (n = 1 ∧ x.k.getD 0 0 ≠ 0) ∨ (n = 2 ∧ x.k.getD 1 0 ≠ 0) ∨ (n = 3 ∧ u.pinIn t src pins = true) ∨
      (n = 4 ∧ u.pinIn t src pins = false) ∨ (n = 5 ∧ x.tx ≠ []) ∨
      (n = 6 ∧ x.shcnt = if u.get (Reg.TNG_CFG_SHLEN t) = 0 then 32 else u.get (Reg.TNG_CFG_SHLEN t)) ∨ (n = 7 ∧ x.z = true))) :
    u.tngJmp t pins n src dest = u.tngNext t := by
  obtain ⟨h0, h1, h2, h3, h4, h5, h6, h7⟩ := by simpa only [not_or, not_and, not_not] using h
  unfold State.tngJmp
  rw [hx]
  match n with
  | 0 => exact absurd rfl h0
  | 1 => exact if_pos (h1 rfl)
  | 2 => exact if_pos (h2 rfl)
  | 3 => exact if_neg (h3 rfl)
  | 4 => exact if_neg (by simpa using h4 rfl)
  | 5 => exact if_neg (by simpa using h5 rfl)
  | 6 => exact if_neg (by simpa using h6 rfl)
  | 7 => exact if_neg (h7 rfl)

theorem State.tngDrive_eq {o : Fin 4} {mask : BitVec 8} : u.tngDrive t o mask =
    ((List.range 8).foldl (fun z i => if mask.getLsbD i then z.drivePin t i (if o = 0 then some false else if o = 1 then some true
      else if o = 2 then none else some (!x.drvLvl.getLsbD (z.window t i))) else z) u).tngNext t := by
  unfold State.tngDrive
  rw [hx]
  match o with
  | 0 | 1 | 2 | 3 => rfl

theorem State.tngShout_eq {n : Fin 8} : u.tngShout t n =
    ((u.drivePin t n (some (x.sh.getLsbD (if u.on (Reg.TNG_CFG_SHDIR t) = true then 0 else 31)))).modTng t
    (fun q => q.shiftIn (u.on (Reg.TNG_CFG_SHDIR t)) false)).tngNext t := by
  unfold State.tngShout
  rw [hx]

theorem State.tngPull_word {block : Bool} {y : W32} {r : List W32} (htx : x.tx = y :: r) :
    u.tngPull t block = (u.modTng t (fun q => { q with sh := y, shcnt := 0, tx := r, last := y })).tngNext t := by
  have htx' : (u.tng t).tx = y :: r := by rw [hx]; exact htx
  unfold State.tngPull
  rw [htx']

theorem State.tngPull_empty {block : Bool} (htx : x.tx = []) : u.tngPull t block = if block then u.tngWait t
    else ((u.modTng t (fun q => { q with sh := q.last, shcnt := 0 })).set (Reg.TNG_STAT_STALE t) 1).tngNext t := by
  have htx' : (u.tng t).tx = [] := by rw [hx]; exact htx
  unfold State.tngPull
  rw [htx']

theorem State.tngPush_full {block : Bool} (hrx : 8 ≤ x.rx.length) : u.tngPush t block = if block then u.tngWait t
    else ((u.count (Reg.TNG_DROP_COUNT t) 1).modTng t (fun q => { q with sh := 0, shcnt := 0 })).tngNext t := by
  have hrx' : 8 ≤ (u.tng t).rx.length := by rw [hx]; exact hrx
  unfold State.tngPush State.tngDeliver
  rw [if_pos hrx', decide_eq_true hrx', Bool.and_true]

theorem State.tngPush_room {block : Bool} (hrx : x.rx.length < 8) : u.tngPush t block =
    ((u.modTng t (fun q => { q with rx := q.rx ++ [x.sh] })).modTng t (fun q => { q with sh := 0, shcnt := 0 })).tngNext t := by
  have hrx' : ¬ 8 ≤ (u.tng t).rx.length := by rw [hx]; exact Nat.not_le.mpr hrx
  unfold State.tngPush State.tngDeliver
  rw [if_neg hrx', decide_eq_false hrx', Bool.and_false, if_neg Bool.false_ne_true, hx]

/-- The value MOV takes (R533). -/
def State.movSrc (u : State) (t : Nat) (x : Tongs) (pins : W32) (src : Fin 8) : W32 :=
  if src = 4 then x.sh else if src = 5 then BitVec.ofNat 32 (u.get (Reg.TNG_EVCNT_COUNT t))
  else if src = 6 then BitVec.ofNat 32 (u.windowIn t pins) else if src = 7 then BitVec.ofNat 32 x.shcnt else x.k.getD src 0

theorem State.tngMov_eq {dst src : Fin 8} : u.tngMov t pins dst src = match dst.val with
    | 7 => u.tngIllegal t
    | 4 => (u.modTng t (fun q => { q with sh := u.movSrc t x pins src })).tngNext t
    | 5 => (u.set (Reg.TNG_EVCNT_COUNT t) (u.movSrc t x pins src).toNat).tngNext t
    | 6 => ((List.range 8).foldl (fun z p => z.drivePin t p (some ((u.movSrc t x pins src).getLsbD p))) u).tngNext t
    | i => (u.modTng t (fun q => { q with k := q.k.setIfInBounds i (u.movSrc t x pins src) })).tngNext t := by
  unfold State.tngMov
  rw [hx]
  match src with
  | 0 | 1 | 2 | 3 | 4 | 5 | 6 | 7 => rfl

theorem State.tngAlu_eq {k rs o : Fin 4} : u.tngAlu t k rs o =
    (u.modTng t (fun q => { q with
      k := q.k.setIfInBounds k (if o = 0 then x.k.getD k 0 + x.k.getD rs 0 else if o = 1 then x.k.getD k 0 - x.k.getD rs 0
        else if o = 2 then x.k.getD k 0 &&& x.k.getD rs 0 else x.k.getD k 0 ^^^ x.k.getD rs 0),
      z := (if o = 0 then x.k.getD k 0 + x.k.getD rs 0 else if o = 1 then x.k.getD k 0 - x.k.getD rs 0
        else if o = 2 then x.k.getD k 0 &&& x.k.getD rs 0 else x.k.getD k 0 ^^^ x.k.getD rs 0) == 0 })).tngNext t := by
  unfold State.tngAlu
  rw [hx]
  match o with
  | 0 | 1 | 2 | 3 => rfl

theorem State.tngCnt_eq {o : Fin 4} : u.tngCnt t o = (u.set (Reg.TNG_EVCNT_COUNT t) (if o = 0 then u.get (Reg.TNG_EVCNT_COUNT t) + 1
    else if o = 1 then u.get (Reg.TNG_EVCNT_COUNT t) + 65535 else if o = 2 then 0 else (x.k.getD 0 0).toNat)).tngNext t := by
  unfold State.tngCnt
  rw [hx]
  match o with
  | 0 | 1 | 2 | 3 => rfl

theorem State.tngDelay_starts {cnt : BitVec 12} (hdelay : x.delay = none) : u.tngDelay t cnt =
    if cnt = 0 then u.tngNext t else (u.modTng t (fun q => { q with delay := some cnt.toNat })).tngWait t := by
  have hdelay' : (u.tng t).delay = none := by rw [hx]; exact hdelay
  unfold State.tngDelay
  rw [hdelay']

theorem State.tngDelay_goes_on {cnt : BitVec 12} {m : Nat} (hdelay : x.delay = some m) : u.tngDelay t cnt =
    if m ≤ 1 then (u.modTng t (fun q => { q with delay := none })).tngNext t else u.modTng t (fun q => { q with delay := some (m - 1) }) := by
  have hdelay' : (u.tng t).delay = some m := by rw [hx]; exact hdelay
  unfold State.tngDelay
  rw [hdelay']

end

end Sys2Proof.Machine
end

section
/-!
SUPPORT. Tongs decoding, run control, FIFOs and pins (R526 to R528, R531, R533, R534, R537).
-/

namespace Sys2Proof.Machine

/-! ## The decoder (R533, R534) -/

section

variable {w : BitVec 16}

theorem decodeTongs_high (h : 0xD000 ≤ w.toNat) : decodeTongs w = none := by
  have hlt := w.isLt
  unfold decodeTongs
  dsimp only
  split
  case h_14 => rfl
  all_goals
    rename_i hop
    exact absurd hop (by omega)

theorem decodeTongs_pull {op : TongsOp} (h : decodeTongs w = some op) (hop : w.toNat / 0x1000 = 5) : w.toNat % 0x800 = 0 := by
  have hfield : w.toNat / 2 ^ 12 % 2 ^ 4 = 5 := by omega
  have heq : decodeTongs w = if w.toNat / 2 ^ 0 % 2 ^ 11 = 0 then some (.pull (w.toNat / 2 ^ 11 % 2 ^ 1 == 1)) else none := by
    unfold decodeTongs
    dsimp only
    rw [hfield]
    rfl
  by_cases hzero : w.toNat / 2 ^ 0 % 2 ^ 11 = 0
  · omega
  · rw [heq, if_neg hzero] at h
    exact nomatch h

theorem decodeTongs_evt {op : TongsOp} (h : decodeTongs w = some op) (hop : w.toNat / 0x1000 = 11) : w.toNat % 0x1000 = 0 := by
  have hfield : w.toNat / 2 ^ 12 % 2 ^ 4 = 11 := by omega
  have heq : decodeTongs w = if w.toNat / 2 ^ 0 % 2 ^ 12 = 0 then some .evt else none := by
    unfold decodeTongs
    dsimp only
    rw [hfield]
    rfl
  by_cases hzero : w.toNat / 2 ^ 0 % 2 ^ 12 = 0
  · omega
  · rw [heq, if_neg hzero] at h
    exact nomatch h

end

/-! ## Illegal words (R534) -/

section

variable {s : State} {t : Fin 8} {w : Who} {v : W32}

theorem exec_tongsIllegal_eq : exec (.tongsIllegal t) s = .next (if s.tngDue t && s.tngBad t then s.tngStep t else s) := rfl

theorem exec_tongsIllegal_of_bad {src : Fin 8} (hdue : s.tngDue t = true) (hbad : s.tngOp t = none ∨ s.tngOp t = some (.mov 7 src)) :
    exec (.tongsIllegal t) s = .next (((s.stepped t).tngIllegal t).pioDrive (s.tngEdge t + 5)) := by
  have hb : s.tngBad t = true := by
    unfold State.tngBad
    rcases hbad with h | h <;> rw [h]
    rfl
  rw [exec_tongsIllegal_eq, hdue, hb, Bool.and_self, if_pos rfl]
  rcases hbad with h | h
  · unfold State.tngStep
    rw [h]
    rfl
  · rw [State.tngStep_of_op h]
    rfl

theorem exec_tongsIllegal_of_legal (h : s.tngDue t = false ∨ ∃ op, s.tngOp t = some op ∧ ∀ i, op ≠ .mov 7 i) :
    exec (.tongsIllegal t) s = .next s := by
  have hno : (s.tngDue t && s.tngBad t) = false := by
    rcases h with hdue | ⟨op, hop, hlegal⟩
    · rw [hdue, Bool.false_and]
    · have hb : s.tngBad t = false := by
        unfold State.tngBad
        rw [hop]
        cases op with
        | mov dst src => exact beq_eq_false_iff_ne.mpr fun hdst => hlegal src (hdst ▸ rfl)
        | _ => rfl
      rw [hb, Bool.and_false]
  rw [exec_tongsIllegal_eq, hno]
  rfl

/-! ## PC, WAIT, RUN and ILL -/

theorem Reg.TNG_STAT_PC_ok : (Reg.TNG_STAT_PC t).ok = true := by simp [Fld.ok, Reg.TNG_STAT_PC]
theorem Reg.TNG_STAT_WAIT_ok : (Reg.TNG_STAT_WAIT t).ok = true := by simp [Fld.ok, Reg.TNG_STAT_WAIT]

theorem State.tngAt_gets (h : s.Inv) (pc : Nat) :
    (s.tngAt t pc).get (Reg.TNG_STAT_PC t) = pc % 64 ∧ (s.tngAt t pc).get (Reg.TNG_STAT_WAIT t) = 0 := by
  have h1 : (s.set (Reg.TNG_STAT_PC t) (pc % 64)).Inv := h.set
  refine ⟨?_, h1.get_set_self _ _ Reg.TNG_STAT_WAIT_ok (by simp)⟩
  rw [State.tngAt, h1.get_set_of_apart _ _ _ Reg.TNG_STAT_WAIT_ok (by simp [Fld.apart, Reg.TNG_STAT_PC, Reg.TNG_STAT_WAIT])]
  exact h.get_set_self _ _ Reg.TNG_STAT_PC_ok (Nat.mod_lt _ (by decide))

theorem State.tngWait_pc (h : s.Inv) : (s.tngWait t).get (Reg.TNG_STAT_PC t) = s.get (Reg.TNG_STAT_PC t) :=
  h.get_set_of_apart _ _ _ Reg.TNG_STAT_WAIT_ok (by simp [Fld.apart, Reg.TNG_STAT_PC, Reg.TNG_STAT_WAIT])

theorem State.pioDrive_eq {time : Nat} : s.pioDrive time = { s with pio := (s.pioDrive time).pio } := by
  unfold State.pioDrive
  dsimp only
  split <;> rfl

theorem State.tngIllegal_facts (h : s.Inv) : (s.tngIllegal t).tngRuns t = false ∧ (s.tngIllegal t).get (Reg.TNG_STAT_ILL t) = 1 ∧
    (s.tngIllegal t).get (Reg.TNG_STAT_PC t) = s.get (Reg.TNG_STAT_PC t) ∧
    ((s.tngIllegal t).ledger.head?.map (fun z => z.code)) = some 0x0B01 := by
  have h1 : (s.set (Reg.TNG_CTRL_RUN t) 0).Inv := h.set
  have hillok : (Reg.TNG_STAT_ILL t).ok = true := by simp [Fld.ok, Reg.TNG_STAT_ILL]
  have hrunhead : (Reg.TNG_CTRL_RUN t).addr ≠ Reg.PWR_LEDHEAD_SEQ.addr := by simp only [Reg.TNG_CTRL_RUN, Reg.PWR_LEDHEAD_SEQ]; omega
  have hstathead : (Reg.TNG_STAT_PC t).addr ≠ Reg.PWR_LEDHEAD_SEQ.addr := by simp only [Reg.TNG_STAT_PC, Reg.PWR_LEDHEAD_SEQ]; omega
  have hrunstat : (Reg.TNG_CTRL_RUN t).addr ≠ (Reg.TNG_STAT_ILL t).addr := by simp only [Reg.TNG_CTRL_RUN, Reg.TNG_STAT_ILL]; omega
  have hstatrun : (Reg.TNG_STAT_PC t).addr ≠ (Reg.TNG_CTRL_RUN t).addr := by simp only [Reg.TNG_CTRL_RUN, Reg.TNG_STAT_PC]; omega
  refine ⟨?_, ?_, ?_, rfl⟩
  · rw [State.tngRuns, State.on, State.tngIllegal, State.get_record_of_ne _ _ _ _ _ hrunhead, State.get_set_of_ne _ _ _ _ hrunstat,
      h.get_set_self _ _ (by simp [Fld.ok, Reg.TNG_CTRL_RUN]) (by simp)]
    rfl
  · rw [State.tngIllegal, State.get_record_of_ne _ _ _ _ (Reg.TNG_STAT_ILL t) hstathead]
    exact h1.get_set_self _ _ hillok (by simp [Reg.TNG_STAT_ILL])
  · rw [State.tngIllegal, State.get_record_of_ne _ _ _ _ _ hstathead,
      h1.get_set_of_apart _ _ _ hillok (by simp [Fld.apart, Reg.TNG_STAT_PC, Reg.TNG_STAT_ILL]), State.get_set_of_ne _ _ _ _ hstatrun]

/-! ## Run control (R531, R540) -/

theorem State.get_modTng (k : Nat) (f : Tongs → Tongs) (g : Fld) : (s.modTng k f).get g = s.get g := rfl

theorem exec_tongsRun {b : Bool} (hown : s.ownRefused w (Reg.TNG_CTRL t) = false) : exec (.tongsRun w t b) s = .next (s.tngRun t b) :=
  congrArg Host.Outcome.next (State.owned_of_open hown _)

theorem exec_tongsRestart (hown : s.ownRefused w (Reg.TNG_CTRL t) = false) : exec (.tongsRestart w t) s = .next (s.tngRestart t) :=
  congrArg Host.Outcome.next (State.owned_of_open hown _)

theorem exec_tongsTxfWrite (hown : s.ownRefused w (Reg.TNG_TXF t) = false) : exec (.tongsTxfWrite w t v) s = .next (s.txfWrite t v) :=
  congrArg Host.Outcome.next (State.owned_of_open hown _)

theorem exec_tongsRun_on (hinv : s.Inv) (hown : s.ownRefused w (Reg.TNG_CTRL t) = false) (hpend : s.on Reg.TNG_PEND_CFG_EN = false) :
    ∃ y, exec (.tongsRun w t true) s = .next y ∧ y.tngRuns t = true ∧ (s.tngRuns t = false → (y.tng t).t0 = s.pio.t ∧ (y.tng t).m = 0) := by
  refine ⟨_, exec_tongsRun hown, ?_⟩
  unfold State.tngRun
  rw [if_pos rfl, hpend, Bool.false_and, Bool.false_or]
  by_cases hrun : s.tngRuns t = true
  · rw [if_pos hrun]
    exact ⟨hrun, fun hno => absurd (hrun.symm.trans hno) (by decide)⟩
  · rw [if_neg hrun]
    refine ⟨?_, fun _ => ?_⟩
    · have hget : (s.set (Reg.TNG_CTRL_RUN t) 1).get (Reg.TNG_CTRL_RUN t) = 1 :=
        hinv.get_set_self _ _ (by simp [Fld.ok, Reg.TNG_CTRL_RUN]) (by simp [Reg.TNG_CTRL_RUN])
      rw [State.tngRuns, State.on, State.get_modTng, hget]
      decide
    · rw [State.tng_modTng_self _ _ _ t.isLt]
      exact ⟨rfl, rfl⟩

theorem exec_tongsRun_off (hinv : s.Inv) (hown : s.ownRefused w (Reg.TNG_CTRL t) = false) :
    ∃ y, exec (.tongsRun w t false) s = .next y ∧ y.tngRuns t = false ∧ (y.tng t).delay = none := by
  refine ⟨_, exec_tongsRun hown, ?_⟩
  have hne : (Reg.TNG_CTRL_RUN t).addr ≠ (Reg.TNG_STAT_WAIT t).addr := by simp only [Reg.TNG_CTRL_RUN, Reg.TNG_STAT_WAIT]; omega
  have hget : ((s.set (Reg.TNG_CTRL_RUN t) 0).set (Reg.TNG_STAT_WAIT t) 0).get (Reg.TNG_CTRL_RUN t) = 0 :=
    (State.get_set_of_ne _ _ _ _ hne).trans (hinv.get_set_self _ _ (by simp [Fld.ok, Reg.TNG_CTRL_RUN]) (by simp))
  unfold State.tngRun State.tngAbandon
  rw [if_neg Bool.false_ne_true]
  refine ⟨?_, ?_⟩
  · rw [State.tngRuns, State.on, State.get_modTng, hget]
    decide
  · rw [State.tng_modTng_self _ _ _ t.isLt]

theorem exec_tongsRestart_running (hown : s.ownRefused w (Reg.TNG_CTRL t) = false) (hrun : s.tngRuns t = true) :
    exec (.tongsRestart w t) s = .next s :=
  (exec_tongsRestart hown).trans (congrArg Host.Outcome.next (if_pos hrun))

theorem exec_tongsRestart_stopped (hinv : s.Inv) (hown : s.ownRefused w (Reg.TNG_CTRL t) = false) (hrun : s.tngRuns t = false) :
    ∃ y, exec (.tongsRestart w t) s = .next y ∧ y.get (Reg.TNG_STAT_PC t) = 0 ∧ (y.tng t).tx = [] ∧ (y.tng t).rx = [] ∧
      (y.tng t).drvEn = (s.tng t).drvEn ∧ (y.tng t).drvLvl = (s.tng t).drvLvl := by
  have hstopped : ¬ s.tngRuns t = true := by rw [hrun]; exact Bool.false_ne_true
  refine ⟨_, (exec_tongsRestart hown).trans (congrArg Host.Outcome.next (if_neg hstopped)), ?_, ?_⟩
  · exact hinv.get_set_self _ _ Reg.TNG_STAT_PC_ok (by simp)
  · rw [State.tng_modTng_self _ _ _ t.isLt]
    exact ⟨rfl, rfl, rfl, rfl⟩

/-! ## FIFOs (R537) -/

theorem exec_tongsTxfWrite_room (htile : s.tngTile t = false) (hown : s.ownRefused w (Reg.TNG_TXF t) = false) (hroom : (s.tng t).tx.length < 8) :
    ∃ y, exec (.tongsTxfWrite w t v) s = .next y ∧ (y.tng t).tx = (s.tng t).tx ++ [v] ∧ y.regs = s.regs := by
  have hplain : ¬ s.tngTile t = true := by rw [htile]; exact Bool.false_ne_true
  refine ⟨_, (exec_tongsTxfWrite hown).trans (congrArg Host.Outcome.next ((if_neg hplain).trans (if_neg (Nat.not_le.mpr hroom)))), ?_, rfl⟩
  rw [State.tng_modTng_self _ _ _ t.isLt]

theorem exec_tongsTxfWrite_full (hinv : s.Inv) (htile : s.tngTile t = false) (hown : s.ownRefused w (Reg.TNG_TXF t) = false)
    (hfull : 8 ≤ (s.tng t).tx.length) :
    ∃ y, exec (.tongsTxfWrite w t v) s = .next y ∧ y.get (Reg.TNG_STAT_TXOVF t) = 1 ∧ y.tongs = s.tongs :=
  have hplain : ¬ s.tngTile t = true := by rw [htile]; exact Bool.false_ne_true
  ⟨_, (exec_tongsTxfWrite hown).trans (congrArg Host.Outcome.next ((if_neg hplain).trans (if_pos hfull))),
    hinv.get_set_self _ _ (by simp [Fld.ok, Reg.TNG_STAT_TXOVF]) (by simp [Reg.TNG_STAT_TXOVF]), rfl⟩

theorem State.rxfRead_word {y : W32} {r : List W32} (htile : s.tngTile t = false) (hrx : (s.tng t).rx = y :: r) :
    s.rxfRead t = (y, s.modTng t (fun x => { x with rx := r })) := by
  unfold State.rxfRead
  rw [if_neg (by rw [htile]; decide), hrx]

theorem State.rxfRead_empty (htile : s.tngTile t = false) (hrx : (s.tng t).rx = []) : s.rxfRead t = (0, s.set (Reg.TNG_STAT_RXUNF t) 1) := by
  unfold State.rxfRead
  rw [if_neg (by rw [htile]; decide), hrx]

theorem exec_tongsRxfRead_eq : exec (.tongsRxfRead w t) s = .next ((s.rxfRead t).2.send (.readValue w (Reg.TNG_RXF t) (s.rxfRead t).1)) := rfl

/-! ## Pins (R527, R528) -/

theorem getLsbD_putBit {x : W32} {i j : Nat} (hi : i < 32) (b : Bool) : (putBit x i b).getLsbD j = if j = i then b else x.getLsbD j := by
  rw [putBit, getLsbD_fieldSet _ _ _ _ _ (by omega)]
  by_cases hji : j = i
  · rw [if_pos hji]
    cases b <;> simp [hji]
  · rw [if_neg hji]
    by_cases hlt : j < i
    · simp [Nat.not_le.mpr hlt]
    · simp [show ¬ j < i + 1 by omega]

theorem State.pinDrive_of_unselected {pin : Nat} (h : s.fsel pin = 0) : s.pinDrive pin = none := if_pos (.inl h)

theorem State.pinDrive_of_foreign {pin : Nat} (h : s.unitOwner (s.fsel pin) ≠ s.pinOwner pin) : s.pinDrive pin = none :=
  if_pos (.inr (.inr (.inr (.inl h))))

/-- What the pins p drive, added to what others drive. -/
def State.addDrive (s : State) (v : W32 × W32) (p : Nat) : W32 × W32 :=
  match s.pinDrive p with
  | some b => (putBit v.1 p true, putBit v.2 p b)
  | none => v

theorem State.addDrive_bits {v : W32 × W32} {p q : Nat} (hp : p < 32) :
    (s.addDrive v p).1.getLsbD q = (if q = p then (s.pinDrive p).isSome || v.1.getLsbD p else v.1.getLsbD q) ∧
    (s.addDrive v p).2.getLsbD q = (if q = p then (s.pinDrive p).getD (v.2.getLsbD p) else v.2.getLsbD q) := by
  unfold State.addDrive
  split
  · rename_i b hb
    rw [getLsbD_putBit hp, getLsbD_putBit hp, hb]
    exact ⟨rfl, rfl⟩
  · rename_i hb
    rw [hb]
    by_cases hq : q = p <;> simp [hq]

theorem State.addDrive_foldl (n : Nat) (hn : n ≤ 32) (q : Nat) :
    ((List.range n).foldl s.addDrive (0, 0)).1.getLsbD q = (decide (q < n) && (s.pinDrive q).isSome) ∧
    ((List.range n).foldl s.addDrive (0, 0)).2.getLsbD q = (decide (q < n) && (s.pinDrive q).getD false) := by
  induction n with
  | zero => simp
  | succ n ih =>
    obtain ⟨h1, h2⟩ := ih (by omega)
    rw [List.range_succ, List.foldl_append]
    obtain ⟨hen, hlvl⟩ := State.addDrive_bits (s := s) (v := (List.range n).foldl s.addDrive (0, 0)) (p := n) (q := q) (by omega)
    rw [List.foldl_cons, List.foldl_nil, hen, hlvl]
    by_cases hq : q = n
    · subst hq
      rw [if_pos rfl, if_pos rfl, h1, h2]
      simp
    · rw [if_neg hq, if_neg hq, h1, h2]
      have hlt : (q < n + 1) ↔ (q < n) := by omega
      simp only [hlt, and_self]

theorem State.fsel_of_no_word {pin : Nat} (hpin : pin < 32) (h : (List.range 8).all (fun i => s.word (Reg.TNG_PIO_FSEL i) == 0) = true) :
    s.fsel pin = 0 := by
  have hword : s.word (Reg.TNG_PIO_FSEL (pin / 4)) = 0 := beq_iff_eq.mp (List.all_eq_true.mp h (pin / 4) (List.mem_range.mpr (by omega)))
  unfold State.fsel
  rw [hword]
  simp [fieldGet]

theorem State.driven_eq : s.driven = if (List.range 8).all (fun i => s.word (Reg.TNG_PIO_FSEL i) == 0) then (0, 0)
    else (List.range 32).foldl s.addDrive (0, 0) := rfl

theorem State.driven_bits {pin : Nat} (hpin : pin < 32) :
    s.driven.1.getLsbD pin = (s.pinDrive pin).isSome ∧ ∀ b, s.pinDrive pin = some b → s.driven.2.getLsbD pin = b := by
  rw [State.driven_eq]
  by_cases hall : (List.range 8).all (fun i => s.word (Reg.TNG_PIO_FSEL i) == 0) = true
  · rw [if_pos hall, State.pinDrive_of_unselected (State.fsel_of_no_word hpin hall)]
    exact ⟨by simp, fun _ h => nomatch h⟩
  · rw [if_neg hall]
    obtain ⟨hen, hlvl⟩ := State.addDrive_foldl (s := s) 32 (Nat.le_refl _) pin
    rw [hen, hlvl, decide_eq_true hpin]
    exact ⟨rfl, fun b hb => by rw [hb]; rfl⟩

end

theorem Pio.levels_newest {p : Pio} {a pin time : Nat} {en lvl : W32} {r : List (Nat × W32 × W32)} (hist : p.hist = (a, en, lvl) :: r)
    (hle : a ≤ time)
    (hpin : pin < 32) :
    (p.levels time).getLsbD pin = if en.getLsbD pin = true then lvl.getLsbD pin else p.ext.getLsbD pin := by
  unfold Pio.levels
  rw [hist, List.find?_cons_of_pos (by simpa using hle)]
  rw [BitVec.getLsbD_or, BitVec.getLsbD_and, BitVec.getLsbD_and, BitVec.getLsbD_not, decide_eq_true hpin]
  cases en.getLsbD pin <;> simp

theorem Pio.sampled_later (p : Pio) (time : Nat) : p.sampled (time + 10) = p.levels time := by
  unfold Pio.sampled
  rw [if_neg (by omega), Nat.add_sub_cancel]

end Sys2Proof.Machine
end

section
/-!
SUPPORT. The rows of the Tongs instructions (R533, R536), and the statement on Tongs programs.
-/

namespace Sys2Proof.Machine

section

variable {s : State} {t n src : Fin 8} {dest : Fin 64} {pins : W32} {y : State} {i : Instr} {op : TongsOp}

/-- The state in which a row that brings the pins issues, and the levels it samples (R528). -/
def State.issued (s : State) (t : Nat) (pins : W32) : State := (s.withPins pins).stepped t
def State.issuedPins (s : State) (t : Nat) (pins : W32) : W32 := ({ s.pio with ext := pins } : Pio).sampled (s.tngEdge t)

theorem State.tng_issued : (s.issued t pins).tng t = { s.tng t with m := (s.tng t).m + 1 } := State.tng_stepped

theorem State.tngEdge_eq : (s.tng t).t0 + 5 * (if s.get (Reg.TNG_DIV_INT t) = 0 then ((s.tng t).m + 1) * 65536
    else ((s.tng t).m + 1) * s.get (Reg.TNG_DIV_INT t) + ((s.tng t).m + 1) * s.get (Reg.TNG_DIV_FRAC t) / 256) = s.tngEdge t := rfl

theorem State.tngDue_iff : s.tngDue t = true ↔ s.tongsClock = true ∧ s.tngRuns t = true ∧ s.tngEdge t ≤ s.pio.t := by
  simp only [State.tngDue, Bool.and_eq_true, decide_eq_true_eq, and_assoc]

theorem State.tngOp_eq : s.tngOp t = decodeTongs (BitVec.ofNat 16 (let pc := s.get (Reg.TNG_STAT_PC t)
    if pc % 2 = 0 then s.get (Reg.TNG_PROG_I0 t (pc / 2)) else s.get (Reg.TNG_PROG_I1 t (pc / 2)))) := by
  unfold State.tngOp State.tngWord
  dsimp only
  rw [apply_ite s.get]

theorem State.tngMov_k {u : State} {x : Tongs} (hx : u.tng t = { x with m := x.m + 1 }) (hn : n.val < 4) :
    u.tngMov t pins n src = (u.modTng t (fun q => { q with k := q.k.setIfInBounds n (u.movSrc t x pins src) })).tngNext t := by
  rw [State.tngMov_eq hx]
  match n, hn with
  | 0, _ | 1, _ | 2, _ | 3, _ => rfl

theorem State.tngMov_sh {u : State} {x : Tongs} (hx : u.tng t = { x with m := x.m + 1 }) :
    u.tngMov t pins 4 src = (u.modTng t (fun q => { q with sh := u.movSrc t x pins src })).tngNext t := State.tngMov_eq hx

theorem State.tngMov_count {u : State} {x : Tongs} (hx : u.tng t = { x with m := x.m + 1 }) :
    u.tngMov t pins 5 src = (u.set (Reg.TNG_EVCNT_COUNT t) (u.movSrc t x pins src).toNat).tngNext t := State.tngMov_eq hx

theorem State.tngMov_pins {u : State} {x : Tongs} (hx : u.tng t = { x with m := x.m + 1 }) : u.tngMov t pins 6 src =
    ((List.range 8).foldl (fun z p => z.drivePin t p (some ((u.movSrc t x pins src).getLsbD p))) u).tngNext t := State.tngMov_eq hx

end

end Sys2Proof.Machine

open Sys2Proof Sys2Proof.Machine

/-- Settles O53: each row is the step of its instruction, whose effect is that instruction's equation. -/
theorem tongsPrograms : Obligations.TongsPrograms := by
  refine ⟨?_, fun p a pin time en lvl r hist hle hpin => ⟨Pio.levels_newest hist hle hpin, Pio.sampled_later p time⟩,
    fun w => ⟨decodeTongs_high, fun op h => ⟨decodeTongs_pull h, decodeTongs_evt h⟩⟩, by decide⟩
  intro w t n src dest k rs o block level mask imm cnt pins v s hinv
  have hu := State.tng_stepped (s := s) (t := t)
  have hup := State.tng_issued (s := s) (t := t) (pins := pins)
  refine ⟨State.tngEdge_eq, State.tngDue_iff, State.tngOp_eq,
    ⟨(State.tngAt_gets hinv _).1, (State.tngAt_gets hinv _).2, (State.tngAt_gets hinv _).1.trans (Nat.mod_eq_of_lt dest.isLt), State.tngWait_pc hinv⟩,
    State.pioDrive_eq, ⟨fun hg => State.RowIs.of_pins rfl (State.tngJmp_goes hup hg), fun hs => State.RowIs.of_pins rfl (State.tngJmp_stays hup hs)⟩,
    State.RowIs.of_pins rfl ?_, State.RowIs.of_row rfl (State.tngDrive_eq hu), State.RowIs.of_pins rfl rfl,
    State.RowIs.of_row rfl (State.tngShout_eq hu),
    fun y r htx => State.RowIs.of_row rfl (State.tngPull_word hu htx),
    fun htx => ⟨State.RowIs.of_row rfl (State.tngPull_empty hu htx),
    State.RowIs.of_row rfl (State.tngPull_empty hu htx)⟩,
    fun hrx => ⟨State.RowIs.of_row rfl (State.tngPush_full hu hrx), State.RowIs.of_row rfl (State.tngPush_full hu hrx)⟩,
    fun hrx => State.RowIs.of_row rfl (State.tngPush_room hu hrx), State.RowIs.of_row rfl rfl,
    ⟨fun hn => State.RowIs.of_pins rfl (State.tngMov_k hup hn), State.RowIs.of_pins rfl (State.tngMov_sh hup),
    State.RowIs.of_pins rfl (State.tngMov_count hup),
      State.RowIs.of_pins rfl (State.tngMov_pins hup), State.RowIs.of_pins rfl rfl⟩,
    State.RowIs.of_row rfl (State.tngAlu_eq hu), State.RowIs.of_row rfl (State.tngCnt_eq hu), State.RowIs.of_row rfl rfl,
    fun hd => ⟨fun hc => State.RowIs.of_row rfl ((State.tngDelay_starts hu hd).trans (if_neg hc)),
    fun hc => State.RowIs.of_row rfl ((State.tngDelay_starts hu hd).trans (if_pos hc))⟩,
    fun m hd => State.RowIs.of_row rfl (State.tngDelay_goes_on hu hd), exec_tongsIllegal_of_bad, exec_tongsIllegal_of_legal,
    State.tngIllegal_facts hinv,
    exec_tongsRun_on hinv, exec_tongsRun_off hinv, exec_tongsRestart_running, exec_tongsRestart_stopped hinv,
    fun htile hown => ⟨exec_tongsTxfWrite_room htile hown, exec_tongsTxfWrite_full hinv htile hown⟩, fun htile => ⟨fun y r hrx => ?_, fun hrx => ?_⟩,
    fun pin hpin => ⟨State.pinDrive_of_foreign, State.driven_bits hpin⟩⟩
  · show (if (_ == level) = true then _ else _) = _
    simp only [beq_iff_eq]
    rfl
  · rw [exec_tongsRxfRead_eq, State.rxfRead_word htile hrx]
  · rw [exec_tongsRxfRead_eq, State.rxfRead_empty htile hrx]

end

section
/-!
SUPPORT. The pendant receiver (R540 to R543): an equation per command and what an interval leaves.
-/

namespace Sys2Proof.Machine

section

variable {s : State} {w : Who} {v : W32} {mark : Bool} {ns : BitVec 40}

theorem exec_pendMark_eq : exec (.pendMark mark ns) s =
    .next (if s.tongsClock && s.on Reg.TNG_PEND_CFG_EN then s.pendInterval mark ns.toNat else s) := rfl

theorem exec_pendCodeEnd_eq : exec .pendCodeEnd s =
    .next (if s.tongsClock && s.on Reg.TNG_PEND_CFG_EN && s.on Reg.TNG_PEND_STAT_CODE then s.pendEnd else s) := rfl

theorem exec_pendEnable (h : s.ownRefused w Reg.TNG_PEND_CFG = false) : exec (.pendEnable w v) s = .next (s.writePend w v) :=
  congrArg Host.Outcome.next (State.owned_of_open h _)

/-- What a flood leaves (R542). -/
def State.flooded (s : State) : State :=
  let t := ((s.pendDrop.set Reg.TNG_PEND_STAT_FLOOD 1).set Reg.TNG_PEND_STAT_FROZEN 1).record 0x0B02 0xFF 0
  { t with pend := { t.pend with saturated := true, armed := false, froze := true } }

theorem exec_pendFlood_eq : exec .pendFlood s =
    .next (if s.tongsClock && s.on Reg.TNG_PEND_CFG_EN && !s.pend.saturated then s.flooded else s) := rfl

/-- A receiver that is off hears nothing (R540). -/
theorem exec_pend_off (h : s.on Reg.TNG_PEND_CFG_EN = false) :
    exec (.pendMark mark ns) s = .next s ∧ exec .pendCodeEnd s = .next s ∧ exec .pendFlood s = .next s := by
  rw [exec_pendMark_eq, exec_pendCodeEnd_eq, exec_pendFlood_eq, h, Bool.and_false]
  exact ⟨rfl, rfl, rfl⟩

theorem exec_pendMark_on (hclock : s.tongsClock = true) (hen : s.on Reg.TNG_PEND_CFG_EN = true) :
    exec (.pendMark mark ns) s = .next (s.pendInterval mark ns.toNat) := by
  rw [exec_pendMark_eq, hclock, hen]
  rfl

/-- The header mark after a long space opens a code (R541). -/
theorem State.pendInterval_header {ns : Nat} (h : s.Inv) (hcode : s.on Reg.TNG_PEND_STAT_CODE = false) (hsat : s.pend.saturated = false)
    (harmed : s.pend.armed = true) (hlong : s.get Reg.TNG_PEND_CFG_HDR * 10000 ≤ ns) :
    (s.pendInterval true ns).get Reg.TNG_PEND_STAT_CODE = 1 ∧ (s.pendInterval true ns).get Reg.TNG_PEND_STAT_FROZEN = 1 ∧
    (s.pendInterval true ns).pend.n = 0 ∧ (s.pendInterval true ns).pend.bits = 0 := by
  have heq : s.pendInterval true ns = { (s.set Reg.TNG_PEND_STAT_CODE 1).set Reg.TNG_PEND_STAT_FROZEN 1 with
      pend := { s.pend with armed := false, bits := 0, n := 0, markBit := false } } := by
    unfold State.pendInterval
    dsimp only
    rw [if_pos rfl, hsat, if_neg Bool.false_ne_true, hcode, if_neg Bool.false_ne_true, harmed, decide_eq_true hlong, Bool.and_self, if_pos rfl]
  have h1 : (s.set Reg.TNG_PEND_STAT_CODE 1).Inv := h.set
  have hcode1 : ((s.set Reg.TNG_PEND_STAT_CODE 1).set Reg.TNG_PEND_STAT_FROZEN 1).get Reg.TNG_PEND_STAT_CODE = 1 := by
    rw [h1.get_set_of_apart _ _ _ (by decide) (by decide)]
    exact h.get_set_self _ _ (by decide) (by decide)
  have hfrozen1 : ((s.set Reg.TNG_PEND_STAT_CODE 1).set Reg.TNG_PEND_STAT_FROZEN 1).get Reg.TNG_PEND_STAT_FROZEN = 1 :=
    h1.get_set_self _ _ (by decide) (by decide)
  rw [heq]
  exact ⟨hcode1, hfrozen1, rfl, rfl⟩

theorem State.pendInterval_end {ns : Nat} (hcode : s.on Reg.TNG_PEND_STAT_CODE = true) (hlong : s.get Reg.TNG_PEND_CFG_END * 10000 ≤ ns) :
    s.pendInterval false ns = s.pendEnd := by
  unfold State.pendInterval
  dsimp only
  rw [if_neg Bool.false_ne_true, hcode, if_pos rfl, if_pos hlong]

/-- A space after a data mark is a bit of the code: 1 from SPLIT on (R541). -/
theorem State.pendInterval_bit {ns : Nat} (hcode : s.on Reg.TNG_PEND_STAT_CODE = true) (hshort : ns < s.get Reg.TNG_PEND_CFG_END * 10000)
    (hmark : s.pend.markBit = true) (hn : s.pend.n < 24) : s.pendInterval false ns = { s with pend := { s.pend with
      bits := s.pend.bits ||| ((if s.get Reg.TNG_PEND_CFG_SPLIT * 1000 ≤ ns then 1 else 0 : W32) <<< s.pend.n), n := s.pend.n + 1,
      markBit := false } } := by
  unfold State.pendInterval
  dsimp only
  rw [if_neg Bool.false_ne_true, hcode, if_pos rfl, if_neg (Nat.not_le.mpr hshort), hmark, if_neg (by decide), if_neg (Nat.not_le.mpr hn)]

theorem State.pendDrop_gets (h : s.Inv) : s.pendDrop.get Reg.TNG_PEND_STAT_CODE = 0 ∧
    s.pendDrop.get Reg.TNG_PEND_STAT_FROZEN = if s.pend.froze then 1 else 0 := by
  have h1 : (s.set Reg.TNG_PEND_STAT_CODE 0).Inv := h.set
  have hcode : ((s.set Reg.TNG_PEND_STAT_CODE 0).setB Reg.TNG_PEND_STAT_FROZEN s.pend.froze).get Reg.TNG_PEND_STAT_CODE = 0 := by
    rw [State.setB, h1.get_set_of_apart _ _ _ (by decide) (by decide)]
    exact h.get_set_self _ _ (by decide) (by decide)
  refine ⟨hcode, h1.get_set_self _ _ (by decide) ?_⟩
  split <;> decide

theorem State.Inv.pendDropped (h : s.Inv) : s.pendDrop.Inv := .beside (.setB (.set h))

/-- A code's end delivers its word and raises EVT (R541). -/
theorem exec_pendCodeEnd_on (h : s.Inv) (hclock : s.tongsClock = true) (hen : s.on Reg.TNG_PEND_CFG_EN = true)
    (hcode : s.on Reg.TNG_PEND_STAT_CODE = true) (hn : s.pend.n ≠ 0) : ∃ u : State, exec .pendCodeEnd s = .next s.pendEnd ∧
      s.pendEnd = ((u.tngDeliver (s.get Reg.TNG_PEND_CFG_TM) (s.pend.bits ||| BitVec.ofNat 32 (s.pend.n * 2 ^ 24 + 2 ^ 31))).tngEvent
        (s.get Reg.TNG_PEND_CFG_TM)) ∧ u.get Reg.TNG_PEND_STAT_CODE = 0 ∧ u.pend.armed = true ∧ u.tongs = s.tongs := by
  refine ⟨{ s.pendDrop with pend := { s.pendDrop.pend with armed := true } }, ?_, if_neg hn, (State.pendDrop_gets h).1, rfl, rfl⟩
  rw [exec_pendCodeEnd_eq, hclock, hen, hcode]
  rfl

theorem exec_pendFlood_on (h : s.Inv) (hclock : s.tongsClock = true) (hen : s.on Reg.TNG_PEND_CFG_EN = true) (hsat : s.pend.saturated = false) :
    ∃ t, exec .pendFlood s = .next t ∧ t.get Reg.TNG_PEND_STAT_FLOOD = 1 ∧ t.get Reg.TNG_PEND_STAT_FROZEN = 1 ∧
      t.pend.saturated = true ∧ t.pend.froze = true ∧ (t.ledger.head?.map (fun x => x.code)) = some 0x0B02 := by
  have h1 : (s.pendDrop.set Reg.TNG_PEND_STAT_FLOOD 1).Inv := h.pendDropped.set
  have hgoes : (s.tongsClock && s.on Reg.TNG_PEND_CFG_EN && !s.pend.saturated) = true := by rw [hclock, hen, hsat]; rfl
  refine ⟨s.flooded, exec_pendFlood_eq.trans (congrArg _ (if_pos hgoes)), ?_, ?_, rfl, rfl, rfl⟩
  · show State.get (((s.pendDrop.set Reg.TNG_PEND_STAT_FLOOD 1).set Reg.TNG_PEND_STAT_FROZEN 1).record 0x0B02 0xFF 0) Reg.TNG_PEND_STAT_FLOOD = 1
    rw [State.get_record_of_ne _ _ _ _ _ (by decide), h1.get_set_of_apart _ _ _ (by decide) (by decide)]
    exact h.pendDropped.get_set_self _ _ (by decide) (by decide)
  · show State.get (((s.pendDrop.set Reg.TNG_PEND_STAT_FLOOD 1).set Reg.TNG_PEND_STAT_FROZEN 1).record 0x0B02 0xFF 0) Reg.TNG_PEND_STAT_FROZEN = 1
    rw [State.get_record_of_ne _ _ _ _ _ (by decide)]
    exact h1.get_set_self _ _ (by decide) (by decide)

theorem exec_pendThresholdResume (h : s.Inv) (hclock : s.tongsClock = true) (hsat : s.pend.saturated = false)
    (hcode : s.on Reg.TNG_PEND_STAT_CODE = false) : ∃ t, exec .pendThresholdResume s = .next t ∧ t.get Reg.TNG_PEND_STAT_FROZEN = 0 ∧
      t = { s with regs := t.regs, pend := { s.pend with froze := false } } := by
  have hgoes : ¬ (s.pend.saturated || s.on Reg.TNG_PEND_STAT_CODE || !s.tongsClock) = true := by rw [hclock, hsat, hcode]; decide
  have hfrozen : (s.set Reg.TNG_PEND_STAT_FROZEN 0).get Reg.TNG_PEND_STAT_FROZEN = 0 := h.get_set_self _ _ (by decide) (by decide)
  exact ⟨{ s.set Reg.TNG_PEND_STAT_FROZEN 0 with pend := { s.pend with froze := false } }, congrArg Host.Outcome.next (if_neg hgoes), hfrozen, rfl⟩

end

end Sys2Proof.Machine
end

section
/-!
SUPPORT. Timers (R544, R545, R547 to R550, R552): an equation per command, what a capture leaves, and the statement.
-/

namespace Sys2Proof.Machine

section

variable {s : State} {w : Who} {n : Fin 16} {c : Fin 4} {b : Bool} {mask : BitVec 4}

theorem State.get_modTimer (k : Nat) (f : Timer → Timer) (g : Fld) : (s.modTimer k f).get g = s.get g := rfl

/-! ## RUN and SWCAP (R545, R548) -/

theorem exec_timerRun (hown : s.ownRefused w (Reg.TMR_CTRL n) = false) : exec (.timerRun w n b) s = .next (s.tmrRun n b) :=
  congrArg Host.Outcome.next (State.owned_of_open hown _)

theorem exec_timerRun_on (h : s.Inv) (hown : s.ownRefused w (Reg.TMR_CTRL n) = false) (hrun : s.on (Reg.TMR_CTRL_RUN n) = false) :
    ∃ t, exec (.timerRun w n true) s = .next t ∧ t.get (Reg.TMR_CTRL_RUN n) = 1 ∧
      t.get (Reg.TMR_STAT_OUT n) = s.get (Reg.TMR_CFG_OINIT n) ∧ (t.timer n).pre = 0 := by
  have h1 : (s.set (Reg.TMR_CTRL_RUN n) 1).Inv := h.set
  have hne : (Reg.TMR_CTRL_RUN n).addr ≠ (Reg.TMR_STAT_OUT n).addr := by simp only [Reg.TMR_CTRL_RUN, Reg.TMR_STAT_OUT]; omega
  have heq : s.tmrRun n true = ((s.set (Reg.TMR_CTRL_RUN n) 1).set (Reg.TMR_STAT_OUT n) (s.get (Reg.TMR_CFG_OINIT n))).modTimer n
      (fun x => { x with stopping := false, pre := 0 }) := by
    unfold State.tmrRun
    dsimp only
    rw [hrun, if_pos (by decide)]
  refine ⟨_, exec_timerRun hown, ?_⟩
  rw [heq, State.get_modTimer, State.get_modTimer, State.timer_modTimer_self _ _ _ n.isLt]
  refine ⟨?_, h1.get_set_self _ _ (by simp [Fld.ok, Reg.TMR_STAT_OUT]) (State.get_lt _ _), rfl⟩
  rw [State.get_set_of_ne _ _ _ _ hne]
  exact h.get_set_self _ _ (by simp [Fld.ok, Reg.TMR_CTRL_RUN]) (by simp [Reg.TMR_CTRL_RUN])

theorem exec_timerRun_off (h : s.Inv) (hown : s.ownRefused w (Reg.TMR_CTRL n) = false) (hrun : s.on (Reg.TMR_CTRL_RUN n) = true) :
    ∃ t, exec (.timerRun w n false) s = .next t ∧ t.get (Reg.TMR_CTRL_RUN n) = 0 ∧ (t.timer n).stopping = true := by
  have heq : s.tmrRun n false = (s.set (Reg.TMR_CTRL_RUN n) 0).modTimer n (fun x => { x with stopping := true }) := by
    unfold State.tmrRun
    dsimp only
    rw [hrun, if_neg (by decide), if_pos (by decide)]
  refine ⟨_, exec_timerRun hown, ?_⟩
  rw [heq, State.get_modTimer, State.timer_modTimer_self _ _ _ n.isLt]
  exact ⟨h.get_set_self _ _ (by simp [Fld.ok, Reg.TMR_CTRL_RUN]) (by simp), rfl⟩

theorem exec_timerSwcap (hown : s.ownRefused w (Reg.TMR_CTRL n) = false) : exec (.timerSwcap w n mask) s =
    .next (s.each 4 (fun i t => if mask.toNat / 2 ^ i % 2 = 1 then t.tmrCapture n i else t)) :=
  congrArg Host.Outcome.next (State.owned_of_open hown _)

/-! ## Captures (R548, R549) -/

/-- The edge is the one the capture takes, on a pin the timer's owner owns (R528, R548). -/
def State.capFires (s : State) (n c : Nat) (rising : Bool) : Bool :=
  s.tongsClock && (s.capSrc n c == 3 || (s.capSrc n c == 1 && rising) || (s.capSrc n c == 2 && !rising)) &&
    s.pinOwner (s.capIdx n c) == s.bindOwner 7 n

theorem State.capFires_iff : s.capFires n c b = true ↔ (s.tongsClock = true ∧
    (s.capSrc n c = 3 ∨ (s.capSrc n c = 1 ∧ b = true) ∨ (s.capSrc n c = 2 ∧ b = false)) ∧ s.pinOwner (s.capIdx n c) = s.bindOwner 7 n) := by
  simp only [State.capFires, Bool.and_eq_true, Bool.or_eq_true, beq_iff_eq, Bool.not_eq_true', and_assoc, or_assoc]

theorem exec_timerCapture_eq : exec (.timerCapture n c b) s =
    .next (if s.capFires n c b then (s.bringPin (s.capIdx n c) b).tmrCapture n c else s) := rfl

/-- The registers of a capture that lands (R549). -/
def State.capRegs (s : State) (n c : Nat) : State :=
  let t := if s.on (Reg.TMR_CAP_HI_FRESH n c) then s.set (Reg.TMR_CAP_HI_OVERCAP n c) 1 else s
  (t.set48 (Reg.TMR_CAP_LO_VAL n c) (Reg.TMR_CAP_HI_VAL n c) (s.tmrCnt n)).set (Reg.TMR_CAP_HI_FRESH n c) 1

/-- Capture 0 keeps its values for the difference of R470. -/
def State.capNote (s : State) (n c v : Nat) : State :=
  if c = 0 then s.modTimer n (fun x => { x with prev0 := x.last0, last0 := BitVec.ofNat 48 v, caps0 := min 2 (x.caps0 + 1) }) else s

theorem State.get_capNote (t : State) (k i v : Nat) (f : Fld) : (t.capNote k i v).get f = t.get f := by
  unfold State.capNote
  split
  · exact State.get_modTimer _ _ _
  · rfl

theorem State.tmrCapture_eq (t : State) (k i : Nat) : t.tmrCapture k i =
    if ((t.capRegs k i).capNote k i (t.tmrCnt k)).get (Reg.TMR_EVCFG_CAPIEN k) / 2 ^ i % 2 = 1 then
      ((t.capRegs k i).capNote k i (t.tmrCnt k)).registerAll (38 + k) else (t.capRegs k i).capNote k i (t.tmrCnt k) := rfl

theorem State.capRegs_capien : (s.capRegs n c).get (Reg.TMR_EVCFG_CAPIEN n) = s.get (Reg.TMR_EVCFG_CAPIEN n) := by
  have hne : ∀ a, a = 0xb820 ∨ a = 0xb824 → (Reg.TMR_EVCFG_CAPIEN n).addr ≠ a + 0x80 * n + 0x8 * c := by
    intro a ha
    simp only [Reg.TMR_EVCFG_CAPIEN]
    omega
  unfold State.capRegs State.set48
  dsimp only
  rw [State.get_set_of_ne _ _ _ _ (hne _ (.inr rfl)), State.get_set_of_ne _ _ _ _ (hne _ (.inr rfl)),
    State.get_set_of_ne _ _ _ _ (hne _ (.inl rfl))]
  split
  · exact State.get_set_of_ne _ _ _ _ (hne _ (.inr rfl))
  · rfl

theorem State.tmrCapture_silent (hien : s.get (Reg.TMR_EVCFG_CAPIEN n) / 2 ^ c.val % 2 = 0) (f : Fld) :
    (s.tmrCapture n c).get f = (s.capRegs n c).get f := by
  have hno : ¬ s.get (Reg.TMR_EVCFG_CAPIEN n) / 2 ^ c.val % 2 = 1 := by rw [hien]; decide
  rw [State.tmrCapture_eq, State.get_capNote, State.capRegs_capien, if_neg hno, State.get_capNote]

theorem State.tmrCnt_lt : s.tmrCnt n < 2 ^ 48 := by
  have hlo : s.get (Reg.TMR_CNT_LO_CNT n) < 2 ^ 32 := State.get_lt _ _
  have hhi : s.get (Reg.TMR_CNT_HI_CNT n) < 2 ^ 16 := State.get_lt _ _
  unfold State.tmrCnt State.get48
  omega

theorem State.capRegs_gets (h : s.Inv) :
    (s.capRegs n c).get48 (Reg.TMR_CAP_LO_VAL n c) (Reg.TMR_CAP_HI_VAL n c) = s.tmrCnt n ∧ (s.capRegs n c).get (Reg.TMR_CAP_HI_FRESH n c) = 1 ∧
    (s.capRegs n c).get (Reg.TMR_CAP_HI_OVERCAP n c) =
      (if s.on (Reg.TMR_CAP_HI_FRESH n c) = true then 1 else s.get (Reg.TMR_CAP_HI_OVERCAP n c)) ∧
    (s.capRegs n c).tmrCnt n = s.tmrCnt n := by
  have hv := State.tmrCnt_lt (s := s) (n := n)
  generalize hvn : s.tmrCnt n = v at hv
  let t := if s.on (Reg.TMR_CAP_HI_FRESH n c) then s.set (Reg.TMR_CAP_HI_OVERCAP n c) 1 else s
  have ht : t.Inv := .ite h.set h
  have h1 : (t.set (Reg.TMR_CAP_LO_VAL n c) v).Inv := ht.set
  have h2 : ((t.set (Reg.TMR_CAP_LO_VAL n c) v).set (Reg.TMR_CAP_HI_VAL n c) (v / 2 ^ 32)).Inv := h1.set
  have heq : s.capRegs n c = ((t.set (Reg.TMR_CAP_LO_VAL n c) v).set (Reg.TMR_CAP_HI_VAL n c) (v / 2 ^ 32)).set (Reg.TMR_CAP_HI_FRESH n c) 1 := by
    unfold State.capRegs
    rw [hvn]
    rfl
  have hfok : (Reg.TMR_CAP_HI_FRESH n c).ok = true := by simp [Fld.ok, Reg.TMR_CAP_HI_FRESH]
  have hvok : (Reg.TMR_CAP_HI_VAL n c).ok = true := by simp [Fld.ok, Reg.TMR_CAP_HI_VAL]
  have hlohi : (Reg.TMR_CAP_LO_VAL n c).addr ≠ (Reg.TMR_CAP_HI_VAL n c).addr := by simp only [Reg.TMR_CAP_LO_VAL, Reg.TMR_CAP_HI_VAL]; omega
  have hoverlo : (Reg.TMR_CAP_HI_OVERCAP n c).addr ≠ (Reg.TMR_CAP_LO_VAL n c).addr := hlohi.symm
  have hcnt : ∀ a, a = 0xb818 ∨ a = 0xb81c → ∀ k, k = 0xb820 ∨ k = 0xb824 → a + 0x80 * n.val ≠ k + 0x80 * n + 0x8 * c := by omega
  have hkeep : ∀ a lo width, a = 0xb818 ∨ a = 0xb81c → (s.capRegs n c).get ⟨a + 0x80 * n, lo, width⟩ = s.get ⟨a + 0x80 * n, lo, width⟩ := by
    intro a lo width ha
    rw [heq, State.get_set_of_ne _ _ _ _ (hcnt a ha _ (.inr rfl)), State.get_set_of_ne _ _ _ _ (hcnt a ha _ (.inr rfl)),
      State.get_set_of_ne _ _ _ _ (hcnt a ha _ (.inl rfl))]
    by_cases hf : s.on (Reg.TMR_CAP_HI_FRESH n c) = true
    · rw [show t = _ from if_pos hf]
      exact State.get_set_of_ne _ _ _ _ (hcnt a ha _ (.inr rfl))
    · rw [show t = s from if_neg hf]
  refine ⟨?_, ?_, ?_, ?_⟩
  · have hlo : (s.capRegs n c).get (Reg.TMR_CAP_LO_VAL n c) = v % 2 ^ 32 := by
      have hlofresh : (Reg.TMR_CAP_LO_VAL n c).addr ≠ (Reg.TMR_CAP_HI_FRESH n c).addr := hlohi
      rw [heq, State.get_set_of_ne _ _ _ _ hlofresh, State.get_set_of_ne _ _ _ _ hlohi]
      exact State.get_set_self _ _ _ ht.regsWf (by simp [Fld.ok, Reg.TMR_CAP_LO_VAL])
    have hhi : (s.capRegs n c).get (Reg.TMR_CAP_HI_VAL n c) = v / 2 ^ 32 := by
      rw [heq, h2.get_set_of_apart _ _ _ hfok (by simp [Fld.apart, Reg.TMR_CAP_HI_VAL, Reg.TMR_CAP_HI_FRESH])]
      exact h1.get_set_self _ _ hvok (by simp only [Reg.TMR_CAP_HI_VAL]; omega)
    rw [State.get48, hlo, hhi]
    omega
  · rw [heq]
    exact h2.get_set_self _ _ hfok (by simp [Reg.TMR_CAP_HI_FRESH])
  · rw [heq, h2.get_set_of_apart _ _ _ hfok (by simp [Fld.apart, Reg.TMR_CAP_HI_OVERCAP, Reg.TMR_CAP_HI_FRESH]),
      h1.get_set_of_apart _ _ _ hvok (by simp [Fld.apart, Reg.TMR_CAP_HI_OVERCAP, Reg.TMR_CAP_HI_VAL]), State.get_set_of_ne _ _ _ _ hoverlo]
    by_cases hf : s.on (Reg.TMR_CAP_HI_FRESH n c) = true
    · rw [if_pos hf, show t = _ from if_pos hf]
      exact h.get_set_self _ _ (by simp [Fld.ok, Reg.TMR_CAP_HI_OVERCAP]) (by simp [Reg.TMR_CAP_HI_OVERCAP])
    · rw [if_neg hf, show t = s from if_neg hf]
  · rw [← hvn]
    exact congrArg₂ (fun x y => x + y * 2 ^ 32) (hkeep _ _ _ (.inl rfl)) (hkeep _ _ _ (.inr rfl))

theorem State.tmrCapture_gets (h : s.Inv) (hien : s.get (Reg.TMR_EVCFG_CAPIEN n) / 2 ^ c.val % 2 = 0) :
    (s.tmrCapture n c).get48 (Reg.TMR_CAP_LO_VAL n c) (Reg.TMR_CAP_HI_VAL n c) = s.tmrCnt n ∧ (s.tmrCapture n c).get (Reg.TMR_CAP_HI_FRESH n c) = 1 ∧
    (s.tmrCapture n c).get (Reg.TMR_CAP_HI_OVERCAP n c) =
      (if s.on (Reg.TMR_CAP_HI_FRESH n c) = true then 1 else s.get (Reg.TMR_CAP_HI_OVERCAP n c)) ∧
    (s.tmrCapture n c).tmrCnt n = s.tmrCnt n := by
  simpa only [State.tmrCnt, State.get48, State.tmrCapture_silent hien] using State.capRegs_gets (n := n) (c := c) h

/-! ## Compares and wraps (R544, R550) -/

theorem exec_timerCompareMatch_eq : exec (.timerCompareMatch n c) s = .next (
    if s.tongsClock && s.on (Reg.TMR_CTRL_RUN n) && s.tmrCnt n != s.tmrCmp n c && !s.tmrNever n c then
      (s.modTimer n (fun x => { x with pre := 0 })).tmrTo n (s.tmrCmp n c)
    else if s.tongsClock && (s.timer n).stopping && s.tmrNext n == s.tmrCmp n c then s.tmrCount n else s) := rfl

theorem exec_timerWrap_eq : exec (.timerWrap n) s = .next (
    if s.tongsClock && s.on (Reg.TMR_CTRL_RUN n) then ((s.set (Reg.TMR_STAT_WRAP n) 1).modTimer n (fun x => { x with pre := 0 })).tmrTo n 0
    else if s.tongsClock && (s.timer n).stopping && s.tmrNext n == 0 then s.tmrCount n else s) := rfl

theorem exec_timerCountEdge_eq : exec (.timerCountEdge n) s = .next (
    if s.tongsClock && s.on (Reg.TMR_CFG_CSRC n) && s.pinOwner (s.get (Reg.TMR_CFG_CPIN n)) == s.bindOwner 7 n then
      (s.bringPin (s.get (Reg.TMR_CFG_CPIN n)) true).tmrCount n else s) := rfl

theorem exec_timerCompareMatch_runs (hclock : s.tongsClock = true) (hrun : s.on (Reg.TMR_CTRL_RUN n) = true) (hne : s.tmrCnt n ≠ s.tmrCmp n c)
    (hmode : s.on (Reg.TMR_CFG_MODE n) = false) :
    exec (.timerCompareMatch n c) s = .next ((s.modTimer n (fun x => { x with pre := 0 })).tmrTo n (s.tmrCmp n c)) := by
  have hnever : s.tmrNever n c = false := by rw [State.tmrNever, hmode, Bool.false_and]
  rw [exec_timerCompareMatch_eq, hclock, hrun, bne_iff_ne.mpr hne, hnever, if_pos (by decide)]

theorem exec_timerWrap_runs (hclock : s.tongsClock = true) (hrun : s.on (Reg.TMR_CTRL_RUN n) = true) :
    exec (.timerWrap n) s = .next (((s.set (Reg.TMR_STAT_WRAP n) 1).modTimer n (fun x => { x with pre := 0 })).tmrTo n 0) := by
  rw [exec_timerWrap_eq, hclock, hrun, if_pos (by decide)]

theorem exec_timer_stopped (hrun : s.on (Reg.TMR_CTRL_RUN n) = false) (hstop : (s.timer n).stopping = false) :
    exec (.timerCompareMatch n c) s = .next s ∧ exec (.timerWrap n) s = .next s := by
  rw [exec_timerCompareMatch_eq, exec_timerWrap_eq, hrun, hstop]
  simp only [Bool.and_false, Bool.false_and, if_false, Bool.false_eq_true, and_self]

theorem exec_timerCompareMatch_last (hclock : s.tongsClock = true) (hrun : s.on (Reg.TMR_CTRL_RUN n) = false) (hstop : (s.timer n).stopping = true)
    (hnext : s.tmrNext n = s.tmrCmp n c) : exec (.timerCompareMatch n c) s = .next (s.tmrCount n) := by
  rw [exec_timerCompareMatch_eq, hclock, hrun, hstop, beq_iff_eq.mpr hnext, Bool.and_false, Bool.false_and, Bool.false_and, if_neg Bool.false_ne_true,
    if_pos (by decide)]

/-- In NAP and HIBERNATE nothing counts (R552). -/
theorem exec_timer_sleeps (hclock : s.tongsClock = false) :
    exec (.timerCompareMatch n c) s = .next s ∧ exec (.timerWrap n) s = .next s ∧ exec (.timerCountEdge n) s = .next s := by
  rw [exec_timerCompareMatch_eq, exec_timerWrap_eq, exec_timerCountEdge_eq, hclock]
  exact ⟨rfl, rfl, rfl⟩

theorem exec_timerCountEdge_counts (hclock : s.tongsClock = true) (hsrc : s.on (Reg.TMR_CFG_CSRC n) = true)
    (hpin : s.pinOwner (s.get (Reg.TMR_CFG_CPIN n)) = s.bindOwner 7 n) :
    exec (.timerCountEdge n) s = .next ((s.bringPin (s.get (Reg.TMR_CFG_CPIN n)) true).tmrCount n) := by
  rw [exec_timerCountEdge_eq, hclock, hsrc, beq_iff_eq.mpr hpin, if_pos (by decide)]

theorem exec_timerCountEdge_prescaled (hsrc : s.on (Reg.TMR_CFG_CSRC n) = false) : exec (.timerCountEdge n) s = .next s := by
  rw [exec_timerCountEdge_eq, hsrc, Bool.and_false]
  rfl

/-! ## Reads (R547, R549) -/

theorem exec_timerRunningRead_runs (h : s.Inv) (hrun : s.on (Reg.TMR_CTRL_RUN n) = true) : ∃ t : State,
    exec (.timerRunningRead w n) s = .next (t.send (.readValue w (Reg.TMR_CNT_LO n) 0xFFFFFFFF)) ∧ t.get (Reg.TMR_STAT_RUNRD n) = 1 ∧
    t.tmrCnt n = s.tmrCnt n := by
  have hread : s.readCnt n = (0xFFFFFFFF, (s.set (Reg.TMR_STAT_RUNRD n) 1).capture (Reg.TMR_CNT_HI n) 0xFFFF) := if_pos hrun
  have hget : ∀ (t : State) k v f, (t.capture k v).get f = t.get f := fun _ _ _ _ => rfl
  have hlo : (Reg.TMR_CNT_LO_CNT n).addr ≠ (Reg.TMR_STAT_RUNRD n).addr := by simp only [Reg.TMR_CNT_LO_CNT, Reg.TMR_STAT_RUNRD]; omega
  have hhi : (Reg.TMR_CNT_HI_CNT n).addr ≠ (Reg.TMR_STAT_RUNRD n).addr := by simp only [Reg.TMR_CNT_HI_CNT, Reg.TMR_STAT_RUNRD]; omega
  have hexec : exec (.timerRunningRead w n) s = .next ((s.readCnt n).2.send (.readValue w (Reg.TMR_CNT_LO n) (s.readCnt n).1)) := rfl
  refine ⟨_, by rw [hexec, hread], ?_, ?_⟩
  · rw [hget]
    exact h.get_set_self _ _ (by simp [Fld.ok, Reg.TMR_STAT_RUNRD]) (by simp [Reg.TMR_STAT_RUNRD])
  · simp only [State.tmrCnt, State.get48, hget, State.get_set_of_ne _ _ _ _ hlo, State.get_set_of_ne _ _ _ _ hhi]

theorem exec_captureRead (h : s.Inv) : ∃ t : State,
    exec (.captureRead w n c) s = .next (t.send (.readValue w (Reg.TMR_CAP_LO n c) (s.word (Reg.TMR_CAP_LO n c)))) ∧
    t.get (Reg.TMR_CAP_HI_FRESH n c) = 0 ∧ t.get (Reg.TMR_CAP_HI_OVERCAP n c) = 0 := by
  have h0 : (s.capture (Reg.TMR_CAP_HI n c) (s.word (Reg.TMR_CAP_HI n c))).Inv := .beside h
  have h1 : ((s.capture (Reg.TMR_CAP_HI n c) (s.word (Reg.TMR_CAP_HI n c))).set (Reg.TMR_CAP_HI_FRESH n c) 0).Inv := h0.set
  have hok : (Reg.TMR_CAP_HI_OVERCAP n c).ok = true := by simp [Fld.ok, Reg.TMR_CAP_HI_OVERCAP]
  refine ⟨(s.readCap n c).2, rfl, ?_, h1.get_set_self _ _ hok (by simp)⟩
  rw [State.readCap, h1.get_set_of_apart _ _ _ hok (by simp [Fld.apart, Reg.TMR_CAP_HI_FRESH, Reg.TMR_CAP_HI_OVERCAP])]
  exact h0.get_set_self _ _ (by simp [Fld.ok, Reg.TMR_CAP_HI_FRESH]) (by simp)

end

/-- A code's bit in place, counted as a number. -/
theorem cast_bit_shiftLeft (p : Prop) [Decidable p] (n : Nat) : (((if p then 1 else 0) <<< n : Nat) : W32) = (if p then 1 else 0 : W32) <<< n := by
  refine BitVec.eq_of_toNat_eq ?_
  split <;> simp [BitVec.toNat_shiftLeft]

end Sys2Proof.Machine

open Sys2Proof Sys2Proof.Machine

/-- Settles O54: each command is its equation, and each clause decides that equation's condition. -/
theorem pendantAndTimers : Obligations.PendantAndTimers := by
  refine ⟨fun w v mark ns s h => ?_, fun w n c b mask s h => ?_⟩
  · refine ⟨exec_pendEnable, exec_pend_off, exec_pendMark_on, State.pendInterval_header h, State.pendInterval_end, fun hcode hshort hmark hn => ?_,
      exec_pendCodeEnd_on h, exec_pendFlood_on h, exec_pendThresholdResume h, fun hfroze => ?_⟩
    · rw [State.pendInterval_bit hcode hshort hmark hn]
      exact ⟨rfl, rfl, rfl, congrArg (s.pend.bits ||| ·) (cast_bit_shiftLeft _ _).symm⟩
    · rw [(State.pendDrop_gets h).2, if_pos hfroze]
  · refine ⟨fun hown => ⟨exec_timerRun_on h hown, exec_timerRun_off h hown, exec_timerSwcap hown⟩, ⟨fun hf => ?_, fun hf => ?_⟩,
      State.tmrCapture_gets h, exec_timerCompareMatch_runs, exec_timerWrap_runs, exec_timer_stopped, exec_timerCompareMatch_last, exec_timer_sleeps,
      exec_timerRunningRead_runs h, exec_captureRead h, exec_timerCountEdge_counts, exec_timerCountEdge_prescaled⟩
    · exact exec_timerCapture_eq.trans (congrArg _ (if_pos (State.capFires_iff.mpr hf)))
    · exact exec_timerCapture_eq.trans (congrArg _ (if_neg fun hc => hf (State.capFires_iff.mp hc)))

end

section
/-!
SUPPORT. Ingot operations (R563, R565, R567, R568, R573 to R575): what each command leaves, and the statement.
-/

namespace Sys2Proof.Machine

section

variable {s : State} {w : Who} {i : BitVec 15} {j : IngJob} {b : Bool}

/-! ## ING_CMD (R567) -/

/-- What a write to ING_CMD puts into the register. -/
def State.ingCmdReg (s : State) (idx op : Nat) : State := (s.set Reg.ING_CMD_INDEX idx).set Reg.ING_CMD_OP op

/-- The fields of a word with GO, this OP and this INDEX. -/
theorem ingCmdWord_fields {op : Nat} (hop : op < 4) : fieldGet (BitVec.ofNat 32 (0x80000000 + op * 0x10000 + i.toNat)) 0 15 = i.toNat ∧
    fieldGet (BitVec.ofNat 32 (0x80000000 + op * 0x10000 + i.toNat)) 16 2 = op ∧
    fieldGet (BitVec.ofNat 32 (0x80000000 + op * 0x10000 + i.toNat)) 31 1 = 1 := by
  have hi := i.isLt
  simp only [fieldGet, BitVec.toNat_ofNat]
  omega

theorem State.writeIngCmd_go {op : Nat} (hop : op < 4) : s.writeIngCmd (BitVec.ofNat 32 (0x80000000 + op * 0x10000 + i.toNat)) =
    if s.get Reg.ING_CMDSTAT_RESULT = 1 then s.ingCmdReg i.toNat op
    else if op = 0 ∨ op = 3 ∨ (op = 2 ∧ 127 < i.toNat) then ((s.ingCmdReg i.toNat op).set Reg.ING_CMDSTAT_RESULT 3).set Reg.ING_CMDSTAT_CODE 1
    else (((s.ingCmdReg i.toNat op).set Reg.ING_CMDSTAT_RESULT 1).set Reg.ING_CMDSTAT_CODE 0).ingQueue
      { src := .cmd, erase := op == 2, idx := i.toNat,
        data := if op = 1 then (List.range 64).flatMap (fun k => leBytes 4 ((s.ingCmdReg i.toNat op).word (Reg.ING_BUF k)).toNat) else [],
        left := 1, cut := false } := by
  obtain ⟨hidx, hopf, hgo⟩ := ingCmdWord_fields (i := i) hop
  unfold State.writeIngCmd
  rw [hidx, hopf, hgo]
  dsimp only
  by_cases hbusy : s.get Reg.ING_CMDSTAT_RESULT = 1
  · rw [if_pos (.inr (beq_iff_eq.mpr hbusy)), if_pos hbusy]
    rfl
  · rw [if_neg (by simp [hbusy]), if_neg hbusy]
    rfl

theorem exec_ingCmdProgram_eq (hown : s.ownRefused w Reg.ING_CMD = false) :
    exec (.ingCmdProgram w i) s = .next (s.writeIngCmd (BitVec.ofNat 32 (0x80000000 + 1 * 0x10000 + i.toNat))) :=
  congrArg Host.Outcome.next (State.owned_of_open hown _)

theorem exec_ingCmdErase_eq (hown : s.ownRefused w Reg.ING_CMD = false) :
    exec (.ingCmdErase w i) s = .next (s.writeIngCmd (BitVec.ofNat 32 (0x80000000 + 2 * 0x10000 + i.toNat))) :=
  congrArg Host.Outcome.next (State.owned_of_open hown _)

/-! ## The end of a program (R568 to R571) -/

/-- The page of a program's unit has taken effect (R568). -/
def State.pageDone (s : State) (j : IngJob) : State :=
  let k := Memory.ingot (j.idx * 256)
  let t := s.wr k (j.data.take 256)
  { t with eccUnc := t.eccUnc.filter (fun g => decide (g < k ∨ k + 256 ≤ g)), eccOne := t.eccOne.filter (fun g => decide (g < k ∨ k + 256 ≤ g)) }

theorem exec_pageProgramDone_ok (hcur : s.ing.cur = some j) (herase : j.erase = false) : exec (.pageProgramDone true) s =
    .next ((s.pageDone j).ingUnitDone j { j with idx := j.idx + 1, data := j.data.drop 256 } (decide (256 < j.data.length))) := by
  show execPageProgramDone true s = _
  unfold execPageProgramDone
  rw [hcur]
  dsimp only
  rw [herase]
  rfl

theorem exec_pageProgramDone_last (h : s.Inv) (hcur : s.ing.cur = some j) (herase : j.erase = false) (hlen : j.data.length = 256) : ∃ u : State,
    exec (.pageProgramDone true) s = .next (u.ingUnitDone j { j with idx := j.idx + 1, data := [] } false) ∧
    u.rd (Memory.ingot (j.idx * 256)) 256 = j.data ∧
    (∀ a, a < Memory.ingot (j.idx * 256) ∨ Memory.ingot (j.idx * 256) + 256 ≤ a → Memory.read u.mem a = Memory.read s.mem a) ∧
    (∀ g ∈ u.eccUnc, g < Memory.ingot (j.idx * 256) ∨ Memory.ingot (j.idx * 256) + 256 ≤ g) ∧ u.regs = s.regs := by
  have hdrop : j.data.drop 256 = [] := List.drop_of_length_le (Nat.le_of_eq hlen)
  have htake : j.data.take 256 = j.data := List.take_of_length_le (Nat.le_of_eq hlen)
  have hmore : decide (256 < j.data.length) = false := decide_eq_false (by omega)
  have hmem : (s.pageDone j).mem = Memory.writeN s.mem (Memory.ingot (j.idx * 256)) j.data := congrArg (Memory.writeN s.mem _) htake
  refine ⟨s.pageDone j, by rw [exec_pageProgramDone_ok hcur herase, hdrop, hmore], ?_, fun a ha => ?_, fun g hg => ?_, rfl⟩
  · obtain ⟨hmemWf, -, -⟩ := h
    rw [State.rd, hmem, ← hlen]
    exact Memory.readN_writeN_self _ _ _ hmemWf
  · rw [hmem]
    exact Memory.read_writeN_of_out _ _ _ _ (by rwa [hlen])
  · exact of_decide_eq_true (List.mem_filter.mp hg).2

theorem exec_pageProgramDone_failed (hcur : s.ing.cur = some j) (herase : j.erase = false) :
    exec (.pageProgramDone false) s = .next (((s.ingFree.record 0x0C02 j.sector (j.idx * 256)).ingFail j 4).ingGo) ∧
    exec .sectorEraseDone s = .next s := by
  refine ⟨?_, ?_⟩
  · show execPageProgramDone false s = _
    unfold execPageProgramDone
    rw [hcur]
    dsimp only
    rw [herase]
    rfl
  · show execSectorEraseDone s = _
    unfold execSectorEraseDone
    rw [hcur]
    dsimp only
    rw [herase]
    rfl

/-! ## The end of an erase (R573) -/

/-- The sector of an erase's unit is erased (R573). -/
def State.sectorDone (s : State) (j : IngJob) : State :=
  let k := Memory.ingot (j.idx * 0x10000)
  let keep := fun g => decide (g < k ∨ k + 0x10000 ≤ g)
  ({ s with mem := Memory.clear s.mem k (k + 0x10000), eccUnc := s.eccUnc.filter keep, eccOne := s.eccOne.filter keep } : State).set
  (sectorFld j.idx) secNormal

theorem sectorFld_ok (k : Nat) : (sectorFld k).ok = true := by
  refine decide_eq_true ?_
  show k % 16 * 2 + 2 ≤ 32
  omega

theorem exec_sectorEraseDone_cmd (hcur : s.ing.cur = some j) (herase : j.erase = true) (hsrc : j.src = .cmd) (hleft : j.left ≤ 1) :
    exec .sectorEraseDone s = .next ((s.sectorDone j).ingUnitDone j { j with idx := j.idx + 1, left := j.left - 1 } false) := by
  have hmore : decide (1 < j.left) = false := decide_eq_false (by omega)
  show execSectorEraseDone s = _
  unfold execSectorEraseDone
  rw [hcur]
  dsimp only
  rw [herase, hsrc, hmore]
  rfl

theorem State.sectorDone_mem : (s.sectorDone j).mem = Memory.clear s.mem (Memory.ingot (j.idx * 0x10000))
    (Memory.ingot (j.idx * 0x10000) + 0x10000) := rfl

/-- A sector that has been erased reads all ones (R561). -/
theorem State.sectorDone_erased (hidx : j.idx < 128) {a : Nat} (ha : a < 0x10000) :
    Memory.read (s.sectorDone j).mem (Memory.ingot (j.idx * 0x10000 + a)) = 0xFF := by
  have hin : Memory.ingot (j.idx * 0x10000) ≤ Memory.ingot (j.idx * 0x10000 + a) ∧
      Memory.ingot (j.idx * 0x10000 + a) < Memory.ingot (j.idx * 0x10000) + 0x10000 := by
    unfold Memory.ingot
    omega
  have hones : Memory.dflt (Memory.ingot (j.idx * 0x10000 + a)) = 0xFF := by
    unfold Memory.dflt Memory.ingot
    exact if_pos (by omega)
  exact (Memory.read_clear_in s.mem hin).trans hones

/-! ## Suspension and resume (R574, R575) -/

theorem exec_ing_idle {ok : Bool} (hcur : s.ing.cur = none) :
    exec (.pageProgramDone ok) s = .next s ∧ exec .sectorEraseDone s = .next s ∧ exec .suspendComplete s = .next s := by
  refine ⟨?_, ?_, ?_⟩
  · show execPageProgramDone ok s = _
    unfold execPageProgramDone
    rw [hcur]
  · show execSectorEraseDone s = _
    unfold execSectorEraseDone
    rw [hcur]
  · show execSuspendComplete s = _
    unfold execSuspendComplete
    rw [hcur]

theorem exec_eraseSuspend (hown : s.ownRefused w Reg.ING_CTRL = false) : exec (.eraseSuspend w) s = .next s.writeSusp :=
  congrArg Host.Outcome.next (State.owned_of_open hown _)

theorem State.writeSusp_running (hcur : s.ing.cur = some j) :
    s.writeSusp = if j.erase then s.modIng (fun g => { g with suspReq := some true }) else s := by
  unfold State.writeSusp
  rw [hcur]

theorem exec_eraseResume (hown : s.ownRefused w Reg.ING_CTRL = false) : exec (.eraseResume w) s = .next s.writeResume :=
  congrArg Host.Outcome.next (State.owned_of_open hown _)

theorem State.get_modIng (t : State) (f : Ingot → Ingot) (g : Fld) : (t.modIng f).get g = t.get g := rfl

theorem sectorFld_addr (k : Nat) : (sectorFld k).addr ≠ Reg.ING_STAT := by
  simp only [sectorFld, Reg.ING_SSTAT, Reg.ING_STAT]
  omega

theorem exec_suspendComplete (h : s.Inv) (hcur : s.ing.cur = some j) (hreq : s.ing.suspReq = some b) : ∃ u : State,
    exec .suspendComplete s = .next u.ingGo ∧ u.ing.susp = some (j, b) ∧ u.ing.cur = none ∧ u.get (sectorFld j.sector) = 2 ∧
    u.get Reg.ING_STAT_SUSPD = 1 ∧ u.get Reg.ING_STAT_BUSY = 0 := by
  let f := s.modIng (fun g => { g with cur := none, suspReq := none })
  let v := ((f.set Reg.ING_STAT_BUSY 0).set Reg.ING_STAT_OP 0).modIng (fun g => { g with susp := some (j, b) })
  let t := v.set (sectorFld j.sector) secSuspended
  have hf : f.Inv := .beside h
  have h1 : (f.set Reg.ING_STAT_BUSY 0).Inv := hf.set
  have hv : v.Inv := .beside h1.set
  have ht : t.Inv := hv.set
  have hexec : exec .suspendComplete s = .next (t.set Reg.ING_STAT_SUSPD 1).ingGo := by
    show execSuspendComplete s = _
    unfold execSuspendComplete
    rw [hcur, hreq]
    rfl
  refine ⟨t.set Reg.ING_STAT_SUSPD 1, hexec, rfl, rfl, ?_, ?_, ?_⟩
  · rw [State.get_set_of_ne _ _ _ _ (sectorFld_addr _)]
    exact hv.get_set_self _ _ (sectorFld_ok _) (show _ < 4 by decide)
  · exact ht.get_set_self _ _ (by decide) (by decide)
  · rw [ht.get_set_of_apart _ _ _ (by decide) (by decide), State.get_set_of_ne _ _ _ _ (sectorFld_addr _).symm, State.get_modIng,
      h1.get_set_of_apart _ _ _ (by decide) (by decide)]
    exact hf.get_set_self _ _ (by decide) (by decide)

theorem State.writeResume_none (hsusp : s.ing.susp = none) : s.writeResume = s := by
  unfold State.writeResume
  rw [hsusp]

/-- The suspended erase runs again (R575). -/
def State.resumed (s : State) (j : IngJob) : State :=
  (((((s.modIng (fun g => { g with susp := none, cur := some j, suspReq := none })).set Reg.ING_STAT_SUSPD 0).set Reg.ING_STAT_BUSY 1).set
    Reg.ING_STAT_OP 2).set (sectorFld j.sector) secErasing)

theorem State.writeResume_idle (hsusp : s.ing.susp = some (j, b)) (hcur : s.ing.cur = none) : s.writeResume = s.resumed j := by
  unfold State.writeResume
  rw [hsusp]
  dsimp only
  rw [hcur, Option.isNone_none, if_pos rfl]
  unfold State.ingResume
  rw [hsusp, hcur]
  rfl

theorem State.resumed_gets (h : s.Inv) : (s.resumed j).get (sectorFld j.sector) = 1 ∧
    (s.resumed j).get Reg.ING_STAT_BUSY = 1 ∧ (s.resumed j).get Reg.ING_STAT_SUSPD = 0 := by
  have h0 : (s.modIng (fun g => { g with susp := none, cur := some j, suspReq := none })).Inv := .beside h
  have h1 := h0.set (f := Reg.ING_STAT_SUSPD) (v := 0)
  have h2 := h1.set (f := Reg.ING_STAT_BUSY) (v := 1)
  have h3 := h2.set (f := Reg.ING_STAT_OP) (v := 2)
  unfold State.resumed
  refine ⟨h3.get_set_self _ _ (sectorFld_ok _) (show _ < 4 by decide), ?_, ?_⟩
  · rw [State.get_set_of_ne _ _ _ _ (sectorFld_addr _).symm, h2.get_set_of_apart _ _ _ (by decide) (by decide)]
    exact h1.get_set_self _ _ (by decide) (by decide)
  · rw [State.get_set_of_ne _ _ _ _ (sectorFld_addr _).symm, h2.get_set_of_apart _ _ _ (by decide) (by decide),
      h1.get_set_of_apart _ _ _ (by decide) (by decide)]
    exact h0.get_set_self _ _ (by decide) (by decide)

end

end Sys2Proof.Machine

open Sys2Proof Sys2Proof.Machine

/-- Settles O55: the page or the sector is the only memory written, by the laws of writeN and clear; a suspension and a resume write two registers. -/
theorem ingotJobs : Obligations.IngotJobs := by
  refine ⟨fun w i s hown => ⟨fun hbusy => ⟨?_, ?_⟩, fun hidle => ⟨?_, fun hi => ?_, fun hi => ?_⟩⟩,
    fun j s h hcur he hl => exec_pageProgramDone_last h hcur he hl,
    fun j s hcur he => exec_pageProgramDone_failed hcur he, fun j s h hcur he hsrc hidx hleft => ?_, fun w j b ok s => ⟨exec_ing_idle,
    fun hown hcur he => ?_,
    fun hown hcur he => ?_, fun h _ => exec_suspendComplete h, fun hown hsusp => ?_, fun hown h _ hsusp hcur => ?_⟩⟩
  · rw [exec_ingCmdProgram_eq hown, State.writeIngCmd_go (by decide), if_pos hbusy]
    rfl
  · rw [exec_ingCmdErase_eq hown, State.writeIngCmd_go (by decide), if_pos hbusy]
    rfl
  · rw [exec_ingCmdProgram_eq hown, State.writeIngCmd_go (by decide), if_neg hidle, if_neg (by omega)]
    rfl
  · rw [exec_ingCmdErase_eq hown, State.writeIngCmd_go (by decide), if_neg hidle, if_neg (by omega)]
    rfl
  · rw [exec_ingCmdErase_eq hown, State.writeIngCmd_go (by decide), if_neg hidle, if_pos (by omega)]
    rfl
  · have hout : ∀ a, a < Memory.ingot (j.idx * 0x10000) ∨ Memory.ingot (j.idx * 0x10000) + 0x10000 ≤ a →
        Memory.read (s.sectorDone j).mem a = Memory.read s.mem a := fun a ha => Memory.read_clear_out s.mem ha
    exact ⟨s.sectorDone j, exec_sectorEraseDone_cmd hcur he hsrc hleft, fun a ha => State.sectorDone_erased hidx ha,
      State.get_set_self _ _ _ h.regsWf (sectorFld_ok _), hout⟩
  · exact ⟨_, (exec_eraseSuspend hown).trans (congrArg _ ((State.writeSusp_running hcur).trans (if_pos he))), rfl, rfl, rfl⟩
  · exact (exec_eraseSuspend hown).trans (congrArg _ ((State.writeSusp_running hcur).trans (if_neg (by simp [he]))))
  · exact (exec_eraseResume hown).trans (congrArg _ (State.writeResume_none hsusp))
  · exact ⟨_, (exec_eraseResume hown).trans (congrArg _ (State.writeResume_idle hsusp hcur)), rfl, rfl, State.resumed_gets h⟩

end

section
/-!
SUPPORT. What the check of the Strike conditions (R78) leaves alone: every register from 0x9000 on but the ledger's head, and every part but the
ports, the Chain and the ledger.
-/

namespace Sys2Proof.Machine

/-- From s to t only ports, links of the Chain, ledger and the registers below 0x9000 have changed. -/
structure State.VoidFrame (s t : State) : Prop where
  gets : ∀ f : Fld, 0x9000 ≤ f.addr → f.addr ≠ Reg.PWR_LEDHEAD_SEQ.addr → t.get f = s.get f
  parts : ∃ regs ports links ledger,
    t = { s with regs := regs, ports := ports, chain := { s.chain with links := links }, ledger := ledger }

section

variable {s t u : State} {k v : Nat}

theorem State.VoidFrame.refl (s : State) : s.VoidFrame s := ⟨fun _ _ _ => rfl, s.regs, s.ports, s.chain.links, s.ledger, rfl⟩

theorem State.VoidFrame.trans (h1 : s.VoidFrame t) (h2 : t.VoidFrame u) : s.VoidFrame u := by
  refine ⟨fun f hf hl => (h2.gets f hf hl).trans (h1.gets f hf hl), ?_⟩
  obtain ⟨r, p, c, g, rfl⟩ := h1.parts
  obtain ⟨r', p', c', g', rfl⟩ := h2.parts
  exact ⟨r', p', c', g', rfl⟩

theorem State.VoidFrame.set {f : Fld} (hf : f.addr < 0x9000) : s.VoidFrame (s.set f v) :=
  ⟨fun g hg _ => State.get_set_of_ne _ _ _ _ (by omega), _, s.ports, s.chain.links, s.ledger, rfl⟩

theorem State.VoidFrame.record {code unit detail : Nat} : s.VoidFrame (s.record code unit detail) :=
  ⟨fun _ _ hl => State.get_record_of_ne _ _ _ _ _ hl, _, s.ports, s.chain.links, _, rfl⟩

theorem State.VoidFrame.unbind {all : Bool} : s.VoidFrame (s.unbind k all) := by
  unfold State.unbind
  split
  · exact ⟨fun _ _ _ => rfl, s.regs, _, s.chain.links, s.ledger, rfl⟩
  · exact .refl s

theorem State.VoidFrame.setHeld {b : Bool} : s.VoidFrame (s.setHeld k b) := by
  unfold State.setHeld
  split
  · exact ⟨fun _ _ _ => rfl, s.regs, _, s.chain.links, s.ledger, rfl⟩
  · exact ⟨fun _ _ _ => rfl, s.regs, s.ports, _, s.ledger, rfl⟩

theorem voidFld_low (hk : k < 12) : (voidFld k).addr < 0x9000 ∧ (vcodeFld k).addr < 0x9000 := by
  unfold voidFld vcodeFld
  split <;> simp only [Reg.PORT_STRK_VOID, Reg.PORT_STRK_VCODE, Reg.CHN_L_STRK_VOID, Reg.CHN_L_STRK_VCODE] <;> omega

theorem State.VoidFrame.checkVoid (hk : k < 12) : s.VoidFrame (s.checkVoid k) := by
  unfold State.checkVoid
  split
  · exact .refl s
  · extract_lets t
    have ht : s.VoidFrame t := .unbind
    split
    · exact (((ht.trans .setHeld).trans (.set (voidFld_low hk).1)).trans (.set (voidFld_low hk).2)).trans .record
    · exact ht

theorem State.VoidFrame.checkVoids : s.VoidFrame s.checkVoids := by
  unfold State.checkVoids
  have hall : ∀ (l : List Nat) (s : State), (∀ k ∈ l, k < 12) → s.VoidFrame (l.foldl State.checkVoid s) := by
    intro l
    induction l with
    | nil => exact fun s _ => .refl s
    | cons k l ih =>
      intro s hl
      exact (State.VoidFrame.checkVoid (hl k (List.mem_cons_self ..))).trans (ih _ fun j hj => hl j (List.mem_cons_of_mem _ hj))
  exact hall _ _ (by decide)

end

end Sys2Proof.Machine
end

section
/-!
SUPPORT. Bellows, AVSBus, eyes and substitution (R591, R592, R594, R595, R600, R610, R612, R613), and the statement.
-/

namespace Sys2Proof.Machine

section

variable {s : State} {w : Who} {l : Fin 6} {e : Fin 16} {v : W32} {low : Bool}

theorem State.get_modTemper (t : State) (f : Temper → Temper) (g : Fld) : (t.modTemper f).get g = t.get g := rfl

/-! ## EMERGENCY (R595, R618) -/

theorem State.emergency_iff (t : State) : t.emergency = true ↔ t.get Reg.TMP_BLWSTAT_STATE = 2 := beq_iff_eq

theorem State.setVcode_spec (h : s.Inv) {code : Nat} (hcode : code < 64) : (s.setVcode code).get Reg.TMP_BLWSTAT_VCODE = code ∧
    (∀ f : Fld, f.apart Reg.TMP_BLWSTAT_VCODE = true → (s.setVcode code).get f = s.get f) ∧
    ∃ regs fly queued out, s.setVcode code = { s with regs := regs, out := out, temper := { s.temper with fly := fly, queued := queued } } := by
  unfold State.setVcode
  by_cases hv : s.get Reg.TMP_BLWSTAT_VCODE = code
  · rw [if_pos hv]
    exact ⟨hv, fun _ _ => rfl, s.regs, s.temper.fly, s.temper.queued, s.out, rfl⟩
  · rw [if_neg hv]
    have hget : ∀ (t : State) f, (t.avsSend code).get f = t.get f := by
      intro t f
      unfold State.avsSend
      split <;> rfl
    have hparts : ∀ t : State, ∃ fly queued out,
        t.avsSend code = { t with out := out, temper := { t.temper with fly := fly, queued := queued } } := by
      intro t
      unfold State.avsSend
      split
      · exact ⟨_, t.temper.queued, _, rfl⟩
      · exact ⟨t.temper.fly, _, t.out, rfl⟩
    refine ⟨?_, fun f hf => ?_, ?_⟩
    · rw [hget]
      exact h.get_set_self _ _ (by decide) hcode
    · rw [hget]
      exact h.get_set_of_apart _ _ _ (by decide) hf
    · obtain ⟨fly, queued, out, heq⟩ := hparts (s.set Reg.TMP_BLWSTAT_VCODE code)
      rw [heq]
      exact ⟨_, fly, queued, out, rfl⟩

/-- What EMERGENCY writes before the voltage is asked for (R595, R618). -/
def State.emergencyRegs (s : State) : State :=
  let t := ((s.set Reg.TMP_BLWSTAT_STATE 2).set Reg.TMP_BLWSTAT_EMEV 1).record 0x0D02 0xFF 0
  (if t.temper.fsw.isSome then t else t.set Reg.TMP_BLWSTAT_RUNG 0).modTemper
    (fun x => { x with em := 0, target := 0, fsw := x.fsw.map (fun _ => 0) })

theorem State.enterEmergency_eq (hem : s.emergency = false) : s.enterEmergency = (s.emergencyRegs.setVcode 50).checkVoids := by
  unfold State.enterEmergency
  rw [if_neg (by rw [hem]; decide)]
  rfl

theorem State.emergencyRegs_gets (h : s.Inv) : s.emergencyRegs.get Reg.TMP_BLWSTAT_STATE = 2 ∧ s.emergencyRegs.get Reg.TMP_BLWSTAT_EMEV = 1 ∧
    s.emergencyRegs.get Reg.TMP_BLWSTAT_AVSERR = s.get Reg.TMP_BLWSTAT_AVSERR ∧
    (s.temper.fsw = none → s.emergencyRegs.get Reg.TMP_BLWSTAT_RUNG = 0) := by
  let t := ((s.set Reg.TMP_BLWSTAT_STATE 2).set Reg.TMP_BLWSTAT_EMEV 1).record 0x0D02 0xFF 0
  have h1 := h.set (f := Reg.TMP_BLWSTAT_STATE) (v := 2)
  have ht : t.Inv := h1.set.record
  have hstate : t.get Reg.TMP_BLWSTAT_STATE = 2 := by
    rw [State.get_record_of_ne _ _ _ _ _ (by decide), h1.get_set_of_apart _ _ _ (by decide) (by decide)]
    exact h.get_set_self _ _ (by decide) (by decide)
  have hemev : t.get Reg.TMP_BLWSTAT_EMEV = 1 := by
    rw [State.get_record_of_ne _ _ _ _ _ (by decide)]
    exact h1.get_set_self _ _ (by decide) (by decide)
  have havs : t.get Reg.TMP_BLWSTAT_AVSERR = s.get Reg.TMP_BLWSTAT_AVSERR := by
    rw [State.get_record_of_ne _ _ _ _ _ (by decide), h1.get_set_of_apart _ _ _ (by decide) (by decide),
      h.get_set_of_apart _ _ _ (by decide) (by decide)]
  have hfsw : t.temper.fsw = s.temper.fsw := rfl
  have heq : s.emergencyRegs = (if t.temper.fsw.isSome then t else t.set Reg.TMP_BLWSTAT_RUNG 0).modTemper
      (fun x => { x with em := 0, target := 0, fsw := x.fsw.map (fun _ => 0) }) := rfl
  clear_value t
  rw [heq]
  simp only [State.get_modTemper]
  by_cases hsw : t.temper.fsw.isSome = true
  · rw [if_pos hsw]
    exact ⟨hstate, hemev, havs, fun hnone => absurd hsw (by rw [hfsw, hnone]; decide)⟩
  · rw [if_neg hsw]
    refine ⟨?_, ?_, ?_, fun _ => ht.get_set_self _ _ (by decide) (by decide)⟩
    · rw [ht.get_set_of_apart _ _ _ (by decide) (by decide), hstate]
    · rw [ht.get_set_of_apart _ _ _ (by decide) (by decide), hemev]
    · rw [ht.get_set_of_apart _ _ _ (by decide) (by decide), havs]

theorem State.emergencyRegs_temper : s.emergencyRegs.temper.target = 0 ∧ s.emergencyRegs.temper.fails = s.temper.fails := by
  unfold State.emergencyRegs
  extract_lets t
  have ht : t.temper.fails = s.temper.fails := rfl
  split
  · exact ⟨rfl, ht⟩
  · exact ⟨rfl, ht⟩

theorem State.Inv.emergencyRegs (h : s.Inv) : s.emergencyRegs.Inv := .beside (.ite h.set.set.record h.set.set.record.set)

theorem State.enterEmergency_spec (h : s.Inv) (hem : s.emergency = false) : s.enterEmergency.emergency = true ∧
    s.enterEmergency.get Reg.TMP_BLWSTAT_EMEV = 1 ∧ s.enterEmergency.get Reg.TMP_BLWSTAT_VCODE = 50 ∧ s.enterEmergency.temper.target = 0 ∧
    (s.temper.fsw = none → s.enterEmergency.rung = 0) ∧ s.enterEmergency.get Reg.TMP_BLWSTAT_AVSERR = s.get Reg.TMP_BLWSTAT_AVSERR ∧
    s.enterEmergency.temper.fails = s.temper.fails := by
  obtain ⟨hstate, hemev, havs, hrung⟩ := State.emergencyRegs_gets h
  obtain ⟨htarget, hfails⟩ := State.emergencyRegs_temper (s := s)
  obtain ⟨hcode, hkeep, r, fly, queued, out, hparts⟩ := State.setVcode_spec h.emergencyRegs (code := 50) (by decide)
  have hframe := State.VoidFrame.checkVoids (s := s.emergencyRegs.setVcode 50)
  obtain ⟨r', p, c, g, htemper⟩ := hframe.parts
  have htmp : s.enterEmergency.temper = { s.emergencyRegs.temper with fly := fly, queued := queued } := by
    rw [State.enterEmergency_eq hem, htemper, hparts]
  have hget : ∀ f : Fld, f.addr = 0xd004 → s.enterEmergency.get f = (s.emergencyRegs.setVcode 50).get f := by
    intro f hf
    rw [State.enterEmergency_eq hem]
    exact hframe.gets f (by rw [hf]; decide) (by rw [hf]; decide)
  refine ⟨?_, ?_, ?_, ?_, fun hnone => ?_, ?_, ?_⟩
  · rw [State.emergency_iff, hget _ rfl, hkeep _ (by decide), hstate]
  · rw [hget _ rfl, hkeep _ (by decide), hemev]
  · rw [hget _ rfl, hcode]
  · rw [htmp]; exact htarget
  · rw [State.rung, hget _ rfl, hkeep _ (by decide), hrung hnone]
  · rw [hget _ rfl, hkeep _ (by decide), havs]
  · rw [htmp]; exact hfails

/-! ## AVSBus (R591, R594) -/

section

variable {c : Nat}

theorem exec_avsTransactionDone_idle (hfly : s.temper.fly = none) : exec (.avsTransactionDone low) s = .next s := by
  show execAvsTransactionDone low s = _
  unfold execAvsTransactionDone
  rw [hfly]

theorem exec_avsTransactionDone_ok (hfly : s.temper.fly = some c) (hq : s.temper.queued = none) : exec (.avsTransactionDone true) s =
    .next (s.modTemper (fun t => { t with fly := none, queued := none, settling := some c, fails := 0 })) := by
  show execAvsTransactionDone true s = _
  unfold execAvsTransactionDone
  rw [hfly]
  dsimp only
  rw [hq, if_pos rfl]

theorem exec_avsTransactionDone_again (hfly : s.temper.fly = some c) (hq : s.temper.queued = none) (hfails : s.temper.fails < 2) :
    exec (.avsTransactionDone false) s =
    .next ((s.modTemper (fun t => { t with fly := some c, queued := none, fails := t.fails + 1, failed := true })).send (.avs c)) := by
  show execAvsTransactionDone false s = _
  unfold execAvsTransactionDone
  rw [hfly]
  dsimp only
  rw [hq, if_neg Bool.false_ne_true, if_pos (by omega)]
  rfl

/-- The third failure in a row (R591). -/
def State.avsFailed (s : State) : State :=
  ((s.modTemper (fun t => { t with fly := none, queued := none, fails := 0, failed := true })).set Reg.TMP_BLWSTAT_AVSERR 1).record 0x0D01 0xFF 0

theorem State.avsFailed_gets (h : s.Inv) : s.avsFailed.get Reg.TMP_BLWSTAT_AVSERR = 1 ∧
    s.avsFailed.get Reg.TMP_BLWSTAT_STATE = s.get Reg.TMP_BLWSTAT_STATE := by
  have h1 : (s.modTemper (fun t => { t with fly := none, queued := none, fails := 0, failed := true })).Inv := .beside h
  unfold State.avsFailed
  refine ⟨?_, ?_⟩
  · rw [State.get_record_of_ne _ _ _ _ _ (by decide)]
    exact h1.get_set_self _ _ (by decide) (by decide)
  · rw [State.get_record_of_ne _ _ _ _ _ (by decide), h1.get_set_of_apart _ _ _ (by decide) (by decide), State.get_modTemper]

theorem State.Inv.avsFailed (h : s.Inv) : s.avsFailed.Inv := State.Inv.record (.set (.beside h))

theorem exec_avsTransactionDone_fails (h : s.Inv) (hfly : s.temper.fly = some c) (hfails : 2 ≤ s.temper.fails) (hem : s.emergency = false) :
    ∃ t, exec (.avsTransactionDone false) s = .next t ∧ t.get Reg.TMP_BLWSTAT_AVSERR = 1 ∧ t.emergency = true ∧ t.temper.fails = 0 := by
  obtain ⟨havs, hstate⟩ := State.avsFailed_gets h
  have hem' : s.avsFailed.emergency = false := by rw [State.emergency, hstate]; exact hem
  obtain ⟨hemergency, -, -, -, -, hkept, hf⟩ := State.enterEmergency_spec h.avsFailed hem'
  have hexec : exec (.avsTransactionDone false) s = .next (if s.avsFailed.emergency then s.avsFailed.avsSend 50 else s.avsFailed.enterEmergency) := by
    show execAvsTransactionDone false s = _
    unfold execAvsTransactionDone
    rw [hfly]
    dsimp only
    rw [if_neg Bool.false_ne_true, if_neg (by omega)]
    rfl
  refine ⟨s.avsFailed.enterEmergency, hexec.trans (congrArg _ (if_neg (by rw [hem']; decide))), hkept.trans havs, hemergency, hf.trans rfl⟩

theorem exec_avsSettled (hset : s.temper.settling = some c) :
    exec .avsSettled s = .next ((s.modTemper (fun t => { t with settling := none, volt := c })).stepRung) := by
  show execAvsSettled s = _
  unfold execAvsSettled
  rw [hset]

theorem exec_avsSettled_idle (hset : s.temper.settling = none) : exec .avsSettled s = .next s := by
  show execAvsSettled s = _
  unfold execAvsSettled
  rw [hset]

theorem exec_frequencySwitchDone (h : s.Inv) (hfsw : s.temper.fsw = some c) :
    ∃ t, exec .frequencySwitchDone s = .next t ∧ t.temper.fsw = none ∧ t.rung = c % 16 := by
  have hinv : (s.modTemper (fun t => { t with fsw := none })).Inv := .beside h
  refine ⟨(s.modTemper (fun t => { t with fsw := none })).set Reg.TMP_BLWSTAT_RUNG c, ?_, rfl, State.get_set_self _ _ _ hinv.regsWf (by decide)⟩
  show execFrequencySwitchDone s = _
  unfold execFrequencySwitchDone
  rw [hfsw]

theorem exec_frequencySwitchDone_idle (hfsw : s.temper.fsw = none) : exec .frequencySwitchDone s = .next s := by
  show execFrequencySwitchDone s = _
  unfold execFrequencySwitchDone
  rw [hfsw]

end

end

end Sys2Proof.Machine
end

section
/-!
SUPPORT. Eyes, equalisation and core substitution (R599, R600, R610 to R613), and the statement on Temper.
-/

namespace Sys2Proof.Machine

section

variable {s : State} {w : Who} {l : Fin 6} {e : Fin 16} {v : W32} {low : Bool}

/-! ## Eyes (R600) -/

/-- Low measurements of a lane in a row, with this one (R600). -/
def State.lowRun (s : State) (l : Nat) (eyeh : BitVec 10) : Nat :=
  if eyeh.toNat < s.get (Reg.TMP_EQ_CFG_MARGMIN l) then min 1024 (s.temper.low.getD l 0 + 1) else 0

/-- A lane's measurement as it stands (R600). -/
def State.measured (s : State) (l : Nat) (eyeh : BitVec 10) (eyew : BitVec 6) : State :=
  let n := s.lowRun l eyeh
  ((s.set (Reg.TMP_EQ_EYE_EYEH l) eyeh.toNat).set (Reg.TMP_EQ_EYE_EYEW l) eyew.toNat).modTemper (fun t => { t with low := t.low.setIfInBounds l n })

theorem exec_marginMeasure_eq {eyeh : BitVec 10} {eyew : BitVec 6} : exec (.marginMeasure l eyeh eyew) s =
    .next (if s.lowRun l eyeh = 1024 ∧ !(s.measured l eyeh eyew).on (Reg.TMP_EQ_EYE_LOW l) then
      ((s.measured l eyeh eyew).set (Reg.TMP_EQ_EYE_LOW l) 1).record 0x0D05 l 0 else s.measured l eyeh eyew) := by
  have hne : (Reg.TMP_EQ_CFG_MARGMIN l).addr ≠ (Reg.TMP_EQ_EYE_EYEH l).addr := by simp only [Reg.TMP_EQ_CFG_MARGMIN, Reg.TMP_EQ_EYE_EYEH]; omega
  have hmarg : ((s.set (Reg.TMP_EQ_EYE_EYEH l) eyeh.toNat).set (Reg.TMP_EQ_EYE_EYEW l) eyew.toNat).get (Reg.TMP_EQ_CFG_MARGMIN l) =
      s.get (Reg.TMP_EQ_CFG_MARGMIN l) := by
    have hne' : (Reg.TMP_EQ_CFG_MARGMIN l).addr ≠ (Reg.TMP_EQ_EYE_EYEW l).addr := hne
    rw [State.get_set_of_ne _ _ _ _ hne', State.get_set_of_ne _ _ _ _ hne]
  show execMarginMeasure l eyeh eyew s = _
  unfold execMarginMeasure
  dsimp only
  rw [hmarg]
  rfl

theorem exec_marginMeasure (h : s.Inv) {eyeh : BitVec 10} {eyew : BitVec 6} : ∃ t, exec (.marginMeasure l eyeh eyew) s = .next t ∧
    t.get (Reg.TMP_EQ_EYE_EYEH l) = eyeh.toNat ∧ t.get (Reg.TMP_EQ_EYE_EYEW l) = eyew.toNat ∧
    t.temper.low.getD l 0 = (if eyeh.toNat < s.get (Reg.TMP_EQ_CFG_MARGMIN l) then min 1024 (s.temper.low.getD l 0 + 1) else 0) := by
  have h1 := h.set (f := Reg.TMP_EQ_EYE_EYEH l) (v := eyeh.toNat)
  have hm : (s.measured l eyeh eyew).Inv := .beside h1.set
  have hwok : (Reg.TMP_EQ_EYE_EYEW l).ok = true := by simp [Fld.ok, Reg.TMP_EQ_EYE_EYEW]
  have hlok : (Reg.TMP_EQ_EYE_LOW l).ok = true := by simp [Fld.ok, Reg.TMP_EQ_EYE_LOW]
  have heyeh : (s.measured l eyeh eyew).get (Reg.TMP_EQ_EYE_EYEH l) = eyeh.toNat := by
    rw [State.measured, State.get_modTemper, h1.get_set_of_apart _ _ _ hwok (by simp [Fld.apart, Reg.TMP_EQ_EYE_EYEW, Reg.TMP_EQ_EYE_EYEH])]
    exact h.get_set_self _ _ (by simp [Fld.ok, Reg.TMP_EQ_EYE_EYEH]) eyeh.isLt
  have heyew : (s.measured l eyeh eyew).get (Reg.TMP_EQ_EYE_EYEW l) = eyew.toNat := by
    rw [State.measured, State.get_modTemper]
    exact h1.get_set_self _ _ hwok eyew.isLt
  have hlow : (s.measured l eyeh eyew).temper.low.getD l 0 = s.lowRun l eyeh := getD_set_self s.temper.low l _ 0 l.isLt
  have hhead : (Reg.TMP_EQ_EYE_EYEH l).addr ≠ Reg.PWR_LEDHEAD_SEQ.addr := by simp only [Reg.TMP_EQ_EYE_EYEH, Reg.PWR_LEDHEAD_SEQ]; omega
  refine ⟨_, exec_marginMeasure_eq, ?_⟩
  split
  · refine ⟨?_, ?_, hlow⟩
    · rw [State.get_record_of_ne _ _ _ _ _ hhead, hm.get_set_of_apart _ _ _ hlok (by simp [Fld.apart, Reg.TMP_EQ_EYE_EYEH, Reg.TMP_EQ_EYE_LOW]),
        heyeh]
    · rw [State.get_record_of_ne _ _ _ _ (Reg.TMP_EQ_EYE_EYEW l) hhead,
        hm.get_set_of_apart _ _ _ hlok (by simp [Fld.apart, Reg.TMP_EQ_EYE_EYEW, Reg.TMP_EQ_EYE_LOW]), heyew]
  · exact ⟨heyeh, heyew, hlow⟩

theorem exec_eqLoad (hown : s.ownRefused w (Reg.TMP_EQ_CFG l) = false) : exec (.eqLoad w l v) s = .next (s.writeEqCfg l v) :=
  congrArg Host.Outcome.next (State.owned_of_open hown _)

/-! ## The start of a substitution (R610) -/

theorem exec_substitutionGo (hown : s.ownRefused w Reg.TMP_SUBCTL = false) : exec (.substitutionGo w v) s = .next (s.writeSubctl v) :=
  congrArg Host.Outcome.next (State.owned_of_open hown _)

theorem exec_substitutionGo_set (h : s.Inv) (hown : s.ownRefused w Reg.TMP_SUBCTL = false) (hgo : fieldGet v 4 1 = 0) :
    ∃ t, exec (.substitutionGo w v) s = .next t ∧ t.word Reg.TMP_SUBCTL = v &&& 0xFFFF002F ∧ t = { s with regs := t.regs } := by
  refine ⟨s.setWord Reg.TMP_SUBCTL (v &&& 0xFFFF002F), (exec_substitutionGo hown).trans (congrArg _ (if_neg (by rw [hgo]; decide))), ?_, rfl⟩
  exact State.word_setWord_self _ _ _ h.regsWf

/-- A substitution in COPY (R611). -/
def State.subStarted (s : State) (e c : Nat) : State :=
  ((s.set Reg.TMP_SUBSTAT_STATE 1).set Reg.TMP_SUBSTAT_ENGINE e).set Reg.TMP_SUBSTAT_SPARE c

theorem State.startSub_go {k c : Nat} (hstate : s.get Reg.TMP_SUBSTAT_STATE = 0) (hhalt : (s.engN k).halted = false) (hcore : s.coreOf k ≠ 0x1F)
    (hspare : s.spareCore = some c) : s.startSub k false = s.subStarted k c := by
  unfold State.startSub
  rw [if_neg (by rw [hhalt]; simp [hstate, hcore]), hspare]
  rfl

theorem State.spareCore_lt {c : Nat} (h : s.spareCore = some c) : c < 32 := by
  unfold State.spareCore at h
  split at h
  · cases h; decide
  · split at h
    · cases h; decide
    · exact nomatch h

theorem State.subStarted_gets (h : s.Inv) {k c : Nat} (hk : k < 16) (hc : c < 32) : (s.subStarted k c).get Reg.TMP_SUBSTAT_STATE = 1 ∧
    (s.subStarted k c).get Reg.TMP_SUBSTAT_ENGINE = k ∧ (s.subStarted k c).get Reg.TMP_SUBSTAT_SPARE = c := by
  have h1 := h.set (f := Reg.TMP_SUBSTAT_STATE) (v := 1)
  have h2 := h1.set (f := Reg.TMP_SUBSTAT_ENGINE) (v := k)
  refine ⟨?_, ?_, h2.get_set_self _ _ (by decide) hc⟩
  · rw [State.subStarted, h2.get_set_of_apart _ _ _ (by decide) (by decide), h1.get_set_of_apart _ _ _ (by decide) (by decide)]
    exact h.get_set_self _ _ (by decide) (by decide)
  · rw [State.subStarted, h2.get_set_of_apart _ _ _ (by decide) (by decide)]
    exact h1.get_set_self _ _ (by decide) hk

theorem exec_substitutionGo_starts (h : s.Inv) (hown : s.ownRefused w Reg.TMP_SUBCTL = false) (hgo : fieldGet v 4 1 = 1)
    (hstate : s.get Reg.TMP_SUBSTAT_STATE = 0) (hhalt : (s.engN (fieldGet v 0 4)).halted = false) (hcore : s.coreOf (fieldGet v 0 4) ≠ 0x1F)
    (c : Nat) (hspare : s.spareCore = some c) : ∃ t, exec (.substitutionGo w v) s = .next t ∧ t.get Reg.TMP_SUBSTAT_STATE = 1 ∧
      t.get Reg.TMP_SUBSTAT_ENGINE = fieldGet v 0 4 ∧ t.get Reg.TMP_SUBSTAT_SPARE = c := by
  let u := s.setWord Reg.TMP_SUBCTL (v &&& 0xFFFF002F)
  have hk : fieldGet v 0 4 < 16 := Nat.mod_lt _ (by decide)
  have hget : ∀ f : Fld, f.addr ≠ Reg.TMP_SUBCTL → u.get f = s.get f :=
    fun f hf => congrArg (fieldGet · f.lo f.w) (State.word_setWord_of_ne _ _ _ _ hf)
  have hcore' : u.coreOf (fieldGet v 0 4) ≠ 0x1F := by
    have hne : (Reg.ENG_PHYS_CORE (fieldGet v 0 4)).addr ≠ Reg.TMP_SUBCTL := by simp only [Reg.ENG_PHYS_CORE, Reg.TMP_SUBCTL]; omega
    rw [State.coreOf, hget _ hne]
    exact hcore
  have hspare' : u.spareCore = some c := by
    rw [← hspare, State.spareCore, hget _ (by decide), hget _ (by decide)]
    rfl
  have hstart : s.writeSubctl v = u.subStarted (fieldGet v 0 4) c := by
    unfold State.writeSubctl
    dsimp only
    rw [if_pos hgo]
    exact State.startSub_go ((hget _ (by decide)).trans hstate) hhalt hcore' hspare'
  have hu : u.Inv := .setWord h
  rw [exec_substitutionGo hown, hstart]
  exact ⟨_, rfl, State.subStarted_gets hu hk (State.spareCore_lt hspare)⟩

theorem exec_substitutionAutoTrigger_eq : exec (.substitutionAutoTrigger e low) s = .next
    (if s.subGrown e || (s.on Reg.TMP_SUBCTL_AUTO && low && s.get Reg.TMP_BLWSTAT_VCODE == 50) then s.startSub e true else s) := rfl

theorem exec_substitutionAutoTrigger_off (hauto : s.on Reg.TMP_SUBCTL_AUTO = false) : exec (.substitutionAutoTrigger e low) s = .next s := by
  have hgrown : s.subGrown e = false := by rw [State.subGrown, hauto, Bool.false_and, Bool.false_and]
  rw [exec_substitutionAutoTrigger_eq, hgrown, hauto]
  rfl

theorem exec_substitutionAutoTrigger_low (hauto : s.on Reg.TMP_SUBCTL_AUTO = true) (hlow : low = true) (hcode : s.get Reg.TMP_BLWSTAT_VCODE = 50) :
    exec (.substitutionAutoTrigger e low) s = .next (s.startSub e true) := by
  rw [exec_substitutionAutoTrigger_eq, hauto, hlow, hcode, Bool.and_self, beq_self_eq_true, Bool.and_self, Bool.or_true, if_pos rfl]

/-! ## The switch, and its time-out (R611, R612) -/

theorem State.subSwitch_waits (hno : (s.get Reg.TMP_SUBSTAT_STATE ≠ 2 ∧ s.get Reg.TMP_SUBSTAT_STATE ≠ 3) ∨ s.inSettle = false) : s.subSwitch = s := by
  unfold State.subSwitch
  dsimp only
  rcases hno with hstate | hsettle
  · rw [if_pos (.inl hstate)]
  · rw [if_pos (.inr (.inr (by rw [hsettle]; rfl)))]

theorem State.finalEnds_not_final (hno : s.get Reg.TMP_SUBSTAT_STATE ≠ 2 ∧ s.get Reg.TMP_SUBSTAT_STATE ≠ 3) : s.finalEnds = s := by
  unfold State.finalEnds
  dsimp only
  rw [if_neg (by omega)]

theorem State.finalEnds_final (hfinal : s.get Reg.TMP_SUBSTAT_STATE = 2 ∨ s.get Reg.TMP_SUBSTAT_STATE = 3) :
    s.finalEnds = (s.set Reg.TMP_SUBSTAT_STATE 1).count Reg.TMP_SUBSTAT_RETRY 1 := if_pos hfinal

theorem exec_substitutionFinalTimeout (h : s.Inv) (hfinal : s.get Reg.TMP_SUBSTAT_STATE = 2 ∨ s.get Reg.TMP_SUBSTAT_STATE = 3) :
    ∃ t, exec .substitutionFinalTimeout s = .next t ∧ t.get Reg.TMP_SUBSTAT_STATE = 1 ∧
      t.get Reg.TMP_SUBSTAT_RETRY = min (s.get Reg.TMP_SUBSTAT_RETRY + 1) 255 ∧ t = { s with regs := t.regs } := by
  have h1 := h.set (f := Reg.TMP_SUBSTAT_STATE) (v := 1)
  refine ⟨_, congrArg Host.Outcome.next (State.finalEnds_final hfinal), ?_, ?_, rfl⟩
  · rw [State.count, h1.get_set_of_apart _ _ _ (by decide) (by decide)]
    exact h.get_set_self _ _ (by decide) (by decide)
  · rw [State.get_count_self _ _ _ h1.regsWf (by decide), h.get_set_of_apart _ _ _ (by decide) (by decide)]
    rfl

/-- What the switch leaves before its repair entry (R611, R613). -/
def State.switched (s : State) : State :=
  let e := s.get Reg.TMP_SUBSTAT_ENGINE
  let c := s.get Reg.TMP_SUBSTAT_SPARE
  (((s.set (Reg.ENG_PHYS_CORE e) c).set (if c = 16 then Reg.TMP_SPARES_SPA else Reg.TMP_SPARES_SPB) e).modTemper
    (fun t => { t with drain := some (s.coreOf e) })).set Reg.TMP_SUBSTAT_STATE 4

theorem State.subSwitch_switches (hfinal : s.get Reg.TMP_SUBSTAT_STATE = 2 ∨ s.get Reg.TMP_SUBSTAT_STATE = 3) (hsettle : s.inSettle = true)
    (hidle : (s.engN (s.get Reg.TMP_SUBSTAT_ENGINE)).cur = none) (hhalt : (s.engN (s.get Reg.TMP_SUBSTAT_ENGINE)).haltReq = false) :
    s.subSwitch = s.switched.addRepair 6 2 (s.coreOf (s.get Reg.TMP_SUBSTAT_ENGINE)) 0 (s.get Reg.TMP_SUBSTAT_SPARE) := by
  have hgoes : ¬ ((s.get Reg.TMP_SUBSTAT_STATE ≠ 2 ∧ s.get Reg.TMP_SUBSTAT_STATE ≠ 3) ∨
      (s.engN (s.get Reg.TMP_SUBSTAT_ENGINE)).cur.isSome = true ∨ (!s.inSettle) = true) := by
    rw [hidle, hsettle]
    simp
    omega
  have hno : ¬ (((s.switched.engN (s.get Reg.TMP_SUBSTAT_ENGINE)).haltReq = true) ∧
      (s.switched.engN (s.get Reg.TMP_SUBSTAT_ENGINE)).pre.isNone = true) := by
    rintro ⟨hreq, -⟩
    exact absurd ((show (s.engN (s.get Reg.TMP_SUBSTAT_ENGINE)).haltReq = true from hreq).symm.trans hhalt) (by decide)
  unfold State.subSwitch
  dsimp only
  rw [if_neg hgoes]
  exact congrArg (State.addRepair · 6 2 _ 0 _) (if_neg hno)

theorem State.switched_facts (h : s.Inv) : s.switched.coreOf (s.get Reg.TMP_SUBSTAT_ENGINE) = s.get Reg.TMP_SUBSTAT_SPARE ∧
    s.switched.temper.drain = some (s.coreOf (s.get Reg.TMP_SUBSTAT_ENGINE)) ∧ s.switched.get Reg.TMP_SUBSTAT_STATE = 4 := by
  have he : s.get Reg.TMP_SUBSTAT_ENGINE < 16 := State.get_lt _ _
  have hc : s.get Reg.TMP_SUBSTAT_SPARE < 32 := State.get_lt _ _
  unfold State.switched
  dsimp only
  generalize s.get Reg.TMP_SUBSTAT_ENGINE = e at he
  generalize s.get Reg.TMP_SUBSTAT_SPARE = c at hc
  have h1 := h.set (f := Reg.ENG_PHYS_CORE e) (v := c)
  have hspares : (if c = 16 then Reg.TMP_SPARES_SPA else Reg.TMP_SPARES_SPB).addr = Reg.TMP_SPARES := by split <;> rfl
  generalize (if c = 16 then Reg.TMP_SPARES_SPA else Reg.TMP_SPARES_SPB) = f at hspares
  have hne : (Reg.ENG_PHYS_CORE e).addr ≠ f.addr := by
    rw [hspares]
    simp only [Reg.ENG_PHYS_CORE, Reg.TMP_SPARES]
    omega
  have hne' : (Reg.ENG_PHYS_CORE e).addr ≠ Reg.TMP_SUBSTAT_STATE.addr := by
    simp only [Reg.ENG_PHYS_CORE, Reg.TMP_SUBSTAT_STATE]
    omega
  have h3 : (((s.set (Reg.ENG_PHYS_CORE e) c).set f e).modTemper (fun t => { t with drain := some (s.coreOf e) })).Inv := .beside h1.set
  refine ⟨?_, rfl, h3.get_set_self _ _ (by decide) (by decide)⟩
  rw [State.coreOf, State.get_set_of_ne _ _ _ _ hne', State.get_modTemper, State.get_set_of_ne _ _ _ _ hne]
  exact h.get_set_self _ _ (by simp [Fld.ok, Reg.ENG_PHYS_CORE]) hc

theorem exec_oldCoreDrained {c : Nat} (hdrain : s.temper.drain = some c) :
    exec .oldCoreDrained s = .next ((s.flushCore c).modTemper (fun t => { t with drain := none })) := by
  show execOldCoreDrained s = _
  unfold execOldCoreDrained
  rw [hdrain]

theorem exec_oldCoreDrained_idle (hdrain : s.temper.drain = none) : exec .oldCoreDrained s = .next s := by
  show execOldCoreDrained s = _
  unfold execOldCoreDrained
  rw [hdrain]

end

end Sys2Proof.Machine

open Sys2Proof Sys2Proof.Machine

/-- Settles O56: EMERGENCY is followed through the check of the Strike conditions by its frame; the other rows are their equations. -/
theorem temperSteps : Obligations.TemperSteps := by
  intro w l e slack tj eyeh eyew low v s h
  refine ⟨fun hrun => congrArg Host.Outcome.next (if_pos hrun), fun hrun => congrArg Host.Outcome.next (if_neg (by simp [hrun])),
    fun hem => congrArg Host.Outcome.next (if_pos hem), fun hem => ?_, ⟨_, rfl, rfl⟩, exec_avsTransactionDone_idle,
    fun c hfly hq => ⟨_, exec_avsTransactionDone_ok hfly hq, rfl, rfl, rfl, rfl, rfl⟩,
    fun c hfly hq hf => ⟨_, exec_avsTransactionDone_again hfly hq hf, rfl, rfl, rfl⟩,
    fun c hfly hf hem => exec_avsTransactionDone_fails h hfly hf hem, fun c hs => exec_avsSettled hs, fun r hf => exec_frequencySwitchDone h hf,
    exec_avsSettled_idle, exec_frequencySwitchDone_idle, exec_marginMeasure h, exec_eqLoad, exec_substitutionGo_set h, exec_substitutionGo_starts h,
    exec_substitutionAutoTrigger_off, exec_substitutionAutoTrigger_low, fun h2 h3 => ⟨?_, ?_⟩, exec_substitutionFinalTimeout h, fun hs => ?_,
    fun hf hs hi hh => ⟨s.switched, ?_, State.switched_facts h⟩, fun c hd => ⟨_, rfl, exec_oldCoreDrained hd⟩, exec_oldCoreDrained_idle⟩
  · obtain ⟨hemergency, hev, hcode, htarget, hrung, -, -⟩ := State.enterEmergency_spec h hem
    exact ⟨s.enterEmergency, rfl, hemergency, hev, hcode, htarget, hrung⟩
  · exact congrArg Host.Outcome.next (State.subSwitch_waits (.inl ⟨h2, h3⟩))
  · exact congrArg Host.Outcome.next (State.finalEnds_not_final ⟨h2, h3⟩)
  · exact congrArg Host.Outcome.next (State.subSwitch_waits (.inr hs))
  · exact congrArg Host.Outcome.next (State.subSwitch_switches hf hs hi hh)

end

section
/-!
SUPPORT. Sleep entry and wake (R622, R637), Quench and its release (R665, R666, R668), and the statement.
-/

namespace Sys2Proof.Machine

/-! ## Entry and wake (R622, R637) -/

section

variable {s : State} {src : Fin 8} {supply : Bool} {slow : BitVec 40}

theorem State.get_modPower (t : State) (f : Power → Power) (g : Fld) : (t.modPower f).get g = t.get g := rfl

theorem exec_sleepEntryDone_none (hent : s.power.entering = none) : exec .sleepEntryDone s = .next s := by
  show execSleepEntryDone s = _
  unfold execSleepEntryDone
  rw [hent]

theorem exec_sleepEntryDone_doze (h : s.Inv) (hent : s.power.entering = some 1) : ∃ u : State, exec .sleepEntryDone s = .next u.refreshLsw ∧
    u.get Reg.PWR_STAT_STATE = 1 ∧ u.power.entering = none ∧ u.get Reg.PWR_SLPCNT_DOZE = min (s.get Reg.PWR_SLPCNT_DOZE + 1) 65535 := by
  have h0 : (s.modPower (fun p => { p with entering := none })).Inv := .beside h
  have h1 : ((s.modPower (fun p => { p with entering := none })).count Reg.PWR_SLPCNT_DOZE 1).Inv := .count h0
  refine ⟨((s.modPower (fun p => { p with entering := none })).count Reg.PWR_SLPCNT_DOZE 1).set Reg.PWR_STAT_STATE 1, ?_, ?_, rfl, ?_⟩
  · show execSleepEntryDone s = _
    unfold execSleepEntryDone
    rw [hent]
    rfl
  · exact h1.get_set_self _ _ (by decide) (by decide)
  · rw [State.get_set_of_ne _ _ _ _ (by decide), State.get_count_self _ _ _ h0.regsWf (by decide)]
    rfl

theorem exec_wakeSource_eq : exec (.wakeSource src supply) s =
    if !s.awake && (s.get Reg.PWR_WAKEEN_EN / 2 ^ src.val) % 2 == 1 && !(src == 3 && decide (2 ≤ s.sleepState)) &&
      !(src == 7 && s.sleepState == 3 && !supply)
    then .next (s.wake Reg.PWR_WAKESRC_SRC (2 ^ src.val)) else .next s := rfl

theorem exec_armedWake_eq : exec .armedWake s =
    .next (if s.armedNow then (s.wake Reg.PWR_WAKESRC_ARMED 1).modPower (fun p => { p with armed := none }) else s) := rfl

theorem exec_wake_awake (hawake : s.awake = true) : exec (.wakeSource src supply) s = .next s ∧ exec .armedWake s = .next s := by
  rw [exec_wakeSource_eq, exec_armedWake_eq, State.armedNow, hawake]
  exact ⟨rfl, rfl⟩

theorem State.wake_get (h : s.Inv) {f : Fld} {v : Nat} (hok : f.ok = true) (hv : v < 2 ^ f.w) : (s.wake f v).get f = s.get f ||| v :=
  h.get_set_self _ _ hok (Nat.or_lt_two_pow (State.get_lt _ _) hv)

theorem exec_wakeSource_enabled (h : s.Inv) (hawake : s.awake = false) (hen : s.get Reg.PWR_WAKEEN_EN / 2 ^ src.val % 2 = 1) (h3 : src ≠ 3)
    (h7 : src ≠ 7) : ∃ t, exec (.wakeSource src supply) s = .next t ∧ t.get Reg.PWR_WAKESRC_SRC = s.get Reg.PWR_WAKESRC_SRC ||| 2 ^ src.val ∧
      t.power.waking = true := by
  refine ⟨s.wake Reg.PWR_WAKESRC_SRC (2 ^ src.val), ?_, State.wake_get h (by decide) (Nat.pow_lt_pow_right (by decide) src.isLt), rfl⟩
  rw [exec_wakeSource_eq, hawake, hen, beq_eq_false_iff_ne.mpr h3, beq_eq_false_iff_ne.mpr h7]
  rfl

theorem exec_wakeSource_disabled (hen : s.get Reg.PWR_WAKEEN_EN / 2 ^ src.val % 2 = 0) : exec (.wakeSource src supply) s = .next s := by
  rw [exec_wakeSource_eq, hen]
  exact if_neg (by simp)

theorem exec_armedWake_fires (h : s.Inv) (at' : Nat) (hawake : s.awake = false) (harmed : s.power.armed = some at')
    (hdue : at' ≤ s.now ∨ 2 ≤ s.get Reg.PWR_STAT_STATE) :
    ∃ t, exec .armedWake s = .next t ∧ t.get Reg.PWR_WAKESRC_ARMED = 1 ∧ t.power.waking = true := by
  have hnow : s.armedNow = true := by
    rw [State.armedNow, hawake, harmed, State.tongsClock]
    have hclock : at' ≤ s.now ∨ 1 < s.get Reg.PWR_STAT_STATE := hdue
    simpa using hclock
  refine ⟨_, exec_armedWake_eq.trans (congrArg _ (if_pos hnow)), ?_, rfl⟩
  have hlt : s.get Reg.PWR_WAKESRC_ARMED < 2 := State.get_lt _ _
  rw [State.get_modPower, State.wake_get h (by decide) (by decide)]
  generalize s.get Reg.PWR_WAKESRC_ARMED = x at hlt
  match x, hlt with
  | 0, _ | 1, _ => rfl

theorem exec_wakeComplete_eq : exec (.wakeComplete slow) s = if s.power.waking && s.power.entering.isNone && s.get Reg.PWR_STAT_STATE != 0 then
    .next ((s.wakeUp slow.toNat).power.held.foldl State.perform ((s.wakeUp slow.toNat).modPower (fun p => { p with held := [] }))) else .next s := rfl

theorem exec_wakeComplete_wakes (hwaking : s.power.waking = true) (hent : s.power.entering = none) (hstate : s.get Reg.PWR_STAT_STATE ≠ 0) :
    exec (.wakeComplete slow) s =
      .next ((s.wakeUp slow.toNat).power.held.foldl State.perform ((s.wakeUp slow.toNat).modPower (fun p => { p with held := [] }))) := by
  rw [exec_wakeComplete_eq, hwaking, hent, bne_iff_ne.mpr hstate, if_pos (by decide)]

theorem exec_wakeComplete_idle (hwaking : s.power.waking = false) : exec (.wakeComplete slow) s = .next s := by
  rw [exec_wakeComplete_eq, hwaking]
  rfl

end

/-! ## PWR_QCTL and the pin (R665, R668) -/

section

variable {s : State} {w : Who} {pin : Fin 32} {rising : Bool}

theorem exec_quenchSet : exec (.quenchSet w) s = .next (s.quench 0 false) := congrArg Host.Outcome.next (if_pos (by decide))

theorem exec_quenchClearWrite_eq : exec (.quenchClearWrite w) s =
    .next (if w = .host ∧ s.on Reg.PWR_QSTAT_ACTIVE = true ∧ s.on Reg.PWR_QSTAT_HOLD = false then s.quenchRelease else s) := by
  have hclear : s.writeQctl w 2 = if fieldGet (2 : W32) 1 1 = 1 ∧ isHost w ∧ s.on Reg.PWR_QSTAT_ACTIVE ∧ !s.quenchHeld then s.quenchRelease else s :=
    if_neg (by decide)
  have hcond : (fieldGet (2 : W32) 1 1 = 1 ∧ isHost w ∧ s.on Reg.PWR_QSTAT_ACTIVE ∧ !s.quenchHeld) ↔
      (w = .host ∧ s.on Reg.PWR_QSTAT_ACTIVE = true ∧ s.on Reg.PWR_QSTAT_HOLD = false) := by
    have hbit : fieldGet (2 : W32) 1 1 = 1 := by decide
    simp only [hbit, true_and, isHost, beq_iff_eq, State.quenchHeld, Bool.not_eq_true']
  show Host.Outcome.next (s.writeQctl w 2) = _
  rw [hclear]
  by_cases hc : fieldGet (2 : W32) 1 1 = 1 ∧ isHost w ∧ s.on Reg.PWR_QSTAT_ACTIVE ∧ !s.quenchHeld
  · rw [if_pos hc, if_pos (hcond.mp hc)]
  · rw [if_neg hc, if_neg fun h => hc (hcond.mpr h)]

theorem exec_quenchPin_eq : exec (.quenchPin pin rising) s = .next (if s.get Reg.PWR_QPIO_PIN = pin.val ∧
    (s.get Reg.PWR_QPIO_EDGE = 3 ∨ s.get Reg.PWR_QPIO_EDGE = (if rising then 1 else 2)) then (s.bringPin pin rising).quench 8 false
    else s.bringPin pin rising) := rfl

end

/-! ## Loops in a Quench (R490) -/

section

variable {s t : State}

theorem State.Inv.quenchLooped (h : s.Inv) (l : Nat) : (s.quenchLoop l).Inv := .beside (.ite (.beside h.set) h)

/-- From s to t only AUTO of the loops and the loops themselves have changed, and AUTO of the first n is 0. -/
structure State.LoopsHeld (s : State) (n : Nat) (t : State) : Prop where
  inv : t.Inv
  parts : ∃ regs loops, t = { s with regs := regs, loops := loops }
  gets : ∀ f : Fld, 0xb000 ≤ f.addr → t.get f = s.get f
  auto : ∀ l < n, t.get (Reg.SWG_n_CTRL_AUTO l) = 0

theorem State.get_quenchLoop_of_ne {l : Nat} {f : Fld} (hne : f.addr ≠ (Reg.SWG_n_CTRL_AUTO l).addr) : (s.quenchLoop l).get f = s.get f := by
  have hloops : (s.quenchLoop l).get f = (s.manualHold l).get f := rfl
  rw [hloops]
  unfold State.manualHold
  split
  · exact State.get_set_of_ne _ _ _ _ hne
  · rfl

theorem State.get_quenchLoop_auto (h : s.Inv) {l : Nat} : (s.quenchLoop l).get (Reg.SWG_n_CTRL_AUTO l) = 0 := by
  have hloops : (s.quenchLoop l).get (Reg.SWG_n_CTRL_AUTO l) = (s.manualHold l).get (Reg.SWG_n_CTRL_AUTO l) := rfl
  rw [hloops]
  unfold State.manualHold
  by_cases hauto : s.on (Reg.SWG_n_CTRL_AUTO l) = true
  · rw [if_pos hauto]
    exact h.get_set_self _ _ (by simp [Fld.ok, Reg.SWG_n_CTRL_AUTO]) (by simp)
  · rw [if_neg hauto]
    simpa [State.on] using hauto

theorem State.quenchLoop_parts (l : Nat) : ∃ regs loops, s.quenchLoop l = { s with regs := regs, loops := loops } := by
  unfold State.quenchLoop State.manualHold
  split
  · exact ⟨_, _, rfl⟩
  · exact ⟨_, _, rfl⟩

theorem State.LoopsHeld.step {n : Nat} (hn : n < 16) (h : s.LoopsHeld n t) : s.LoopsHeld (n + 1) (t.quenchLoop n) := by
  obtain ⟨hinv, ⟨r, p, hparts⟩, hgets, hauto⟩ := h
  obtain ⟨r', p', hstep⟩ := State.quenchLoop_parts (s := t) n
  refine ⟨hinv.quenchLooped n, ⟨r', p', by rw [hstep, hparts]⟩, fun f hf => ?_, fun l hl => ?_⟩
  · rw [State.get_quenchLoop_of_ne (by simp only [Reg.SWG_n_CTRL_AUTO]; omega), hgets f hf]
  · by_cases hln : l = n
    · rw [hln, State.get_quenchLoop_auto hinv]
    · rw [State.get_quenchLoop_of_ne (by simp only [Reg.SWG_n_CTRL_AUTO]; omega), hauto l (by omega)]

theorem State.loopsHeld_each (h : s.Inv) (n : Nat) (hn : n ≤ 16) : s.LoopsHeld n (s.each n (fun l t => t.quenchLoop l)) := by
  induction n with
  | zero => exact ⟨h, ⟨s.regs, s.loops, rfl⟩, fun _ _ => rfl, fun _ hl => absurd hl (Nat.not_lt_zero _)⟩
  | succ n ih =>
    have heq : s.each (n + 1) (fun l t => t.quenchLoop l) = (s.each n (fun l t => t.quenchLoop l)).quenchLoop n := by
      simp only [State.each, List.range_succ, List.foldl_append, List.foldl_cons, List.foldl_nil]
    rw [heq]
    exact (ih (by omega)).step (by omega)

/-- Every channel keeps its output as it stood, and nothing else changes. -/
theorem State.each_modChan (n : Nat) (f : State → Nat → Chan → Chan) (s : State) :
    ∃ chans, s.each n (fun c t => t.modChan c (f t c)) = { s with lsw := { s.lsw with chans := chans } } := by
  induction n with
  | zero => exact ⟨s.lsw.chans, rfl⟩
  | succ n ih =>
    obtain ⟨chans, heq⟩ := ih
    have hstep : s.each (n + 1) (fun c t => t.modChan c (f t c)) =
        (s.each n (fun c t => t.modChan c (f t c))).modChan n (f (s.each n (fun c t => t.modChan c (f t c))) n) := by
      simp only [State.each, List.range_succ, List.foldl_append, List.foldl_cons, List.foldl_nil]
    rw [hstep, heq]
    exact ⟨_, rfl⟩

theorem State.safeLsw_spec (h : s.Inv) : s.safeLsw.Inv ∧ s.safeLsw.lsw.qSafe = true ∧
    (∃ regs lsw ledger, s.safeLsw = { s with regs := regs, lsw := lsw, ledger := ledger }) ∧
    ∀ f : Fld, 0xb000 ≤ f.addr → f.addr ≠ Reg.PWR_LEDHEAD_SEQ.addr → s.safeLsw.get f = s.get f := by
  obtain ⟨chans, heq⟩ := State.each_modChan 12 (fun _ _ x => { x with hold := x.now }) s
  have hinv : (s.each 12 (fun c t => t.modChan c (fun x => { x with hold := x.now }))).Inv := .each h fun _ _ ht => .modChan ht
  have hsafe : s.safeLsw = ({ s with lsw := { s.lsw with chans := chans, qSafe := true } } : State).refreshLsw := by
    unfold State.safeLsw
    dsimp only
    rw [heq]
  have hq : ({ s with lsw := { s.lsw with chans := chans, qSafe := true } } : State).Inv := .beside h
  obtain ⟨hgets, ⟨r, l, g, hparts⟩, hqsafe⟩ := State.LswFrame.refreshLsw hq
  rw [hsafe]
  refine ⟨.refreshLsw hq, hqsafe, ⟨r, l, g, hparts⟩, fun f hf hl => ?_⟩
  refine hgets f ⟨by omega, hl, fun n hn => Fld.apart_of_addr_ne ?_⟩
  simp only [Reg.SWG_n_STAT_BLOCKED]
  omega

/-! ## Quench (R665, R666) -/

variable {src : Fin 9} {fault : Bool}

/-- The status of the first source of a Quench (R665). -/
def State.quenchStatus (s : State) (src : Nat) (fault : Bool) : State :=
  let t := if fault then s.markQnch else s
  ((((t.set Reg.PWR_QSTAT_ACTIVE 1).set Reg.PWR_QSTAT_FIRST src).set Reg.PWR_QSTAT_SRCS (2 ^ src)).record 0x0E03 0xFF
  (quenchDetail (2 ^ src) src)).vecEvent 0

theorem State.markQnch_parts (s : State) : ∃ ledger, s.markQnch = { s with ledger := ledger } := ⟨_, rfl⟩

theorem State.vecEvent_parts (s : State) (v : Nat) : ∃ hif, s.vecEvent v = { s with hif := hif } := by
  unfold State.vecEvent
  split
  · exact ⟨s.hif, rfl⟩
  · exact ⟨_, rfl⟩

theorem State.quenchStatus_spec (h : s.Inv) : (s.quenchStatus src fault).Inv ∧
    (∃ regs ledger hif, s.quenchStatus src fault = { s with regs := regs, ledger := ledger, hif := hif }) ∧
    (s.quenchStatus src fault).get Reg.PWR_QSTAT_ACTIVE = 1 ∧ (s.quenchStatus src fault).get Reg.PWR_QSTAT_FIRST = src.val ∧
    (s.quenchStatus src fault).get Reg.PWR_QSTAT_SRCS = 2 ^ src.val := by
  unfold State.quenchStatus
  extract_lets t
  have ht : t.Inv := by
    by_cases hf : fault = true
    · rw [show t = s.markQnch from if_pos hf]
      exact .markQnch h
    · rw [show t = s from if_neg hf]
      exact h
  have htp : ∃ ledger, t = { s with ledger := ledger } := by
    by_cases hf : fault = true
    · exact ⟨_, (if_pos hf : t = s.markQnch)⟩
    · exact ⟨s.ledger, (if_neg hf : t = s)⟩
  clear_value t
  have h1 := ht.set (f := Reg.PWR_QSTAT_ACTIVE) (v := 1)
  have h2 := h1.set (f := Reg.PWR_QSTAT_FIRST) (v := src.val)
  have hsrc : src.val < 16 := by omega
  have hbit : 2 ^ src.val < 2 ^ 9 := Nat.pow_lt_pow_right (by decide) src.isLt
  generalize hu : (((t.set Reg.PWR_QSTAT_ACTIVE 1).set Reg.PWR_QSTAT_FIRST src).set Reg.PWR_QSTAT_SRCS (2 ^ src.val)).record 0x0E03 0xFF
    (quenchDetail (2 ^ src.val) src) = u
  have huinv : u.Inv := hu ▸ h2.set.record
  have hactive : u.get Reg.PWR_QSTAT_ACTIVE = 1 := by
    rw [← hu, State.get_record_of_ne _ _ _ _ _ (by decide), h2.get_set_of_apart _ _ _ (by decide) (by decide),
      h1.get_set_of_apart _ _ _ (by decide) (by decide)]
    exact ht.get_set_self _ _ (by decide) (by decide)
  have hfirst : u.get Reg.PWR_QSTAT_FIRST = src.val := by
    rw [← hu, State.get_record_of_ne _ _ _ _ _ (by decide), h2.get_set_of_apart _ _ _ (by decide) (by decide)]
    exact h1.get_set_self _ _ (by decide) hsrc
  have hsrcs : u.get Reg.PWR_QSTAT_SRCS = 2 ^ src.val := by
    rw [← hu, State.get_record_of_ne _ _ _ _ _ (by decide)]
    exact h2.get_set_self _ _ (by decide) hbit
  have hup : ∃ regs ledger, u = { s with regs := regs, ledger := ledger } := by
    obtain ⟨g, rfl⟩ := htp
    exact ⟨_, _, hu.symm⟩
  obtain ⟨hif, hvec⟩ := State.vecEvent_parts u 0
  obtain ⟨r, g, hup⟩ := hup
  rw [hvec]
  exact ⟨.beside huinv, ⟨r, g, hif, by rw [hup]⟩, hactive, hfirst, hsrcs⟩

/-- What the first source of a Quench does to the device before the Strike conditions are checked. -/
def State.quenched (s : State) (src : Nat) (fault : Bool) : State :=
  (s.quenchStatus src fault).safeLsw.each 16 (fun l t => t.quenchLoop l)

theorem State.quenched_spec (h : s.Inv) : (s.quenched src fault).prs.active = s.prs.active ∧ (s.quenched src fault).mem = s.mem ∧
    (s.quenched src fault).lsw.qSafe = true ∧ (∀ l < 16, (s.quenched src fault).get (Reg.SWG_n_CTRL_AUTO l) = 0) ∧
    ∀ f : Fld, 0xb000 ≤ f.addr → f.addr ≠ Reg.PWR_LEDHEAD_SEQ.addr → (s.quenched src fault).get f = (s.quenchStatus src fault).get f := by
  obtain ⟨hstat, ⟨r, g, hif, hstatParts⟩, -⟩ := State.quenchStatus_spec h (src := src) (fault := fault)
  obtain ⟨hsafe, hqSafe, ⟨r', lsw, g', hsafeParts⟩, hgets⟩ := State.safeLsw_spec hstat
  obtain ⟨-, ⟨r'', loops, hparts⟩, hloopGets, hauto⟩ := State.loopsHeld_each hsafe 16 (by decide)
  have heq : s.quenched src fault = { (s.quenchStatus src fault).safeLsw with regs := r'', loops := loops } := hparts
  refine ⟨?_, ?_, ?_, hauto, fun f hf hl => (hloopGets f hf).trans (hgets f hf hl)⟩
  · rw [heq, hsafeParts, hstatParts]
  · rw [heq, hsafeParts, hstatParts]
  · rw [heq]
    exact hqSafe

/-- The device withdraws from the Chain's votes, and those it has given are spoilt. -/
def State.withdrawn (s : State) : State := { s with chain := { s.chain with withdraw := true, spoilt := s.chain.voted } }

theorem State.quench_first (h : s.Inv) (hoff : s.on Reg.PWR_QSTAT_ACTIVE = false) (hload : s.prs.active = none) :
    s.quench src fault = (s.quenched src fault).withdrawn.checkVoids := by
  obtain ⟨hactive, -⟩ := State.quenched_spec h (src := src) (fault := fault)
  rw [hload] at hactive
  have hunfold : s.quench src fault = (match (s.quenched src fault).prs.active with
    | some n => ((s.quenched src fault).withdrawn.failLoad n.val errQuenched).afterLoad
    | none => (s.quenched src fault).withdrawn).checkVoids := if_neg (by rw [hoff]; decide)
  rw [hunfold, hactive]

theorem State.quench_again (hon : s.on Reg.PWR_QSTAT_ACTIVE = true) : s.quench src fault =
    (s.set Reg.PWR_QSTAT_SRCS (s.get Reg.PWR_QSTAT_SRCS ||| 2 ^ src.val)).record 0x0E03 0xFF
      (quenchDetail (s.get Reg.PWR_QSTAT_SRCS ||| 2 ^ src.val) src) := if_pos hon

end

end Sys2Proof.Machine
end

section
namespace Sys2Proof.Machine

section

variable {s : State} {w : Who} {pin : Fin 32} {rising : Bool} {src : Fin 9} {fault : Bool}

theorem exec_quenchClearWrite_idle (hno : w ≠ .host ∨ s.on Reg.PWR_QSTAT_ACTIVE = false ∨ s.on Reg.PWR_QSTAT_HOLD = true) :
    exec (.quenchClearWrite w) s = .next s := by
  rw [exec_quenchClearWrite_eq, if_neg]
  rintro ⟨hwho, hactive, hfree⟩
  obtain hw | hoff | hheld := hno
  · exact hw hwho
  · exact Bool.false_ne_true (hoff.symm.trans hactive)
  · exact Bool.false_ne_true (hfree.symm.trans hheld)

theorem exec_quenchPin_idle (hno : s.get Reg.PWR_QPIO_PIN ≠ pin.val ∨ s.get Reg.PWR_QPIO_EDGE = 0) :
    exec (.quenchPin pin rising) s = .next (s.bringPin pin rising) := by
  rw [exec_quenchPin_eq, if_neg]
  rintro ⟨hpin, hedge⟩
  obtain hpin' | hzero := hno
  · exact hpin' hpin
  · rw [hzero] at hedge
    cases rising <;> simp at hedge

theorem State.quench_first_spec (h : s.Inv) (hoff : s.on Reg.PWR_QSTAT_ACTIVE = false) (hload : s.prs.active = none) :
    (s.quench src fault).get Reg.PWR_QSTAT_ACTIVE = 1 ∧ (s.quench src fault).get Reg.PWR_QSTAT_FIRST = src.val ∧
    (s.quench src fault).get Reg.PWR_QSTAT_SRCS = 2 ^ src.val ∧ (s.quench src fault).lsw.qSafe = true ∧
    (s.quench src fault).chain.withdraw = true ∧ (∀ l, l < 16 → (s.quench src fault).on (Reg.SWG_n_CTRL_AUTO l) = false) ∧
    (s.quench src fault).mem = s.mem := by
  obtain ⟨-, hmem, hqSafe, hauto, hgets⟩ := State.quenched_spec h (src := src) (fault := fault)
  obtain ⟨-, -, hactive, hfirst, hsrcs⟩ := State.quenchStatus_spec h (src := src) (fault := fault)
  rw [State.quench_first h hoff hload]
  generalize hv : (s.quenched src fault).withdrawn = v
  have hvget : ∀ f : Fld, v.get f = (s.quenched src fault).get f := fun f => by rw [← hv]; rfl
  obtain ⟨hkeep, r, p, l, g, hparts⟩ := State.VoidFrame.checkVoids (s := v)
  have hstat : ∀ f : Fld, f.addr = Reg.PWR_QSTAT_ACTIVE.addr → v.checkVoids.get f = (s.quenchStatus src fault).get f := fun f hf => by
    rw [hkeep f (by rw [hf]; decide) (by rw [hf]; decide), hvget, hgets f (by rw [hf]; decide) (by rw [hf]; decide)]
  refine ⟨(hstat Reg.PWR_QSTAT_ACTIVE rfl).trans hactive, (hstat Reg.PWR_QSTAT_FIRST rfl).trans hfirst,
    (hstat Reg.PWR_QSTAT_SRCS rfl).trans hsrcs, ?_, ?_, fun n hn => ?_, ?_⟩
  · rw [hparts, ← hv]
    exact hqSafe
  · rw [hparts, ← hv]
    rfl
  · have hzero : v.checkVoids.get (Reg.SWG_n_CTRL_AUTO n) = 0 := by
      rw [hkeep _ (by simp only [Reg.SWG_n_CTRL_AUTO]; omega) (by simp only [Reg.SWG_n_CTRL_AUTO, Reg.PWR_LEDHEAD_SEQ]; omega), hvget, hauto n hn]
    rw [State.on, hzero]
    rfl
  · rw [hparts, ← hv]
    exact hmem

theorem State.quench_again_spec (h : s.Inv) (hon : s.on Reg.PWR_QSTAT_ACTIVE = true) :
    (s.quench src fault).get Reg.PWR_QSTAT_SRCS = s.get Reg.PWR_QSTAT_SRCS ||| 2 ^ src.val ∧
    (s.quench src fault).get Reg.PWR_QSTAT_FIRST = s.get Reg.PWR_QSTAT_FIRST ∧
    ((s.quench src fault).ledger.head?.map (fun x => x.code)) = some 0x0E03 ∧
    s.quench src fault = { s with regs := (s.quench src fault).regs, ledger := (s.quench src fault).ledger } := by
  have hor : s.get Reg.PWR_QSTAT_SRCS ||| 2 ^ src.val < 2 ^ 9 :=
    Nat.or_lt_two_pow (State.get_lt _ _) (Nat.pow_lt_pow_right (by decide) src.isLt)
  rw [State.quench_again hon]
  refine ⟨?_, ?_, rfl, rfl⟩
  · rw [State.get_record_of_ne _ _ _ _ _ (by decide)]
    exact h.get_set_self _ _ (by decide) hor
  · rw [State.get_record_of_ne _ _ _ _ _ (by decide)]
    exact h.get_set_of_apart _ _ _ (by decide) (by decide)

end

end Sys2Proof.Machine

open Sys2Proof Sys2Proof.Machine

/-- Settles O57: the sleep commands branch by branch, the two writes of PWR_QCTL and the pin, and the first and a later source of a Quench. -/
theorem sleepAndQuench : Obligations.SleepAndQuench := by
  refine ⟨fun src supply slow bad s h => ?_, fun w pin rising s _ => ?_, fun src fault s h => ?_⟩
  · exact ⟨exec_sleepEntryDone_none, exec_sleepEntryDone_doze h, exec_wake_awake, exec_wakeSource_enabled h, exec_wakeSource_disabled,
      fun at' => exec_armedWake_fires h at', exec_wakeComplete_wakes, exec_wakeComplete_idle, rfl⟩
  · refine ⟨exec_quenchSet, fun hwho hactive hfree => ?_, exec_quenchClearWrite_idle, fun hpin hedge => ?_, exec_quenchPin_idle⟩
    · rw [exec_quenchClearWrite_eq, if_pos ⟨hwho, hactive, hfree⟩]
    · rw [exec_quenchPin_eq, if_pos ⟨hpin, hedge⟩]
  · exact ⟨State.quench_first_spec h, State.quench_again_spec h⟩
end

section
/-!
SUPPORT. The registers of a mailbox direction (R674 to R682): what a write of xCTL, a doorbell and the end of a message leave in them.
-/

namespace Sys2Proof.Machine

/-! ## Addresses -/

section

variable {i j : Nat}

theorem mbxCtl_eq (i : Nat) : mbxCtl i = 0xf004 + 0x100 * (i / 2) + 8 * (i % 2) := by
  unfold mbxCtl Reg.MBX_A2B_CTL Reg.MBX_B2A_CTL
  split <;> omega

theorem mbxStat_eq (i : Nat) : mbxStat i = 0xf008 + 0x100 * (i / 2) + 8 * (i % 2) := by
  unfold mbxStat Reg.MBX_A2B_STAT Reg.MBX_B2A_STAT
  split <;> omega

theorem mbxBuf_eq (i j : Nat) : mbxBuf i j = 0xf040 + 0x100 * (i / 2) + 0x40 * (i % 2) + 4 * j := by
  unfold mbxBuf Reg.MBX_A2B_BUF Reg.MBX_B2A_BUF
  split <;> omega

theorem mbxStat_ne_ctl (i : Nat) : mbxStat i ≠ mbxCtl i := by
  rw [mbxStat_eq, mbxCtl_eq]
  omega

theorem mbxCtl_ne_ledger (i : Nat) : mbxCtl i ≠ Reg.PWR_LEDHEAD_SEQ.addr := by
  rw [mbxCtl_eq, Reg.PWR_LEDHEAD_SEQ]
  dsimp only
  omega

theorem mbxStat_ne_ledger (i : Nat) : mbxStat i ≠ Reg.PWR_LEDHEAD_SEQ.addr := by
  rw [mbxStat_eq, Reg.PWR_LEDHEAD_SEQ]
  dsimp only
  omega

theorem mbxBuf_ne (i : Nat) {j : Nat} (hj : j < 16) : mbxBuf i j ≠ mbxCtl i ∧ mbxBuf i j ≠ mbxStat i ∧ mbxBuf i j ≠ Reg.PWR_LEDHEAD_SEQ.addr := by
  rw [mbxBuf_eq, mbxCtl_eq, mbxStat_eq, Reg.PWR_LEDHEAD_SEQ]
  dsimp only
  omega

end

/-! ## What the ends and the configuration of a channel depend on -/

section

variable {s t u : State} {i c n : Nat}

/-- From s to t only the ledger and the CTL and STAT words of direction i have changed. -/
structure State.MbxFrame (i : Nat) (s t : State) : Prop where
  words : ∀ a, a ≠ mbxCtl i → a ≠ mbxStat i → a ≠ Reg.PWR_LEDHEAD_SEQ.addr → t.word a = s.word a
  parts : ∃ regs ledger, t = { s with regs := regs, ledger := ledger }

theorem State.MbxFrame.refl : s.MbxFrame i s := ⟨fun _ _ _ _ => rfl, s.regs, s.ledger, rfl⟩

theorem State.MbxFrame.trans (h1 : s.MbxFrame i t) (h2 : t.MbxFrame i u) : s.MbxFrame i u := by
  refine ⟨fun a hc hs hl => (h2.words a hc hs hl).trans (h1.words a hc hs hl), ?_⟩
  obtain ⟨r, g, rfl⟩ := h1.parts
  obtain ⟨r', g', rfl⟩ := h2.parts
  exact ⟨r', g', rfl⟩

theorem State.MbxFrame.ctl {lo w v : Nat} : s.MbxFrame i (s.set ⟨mbxCtl i, lo, w⟩ v) :=
  ⟨fun _ hc _ _ => State.word_set_of_ne _ _ _ _ hc, _, s.ledger, rfl⟩

theorem State.MbxFrame.stat {lo w v : Nat} : s.MbxFrame i (s.set ⟨mbxStat i, lo, w⟩ v) :=
  ⟨fun _ _ hs _ => State.word_set_of_ne _ _ _ _ hs, _, s.ledger, rfl⟩

theorem State.MbxFrame.record {code unit detail : Nat} : s.MbxFrame i (s.record code unit detail) :=
  ⟨fun _ _ _ hl => State.word_recordF_of_ne _ _ _ _ _ _ hl, _, _, rfl⟩

theorem State.ends_of_word (hw : t.word (Reg.MBX_CFG c) = s.word (Reg.MBX_CFG c)) : t.ends c = s.ends c := congrArg (endsOf c) hw

/-- Is this end one that a channel may have (R674, R689)? -/
def State.endOk (s : State) (c : Nat) (x : MbxEnd) : Bool :=
  match x with
  | .none => false
  | .engine n => decide (c < 8) || s.on (Reg.ENG_CFG_SECURE n)
  | _ => true

theorem State.mbxConfigured_eq (s : State) (c : Nat) :
    s.mbxConfigured c = (s.endOk c (s.ends c).1 && s.endOk c (s.ends c).2 && (s.ends c).1 != (s.ends c).2) := rfl

theorem mbxEnd_engine {mbs b : Bool} {type idx : Nat} (h : mbxEnd mbs b type idx = .engine n) : n = idx := by
  unfold mbxEnd at h
  split at h
  · cases h
  · cases h; rfl
  · split at h
    · split at h <;> cases h
    · cases h
  · cases h

theorem endsOf_engine_lt {v : W32} (h : (endsOf c v).1 = .engine n ∨ (endsOf c v).2 = .engine n) : n < 16 := by
  obtain h | h := h <;> rw [mbxEnd_engine h] <;> exact Nat.mod_lt _ (by decide)

theorem State.endOk_congr {x : MbxEnd} (hx : ∀ n, x = .engine n → t.word (Reg.ENG_CFG_SECURE n).addr = s.word (Reg.ENG_CFG_SECURE n).addr) :
    t.endOk c x = s.endOk c x := by
  cases x with
  | engine n => simp only [State.endOk, State.on, State.get, hx n rfl]
  | none => rfl
  | host => rfl
  | remote => rfl
  | warden => rfl

namespace State.MbxFrame

variable (h : s.MbxFrame i t)

include h

theorem cfg : t.word (Reg.MBX_CFG c) = s.word (Reg.MBX_CFG c) := by
  refine h.words _ ?_ ?_ ?_
  · rw [mbxCtl_eq, Reg.MBX_CFG]; omega
  · rw [mbxStat_eq, Reg.MBX_CFG]; omega
  · rw [Reg.MBX_CFG, Reg.PWR_LEDHEAD_SEQ]; dsimp only; omega

theorem ends : t.ends c = s.ends c := State.ends_of_word h.cfg

theorem sender : t.sender n = s.sender n := by
  unfold State.sender
  rw [h.ends]

theorem receiver : t.receiver n = s.receiver n := by
  unfold State.receiver
  rw [h.ends]

theorem configured : t.mbxConfigured c = s.mbxConfigured c := by
  have hsecure : ∀ n < 16, t.word (Reg.ENG_CFG_SECURE n).addr = s.word (Reg.ENG_CFG_SECURE n).addr := by
    intro n hn
    refine h.words _ ?_ ?_ ?_
    · rw [mbxCtl_eq, Reg.ENG_CFG_SECURE]; dsimp only; omega
    · rw [mbxStat_eq, Reg.ENG_CFG_SECURE]; dsimp only; omega
    · rw [Reg.ENG_CFG_SECURE, Reg.PWR_LEDHEAD_SEQ]; dsimp only; omega
  rw [State.mbxConfigured_eq, State.mbxConfigured_eq, h.ends,
    State.endOk_congr (x := (s.ends c).1) fun n hn => hsecure n (endsOf_engine_lt (v := s.word (Reg.MBX_CFG c)) (.inl hn)),
    State.endOk_congr (x := (s.ends c).2) fun n hn => hsecure n (endsOf_engine_lt (v := s.word (Reg.MBX_CFG c)) (.inr hn))]

theorem dir : t.dir n = s.dir n := by
  obtain ⟨r, g, rfl⟩ := h.parts
  rfl

theorem now : t.now = s.now := by
  obtain ⟨r, g, rfl⟩ := h.parts
  rfl

theorem whoStrike {w : Who} : t.whoStrike w = s.whoStrike w := by
  obtain ⟨r, g, rfl⟩ := h.parts
  rfl

end State.MbxFrame

/-! ## Directions -/

theorem State.dir_modDir_self {f : MbxDir → MbxDir} (hi : i < 32) : (s.modDir i f).dir i = f (s.dir i) := getD_set_self _ _ _ _ hi

theorem State.get_modDir (s : State) (i : Nat) (f : MbxDir → MbxDir) (g : Fld) : (s.modDir i f).get g = s.get g := rfl

theorem State.word_modDir (s : State) (i : Nat) (f : MbxDir → MbxDir) (a : Nat) : (s.modDir i f).word a = s.word a := rfl

theorem State.get_disownTags (s : State) (c : Nat) (g : Fld) : (s.disownTags c).get g = s.get g := rfl

theorem State.get_unring (s : State) (i : Nat) (g : Fld) : (s.unring i).get g = (s.set (mbxDb i) 0).get g := by
  unfold State.unring
  split
  · rfl
  · rfl

theorem State.unring_db (h : s.Inv) : (s.unring i).get (mbxDb i) = 0 := by
  rw [State.get_unring]
  exact h.get_set_self _ _ (by simp [Fld.ok, mbxDb]) (by simp [mbxDb])

theorem State.unring_dir (hi : i < 32) : (s.unring i).dir i = { s.dir i with timing := none, wait := none } := by
  have hmod : ((s.set (mbxDb i) 0).modDir i (fun d => { d with timing := none, wait := none })).dir i =
      { s.dir i with timing := none, wait := none } := State.dir_modDir_self hi
  unfold State.unring
  dsimp only
  split
  · exact hmod
  · exact hmod

theorem State.unring_tags (heven : i % 2 = 0) : (s.unring i).chain.mtags.all (fun x => x.2.1 != i / 2 || x.2.2 == 1) = true := by
  unfold State.unring
  rw [if_pos heven]
  refine List.all_eq_true.mpr fun x hx => ?_
  obtain ⟨y, -, rfl⟩ := List.mem_map.mp hx
  split
  · exact Bool.or_true _
  · next hne => rw [bne_iff_ne.mpr hne]; rfl

/-- The message of a direction ends, and one of its flags is set. -/
theorem State.unring_flag (h : s.Inv) {f : Fld} (hlo : 1 ≤ f.lo) (hw : f.w = 1) (hok : f.ok = true) :
    ((s.unring i).set f 1).get (mbxDb i) = 0 ∧ ((s.unring i).set f 1).get f = 1 := by
  have hu : (s.unring i).Inv := h.unring
  refine ⟨?_, hu.get_set_self _ _ hok (by rw [hw]; decide)⟩
  rw [hu.get_set_of_apart _ _ _ hok (by simp [Fld.apart, mbxDb, hlo]), State.unring_db h]

/-! ## A message becomes pending (R678, R681) -/

theorem State.ring1_frame {m : Nat} {timing : Option Nat} : ∃ x : State, s.MbxFrame i x ∧
    s.ring1 i m timing = x.modDir i (fun _ => { len := m, timing := timing, wait := none }) :=
  ⟨_, .trans (.trans (.trans (.trans .stat .stat) .stat) .stat) .stat, rfl⟩

theorem State.ring1_gets (h : s.Inv) {m : Nat} {timing : Option Nat} : (s.ring1 i m timing).get (mbxDb i) = 1 ∧
    (s.ring1 i m timing).get (mbxAck i) = 0 ∧ (s.ring1 i m timing).get (mbxTimeout i) = 0 ∧ (s.ring1 i m timing).get (mbxCancelled i) = 0 ∧
    (s.ring1 i m timing).get (mbxRefused i) = 0 := by
  have h1 := h.set (f := mbxDb i) (v := 1)
  have h2 := h1.set (f := mbxAck i) (v := 0)
  have h3 := h2.set (f := mbxTimeout i) (v := 0)
  have h4 := h3.set (f := mbxCancelled i) (v := 0)
  have hring : ∀ g, (s.ring1 i m timing).get g =
    (((((s.set (mbxDb i) 1).set (mbxAck i) 0).set (mbxTimeout i) 0).set (mbxCancelled i) 0).set (mbxRefused i) 0).get g := fun g => by
    unfold State.ring1
    exact State.get_modDir _ _ _ g
  have ok : ∀ lo, lo < 5 → (⟨mbxStat i, lo, 1⟩ : Fld).ok = true := fun lo hlo => by simp [Fld.ok]; omega
  have ne : ∀ lo lo', lo ≠ lo' → (⟨mbxStat i, lo, 1⟩ : Fld).apart ⟨mbxStat i, lo', 1⟩ = true := fun lo lo' hne => by simp [Fld.apart]; omega
  refine ⟨?_, ?_, ?_, ?_, ?_⟩
  · rw [hring, h4.get_set_of_apart (mbxRefused i) (mbxDb i) _ (ok 4 (by decide)) (ne 0 4 (by decide)),
      h3.get_set_of_apart (mbxCancelled i) (mbxDb i) _ (ok 3 (by decide)) (ne 0 3 (by decide)),
      h2.get_set_of_apart (mbxTimeout i) (mbxDb i) _ (ok 2 (by decide)) (ne 0 2 (by decide)),
      h1.get_set_of_apart (mbxAck i) (mbxDb i) _ (ok 1 (by decide)) (ne 0 1 (by decide))]
    exact h.get_set_self _ _ (ok 0 (by decide)) (by simp [mbxDb])
  · rw [hring, h4.get_set_of_apart (mbxRefused i) (mbxAck i) _ (ok 4 (by decide)) (ne 1 4 (by decide)),
      h3.get_set_of_apart (mbxCancelled i) (mbxAck i) _ (ok 3 (by decide)) (ne 1 3 (by decide)),
      h2.get_set_of_apart (mbxTimeout i) (mbxAck i) _ (ok 2 (by decide)) (ne 1 2 (by decide))]
    exact h1.get_set_self _ _ (ok 1 (by decide)) (by simp [mbxAck])
  · rw [hring, h4.get_set_of_apart (mbxRefused i) (mbxTimeout i) _ (ok 4 (by decide)) (ne 2 4 (by decide)),
      h3.get_set_of_apart (mbxCancelled i) (mbxTimeout i) _ (ok 3 (by decide)) (ne 2 3 (by decide))]
    exact h2.get_set_self _ _ (ok 2 (by decide)) (by simp [mbxTimeout])
  · rw [hring, h4.get_set_of_apart (mbxRefused i) (mbxCancelled i) _ (ok 4 (by decide)) (ne 3 4 (by decide))]
    exact h3.get_set_self _ _ (ok 3 (by decide)) (by simp [mbxCancelled])
  · rw [hring]
    exact h4.get_set_self _ _ (ok 4 (by decide)) (by simp [mbxRefused])

theorem State.ring1_dir (hi : i < 32) {m : Nat} {timing : Option Nat} : (s.ring1 i m timing).dir i = { len := m, timing := timing, wait := none } :=
  State.dir_modDir_self hi

theorem State.ring1_word {m a : Nat} {timing : Option Nat} (ha : a ≠ mbxStat i) : (s.ring1 i m timing).word a = s.word a := by
  have hring : (s.ring1 i m timing).word a =
    (((((s.set (mbxDb i) 1).set (mbxAck i) 0).set (mbxTimeout i) 0).set (mbxCancelled i) 0).set (mbxRefused i) 0).word a := by
    unfold State.ring1
    exact State.word_modDir _ _ _ a
  rw [hring, State.word_set_of_ne _ _ _ _ ha, State.word_set_of_ne _ _ _ _ ha, State.word_set_of_ne _ _ _ _ ha, State.word_set_of_ne _ _ _ _ ha,
    State.word_set_of_ne _ _ _ _ ha]

/-! ## A doorbell (R674, R678, R685) -/

/-- The longest message that a direction takes: what a MSG cell carries, or the buffer (R678, R685). -/
def State.mostLen (s : State) (i : Nat) : Nat := if s.receiver i = .remote then 56 else 64

variable {strike : Bool}

theorem State.doorbell_refused (hno : s.mbxConfigured (i / 2) = false ∨ s.on (mbxDb i) = true ∨ s.get ⟨mbxCtl i, 0, 7⟩ = 0 ∨
    s.mostLen i < s.get ⟨mbxCtl i, 0, 7⟩) : s.doorbell strike i = s.set (mbxRefused i) 1 := by
  refine if_pos ?_
  rw [Bool.or_eq_true, Bool.or_eq_true, Bool.or_eq_true, Bool.not_eq_true', decide_eq_true_eq, decide_eq_true_eq]
  obtain h | h | h | h := hno
  · exact .inl (.inl (.inl h))
  · exact .inl (.inl (.inr h))
  · exact .inl (.inr h)
  · exact .inr h

/-- What a doorbell that is taken does with the message. -/
def State.deliverMbx (s : State) (strike : Bool) (i n : Nat) (x : MbxEnd) : State :=
  match x with
  | .remote => (s.modDir i (fun d => { d with wait := some 0 })).sendMbx strike (i / 2) 0 (s.message i n)
  | .warden => (s.modSec (fun y => { y with queue := y.queue ++ [(i / 2, s.message i n)] })).wardenGo
  | x => s.notify (i / 2) x

theorem State.deliverMbx_remote {m : Nat} : s.deliverMbx strike i m .remote = (s.modDir i (fun d => { d with wait := some 0 })).sendMbx strike
    (i / 2) 0 ((s.modDir i (fun d => { d with wait := some 0 })).message i m) := rfl

theorem State.doorbell_taken (hcfg : s.mbxConfigured (i / 2) = true) (hdb : s.on (mbxDb i) = false) (hpos : 1 ≤ s.get ⟨mbxCtl i, 0, 7⟩)
    (hmost : s.get ⟨mbxCtl i, 0, 7⟩ ≤ s.mostLen i) : s.doorbell strike i =
      (s.ring1 i (s.get ⟨mbxCtl i, 0, 7⟩) (some (s.mbxUntil i))).deliverMbx strike i (s.get ⟨mbxCtl i, 0, 7⟩) (s.receiver i) := by
  have hcond : ¬(!s.mbxConfigured (i / 2) || s.on (mbxDb i) || decide (s.get ⟨mbxCtl i, 0, 7⟩ = 0) ||
      decide (s.mostLen i < s.get ⟨mbxCtl i, 0, 7⟩)) = true := by
    rw [hcfg, hdb, decide_eq_false (by omega), decide_eq_false (by omega)]
    decide
  exact if_neg hcond

theorem State.doorbell_engine (hcfg : s.mbxConfigured (i / 2) = true) (hdb : s.on (mbxDb i) = false) (hrecv : s.receiver i = .engine n)
    (hpos : 1 ≤ s.get ⟨mbxCtl i, 0, 7⟩) (hmost : s.get ⟨mbxCtl i, 0, 7⟩ ≤ 64) : s.doorbell strike i =
      (s.ring1 i (s.get ⟨mbxCtl i, 0, 7⟩) (some (s.mbxUntil i))).register n (bit64 (18 + i / 2)) := by
  have hne : s.mostLen i = 64 := if_neg (by rw [hrecv]; exact fun h => MbxEnd.noConfusion h)
  rw [State.doorbell_taken hcfg hdb hpos (hne ▸ hmost), hrecv]
  rfl

theorem State.doorbell_remote (h : s.Inv) (hi : i < 32) (hcfg : s.mbxConfigured (i / 2) = true) (hrecv : s.receiver i = .remote)
    (hdb : s.on (mbxDb i) = false) (hpos : 1 ≤ s.get ⟨mbxCtl i, 0, 7⟩) (hmost : s.get ⟨mbxCtl i, 0, 7⟩ ≤ 56) : ∃ u : State,
      s.doorbell strike i = u.sendMbx strike (i / 2) 0 (u.message i (s.get ⟨mbxCtl i, 0, 7⟩)) ∧ u.get (mbxDb i) = 1 ∧
      u.dir i = { len := s.get ⟨mbxCtl i, 0, 7⟩, timing := some (s.mbxUntil i), wait := some 0 } ∧
      ∀ j, j < 16 → u.word (mbxBuf i j) = s.word (mbxBuf i j) := by
  have hlen : s.mostLen i = 56 := if_pos hrecv
  refine ⟨(s.ring1 i (s.get ⟨mbxCtl i, 0, 7⟩) (some (s.mbxUntil i))).modDir i (fun d => { d with wait := some 0 }), ?_, ?_, ?_, fun j hj => ?_⟩
  · rw [State.doorbell_taken hcfg hdb hpos (hlen ▸ hmost), hrecv, State.deliverMbx_remote]
  · obtain ⟨hring, -⟩ := State.ring1_gets h (i := i) (m := s.get ⟨mbxCtl i, 0, 7⟩) (timing := some (s.mbxUntil i))
    rw [State.get_modDir, hring]
  · rw [State.dir_modDir_self hi, State.ring1_dir hi]
  · obtain ⟨-, hstat, -⟩ := mbxBuf_ne i hj
    rw [State.word_modDir, State.ring1_word hstat]

end

end Sys2Proof.Machine
end

section
/-!
SUPPORT. Writes of xCTL by the sender, the receiver and others (R675), cells of the other device (R685 to R688), and the statement.
-/

namespace Sys2Proof.Machine

/-! ## The bits of a value with DB, CANCEL or TAKE set -/

section

variable {v m : W32} {lo w : Nat}

theorem fieldGet_or (v m : W32) (lo w : Nat) : fieldGet (v ||| m) lo w = fieldGet v lo w ||| fieldGet m lo w := by
  apply Nat.eq_of_testBit_eq
  intro i
  rw [Nat.testBit_or, testBit_fieldGet, testBit_fieldGet, testBit_fieldGet, BitVec.getLsbD_or, Bool.and_or_distrib_left]

theorem fieldGet_or_clear (hm : fieldGet m lo w = 0) : fieldGet (v ||| m) lo w = fieldGet v lo w := by
  rw [fieldGet_or, hm, Nat.or_zero]

theorem fieldGet_or_set (hm : fieldGet m lo 1 = 1) : fieldGet (v ||| m) lo 1 = 1 := by
  have hlt : fieldGet v lo 1 < 2 := Nat.mod_lt _ (by decide)
  rw [fieldGet_or, hm]
  match fieldGet v lo 1, hlt with
  | 0, _ | 1, _ => rfl

end

/-! ## Who writes xCTL -/

section

variable {s t : State} {w : Who} {i n : Nat} {v m : W32} {strike : Bool}

theorem State.writeMbxCtl_denied (hreach : s.mbxReach w (i / 2) = false) : s.writeMbxCtl w i v = s.mbxDeny w (mbxCtl i) true := by
  unfold State.writeMbxCtl
  dsimp only
  rw [hreach, if_pos (by decide)]

theorem State.writeMbxCtl_stranger (hreach : s.mbxReach w (i / 2) = true) (hsend : isEnd w (i / 2) (s.sender i) = false)
    (hrecv : isEnd w (i / 2) (s.receiver i) = false) : s.writeMbxCtl w i v = s.recordMbx 0x0F03 i := by
  unfold State.writeMbxCtl
  dsimp only
  rw [hreach, hsend, hrecv, if_neg (by decide), if_neg (by decide), if_neg (by decide)]

/-- The sender's fields of xCTL take these values (R675). -/
def State.ctlWritten (s : State) (i len tmo : Nat) : State := (s.set ⟨mbxCtl i, 0, 7⟩ len).set ⟨mbxCtl i, 12, 20⟩ tmo

/-- The sender's write of xCTL before DB and CANCEL act: TAKE is not the sender's. -/
def State.senderWrote (s : State) (i : Nat) (v : W32) : State :=
  let u := s.ctlWritten i (fieldGet v 0 7) (fieldGet v 12 20)
  if (fieldGet v 10 1 == 1) = true then u.recordMbx 0x0F03 i else u

/-- The sender's write of xCTL before CANCEL acts. -/
def State.senderRang (s : State) (w : Who) (i : Nat) (v : W32) : State :=
  let t := s.senderWrote i v
  if (fieldGet v 8 1 == 1) = true then t.doorbell (t.whoStrike w) i else t

theorem State.writeMbxCtl_sender (hreach : s.mbxReach w (i / 2) = true) (hsend : isEnd w (i / 2) (s.sender i) = true) :
    s.writeMbxCtl w i v = if (fieldGet v 9 1 == 1 && s.on (mbxDb i)) = true then
      (s.senderRang w i v).cancelMsg ((s.senderRang w i v).whoStrike w) i else s.senderRang w i v := by
  unfold State.writeMbxCtl State.senderRang State.senderWrote State.ctlWritten
  dsimp only
  rw [hreach, hsend, if_neg (by decide), if_pos rfl]

theorem State.senderWrote_frame : s.MbxFrame i (s.senderWrote i v) := by
  unfold State.senderWrote State.ctlWritten State.recordMbx
  dsimp only
  split
  · exact .trans (.trans .ctl .ctl) .record
  · exact .trans .ctl .ctl

theorem State.Inv.senderWrote (h : s.Inv) : (s.senderWrote i v).Inv := .ite (.recordMbx h.set.set) h.set.set

theorem State.senderWrote_get {f : Fld} (hf : f.addr ≠ Reg.PWR_LEDHEAD_SEQ.addr) :
    (s.senderWrote i v).get f = (s.ctlWritten i (fieldGet v 0 7) (fieldGet v 12 20)).get f := by
  unfold State.senderWrote State.recordMbx
  dsimp only
  split
  · exact State.get_record_of_ne _ _ _ _ _ hf
  · rfl

theorem State.senderWrote_db : (s.senderWrote i v).on (mbxDb i) = s.on (mbxDb i) := by
  have hne : (mbxDb i).addr ≠ mbxCtl i := mbxStat_ne_ctl i
  rw [State.on, State.on, State.senderWrote_get (mbxStat_ne_ledger i), State.ctlWritten, State.get_set_of_ne _ _ _ _ hne,
    State.get_set_of_ne _ _ _ _ hne]

theorem State.senderWrote_ctl (h : s.Inv) : (s.senderWrote i v).get ⟨mbxCtl i, 0, 7⟩ = v.toNat % 128 ∧
    (s.senderWrote i v).get ⟨mbxCtl i, 12, 20⟩ = v.toNat / 4096 := by
  have hlen : fieldGet v 0 7 < 2 ^ 7 := Nat.mod_lt _ (by decide)
  have htmo : fieldGet v 12 20 < 2 ^ 20 := Nat.mod_lt _ (by decide)
  rw [State.senderWrote_get (mbxCtl_ne_ledger i), State.senderWrote_get (mbxCtl_ne_ledger i), State.ctlWritten]
  refine ⟨?_, ?_⟩
  · rw [h.set.get_set_of_apart ⟨mbxCtl i, 12, 20⟩ ⟨mbxCtl i, 0, 7⟩ _ (by simp [Fld.ok]) (by simp [Fld.apart]),
      h.get_set_self ⟨mbxCtl i, 0, 7⟩ _ (by simp [Fld.ok]) hlen]
    simp [fieldGet]
  · rw [h.set.get_set_self ⟨mbxCtl i, 12, 20⟩ _ (by simp [Fld.ok]) htmo]
    simp only [fieldGet]
    omega

/-- DB: the sender's doorbell. -/
theorem State.writeMbxCtl_rings (hreach : s.mbxReach w (i / 2) = true) (hsend : isEnd w (i / 2) (s.sender i) = true) (hdb : s.on (mbxDb i) = false) :
    s.writeMbxCtl w i (v ||| 0x100) = (s.senderWrote i (v ||| 0x100)).doorbell (s.whoStrike w) i := by
  have hwho : (s.senderWrote i (v ||| 0x100)).whoStrike w = s.whoStrike w := State.senderWrote_frame.whoStrike
  rw [State.writeMbxCtl_sender hreach hsend, hdb, Bool.and_false, if_neg (by decide), State.senderRang, fieldGet_or_set (by decide),
    if_pos (by decide), hwho]

/-- What a value leaves in the sender's fields when it does not have TAKE. -/
theorem State.senderWrote_plain (htake : fieldGet v 10 1 = 0) :
    s.senderWrote i v = (s.set ⟨mbxCtl i, 0, 7⟩ (v.toNat % 128)).set ⟨mbxCtl i, 12, 20⟩ (v.toNat / 4096) := by
  have hlen : fieldGet v 0 7 = v.toNat % 128 := by simp [fieldGet]
  have htmo : fieldGet v 12 20 = v.toNat / 4096 := by
    simp only [fieldGet]
    omega
  rw [State.senderWrote, htake, if_neg (by decide), State.ctlWritten, hlen, htmo]

theorem State.senderWrote_or (hm : fieldGet m 0 7 = 0 ∧ fieldGet m 12 20 = 0 ∧ fieldGet m 10 1 = 0) : s.senderWrote i (v ||| m) =
    s.senderWrote i v := by
  obtain ⟨hlen, htmo, htake⟩ := hm
  rw [State.senderWrote, State.senderWrote, fieldGet_or_clear hlen, fieldGet_or_clear htmo, fieldGet_or_clear htake]

/-- CANCEL, with no message pending. -/
theorem State.writeMbxCtl_cancels_nothing (hreach : s.mbxReach w (i / 2) = true) (hsend : isEnd w (i / 2) (s.sender i) = true)
    (hdb : s.on (mbxDb i) = false) (hoff : fieldGet v 8 1 = 0) : s.writeMbxCtl w i v = s.senderWrote i v := by
  rw [State.writeMbxCtl_sender hreach hsend, hdb, Bool.and_false, if_neg (by decide), State.senderRang, hoff, if_neg (by decide)]

/-! ## CANCEL of a pending message (R682) -/

theorem State.cancelMsg_local (hrecv : s.receiver i ≠ .remote) : ∃ f : List (Nat × List Byte) → List (Nat × List Byte), s.cancelMsg strike i =
    ((s.unring i).set (mbxCancelled i) 1).modSec (fun y => { y with queue := f y.queue }) := by
  refine ⟨fun q => q.filter (fun m => m.1 != i / 2 || i % 2 == 1), ?_⟩
  unfold State.cancelMsg
  split
  · next hr => exact absurd hr hrecv
  · rfl

theorem State.cancelMsg_remote (hi : i < 32) (hrecv : s.receiver i = .remote) (hwait : (s.dir i).wait ≠ some 2) : ∃ u : State,
    s.cancelMsg strike i = u.sendMbx strike (i / 2) 2 [] ∧ (u.dir i).wait = some 2 ∧ u.regs = s.regs := by
  refine ⟨s.modDir i (fun d => { d with wait := some 2 }), ?_, by rw [State.dir_modDir_self hi], rfl⟩
  unfold State.cancelMsg
  rw [hrecv]
  exact if_neg hwait

/-- While a message is pending, the sender's write of xCTL only refuses a further doorbell. -/
theorem State.senderRang_pending (h : s.Inv) (hdb : s.on (mbxDb i) = true) : (s.senderRang w i v).Inv ∧ s.MbxFrame i (s.senderRang w i v) := by
  have hwrote : s.MbxFrame i (s.senderWrote i v) := State.senderWrote_frame
  unfold State.senderRang
  dsimp only
  split
  · rw [State.doorbell_refused (.inr (.inl (State.senderWrote_db.trans hdb)))]
    exact ⟨h.senderWrote.set, hwrote.trans .stat⟩
  · exact ⟨h.senderWrote, hwrote⟩

theorem State.get_modSec (t : State) (f : Secure → Secure) (g : Fld) : (t.modSec f).get g = t.get g := rfl

theorem State.writeMbxCtl_cancels (h : s.Inv) (hi : i < 32) (hreach : s.mbxReach w (i / 2) = true) (hsend : isEnd w (i / 2) (s.sender i) = true)
    (hdb : s.on (mbxDb i) = true) (hrecv : s.receiver i ≠ .remote) (hcancel : fieldGet v 9 1 = 1) :
    (s.writeMbxCtl w i v).get (mbxDb i) = 0 ∧ (s.writeMbxCtl w i v).get (mbxCancelled i) = 1 ∧
    (s.writeMbxCtl w i v).dir i = { s.dir i with timing := none, wait := none } := by
  obtain ⟨hinv, hframe⟩ := State.senderRang_pending h hdb (w := w) (v := v)
  obtain ⟨f, hmsg⟩ := State.cancelMsg_local (s := s.senderRang w i v) (strike := (s.senderRang w i v).whoStrike w)
    (by rw [hframe.receiver]; exact hrecv)
  obtain ⟨hgone, hflag⟩ := State.unring_flag hinv (i := i) (f := mbxCancelled i) (by simp [mbxCancelled]) rfl (by simp [Fld.ok, mbxCancelled])
  rw [State.writeMbxCtl_sender hreach hsend, hdb, hcancel, if_pos (by decide), hmsg, State.get_modSec, State.get_modSec]
  refine ⟨hgone, hflag, ?_⟩
  rw [← hframe.dir]
  exact State.unring_dir hi

/-! ## TAKE by the receiver (R680) -/

/-- The receiver's write of xCTL before TAKE acts: the other bits are not the receiver's. -/
def State.receiverWrote (s : State) (i : Nat) (v : W32) : State :=
  if (fieldGet v 8 1 == 1 || fieldGet v 9 1 == 1 || !(fieldGet v 10 1 == 1)) = true then s.recordMbx 0x0F03 i else s

theorem State.writeMbxCtl_takes (hreach : s.mbxReach w (i / 2) = true) (hsend : isEnd w (i / 2) (s.sender i) = false)
    (hrecv : isEnd w (i / 2) (s.receiver i) = true) (htake : fieldGet v 10 1 = 1) : s.writeMbxCtl w i v =
      if s.on (mbxDb i) = true then (s.receiverWrote i v).take ((s.receiverWrote i v).whoStrike w) i else s.receiverWrote i v := by
  unfold State.writeMbxCtl State.receiverWrote
  dsimp only
  rw [hreach, hsend, hrecv, if_neg (by decide), if_neg (by decide), if_pos rfl]
  simp only [htake, beq_self_eq_true, Bool.true_and]

theorem State.receiverWrote_frame : s.MbxFrame i (s.receiverWrote i v) := by
  unfold State.receiverWrote State.recordMbx
  split
  · exact .record
  · exact .refl

theorem State.Inv.receiverWrote (h : s.Inv) : (s.receiverWrote i v).Inv := .ite h.recordMbx h

theorem State.receiverWrote_plain (hother : v.toNat / 256 % 4 = 0) (htake : fieldGet v 10 1 = 1) : s.receiverWrote i v = s := by
  have h8 : fieldGet v 8 1 = 0 := by simp only [fieldGet]; omega
  have h9 : fieldGet v 9 1 = 0 := by simp only [fieldGet]; omega
  rw [State.receiverWrote, h8, h9, htake, if_neg (by decide)]

theorem State.taken_engine (hsend : s.sender i = .engine n) : s.taken i = ((s.unring i).set (mbxAck i) 1).register n (bit64 (18 + i / 2)) := by
  unfold State.taken
  rw [hsend]
  rfl

theorem State.take_engine (hsend : s.sender i = .engine n) : s.take strike i = s.taken i := by
  unfold State.take
  rw [hsend]

theorem State.ack_spec (h : s.Inv) (hi : i < 32) : ((s.unring i).set (mbxAck i) 1).get (mbxDb i) = 0 ∧
    ((s.unring i).set (mbxAck i) 1).get (mbxAck i) = 1 ∧ ((s.unring i).set (mbxAck i) 1).dir i = { s.dir i with timing := none, wait := none } := by
  obtain ⟨hgone, hflag⟩ := State.unring_flag h (i := i) (f := mbxAck i) (by simp [mbxAck]) rfl (by simp [Fld.ok, mbxAck])
  exact ⟨hgone, hflag, State.unring_dir hi⟩

end

end Sys2Proof.Machine
end

section
namespace Sys2Proof.Machine

/-! ## CFG, xCTL and the timeout as commands -/

section

variable {s : State} {w : Who} {c : Fin 16} {i : Fin 32} {v : W32} {strike : Bool} {n : Nat}

theorem exec_mailboxCfgWrite_eq : exec (.mailboxCfgWrite w c v) s = .next (if !s.mbxReach w c then s.mbxDeny w (Reg.MBX_CFG c) true
    else if s.mayConfigure w c v then s.writeFields w (Reg.MBX_CFG c) v (fun _ => false) else s.record 0x0F03 c 0) := rfl

theorem exec_mailboxDoorbell_eq : exec (.mailboxDoorbell w i v) s = .next (s.writeMbxCtl w i (v ||| 0x100)) := rfl

theorem exec_mailboxTake_eq : exec (.mailboxTake w i v) s = .next (s.writeMbxCtl w i (v ||| 0x400)) := rfl

theorem exec_mailboxCancel_eq : exec (.mailboxCancel w i v) s = .next (s.writeMbxCtl w i (v ||| 0x200)) := rfl

theorem exec_mailboxCfgWrite_denied (hreach : s.mbxReach w c = false) : exec (.mailboxCfgWrite w c v) s =
    .next (s.mbxDeny w (Reg.MBX_CFG c) true) := by
  rw [exec_mailboxCfgWrite_eq, hreach, if_pos (by decide)]

theorem exec_mailboxCfgWrite_written (hreach : s.mbxReach w c = true) (hmay : s.mayConfigure w c v = true) :
    exec (.mailboxCfgWrite w c v) s = .next (s.writeFields w (Reg.MBX_CFG c) v (fun _ => false)) := by
  rw [exec_mailboxCfgWrite_eq, hreach, hmay, if_neg (by decide), if_pos rfl]

theorem exec_mailboxCfgWrite_recorded (hreach : s.mbxReach w c = true) (hmay : s.mayConfigure w c v = false) :
    exec (.mailboxCfgWrite w c v) s = .next (s.record 0x0F03 c 0) := by
  rw [exec_mailboxCfgWrite_eq, hreach, hmay, if_neg (by decide), if_neg (by decide)]

theorem exec_mailboxCtl_denied (hreach : s.mbxReach w (i / 2) = false) : exec (.mailboxDoorbell w i v) s = .next (s.mbxDeny w (mbxCtl i) true) ∧
    exec (.mailboxTake w i v) s = .next (s.mbxDeny w (mbxCtl i) true) ∧ exec (.mailboxCancel w i v) s = .next (s.mbxDeny w (mbxCtl i) true) := by
  rw [exec_mailboxDoorbell_eq, exec_mailboxTake_eq, exec_mailboxCancel_eq, State.writeMbxCtl_denied hreach, State.writeMbxCtl_denied hreach,
    State.writeMbxCtl_denied hreach]
  exact ⟨rfl, rfl, rfl⟩

theorem exec_mailboxCtl_stranger (hreach : s.mbxReach w (i / 2) = true) (hsend : isEnd w (i / 2) (s.sender i) = false)
    (hrecv : isEnd w (i / 2) (s.receiver i) = false) : exec (.mailboxDoorbell w i v) s = .next (s.recordMbx 0x0F03 i) ∧
      exec (.mailboxTake w i v) s = .next (s.recordMbx 0x0F03 i) ∧ exec (.mailboxCancel w i v) s = .next (s.recordMbx 0x0F03 i) := by
  rw [exec_mailboxDoorbell_eq, exec_mailboxTake_eq, exec_mailboxCancel_eq, State.writeMbxCtl_stranger hreach hsend hrecv,
    State.writeMbxCtl_stranger hreach hsend hrecv, State.writeMbxCtl_stranger hreach hsend hrecv]
  exact ⟨rfl, rfl, rfl⟩

theorem exec_mailboxCtl_sender (hreach : s.mbxReach w (i / 2) = true) (hsend : isEnd w (i / 2) (s.sender i) = true) (hdb : s.on (mbxDb i) = false) :
    let u := (s.set ⟨mbxCtl i, 0, 7⟩ (v.toNat % 128)).set ⟨mbxCtl i, 12, 20⟩ (v.toNat / 4096)
    (v.toNat / 1024 % 2 = 0 → exec (.mailboxDoorbell w i v) s = .next (u.doorbell (s.whoStrike w) i)) ∧
    (v.toNat / 256 % 8 = 0 → exec (.mailboxCancel w i v) s = .next u) := by
  intro u
  refine ⟨fun htake => ?_, fun hother => ?_⟩
  · rw [exec_mailboxDoorbell_eq, State.writeMbxCtl_rings hreach hsend hdb, State.senderWrote_or ⟨by decide, by decide, by decide⟩,
      State.senderWrote_plain htake]
  · have htake : fieldGet v 10 1 = 0 := by simp only [fieldGet]; omega
    have hoff : fieldGet (v ||| 0x200) 8 1 = 0 := by
      rw [fieldGet_or_clear (by decide)]
      simp only [fieldGet]
      omega
    rw [exec_mailboxCancel_eq, State.writeMbxCtl_cancels_nothing hreach hsend hdb hoff, State.senderWrote_or ⟨by decide, by decide, by decide⟩,
      State.senderWrote_plain htake]

theorem exec_mailboxDoorbell_engine (h : s.Inv) (n : Nat) (hreach : s.mbxReach w (i / 2) = true) (hsend : isEnd w (i / 2) (s.sender i) = true)
    (hdb : s.on (mbxDb i) = false) (hcfg : s.mbxConfigured (i / 2) = true) (hrecv : s.receiver i = .engine n) (hpos : 1 ≤ v.toNat % 128)
    (hmost : v.toNat % 128 ≤ 64) : ∃ u : State, exec (.mailboxDoorbell w i v) s = .next (u.register n (bit64 (18 + i.val / 2))) ∧
      u.get (mbxDb i) = 1 ∧ u.get (mbxAck i) = 0 ∧ u.get (mbxTimeout i) = 0 ∧ u.get (mbxCancelled i) = 0 ∧ u.get (mbxRefused i) = 0 ∧
      u.dir i = { len := v.toNat % 128, timing := some (s.now + 1000 * max 1 (min 1000000 (v.toNat / 4096))), wait := none } := by
  have hframe : s.MbxFrame i (s.senderWrote i v) := State.senderWrote_frame
  have hinv : (s.senderWrote i v).Inv := h.senderWrote
  obtain ⟨hlen, htmo⟩ := State.senderWrote_ctl h (i := i) (v := v)
  have hdb' : (s.senderWrote i v).on (mbxDb i) = false := State.senderWrote_db.trans hdb
  have huntil : (s.senderWrote i v).mbxUntil i = s.now + 1000 * max 1 (min 1000000 (v.toNat / 4096)) := by
    rw [State.mbxUntil, htmo, hframe.now]
  have hrings : exec (.mailboxDoorbell w i v) s = .next ((s.senderWrote i v).doorbell (s.whoStrike w) i) := by
    rw [exec_mailboxDoorbell_eq, State.writeMbxCtl_rings hreach hsend hdb, State.senderWrote_or ⟨by decide, by decide, by decide⟩]
  obtain ⟨hdb1, hack, htimeout, hcancelled, hrefused⟩ :=
    State.ring1_gets hinv (i := i) (m := v.toNat % 128) (timing := some ((s.senderWrote i v).mbxUntil i))
  refine ⟨_, ?_, hdb1, hack, htimeout, hcancelled, hrefused, (State.ring1_dir i.isLt).trans (by rw [huntil])⟩
  rw [hrings, State.doorbell_engine (hframe.configured.trans hcfg) hdb' (hframe.receiver.trans hrecv) (by rw [hlen]; exact hpos)
    (by rw [hlen]; exact hmost), hlen]

theorem exec_mailboxTake_engine (h : s.Inv) (n : Nat) (hreach : s.mbxReach w (i / 2) = true) (hsend : isEnd w (i / 2) (s.sender i) = false)
    (hrecv : isEnd w (i / 2) (s.receiver i) = true) (hdb : s.on (mbxDb i) = true) (hend : s.sender i = .engine n) : ∃ u : State,
      exec (.mailboxTake w i v) s = .next (u.register n (bit64 (18 + i.val / 2))) ∧ u.get (mbxDb i) = 0 ∧ u.get (mbxAck i) = 1 ∧
      u.dir i = { s.dir i with timing := none, wait := none } := by
  have hframe : s.MbxFrame i (s.receiverWrote i (v ||| 0x400)) := State.receiverWrote_frame
  have hsender : (s.receiverWrote i (v ||| 0x400)).sender i = .engine n := hframe.sender.trans hend
  obtain ⟨hgone, hflag, hdir⟩ := State.ack_spec (i := i) (h.receiverWrote (v := v ||| 0x400)) i.isLt
  refine ⟨_, ?_, hgone, hflag, hdir.trans (by rw [hframe.dir])⟩
  rw [exec_mailboxTake_eq, State.writeMbxCtl_takes hreach hsend hrecv (fieldGet_or_set (by decide)), if_pos hdb, State.take_engine hsender,
    State.taken_engine hsender]

theorem exec_mailboxTake_plain (hreach : s.mbxReach w (i / 2) = true) (hsend : isEnd w (i / 2) (s.sender i) = false)
    (hrecv : isEnd w (i / 2) (s.receiver i) = true) (hother : v.toNat / 256 % 4 = 0) :
    (s.on (mbxDb i) = true → exec (.mailboxTake w i v) s = .next (s.take (s.whoStrike w) i)) ∧
    (s.on (mbxDb i) = false → exec (.mailboxTake w i v) s = .next s) := by
  have htake : fieldGet (v ||| 0x400) 10 1 = 1 := fieldGet_or_set (by decide)
  have h8 : fieldGet (v ||| 0x400) 8 2 = 0 := by
    rw [fieldGet_or_clear (by decide)]
    exact hother
  rw [exec_mailboxTake_eq, State.writeMbxCtl_takes hreach hsend hrecv htake, State.receiverWrote_plain h8 htake]
  exact ⟨fun hdb => by rw [if_pos hdb], fun hdb => by rw [if_neg (by rw [hdb]; decide)]⟩

theorem exec_mailboxCancel_pending (h : s.Inv) (hreach : s.mbxReach w (i / 2) = true) (hsend : isEnd w (i / 2) (s.sender i) = true)
    (hdb : s.on (mbxDb i) = true) (hrecv : s.receiver i ≠ .remote) : ∃ t, exec (.mailboxCancel w i v) s = .next t ∧ t.get (mbxDb i) = 0 ∧
      t.get (mbxCancelled i) = 1 ∧ t.dir i = { s.dir i with timing := none, wait := none } :=
  ⟨_, exec_mailboxCancel_eq, State.writeMbxCtl_cancels h i.isLt hreach hsend hdb hrecv (fieldGet_or_set (by decide))⟩

theorem exec_mbxTimeout_eq : exec (.mbxTimeout i) s = if (s.on (mbxDb i) && (s.dir i).timing.any (fun t => decide (t ≤ s.now))) = true then
    .next ((((s.set (mbxTimeout i) 1).modDir i (fun d => { d with timing := none })).notify (i / 2) (s.sender i)).recordMbx 0x0F01 i)
    else .next s := rfl

theorem exec_mbxTimeout_expired {at1 : Nat} (hdb : s.on (mbxDb i) = true) (htime : (s.dir i).timing = some at1) (hdue : at1 ≤ s.now) :
    exec (.mbxTimeout i) s =
      .next ((((s.set (mbxTimeout i) 1).modDir i (fun d => { d with timing := none })).notify (i / 2) (s.sender i)).recordMbx 0x0F01 i) := by
  rw [exec_mbxTimeout_eq, hdb, htime, Option.any_some, decide_eq_true hdue, if_pos (by decide)]

theorem exec_mbxTimeout_none (hno : s.on (mbxDb i) = false ∨ (s.dir i).timing = none) : exec (.mbxTimeout i) s = .next s := by
  rw [exec_mbxTimeout_eq]
  obtain hdb | htime := hno
  · rw [hdb, Bool.false_and, if_neg (by decide)]
  · rw [htime, Option.any_none, Bool.and_false, if_neg (by decide)]

theorem exec_mbxTimeout_early {at1 : Nat} (htime : (s.dir i).timing = some at1) (hearly : s.now < at1) : exec (.mbxTimeout i) s = .next s := by
  rw [exec_mbxTimeout_eq, htime, Option.any_some, decide_eq_false (by omega), Bool.and_false, if_neg (by decide)]

end

/-! ## Cells of the other device -/

section

variable {s : State} {src : Fin 32} {tag : BitVec 8} {b : List Byte} {st : Fin 5} {rs : Fin 4} {c kind : Nat}

/-- A message from the remote end of channel `k`, of `n` bytes (R685). -/
def State.msgTaken (s : State) (src tag k n : Nat) (b : List Byte) : State :=
  let u := (s.putMessage (2 * k + 1) ((b.drop 8).take n)).set ⟨mbxCtl (2 * k + 1), 0, 7⟩ n
  ((u.ring1 (2 * k + 1) n none).notify k (u.receiver (2 * k + 1))).sendMbxa src tag k 0

theorem exec_msg_eq : exec (.msg src tag b) s = if b.length ≠ 64 then .fault .illFormed
    else if (s.namesRemote (byteAt b 1) src (byteAt b 2) && s.mbxConfigured (byteAt b 1) && !s.on (mbxDb (2 * byteAt b 1 + 1))) = true then
      .next (s.msgTaken src tag.toNat (byteAt b 1) (byteAt b 3 % 128) b)
    else .next (s.sendMbxa src tag.toNat (byteAt b 1) 1) := rfl

theorem exec_taken_eq : exec (.taken src tag b) s = if b.length ≠ 64 then .fault .illFormed
    else if (s.namesRemote (byteAt b 1) src (byteAt b 2) && s.on (mbxDb (2 * byteAt b 1))) = true then
      .next ((s.taken (2 * byteAt b 1)).sendMbxa src tag.toNat (byteAt b 1) 4)
    else .next (s.sendMbxa src tag.toNat (byteAt b 1) 2) := rfl

theorem exec_cancel_eq : exec (.cancel src tag b) s = if b.length ≠ 64 then .fault .illFormed
    else if (s.namesRemote (byteAt b 1) src (byteAt b 2) && s.on (mbxDb (2 * byteAt b 1 + 1))) = true then
      .next ((s.unring (2 * byteAt b 1 + 1)).sendMbxa src tag.toNat (byteAt b 1) 3)
    else .next (s.sendMbxa src tag.toNat (byteAt b 1) 2) := rfl

theorem exec_msg_taken (hlen : b.length = 64) (hnames : s.namesRemote (byteAt b 1) src (byteAt b 2) = true)
    (hcfg : s.mbxConfigured (byteAt b 1) = true) (hdb : s.on (mbxDb (2 * byteAt b 1 + 1)) = false) :
    exec (.msg src tag b) s = .next (s.msgTaken src tag.toNat (byteAt b 1) (byteAt b 3 % 128) b) := by
  rw [exec_msg_eq, if_neg (not_not.mpr hlen), hnames, hcfg, hdb, if_pos (by decide)]

theorem exec_msg_refused (hlen : b.length = 64) (hno : ¬s.namesRemote (byteAt b 1) src (byteAt b 2) = true ∨ s.mbxConfigured (byteAt b 1) = false ∨
    s.on (mbxDb (2 * byteAt b 1 + 1)) = true) : exec (.msg src tag b) s = .next (s.sendMbxa src tag.toNat (byteAt b 1) 1) := by
  rw [exec_msg_eq, if_neg (not_not.mpr hlen), if_neg]
  rw [Bool.and_eq_true, Bool.and_eq_true, Bool.not_eq_true']
  rintro ⟨⟨hnames, hcfg⟩, hdb⟩
  obtain hn | hn | hn := hno
  · exact hn hnames
  · exact Bool.false_ne_true (hn.symm.trans hcfg)
  · exact Bool.false_ne_true (hdb.symm.trans hn)

theorem exec_taken_acts (hlen : b.length = 64) (hnames : s.namesRemote (byteAt b 1) src (byteAt b 2) = true)
    (hdb : s.on (mbxDb (2 * byteAt b 1)) = true) :
    exec (.taken src tag b) s = .next ((s.taken (2 * byteAt b 1)).sendMbxa src tag.toNat (byteAt b 1) 4) := by
  rw [exec_taken_eq, if_neg (not_not.mpr hlen), hnames, hdb, if_pos (by decide)]

theorem names_and_db_false {x y : Bool} (hno : ¬x = true ∨ y = false) : ¬(x && y) = true := by
  rw [Bool.and_eq_true]
  rintro ⟨hx, hy⟩
  obtain hn | hn := hno
  · exact hn hx
  · exact Bool.false_ne_true (hn.symm.trans hy)

theorem exec_taken_idle (hlen : b.length = 64) (hno : ¬s.namesRemote (byteAt b 1) src (byteAt b 2) = true ∨ s.on (mbxDb (2 * byteAt b 1)) = false) :
    exec (.taken src tag b) s = .next (s.sendMbxa src tag.toNat (byteAt b 1) 2) := by
  rw [exec_taken_eq, if_neg (not_not.mpr hlen), if_neg (names_and_db_false hno)]

theorem exec_cancel_acts (hlen : b.length = 64) (hnames : s.namesRemote (byteAt b 1) src (byteAt b 2) = true)
    (hdb : s.on (mbxDb (2 * byteAt b 1 + 1)) = true) :
    exec (.cancel src tag b) s = .next ((s.unring (2 * byteAt b 1 + 1)).sendMbxa src tag.toNat (byteAt b 1) 3) := by
  rw [exec_cancel_eq, if_neg (not_not.mpr hlen), hnames, hdb, if_pos (by decide)]

theorem exec_cancel_idle (hlen : b.length = 64)
    (hno : ¬s.namesRemote (byteAt b 1) src (byteAt b 2) = true ∨ s.on (mbxDb (2 * byteAt b 1 + 1)) = false) :
    exec (.cancel src tag b) s = .next (s.sendMbxa src tag.toNat (byteAt b 1) 2) := by
  rw [exec_cancel_eq, if_neg (not_not.mpr hlen), if_neg (names_and_db_false hno)]

theorem exec_mbxCell_illFormed (hlen : b.length ≠ 64) : exec (.msg src tag b) s = .fault .illFormed ∧
    exec (.taken src tag b) s = .fault .illFormed ∧ exec (.cancel src tag b) s = .fault .illFormed := by
  rw [exec_msg_eq, exec_taken_eq, exec_cancel_eq, if_pos hlen, if_pos hlen, if_pos hlen]
  exact ⟨rfl, rfl, rfl⟩

/-! ## MBXA and its timeout -/

theorem exec_mbxa_unknown (hnone : s.mbxTag tag.toNat = none) : exec (.mbxa tag st rs) s = .next s ∧ exec (.mbxRemoteTimeout tag) s = .next s := by
  refine ⟨?_, ?_⟩
  · show execMbxa tag st rs s = _
    unfold execMbxa
    rw [hnone]
  · show execMbxRemoteTimeout tag s = _
    unfold execMbxRemoteTimeout
    rw [hnone]

theorem exec_mbxa_known (hknown : s.mbxTag tag.toNat = some (c, kind)) : exec (.mbxa tag st rs) s =
    .next (((s.set (mbxRstate (2 * c)) rs).mbxAnswer c kind st).dropTag tag.toNat) := by
  show execMbxa tag st rs s = _
  unfold execMbxa
  rw [hknown]

theorem exec_mbxRemoteTimeout_known (hknown : s.mbxTag tag.toNat = some (c, kind)) : exec (.mbxRemoteTimeout tag) s =
    .next ((if kind ≠ 1 ∧ s.on (mbxDb (2 * c)) = true then s.remoteRefused c else s).dropTag tag.toNat) := by
  show execMbxRemoteTimeout tag s = _
  unfold execMbxRemoteTimeout
  rw [hknown]

/-- What MBXA says of a message that is pending and that its request concerns (R685 to R688). -/
theorem State.mbxAnswer_pending {n : Nat} (hkind : kind ≠ 1) (hdb : s.on (mbxDb (2 * c)) = true) : s.mbxAnswer c kind n = match n with
    | 0 => if (s.dir (2 * c)).wait = some 0 then s.modDir (2 * c) (fun d => { d with wait := none }) else s
    | 1 => s.remoteRefused c
    | 2 => if kind = 2 then s.taken (2 * c) else s
    | 3 => (s.unring (2 * c)).set (mbxCancelled (2 * c)) 1
    | _ => s := if_neg (by rw [hdb]; simpa using hkind)

theorem State.mbxAnswer_idle {n : Nat} (hno : kind = 1 ∨ s.on (mbxDb (2 * c)) = false ∨ n = 4 ∨ (n = 2 ∧ kind ≠ 2)) : s.mbxAnswer c kind n = s := by
  by_cases hend : kind = 1 ∨ !s.on (mbxDb (2 * c))
  · exact if_pos hend
  · have hkind : kind ≠ 1 := fun h => hend (.inl h)
    have hdb : s.on (mbxDb (2 * c)) = true := by simpa using fun h => hend (.inr h)
    rw [State.mbxAnswer_pending hkind hdb]
    obtain h | h | rfl | ⟨rfl, h⟩ := hno
    · exact absurd h hkind
    · exact absurd (h.symm.trans hdb) (by decide)
    · rfl
    · exact if_neg h

theorem State.rstate_set (h : s.Inv) (i n : Nat) (hn : n < 4) : (s.set (mbxRstate i) n).get (mbxRstate i) = n ∧
    (s.set (mbxRstate i) n).on (mbxDb i) = s.on (mbxDb i) := by
  refine ⟨h.get_set_self _ _ (by simp [Fld.ok, mbxRstate]) hn, ?_⟩
  rw [State.on, State.on, h.get_set_of_apart _ _ _ (by simp [Fld.ok, mbxRstate]) (by simp [Fld.apart, mbxRstate, mbxDb])]

theorem exec_mbxa_acts (h : s.Inv) (hknown : s.mbxTag tag.toNat = some (c, kind)) (hkind : kind ≠ 1) (hdb : s.on (mbxDb (2 * c)) = true) :
    let v := s.set (mbxRstate (2 * c)) rs
    (st = 0 → exec (.mbxa tag st rs) s =
    .next ((if (s.dir (2 * c)).wait = some 0 then v.modDir (2 * c) (fun x => { x with wait := none }) else v).dropTag
      tag.toNat)) ∧
    (st = 1 → exec (.mbxa tag st rs) s = .next ((v.remoteRefused c).dropTag tag.toNat)) ∧
    (st = 2 → kind = 2 → exec (.mbxa tag st rs) s = .next ((v.taken (2 * c)).dropTag tag.toNat)) ∧
    (st = 3 → exec (.mbxa tag st rs) s = .next (((v.unring (2 * c)).set (mbxCancelled (2 * c)) 1).dropTag tag.toNat)) ∧
    exec (.mbxRemoteTimeout tag) s = .next ((s.remoteRefused c).dropTag tag.toNat) := by
  intro v
  obtain ⟨-, hkeep⟩ := State.rstate_set h (2 * c) rs.val rs.isLt
  have hanswer := fun n => State.mbxAnswer_pending (s := v) (n := n) hkind (hkeep.trans hdb)
  rw [exec_mbxa_known hknown]
  refine ⟨?_, ?_, ?_, ?_, ?_⟩
  · rintro rfl
    exact congrArg (fun t : State => Host.Outcome.next (t.dropTag tag.toNat)) (hanswer 0)
  · rintro rfl
    exact congrArg (fun t : State => Host.Outcome.next (t.dropTag tag.toNat)) (hanswer 1)
  · rintro rfl hcancel
    exact congrArg (fun t : State => Host.Outcome.next (t.dropTag tag.toNat)) ((hanswer 2).trans (if_pos hcancel))
  · rintro rfl
    exact congrArg (fun t : State => Host.Outcome.next (t.dropTag tag.toNat)) (hanswer 3)
  · rw [exec_mbxRemoteTimeout_known hknown, if_pos ⟨hkind, hdb⟩]

theorem exec_mbxa_idle (h : s.Inv) (hknown : s.mbxTag tag.toNat = some (c, kind))
    (hno : kind = 1 ∨ s.on (mbxDb (2 * c)) = false ∨ st = 4 ∨ (st = 2 ∧ kind ≠ 2)) :
    exec (.mbxa tag st rs) s = .next ((s.set (mbxRstate (2 * c)) rs).dropTag tag.toNat) := by
  obtain ⟨-, hkeep⟩ := State.rstate_set h (2 * c) rs.val rs.isLt
  rw [exec_mbxa_known hknown, State.mbxAnswer_idle]
  rw [hkeep]
  obtain hk | hdb | rfl | ⟨rfl, hk⟩ := hno
  · exact .inl hk
  · exact .inr (.inl hdb)
  · exact .inr (.inr (.inl rfl))
  · exact .inr (.inr (.inr ⟨rfl, hk⟩))

theorem exec_mbxRemoteTimeout_idle (hknown : s.mbxTag tag.toNat = some (c, kind)) (hno : kind = 1 ∨ s.on (mbxDb (2 * c)) = false) :
    exec (.mbxRemoteTimeout tag) s = .next (s.dropTag tag.toNat) := by
  rw [exec_mbxRemoteTimeout_known hknown, if_neg]
  rintro ⟨hkind, hdb⟩
  obtain hk | hoff := hno
  · exact hkind hk
  · exact Bool.false_ne_true (hoff.symm.trans hdb)

theorem State.remoteRefused_spec (h : s.Inv) (c : Nat) : (s.remoteRefused c).get (mbxDb (2 * c)) = 0 ∧
    (s.remoteRefused c).get (mbxRefused (2 * c)) = 1 ∧
    ((s.remoteRefused c).ledger.head?.map (fun x => x.code)) = some 0x0F02 := by
  obtain ⟨hgone, hflag⟩ := State.unring_flag h (i := 2 * c) (f := mbxRefused (2 * c)) (by simp [mbxRefused]) rfl (by simp [Fld.ok, mbxRefused])
  rw [State.remoteRefused, State.recordMbx]
  refine ⟨?_, ?_, State.record_head_code ..⟩
  · rw [State.get_record_of_ne _ _ _ _ _ (mbxStat_ne_ledger _), hgone]
  · rw [State.get_record_of_ne _ _ _ _ _ (mbxStat_ne_ledger _), hflag]

theorem State.taken_first (h : s.Inv) (hc : c < 8) {n : Nat} (hsend : s.sender (2 * c) = .engine n) : ∃ y : State,
    s.taken (2 * c) = y.register n (bit64 (18 + c)) ∧ y.get (mbxDb (2 * c)) = 0 ∧ y.get (mbxAck (2 * c)) = 1 := by
  obtain ⟨hgone, hflag, -⟩ := State.ack_spec h (i := 2 * c) (by omega)
  refine ⟨_, ?_, hgone, hflag⟩
  rw [State.taken_engine hsend, Nat.mul_div_cancel_left c (by decide)]

end

end Sys2Proof.Machine

open Sys2Proof Sys2Proof.Machine

/-- Settles O58: each command and each cell branch by branch, over what a doorbell, a TAKE and a CANCEL do to their direction. -/
theorem mailboxMessages : Obligations.MailboxMessages := by
  refine ⟨fun w c i v strike s h => ?_, fun src tag b s _ => ?_, fun tag st rs s h => ?_⟩
  · exact ⟨exec_mailboxCfgWrite_denied, exec_mailboxCfgWrite_written, exec_mailboxCfgWrite_recorded, exec_mailboxCtl_denied,
      exec_mailboxCtl_stranger, exec_mailboxCtl_sender, exec_mailboxDoorbell_engine h, State.doorbell_refused,
      State.doorbell_remote h i.isLt, exec_mailboxTake_engine h, exec_mailboxTake_plain, exec_mailboxCancel_pending h,
      fun _ => State.cancelMsg_remote i.isLt, ⟨State.unring_db h, State.unring_dir i.isLt, State.unring_tags⟩, fun _ => exec_mbxTimeout_expired,
      exec_mbxTimeout_none, fun _ => exec_mbxTimeout_early⟩
  · exact ⟨fun hlen => ⟨exec_msg_taken hlen, exec_msg_refused hlen, exec_taken_acts hlen, exec_taken_idle hlen, exec_cancel_acts hlen,
      exec_cancel_idle hlen⟩, exec_mbxCell_illFormed⟩
  · refine ⟨exec_mbxa_unknown, fun c kind hknown _ => ?_, fun c hc => ?_⟩
    · obtain ⟨hrstate, -⟩ := State.rstate_set h (2 * c) rs.val rs.isLt
      exact ⟨hrstate, exec_mbxa_idle h hknown, exec_mbxa_acts h hknown, exec_mbxRemoteTimeout_idle hknown⟩
    · obtain ⟨hgone, hflag, hcode⟩ := State.remoteRefused_spec h c
      exact ⟨hgone, hflag, hcode, fun n => State.taken_first h hc⟩
end

section
/-!
SUPPORT. The Warden, the anti-rollback counters, the keys and debug unlock (R690 to R698), and the statement.
-/

namespace Sys2Proof.Machine

/-! ## PF1 alone (R19) -/

section

variable {s : State} {w : Who} {r : Fin 16} {i : BitVec 6} {confirm : BitVec 8} {scope : BitVec 2} {v : W32}

theorem State.pf1Only_denied {key : Nat} {f : State → State} (hw : w ≠ .pf1) : s.pf1Only w key f = s.mbxDeny w key true := by
  rw [State.pf1Only, beq_eq_false_iff_ne.mpr hw, if_neg (by decide)]

theorem exec_pf1_denied (hw : w ≠ .pf1) : exec (.patchCheck w v) s = .next (s.mbxDeny w Reg.WDN_PATCH_LEN true) ∧
    exec (.secureDescriptorWrite w r v) s = .next (s.mbxDeny w (Reg.WDN_SEC_HI r) true) ∧
    exec (.burnRoot w confirm) s = .next (s.mbxDeny w Reg.KEY_CTL true) ∧ exec (.burnSeal w confirm) s = .next (s.mbxDeny w Reg.KEY_CTL true) ∧
    exec (.raise w i confirm) s = .next (s.mbxDeny w Reg.KEY_CTL true) ∧ exec (.debugRequest w scope) s = .next (s.mbxDeny w Reg.DBGU_CTL true) ∧
    exec (.debugLock w scope) s = .next (s.mbxDeny w Reg.DBGU_CTL true) ∧
    exec (.debugResponseCheck w v) s = .next (s.mbxDeny w Reg.DBGU_RADDR true) := by
  have hdeny : ∀ key f, (Host.Outcome.next (s.pf1Only w key f) : Host.Outcome State Fault Refusal) = .next (s.mbxDeny w key true) :=
    fun _ _ => congrArg Host.Outcome.next (State.pf1Only_denied hw)
  exact ⟨hdeny _ _, hdeny _ _, hdeny _ _, hdeny _ _, hdeny _ _, hdeny _ _, hdeny _ _, hdeny _ _⟩

theorem exec_patchCheck_pf1 : exec (.patchCheck .pf1 v) s = .next (s.writePatchLen .pf1 v) := rfl

theorem exec_secureDescriptorWrite_pf1 : exec (.secureDescriptorWrite .pf1 r v) s = .next (s.writeSecHi r v) := rfl

theorem exec_burnRoot_pf1 : exec (.burnRoot .pf1 confirm) s = .next (s.writeKeyCtl (BitVec.ofNat 32 (1 + confirm.toNat * 256))) := rfl

theorem exec_burnSeal_pf1 : exec (.burnSeal .pf1 confirm) s = .next (s.writeKeyCtl (BitVec.ofNat 32 (2 + confirm.toNat * 256))) := rfl

theorem exec_raise_pf1 : exec (.raise .pf1 i confirm) s = .next (s.writeKeyCtl (BitVec.ofNat 32 (3 + i.toNat * 4 + confirm.toNat * 256))) := rfl

theorem exec_debugRequest_pf1 : exec (.debugRequest .pf1 scope) s = .next (s.writeDbguCtl (BitVec.ofNat 32 (1 + scope.toNat * 4))) := rfl

theorem exec_debugLock_pf1 : exec (.debugLock .pf1 scope) s = .next (s.writeDbguCtl (BitVec.ofNat 32 (2 + scope.toNat * 4))) := rfl

theorem exec_debugResponseCheck_pf1 : exec (.debugResponseCheck .pf1 v) s = .next (s.writeRaddr v) := rfl

end

/-! ## Patch checks (R690) -/

section

variable {s : State} {ended : Unit} {a n : Nat} {q : List (Nat × Nat)} {b : List Byte} {u : State}

/-- A patch check fails. -/
def State.patchFailed (s : State) : State := (s.set Reg.WDN_STAT_PFAIL 1).record 0x0F04 0xFF 0

theorem State.patchFailed_spec (h : s.Inv) : s.patchFailed.get Reg.WDN_STAT_PFAIL = 1 ∧
    (s.patchFailed.ledger.head?.map (fun x => x.code)) = some 0x0F04 ∧ s.patchFailed.sec = s.sec := by
  refine ⟨?_, State.record_head_code .., rfl⟩
  rw [State.patchFailed, State.get_record_of_ne _ _ _ _ _ (by decide)]
  exact h.get_set_self _ _ (by decide) (by decide)

theorem exec_patchCheckDone_none (hnone : s.sec.patch = []) : exec (.patchCheckDone ended) s = .next s := by
  show execPatchCheckDone ended s = _
  unfold execPatchCheckDone
  rw [hnone]

theorem exec_patchCheckDone_unstaged (h : s.Inv) (hp : s.sec.patch = (a, n) :: q) (hno : s.staged a n = false ∨ n = 0 ∨ 65536 < n) :
    ∃ u : State, exec (.patchCheckDone ended) s = .next u.wardenGo ∧ u.get Reg.WDN_STAT_PFAIL = 1 ∧
      (u.ledger.head?.map (fun x => x.code)) = some 0x0F04 ∧ u.sec.patch = q := by
  have hmod : (s.modSec (fun x => { x with patch := q })).Inv := h.modSec
  obtain ⟨hfail, hcode, hsec⟩ := State.patchFailed_spec hmod
  refine ⟨_, ?_, hfail, hcode, by rw [hsec]; rfl⟩
  have hstaged : (s.modSec (fun x => { x with patch := q })).staged a n = s.staged a n := rfl
  show execPatchCheckDone ended s = _
  unfold execPatchCheckDone
  rw [hp]
  dsimp only
  rw [hstaged, if_pos (by simpa using or_assoc.mpr hno)]
  rfl

theorem execPatchCheckDone_read (hp : s.sec.patch = (a, n) :: q) (hstaged : s.staged a n = true) (hpos : 0 < n) (hmost : n ≤ 65536)
    (hread : (s.modSec (fun x => { x with patch := q })).wardenRead a n = (some b, u)) : exec (.patchCheckDone ended) s =
      if (patchOk b && decide (u.sec.floor.toNat ≤ leAt b 4 4)) = true then
        .next ((u.modSec (fun x => { x with floor := BitVec.ofNat 32 (leAt b 4 4) })).set Reg.WDN_STAT_PATCH 1).wardenGo
      else .next u.patchFailed.wardenGo := by
  have hkeep : (s.modSec (fun x => { x with patch := q })).staged a n = s.staged a n := rfl
  have hcond : ¬((!s.staged a n || decide (n = 0) || decide (65536 < n)) = true) := by
    rw [hstaged, decide_eq_false (by omega), decide_eq_false (by omega)]
    decide
  show execPatchCheckDone ended s = _
  unfold execPatchCheckDone
  rw [hp]
  dsimp only
  rw [hkeep, hread]
  exact if_neg hcond

theorem exec_patchCheckDone_read (h : s.Inv) (hp : s.sec.patch = (a, n) :: q) (hstaged : s.staged a n = true) (hpos : 0 < n) (hmost : n ≤ 65536)
    (hread : (s.modSec (fun x => { x with patch := q })).wardenRead a n = (some b, u)) :
    ∃ t : State, exec (.patchCheckDone ended) s = .next t.wardenGo ∧
      if patchOk b = true ∧ u.sec.floor.toNat ≤ leAt b 4 4 then t.get Reg.WDN_STAT_PATCH = 1 ∧
        t.sec = { u.sec with floor := BitVec.ofNat 32 (leAt b 4 4) } ∧ t = { u with regs := t.regs, sec := t.sec }
      else t.get Reg.WDN_STAT_PFAIL = 1 ∧ (t.ledger.head?.map (fun x => x.code)) = some 0x0F04 ∧ t.sec = u.sec := by
  have hmod : (s.modSec (fun x => { x with patch := q })).Inv := h.modSec
  have hu : u.Inv := by
    have hinv : ((s.modSec (fun x => { x with patch := q })).wardenRead a n).2.Inv := hmod.wardenRead
    rwa [hread] at hinv
  have hcond : (patchOk b && decide (u.sec.floor.toNat ≤ leAt b 4 4)) = true ↔ patchOk b = true ∧ u.sec.floor.toNat ≤ leAt b 4 4 := by
    rw [Bool.and_eq_true, decide_eq_true_eq]
  rw [execPatchCheckDone_read hp hstaged hpos hmost hread]
  by_cases hgood : patchOk b = true ∧ u.sec.floor.toNat ≤ leAt b 4 4
  · have hf : (u.modSec (fun x => { x with floor := BitVec.ofNat 32 (leAt b 4 4) })).Inv := hu.modSec
    refine ⟨_, if_pos (hcond.mpr hgood), ?_⟩
    rw [if_pos hgood]
    exact ⟨hf.get_set_self _ _ (by decide) (by decide), rfl, rfl⟩
  · refine ⟨_, if_neg fun hc => hgood (hcond.mp hc), ?_⟩
    rw [if_neg hgood]
    exact State.patchFailed_spec hu

end

/-! ## Messages to the Warden (R692) -/

section

variable {s : State} {c cmd : Nat} {b : List Byte} {q : List (Nat × List Byte)}

theorem State.wardenCommand_none {f : State → List Byte → List Byte × State} (hnone : s.sec.queue = []) : s.wardenCommand cmd f = s := by
  unfold State.wardenCommand
  rw [hnone]

theorem State.wardenCommand_served {f : State → List Byte → List Byte × State} (hq : s.sec.queue = (c, b) :: q) (hpatch : s.sec.patch = [])
    (hcheck : s.sec.check = none) (hcmd : byteAt b 0 = cmd) : s.wardenCommand cmd f = ((f s b).2.wardenServe c (f s b).1).wardenGo := by
  have hfree : s.wardenFree = true := by
    rw [State.wardenFree, hpatch, hcheck]
    rfl
  unfold State.wardenCommand
  rw [hq]
  dsimp only
  rw [hfree, hcmd, beq_self_eq_true, if_pos (by decide)]

theorem exec_wardenCommands_none (hnone : s.sec.queue = []) : exec .arbRead s = .next s ∧ exec .arbRaise s = .next s ∧ exec .uidRead s = .next s :=
  ⟨congrArg Host.Outcome.next (State.wardenCommand_none hnone), congrArg Host.Outcome.next (State.wardenCommand_none hnone),
    congrArg Host.Outcome.next (State.wardenCommand_none hnone)⟩

theorem exec_arbRead_served (hq : s.sec.queue = (c, b) :: q) (hpatch : s.sec.patch = []) (hcheck : s.sec.check = none) (hcmd : byteAt b 0 = 1)
    (hlen : 2 ≤ b.length) (hctr : byteAt b 1 < 64) :
    exec .arbRead s = .next (s.wardenServe c (answerHead 1 0 ++ wordBytes (s.word (Reg.KEY_ARB (byteAt b 1))))).wardenGo := by
  show execArbRead s = _
  unfold execArbRead
  rw [State.wardenCommand_served hq hpatch hcheck hcmd, if_neg (show ¬(b.length < 2 ∨ 64 ≤ byteAt b 1) from by omega)]

theorem exec_arbRaise_served (hq : s.sec.queue = (c, b) :: q) (hpatch : s.sec.patch = []) (hcheck : s.sec.check = none) (hcmd : byteAt b 0 = 2)
    (hlen : 8 ≤ b.length) (hctr : byteAt b 1 < 64) : exec .arbRaise s = .next ((s.raiseArb (byteAt b 1) (leAt b 4 4)).2.wardenServe c
      (answerHead 2 (if (s.raiseArb (byteAt b 1) (leAt b 4 4)).1 = true then 0 else 2) ++
        wordBytes ((s.raiseArb (byteAt b 1) (leAt b 4 4)).2.word (Reg.KEY_ARB (byteAt b 1))))).wardenGo := by
  show execArbRaise s = _
  unfold execArbRaise
  rw [State.wardenCommand_served hq hpatch hcheck hcmd, if_neg (show ¬(b.length < 8 ∨ 64 ≤ byteAt b 1) from by omega)]

theorem exec_uidRead_served (hq : s.sec.queue = (c, b) :: q) (hpatch : s.sec.patch = []) (hcheck : s.sec.check = none) (hcmd : byteAt b 0 = 3) :
    exec .uidRead s = .next (s.wardenServe c (answerHead 3 0 ++ wordBytes (s.word Reg.DEV_UID_LO) ++
      wordBytes (s.word Reg.DEV_UID_HI))).wardenGo := by
  show execUidRead s = _
  unfold execUidRead
  rw [State.wardenCommand_served hq hpatch hcheck hcmd]

end

/-! ## Signatures (R690, R695, R698) -/

section

variable {s : State} {key : List Byte → Bool} {b m : List Byte}

theorem signedBy_iff : signedBy key b m = true ↔ (200 ≤ b.length ∧ (b.drop (b.length - 200)).head? = some 0x04 ∧
    ((b.drop (b.length - 200)).drop 97).take 7 = List.replicate 7 0) ∧ key ((b.drop (b.length - 200)).take 97) = true ∧
    ecdsaOk ((b.drop (b.length - 200)).take 97) ((b.drop (b.length - 200)).drop 104) m = true := by
  unfold signedBy
  simp only [Bool.and_eq_true, decide_eq_true_eq, beq_iff_eq, and_assoc]

theorem State.rootOk_iff {k : List Byte} : s.rootOk k = true ↔
    s.on Reg.KEY_STAT_ROOTSET = true ∧ s.on Reg.KEY_STAT_ROOTBAD = false ∧ sha384 k = s.rootHash := by
  unfold State.rootOk
  simp only [Bool.and_eq_true, beq_iff_eq, and_assoc, Bool.not_eq_true']

end

end Sys2Proof.Machine
end

section
namespace Sys2Proof.Machine

/-! ## Anti-rollback counters (R696) -/

section

variable {s : State} {n x : Nat}

theorem State.raiseArb_get (h : s.Inv) (n x : Nat) :
    (s.raiseArb n x).2.get (Reg.KEY_ARB_VAL n) = if (s.raiseArb n x).1 = true then x % 2 ^ 32 else s.get (Reg.KEY_ARB_VAL n) := by
  unfold State.raiseArb
  dsimp only
  split
  · rfl
  · split
    · rw [if_neg Bool.false_ne_true]
      exact State.get_set_of_ne _ _ _ _ (by simp only [Reg.KEY_ARB_VAL, Reg.KEY_STAT_ARBFULL]; omega)
    · rw [if_pos rfl]
      exact State.get_set_self _ _ _ h.regsWf (by simp [Fld.ok, Reg.KEY_ARB_VAL])

theorem State.raiseArb_raises (hup : (s.raiseArb n x).1 = true) : s.get (Reg.KEY_ARB_VAL n) < x := by
  unfold State.raiseArb at hup
  dsimp only at hup
  split at hup
  · exact absurd hup Bool.false_ne_true
  · next hle => exact Nat.lt_of_not_le hle

theorem State.raiseArb_mono (h : s.Inv) (hx : x < 2 ^ 32) : s.get (Reg.KEY_ARB_VAL n) ≤ (s.raiseArb n x).2.get (Reg.KEY_ARB_VAL n) := by
  rw [State.raiseArb_get h]
  split
  · next hup =>
    rw [Nat.mod_eq_of_lt hx]
    exact Nat.le_of_lt (State.raiseArb_raises hup)
  · exact Nat.le_refl _

end

/-! ## The key store (R694) -/

section

variable {s : State} {confirm : BitVec 8} {i : BitVec 6} {v : W32}

/-- A value of KEY_CTL from its fields. -/
def keyCtl (cmd sel confirm : Nat) : W32 := BitVec.ofNat 32 (cmd + sel * 4 + confirm * 256)

theorem keyCtl_fields {cmd sel conf : Nat} (hcmd : cmd < 4) (hsel : sel < 64) (hconf : conf < 256) : fieldGet (keyCtl cmd sel conf) 0 2 = cmd ∧
    fieldGet (keyCtl cmd sel conf) 2 6 = sel ∧ fieldGet (keyCtl cmd sel conf) 8 8 = conf := by
  have hval : (keyCtl cmd sel conf).toNat = cmd + sel * 4 + conf * 256 := by
    rw [keyCtl, BitVec.toNat_ofNat]
    omega
  unfold fieldGet
  rw [hval]
  omega

theorem keyCtl_burn (cmd conf : Nat) : BitVec.ofNat 32 (cmd + conf * 256) = keyCtl cmd 0 conf := rfl

theorem State.writeKeyCtl_refused (hconf : fieldGet v 8 8 ≠ 0xC3) : s.writeKeyCtl v = s.set Reg.KEY_STAT_CMDERR 1 := if_pos (.inl hconf)

theorem exec_keyCtl_unconfirmed (hne : confirm ≠ 0xC3) : exec (.burnRoot .pf1 confirm) s = .next (s.set Reg.KEY_STAT_CMDERR 1) ∧
    exec (.burnSeal .pf1 confirm) s = .next (s.set Reg.KEY_STAT_CMDERR 1) ∧ exec (.raise .pf1 i confirm) s = .next (s.set Reg.KEY_STAT_CMDERR 1) := by
  have hconf : confirm.toNat ≠ 0xC3 := fun h => hne (BitVec.eq_of_toNat_eq h)
  have hfield : ∀ cmd sel, cmd < 4 → sel < 64 → fieldGet (keyCtl cmd sel confirm.toNat) 8 8 ≠ 0xC3 := by
    intro cmd sel hcmd hsel
    obtain ⟨-, -, hf⟩ := keyCtl_fields hcmd hsel confirm.isLt
    rwa [hf]
  refine ⟨?_, ?_, ?_⟩
  · rw [exec_burnRoot_pf1, keyCtl_burn, State.writeKeyCtl_refused (hfield 1 0 (by decide) (by decide))]
  · rw [exec_burnSeal_pf1, keyCtl_burn, State.writeKeyCtl_refused (hfield 2 0 (by decide) (by decide))]
  · exact congrArg Host.Outcome.next (State.writeKeyCtl_refused (hfield 3 i.toNat (by decide) i.isLt))

/-- What a confirmed write of KEY_CTL does (R694). -/
theorem State.writeKeyCtl_confirmed {cmd sel : Nat} (hpos : 0 < cmd) (hcmd : cmd < 4) (hsel : sel < 64) : s.writeKeyCtl (keyCtl cmd sel 0xC3) =
    if cmd = 3 then (s.raiseArb sel (s.word Reg.KEY_ARBVAL).toNat).2
    else if s.on Reg.KEY_STAT_BUSY = true ∨ (cmd = 1 ∧ s.on Reg.KEY_STAT_ROOTSET = true) then s.set Reg.KEY_STAT_CMDERR 1
    else (s.modSec (fun x => { x with burn := some (cmd, if cmd = 1 then (List.range 12).map (fun j => s.word (Reg.KEY_ROOTH j)) else []) })).set
      Reg.KEY_STAT_BUSY 1 := by
  obtain ⟨hc, hs, hf⟩ := keyCtl_fields hcmd hsel (show 0xC3 < 256 from by decide)
  unfold State.writeKeyCtl
  dsimp only
  rw [hc, hs, hf, if_neg (by omega)]

theorem exec_burnRoot_starts (h : s.Inv) (hbusy : s.on Reg.KEY_STAT_BUSY = false) (hroot : s.on Reg.KEY_STAT_ROOTSET = false) :
    ∃ t, exec (.burnRoot .pf1 0xC3) s = .next t ∧ t.get Reg.KEY_STAT_BUSY = 1 ∧
      t.sec.burn = some (1, (List.range 12).map (fun j => s.word (Reg.KEY_ROOTH j))) := by
  have hmod : (s.modSec (fun x => { x with burn := some (1, (List.range 12).map (fun j => s.word (Reg.KEY_ROOTH j))) })).Inv := h.modSec
  refine ⟨_, ?_, hmod.get_set_self Reg.KEY_STAT_BUSY 1 (by decide) (by decide), rfl⟩
  have hwrite := State.writeKeyCtl_confirmed (s := s) (cmd := 1) (sel := 0) (by decide) (by decide) (by decide)
  rw [hbusy, hroot, if_neg (by decide), if_neg (by decide), if_pos rfl] at hwrite
  exact congrArg Host.Outcome.next hwrite

theorem exec_burnRoot_again (hroot : s.on Reg.KEY_STAT_ROOTSET = true) :
    exec (.burnRoot .pf1 0xC3) s = .next (s.set Reg.KEY_STAT_CMDERR 1) := by
  have hwrite := State.writeKeyCtl_confirmed (s := s) (cmd := 1) (sel := 0) (by decide) (by decide) (by decide)
  rw [if_neg (by decide), if_pos (.inr ⟨rfl, hroot⟩)] at hwrite
  exact congrArg Host.Outcome.next hwrite

theorem exec_burnSeal_starts (h : s.Inv) (hbusy : s.on Reg.KEY_STAT_BUSY = false) :
    ∃ t, exec (.burnSeal .pf1 0xC3) s = .next t ∧ t.get Reg.KEY_STAT_BUSY = 1 ∧ t.sec.burn = some (2, []) := by
  have hmod : (s.modSec (fun x => { x with burn := some (2, []) })).Inv := h.modSec
  refine ⟨_, ?_, hmod.get_set_self Reg.KEY_STAT_BUSY 1 (by decide) (by decide), rfl⟩
  have hwrite := State.writeKeyCtl_confirmed (s := s) (cmd := 2) (sel := 0) (by decide) (by decide) (by decide)
  rw [hbusy, if_neg (by decide), if_neg (by simp), if_neg (by decide)] at hwrite
  exact congrArg Host.Outcome.next hwrite

theorem exec_raise_confirmed : exec (.raise .pf1 i 0xC3) s = .next (s.raiseArb i.toNat (s.word Reg.KEY_ARBVAL).toNat).2 := by
  have hwrite := State.writeKeyCtl_confirmed (s := s) (cmd := 3) (sel := i.toNat) (by decide) (by decide) i.isLt
  rw [if_pos rfl] at hwrite
  exact congrArg Host.Outcome.next hwrite

theorem exec_keyBurn_none (hnone : s.sec.burn = none) : exec .keyBurn s = .next s := by
  show execKeyBurn s = _
  unfold execKeyBurn
  rw [hnone]

/-- The seal's fuse is burnt, and the burn ends. -/
def State.sealBurnt (s : State) : State :=
  (((s.set Reg.KEY_STAT_SEALONLY 1).set Reg.PRS_GSTAT_SEALONLY 1).set Reg.KEY_STAT_BUSY 0).modSec (fun x => { x with burn := none })

theorem State.sealBurnt_spec (h : s.Inv) : s.sealBurnt.get Reg.KEY_STAT_SEALONLY = 1 ∧ s.sealBurnt.get Reg.PRS_GSTAT_SEALONLY = 1 ∧
    s.sealBurnt.get Reg.KEY_STAT_BUSY = 0 := by
  have h1 := h.set (f := Reg.KEY_STAT_SEALONLY) (v := 1)
  have h2 := h1.set (f := Reg.PRS_GSTAT_SEALONLY) (v := 1)
  unfold State.sealBurnt
  rw [State.get_modSec, State.get_modSec, State.get_modSec]
  refine ⟨?_, ?_, h2.get_set_self _ _ (by decide) (by decide)⟩
  · rw [h2.get_set_of_apart _ _ _ (by decide) (by decide), h1.get_set_of_apart _ _ _ (by decide) (by decide)]
    exact h.get_set_self _ _ (by decide) (by decide)
  · rw [h2.get_set_of_apart _ _ _ (by decide) (by decide)]
    exact h1.get_set_self _ _ (by decide) (by decide)

theorem exec_keyBurn_seal (h : s.Inv) {ws : List W32} (hburn : s.sec.burn = some (2, ws)) : ∃ t, exec .keyBurn s = .next t ∧
    t.get Reg.KEY_STAT_SEALONLY = 1 ∧ t.get Reg.PRS_GSTAT_SEALONLY = 1 ∧ t.get Reg.KEY_STAT_BUSY = 0 ∧ t.sec.burn = none ∧
    (t.ledger.head?.map (fun x => x.code)) = some 0x0F05 := by
  obtain ⟨hseal, hprs, hbusy⟩ := State.sealBurnt_spec h
  refine ⟨s.sealBurnt.record 0x0F05 0xFF 0, ?_, ?_, ?_, ?_, rfl, State.record_head_code ..⟩
  · show execKeyBurn s = _
    unfold execKeyBurn
    rw [hburn]
    dsimp only
    rw [State.burnt, if_neg (by decide)]
    rfl
  · rw [State.get_record_of_ne _ _ _ _ _ (by decide), hseal]
  · rw [State.get_record_of_ne _ _ _ _ _ (by decide), hprs]
  · rw [State.get_record_of_ne _ _ _ _ _ (by decide), hbusy]

end

/-! ## Debug unlock (R697, R698) -/

section

variable {s : State} {scope : BitVec 2} {v : W32} {ended : Unit}

theorem dbguCtl_fields (scope : BitVec 2) {bits : Nat} (hbits : bits < 4) : fieldGet (BitVec.ofNat 32 (bits + scope.toNat * 4)) 2 2 = scope.toNat ∧
    fieldGet (BitVec.ofNat 32 (bits + scope.toNat * 4)) 0 1 = bits % 2 ∧ fieldGet (BitVec.ofNat 32 (bits + scope.toNat * 4)) 1 1 = bits / 2 := by
  have hscope : scope.toNat < 4 := scope.isLt
  have hval : (BitVec.ofNat 32 (bits + scope.toNat * 4)).toNat = bits + scope.toNat * 4 := by
    rw [BitVec.toNat_ofNat]
    omega
  unfold fieldGet
  rw [hval]
  omega

theorem exec_debugRequest_scoped : exec (.debugRequest .pf1 scope) s =
    .next ((s.set Reg.DBGU_CTL_SCOPE scope.toNat).debugRequest scope.toNat) := by
  obtain ⟨hscope, hreq, hlock⟩ := dbguCtl_fields scope (bits := 1) (by decide)
  rw [exec_debugRequest_pf1]
  unfold State.writeDbguCtl
  dsimp only
  rw [hscope, hreq, hlock, if_neg (by decide), if_pos (by decide)]

theorem exec_debugLock_spec (h : s.Inv) : ∃ t, exec (.debugLock .pf1 scope) s = .next t ∧ t.get Reg.DBGU_CTL_UNLOCKED = 0 ∧
    t.get Reg.DBGU_CTL_SCOPE = scope.toNat := by
  obtain ⟨hscope, hreq, hlock⟩ := dbguCtl_fields scope (bits := 2) (by decide)
  have h1 := h.set (f := Reg.DBGU_CTL_SCOPE) (v := scope.toNat)
  refine ⟨(s.set Reg.DBGU_CTL_SCOPE scope.toNat).set Reg.DBGU_CTL_UNLOCKED 0, ?_, h1.get_set_self _ _ (by decide) (by decide), ?_⟩
  · rw [exec_debugLock_pf1]
    unfold State.writeDbguCtl
    dsimp only
    rw [hscope, hreq, hlock, if_pos (by decide), if_neg (by decide)]
  · rw [h1.get_set_of_apart _ _ _ (by decide) (by decide)]
    exact h.get_set_self _ _ (by decide) scope.isLt

/-- SCOPE stands in DBGU_CTL beside REFUSE and UNLOCKED, and apart from KEY_STAT. -/
theorem State.scoped_gets (h : s.Inv) {n : Nat} (hn : n < 4) : (s.set Reg.DBGU_CTL_SCOPE n).get Reg.DBGU_CTL_SCOPE = n ∧
    (s.set Reg.DBGU_CTL_SCOPE n).on Reg.DBGU_CTL_REFUSE = s.on Reg.DBGU_CTL_REFUSE ∧
    (s.set Reg.DBGU_CTL_SCOPE n).on Reg.KEY_STAT_ROOTSET = s.on Reg.KEY_STAT_ROOTSET ∧
    (s.set Reg.DBGU_CTL_SCOPE n).get Reg.DBGU_CTL_UNLOCKED = s.get Reg.DBGU_CTL_UNLOCKED := by
  refine ⟨h.get_set_self _ _ (by decide) hn, ?_, ?_, h.get_set_of_apart _ _ _ (by decide) (by decide)⟩
  · rw [State.on, State.on, h.get_set_of_apart _ _ _ (by decide) (by decide)]
  · rw [State.on, State.on, h.get_set_of_apart _ _ _ (by decide) (by decide)]

theorem exec_debugRequest_unkeyed (h : s.Inv) (hrefuse : s.on Reg.DBGU_CTL_REFUSE = false) (hroot : s.on Reg.KEY_STAT_ROOTSET = false) :
    ∃ t, exec (.debugRequest .pf1 scope) s = .next t ∧ t.get Reg.DBGU_CTL_UNLOCKED = scope.toNat ∧ t.get Reg.DBGU_CTL_SCOPE = scope.toNat := by
  obtain ⟨hscope, hkeepRefuse, hkeepRoot, -⟩ := State.scoped_gets h (n := scope.toNat) scope.isLt
  have h1 := h.set (f := Reg.DBGU_CTL_SCOPE) (v := scope.toNat)
  refine ⟨(s.set Reg.DBGU_CTL_SCOPE scope.toNat).set Reg.DBGU_CTL_UNLOCKED scope.toNat, ?_, h1.get_set_self _ _ (by decide) scope.isLt, ?_⟩
  · rw [exec_debugRequest_scoped]
    unfold State.debugRequest
    rw [hkeepRefuse, hrefuse, hkeepRoot, hroot, if_neg (by decide), if_pos (by decide)]
  · rw [h1.get_set_of_apart _ _ _ (by decide) (by decide), hscope]

/-- The challenge words are put down from here on: nothing but their registers changes. -/
theorem State.challenge_frame (l : List W32) (k : Nat) (t : State) : 
    (∃ regs, (l.zipIdx k).foldl (fun (t : State) x => t.setWord (Reg.DBGU_CHAL x.2) x.1) t = { t with regs := regs }) ∧
    ((l.zipIdx k).foldl (fun (t : State) x => t.setWord (Reg.DBGU_CHAL x.2) x.1) t).word Reg.DBGU_CTL =
      t.word Reg.DBGU_CTL := by
  induction l generalizing k t with
  | nil => exact ⟨⟨t.regs, rfl⟩, rfl⟩
  | cons x l ih =>
    obtain ⟨⟨r, hr⟩, hw⟩ := ih (k + 1) (t.setWord (Reg.DBGU_CHAL k) x)
    have hkeep : (t.setWord (Reg.DBGU_CHAL k) x).word Reg.DBGU_CTL = t.word Reg.DBGU_CTL :=
      State.word_setWord_of_ne _ _ _ _ (by simp only [Reg.DBGU_CTL, Reg.DBGU_CHAL]; omega)
    exact ⟨⟨r, hr⟩, hw.trans hkeep⟩

/-- The words of a challenge for a scope (R698). -/
def State.challenge (s : State) (scope : Nat) : List W32 :=
  let a := s.free
  let b := a.2.free
  let u := b.2.uid
  [a.1.setWidth 32, (a.1 >>> 32).setWidth 32, b.1.setWidth 32, (b.1 >>> 32).setWidth 32, u.setWidth 32, (u >>> 32).setWidth 32,
    BitVec.ofNat 32 scope, 0]

theorem State.debugRequest_keyed {n : Nat} (hrefuse : s.on Reg.DBGU_CTL_REFUSE = false) (hroot : s.on Reg.KEY_STAT_ROOTSET = true) :
    s.debugRequest n = (((s.challenge n).zipIdx).foldl (fun (t : State) x => t.setWord (Reg.DBGU_CHAL x.2) x.1)
      { s with freeCtr := s.freeCtr + 2 }).modSec (fun x => { x with chal := some n }) := by
  unfold State.debugRequest
  rw [hrefuse, hroot, if_neg (by decide), if_neg (by decide)]
  rfl

theorem exec_debugRequest_keyed (h : s.Inv) (hrefuse : s.on Reg.DBGU_CTL_REFUSE = false) (hroot : s.on Reg.KEY_STAT_ROOTSET = true) :
    ∃ t, exec (.debugRequest .pf1 scope) s = .next t ∧ t.sec.chal = some scope.toNat ∧ t.freeCtr = s.freeCtr + 2 ∧
      t.get Reg.DBGU_CTL_UNLOCKED = s.get Reg.DBGU_CTL_UNLOCKED := by
  obtain ⟨-, hkeepRefuse, hkeepRoot, hunlocked⟩ := State.scoped_gets h (n := scope.toNat) scope.isLt
  refine ⟨_, exec_debugRequest_scoped, ?_⟩
  rw [State.debugRequest_keyed (hkeepRefuse.trans hrefuse) (hkeepRoot.trans hroot)]
  obtain ⟨⟨r, hparts⟩, hword⟩ := State.challenge_frame ((s.set Reg.DBGU_CTL_SCOPE scope.toNat).challenge scope.toNat) 0
    { s.set Reg.DBGU_CTL_SCOPE scope.toNat with freeCtr := (s.set Reg.DBGU_CTL_SCOPE scope.toNat).freeCtr + 2 }
  refine ⟨rfl, ?_, ?_⟩
  · rw [hparts]
    rfl
  · rw [State.get_modSec, ← hunlocked]
    exact congrArg (fun x => fieldGet x 4 2) hword

theorem exec_debugResponseCheck_none (hnone : s.sec.chal = none) : exec (.debugResponseCheck .pf1 v) s = .next s := by
  rw [exec_debugResponseCheck_pf1]
  unfold State.writeRaddr
  rw [hnone]

theorem exec_debugResponseCheck_starts (h : s.Inv) {k : Nat} (hchal : s.sec.chal = some k) (hcheck : s.sec.check = none) :
    ∃ t, exec (.debugResponseCheck .pf1 v) s = .next t ∧ t.sec.chal = none ∧ t.get Reg.DBGU_CTL_BUSY = 1 ∧
      t.sec.check = some (v.toNat, k, (List.range 8).map (fun j => s.word (Reg.DBGU_CHAL j))) := by
  have hmod : (s.modSec (fun x => { x with chal := none, check := some (v.toNat, k, (List.range 8).map (fun j => s.word (Reg.DBGU_CHAL j))) })).Inv :=
    h.modSec
  refine ⟨_, ?_, rfl, hmod.get_set_self Reg.DBGU_CTL_BUSY 1 (by decide) (by decide), rfl⟩
  rw [exec_debugResponseCheck_pf1]
  unfold State.writeRaddr
  rw [hchal]
  dsimp only
  rw [hcheck, Option.isSome_none, if_neg (by decide)]

/-! ### A response check ends -/

/-- The check is no longer in progress. -/
def State.checkOver (s : State) : State := (s.modSec (fun x => { x with check := none })).set Reg.DBGU_CTL_BUSY 0

/-- A response is wrong: it counts, and the fourth refuses. -/
def State.responseWrong (s : State) : State :=
  ((s.modSec (fun x => { x with fails := s.sec.fails + 1 })).setB Reg.DBGU_CTL_REFUSE (decide (4 ≤ s.sec.fails + 1))).record 0x0F07 0xFF 0

theorem State.Inv.checkOver (h : s.Inv) : s.checkOver.Inv := .set h.modSec

theorem State.responseWrong_spec (h : s.Inv) : s.responseWrong.sec.fails = s.sec.fails + 1 ∧
    s.responseWrong.get Reg.DBGU_CTL_REFUSE = (if 4 ≤ s.sec.fails + 1 then 1 else 0) ∧
    s.responseWrong.get Reg.DBGU_CTL_BUSY = s.get Reg.DBGU_CTL_BUSY ∧
    s.responseWrong.get Reg.DBGU_CTL_UNLOCKED = s.get Reg.DBGU_CTL_UNLOCKED ∧ (s.responseWrong.ledger.head?.map (fun x => x.code)) = some 0x0F07 := by
  have hmod : (s.modSec (fun x => { x with fails := s.sec.fails + 1 })).Inv := h.modSec
  unfold State.responseWrong State.setB
  rw [State.get_record_of_ne _ _ _ _ _ (by decide), State.get_record_of_ne _ _ _ _ _ (by decide), State.get_record_of_ne _ _ _ _ _ (by decide)]
  refine ⟨rfl, ?_, hmod.get_set_of_apart _ _ _ (by decide) (by decide), hmod.get_set_of_apart _ _ _ (by decide) (by decide),
    State.record_head_code ..⟩
  rw [hmod.get_set_self _ _ (by decide) (by split <;> decide)]
  simp only [decide_eq_true_eq]

theorem exec_dbgUnlock_none (hnone : s.sec.check = none) : exec (.dbgUnlock ended) s = .next s := by
  show execDbgUnlock ended s = _
  unfold execDbgUnlock
  rw [hnone]

theorem exec_dbgUnlock_outside (h : s.Inv) {a k : Nat} {q : List W32} (hcheck : s.sec.check = some (a, k, q)) (ha : a < 0x10000000) :
    ∃ u : State, exec (.dbgUnlock ended) s = .next u.wardenGo ∧ u.sec.fails = s.sec.fails + 1 ∧
      u.get Reg.DBGU_CTL_REFUSE = (if 4 ≤ s.sec.fails + 1 then 1 else 0) ∧ u.get Reg.DBGU_CTL_BUSY = 0 ∧
      u.get Reg.DBGU_CTL_UNLOCKED = s.get Reg.DBGU_CTL_UNLOCKED := by
  have hmod : (s.modSec (fun x => { x with check := none })).Inv := h.modSec
  obtain ⟨hfails, hrefuse, hbusy, hunlocked, -⟩ := State.responseWrong_spec h.checkOver
  refine ⟨s.checkOver.responseWrong, ?_, hfails, hrefuse, hbusy.trans ?_, hunlocked.trans ?_⟩
  · show execDbgUnlock ended s = _
    unfold execDbgUnlock
    rw [hcheck]
    dsimp only
    rw [if_neg (show ¬(0x10000000 ≤ a ∧ a + 200 ≤ 0x11000000) from by omega)]
    rfl
  · exact hmod.get_set_self _ _ (by decide) (by decide)
  · exact hmod.get_set_of_apart _ _ _ (by decide) (by decide)

theorem exec_dbgUnlock_read (h : s.Inv) {a k : Nat} {q : List W32} {b : List Byte} {u : State} (hcheck : s.sec.check = some (a, k, q))
    (hlow : 0x10000000 ≤ a) (hhigh : a + 200 ≤ 0x11000000)
    (hread : ((s.modSec (fun x => { x with check := none })).set Reg.DBGU_CTL_BUSY 0).wardenRead (a - 0x10000000) 200 = (some b, u)) :
    ∃ t : State, exec (.dbgUnlock ended) s = .next t.wardenGo ∧
      if u.responseOk q b = true then t.get Reg.DBGU_CTL_UNLOCKED = k % 4 ∧ (t.ledger.head?.map (fun x => x.code)) = some 0x0F06 ∧ t.sec = u.sec ∧
        t = { u with regs := t.regs, ledger := t.ledger }
      else t.sec.fails = u.sec.fails + 1 ∧ t.get Reg.DBGU_CTL_UNLOCKED = u.get Reg.DBGU_CTL_UNLOCKED ∧
        (t.ledger.head?.map (fun x => x.code)) = some 0x0F07 := by
  have hu : u.Inv := by
    have hinv : (((s.modSec (fun x => { x with check := none })).set Reg.DBGU_CTL_BUSY 0).wardenRead (a - 0x10000000) 200).2.Inv :=
      h.checkOver.wardenRead
    rwa [hread] at hinv
  have hexec : exec (.dbgUnlock ended) s = if u.responseOk q b = true then
      .next ((u.set Reg.DBGU_CTL_UNLOCKED k).record 0x0F06 0xFF 0).wardenGo else .next u.responseWrong.wardenGo := by
    show execDbgUnlock ended s = _
    unfold execDbgUnlock
    rw [hcheck]
    dsimp only
    rw [if_pos (show 0x10000000 ≤ a ∧ a + 200 ≤ 0x11000000 from ⟨hlow, hhigh⟩), hread]
    rfl
  rw [hexec]
  by_cases hok : u.responseOk q b = true
  · refine ⟨_, if_pos hok, ?_⟩
    rw [if_pos hok]
    refine ⟨?_, State.record_head_code .., rfl, rfl⟩
    rw [State.get_record_of_ne _ _ _ _ _ (by decide)]
    exact State.get_set_self _ _ _ hu.regsWf (by decide)
  · obtain ⟨hfails, -, -, hunlocked, hcode⟩ := State.responseWrong_spec hu
    refine ⟨_, if_neg hok, ?_⟩
    rw [if_neg hok]
    exact ⟨hfails, hunlocked, hcode⟩

end

end Sys2Proof.Machine
end

section
open Sys2Proof Sys2Proof.Machine

/-- Settles O59: the commands of PF1 alone, the patch check, the Warden's messages, the key store and debug unlock, each branch by branch. -/
theorem wardenAndKeys : Obligations.WardenAndKeys := by
  intro w r i confirm scope v ended s h
  refine ⟨exec_pf1_denied, exec_patchCheck_pf1, exec_patchCheckDone_none, fun a n q => exec_patchCheckDone_unstaged h,
    fun a n q b u => exec_patchCheckDone_read h, exec_secureDescriptorWrite_pf1, exec_wardenCommands_none, fun c b q hq hpatch hcheck => ?_,
    fun b => ⟨?_, fun q => ?_⟩, fun n hn x => ⟨State.raiseArb_get h n x, State.raiseArb_mono h⟩, exec_keyCtl_unconfirmed,
    exec_burnRoot_starts h, exec_burnRoot_again, exec_burnSeal_starts h, exec_raise_confirmed, exec_keyBurn_none, fun ws => exec_keyBurn_seal h,
    exec_debugRequest_unkeyed h, exec_debugRequest_keyed h, exec_debugLock_spec h, exec_debugResponseCheck_none,
    fun k => exec_debugResponseCheck_starts h, exec_dbgUnlock_none, fun a k q => exec_dbgUnlock_outside h, fun a k q b u => exec_dbgUnlock_read h⟩
  · exact ⟨exec_arbRead_served hq hpatch hcheck, exec_arbRaise_served hq hpatch hcheck, exec_uidRead_served hq hpatch hcheck⟩
  · rw [patchOk, signedBy_iff, beq_iff_eq]
  · rw [State.responseOk, signedBy_iff, State.rootOk_iff]
end

section
/-!
SUPPORT. A hold of functional operation (R726): what the channels of one half-bridge touch when they follow their sources, and that every unpaired
channel is off while operation is held.
-/

namespace Sys2Proof.Machine

/-! ## The registers of a half-bridge and its two channels -/

/-- A register of half-bridge `h` or of one of its two channels, or the ledger's head. -/
def ofPair (h a : Nat) : Prop :=
  (0xa100 + 0x20 * h ≤ a ∧ a < 0xa120 + 0x20 * h) ∨ (0xa1c0 + 0x20 * h ≤ a ∧ a < 0xa1e0 + 0x20 * h) ∨ a = 0xa304 + 0x10 * h ∨
    a = Reg.PWR_LEDHEAD_SEQ.addr

/-- A channel of half-bridge `h`. -/
def chanOf (h c : Nat) : Prop := c = h ∨ c = h + 6

section

variable {s t u : State} {h c k v : Nat}

theorem ofPair_of_chanOf {a : Nat} (hc : chanOf h c) (ha : 0xa100 ≤ a ∧ a < 0xa120) : ofPair h (a + 0x20 * c) := by
  obtain rfl | rfl := hc
  · exact .inl (by omega)
  · exact .inr (.inl (by omega))

/-- From s to t no register but those of half-bridge `h`, its channels and the ledger's head has changed, and the TAP stands as it was. -/
structure State.PairFrame (h : Nat) (s t : State) : Prop where
  gets : ∀ f : Fld, ¬ofPair h f.addr → t.get f = s.get f
  tap : t.tap = s.tap

theorem State.PairFrame.refl (s : State) : s.PairFrame h s := ⟨fun _ _ => rfl, rfl⟩

theorem State.PairFrame.trans (h1 : s.PairFrame h t) (h2 : t.PairFrame h u) : s.PairFrame h u :=
  ⟨fun f hf => (h2.gets f hf).trans (h1.gets f hf), h2.tap.trans h1.tap⟩

theorem State.PairFrame.ite {p : Prop} [Decidable p] (ht : s.PairFrame h t) (hu : s.PairFrame h u) : s.PairFrame h (if p then t else u) := by
  split <;> assumption

theorem State.PairFrame.set {f : Fld} (hf : ofPair h f.addr) : s.PairFrame h (s.set f v) :=
  ⟨fun _ hg => State.get_set_of_ne _ _ _ _ fun heq => hg (heq ▸ hf), rfl⟩

theorem State.PairFrame.modChan {f : Chan → Chan} : s.PairFrame h (s.modChan c f) := ⟨fun _ _ => rfl, rfl⟩

theorem State.PairFrame.modHb {f : HalfBridge → HalfBridge} : s.PairFrame h (s.modHb c f) := ⟨fun _ _ => rfl, rfl⟩

theorem State.PairFrame.record {code unit detail : Nat} : s.PairFrame h (s.record code unit detail) :=
  ⟨fun _ hg => State.get_record_of_ne _ _ _ _ _ fun heq => hg (.inr (.inr (.inr heq))), rfl⟩

theorem State.PairFrame.dropLoop : s.PairFrame h (s.dropLoop c) := .ite .modChan (.refl s)

theorem State.PairFrame.setOn {b : Bool} (hc : chanOf h c) : s.PairFrame h (s.setOn c b) := by
  have hon : s.PairFrame h (s.setB (Reg.LSW_CH_STAT_ON c) b) := .set (ofPair_of_chanOf hc (by decide))
  exact .ite hon (hon.trans (.set (ofPair_of_chanOf hc (by decide))))

theorem State.PairFrame.drive {d : Drive} (hc : chanOf h c) : s.PairFrame h (s.drive c d) := by
  unfold State.drive
  exact .trans .modChan (.setOn hc)

theorem State.PairFrame.refreshChan (hc : chanOf h c) : s.PairFrame h (s.refreshChan c) := by
  unfold State.refreshChan
  exact .trans (.trans .dropLoop (.set (ofPair_of_chanOf hc (by decide)))) (.drive hc)

theorem State.PairFrame.refreshPair : s.PairFrame h (s.refreshPair h) := by
  have hlo : chanOf h h := .inl rfl
  have hhi : chanOf h (h + 6) := .inr rfl
  have hhb : ofPair h (0xa304 + 0x10 * h) := .inr (.inr (.inl rfl))
  have hoff : ∀ (t : State) (k : Nat), chanOf h k → t.PairFrame h (((t.set (Reg.LSW_CH_CMD_MODE k) 0).set (Reg.LSW_CH_STAT_SHOOT k) 1).modChan k
      (fun x => { x with eff := .off })) := fun t k hk =>
    ((State.PairFrame.set (ofPair_of_chanOf hk (by decide))).trans (.set (ofPair_of_chanOf hk (by decide)))).trans .modChan
  unfold State.refreshPair
  extract_lets hi lo s1 both off s2 s3 want side b s4 s5 side'
  have h1 : s.PairFrame h s1 := .trans .dropLoop .dropLoop
  have h2 : s.PairFrame h s2 := h1.trans (.ite (((hoff _ _ hlo).trans (hoff _ _ hhi)).trans .record) (.refl s1))
  have h4 : s.PairFrame h s4 :=
    (h2.trans .modHb).trans (.trans (.set (ofPair_of_chanOf hlo (by decide))) (.set (ofPair_of_chanOf hhi (by decide))))
  have hside : ∀ (t : State) (v d : Nat) (f : HalfBridge → HalfBridge),
      t.PairFrame h (((t.set (Reg.LSW_HB_STAT_SIDE h) v).set (Reg.LSW_HB_STAT_DTACT h) d).modHb h f) := fun t v d f =>
    ((State.PairFrame.set hhb).trans (.set hhb)).trans .modHb
  have h5 : s4.PairFrame h s5 := .ite .modHb (.ite (hside _ _ _ _) (.ite .modHb (hside _ _ _ _)))
  have h6 : ∀ (t : State) (d e : Drive), t.PairFrame h ((t.drive h d).drive (h + 6) e) := fun t d e => .trans (.drive hlo) (.drive hhi)
  exact (h4.trans h5).trans (h6 _ _ _)

/-! ## Held operation (R726) -/

theorem State.setOn_off (h : s.Inv) : (s.setOn c false).on (Reg.LSW_CH_STAT_ON c) = false := by
  have hoff : s.setOn c false = (s.set (Reg.LSW_CH_STAT_ON c) 0).set (Reg.LSW_CH_CUR_NOW c) 0 := rfl
  rw [hoff, State.on, State.get_set_of_ne _ _ _ _ (by simp only [Reg.LSW_CH_STAT_ON, Reg.LSW_CH_CUR_NOW]; omega),
    h.get_set_self _ _ (by simp [Fld.ok, Reg.LSW_CH_STAT_ON]) (by simp)]
  rfl

theorem State.source_of_hold (hhold : s.tap.hold = true) : s.source c = (0, .off) := by
  have hall : s.allOff = true := by
    rw [State.allOff, hhold, Bool.or_true]
  unfold State.source
  rw [hall, Bool.true_or, Bool.true_or, Bool.true_or, if_pos rfl]

theorem State.refreshChan_of_hold (h : s.Inv) (hhold : s.tap.hold = true) : (s.refreshChan c).on (Reg.LSW_CH_STAT_ON c) = false := by
  unfold State.refreshChan
  rw [State.source_of_hold hhold]
  exact State.setOn_off (.modChan (.set h.dropLoop))

/-- Under a hold the channels of the first `n` half-bridges have followed their sources: those that are not paired are off. -/
structure State.HeldOff (s : State) (n : Nat) (t : State) : Prop where
  inv : t.Inv
  tap : t.tap = s.tap
  pairs : ∀ k < 6, t.on (Reg.LSW_HB_CFG_EN k) = s.on (Reg.LSW_HB_CFG_EN k)
  off : ∀ c < 12, c % 6 < n → s.on (Reg.LSW_HB_CFG_EN (c % 6)) = false → t.on (Reg.LSW_CH_STAT_ON c) = false

/-- One half-bridge, or its two channels, follow their sources. -/
def State.refreshHb (s : State) (h : Nat) : State :=
  if s.on (Reg.LSW_HB_CFG_EN h) then s.refreshPair h else (s.refreshChan h).refreshChan (h + 6)

theorem State.PairFrame.refreshHb : s.PairFrame h (s.refreshHb h) :=
  .ite .refreshPair (.trans (.refreshChan (.inl rfl)) (.refreshChan (.inr rfl)))

theorem State.Inv.refreshHb (hs : s.Inv) : (s.refreshHb h).Inv := .ite (.refreshPair hs) (.refreshChan (.refreshChan hs))

theorem State.refreshHb_of_hold (hh : h < 6) (hs : s.Inv) (hhold : s.tap.hold = true) (hen : s.on (Reg.LSW_HB_CFG_EN h) = false) (hc : chanOf h c) :
    (s.refreshHb h).on (Reg.LSW_CH_STAT_ON c) = false := by
  have hfirst : s.PairFrame h (s.refreshChan h) := .refreshChan (.inl rfl)
  rw [State.refreshHb, hen, if_neg (by decide)]
  obtain rfl | rfl := hc
  · have hsecond : (s.refreshChan c).PairFrame (c + 6) ((s.refreshChan c).refreshChan (c + 6)) := .refreshChan (.inl rfl)
    rw [State.on, hsecond.gets _ (by simp only [ofPair, Reg.LSW_CH_STAT_ON, Reg.PWR_LEDHEAD_SEQ]; omega)]
    exact State.refreshChan_of_hold hs hhold
  · exact State.refreshChan_of_hold hs.refreshChan (by rw [hfirst.tap, hhold])

theorem State.HeldOff.step {n : Nat} (hn : n < 6) (hhold : s.tap.hold = true) (ht : s.HeldOff n t) : s.HeldOff (n + 1) (t.refreshHb n) := by
  obtain ⟨hinv, htap, hpairs, hoff⟩ := ht
  have hframe : t.PairFrame n (t.refreshHb n) := .refreshHb
  refine ⟨hinv.refreshHb, hframe.tap.trans htap, fun k hk => ?_, fun c hc hlt hen => ?_⟩
  · rw [State.on, hframe.gets _ (by simp only [ofPair, Reg.LSW_HB_CFG_EN, Reg.PWR_LEDHEAD_SEQ]; omega)]
    exact hpairs k hk
  · by_cases hcn : c % 6 = n
    · exact State.refreshHb_of_hold hn hinv (by rw [htap, hhold]) (by rw [hpairs n hn, ← hcn, hen]) (show c = n ∨ c = n + 6 from by omega)
    · rw [State.on, hframe.gets _ (by simp only [ofPair, Reg.LSW_CH_STAT_ON, Reg.PWR_LEDHEAD_SEQ]; omega)]
      exact hoff c hc (by omega) hen

theorem State.heldOff_each (h : s.Inv) (hhold : s.tap.hold = true) (n : Nat) (hn : n ≤ 6) :
    s.HeldOff n (s.each n (fun k t => t.refreshHb k)) := by
  induction n with
  | zero => exact ⟨h, rfl, fun _ _ => rfl, fun _ _ hl => absurd hl (Nat.not_lt_zero _)⟩
  | succ n ih =>
    have heq : s.each (n + 1) (fun k t => t.refreshHb k) = (s.each n (fun k t => t.refreshHb k)).refreshHb n := by
      simp only [State.each, List.range_succ, List.foldl_append, List.foldl_cons, List.foldl_nil]
    rw [heq]
    exact (ih (by omega)).step (by omega) hhold

/-- BLOCKED is a register of the loops: marking it leaves the load switches' registers alone. -/
theorem State.get_markBlocked {f : Fld} (hf : 0xa000 ≤ f.addr) : s.markBlocked.get f = s.get f := by
  have hall : ∀ (l : List Nat) (t : State), (∀ k ∈ l, k < 16) →
      (l.foldl (fun t k => if t.swgOn k && t.swgBlocked k then t.set (Reg.SWG_n_STAT_BLOCKED k) 1 else t) t).get f = t.get f := by
    intro l
    induction l with
    | nil => exact fun _ _ => rfl
    | cons k l ih =>
      intro t hl
      have hk : k < 16 := hl k (List.mem_cons_self ..)
      rw [List.foldl_cons, ih _ fun j hj => hl j (List.mem_cons_of_mem _ hj)]
      split
      · exact State.get_set_of_ne _ _ _ _ (by simp only [Reg.SWG_n_STAT_BLOCKED]; omega)
      · rfl
  exact hall _ s fun k hk => List.mem_range.mp hk

theorem State.refreshLsw_eq (s : State) : s.refreshLsw = s.markBlocked.each 6 (fun k t => t.refreshHb k) := rfl

theorem State.refreshLsw_of_hold (h : s.Inv) (hhold : s.tap.hold = true) (hc : c < 12) (hen : s.on (Reg.LSW_HB_CFG_EN (c % 6)) = false) :
    s.refreshLsw.tap = s.tap ∧ s.refreshLsw.on (Reg.LSW_CH_STAT_ON c) = false := by
  obtain ⟨-, ⟨r, l, g, hparts⟩, -⟩ := State.LswFrame.markBlocked h
  have htap : s.markBlocked.tap = s.tap := by rw [hparts]
  obtain ⟨-, htap', -, hoff⟩ := State.heldOff_each h.markBlocked (by rw [htap, hhold]) 6 (Nat.le_refl 6)
  rw [State.refreshLsw_eq]
  refine ⟨htap'.trans htap, hoff c hc (Nat.mod_lt _ (by decide)) ?_⟩
  rw [State.on, State.get_markBlocked (by simp only [Reg.LSW_HB_CFG_EN]; omega)]
  exact hen

end

end Sys2Proof.Machine
end

section
namespace Sys2Proof.Machine

/-! ## Instructions that hold operation (R726) -/

section

variable {s : State} {op : Byte} {c : Nat}

/-- The state of the TAP while an instruction that holds operation is current. -/
def State.tapHeld (s : State) (op : Byte) : State := s.modTap (fun t => { t with ir := op, hold := true })

theorem State.Inv.tapHeld (h : s.Inv) : (s.tapHeld op).Inv := .frame h rfl rfl rfl

theorem State.portUp_refreshLsw (h : s.Inv) {p : Nat} (hp : p < 4) : s.refreshLsw.portUp p = s.portUp p := by
  obtain ⟨hgets, -, -⟩ := State.LswFrame.refreshLsw h
  have hoff : (Reg.PORT_LSTAT_UP p).OffLsw := by
    refine ⟨?_, ?_, fun n _ => Fld.apart_of_addr_ne ?_⟩ <;> simp only [Reg.PORT_LSTAT_UP, Reg.PWR_LEDHEAD_SEQ, Reg.SWG_n_STAT_BLOCKED] <;> omega
  rw [State.portUp, State.portUp, State.on, State.on, hgets _ hoff]

/-- With the FP PHYs down already, a hold switches the channels off and nothing else. -/
theorem State.tapHold_of_down (h : s.Inv) (hdown : ∀ p, p < 4 → s.portUp p = false) : s.tapHold op = (s.tapHeld op).refreshLsw := by
  have hall : ∀ l : List Nat, (∀ p ∈ l, p < 4) → l.foldl (fun t p => State.linkFalls t p 0) (s.tapHeld op).refreshLsw =
    (s.tapHeld op).refreshLsw := by
    intro l
    induction l with
    | nil => exact fun _ => rfl
    | cons p l ih =>
      intro hl
      have hp : p < 4 := hl p (List.mem_cons_self ..)
      have hstays : (s.tapHeld op).refreshLsw.linkFalls p 0 = (s.tapHeld op).refreshLsw := by
        have hoff : (s.tapHeld op).refreshLsw.portUp p = false := (State.portUp_refreshLsw h.tapHeld hp).trans (hdown p hp)
        unfold State.linkFalls
        rw [hoff, if_pos (by decide)]
      rw [List.foldl_cons, hstays]
      exact ih fun j hj => hl j (List.mem_cons_of_mem _ hj)
  exact hall _ fun p hp => List.mem_range.mp hp

theorem State.tapHold_spec (h : s.Inv) (hdown : ∀ p, p < 4 → s.portUp p = false) (c : Nat) (hc : c < 12)
    (hen : s.on (Reg.LSW_HB_CFG_EN (c % 6)) = false) : (s.tapHold op).tap.hold = true ∧ (s.tapHold op).tap.ir = op ∧
      (s.tapHold op).on (Reg.LSW_CH_STAT_ON c) = false := by
  obtain ⟨htap, hoff⟩ := State.refreshLsw_of_hold (h.tapHeld (op := op)) rfl hc hen
  rw [State.tapHold_of_down h hdown, htap]
  exact ⟨rfl, rfl, hoff⟩

end

/-! ## BYPASS and updates of the debug register (R725, R727) -/

section

variable {s : State} {op : BitVec 8} {off : BitVec 16} {v : W32}

theorem exec_bypass_eq : exec (.bypass op) s =
    .next (if op.toNat ≤ 6 ∨ op = 0x20 then s else (s.modTap (fun t => { t with ir := op })).send (.tdo 1 0)) := rfl

theorem exec_bypass_selects (hhigh : 6 < op.toNat) (hne : op ≠ 0x20) : ∃ t, exec (.bypass op) s = .next t ∧ t.tap.ir = op ∧
    t.out = .tdo 1 0 :: s.out ∧ t = { s with tap := t.tap, out := t.out } := by
  refine ⟨(s.modTap (fun t => { t with ir := op })).send (.tdo 1 0), ?_, rfl, rfl, rfl⟩
  rw [exec_bypass_eq, if_neg]
  rintro (hlow | heq)
  · omega
  · exact hne heq

theorem exec_bypass_other (hother : op.toNat ≤ 6 ∨ op = 0x20) : exec (.bypass op) s = .next s := by
  rw [exec_bypass_eq, if_pos hother]

theorem exec_jtagDebugRead_eq : exec (.jtagDebugRead off) s = .next (s.debugUpdate (BitVec.ofNat 64 (2 ^ 62 + off.toNat * 2 ^ 46))) := rfl

theorem exec_jtagDebugWrite_eq : exec (.jtagDebugWrite off v) s =
    .next (s.debugUpdate (BitVec.ofNat 64 (2 ^ 63 + off.toNat * 2 ^ 46 + v.toNat))) := rfl

theorem exec_jtagDebug_other (hir : s.tap.ir ≠ 0x20) : exec (.jtagDebugRead off) s = .next s ∧ exec (.jtagDebugWrite off v) s = .next s :=
  ⟨congrArg Host.Outcome.next (if_pos hir), congrArg Host.Outcome.next (if_pos hir)⟩

theorem readUpdate_fields (off : BitVec 16) : (BitVec.ofNat 64 (2 ^ 62 + off.toNat * 2 ^ 46)).toNat / 2 ^ 46 % 2 ^ 16 = off.toNat ∧
    (BitVec.ofNat 64 (2 ^ 62 + off.toNat * 2 ^ 46)).toNat / 2 ^ 62 = 1 := by
  have hlt : off.toNat < 65536 := off.isLt
  rw [BitVec.toNat_ofNat]
  omega

theorem writeUpdate_fields (off : BitVec 16) (v : W32) :
    (BitVec.ofNat 64 (2 ^ 63 + off.toNat * 2 ^ 46 + v.toNat)).toNat / 2 ^ 46 % 2 ^ 16 = off.toNat ∧
    (BitVec.ofNat 64 (2 ^ 63 + off.toNat * 2 ^ 46 + v.toNat)).toNat / 2 ^ 62 = 2 ∧
    (BitVec.ofNat 64 (2 ^ 63 + off.toNat * 2 ^ 46 + v.toNat)).setWidth 32 = v := by
  have hoff : off.toNat < 65536 := off.isLt
  have hv : v.toNat < 4294967296 := v.isLt
  refine ⟨?_, ?_, BitVec.eq_of_toNat_eq ?_⟩
  · rw [BitVec.toNat_ofNat]
    omega
  · rw [BitVec.toNat_ofNat]
    omega
  · rw [BitVec.toNat_setWidth, BitVec.toNat_ofNat]
    omega

theorem exec_jtagDebugRead_reads (hir : s.tap.ir = 0x20) (hword : off.toNat % 4 = 0) :
    exec (.jtagDebugRead off) s = .next (((s.modTap (fun t => { t with dbg := 0 })).setupRead .jtag off.toNat).2.modTap
      (fun t => { t with dbg := ((s.modTap (fun t => { t with dbg := 0 })).setupRead .jtag off.toNat).1.setWidth 64 })) := by
  obtain ⟨hoff, hcode⟩ := readUpdate_fields off
  rw [exec_jtagDebugRead_eq]
  unfold State.debugUpdate
  rw [hoff, hcode, if_neg (not_not.mpr hir)]
  dsimp only
  rw [if_pos hword]
  rfl

theorem exec_jtagDebugWrite_writes (hir : s.tap.ir = 0x20) (hword : off.toNat % 4 = 0)
    (hdbg : ¬(0x3100 ≤ off.toNat ∧ off.toNat < 0x3500 ∧ off.toNat % 0x40 = 0x34)) :
    exec (.jtagDebugWrite off v) s = .next ((s.modTap (fun t => { t with dbg := 0 })).setupWrite .jtag off.toNat v) := by
  obtain ⟨hoff, hcode, hv⟩ := writeUpdate_fields off v
  rw [exec_jtagDebugWrite_eq]
  unfold State.debugUpdate
  rw [hoff, hcode, hv, if_neg (not_not.mpr hir)]
  have hno : ¬(0x3100 ≤ off.toNat ∧ off.toNat < 0x3500 ∧ off.toNat % 0x40 = 0x34 ∧ v.getLsbD 1 = true) :=
    fun ⟨hlow, hhigh, hmod, _⟩ => hdbg ⟨hlow, hhigh, hmod⟩
  show Host.Outcome.next (if _ then _ else _) = _
  rw [if_neg hno, if_pos hword]

end

end Sys2Proof.Machine

open Sys2Proof Sys2Proof.Machine

/-- Settles O60: each instruction's own update of the TAP, the hold over the half-bridges, and the two updates of the debug register. -/
theorem tapInstructions : Obligations.TapInstructions := by
  intro cells op off v s
  refine ⟨⟨_, rfl, rfl, rfl, rfl⟩, exec_bypass_selects, exec_bypass_other, ⟨_, rfl, rfl, rfl, rfl, rfl, rfl⟩, rfl, rfl, rfl, rfl, rfl,
    State.tapHold_spec, ⟨_, rfl, rfl, rfl, rfl, rfl⟩, exec_jtagDebug_other, fun hir hword => ?_, ⟨_, rfl, rfl, rfl, rfl, rfl⟩⟩
  exact ⟨exec_jtagDebugRead_reads hir hword, exec_jtagDebugWrite_writes hir hword⟩
end

section
/-!
SUPPORT. Resets of the whole device (R639, R643 to R645, R657): what the reset leaves of memory and of the queue, and what the state after it is.
-/

namespace Sys2Proof.Machine

/-! ## Memory and the queue until the reset takes the state -/

section

variable {s t u : State} {n k kind : Nat}

/-- From s to t neither memory nor the queue of commands has changed. -/
structure State.StoreFrame (s t : State) : Prop where
  mem : t.mem = s.mem
  pending : t.pending = s.pending

theorem State.StoreFrame.refl (s : State) : s.StoreFrame s := ⟨rfl, rfl⟩

theorem State.StoreFrame.trans (h1 : s.StoreFrame t) (h2 : t.StoreFrame u) : s.StoreFrame u :=
  ⟨h2.mem.trans h1.mem, h2.pending.trans h1.pending⟩

theorem State.StoreFrame.foldl {α : Type} {f : State → α → State} (hf : ∀ (t : State) x, t.StoreFrame (f t x)) (xs : List α) (s : State) :
    s.StoreFrame (xs.foldl f s) := by
  induction xs generalizing s with
  | nil => exact .refl s
  | cons x xs ih => exact (hf s x).trans (ih _)

theorem State.StoreFrame.each {f : Nat → State → State} (hf : ∀ i (t : State), t.StoreFrame (f i t)) : s.StoreFrame (s.each n f) :=
  .foldl (fun t i => hf i t) _ s

theorem State.StoreFrame.modRing {f : Ring → Ring} : s.StoreFrame (s.modRing n f) := ⟨rfl, rfl⟩

theorem State.StoreFrame.modDesc {p : Desc → Bool} {f : Desc → Desc} : s.StoreFrame (s.modDesc n p f) := .modRing

theorem State.StoreFrame.noteReset : s.StoreFrame (s.noteReset kind) := ⟨rfl, rfl⟩

theorem State.StoreFrame.subAbandon {e : Nat} : s.StoreFrame (s.subAbandon e) := by
  unfold State.subAbandon
  dsimp only
  split
  · exact ⟨rfl, rfl⟩
  · exact .refl s

theorem State.StoreFrame.noteProgress : s.StoreFrame s.noteProgress := by
  have hwires : s.StoreFrame (s.each 6 (fun p t => match (t.port p).wire with
    | some f => (match f.src with
      | .ring r i => (match ((t.ring r).q.find? (fun (d : Desc) => d.idx == i && !d.written)).bind (fun (d : Desc) => (t.ring r).chain d) with
        | some c => (spread (t.wireSent p f) c).foldl (fun u x => u.modDesc r (fun d => d.is x.1.idx x.1.gen) (fun d => { d with prog := x.2 })) t
        | none => t)
      | _ => t)
    | none => t)) := by
    refine .each fun p t => ?_
    split
    · split
      · split
        · exact .foldl (fun _ _ => .modDesc) _ t
        · exact .refl t
      · exact .refl t
    · exact .refl t
  unfold State.noteProgress
  dsimp only
  split
  · exact hwires
  · split
    · exact hwires
    · exact hwires.trans .modDesc

theorem State.StoreFrame.freezeRings {cut : Bool} : s.StoreFrame (s.freezeRings cut) := by
  have hrings : s.StoreFrame ((s.noteProgress).each 64 (fun n t => t.freezeRing cut n)) := .trans .noteProgress (.each fun _ _ => .modRing)
  unfold State.freezeRings
  dsimp only
  generalize (s.noteProgress).each 64 (fun n t => t.freezeRing cut n) = t at hrings ⊢
  exact hrings.trans ⟨rfl, rfl⟩

/-! ## The state after the reset -/

/-- From s to t only set-up registers have changed, and PWR_RSTCAUSE is not one of them. -/
structure State.CauseFrame (s t : State) : Prop where
  parts : ∃ regs, t = { s with regs := regs }
  cause : t.word Reg.PWR_RSTCAUSE = s.word Reg.PWR_RSTCAUSE

theorem State.CauseFrame.refl (s : State) : s.CauseFrame s := ⟨⟨s.regs, rfl⟩, rfl⟩

theorem State.CauseFrame.trans (h1 : s.CauseFrame t) (h2 : t.CauseFrame u) : s.CauseFrame u := by
  refine ⟨?_, h2.cause.trans h1.cause⟩
  obtain ⟨r, rfl⟩ := h1.parts
  obtain ⟨r', rfl⟩ := h2.parts
  exact ⟨r', rfl⟩

theorem State.CauseFrame.ite {p : Prop} [Decidable p] (ht : s.CauseFrame t) (hu : s.CauseFrame u) : s.CauseFrame (if p then t else u) := by
  split <;> assumption

theorem State.CauseFrame.setWord {a : Nat} {v : W32} (ha : Reg.PWR_RSTCAUSE ≠ a) : s.CauseFrame (s.setWord a v) :=
  ⟨⟨_, rfl⟩, State.word_setWord_of_ne _ _ _ _ ha⟩

theorem State.CauseFrame.set {f : Fld} {v : Nat} (hf : Reg.PWR_RSTCAUSE ≠ f.addr) : s.CauseFrame (s.set f v) := .setWord hf

theorem State.CauseFrame.each {f : Nat → State → State} (hf : ∀ i < n, ∀ t : State, t.CauseFrame (f i t)) : s.CauseFrame (s.each n f) := by
  have hall : ∀ (l : List Nat) (s : State), (∀ i ∈ l, i < n) → s.CauseFrame (l.foldl (fun t i => f i t) s) := by
    intro l
    induction l with
    | nil => exact fun s _ => .refl s
    | cons i l ih => exact fun s hl => (hf i (hl i (List.mem_cons_self ..)) s).trans (ih _ fun j hj => hl j (List.mem_cons_of_mem _ hj))
  exact hall _ s fun i hi => List.mem_range.mp hi

theorem State.CauseFrame.tearSectors : s.CauseFrame s.tearSectors :=
  .each fun i hi t => .ite (.set (by simp only [sectorFld, Reg.ING_SSTAT, Reg.PWR_RSTCAUSE]; omega)) (.refl t)

theorem State.CauseFrame.lostBanks : s.CauseFrame s.lostBanks :=
  .each fun i hi t => .ite (.refl t) (.set (by simp only [Reg.HRD_BANK_CUR, Reg.PWR_RSTCAUSE]; omega))

theorem State.CauseFrame.keepLatches {old : State} : s.CauseFrame (State.keepLatches old s) :=
  .each fun i hi t => .setWord (by simp only [Reg.LSW_CH_STAT, Reg.PWR_RSTCAUSE]; omega)

/-- Is this a key of Ingot's bytes (R657)? -/
def ofIngot (a : Nat) : Bool := decide (0x40000000 ≤ a ∧ a < 0x40800000)

/-- What the statement of a whole-device reset says of the state after it. -/
structure State.ResetFrame (s : State) (k : Nat) (t : State) : Prop where
  held : t.power.reset = some k
  pending : t.pending = s.pending
  eng : t.eng = Vector.replicate 16 Eng.zero
  hearth : t.hearth = Hearth.zero
  prs : t.prs = Prs.zero
  ports : t.ports = Vector.replicate 6 Port.zero
  chain : t.chain = Chain.zero
  ledger : k ≤ 1 → t.ledger = []
  tb : k ≠ 9 → t.tb = 0
  mem : t.mem = s.mem.filter (fun c => ofIngot c.1)

theorem State.ResetFrame.cause (h : s.ResetFrame k t) (hc : t.CauseFrame u) : s.ResetFrame k u := by
  obtain ⟨r, rfl⟩ := hc.parts
  exact ⟨h.held, h.pending, h.eng, h.hearth, h.prs, h.ports, h.chain, h.ledger, h.tb, h.mem⟩

theorem State.ResetFrame.of_store (h : t.ResetFrame k u) (hs : s.StoreFrame t) : s.ResetFrame k u :=
  ⟨h.held, h.pending.trans hs.pending, h.eng, h.hearth, h.prs, h.ports, h.chain, h.ledger, h.tb, h.mem.trans (by rw [hs.mem])⟩

theorem State.afterReset_spec (k : Nat) : s.ResetFrame k (s.afterReset k) ∧
    (k ≤ 1 → (s.afterReset k).word Reg.PWR_RSTCAUSE = RegMap.resetWord Reg.PWR_RSTCAUSE) := by
  unfold State.afterReset
  extract_lets por soft sub ingot x1 x2 x3 x4 x5 x6 x7 x8 t1 t2 t3 u1 u2 u3 t4
  have hframe : s.ResetFrame k t1 := by
    refine ⟨rfl, rfl, rfl, rfl, rfl, rfl, rfl, fun hk => ?_, fun hk => ?_, rfl⟩
    · exact if_pos (decide_eq_true hk)
    · exact if_neg (by simpa [soft] using hk)
  have hcause : k ≤ 1 → t1.word Reg.PWR_RSTCAUSE = RegMap.resetWord Reg.PWR_RSTCAUSE := by
    intro hk
    have hfilter := Sparse.find_filter_key RegMap.resetWord (fun a => keptKey k a sub) s.regs Reg.PWR_RSTCAUSE
    refine hfilter.trans (if_neg ?_)
    have hscope : decide (2 ≤ k) = false ∧ (k == 9) = false := ⟨decide_eq_false (by omega), beq_eq_false_iff_ne.mpr (by omega)⟩
    obtain ⟨hold, hsoft⟩ := hscope
    rw [keptKey, hold, hsoft, Bool.false_and, Bool.false_and]
    decide
  have h2 : t1.CauseFrame t2 := .trans (.set (by decide)) (.set (by decide))
  have h3 : t2.CauseFrame t3 := .ite .keepLatches (.refl t2)
  have h4 : t3.CauseFrame t4 := .ite (.trans (.trans (.trans (.trans (.trans (.trans (.trans (.trans (.set (by decide)) (.set (by decide)))
    (.set (by decide))) (.set (by decide))) (.set (by decide))) (.set (by decide))) (.set (by decide))) (.set (by decide))) (.set (by decide)))
    (.refl t3)
  have hall : t1.CauseFrame t4.tearSectors.lostBanks := (((h2.trans h3).trans h4).trans .tearSectors).trans .lostBanks
  exact ⟨hframe.cause hall, fun hk => hall.cause.trans (hcause hk)⟩

end

end Sys2Proof.Machine
end

section
namespace Sys2Proof.Machine

/-! ## Assertion of a reset -/

section

variable {s : State} {k : Nat} {w : Who} {src : BitVec 4}

/-- The state that a reset of this kind takes: recorded, with any substitution abandoned and the rings frozen. -/
def State.resetTaken (s : State) (k : Nat) : State :=
  ((s.noteReset k).subAbandon ((s.noteReset k).get Reg.TMP_SUBSTAT_ENGINE)).freezeRings true

theorem State.resetTaken_store : s.StoreFrame (s.resetTaken k) := by
  unfold State.resetTaken
  exact .trans (.trans .noteReset .subAbandon) .freezeRings

theorem State.Inv.resetTaken (h : s.Inv) : (s.resetTaken k).Inv := by
  unfold State.resetTaken
  exact .freezeRings (.subAbandon (.noteReset h))

/-- A reset that none is in progress before: POR and BOR set the cause anew. -/
theorem State.wholeReset_eq (hnone : s.power.reset = none) : s.wholeReset k =
    if k ≤ 1 then (((s.resetTaken k).afterReset k).set Reg.PWR_RSTCAUSE_KIND (2 ^ k)).set Reg.PWR_RSTCAUSE_LAST k
    else (s.resetTaken k).afterReset k := by
  unfold State.wholeReset State.resetTaken
  rw [hnone]
  dsimp only
  rw [Option.isSome_none, if_neg Bool.false_ne_true, Nat.zero_or]

theorem State.wholeReset_frame (hnone : s.power.reset = none) : s.ResetFrame k (s.wholeReset k) := by
  have hset : ∀ (t : State) (f : Fld) (v : Nat), s.ResetFrame k t → s.ResetFrame k (t.set f v) := fun t f v h =>
    ⟨h.held, h.pending, h.eng, h.hearth, h.prs, h.ports, h.chain, h.ledger, h.tb, h.mem⟩
  obtain ⟨hafter, -⟩ := State.afterReset_spec (s := s.resetTaken k) k
  have hframe : s.ResetFrame k ((s.resetTaken k).afterReset k) := hafter.of_store State.resetTaken_store
  rw [State.wholeReset_eq hnone]
  split
  · exact hset _ _ _ (hset _ _ _ hframe)
  · exact hframe

theorem State.ResetFrame.mem_out {t : State} (h : s.ResetFrame k t) {a : Nat} (ha : ¬(0x40000000 ≤ a ∧ a < 0x40800000)) :
    Memory.read t.mem a = Memory.dflt a := by
  rw [h.mem]
  exact (Sparse.find_filter_key _ ofIngot s.mem a).trans (if_neg (by simpa [ofIngot] using ha))

theorem State.ResetFrame.mem_in {t : State} (h : s.ResetFrame k t) {a : Nat} (hlow : 0x40000000 ≤ a) (hhigh : a < 0x40800000) :
    Memory.read t.mem a = Memory.read s.mem a := by
  rw [h.mem]
  exact (Sparse.find_filter_key _ ofIngot s.mem a).trans (if_pos (decide_eq_true ⟨hlow, hhigh⟩))

/-- KIND and LAST after a brown-out, and BORSRC before its monitors are noted. -/
theorem State.wholeReset_bor (h : s.Inv) (hnone : s.power.reset = none) : (s.wholeReset 1).Inv ∧ (s.wholeReset 1).get Reg.PWR_RSTCAUSE_KIND = 2 ∧
    (s.wholeReset 1).get Reg.PWR_RSTCAUSE_LAST = 1 ∧ (s.wholeReset 1).get Reg.PWR_RSTCAUSE_BORSRC = 0 := by
  have hafter : ((s.resetTaken 1).afterReset 1).Inv := .afterReset h.resetTaken
  obtain ⟨-, hcause⟩ := State.afterReset_spec (s := s.resetTaken 1) 1
  rw [State.wholeReset_eq hnone, if_pos (Nat.le_refl 1)]
  generalize (s.resetTaken 1).afterReset 1 = t at hafter hcause
  have h1 := hafter.set (f := Reg.PWR_RSTCAUSE_KIND) (v := 2 ^ 1)
  refine ⟨h1.set, ?_, h1.get_set_self _ _ (by decide) (by decide), ?_⟩
  · rw [h1.get_set_of_apart _ _ _ (by decide) (by decide)]
    exact hafter.get_set_self _ _ (by decide) (by decide)
  · rw [h1.get_set_of_apart _ _ _ (by decide) (by decide), hafter.get_set_of_apart _ _ _ (by decide) (by decide)]
    exact (congrArg (fun x => fieldGet x 24 4) (hcause (Nat.le_refl 1))).trans (by decide)

theorem exec_bor (h : s.Inv) (hnone : s.power.reset = none) : ∃ t, exec (.bor src) s = .next t ∧ t.ledger = [] ∧ t.get Reg.PWR_RSTCAUSE_KIND = 2 ∧
    t.get Reg.PWR_RSTCAUSE_LAST = 1 ∧ t.get Reg.PWR_RSTCAUSE_BORSRC = src.toNat ∧ t.tb = 0 := by
  obtain ⟨hinv, hkind, hlast, hsrc⟩ := State.wholeReset_bor h hnone
  have hframe : s.ResetFrame 1 (s.wholeReset 1) := State.wholeReset_frame hnone
  refine ⟨(s.wholeReset 1).set Reg.PWR_RSTCAUSE_BORSRC ((s.wholeReset 1).get Reg.PWR_RSTCAUSE_BORSRC ||| src.toNat), rfl,
    hframe.ledger (Nat.le_refl 1), ?_, ?_, ?_, hframe.tb (by decide)⟩
  · rw [hinv.get_set_of_apart _ _ _ (by decide) (by decide), hkind]
  · rw [hinv.get_set_of_apart _ _ _ (by decide) (by decide), hlast]
  · rw [hsrc, Nat.zero_or]
    exact hinv.get_set_self _ _ (by decide) src.isLt

theorem exec_wdt_eq : exec .wdt s = .next (if s.wdtRuns = true then s.wholeReset 3 else s) := rfl

theorem State.ownRefused_common {key : Nat} (hkey : s.keyOwner key = 3) : s.ownRefused w key = false := by
  rw [State.ownRefused, hkey]
  rfl

theorem exec_softReset : exec (.softReset w) s = .next (s.wholeReset 9) :=
  congrArg Host.Outcome.next (State.owned_of_open (State.ownRefused_common rfl) _)

end

end Sys2Proof.Machine

open Sys2Proof Sys2Proof.Machine

/-- Settles O38: the state after a reset as one frame, and what a brown-out leaves in the cause. -/
theorem wholeDeviceResets : Obligations.WholeDeviceResets := by
  intro s src h hnone
  refine ⟨rfl, rfl, fun hruns => ?_, fun hstands => ?_, fun _ => exec_softReset, exec_bor h hnone, fun k _ => ?_⟩
  · rw [exec_wdt_eq, if_pos hruns]
  · rw [exec_wdt_eq, if_neg (by rw [hstands]; decide)]
  · have hframe : s.ResetFrame k (s.wholeReset k) := State.wholeReset_frame hnone
    exact ⟨hframe.held, hframe.pending, hframe.eng, hframe.hearth, hframe.prs, hframe.ports, hframe.chain, hframe.ledger, hframe.tb,
      fun a => hframe.mem_out, fun a => hframe.mem_in⟩
end

section
/-!
SUPPORT. The release of a reset (R646), the watchdog (R640) and the CHAIN reset (R642), and the statement.
-/

namespace Sys2Proof.Machine

section

variable {s : State} {k : Nat} {bar2 : Bool} {boot mpri : Fin 4} {test : Bool} {banks : List (Fin 32)} {engines : List (Fin 16)}
  {rows : List (Fin 8 × BitVec 16 × BitVec 32 × BitVec 32)} {unrep : Bool} {burn : Fin 3}

/-- Start-up of a reset of kind `k` up to READY (R646). -/
def State.madeReady (s : State) (k : Nat) (bar2 : Bool) (boot mpri : Fin 4) (banks : List (Fin 32)) (engines : List (Fin 16))
    (rows : List (Fin 8 × BitVec 16 × BitVec 32 × BitVec 32)) (unrep : Bool) (burn : Fin 3) : State :=
  let a := if k = 9 then s.setEff
    else ((((s.setB Reg.DEV_STAT_BAR2EN bar2).setStraps boot mpri).endCutBurn burn).applyRecord).selfTest banks engines rows unrep
  let b := if k ≤ 1 then a else a.set Reg.PWR_BOOTCNT_COUNT (a.get Reg.PWR_BOOTCNT_COUNT + 1)
  let c := ((b.set Reg.PRS_GSTAT_SEALONLY (b.get Reg.KEY_STAT_SEALONLY)).set Reg.PWR_STAT_READY 1).set Reg.PWR_STAT_STATE 0
  { c with power := { c.power with reset := none }, pcie := { c.pcie with ready := true }, tap := { c.tap with hold := c.tap.holds } }

theorem exec_resetRelease_eq (hreset : s.power.reset = some k) : exec (.resetRelease bar2 boot mpri test banks engines rows unrep burn) s =
    if k ≠ 9 ∧ test = true then .next s
    else .next ((if k = 9 then s.madeReady k bar2 boot mpri banks engines rows unrep burn
      else (s.madeReady k bar2 boot mpri banks engines rows unrep burn).avsSend
        ((s.madeReady k bar2 boot mpri banks engines rows unrep burn).vstart 0)).queueRecord.ingGo.chainEnables.refreshLsw) := by
  show execResetRelease bar2 boot mpri test banks engines rows unrep burn s = _
  unfold execResetRelease State.madeReady
  rw [hreset]

theorem exec_resetRelease_tests (hreset : s.power.reset = some k) (hk : k ≠ 9) (htest : test = true) :
    exec (.resetRelease bar2 boot mpri test banks engines rows unrep burn) s = .next s := by
  rw [exec_resetRelease_eq hreset, if_pos ⟨hk, htest⟩]

theorem exec_resetRelease_starts (hreset : s.power.reset = some k) (hk : k ≠ 9) (htest : test = false) :
    exec (.resetRelease bar2 boot mpri test banks engines rows unrep burn) s =
      .next (((s.madeReady k bar2 boot mpri banks engines rows unrep burn).avsSend
        ((s.madeReady k bar2 boot mpri banks engines rows unrep burn).vstart 0)).queueRecord.ingGo.chainEnables.refreshLsw) := by
  have hrun : ¬(k ≠ 9 ∧ test = true) := fun h => Bool.false_ne_true (htest.symm.trans h.2)
  rw [exec_resetRelease_eq hreset, if_neg hrun, if_neg hk]

theorem exec_resetRelease_soft (hreset : s.power.reset = some k) (hk : k = 9) :
    exec (.resetRelease bar2 boot mpri test banks engines rows unrep burn) s =
      .next (s.madeReady k bar2 boot mpri banks engines rows unrep burn).queueRecord.ingGo.chainEnables.refreshLsw := by
  have hrun : ¬(k ≠ 9 ∧ test = true) := fun h => h.1 hk
  rw [exec_resetRelease_eq hreset, if_neg hrun, if_pos hk]

end

/-! ## The watchdog and the CHAIN reset -/

section

variable {s : State} {w : Who} {key : BitVec 16}

theorem exec_wdtKick : exec (.wdtKick w key) s = .next (s.writeWdtkick (key.setWidth 32)) :=
  congrArg Host.Outcome.next (State.owned_of_open (State.ownRefused_common rfl) _)

theorem exec_chrstGo : exec (.chrstGo w) s = .next (s.writeChrst 1) :=
  congrArg Host.Outcome.next (State.owned_of_open (State.ownRefused_common rfl) _)

theorem exec_wdtWarn_eq : exec .wdtWarn s = .next (if s.wdtRuns = true ∧ s.wdtHalf < s.get Reg.PWR_WDTREM_REMAIN then s.wdtWarn else s) := rfl

theorem exec_wdtWarn_idle (hno : s.wdtRuns = false ∨ s.get Reg.PWR_WDTREM_REMAIN ≤ s.wdtHalf) : exec .wdtWarn s = .next s := by
  rw [exec_wdtWarn_eq, if_neg]
  rintro ⟨hruns, hhalf⟩
  obtain hoff | hpast := hno
  · exact Bool.false_ne_true (hoff.symm.trans hruns)
  · omega

theorem exec_wdtWarn_warns (hruns : s.wdtRuns = true) (hhalf : s.wdtHalf < s.get Reg.PWR_WDTREM_REMAIN) (h : s.Inv) :
    ∃ t, exec .wdtWarn s = .next t ∧ t.get Reg.PWR_STAT_WDTWARN = 1 ∧ (t.ledger.head?.map (fun x => x.code)) = some 0x0E01 ∧
      t = { s with regs := t.regs, ledger := t.ledger } := by
  have h1 := h.set (f := Reg.PWR_STAT_WDTWARN) (v := 1)
  refine ⟨s.wdtWarn, ?_, ?_, State.record_head_code .., rfl⟩
  · rw [exec_wdtWarn_eq, if_pos ⟨hruns, hhalf⟩]
  · rw [State.wdtWarn, State.get_record_of_ne _ _ _ _ _ (by decide), h1.get_set_of_apart _ _ _ (by decide) (by decide)]
    exact h.get_set_self _ _ (by decide) (by decide)

theorem exec_chainReset_eq : exec .chainReset s =
    .next (if (s.chain.run.any (fun r => r.cmd == 3 && decide (r.target ≤ s.tick))) = true then (s.noteReset 8).chainReset else s) := rfl

theorem exec_chainReset_due (r : RunCmd) (hmem : r ∈ s.chain.run) (hcmd : r.cmd = 3) (hdue : r.target ≤ s.tick) :
    exec .chainReset s = .next ((s.noteReset 8).chainReset) := by
  rw [exec_chainReset_eq, if_pos (List.any_eq_true.mpr ⟨r, hmem, by rw [hcmd, decide_eq_true hdue]; rfl⟩)]

theorem exec_chainReset_early (hlate : ∀ r ∈ s.chain.run, r.cmd = 3 → s.tick < r.target) : exec .chainReset s = .next s := by
  rw [exec_chainReset_eq, if_neg]
  intro hany
  obtain ⟨r, hmem, hr⟩ := List.any_eq_true.mp hany
  rw [Bool.and_eq_true, beq_iff_eq, decide_eq_true_eq] at hr
  obtain ⟨hcmd, hdue⟩ := hr
  exact absurd (hlate r hmem hcmd) (by omega)

end

end Sys2Proof.Machine

open Sys2Proof Sys2Proof.Machine

/-- Settles O40: start-up as one state up to READY, and the watchdog's and the Chain's commands branch by branch. -/
theorem releaseAndWatchdog : Obligations.ReleaseAndWatchdog := by
  refine ⟨fun bar2 boot mpri test banks engines rows unrep burn k s hreset => ?_, fun w key s => ?_⟩
  · exact ⟨exec_resetRelease_tests hreset, exec_resetRelease_starts hreset, exec_resetRelease_soft hreset⟩
  · exact ⟨exec_wdtKick, exec_wdtWarn_idle, exec_wdtWarn_warns, exec_chrstGo, exec_chainReset_due, exec_chainReset_early⟩
end
